-- ==== Sys2Proof/Word.lean ====
section
/-!
DEFINITION. The word types of the TZ640 hub (spec/00_scope.md R6, R11).
-/
namespace Sys2Proof

/-- A 32-bit word of the register space, of a mailbox area or of a payload (R6, R477). -/
abbrev Word := BitVec 32
/-- A time word: seconds above, a binary fraction of a second below (R11). -/
abbrev T64 := BitVec 64
/-- One byte of a record, a frame or an event's data. -/
abbrev Byte := BitVec 8

end Sys2Proof
end

