-- ==== Sys2Proof/Machine/Tab.lean ====
section
/-!
DEFINITION. Sparse tables in one canonical form: the memory form of every addressed buffer, register file and
unit array of the hub. Keys rise strictly and no entry holds the value an unlisted key reads as, so equal
tables are equal data.
-/
namespace Sys2Proof.Machine

/-- A table from numbers to values; an unlisted key reads as the type's default. -/
abbrev Tab (α : Type) := List (Nat × α)

/-- What key `i` reads as. -/
def Tab.get {α : Type} [Inhabited α] : Tab α → Nat → α
  | [], _ => default
  | (k, v) :: t, i => if k = i then v else Tab.get t i

/-- The table without key `i`. -/
def Tab.del {α : Type} : Tab α → Nat → Tab α
  | [], _ => []
  | (k, v) :: t, i => if k = i then Tab.del t i else (k, v) :: Tab.del t i

/-- Places `(i, v)` before the first larger key. -/
def Tab.ins {α : Type} : Tab α → Nat → α → Tab α
  | [], i, v => [(i, v)]
  | (k, w) :: t, i, v => if i < k then (i, v) :: (k, w) :: t else (k, w) :: Tab.ins t i v

/-- Writes `v` at key `i`, keeping the canonical form. -/
def Tab.put {α : Type} [Inhabited α] [DecidableEq α] (t : Tab α) (i : Nat) (v : α) : Tab α :=
  if v = default then Tab.del t i else Tab.ins (Tab.del t i) i v

/-- Changes the entry of key `i`. -/
def Tab.upd {α : Type} [Inhabited α] [DecidableEq α] (t : Tab α) (i : Nat) (f : α → α) : Tab α :=
  t.put i (f (t.get i))

/-- Writes consecutive entries from key `i` on. -/
def Tab.puts {α : Type} [Inhabited α] [DecidableEq α] (t : Tab α) (i : Nat) : List α → Tab α
  | [] => t
  | v :: vs => Tab.puts (t.put i v) (i + 1) vs

/-- Reads `n` consecutive entries from key `i` on. -/
def Tab.gets {α : Type} [Inhabited α] (t : Tab α) (i n : Nat) : List α :=
  (List.range n).map fun j => t.get (i + j)

/-- The keys listed. -/
def Tab.keys {α : Type} (t : Tab α) : List Nat := t.map (·.1)

/-- Changes every listed entry; the canonical form is restored. -/
def Tab.mapAll {α : Type} [Inhabited α] [DecidableEq α] (t : Tab α) (f : Nat → α → α) : Tab α :=
  t.foldl (fun r kv => r.put kv.1 (f kv.1 kv.2)) []

/-- The lowest number from `i` on that is no key or whose entry is not busy, in a table with rising keys. -/
def Tab.firstIdle {α : Type} (busy : α → Bool) : Tab α → Nat → Nat
  | [], i => i
  | (k, x) :: t, i => if k < i then Tab.firstIdle busy t i else if k = i && busy x then Tab.firstIdle busy t (i + 1) else i

/-- The keys rise strictly and lie above `lo`. -/
def Tab.rising {α : Type} : Option Nat → Tab α → Bool
  | _, [] => true
  | lo, (k, _) :: t => (lo.all (· < k)) && Tab.rising (some k) t

/-- The canonical form: keys rise strictly, no entry holds the default. -/
def Tab.wf {α : Type} [Inhabited α] [DecidableEq α] (t : Tab α) : Bool :=
  Tab.rising none t && t.all fun kv => decide (kv.2 ≠ default)

end Sys2Proof.Machine
end

