-- ==== Sys2Proof/Machine/CoreTypes.lean ====
section
/-!
DEFINITION. State of the host interface, events, clocks, timebases and resets (chapters 16, 17, 18, 08, 19).
Default field values are the values after a power-on reset.
-/
namespace Sys2Proof.Machine

/-! ## SYS (R475, R537, R546, R555) -/

/-- ACQ of SYS.STATE (R475). -/
inductive Acq where
  | boot | running | stopped | warmReset
deriving DecidableEq, Repr, Inhabited

/-- Whether the hub runs, waits in reset for its cold boot, or is in RETAIN (R546, R555). -/
inductive Power where
  | reset | run | retain | retainResetN
deriving DecidableEq, Repr, Inhabited

/-- A reset that a command has asked for and that follows (R475, R556, R563). -/
inductive PendReset where
  | control (cause : Nat)
  | datapath
  | slotSwitch (slotB : Bool) (trialS : Option Nat)
  | bootRestart
deriving DecidableEq, Repr, Inhabited

/-- The straps of STRAPS (R475, R569). -/
structure Straps where
  hubId : Nat := 0
  cascMaster : Bool := false
  hostSel : Bool := false
  oscDly : Nat := 0
  bootSel : Nat := 0
deriving DecidableEq, Repr, Inhabited

/-- A per-block reset under way (R556): BLOCK, the mailbox and tag to answer, and frame strobes counted at acceptance and
at the reset's strobe. -/
structure BlockReset where
  block : Nat
  mb : Nat
  tag : Word
  since : Nat
  began : Option Nat := none
deriving DecidableEq, Repr, Inhabited

structure SysSt where
  straps : Straps := {}
  acq : Acq := .boot
  fwReady : Bool := false
  recovery : Bool := false
  slotB : Bool := false
  resetCause : Word := 1
  ctrlResets : Nat := 0
  spiErr : Word := 0
  pendingReset : Option PendReset := none
  power : Power := .reset
  /-- The retention controller's latch of R536. -/
  retentionLost : Bool := true
  lastTag : Tab Word := []
  /-- Steps 1 to 7 of R540 are done and step 8 is due. -/
  bootStep8 : Bool := false
  /-- Groups that step 8 restarts (R540). -/
  autostart : List Nat := []
  blockReset : Option BlockReset := none
  /-- Mailbox whose RELEASE brings the pending reset on (R556). -/
  pendingMb : Nat := 8
  /-- XO cycle from which the pending reset is due without a RELEASE (R556, R563). -/
  resetDue : Nat := 0
  /-- Conditions of the die temperature and of each supply monitor (R536, R589). -/
  dieHot : Bool := false
deriving DecidableEq, Repr, Inhabited

/-! ## Mailboxes, handles and the completion queue (R476 to R491) -/

inductive MbState where
  | offline | idle | posted | busy | ready
deriving DecidableEq, Repr, Inhabited

structure Mailbox where
  cmd : Tab Word := []
  resp : Tab Word := []
  state : MbState := .offline
  taken : Nat := 0
  ctrl : Word := 0
  status : Word := 0
deriving DecidableEq, Repr, Inhabited

/-- A handle slot (R485, R487). -/
structure HSlot where
  gen : Nat := 0
  held : Bool := false
  opcode : Nat := 0
  tag : Word := 0
  mb : Nat := 0
  done : Bool := false
  seq : Nat := 0
  result : List Word := []
  crossed : Bool := false
deriving DecidableEq, Repr, Inhabited

/-- A completion decided while FW_READY is 0 (R491). -/
structure Deferred where
  handle : Nat
  status : Nat
  result : List Word
  epoch : Nat
  t : T64
deriving DecidableEq, Repr, Inhabited

/-- One MSI-X table entry (R472, R474); masked at reset, as the PCIe standard has it. -/
structure MsixVec where
  addrLo : Word := 0
  addrHi : Word := 0
  data : Word := 0
  masked : Bool := true
deriving DecidableEq, Repr, Inhabited

structure HostSt where
  mbs : Tab Mailbox := []
  posted : List Nat := []
  slots : Tab HSlot := []
  deferred : List Deferred := []
  /-- Completion entry `i` at words `8 i` to `8 i + 7`. -/
  cq : Tab Word := []
  cqWr : Nat := 0
  cqRd : Nat := 0
  cqCtrl : Word := 0
  cqStatus : Word := 0
  msix : Tab MsixVec := []
  pba : Word := 0
  bme : Bool := false
  d3hot : Bool := false
  pcieReady : Bool := false
  spiWin : Tab Word := []
deriving DecidableEq, Repr, Inhabited

/-! ## Events and the trouble log (R499 to R511) -/

/-- A trouble log entry (R506). -/
structure LogEntry where
  t : T64 := 0
  epoch : Nat := 0
  event : Nat := 0
  severity : Nat := 0
  seq : Nat := 0
  data : List Byte := []
deriving DecidableEq, Repr, Inhabited

/-- A raise captured while the event controller's clock is stopped (R511). -/
structure LatchedRaise where
  ev : Nat
  data : List Byte
  t : T64
  epoch : Nat
  isLocal : Bool
deriving DecidableEq, Repr, Inhabited

structure EvtSt where
  status : Tab Word := []
  /-- ENABLE of each bank once it has been written; unlisted banks hold their reset value. -/
  enable : Tab (Option Word) := []
  /-- ROUTE byte of each event once it has been written. -/
  route : Tab (Option Nat) := []
  count : Tab Word := []
  log : Tab LogEntry := []
  logNext : Nat := 0
  logWritten : Nat := 0
  logMerged : Nat := 0
  /-- TB_LOCAL at the last entry (R507). -/
  lastLocal : T64 := 0
  latched : List LatchedRaise := []
  /-- TB_LOCAL second in which a source limited to once per second was last raised, plus one (R500). -/
  lastRaise : Tab Nat := []
deriving DecidableEq, Repr, Inhabited

/-! ## Clocks (chapter 18) -/

/-- A clock monitor (R517). -/
structure ClkMon where
  count : Nat := 0
  ok : Bool := false
  failed : Bool := false
  fails : Nat := 0
  oks : Nat := 0
deriving DecidableEq, Repr, Inhabited

/-- The frequency-measuring counter (R527, R529, R531). -/
structure Fmc where
  busy : Bool := false
  meas : Nat := 0
  ref : Nat := 0
  log2 : Nat := 0
  n : Nat := 0
  handle : Nat := 0
  start : T64 := 0
deriving DecidableEq, Repr, Inhabited

/-- A CLK_GATE_SET whose gates are under quiescence (R526, R532). -/
structure GateCmd where
  waiting : List Nat
  failed : List Nat
  mb : Nat
  tag : Word
  /-- XO cycles and TIME cycles counted when the gates were asked for quiescence (R526). -/
  since : Nat
  sinceCyc : Nat
deriving DecidableEq, Repr, Inhabited

/-- A register write queued during a hold (R524). -/
structure HeldWrite where
  addr : Nat
  data : Word
deriving DecidableEq, Repr, Inhabited

/-- A RETAIN whose resume led into STOPPED: the cause of its GAP, what it adds to u0 in ns, and whether AON failed (R232, R579). -/
structure Outage where
  cause : Nat
  extra : Nat
  lost : Bool
deriving DecidableEq, Repr

structure ClkSt where
  rootLock : Bool := false
  /-- TB_LOCAL (XO cycles) at the last lock of ROOT, and at the last relock attempt in STOPPED (R523). -/
  rootSince : Nat := 0
  relockAt : Option Nat := none
  /-- ROOT has locked since the last power-on reset, RESET_N or resume (R514, R521). -/
  rootEver : Bool := false
  memLock : Bool := false
  held : Bool := false
  stopped : Bool := false
  oscWait : Bool := false
  /-- A failed XO has been seen again and its start delay has begun (R516). -/
  oscSeen : Bool := false
  fault : Word := 0
  muxHost : Nat := 2
  muxCpu : Nat := 1
  gates : List Nat := []
  gateCmd : Option GateCmd := none
  mon : Tab ClkMon := []
  holds : Nat := 0
  stops : Nat := 0
  lastHold : T64 := 0
  lastHoldNs : Nat := 0
  resumeEpoch : Nat := 0
  fmc : Fmc := {}
  /-- TB_LOCAL (XO cycles) of recent losses of lock (R521). -/
  unlocks : List Nat := []
  heldWrites : List HeldWrite := []
  /-- XO is failed and TB_LOCAL runs on RC (R518). -/
  onRc : Bool := false
  /-- XO was failed at the start of the held span (R522). -/
  xoFailSpan : Bool := false
  /-- A RETAIN that the present STOPPED goes on from (R232). -/
  outage : Option Outage := none
deriving DecidableEq, Repr, Inhabited

structure ClkCfg where
  xoTol : Nat := 120
  failWin : Nat := 2
  okWin : Nat := 16
  refTol : Nat := 1000
  xoDecl : Nat := 500
deriving DecidableEq, Repr, Inhabited

/-! ## Timebases (chapter 08) -/

/-- SOURCE of TIME_STATUS and of a TIME MAP record (R238). -/
inductive TimeSrc where
  | none | cascade | net | pps | holdover
deriving DecidableEq, Repr, Inhabited

/-- A compare unit (R239 to R242). -/
structure Cmp where
  ctrl : Word := 0
  status : Word := 0
  target : T64 := 0
  period : T64 := 0
  fired : T64 := 0
  /-- No evaluation has happened since arming, a step, a break, a reload or a resume (R239). -/
  fresh : Bool := true
deriving DecidableEq, Repr, Inhabited

/-- A break that has been decided and waits for P (R228, R229). -/
structure PendBreak where
  /-- e at the deciding measurement, units of 2^-32 s. -/
  e : Int
  /-- s, TIME cycles. -/
  s : Int
  /-- The epoch to break into, when a master gives it (R234). -/
  epoch : Option Nat
  /-- KIND of the TIME MAP record: 1 BREAK or 6 RENUMBER. -/
  kind : Nat
  /-- Frame strobes counted at the deciding measurement. -/
  since : Nat
deriving DecidableEq, Repr, Inhabited

/-- A TIME_SET that waits for its P (R245). -/
structure PendSet where
  seconds : Nat
  strobe : Nat
  unc : Nat
  handle : Nat
  /-- Frame strobes counted at acceptance. -/
  since : Nat
deriving DecidableEq, Repr, Inhabited

/-- A TIME_REF_SET that waits for its edge (R244). -/
structure PendRef where
  seconds : Nat
  handle : Nat
  since : T64
deriving DecidableEq, Repr, Inhabited

/-- One change of epoch kept for MAP (R240): the new epoch and its step; an origin has no mapping. -/
structure EpochStep where
  /-- The epoch that ended, and its reading at P. -/
  old : Nat
  ended : T64
  epoch : Nat
  step : T64
  origin : Bool
deriving DecidableEq, Repr, Inhabited

structure Snap where
  net : T64 := 0
  sample : T64 := 0
  loc : T64 := 0
  ref : T64 := 0
  word : Word := 0
deriving DecidableEq, Repr, Inhabited

/-- TIME_SRC_SET (R243). -/
structure SrcCfg where
  srcEn : Nat := 7
  slewMax : Nat := 100
  breakLimit : Nat := 2000
  breakQual : Nat := 3
  holdoff : Nat := 10
  holdStab : Nat := 1000
  mapPeriod : Nat := 60
  netUnc : Nat := 100
deriving DecidableEq, Repr, Inhabited

structure TbSt where
  /-- The settings of TIME_SRC_SET in force: a new set takes effect at the next measurement (R243). -/
  use : SrcCfg := {}
  /-- The free count of TIME cycles, which never steps (R279). -/
  cycles : Nat := 0
  /-- TB_SAMPLE: seconds, and TIME cycles within the second (R221). -/
  sec : Nat := 0
  cnt : Nat := 0
  /-- TB_NET in units of 2^-64 s, modulo 2^96, and NET_INC (R253). -/
  net : Nat := 0
  netInc : Nat := 150119987579
  netValid : Bool := false
  /-- TB_LOCAL in units of 2^-40 XO cycles since power-on reset or RESET_N (R223). -/
  xo : Nat := 0
  /-- TB_REF − TB_SAMPLE (R220). -/
  refOff : T64 := 0
  refValid : Bool := false
  epoch : Nat := 0
  /-- An origin of R232 has started TB_SAMPLE. -/
  started : Bool := false
  y : Int := 0
  ySrc : Int := 0
  slewing : Bool := false
  /-- Values of y that the last second has seen: XO cycles and value (R222). -/
  yMoves : List (Nat × Int) := []
  /-- y less its slew component over the last 64 s: the XO cycles from which each value holds, and the value (R226). -/
  yHist : List (Nat × Int) := []
  source : TimeSrc := .none
  qCasc : Bool := false
  qNet : Bool := false
  qPps : Bool := false
  /-- The source named has not yet given its first measurement (R225). -/
  awaiting : Bool := false
  breakCnt : Nat := 0
  breakNeg : Bool := false
  lastErr : Int := 0
  lastBreak : T64 := 0
  breaks : Nat := 0
  taiUnknown : Bool := false
  /-- u0 of R236 and the XO count t_h starts from; the last value CASCADE declared. -/
  u0 : Option Nat := none
  holdSince : Nat := 0
  cascUnc : Option Nat := none
  cascMaster : Nat := 255
  /-- Breaks that have been decided, in order (R229, R241). -/
  pendBreak : List PendBreak := []
  pendSet : Option PendSet := none
  pendRef : List PendRef := []
  /-- Higher-priority sources that are qualified, and since when each (R225). -/
  cand : List (TimeSrc × Nat) := []
  /-- The last TIME MAP record: TB_LOCAL in XO cycles and the declared value. -/
  lastMap : Option (Nat × Option Nat) := none
  steps : List EpochStep := []
  snap : Snap := {}
  cmp : Tab Cmp := []
  /-- PPS_OUT: TB_LOCAL as `xo` at which the pulse in progress began, and the last whole second plus OFFSET that the selected
  timebase has crossed (R246). -/
  ppsPin : Option Nat := none
  ppsLast : Option T64 := none
  /-- Readings latched at a hold (R235). -/
  holdSample : Nat × Nat := (0, 0)
  holdNet : Nat := 0
  holdLocal : Nat := 0
  /-- Frame strobes counted for the lanes (R384). -/
  strobes : Nat := 0
  /-- TB_SAMPLE has been loaded, and no frame strobe has fallen at or after its new reading (R221, R229, R235). -/
  loaded : Bool := false
  /-- The reading loaded belongs to a new epoch whose first frame strobe has not come (R230). -/
  dead : Bool := false
  /-- TB_LOCAL, as `xo`, at the last frame strobe, and whether a held span has ended since (R384). -/
  strobeXo : Nat := 0
  afterHold : Bool := false
  /-- The servo's offset RMS and its path mark (R236). -/
  netRms : Nat := 0
  asymUnverified : Bool := false
  /-- Consecutive PPS_IN edges within 1 us of a whole second of TB_REF (R224). -/
  ppsGood : Nat := 0
deriving DecidableEq, Repr, Inhabited

/-- The last TIME_PPS_OUT_SET (R246). -/
structure PpsOut where
  tb : Nat := 0
  enable : Bool := false
  pol : Bool := false
  width : Nat := 0
  offset : Int := 0
deriving DecidableEq, Repr, Inhabited

/-- TIME_REF_SET and TIME_PPS_OUT_SET, and the last TIME_SRC_SET (R243, R244, R246). -/
structure TbCfg where
  src : SrcCfg := {}
  ppsUnc : Nat := 0
  ppsFalling : Bool := false
  cableDly : Int := 0
  ppsOut : PpsOut := {}
deriving DecidableEq, Repr, Inhabited

end Sys2Proof.Machine
end

