-- ==== Sys2Proof/Config.lean ====
section
/-!
DEFINITION. What the spec leaves open: constants and functions without a body. Nothing in Lean can evaluate
them or prove a value of them (log entries 7, 10, 11, 12).
-/
namespace Sys2Proof

/-- The silicon revision of SYS.REVISION (R475). -/
opaque Config.revision : Word
/-- The hub's serial number from OTP (R496). -/
opaque Config.serial : BitVec 64
/-- The RELEASE that the boot ROM reports in recovery, where no image runs (R496, R541). -/
opaque Config.romRelease : Word
/-- The levels that the boot ROM reports in recovery (R496, R541). -/
opaque Config.romLevels : Word
/-- A value that the spec leaves open, named by a counter of the state. -/
opaque Config.freeValue : Nat → BitVec 64
/-- The ticket that CODEC_VERIFY_FAIL gives for a record that has not opened yet: stream and XO count (R321, R368). -/
opaque Config.ticketOpen : Nat → Nat → Word
/-- What R314 leaves open of the CHANNEL DESCRIPTOR of a channel that is not configured or has no input: channel, ticket, and which field
(0 PROFILE, 1 BANK, 2 DESIGN_ID, 3 TAU_CH, 4 RATE_NUM, 5 RATE_DEN). -/
opaque Config.descOpen : Nat → Nat → Nat → BitVec 64
/-- The fixed internal offsets of line 9 for a requester, in ps, measured at manufacture (R291). -/
opaque Config.line9Offset : Nat → Int
/-- A random draw (SESSION of R328, nonces of R402 and R559), named by a counter of the state: 16 bytes. -/
opaque Config.random : Nat → List Byte
/-- AES-128-CMAC of a message under a key (R403, R420, R559). -/
opaque Config.cmac : List Byte → List Byte → List Byte
/-- HMAC-SHA-256 of a message under a key (R257, R270). -/
opaque Config.hmac : List Byte → List Byte → List Byte
/-- AES-128-GCM encryption: key, nonce, additional data, plaintext; the result ends with the 16-byte tag (R328). -/
opaque Config.gcm : List Byte → List Byte → List Byte → List Byte → List Byte
/-- SHA-256 (R542, R560). -/
opaque Config.sha256 : List Byte → List Byte
/-- Whether an ECDSA P-256 signature over a digest is valid: public key, digest, signature (R542). -/
opaque Config.ecdsa : List Byte → List Byte → List Byte → Bool

/-- The number that NET_RR_DONE carries for each of its results (R254 to R256, R266). -/
opaque Config.rrResult : Nat → Word
/-- The codec engine that serves a stream, among the engines in service (R349). -/
opaque Config.engineOf : Nat → Nat
/-- The mean modulator code of a DC input at full scale (R51, R118). -/
opaque Config.codeFs : Nat
/-- RMS noise of a modulator's ZERO codes, referred to its input, in nV (R96). -/
opaque Config.zeroNoise : List Int → Nat
/-- How far the CIC's gain at DC lies from 1, in 2^-40, before the limit of R118: fast input, N and M. -/
opaque Config.cicDev : Bool → Nat → Nat → Int
/-- The resampler's prototype before the limits of R128 that the model holds: phase 0 to 127, input 0 to 15; its fraction bits. -/
opaque Config.rsCoef : Nat → Nat → Int
opaque Config.rsFrac : Nat

end Sys2Proof
end

