-- ==== Sys2Proof/Machine/Bits.lean ====
section
/-!
DEFINITION. Bit fields, byte order, signed fields, time words and CRC-32C (R5, R6, R11, R12, R392).
-/
namespace Sys2Proof.Machine

/-- Bits `[hi:lo]` of a word as a number. -/
def fld (w : Word) (hi lo : Nat) : Nat := w.toNat / 2 ^ lo % 2 ^ (hi + 1 - lo)
/-- Bit `i` of a word. -/
def bit (w : Word) (i : Nat) : Bool := w.getLsbD i
/-- Word `i` of a payload; a payload shorter than that gives 0. -/
def pw (pl : List Word) (i : Nat) : Word := pl.getD i 0
/-- A word from a number, modulo 2^32. -/
def wd (n : Nat) : Word := BitVec.ofNat 32 n
/-- A flag at a bit position, as a number. -/
def flag (b : Bool) (i : Nat) : Nat := if b then 2 ^ i else 0
/-- A two's complement number of `n` bits read as an integer. -/
def signed (n : Nat) (x : Nat) : Int :=
  if x % 2 ^ n < 2 ^ (n - 1) then (x % 2 ^ n : Nat) else ((x % 2 ^ n : Nat) : Int) - ((2 ^ n : Nat) : Int)
/-- An integer as a two's complement number of `n` bits. -/
def unsigned (n : Nat) (z : Int) : Nat := (z % ((2 ^ n : Nat) : Int)).toNat
/-- An integer as a word. -/
def wdInt (z : Int) : Word := wd (unsigned 32 z)
/-- The set bits of `n` below `k`, rising. -/
def bitsOf (n k : Nat) : List Nat := (List.range k).filter fun i => n.testBit i
/-- A 64-bit mask from two payload words, the lower first. -/
def mask64 (lo hi : Word) : Nat := lo.toNat + hi.toNat * 2 ^ 32
/-- The number with the named bits set. -/
def maskOf (l : List Nat) : Nat := l.foldl (fun a i => a ||| 2 ^ i) 0
/-- A word's bits cleared where `m` is 1 (an access code W1C of R8). -/
def w1c (w m : Word) : Word := w &&& ~~~m

/-- `n` bytes of `x`, the least significant first (R5). -/
def leBytes (n x : Nat) : List Byte := (List.range n).map fun i => BitVec.ofNat 8 (x / 256 ^ i)
/-- `n` bytes of `x`, the most significant first. -/
def beBytes (n x : Nat) : List Byte := (leBytes n x).reverse
/-- Bytes read as a number, the least significant first (R5). -/
def leNat : List Byte → Nat
  | [] => 0
  | b :: t => b.toNat + 256 * leNat t
/-- Bytes read as a number, the most significant first. -/
def beNat (l : List Byte) : Nat := leNat l.reverse
/-- The bytes of words, each least significant byte first. -/
def bytesOf (ws : List Word) : List Byte := ws.flatMap fun w => leBytes 4 w.toNat
/-- `n` words from bytes; missing bytes are 0. -/
def wordsOf (n : Nat) (bs : List Byte) : List Word :=
  (List.range n).map fun i => wd (leNat ((bs.drop (4 * i)).take 4))
/-- Bytes with zeros up to length `n`. -/
def padTo (n : Nat) (bs : List Byte) : List Byte := bs ++ List.replicate (n - bs.length) 0
/-- The 16 bytes of an AES-CMAC (R402). -/
def mac16 (key m : List Byte) : List Byte := padTo 16 ((Config.cmac key m).take 16)
/-- Bytes with zeros up to the next multiple of `k`. -/
def padMul (k : Nat) (bs : List Byte) : List Byte := bs ++ List.replicate ((k - bs.length % k) % k) 0

/-- The lower and the upper word of a 64-bit number. -/
def lo32 (x : Nat) : Word := wd x
def hi32 (x : Nat) : Word := wd (x / 2 ^ 32)
/-- A T64 in two words, fraction first (R11). -/
def tWords (t : T64) : List Word := [lo32 t.toNat, hi32 t.toNat]
/-- The signed difference b − a of R12. -/
def tDiff (a b : T64) : Int := (b - a).toInt
/-- `a` is not later than `b` (R12). -/
def tLe (a b : T64) : Bool := decide (0 ≤ tDiff a b)
/-- `a` is before `b` (R12). -/
def tLt (a b : T64) : Bool := decide (0 < tDiff a b)
/-- The signed difference b − a of two epochs (R13). -/
def epochDiff (a b : Nat) : Int := signed 16 (b + 65536 - a % 65536)
/-- A count that stops at 2^32 − 1. -/
def sat32 (n : Nat) : Nat := min n 4294967295

/-- Rounding of a quotient to nearest, ties away from zero. -/
def roundDiv (a : Int) (b : Nat) : Int :=
  if a ≥ 0 then (2 * a + b) / (2 * b) else - ((2 * (-a) + b) / (2 * b))
/-- A number held between two limits. -/
def clampI (x lo hi : Int) : Int := max lo (min hi x)
/-- Rounding of a quotient upwards. -/
def ceilDiv (a b : Nat) : Nat := (a + b - 1) / b

/-- One byte into the reflected CRC-32C (polynomial 0x1EDC6F41) of R392. -/
def crcByte (c : Nat) (b : Byte) : Nat :=
  (List.range 8).foldl (fun x _ => if x % 2 = 1 then (x / 2) ^^^ 0x82F63B78 else x / 2) (c ^^^ b.toNat)
/-- CRC-32C over bytes (R392). -/
def crc32c (bs : List Byte) : Word := wd (bs.foldl crcByte 0xFFFFFFFF ^^^ 0xFFFFFFFF)

/-! ## Exact fractions of seconds and rates -/

/-- A fraction, not reduced. -/
structure Fr where
  num : Int
  den : Nat
deriving DecidableEq, Repr

def fr (n : Int) (d : Nat) : Fr := { num := n, den := d }
def Fr.add (a b : Fr) : Fr := fr (a.num * b.den + b.num * a.den) (a.den * b.den)
def Fr.sub (a b : Fr) : Fr := fr (a.num * b.den - b.num * a.den) (a.den * b.den)
def Fr.mul (a b : Fr) : Fr := fr (a.num * b.num) (a.den * b.den)
/-- Quotient by a positive fraction. -/
def Fr.div (a b : Fr) : Fr := fr (a.num * b.den) (a.den * b.num.toNat)
def Fr.le (a b : Fr) : Bool := decide (a.num * b.den ≤ b.num * a.den)
def Fr.lt (a b : Fr) : Bool := decide (a.num * b.den < b.num * a.den)
def Fr.floor (a : Fr) : Int := a.num / (a.den : Int)
def Fr.ceil (a : Fr) : Int := -((-a.num) / (a.den : Int))
/-- Rounding to nearest, ties to the larger value (R114). -/
def Fr.round (a : Fr) : Int := (2 * a.num + a.den) / (2 * (a.den : Int))
/-- A fraction in units of 2^-32, rounded as timestamps are (R114). -/
def Fr.t (a : Fr) : Int := (a.mul (fr (2 ^ 32) 1)).round
/-- Seconds as a T64. -/
def Fr.toT (a : Fr) : T64 := BitVec.ofInt 64 a.t
/-- A T64 as a fraction of seconds. -/
def frT (t : T64) : Fr := fr t.toNat (2 ^ 32)
/-- TIME cycles as a fraction of seconds. -/
def frCyc (n : Nat) : Fr := fr n 122880000

end Sys2Proof.Machine
end

