-- ==== Sys2Proof/Machine/JrnTypes.lean ====
section
/-!
DEFINITION. State of the journal, its consumers and the live queues (chapter 11).
-/
namespace Sys2Proof.Machine

/-- The share of the journal's pages that a page was taken from (R332). -/
inductive Share where
  | normal | parts | sys
deriving DecidableEq, Repr, Inhabited

/-- A journal page in use or retired, or a free one with a count of errors (R302, R304, R333). -/
structure Page where
  writer : Nat := 0
  seq : Nat := 0
  prev : Option Nat := none
  low : Nat := 0
  /-- Highest ticket with bytes in the page so far; it goes into the page header when the page closes. -/
  high : Nat := 0
  closed : Bool := false
  /-- Correctable errors counted; a free page keeps its count. -/
  ce : Nat := 0
  retired : Bool := false
  /-- The background check of R540 has passed. -/
  checked : Bool := true
  share : Share := .normal
  /-- FIRST_REC of the page header: the offset of the first record that starts in the page. -/
  firstRec : Option Nat := none
  /-- The page is in a writer's chain. -/
  used : Bool := false
deriving DecidableEq, Repr, Inhabited

/-- A writer's chain (R303, R318). -/
structure Writer where
  page : Option Nat := none
  fill : Nat := 0
  seq : Nat := 0
  /-- Ticket of the open record. -/
  openRec : Option Nat := none
deriving DecidableEq, Repr, Inhabited

/-- The description of an open SAMPLE BLOCK (R307). -/
structure BlockDesc where
  order : Bool
  n : Nat
  rateNum : Nat
  rateDen : Nat
  k0 : Nat
  parts : Nat
  /-- (channel, present) in entry order. -/
  chans : List (Nat × Bool)
deriving DecidableEq, Repr

/-- A record held by the journal (R305). -/
structure Rec where
  ticket : Nat
  type : Nat
  flags : Nat
  group : Nat
  hub : Nat
  version : Nat
  epoch : Nat
  t : T64
  /-- Bytes after the header; for an open SAMPLE BLOCK the parts landed so far. -/
  body : List Byte
  block : Option BlockDesc
  isOpen : Bool
  pages : List Nat
deriving DecidableEq, Repr

/-- An open GAP or REFUSAL episode (R313, R318). -/
structure Episode where
  cause : Nat
  detail : Nat
  chans : List Nat
  epoch : Nat
  first : T64
  last : T64
  unc : Nat
deriving DecidableEq, Repr

/-- An output in landing staging (R32, R309). -/
structure StOut where
  ch : Nat
  /-- Index n of its instant (R148). -/
  k : Nat
  t : T64
  epoch : Nat
  value : Word
  q : Byte
  /-- It lands; an output refused at the entry to staging reaches the recent rings alone (R331). -/
  land : Bool := true
  /-- The free count of TIME cycles at its emission: the wait of R73 runs from there. -/
  born : Nat := 0
deriving DecidableEq, Repr

/-- A closed part whose DRAM write has not completed (R317). -/
structure Part where
  writer : Nat
  group : Nat
  block : BlockDesc
  epoch : Nat
  t : T64
  body : List Byte
  /-- The record closes at the end of this part (R310). -/
  last : Bool
  /-- First and last instant of the part. -/
  firstT : T64
  lastT : T64
deriving DecidableEq, Repr

/-- CHG_SET (R340). -/
structure ChgCfg where
  thin : Bool := false
  uDrop : Bool := false
  lateWait : Nat := 3
  recordMs : Nat := 250
  chans : List Nat := []
deriving DecidableEq, Repr, Inhabited

/-- A channel group's acquisition (R301, R310, R311, R331). -/
structure ChgSt where
  acquiring : Bool := false
  startReq : Bool := false
  stopReq : Bool := false
  /-- Frame strobes at acceptance of the request. -/
  reqSince : Nat := 0
  /-- Start instant of R30 and its epoch. -/
  start : T64 := 0
  startEpoch : Nat := 0
  /-- Runs that have stopped and whose outputs are still to come: start and stop strobe of each, with their epochs, oldest first. -/
  past : List ((Nat × T64) × (Nat × T64)) := []
  /-- The settings that those runs land with, when CHG_SET has replaced them since. -/
  kept : Option ChgCfg := none
  staged : List StOut := []
  /-- Channels absent from the group's records and landed LATE (R311). -/
  absent : List Nat := []
  /-- The record being closed into parts: first instant, epoch, entries, and the index that continues it. -/
  cur : Option (T64 × Nat × List (Nat × Bool) × Nat) := none
  /-- Part boundaries that wait for remote channels, oldest first: the last instant that each concerns, and when it passed
  (XO cycles) (R309, R311). -/
  bounds : List ((Nat × T64) × Nat) := []
  refusing : Bool := false
  /-- Digest entries waiting for their record: (first T64, entry bytes) (R312). -/
  digest : List (T64 × List Byte) := []
  digestEpoch : Nat := 0
  /-- The REFUSAL of the episode says DIGEST_REFUSED. -/
  digestRefused : Bool := false
deriving DecidableEq, Repr, Inhabited

/-- Where a datagram goes (R342): the version of IP, the address, and the UDP ports. -/
structure UdpDest where
  ipv6 : Bool
  addr : List Word
  port : Nat
  src : Nat
deriving DecidableEq, Repr

/-- A host ring buffer being filled (R326), and when its first byte came (XO cycles). -/
structure RingBuf where
  addr : Nat
  len : Nat
  used : Nat
  since : Nat
deriving DecidableEq, Repr

/-- A consumer's registers and delivery (R322 to R327). -/
structure Consumer where
  ctrl : Word := 0x0004000A
  status : Word := 0
  ringBase : T64 := 0
  tail : Nat := 0
  head : Nat := 0
  skipped : Nat := 0
  /-- Tickets below this are acknowledged, per origin hub. -/
  ackTo : Tab Nat := []
  ackLo : Tab Word := []
  /-- Tickets below this have been offered at some time, per origin hub. -/
  offered : Tab Nat := []
  /-- The next ticket to offer, per origin hub. -/
  next : Tab Nat := []
  stream : List Byte := []
  buf : Option RingBuf := none
  /-- Tickets of the hub's own records of its masks that were freed before it acknowledged them and have not been counted in SKIPPED
  (R324, R339). -/
  gone : List Nat := []
deriving DecidableEq, Repr, Inhabited

/-- The network ferry's session (R328, R329). -/
structure Ferry where
  session : Nat := 0
  seq : Nat := 0
  restart : Bool := true
  /-- Stream bytes sent and not yet acknowledged: (origin, ticket, bytes). -/
  flight : List (Nat × Nat × Nat) := []
  /-- When data became outstanding, or acknowledgement last advanced (XO cycles) (R329). -/
  since : Nat := 0
  /-- Highest SEQ accepted, plus one, per received session. -/
  rxSeq : Tab Nat := []
  authFail : Nat := 0
deriving DecidableEq, Repr, Inhabited

/-- A live queue (R336 to R338). -/
structure LiveQ where
  words : Tab Word := []
  wr : Nat := 0
  oldest : Nat := 0
  rd : Word := 0
  lost : Nat := 0
  status : Word := 0
  seq : Nat := 0
  /-- Lengths of the complete items held, oldest first. -/
  items : List Nat := []
deriving DecidableEq, Repr, Inhabited

/-- The batch a live source is filling (R335). -/
structure LiveAcc where
  count : Nat := 0
  t : T64 := 0
  epoch : Nat := 0
  vals : List Word := []
  quals : List Byte := []
  /-- Index and epoch of the latest output seen. -/
  last : Option (Nat × Nat) := none
deriving DecidableEq, Repr, Inhabited

/-- A record relayed for another hub of the cascade (R428, R429). -/
structure RelayRec where
  origin : Nat
  ticket : Nat
  type : Nat
  group : Nat
  bytes : List Byte
deriving DecidableEq, Repr

/-- CHAN_DESC_SET (R347). -/
structure DescCfg where
  fullScale : T64 := 0
  units : List Word := []
deriving DecidableEq, Repr, Inhabited

structure JrnSt where
  /-- Journal pages of the DRAM without rings, and pages taken by rings (R302). -/
  total : Nat := 0
  ringPages : Nat := 0
  pages : Tab Page := []
  writers : Tab Writer := []
  recs : List Rec := []
  nextTicket : Nat := 0
  bound : Nat := 0
  ticketUnsaved : Bool := false
  state : Nat := 0
  degraded : Bool := false
  dropped : Nat := 0
  gaps : List Episode := []
  refusals : List Episode := []
  /-- Records of writer 65 that wait for a page (R332), in order; their tickets are taken when they land. -/
  waiting : List Rec := []
  parts : List Part := []
  groups : Tab ChgSt := []
  consumers : Tab Consumer := []
  ferry : Ferry := {}
  live : Tab LiveQ := []
  liveAcc : Tab LiveAcc := []
  relay : List RelayRec := []
  /-- The index copies differed and neither could be told good: the next recovery rebuilds the index (R320, R539). -/
  rescan : Bool := false
  /-- CHANNEL DESCRIPTORs that land at the next strobe: channel, frame strobes at acceptance and what the command gave (R347). -/
  descReq : List (Nat × Nat × DescCfg) := []
deriving DecidableEq, Repr, Inhabited

/-- CONSUMER_SET (R342). -/
structure ConsCfg where
  enable : Bool := false
  required : Bool := false
  typeMask : Nat := 0
  groupMask : Nat := 0
  ipv6 : Bool := false
  dstPort : Nat := 0
  srcPort : Nat := 0
  dst : List Word := []
  window : Nat := 4096
  ackTimeout : Nat := 200
deriving DecidableEq, Repr, Inhabited

/-- LIVE_SET (R346). -/
structure LiveCfg where
  enable : Bool := false
  pepper : Bool := false
  queue : Nat := 0
  ch : Nat := 0
  batch : Nat := 0
  decim : Nat := 0
deriving DecidableEq, Repr, Inhabited

structure JrnCfg where
  groups : Tab ChgCfg := []
  consumers : Tab ConsCfg := []
  hwPct : Nat := 80
  resumePages : Nat := 64
  floor : Nat := 0
  versionCompat : Bool := false
  retireCe : Nat := 8
  live : Tab LiveCfg := []
  desc : Tab DescCfg := []
deriving DecidableEq, Repr, Inhabited

end Sys2Proof.Machine
end

