-- ==== Sys2Proof/Machine/FeTypes.lean ====
section
/-!
DEFINITION. State of the analogue front end (chapter 03) and of the filter chain (chapter 05).
-/
namespace Sys2Proof.Machine

/-! ## Front end -/

/-- FE_FAST_SET (R79). -/
structure FastCfg where
  enable : Bool := false
  exc : Nat := 15
  pull : Nat := 0
  gain : Nat := 0
  deb : Nat := 16
  hi : Nat := 240
  lo : Nat := 10
  extend : Nat := 0
deriving DecidableEq, Repr, Inhabited

/-- An entry of a scan list, or the reference entry (R80). -/
structure ScanEntry where
  divSel : Nat := 0
  exc : Nat := 15
  pull : Nat := 0
  gain : Nat := 0
  k : Nat := 0
  settle : Nat := 0
  en : Bool := false
  pos : Nat := 0
deriving DecidableEq, Repr, Inhabited

/-- FE_SCAN_SET (R80). -/
structure ScanCfg where
  div : Nat := 0
  deb : Nat := 2
  hi : Nat := 240
  lo : Nat := 10
  ref : ScanEntry := {}
  list : List ScanEntry := []
deriving DecidableEq, Repr, Inhabited

/-- FE_EXC_SET (R81). -/
structure ExcCfg where
  mode : Nat := 0
  value : Nat := 0
  chop : Bool := false
  src : Nat := 0
  n : Nat := 0
  blank : Nat := 32
deriving DecidableEq, Repr, Inhabited

/-- A linearisation table: breakpoints as signed numbers (R76). -/
structure LinTable where
  xy : List (Int × Int) := []
deriving DecidableEq, Repr, Inhabited

structure FeCfg where
  fast : Tab FastCfg := []
  scan : Tab ScanCfg := []
  exc : Tab ExcCfg := []
  lin : Tab LinTable := []
deriving DecidableEq, Repr, Inhabited

/-- A sensor fault's state on a fast or scan channel (R69, R75, R84). -/
structure FaultSt where
  inFault : Bool := false
  pin : Nat := 0
  above : Bool := false
  t : T64 := 0
  epoch : Nat := 0
  excursions : Nat := 0
  declared : Nat := 0
  /-- F applies from this instant on, TB_SAMPLE T64 (R72), and up to the clear. -/
  from_ : Option T64 := none
  till : Option T64 := none
  /-- Consecutive visits out of the window, or within it while in fault (R75). -/
  run : Nat := 0
deriving DecidableEq, Repr, Inhabited

/-- An excitation output (R63 to R68). -/
structure ExcSt where
  /-- What the output drives now. -/
  drive : ExcCfg := {}
  reversed : Bool := false
  overload : Bool := false
  compliance : Bool := false
  /-- Changes that wait for their switch instant: setting, handle, frame strobes at acceptance (R66). -/
  pending : List (ExcCfg × Nat × Nat) := []
deriving DecidableEq, Repr, Inhabited

structure FeSt where
  /-- Settings of the fast channels in force: a change takes effect at the next frame strobe (R55). -/
  fast : Tab FastCfg := []
  fault : Tab FaultSt := []
  exc : Tab ExcSt := []
  /-- Staged breakpoints of a table: key 64 table + index (R78, R83). -/
  stage : Tab (Option (Int × Int)) := []
  /-- The first scan period in which a multiplexer visits positions again after its reset (R556). -/
  period : Tab Nat := []
deriving DecidableEq, Repr, Inhabited

/-! ## Filter chain -/

/-- FLT_PROFILE_SET (R155). -/
structure Profile where
  full : Bool
  other : Bool
  mode : Nat
  n : Nat
  d : Nat
  l : Nat
  m : Nat
  xf : Nat
  fOut : Nat
deriving DecidableEq, Repr

/-- A coefficient bank (R124, R152). -/
structure Bank where
  image : Tab Word := []
  committed : Bool := false
deriving DecidableEq, Repr, Inhabited

/-- FLT_CHAN_SET (R159). -/
structure ChanCfg where
  profile : Nat
  linEn : Bool
  linTable : Nat
  gain : Int
  offset : Int
  redN : Nat
  excSettle : Nat
  tiSel : Nat
  spr : Nat
  ppr : Nat
  tachMax : Nat
deriving DecidableEq, Repr

structure FltCfg where
  profiles : Tab (Option Profile) := []
  /-- Bank b of profile p at 4 p + b. -/
  banks : Tab Bank := []
  active : Tab Nat := []
  chans : Tab (Option ChanCfg) := []
deriving DecidableEq, Repr, Inhabited

/-- A current bank swap (R122, R123). -/
structure SwapCur where
  source : Nat
  target : Nat
  handles : List Nat
  /-- Frame strobes counted when the request became current. -/
  since : Nat
  started : Bool
  instant : T64
  epoch : Nat
  passed : List Nat
  /-- Timestamp of the latest faded output, the swap instant while there is none (R158). -/
  last : T64
deriving DecidableEq, Repr

structure Swap where
  cur : Option SwapCur := none
  pend : Option (Nat × Nat) := none
deriving DecidableEq, Repr, Inhabited

/-- Stage 5 and 6 parameters of a channel in force (R146, R147). -/
structure ChanPar where
  gain : Int := 268435456
  offset : Int := 0
  linEn : Bool := false
  linTable : Nat := 0
deriving DecidableEq, Repr, Inhabited

/-- A value in a delay line: its index, value and window flags. -/
structure Tap where
  i : Int
  v : Int
  q : Nat
deriving DecidableEq, Repr

/-- A span of missing inputs by the pin instants of its first and its last one, and what the GAP over its outputs carries
(R142, R313). -/
structure Miss where
  a : Fr
  b : Fr
  cause : Nat
  detail : Nat
  unc : Nat
deriving DecidableEq, Repr

/-- Inputs of a scan or remote channel that wait for the chain: `n` of them from index `i` on in an epoch, a value in Q1.31 and
its flags; without a value they are missing, and `q` is 256 × the cause of the GAP over them plus its detail (R143, R400). -/
structure Inp where
  epoch : Nat
  i : Nat
  n : Nat
  v : Option Int
  q : Nat
deriving DecidableEq, Repr

/-- A synchronising reset that a remote channel reaches when its samples do (R137, R139, R143). -/
structure SyncPt where
  /-- The old epoch's count at which it ends, when the reset is an epoch's; the sync instant; and its epoch. -/
  end_ : Option Nat
  ts : Nat
  epoch : Nat
  /-- What the instants kept over the change move by. -/
  step : T64
  /-- At a restart with a changed profile, the configuration that the chain goes on with (R137). -/
  fresh : Option ChanCfg := none
deriving DecidableEq, Repr

/-- What has become of a remote channel's outputs up to an instant, after those of the entry before: landed or declined (R397). -/
structure Fate where
  inst : Nat × T64
  landed : Bool
deriving DecidableEq, Repr

/-- A placed ORDER output: input position (2^-32 samples), instant, angle index (R130, R132). -/
structure Placed where
  pos : Nat
  t : T64
  /-- The epoch of the pulse, and so of `t`. -/
  epoch : Nat
  rev : Nat
  step : Nat
  /-- The pulse interval's number, so that outputs at or after the next pulse are dropped (R131). -/
  pulse : Nat
deriving DecidableEq, Repr

/-- The tachometer side of an ORDER channel (R130 to R132). -/
structure OrderSt where
  last : Option T64 := none
  valid : Bool := false
  pulses : Nat := 0
  rev : Nat := 0
  ratio : Nat := 0
  placed : List Placed := []
deriving DecidableEq, Repr, Inhabited

/-- A digest interval being accumulated (R148, R149). -/
structure DigAcc where
  k : Nat
  count : Nat
  uCount : Nat
  flags : Nat
  min : Int
  max : Int
  sum : Int
  sumSq : Nat
  first : T64
  /-- An instant of the interval has no produced output (R150). -/
  gap : Bool
  /-- The index after that of the last output, on a time grid. -/
  next : Nat
deriving DecidableEq, Repr

/-- A channel's chain (R118 to R151). Indexes count from the T64 origin at the rate of their stage. -/
structure Chain where
  running : Bool := false
  /-- Sync instant in TIME cycles of TB_SAMPLE, and its epoch. -/
  ts : Nat := 0
  tsEpoch : Nat := 0
  /-- A synchronising reset at this instant is being applied: the outputs before it still leave (R139). -/
  tail : Option Nat := none
  /-- Index of the next input. -/
  nextIn : Nat := 0
  /-- Integrators and comb registers, modulo 2^44; the last input, for the two-tap average. -/
  integ : List Nat := []
  comb : List Nat := []
  lastIn : Int := 0
  /-- Index of the next Pepper output to be produced. -/
  nextC : Nat := 0
  /-- Inputs that carry flags: index and flags. -/
  flagged : List (Nat × Nat) := []
  /-- Inputs of a scan or remote channel that wait, in the order of their arrival. -/
  inq : List Inp := []
  /-- Synchronising resets of a remote channel whose samples are still to come, oldest first (R143). -/
  syncs : List SyncPt := []
  /-- Cause and detail of the span that the next input leaves open: samples in it could not be mapped, or a per-lane reset released them
(R400, R412). -/
  hole : Option (Nat × Nat) := none
  /-- Epoch and timestamp up to which outputs have landed or been declined. -/
  doneAt : Option (Nat × T64) := none
  /-- The outcomes that the landed mark of the channel's lane still needs, in the order of their instants (R397). -/
  fates : List Fate := []
  /-- CIC outputs and FIR outputs held, newest first. -/
  cic : List Tap := []
  fir : List Tap := []
  /-- Index of the next Saffron output to be produced. -/
  nextOut : Nat := 0
  fade : Nat := 0
  /-- The channel computes with the target bank alone (R154). -/
  solo : Bool := false
  /-- Settle span of R144: switch instant and end, T64. -/
  settle : Option (T64 × T64) := none
  /-- X has not yet cleared under R145. -/
  xHold : Bool := false
  /-- Spans whose inputs are missing (R142). -/
  missing : List Miss := []
  /-- Spans of declared sensor faults that have cleared (R72). -/
  faulty : List (T64 × T64) := []
  /-- Instants of trim steps (R100). -/
  trimAt : List T64 := []
  /-- Epoch of the last output on the Pepper and on the Saffron path: the first one of another epoch carries E (R141). -/
  seenP : Option Nat := none
  seenS : Option Nat := none
  /-- Index of the first output since the chain started or its epoch began, and of the last one passed over because it lacked an
  input (R150). -/
  outFrom : Nat := 0
  lastLack : Option Nat := none
  par : ChanPar := {}
  /-- Parameter changes that outputs have not reached, oldest first, with their instant; `desc` when the descriptor lands with
  the first output that has them (R147). -/
  parNext : List (ChanPar × T64 × Bool) := []
  /-- Frame strobes at acceptance of a parameter change (R147). -/
  parReq : Option Nat := none
  /-- A restart waits for its strobe (R137), and the configuration that the chain runs with until then. -/
  restart : Bool := false
  was : Option ChanCfg := none
  slip : Nat := 0
  order : OrderSt := {}
  digest : Option DigAcc := none
  tset : Option Nat := none
  /-- Last code before a FRAME-chopped reversal, and codes still blanked (R65). -/
  blankCode : Int := 0
  blankLeft : Nat := 0
  /-- Sampling offset d of a pod slot in 2^-16 of its interval (R391). -/
  d : Int := 0
  /-- Outputs in the staging of R73, oldest first. -/
  stage : List StOut := []
  /-- Held spans in epochs that a remote chain has not reached: epoch, first and last TIME cycle, declared uncertainty (R40, R142). -/
  heldLater : List (Nat × Nat × Nat × Nat) := []
  /-- The channel is disconnected for a calibration measurement (R104). -/
  cut : Bool := false
  /-- A synchronising reset is due at the next strobe, because the channel has been reconnected (R137). -/
  resync : Bool := false
deriving DecidableEq, Repr, Inhabited

/-- A FLT_SYNC that waits for its strobe (R160). -/
structure SyncReq where
  mask : Nat
  handle : Nat
  since : Nat
deriving DecidableEq, Repr

structure FltSt where
  swap : Tab Swap := []
  ch : Tab Chain := []
  sync : List SyncReq := []
  /-- Profiles with a current bank swap at RESET_N, and the bank that is active after it: the target when its swap instant had passed, the
  source otherwise (R154). -/
  swapped : List (Nat × Nat) := []
  /-- TB_SAMPLE in TIME cycles at RESET_N, where the last epoch of the remote channels ended. -/
  endedAt : Nat := 0
deriving DecidableEq, Repr, Inhabited

/-! ## Pod slots (R410) -/

/-- An enabled pod slot at 32 lane + slot. -/
structure SlotCfg where
  enable : Bool := false
  rate : Nat := 0
deriving DecidableEq, Repr, Inhabited

end Sys2Proof.Machine
end

