-- ==== Sys2Proof/Machine/LinkTypes.lean ====
section
/-!
DEFINITION. State of the time-interval unit (chapter 10), of the network ports and their PTP engines (chapters 09
and 15), of the sensor lanes (chapter 13) and of the cascade (chapter 14).
-/
namespace Sys2Proof.Machine

/-! ## Time-interval unit -/

/-- TIU_INPUT_SET (R293). -/
structure TiuInCfg where
  mode : Nat := 0
  edge : Nat := 0
  presc : Nat := 0
  rq : Nat := 0
  land : Bool := false
  dly : Int := 0
  holdoff : Nat := 0
deriving DecidableEq, Repr, Inhabited

/-- TIU_INTERVAL_SET (R294). -/
structure TiuUnitCfg where
  enable : Bool := false
  land : Bool := false
  startIn : Nat := 0
  startEdge : Bool := false
  stopIn : Nat := 0
  stopEdge : Bool := false
  rq : Nat := 0
  winMin : Nat := 0
  winMax : Nat := 0
deriving DecidableEq, Repr, Inhabited

structure TiuCfg where
  inputs : Tab TiuInCfg := []
  units : Tab TiuUnitCfg := []
  calInt : Nat := 60
deriving DecidableEq, Repr, Inhabited

/-- A stamp (R277, R278): T64 with the extension in 2^-40 s, its epoch, the free count of R279 in units of 2^-40 s,
and whether the spare took it. -/
structure Stamp where
  t40 : Nat
  epoch : Nat
  free : Int
  spare : Bool
deriving DecidableEq, Repr

/-- A frequency gate (R289, R290). -/
structure Gate where
  input : Nat
  handle : Nat
  land : Bool
  ms : Nat
  /-- TIME cycles at the start, and the free count in units of 2^-40 s; start T64 and epoch. -/
  cyc : Nat
  start : Int
  t : T64
  epoch : Nat
  /-- Points taken: free time since the start, and prescaler outputs. -/
  points : List (Int × Nat)
  /-- Tick of the last point taken. -/
  lastTick : Option Nat
  edges : Nat
  broken : Bool
  /-- The slew term added up over XO cycles, and the XO counts from and up to which it is (R290). -/
  slewSum : Int
  slewFrom : Nat
  slewAt : Nat
deriving DecidableEq, Repr

/-- A result queue (R292): entries of eight words, oldest first. -/
structure TiuQueue where
  entries : List (List Word) := []
  lost : Nat := 0
  lostBefore : Bool := false
deriving DecidableEq, Repr, Inhabited

structure TiuSt where
  /-- Line serving a source, plus 1; unlisted: the source's own line. Lost sources; whether a spare is left. -/
  line : Tab Nat := []
  lost : List Nat := []
  noSpare : Bool := false
  /-- Lines that have failed a calibration (R283). -/
  failed : List Nat := []
  /-- Line whose turn the spare takes next, when it last took one (XO cycles), and TIU_CAL_INT in force (R281, R298). -/
  nextCal : Nat := 0
  calAt : Option Nat := none
  calUse : Nat := 60
  /-- Source whose handover is under way; whether it is the handback; when it began (XO cycles) (R282). -/
  handover : Option (Nat × Bool) := none
  handoverAt : Nat := 0
  /-- Line the spare serves or calibrates. -/
  calLine : Option Nat := none
  /-- Every line is being calibrated together, and no stamp is taken (R281, R556). -/
  calAll : Bool := true
  fifo : Nat := 0
  /-- Who waits for line 9, in order, the first being measured: lanes 0 to 15, and 16 for port U; when its probes left (XO cycles) (R291). -/
  line9 : List Nat := []
  line9At : Nat := 0
  /-- Tachometer stamps on their way to the filter engines: input, T64, and whether the interval that ends with it is invalid
  (R285); inputs whose next stamp ends an invalid interval. -/
  tach : List (Nat × T64 × Bool) := []
  tachCut : List Nat := []
  overflowRaised : Bool := false
  held : Tab (Option Stamp) := []
  /-- The last stop that found no start, and the last start that another one replaced: an edge that comes after them may precede them
  in stamp order (R287). -/
  lastStop : Tab (Option Stamp) := []
  replaced : Tab (Option Stamp) := []
  /-- The last stamped edge of a source, and the last pulse that an input's TACH mode accepted, as they arrived, before INPUT_DLY (R278,
  R284). -/
  lastEdge : Tab (Option Stamp) := []
  lastPulse : Tab (Option Stamp) := []
  /-- Edges that a prescaler has taken since its last output (R286). -/
  presc : Tab Nat := []
  /-- Calibrated tap positions of a line, in units of 2^-40 s from its input (R277, R281). -/
  taps : Tab (List Nat) := []
  seq : Tab Nat := []
  queues : Tab TiuQueue := []
  /-- Counters of source s at 16 s, in the order of R297; units from 8 on. -/
  counts : Tab Nat := []
  gates : List Gate := []
  /-- Records landed in the current second per source: (second of TB_LOCAL, number). -/
  landed : Tab (Nat × Nat) := []
deriving DecidableEq, Repr, Inhabited

/-! ## Network ports -/

inductive PortState where
  | off | active | testing | standby | faulted
deriving DecidableEq, Repr, Inhabited

inductive Servo where
  | disabled | acquiring | locked | suspect | qualHold | holdover
deriving DecidableEq, Repr, Inhabited

/-- NET_PTP_SET (R267), with the defaults of R267 before it. -/
structure PtpCfg where
  enable : Bool := false
  profile : Nat := 0
  transport : Nat := 0
  p2p : Bool := false
  oneStep : Bool := false
  authEn : Bool := false
  domain : Nat := 0
  logDelay : Int := 0
  annTo : Nat := 3
  lockThr : Nat := 250
  netStep : Nat := 10
  rrThresh : Nat := 200
  rrN : Nat := 4
  rrAgree : Nat := 100
  rrConfirm : Nat := 60
  rrHold : Nat := 600
  authMax : Nat := 8
  authWin : Nat := 60
deriving DecidableEq, Repr, Inhabited

/-- NET_PORT_SET and NET_PORT_COMP_SET (R268, R458). -/
structure PortCfg where
  enable : Bool := false
  mode : Nat := 0
  mac : List Byte := []
  errMax : Nat := 100
  egress : Int := 0
  ingress : Int := 0
  asym : Int := 0
  ptp : PtpCfg := {}
deriving DecidableEq, Repr, Inhabited

structure NetCfg where
  ports : Tab PortCfg := []
  arbMode : Nat := 0
  preferred : Nat := 0
  suspMask : Nat := 31
  suspDeb : Nat := 5
  arbDeb : Nat := 500
  selfInt : Nat := 10
  echoTo : Nat := 50
  healthInt : Nat := 60
  verdictPort : Nat := 0
  ipv6En : Bool := false
  echoV6 : Bool := false
  prefix4 : Nat := 0
  ipv4 : Word := 0
  gateway4 : Word := 0
  ipv6 : List Word := []
  echoAddr : List Word := []
deriving DecidableEq, Repr, Inhabited

/-- A master as an Announce describes it (R248): priorities and identities in the order the BMCA compares. -/
structure Announce where
  prio1 : Nat
  clockClass : Nat
  accuracy : Nat
  variance : Nat
  prio2 : Nat
  gmId : Nat
  steps : Nat
  /-- clockIdentity and portNumber of the sender. -/
  id : Nat
  port : Nat
deriving DecidableEq, Repr

/-- A master heard: its last Announce, when it and the one before came (XO cycles), and its interval as a power of two of a second
(R248, R253). -/
structure Heard where
  ann : Announce
  at_ : Nat
  prev : Option Nat
  logInt : Int
deriving DecidableEq, Repr

/-- A Delay_Req or Pdelay_Req sent and not answered: sequenceId, egress stamp; for the peer mechanism t4 and the
correction once they have arrived. -/
structure DelReq where
  seq : Nat
  t3 : Int
deriving DecidableEq, Repr

/-- A port's PTP engine and servo (R252 to R256). Times are integers in units of 2^-32 s. -/
structure Ptp where
  servo : Servo := .disabled
  masters : List Heard := []
  master : Option (Nat × Nat) := none
  /-- When the last Sync came or the servo began to acquire (XO cycles), and the Sync interval as a power of two of a second (R253). -/
  syncAt : Nat := 0
  syncLog : Int := 0
  /-- When the last delay request was due (XO cycles). -/
  reqAt : Option Nat := none
  /-- A two-step Sync that waits for its Follow_Up: sequenceId, t2, correction. -/
  sync : Option (Nat × Int × Int) := none
  /-- The last t1, t2 and c_ms (R252). -/
  lastSync : Option (Int × Int × Int) := none
  req : Option DelReq := none
  /-- A Pdelay_Resp that waits for its Follow_Up: sequenceId, t4, t2 and the correction. -/
  pResp : Option (Nat × Int × Int × Int) := none
  dreqSeq : Nat := 0
  pdreqSeq : Nat := 0
  d : Option Int := none
  /-- Accepted values of d and o, newest first. -/
  dHist : List Int := []
  baseline : Option Int := none
  oHist : List Int := []
  o : Int := 0
  lockRun : Nat := 0
  outRun : Nat := 0
  stepped : Bool := false
  /-- Suspect measurements of d, newest first; those back within the threshold during a hold. -/
  bad : List Int := []
  back : Nat := 0
  oPre : Int := 0
  /-- q_pre of PPS and of CASCADE, where the source measured in the 16 s before. -/
  qPre : Option Int × Option Int := (none, none)
  /-- q at a second source's measurements: (from CASCADE, XO cycles, value). -/
  qHist : List (Bool × Nat × Int) := []
  holdSince : Nat := 0
  /-- The second source has stopped agreeing during the hold (R255). -/
  noWindow : Bool := false
  /-- The confirmation window: when its running second began (XO cycles), seconds passed, delta_a of each, o of the running
  second, and q of it with whether CASCADE gave it. -/
  winAt : Nat := 0
  winSecs : Nat := 0
  deltas : List Int := []
  secO : List Int := []
  secQ : List (Bool × Int) := []
  rrAsym : Int := 0
  asymUnverified : Bool := false
  rms : Nat := 0
  outliers : Nat := 0
  authFail : Nat := 0
  ignored : Nat := 0
  /-- Failures of a sender: (clockIdentity, XO cycles); quarantined senders. -/
  fails : List (Nat × Nat) := []
  quar : List Nat := []
deriving DecidableEq, Repr, Inhabited

/-- A frame waiting for transmission: FB number, length, TS_ID and whether a stamp is wanted (R260, R272). -/
structure OutFrame where
  buf : Nat
  len : Nat
  tsId : Nat
  ts : Bool
deriving DecidableEq, Repr

/-- A launch entry (R261, R273). -/
structure Launch where
  buf : Nat
  len : Nat
  onSample : Bool
  send : Bool
  target : T64
  epoch : Nat
  tol : Nat
  handle : Nat
deriving DecidableEq, Repr

/-- A TX timestamp entry (R274). -/
structure TxStamp where
  tsId : Nat
  net : T64
  sample : T64
  epoch : Nat
deriving DecidableEq, Repr

/-- What waits on a port for the guard of a launch, or behind host frames (R260, R262). -/
inductive PortMsg where
  /-- The next Delay_Req or Pdelay_Req. -/
  | request
  /-- A Pdelay_Resp: sequenceId and t2. -/
  | pdelayResp (seq : Nat) (t2 : Int)
  /-- A Pdelay_Resp_Follow_Up: sequenceId and t3. -/
  | followUp (seq : Nat) (t3 : Int)
  /-- A ferry datagram: KIND, bytes of plaintext, destination, header and ciphertext. -/
  | ferry (kind plain : Nat) (dest : UdpDest) (header body : List Byte)
  /-- An ARP, NDP or ICMP message: what it is, whether it is IPv6, and its bytes. -/
  | net (kind : Nat) (v6 : Bool) (body : List Byte)
deriving DecidableEq, Repr

structure Port where
  st : PortState := .off
  link : Bool := false
  ptp : Ptp := {}
  txts : List TxStamp := []
  txLost : Nat := 0
  txRaised : Bool := false
  launch : List Launch := []
  /-- The guard of the first launch entry has begun (R262). -/
  guarded : Bool := false
  /-- Self-test (R453, R454): PRBS under way, echo outstanding and address resolution awaited since (XO cycles). -/
  prbs : Bool := false
  echoAt : Option Nat := none
  resolve : Option Nat := none
  echoSeq : Nat := 0
  linkSince : Bool := true
  prbsOk : Bool := false
  echoOk : Bool := false
  prbsErr : Nat := 0
  rtt : Nat := 4294967295
  failRun : Nat := 0
  tests : Nat := 0
  testFails : Nat := 0
  testT : T64 := 0
  /-- When SELFTEST_INT last passed and when HEALTH_INT last passed (XO cycles). -/
  testAt : Option Nat := none
  healthAt : Option Nat := none
  linkLoss : Nat := 0
  fcsErr : Nat := 0
  /-- ECHO_ADDR has been resolved since the link came up. -/
  resolved : Bool := false
  /-- Messages that wait, oldest first (R260, R262). -/
  defer : List PortMsg := []
  /-- EGRESS_LAT, INGRESS_LAT and PATH_ASYM in force until the port's next update, where NET_PORT_COMP_SET gave new ones (R268). -/
  held : Option (Int × Int × Int) := none
  /-- Echoes of the active port unanswered in succession (R443). -/
  echoMiss : Nat := 0
deriving DecidableEq, Repr, Inhabited

/-- The servo snapshot (R449). -/
structure Snapshot where
  seq : Nat
  port : Nat
  asymUnverified : Bool
  p2p : Bool
  domain : Nat
  master : Nat × Nat
  inc : Nat
  steer : Int
  rms : Nat
  dB : Int
  asym : Int
  dreqSeq : Nat
  pdreqSeq : Nat
  loc : T64
  net : T64
  /-- XO cycles at capture. -/
  at_ : Nat
deriving DecidableEq, Repr

/-- A failover under way (R451). -/
structure Failover where
  from_ : Nat
  dest : Nat
  source : Nat
  causes : Nat
  verdictT : T64
  handle : Option Nat
  snap : Option Nat
  wasFaulted : Bool
  noLink : Bool
  wasPending : Bool
  active : Bool
  /-- TB_SAMPLE at the first frame that the new port sent. -/
  traffic : Option T64 := none
deriving DecidableEq, Repr

structure NetSt where
  ports : Tab Port := []
  frames : Tab Word := []
  /-- Frame buffers busy. -/
  busy : List Nat := []
  queue : List OutFrame := []
  active : Option Nat := none
  /-- The port that was ACTIVE before a RESET_N or RETAIN, plus 1 (R441). -/
  before : Nat := 0
  suspect : Bool := false
  /-- Causes held, bit i for cause i. -/
  causes : Nat := 0
  /-- When each cause began to hold, and when the last enabled one ended (XO cycles). -/
  causeAt : Tab Nat := []
  clearAt : Nat := 0
  /-- When the last SUSPECT datagram went (XO cycles). -/
  suspectAt : Option Nat := none
  arbSel : Bool := false
  vseq : Nat := 0
  failover : Option Failover := none
  /-- A pending verdict: port, source, handle (R447). -/
  verdict : Option (Nat × Nat × Option Nat) := none
  /-- A verdict taken during a hold. -/
  heldVerdict : Option (Nat × Nat × Option Nat) := none
  snap : Option Snapshot := none
  snapSeq : Nat := 0
  /-- Resends of the ferry in succession without an advance (R443). -/
  resends : Nat := 0
  failovers : Nat := 0
  ignored : Nat := 0
  rejects : Nat := 0
  suspects : Nat := 0
  /-- Routers learned from router advertisements (R460). -/
  routers : List (List Byte) := []
deriving DecidableEq, Repr, Inhabited

/-! ## Sensor lanes -/

/-- SL_LANE_SET (R409). -/
structure LaneCfg where
  enable : Bool := false
  swing : Nat := 0
  quarN : Nat := 4
  nakMax : Nat := 8
  serial : Nat := 0
  asym : Int := 0
  probeInt : Nat := 1000
  jump : Nat := 2000
  quarWin : Nat := 600
  violWin : Nat := 1000
deriving DecidableEq, Repr, Inhabited

/-- State of a lane or of a cascade port (R414, R439). -/
inductive LinkState where
  | disabled | training | up | down | quarantined | refused
deriving DecidableEq, Repr, Inhabited

/-- What a strobe count maps to (R384, R400): the instant in TIME cycles and its epoch, and the next count's instant in
the same epoch once it is known. Counts without an entry are unmapped. -/
structure StrobeMap where
  c : Nat
  idx : Nat
  cyc : Nat
  epoch : Nat
  discont : Bool
  noSample : Bool
  till : Option Nat
deriving DecidableEq, Repr

/-- A frame accepted whose samples have not all landed or been declined: DSEQ; channel, epoch and pin instant of the
last sample of each slot (R397). -/
structure OpenFrame where
  seq : Nat
  left : List (Nat × Nat × T64)
  /-- Frames of the run that a RELEASED reports, 1 for a SAMPLE frame (R414). -/
  n : Nat := 1
deriving DecidableEq, Repr

/-- An SL_SLOT_SET that waits for SLOT_ACK, with XO cycles at acceptance (R410). -/
structure SlotReq where
  slot : Nat
  handle : Nat
  rate : Nat
  enable : Bool
  since : Nat
deriving DecidableEq, Repr

/-- A run of HOLD samples (R401). -/
structure HoldRun where
  first : T64
  /-- The last STROBE that the lane carried before the run. -/
  real : T64
  epoch : Nat
  lastT : T64
  bound : Nat
deriving DecidableEq, Repr

structure Lane where
  st : LinkState := .disabled
  step : Nat := 0
  /-- When the step began, or the lane went DOWN; when the last LANDED left and when PROBE_INT last passed (XO cycles) (R382, R389, R397). -/
  stepAt : Nat := 0
  landedAt : Nat := 0
  probeAt : Option Nat := none
  attempts : Nat := 0
  inverted : Bool := false
  level : Nat := 0
  serial : Nat := 0
  /-- Serial of the previous bring-up, 0 when none is recorded. -/
  lastSerial : Nat := 0
  retain : Nat := 0
  turnDecl : Nat := 0
  holdPpm : Nat := 0
  nslots : Nat := 0
  podMin : Nat := 0
  podMax : Nat := 0
  nonceH : List Byte := []
  nonceP : List Byte := []
  cseq : Nat := 0
  rxCseq : Nat := 0
  cseqGaps : Nat := 0
  /-- Expected DSEQ, and the landed mark with the highest DSEQ below it that landed; none is unknown (R396 to R398). -/
  expect : Option Nat := none
  landed : Option Nat := none
  taken : Nat := 0
  open_ : List OpenFrame := []
  limit : Nat := 0
  used : Nat := 0
  slip : Bool := false
  /-- Counts from a DISCONT strobe to the first sample after it that was no HOLD sample (R400). -/
  disc : List (Nat × Option Nat) := []
  /-- Spans of counts whose STROBEs the lane did not carry: the last count before and the first after (R401). -/
  quiet : List (Nat × Option Nat) := []
  /-- RELEASE_ALL is owed to a pod whose lane was not up at its per-lane reset (R412). -/
  releaseAll : Bool := false
  lastC : Option Nat := none
  /-- One-way delays measured, newest first, their mean and the delay that placement uses, in fs; probes
  without an echo. -/
  delays : List Int := []
  delta : Int := 0
  placed : Int := 0
  jump : Bool := false
  turn : Nat := 0
  unanswered : Nat := 0
  hold : Option HoldRun := none
  /-- Violation counters by class; replayed, released, retrains, NAKs. -/
  counts : Tab Nat := []
  naks : List Nat := []
  resets : List Nat := []
  downRaised : Bool := false
  /-- SL_RESET outstanding: handle and XO cycles at acceptance; slot requests outstanding. -/
  reset : List (Nat × Nat) := []
  slotReqs : List SlotReq := []
  /-- The settings in force since the last bring-up (R409). -/
  use : LaneCfg := {}
deriving DecidableEq, Repr, Inhabited

structure SlSt where
  lanes : Tab Lane := []
  count : Nat := 0
  map : List StrobeMap := []
deriving DecidableEq, Repr, Inhabited

/-! ## Cascade -/

/-- CASC_PORT_SET (R436). -/
structure CascPortCfg where
  enable : Bool := false
  swing : Nat := 0
  quarN : Nat := 4
  nakMax : Nat := 8
  asym : Int := 0
  asymUnc : Nat := 0
  probeInt : Nat := 1000
  quarWin : Nat := 600
  violWin : Nat := 1000
  jump : Nat := 2000
deriving DecidableEq, Repr, Inhabited

structure CascCfg where
  ports : Tab CascPortCfg := []
  relayReq : Nat := 0
  relayCons : Nat := 0
  ctLat : Nat := 1000
deriving DecidableEq, Repr, Inhabited

/-- A frame sent and not yet acknowledged, or waiting for credit (R421). -/
structure CFrame where
  seq : Nat
  type : Nat
  body : List Byte
deriving DecidableEq, Repr

structure CascPort where
  st : LinkState := .disabled
  step : Nat := 0
  /-- When the step began, or the hop went DOWN or was refused; when the last CREDIT left; when PROBE_INT and the 10 s of HOP_HEALTH last
  passed (XO cycles) (R382, R419 to R421, R423). -/
  stepAt : Nat := 0
  creditAt : Nat := 0
  probeAt : Option Nat := none
  healthAt : Option Nat := none
  attempts : Nat := 0
  swapped : Bool := false
  inverted : Nat := 0
  markers : Nat := 0
  lastCount : Option Nat := none
  /-- COUNT of the next ALIGN marker that the port sends (R417). -/
  txCount : Nat := 0
  level : Nat := 0
  nonce : List Byte := []
  hello : List Byte := []
  peerHello : List Byte := []
  partner : Nat := 0
  partnerMaster : Bool := false
  partnerSerial : Nat := 0
  helloOk : Bool := false
  txSeq : Nat := 0
  rxSeq : Nat := 0
  /-- Frames held until acknowledged, oldest first; RECORD frames that wait for credit. -/
  sent : List CFrame := []
  waiting : List CFrame := []
  txUsed : Nat := 0
  txLimit : Nat := 0
  rxUsed : Nat := 0
  rxLimit : Nat := 0
  delays : List Int := []
  delta : Int := 0
  unanswered : Nat := 0
  /-- Rosters received on this port: (HUB_ID, HOPS, LV_MAX). -/
  roster : List (Nat × Nat × Nat) := []
  /-- Partial record of each origin, with its START seen. -/
  partials : List (Nat × List Byte) := []
  counts : Tab Nat := []
  naks : List Nat := []
  resets : List Nat := []
  downRaised : Bool := false
  reset : List (Nat × Nat) := []
  health : Nat × Nat × Nat := (0, 0, 0)
  /-- The settings in force since the last bring-up, and HOP_ASYM since the last probe (R436). -/
  use : CascPortCfg := {}
  /-- Origin of the last RECORD frame sent (R428). -/
  lastOrigin : Nat := 0
deriving DecidableEq, Repr, Inhabited

structure CascSt where
  ports : Tab CascPort := []
  hops : Nat := 255
  lastE : Int := 0
  msgSeq : Nat := 0
  /-- Messages seen: hub, MSG_SEQ, XO cycles. -/
  seen : List (Nat × Nat × Nat) := []
  ctLate : Nat := 0
  relayed : Nat := 0
  /-- The first mark of an epoch, or after a held span, is due. -/
  discont : Bool := false
  /-- A renumbering that an upstream hub has asked for (R234). -/
  epochReq : Option Nat := none
  /-- SOURCE and QUALITY of the master, as the last TIME frame gave them (R422). -/
  mSource : Nat := 4
  mQuality : Nat := 0
deriving DecidableEq, Repr, Inhabited

end Sys2Proof.Machine
end

