-- ==== Sys2Proof/Machine/Inputs.lean ====
section
/-!
DEFINITION. What the outside world brings with a command: readings, headers of received messages, and how an attempt ends.
-/
namespace Sys2Proof.Machine

/-- A time source's reading that an origin starts from. -/
structure SrcReading where
  src : TimeSrc
  t : T64
  y : Int
deriving DecidableEq, Repr

/-- What every received PTP message carries: the domain, the sender, and with a TLV the bytes its ICV covers and the ICV. -/
structure PtpHead where
  domain : Nat
  sender : Nat
  portNo : Nat
  logInt : Int
  auth : Option (List Byte × List Byte)
deriving DecidableEq, Repr

/-- A host read of any size and alignment: its first byte's address and its bytes (R6). -/
structure BusRead where
  addr : Nat
  len : Nat
deriving DecidableEq, Repr

/-- An edge on a TIU line: the tap that it has reached at the sampling edge, and how many stamps have left the FIFO since the last one (R277, R280). -/
structure LineEdge where
  tap : Fin 512
  drained : Nat
deriving DecidableEq, Repr

/-- A probe and its echo on line 9: the tap that each had reached at the TIME edge that latched it, the TIME cycles between these two edges,
and how many stamps have left the FIFO since the last one (R277, R280, R291). -/
structure RoundTrip where
  probe : Fin 512
  echo : Fin 512
  cycles : Nat
  drained : Nat
deriving DecidableEq, Repr

/-- Stamps of one edge by two lines in a handover: the tap in the line in service, the tap in the other line, and by how many TIME cycles
the other line's TIME edge came later (R282). -/
structure PairedStamp where
  mine : Fin 512
  other : Fin 512
  later : Int
deriving DecidableEq, Repr

/-- A sensor lane, or a hop, whose bring-up step has exceeded its limit; in steps 1 to 4 the step that the receiver has reached, less 1 (R381). -/
structure LaneStep where
  lane : Fin 16
  phy : Fin 4
deriving DecidableEq, Repr
structure HopStep where
  p : Fin 2
  phy : Fin 4
deriving DecidableEq, Repr

/-- The head of a datagram of R328: the UDP port it is sent to, and its header's bytes. -/
structure UdpHead where
  port : Nat
  bytes : List Byte
deriving DecidableEq, Repr

/-- Upsets in one word of the write-ahead index: the bits that differ from its value in the copy in retention SRAM and in the inverted copy in
the ferry engine (R320). -/
structure IndexUpset where
  word : Nat
  sram : Word
  ferry : Word
deriving DecidableEq, Repr

/-- What a boot finds: the straps, whether XO qualifies, the DRAM fitted in MiB (0: training failed), whether the images
of slots A and B pass the full check, pages that fail their ECC, tickets of closed records that fail their CRC, how often programming a sector fails in the boot's saved-state write,
the hits in each tap of the lines as their calibration counts them, and engines that fail. -/
structure BootIn where
  straps : Straps
  xoOk : Bool
  dram : Nat
  okA : Bool
  okB : Bool
  badPages : List Nat
  badRecs : List Nat
  saveFails : Nat
  lineHits : List (List Nat)
  badEngines : List Nat
deriving DecidableEq, Repr

/-- What checks of the firmware find: the fast path and the full check of the running slot, and the full check of the other (R542). -/
structure FwCheck where
  fast : Bool
  this : Bool
  other : Bool
  deriving DecidableEq, Repr
/-- What a resume finds: AON cycles in RETAIN, a qualified source's reading, whether XO qualifies, pages that fail their ECC,
the ARB_SEL pin, and the checks of the firmware. -/
structure ResumeIn where
  aon : Nat
  src : Option SrcReading
  xoOk : Bool
  badPages : List Nat
  arbSel : Bool
  fw : FwCheck
deriving DecidableEq, Repr

/-- What brings a host link restart (R467). -/
inductive LinkCause where
  | flr | perst | hotReset | linkDown | d3hot
deriving DecidableEq, Repr

end Sys2Proof.Machine
end

