-- ==== Sys2Proof/Syntax.lean ====
section
/-!
DEFINITION. The commands: one constructor for each row of spec/opcode_table.json, in the table's order. A Kelnen command names
the mailbox it is sent through, its tag and its payload; an event names the unit it concerns and what the outside brings.
-/
namespace Sys2Proof

inductive Instr where
  /-- SYS_NOP (R495). -/
  | sysNop (mb : Fin 8) (tag : Word) (pl : List Word)
  /-- SYS_INFO (R496). -/
  | sysInfo (mb : Fin 8) (tag : Word) (pl : List Word)
  /-- SYS_HANDLE_QUERY (R497). -/
  | sysHandleQuery (mb : Fin 8) (tag : Word) (pl : List Word)
  /-- SYS_ABORT (R498). -/
  | sysAbort (mb : Fin 8) (tag : Word) (pl : List Word)
  /-- SYS_RESET (R556). -/
  | sysReset (mb : Fin 8) (tag : Word) (pl : List Word)
  /-- SYS_STATE_SAVE (R557). -/
  | sysStateSave (mb : Fin 8) (tag : Word) (pl : List Word)
  /-- LOG_MARK (R512). -/
  | logMark (mb : Fin 8) (tag : Word) (pl : List Word)
  /-- CLK_STATUS (R530). -/
  | clkStatus (mb : Fin 8) (tag : Word) (pl : List Word)
  /-- CLK_FMC (R531). -/
  | clkFmc (mb : Fin 8) (tag : Word) (pl : List Word)
  /-- CLK_GATE_SET (R532). -/
  | clkGateSet (mb : Fin 8) (tag : Word) (pl : List Word)
  /-- CLK_MON_SET (R533). -/
  | clkMonSet (mb : Fin 8) (tag : Word) (pl : List Word)
  /-- FE_FAST_SET (R79). -/
  | feFastSet (mb : Fin 8) (tag : Word) (pl : List Word)
  /-- FE_SCAN_SET (R80). -/
  | feScanSet (mb : Fin 8) (tag : Word) (pl : List Word)
  /-- FE_EXC_SET (R81). -/
  | feExcSet (mb : Fin 8) (tag : Word) (pl : List Word)
  /-- FE_LIN_WRITE (R82). -/
  | feLinWrite (mb : Fin 8) (tag : Word) (pl : List Word)
  /-- FE_LIN_COMMIT (R83). -/
  | feLinCommit (mb : Fin 8) (tag : Word) (pl : List Word)
  /-- FE_LIN_READ (R83). -/
  | feLinRead (mb : Fin 8) (tag : Word) (pl : List Word)
  /-- FE_FAULT_STATUS (R84). -/
  | feFaultStatus (mb : Fin 8) (tag : Word) (pl : List Word)
  /-- FE_FAULT_DETAIL (R84). -/
  | feFaultDetail (mb : Fin 8) (tag : Word) (pl : List Word)
  /-- CAL_REF_SET (R108). -/
  | calRefSet (mb : Fin 8) (tag : Word) (pl : List Word)
  /-- CAL_POLICY_SET (R109). -/
  | calPolicySet (mb : Fin 8) (tag : Word) (pl : List Word)
  /-- CAL_RUN (R110). -/
  | calRun (mb : Fin 8) (tag : Word) (pl : List Word)
  /-- CAL_RESULT_READ (R111). -/
  | calResultRead (mb : Fin 8) (tag : Word) (pl : List Word)
  /-- FLT_PROFILE_SET (R155). -/
  | fltProfileSet (mb : Fin 8) (tag : Word) (pl : List Word)
  /-- FLT_COEF_WRITE (R156). -/
  | fltCoefWrite (mb : Fin 8) (tag : Word) (pl : List Word)
  /-- FLT_COEF_COMMIT (R157). -/
  | fltCoefCommit (mb : Fin 8) (tag : Word) (pl : List Word)
  /-- FLT_BANK_SWAP (R158). -/
  | fltBankSwap (mb : Fin 8) (tag : Word) (pl : List Word)
  /-- FLT_CHAN_SET (R159). -/
  | fltChanSet (mb : Fin 8) (tag : Word) (pl : List Word)
  /-- FLT_SYNC (R160). -/
  | fltSync (mb : Fin 8) (tag : Word) (pl : List Word)
  /-- FLT_DELAY_READ (R161). -/
  | fltDelayRead (mb : Fin 8) (tag : Word) (pl : List Word)
  /-- TRG_UNIT_SET (R193). -/
  | trgUnitSet (mb : Fin 8) (tag : Word) (pl : List Word)
  /-- TRG_QUAL_SET (R194). -/
  | trgQualSet (mb : Fin 8) (tag : Word) (pl : List Word)
  /-- CAP_GROUP_SET (R195). -/
  | capGroupSet (mb : Fin 8) (tag : Word) (pl : List Word)
  /-- TRG_ARM (R196). -/
  | trgArm (mb : Fin 8) (tag : Word) (pl : List Word)
  /-- TRG_SOFT (R197). -/
  | trgSoft (mb : Fin 8) (tag : Word) (pl : List Word)
  /-- TRG_STATUS (R198). -/
  | trgStatus (mb : Fin 8) (tag : Word) (pl : List Word)
  /-- TRG_IO_SET (R199). -/
  | trgIoSet (mb : Fin 8) (tag : Word) (pl : List Word)
  /-- ACT_RULE_SET (R214). -/
  | actRuleSet (mb : Fin 8) (tag : Word) (pl : List Word)
  /-- ACT_PIN_SET (R215). -/
  | actPinSet (mb : Fin 8) (tag : Word) (pl : List Word)
  /-- ACT_ARM (R216). -/
  | actArm (mb : Fin 8) (tag : Word) (pl : List Word)
  /-- ACT_CLEAR (R217). -/
  | actClear (mb : Fin 8) (tag : Word) (pl : List Word)
  /-- ACT_STATUS (R218). -/
  | actStatus (mb : Fin 8) (tag : Word) (pl : List Word)
  /-- ACT_FAILSAFE_PROGRAM (R219). -/
  | actFailsafeProgram (mb : Fin 8) (tag : Word) (pl : List Word)
  /-- TIME_SRC_SET (R243). -/
  | timeSrcSet (mb : Fin 8) (tag : Word) (pl : List Word)
  /-- TIME_REF_SET (R244). -/
  | timeRefSet (mb : Fin 8) (tag : Word) (pl : List Word)
  /-- TIME_SET (R245). -/
  | timeSet (mb : Fin 8) (tag : Word) (pl : List Word)
  /-- TIME_PPS_OUT_SET (R246). -/
  | timePpsOutSet (mb : Fin 8) (tag : Word) (pl : List Word)
  /-- TIME_STATUS_READ (R247). -/
  | timeStatusRead (mb : Fin 8) (tag : Word) (pl : List Word)
  /-- NET_PTP_SET (R267). -/
  | netPtpSet (mb : Fin 8) (tag : Word) (pl : List Word)
  /-- NET_PORT_COMP_SET (R268). -/
  | netPortCompSet (mb : Fin 8) (tag : Word) (pl : List Word)
  /-- NET_PORT_SET (R458). -/
  | netPortSet (mb : Fin 8) (tag : Word) (pl : List Word)
  /-- NET_RR_CONFIRM (R269). -/
  | netRrConfirm (mb : Fin 8) (tag : Word) (pl : List Word)
  /-- NET_AUTH_KEY_SET (R270). -/
  | netAuthKeySet (mb : Fin 8) (tag : Word) (pl : List Word)
  /-- NET_FRAME_WRITE (R271). -/
  | netFrameWrite (mb : Fin 8) (tag : Word) (pl : List Word)
  /-- NET_FRAME_SEND (R272). -/
  | netFrameSend (mb : Fin 8) (tag : Word) (pl : List Word)
  /-- NET_LAUNCH (R273). -/
  | netLaunch (mb : Fin 8) (tag : Word) (pl : List Word)
  /-- NET_TXTS_READ (R274). -/
  | netTxtsRead (mb : Fin 8) (tag : Word) (pl : List Word)
  /-- NET_PTP_STATUS (R275). -/
  | netPtpStatus (mb : Fin 8) (tag : Word) (pl : List Word)
  /-- NET_QUAR_RELEASE (R276). -/
  | netQuarRelease (mb : Fin 8) (tag : Word) (pl : List Word)
  /-- NET_PATH_SET (R459). -/
  | netPathSet (mb : Fin 8) (tag : Word) (pl : List Word)
  /-- NET_ADDR_SET (R460). -/
  | netAddrSet (mb : Fin 8) (tag : Word) (pl : List Word)
  /-- NET_VERDICT (R461). -/
  | netVerdict (mb : Fin 8) (tag : Word) (pl : List Word)
  /-- NET_PATH_STATUS (R462). -/
  | netPathStatus (mb : Fin 8) (tag : Word) (pl : List Word)
  /-- TIU_INPUT_SET (R293). -/
  | tiuInputSet (mb : Fin 8) (tag : Word) (pl : List Word)
  /-- TIU_INTERVAL_SET (R294). -/
  | tiuIntervalSet (mb : Fin 8) (tag : Word) (pl : List Word)
  /-- TIU_FREQ (R295). -/
  | tiuFreq (mb : Fin 8) (tag : Word) (pl : List Word)
  /-- TIU_READ (R296). -/
  | tiuRead (mb : Fin 8) (tag : Word) (pl : List Word)
  /-- TIU_STATUS (R297). -/
  | tiuStatus (mb : Fin 8) (tag : Word) (pl : List Word)
  /-- TIU_CAL_SET (R298). -/
  | tiuCalSet (mb : Fin 8) (tag : Word) (pl : List Word)
  /-- CHG_SET (R340). -/
  | chgSet (mb : Fin 8) (tag : Word) (pl : List Word)
  /-- CHG_RUN (R341). -/
  | chgRun (mb : Fin 8) (tag : Word) (pl : List Word)
  /-- CONSUMER_SET (R342). -/
  | consumerSet (mb : Fin 8) (tag : Word) (pl : List Word)
  /-- JOURNAL_SET (R343). -/
  | journalSet (mb : Fin 8) (tag : Word) (pl : List Word)
  /-- JOURNAL_STATUS (R344). -/
  | journalStatus (mb : Fin 8) (tag : Word) (pl : List Word)
  /-- FERRY_KEY_SET (R345). -/
  | ferryKeySet (mb : Fin 8) (tag : Word) (pl : List Word)
  /-- LIVE_SET (R346). -/
  | liveSet (mb : Fin 8) (tag : Word) (pl : List Word)
  /-- CHAN_DESC_SET (R347). -/
  | chanDescSet (mb : Fin 8) (tag : Word) (pl : List Word)
  /-- CODEC_SET (R372). -/
  | codecSet (mb : Fin 8) (tag : Word) (pl : List Word)
  /-- CODEC_CHAN_SET (R373). -/
  | codecChanSet (mb : Fin 8) (tag : Word) (pl : List Word)
  /-- CODEC_STATUS (R374). -/
  | codecStatus (mb : Fin 8) (tag : Word) (pl : List Word)
  /-- CODEC_STATE_SAVE (R375). -/
  | codecStateSave (mb : Fin 8) (tag : Word) (pl : List Word)
  /-- CODEC_STATE_READ (R376). -/
  | codecStateRead (mb : Fin 8) (tag : Word) (pl : List Word)
  /-- CODEC_STATE_WRITE (R376). -/
  | codecStateWrite (mb : Fin 8) (tag : Word) (pl : List Word)
  /-- CODEC_CHECK (R377). -/
  | codecCheck (mb : Fin 8) (tag : Word) (pl : List Word)
  /-- SL_LANE_SET (R409). -/
  | slLaneSet (mb : Fin 8) (tag : Word) (pl : List Word)
  /-- SL_SLOT_SET (R410). -/
  | slSlotSet (mb : Fin 8) (tag : Word) (pl : List Word)
  /-- SL_KEY_SET (R411). -/
  | slKeySet (mb : Fin 8) (tag : Word) (pl : List Word)
  /-- SL_RESET (R412). -/
  | slReset (mb : Fin 8) (tag : Word) (pl : List Word)
  /-- SL_QUAR_RELEASE (R413). -/
  | slQuarRelease (mb : Fin 8) (tag : Word) (pl : List Word)
  /-- SL_STATUS (R414). -/
  | slStatus (mb : Fin 8) (tag : Word) (pl : List Word)
  /-- CASC_SET (R435). -/
  | cascSet (mb : Fin 8) (tag : Word) (pl : List Word)
  /-- CASC_PORT_SET (R436). -/
  | cascPortSet (mb : Fin 8) (tag : Word) (pl : List Word)
  /-- CASC_LINK_RESET (R437). -/
  | cascLinkReset (mb : Fin 8) (tag : Word) (pl : List Word)
  /-- CASC_QUAR_RELEASE (R438). -/
  | cascQuarRelease (mb : Fin 8) (tag : Word) (pl : List Word)
  /-- CASC_STATUS (R439). -/
  | cascStatus (mb : Fin 8) (tag : Word) (pl : List Word)
  /-- SEC_STATUS (R558). -/
  | secStatus (mb : Fin 8) (tag : Word) (pl : List Word)
  /-- SEC_JTAG_CHALLENGE (R559). -/
  | secJtagChallenge (mb : Fin 8) (tag : Word) (pl : List Word)
  /-- SEC_JTAG_UNLOCK (R559). -/
  | secJtagUnlock (mb : Fin 8) (tag : Word) (pl : List Word)
  /-- SEC_OTP_PROGRAM (R560). -/
  | secOtpProgram (mb : Fin 8) (tag : Word) (pl : List Word)
  /-- FW_WRITE (R561). -/
  | fwWrite (mb : Fin 8) (tag : Word) (pl : List Word)
  /-- FW_VERIFY (R562). -/
  | fwVerify (mb : Fin 8) (tag : Word) (pl : List Word)
  /-- FW_SWITCH (R563). -/
  | fwSwitch (mb : Fin 8) (tag : Word) (pl : List Word)
  /-- FLASH_STATUS (R564). -/
  | flashStatus (mb : Fin 8) (tag : Word) (pl : List Word)
  /-- DRAM_RETIRED_READ (R565). -/
  | dramRetiredRead (mb : Fin 8) (tag : Word) (pl : List Word)
  /-- SELFTEST (R566). -/
  | selftest (mb : Fin 8) (tag : Word) (pl : List Word)
  /-- MB_CMD_WRITE (R480). -/
  | mbCmdWrite (mb : Fin 8) (i : Fin 128) (w : Word)
  /-- MB_DOORBELL_RING (R480). -/
  | mbDoorbellRing (mb : Fin 8)
  /-- MB_RELEASE (R481). -/
  | mbRelease (mb : Fin 8)
  /-- MB_COMMAND_TAKE (R482). -/
  | mbCommandTake
  /-- CQ_RD_WRITE (R489). -/
  | cqRdWrite (w : Word)
  /-- RESET_CTRL_CONTROL (R475). -/
  | resetCtrlControl
  /-- RESET_CTRL_DATAPATH (R475). -/
  | resetCtrlDatapath
  /-- SNAP_CTRL_SNAP (R242). -/
  | snapCtrlSnap
  /-- CMP_CTRL_WRITE (R242). -/
  | cmpCtrlWrite (n : Fin 8) (w : Word)
  /-- EVT_ENABLE_WRITE (R499). -/
  | evtEnableWrite (bank : Fin 4) (w : Word)
  /-- FERRY_ACK_WRITE (R327). -/
  | ferryAckWrite (c : Fin 4) (origin : Fin 16) (lo : Word) (hi : Word)
  /-- FERRY_CTRL_WRITE (R327). -/
  | ferryCtrlWrite (c : Fin 4) (w : Word)
  /-- FERRY_TAIL_WRITE (R326). -/
  | ferryTailWrite (c : Fin 4) (w : Word) (descs : List (Nat × Nat))
  /-- LQ_FLUSH (R338). -/
  | lqFlush (q : Fin 16)
  /-- LQ_LOST_READ (R337). -/
  | lqLostRead (r : Machine.BusRead)
  /-- MSIX_UNMASK (R472). -/
  | msixUnmask (v : Fin 16)
  /-- REGISTER_WRITE (R8). -/
  | registerWrite (addr : Nat) (bytes : List (Option Byte))
  /-- SPI_WRITE_FRAME (R470). -/
  | spiWriteFrame (addr : BitVec 24) (ws : List Word) (part : Bool)
  /-- SPI_WRITE_CRC_FRAME (R470). -/
  | spiWriteCrcFrame (addr : BitVec 24) (ws : List Word) (crc : Word) (part : Bool)
  /-- SPI_READ_FRAME (R469). -/
  | spiReadFrame (addr : BitVec 24) (n : Nat) (crc : Bool) (part : Bool)
  /-- HOST_LINK_RESTART (R467). -/
  | hostLinkRestart (cause : Machine.LinkCause)
  /-- PCIE_READY (R465). -/
  | pcieReady
  /-- POWER_ON_RESET (R537). -/
  | powerOnReset
  /-- RESET_N_ASSERT (R537). -/
  | resetNAssert
  /-- COLD_BOOT (R540). -/
  | coldBoot (b : Machine.BootIn)
  /-- BOOT_COMPLETE (R540). -/
  | bootComplete (arbSel : Bool)
  /-- CONTROL_RESET (R538). -/
  | controlReset
  /-- FIRMWARE_READY (R538). -/
  | firmwareReady (fastOk : Bool) (okThis : Bool) (okOther : Bool)
  /-- LOCKSTEP_MISMATCH (R538). -/
  | lockstepMismatch
  /-- WATCHDOG_EXPIRY (R538). -/
  | watchdogExpiry
  /-- TRIAL_REVERT (R545). -/
  | trialRevert
  /-- DATAPATH_WARM_RESET (R539). -/
  | datapathWarmReset
  /-- PER_BLOCK_RESET (R556). -/
  | perBlockReset
  /-- PFW_WARNING (R546). -/
  | pfwWarning (complete : Bool)
  /-- RETAIN_RESUME (R549). -/
  | retainResume (b : Machine.ResumeIn)
  /-- SUPPLY_WARN (R536). -/
  | supplyWarn (supply : Fin 16)
  /-- STATE_SAVE_TIMER (R553). -/
  | stateSaveTimer
  /-- ROOT_PLL_LOCK (R513). -/
  | rootPllLock
  /-- ROOT_PLL_UNLOCK (R521). -/
  | rootPllUnlock
  /-- ROOT_GATE_OPEN (R521). -/
  | rootGateOpen
  /-- HOLD_TIMEOUT_STOP (R523). -/
  | holdTimeoutStop
  /-- STOPPED_RELOCK_ATTEMPT (R523). -/
  | stoppedRelockAttempt
  /-- STOPPED_RECOVERY (R523). -/
  | stoppedRecovery (src : Option Machine.SrcReading)
  /-- CLK_MON_WINDOW (R517). -/
  | clkMonWindow (src : Fin 5) (count : Nat)
  /-- CLK_STOP_DETECT (R517). -/
  | clkStopDetect (src : Fin 5)
  /-- OSC_DELAY_EXPIRY (R516). -/
  | oscDelayExpiry
  /-- XO_START_TIMEOUT (R516). -/
  | xoStartTimeout
  /-- MUX_FORCED_SWITCH (R520). -/
  | muxForcedSwitch (host : Bool)
  /-- GATE_QUIESCE_ACCEPT (R526). -/
  | gateQuiesceAccept (gate : Fin 64)
  /-- GATE_QUIESCE_TIMEOUT (R526). -/
  | gateQuiesceTimeout (gate : Fin 64)
  /-- FMC_COMPLETE (R527). -/
  | fmcComplete (edges : Nat)
  /-- FRAME_STROBE (R23). -/
  | frameStrobe
  /-- EPOCH_BREAK (R229). -/
  | epochBreak
  /-- TIME_SET_ORIGIN (R245). -/
  | timeSetOrigin
  /-- SOURCE_HOLDOFF_EXPIRY (R225). -/
  | sourceHoldoffExpiry
  /-- TIME_MAP_PERIODIC (R237). -/
  | timeMapPeriodic
  /-- UNCERTAINTY_RECORD (R237). -/
  | uncertaintyRecord
  /-- CMP_FIRE (R239). -/
  | cmpFire (n : Fin 8)
  /-- PPS_OUT_PULSE (R246). -/
  | ppsOutPulse
  /-- PPS_IN_EDGE (R291). -/
  | ppsInEdge (falling : Bool) (e : Machine.LineEdge)
  /-- TIME_REF_TIMEOUT (R244). -/
  | timeRefTimeout
  /-- PTP_SYNC_RECEIVE (R253). -/
  | ptpSyncReceive (p : Fin 2) (head : Machine.PtpHead) (seq : Nat) (twoStep : Bool) (t1 : Int) (corr : Int)
  /-- PTP_FOLLOW_UP_RECEIVE (R253). -/
  | ptpFollowUpReceive (p : Fin 2) (head : Machine.PtpHead) (seq : Nat) (t1 : Int) (corr : Int)
  /-- PTP_DELAY_RESP_RECEIVE (R252). -/
  | ptpDelayRespReceive (p : Fin 2) (head : Machine.PtpHead) (seq : Nat) (t4 : Int) (corr : Int)
  /-- PTP_ANNOUNCE_RECEIVE (R248). -/
  | ptpAnnounceReceive (p : Fin 2) (head : Machine.PtpHead) (ann : Machine.Announce)
  /-- PTP_PDELAY_REQ_RECEIVE (R248). -/
  | ptpPdelayReqReceive (p : Fin 2) (head : Machine.PtpHead) (seq : Nat)
  /-- PTP_PDELAY_RESP_RECEIVE (R252). -/
  | ptpPdelayRespReceive (p : Fin 2) (head : Machine.PtpHead) (seq : Nat) (followUp : Bool) (twoStep : Bool) (t : Int) (corr : Int)
  /-- PTP_DELAY_REQ_TIMER (R252). -/
  | ptpDelayReqTimer (p : Fin 2)
  /-- SERVO_SYNC_TIMEOUT (R253). -/
  | servoSyncTimeout (p : Fin 2) (announce : Bool)
  /-- RR_CONFIRM_SECOND (R255). -/
  | rrConfirmSecond
  /-- RR_HOLD_EXPIRY (R256). -/
  | rrHoldExpiry
  /-- FRAME_TRANSMIT_DONE (R260). -/
  | frameTransmitDone (ago : T64)
  /-- LAUNCH_GUARD_START (R262). -/
  | launchGuardStart
  /-- LAUNCH_TRANSMIT (R263). -/
  | launchTransmit
  /-- FERRY_ACK_RECEIVE (R329). -/
  | ferryAckReceive (header : List Byte) (plain : List Byte) (cipher : List Byte)
  /-- FERRY_ACK_TIMEOUT (R329). -/
  | ferryAckTimeout
  /-- VERDICT_DATAGRAM_RECEIVE (R446). -/
  | verdictDatagramReceive (p : Fin 2) (head : Machine.UdpHead) (plain : List Byte) (cipher : List Byte)
  /-- SUSPECT_DATAGRAM_TIMER (R444). -/
  | suspectDatagramTimer
  /-- NET_LINK_CHANGE (R443). -/
  | netLinkChange (p : Fin 2) (up : Bool)
  /-- NET_ADDR_REQUEST (R442). -/
  | netAddrRequest (p : Fin 2) (v6 : Bool) (addr : List Word) (data : List Byte)
  /-- SUSPECT_DEBOUNCE (R444). -/
  | suspectDebounce (fcs : Nat)
  /-- SUSPECT_CLEAR (R444). -/
  | suspectClear (fcs : Nat)
  /-- ARB_SEL_STABLE (R445). -/
  | arbSelStable (level : Bool)
  /-- FAILOVER_ACTIVATE (R451). -/
  | failoverActivate
  /-- FAILOVER_COMPLETE (R451). -/
  | failoverComplete
  /-- SELFTEST_TIMER (R453). -/
  | selftestTimer (p : Fin 2)
  /-- PRBS_TEST_DONE (R454). -/
  | prbsTestDone (p : Fin 2) (errors : Nat)
  /-- ECHO_REPLY_RECEIVE (R454). -/
  | echoReplyReceive (p : Fin 2) (seq : Nat)
  /-- ECHO_TIMEOUT (R454). -/
  | echoTimeout (p : Fin 2)
  /-- SNAPSHOT_TIMER (R448). -/
  | snapshotTimer
  /-- PATH_HEALTH_TIMER (R456). -/
  | pathHealthTimer (p : Fin 2) (fcs : Nat)
  /-- TIU_EDGE (R277). -/
  | tiuEdge (i : Fin 8) (falling : Bool) (tap : Fin 512) (drained : Nat)
  /-- IU_WIN_TIMEOUT (R287). -/
  | iuWinTimeout (u : Fin 8)
  /-- TIU_FREQ_GATE_END (R289). -/
  | tiuFreqGateEnd (i : Fin 8)
  /-- TIU_CAL_TIMER (R281). -/
  | tiuCalTimer
  /-- TIU_HANDOVER_DONE (R282). -/
  | tiuHandoverDone (pairs : List Machine.PairedStamp)
  /-- TIU_CAL_DONE (R283). -/
  | tiuCalDone (hits : List (List Nat))
  /-- TACH_PULSE (R130). -/
  | tachPulse (i : Fin 8)
  /-- FE_FAULT_DECLARE (R72). -/
  | feFaultDeclare (ch : Fin 64) (pin : Fin 4) (above : Bool)
  /-- FE_FAULT_CLEAR_DECLARE (R69). -/
  | feFaultClearDeclare (ch : Fin 64)
  /-- SCAN_VISIT_DONE (R58). -/
  | scanVisitDone (m : Fin 8) (e : Fin 9) (first : List Int) (second : List Int) (out : Bool) (above : Bool) (pin : Fin 4) (ovrFirst : Bool) (ovrSecond : Bool) (refOk : Bool) (busy : Bool)
  /-- EXC_FAULT_ONSET (R67). -/
  | excFaultOnset (x : Fin 8)
  /-- EXC_FAULT_END (R67). -/
  | excFaultEnd (x : Fin 8)
  /-- EXC_SWITCH (R66). -/
  | excSwitch (x : Fin 8)
  /-- DIE_TEMP_SAMPLE (R90). -/
  | dieTempSample (temps : List Int)
  /-- CAL_MAX_INT_EXPIRY (R90). -/
  | calMaxIntExpiry (g : Fin 8)
  /-- CAL_SLOT_STEP (R92). -/
  | calSlotStep (refOk : Bool)
  /-- CAL_MEASURE_DONE (R96). -/
  | calMeasureDone (zero : List Int) (plus : List Int) (minus : List Int) (ovrZero : Bool) (ovrVc : Bool)
  /-- TRIM_STEP (R99). -/
  | trimStep (ch : Fin 64)
  /-- PEPPER_OUTPUT (R120). -/
  | pepperOutput (ch : Fin 640) (codes : List (Int × Bool)) (shadow : List (Int × Bool))
  /-- CHAIN_OUTPUT (R136). -/
  | chainOutput (ch : Fin 640)
  /-- STAGING_RELEASE (R73). -/
  | stagingRelease (ch : Fin 640)
  /-- PART_CLOSE (R309). -/
  | partClose (fails : List (Nat × Nat))
  /-- PART_LANDED (R317). -/
  | partLanded
  /-- LATE_WAIT_EXPIRY (R311). -/
  | lateWaitExpiry (g : Fin 64) (fails : List Nat)
  /-- RECORD_OFFER (R322). -/
  | recordOffer (c : Fin 4) (origin : Fin 16) (descs : List (Nat × Nat))
  /-- RING_FLUSH_TIMEOUT (R326). -/
  | ringFlushTimeout (c : Fin 4)
  /-- INDEX_SCRUB (R320). -/
  | indexScrub (ups : List Machine.IndexUpset)
  /-- PAGE_SCRUB (R333). -/
  | pageScrub (page : Nat) (n : Nat)
  /-- DRAM_UNCORRECTABLE (R334). -/
  | dramUncorrectable (page : Nat)
  /-- SEGMENT_COMPLETE (R181). -/
  | segmentComplete (g : Fin 32)
  /-- SEGMENT_LANDED (R181). -/
  | segmentLanded (g : Fin 32) (fails : List Nat)
  /-- AUTO_SEGMENT (R188). -/
  | autoSegment (g : Fin 32)
  /-- CODEC_DEMOTE (R367). -/
  | codecDemote (stream : Fin 96)
  /-- CODEC_PROMOTE (R367). -/
  | codecPromote (stream : Fin 96)
  /-- SYNC_APPLY (R160). -/
  | syncApply
  /-- CHG_RUN_APPLY (R301). -/
  | chgRunApply
  /-- TRG_ARM_APPLY (R196). -/
  | trgArmApply
  /-- BANK_SWAP_START (R122). -/
  | bankSwapStart
  /-- BANK_FADE_COMPLETE (R123). -/
  | bankFadeComplete (profile : Fin 32)
  /-- CHAN_PARAM_APPLY (R147). -/
  | chanParamApply
  /-- CHAN_DESC_LAND (R347). -/
  | chanDescLand
  /-- TRIG_INPUT_CHANGE (R168). -/
  | trigInputChange (k : Fin 8) (level : Bool)
  /-- TRIG_PULSE_END (R191). -/
  | trigPulseEnd (k : Fin 8)
  /-- CT_HOLD_EXPIRY (R190). -/
  | ctHoldExpiry (line : Fin 16)
  /-- ACT_PULSE_END (R204). -/
  | actPulseEnd (rule : Fin 32)
  /-- ACT_DEADMAN_EXPIRY (R208). -/
  | actDeadmanExpiry
  /-- SL_LOSS_OF_LOCK (R381). -/
  | slLossOfLock (lane : Fin 16)
  /-- SL_STEP_TIMEOUT (R382). -/
  | slStepTimeout (x : Machine.LaneStep)
  /-- SL_RETRY_TIMER (R382). -/
  | slRetryTimer (lane : Fin 16)
  /-- SL_HELLO_RECEIVE (R403). -/
  | slHelloReceive (lane : Fin 16) (intact : Bool) (frame : List Byte)
  /-- SL_SAMPLE_FRAME (R396). -/
  | slSampleFrame (lane : Fin 16) (intact : Bool) (frame : List Byte)
  /-- SL_SLOT_ACK_RECEIVE (R410). -/
  | slSlotAckReceive (lane : Fin 16) (intact : Bool) (frame : List Byte)
  /-- SL_SLOT_SET_TIMEOUT (R410). -/
  | slSlotSetTimeout (lane : Fin 16) (slot : Fin 32)
  /-- SL_RELEASED_RECEIVE (R399). -/
  | slReleasedReceive (lane : Fin 16) (intact : Bool) (frame : List Byte)
  /-- SL_SLIP_RECEIVE (R387). -/
  | slSlipReceive (lane : Fin 16) (intact : Bool) (frame : List Byte)
  /-- SL_POD_HEALTH_RECEIVE (R394). -/
  | slPodHealthReceive (lane : Fin 16) (intact : Bool) (frame : List Byte)
  /-- SL_DELAY_ECHO (R389). -/
  | slDelayEcho (lane : Fin 16) (trip : Machine.RoundTrip) (turn : Nat)
  /-- SL_PROBE_TIMER (R389). -/
  | slProbeTimer (lane : Fin 16)
  /-- SL_LANDED_TIMER (R397). -/
  | slLandedTimer (lane : Fin 16)
  /-- SL_ABORT_SYMBOL (R380). -/
  | slAbortSymbol (lane : Fin 16)
  /-- CASC_LOSS_OF_LOCK (R418). -/
  | cascLossOfLock (p : Fin 2)
  /-- CASC_ALIGN_MARKER (R417). -/
  | cascAlignMarker (p : Fin 2) (lane : Fin 2) (g1 : Nat) (g2 : Nat) (skew : Nat)
  /-- CASC_HELLO_RECEIVE (R419). -/
  | cascHelloReceive (p : Fin 2) (intact : Bool) (frame : List Byte)
  /-- CASC_AUTH_RECEIVE (R420). -/
  | cascAuthReceive (p : Fin 2) (intact : Bool) (frame : List Byte)
  /-- CASC_ROSTER_RECEIVE (R419). -/
  | cascRosterReceive (p : Fin 2) (intact : Bool) (frame : List Byte)
  /-- CASC_REFUSED_RETRY (R419). -/
  | cascRefusedRetry (p : Fin 2)
  /-- CASC_TIME_MARK (R423). -/
  | cascTimeMark (group : Nat) (arrival : T64) (intact : Bool) (frame : List Byte)
  /-- CASC_DELAY_ECHO (R423). -/
  | cascDelayEcho (trip : Machine.RoundTrip) (turn : Nat)
  /-- CASC_TRIGGER_RECEIVE (R426). -/
  | cascTriggerReceive (p : Fin 2) (intact : Bool) (frame : List Byte)
  /-- CASC_RECORD_RECEIVE (R428). -/
  | cascRecordReceive (p : Fin 2) (intact : Bool) (frame : List Byte)
  /-- CASC_ACK_RECEIVE (R428). -/
  | cascAckReceive (p : Fin 2) (intact : Bool) (frame : List Byte)
  /-- CASC_CREDIT_RECEIVE (R421). -/
  | cascCreditReceive (p : Fin 2) (intact : Bool) (frame : List Byte)
  /-- CASC_NAK_RECEIVE (R421). -/
  | cascNakReceive (p : Fin 2) (intact : Bool) (frame : List Byte)
  /-- CASC_EPOCH_REQ_RECEIVE (R425). -/
  | cascEpochReqReceive (p : Fin 2) (intact : Bool) (frame : List Byte)
  /-- CASC_HOP_HEALTH_RECEIVE (R420). -/
  | cascHopHealthReceive (p : Fin 2) (intact : Bool) (frame : List Byte)
  /-- CASC_CREDIT_TIMER (R421). -/
  | cascCreditTimer (p : Fin 2)
  /-- SL_COMMA_ALIGNMENT (R381). -/
  | slCommaAlignment (lane : Fin 16) (inverted : Bool)
  /-- CASC_COMMA_ALIGNMENT (R418). -/
  | cascCommaAlignment (p : Fin 2) (inverted : Fin 4)
  /-- CASC_STEP_TIMEOUT (R418). -/
  | cascStepTimeout (x : Machine.HopStep)
  /-- CASC_RETRY_TIMER (R418). -/
  | cascRetryTimer (p : Fin 2)
  /-- CASC_PROBE_TIMER (R423). -/
  | cascProbeTimer
  /-- CASC_HOP_HEALTH_TIMER (R420). -/
  | cascHopHealthTimer
  /-- PTP_MESSAGE_IGNORED (R249). -/
  | ptpMessageIgnored (p : Fin 2)
  /-- ROUTER_ADVERTISEMENT_RECEIVE (R460). -/
  | routerAdvertisementReceive (p : Fin 2) (router : List Byte)
  /-- ADDRESS_RESOLUTION_REPLY (R453). -/
  | addressResolutionReply (p : Fin 2)
  /-- FE_EXCURSION_END (R69). -/
  | feExcursionEnd (ch : Fin 64)
  /-- FOLLOW_MIN_EXPIRY (R204). -/
  | followMinExpiry
  /-- PPS_OUT_PULSE_END (R246). -/
  | ppsOutPulseEnd
  /-- PCIE_CONFIGURATION_WRITE (R466). -/
  | pcieConfigurationWrite (bme : Bool) (d0 : Bool)
  /-- JOURNAL_PAGE_CHECK_DONE (R540). -/
  | journalPageCheckDone (page : Nat) (ok : Bool)
  /-- TRIAL_S_EXPIRY (R545). -/
  | trialSExpiry
  /-- SL_RESET_TIMEOUT (R412). -/
  | slResetTimeout (lane : Fin 16)
  /-- CASC_LINK_RESET_TIMEOUT (R437). -/
  | cascLinkResetTimeout (p : Fin 2)
  /-- FLASH_OPERATION_DONE (R553). -/
  | flashOperationDone (ok : Bool)
  /-- OTP_PROGRAM_DONE (R560). -/
  | otpProgramDone (ok : Bool)
  /-- SELFTEST_DONE (R566). -/
  | selftestDone (failed : Nat)
  /-- CODEC_CHECK_DONE (R377). -/
  | codecCheckDone
deriving DecidableEq, Repr

end Sys2Proof
end

