-- ==== Sys2Proof/Machine/ActTypes.lean ====
section
/-!
DEFINITION. State of the action outputs (chapter 07).
-/
namespace Sys2Proof.Machine

/-- The condition of an ACT pin (R200). Reset leaves it in FAIL-SAFE (R210). -/
inductive PinCond where
  | failSafe | idle | asserted
deriving DecidableEq, Repr, Inhabited

/-- A pin change and what its ACTION record carries (R213). -/
structure PinChange where
  pin : Nat
  change : Nat
  rule : Nat
  cause : Nat
  unit : Nat
  flags : Nat
  t : T64
  epoch : Nat
  cross : T64
deriving DecidableEq, Repr

/-- The level at which the hub drives a pin (R209, R215). -/
inductive PinLevel where
  | low | high | highZ
deriving DecidableEq, Repr

/-- A provisional trigger that an EARLY rule has acted on, by its unit and t_p, and the pin changes that wait for what becomes of it
(R203, R213). -/
structure EarlyAct where
  unit : Nat
  tp : T64
  waiting : List PinChange
deriving DecidableEq, Repr

/-- An action rule's state (R202 to R206). -/
structure ActRule where
  armed : Bool := false
  asserted : Bool := false
  /-- The free count of TIME cycles at the latest trigger that the rule acted on. -/
  latest : Nat := 0
  /-- That trigger while it is provisional and unresolved. -/
  cause : Option (Nat × T64) := none
  /-- That trigger was cancelled: the end of its pulse does not land (R213). -/
  unlanded : Bool := false
  early : List EarlyAct := []
  cancelled : Nat := 0
deriving DecidableEq, Repr, Inhabited

structure ActSt where
  rules : Tab ActRule := []
  pins : Tab PinCond := []
  /-- The OTP code of each pin as its last entry to FAIL-SAFE took it; 0, high impedance, before the OTP is read (R209, R210, R219). -/
  codes : Tab Nat := []
  /-- DEADMAN_T in ms, 0 when not loaded, the XO count of the last reload, and whether the timer has run out since (R208). -/
  deadmanT : Nat := 0
  deadmanAt : Nat := 0
  deadmanOut : Bool := false
  /-- Changes that land when landing resumes (R213). -/
  unlanded : List PinChange := []
  /-- Assertions that wait for the crossing instant of a trigger, named by its unit and detection timestamp (R170, R213). -/
  await : List (Nat × T64 × PinChange) := []
deriving DecidableEq, Repr, Inhabited

/-- ACT_RULE_SET (R214). -/
structure ActRuleCfg where
  early : Bool := false
  deadman : Bool := false
  mode : Nat := 0
  pin : Nat := 0
  mask : Nat := 0
  width : Nat := 0
deriving DecidableEq, Repr, Inhabited

/-- ACT_PIN_SET (R215). -/
structure ActPinCfg where
  drive : Bool := false
  pol : Bool := false
deriving DecidableEq, Repr, Inhabited

structure ActCfg where
  rules : Tab ActRuleCfg := []
  pins : Tab ActPinCfg := []
deriving DecidableEq, Repr, Inhabited

end Sys2Proof.Machine
end

