-- ==== Sys2Proof/Machine/CodTypes.lean ====
section
/-!
DEFINITION. State of the codec (chapter 12).
-/
namespace Sys2Proof.Machine

/-- CODEC_SET (R372). -/
structure StreamCfg where
  level : Nat := 0
  kInit : Nat := 8
  order : Nat := 1
  blockBytes : Nat := 4096
  demoteUs : Nat := 150
  promoteMs : Nat := 100
deriving DecidableEq, Repr, Inhabited

/-- CODEC_CHAN_SET (R373). -/
structure CodChan where
  order : Nat
  beta : Nat
  kInit : Nat
  nb : Option Nat
deriving DecidableEq, Repr

structure CodCfg where
  streams : Tab StreamCfg := []
  chans : Tab (Option CodChan) := []
deriving DecidableEq, Repr, Inhabited

/-- Predictor and Rice state of a stream position (R352, R354). -/
structure PosSt where
  param : Word := 0
  x1 : Int := 0
  x2 : Int := 0
  x3 : Int := 0
  rt : Int := 0
  a : Nat := 0
  n : Nat := 0
deriving DecidableEq, Repr, Inhabited

/-- What an encoder or a decoder keeps between blocks of a record (R358, R360, R362, R365, R369). -/
structure PrcSt where
  p : Nat := 0
  pos : List PosSt := []
  /-- Residues since the last RESET, newest first, at most 16,384. -/
  hist : List Int := []
  next : Nat := 0
  seq : Nat := 0
  resetDue : Bool := true
  /-- Distance of the pending cut match and the length still to continue. -/
  cut : Option (Nat × Nat) := none
  /-- Values of the record, or of the channel entry, coded so far. -/
  count : Nat := 0
deriving DecidableEq, Repr, Inhabited

/-- A stream (R348, R366, R367, R370, R374, R375). -/
structure CodStream where
  st : PrcSt := {}
  isOpen : Bool := false
  window : Bool := false
  demoted : Bool := false
  /-- When its waiting time was last at half of DEMOTE_US or more (XO cycles). -/
  demotedAt : Nat := 0
  /-- The next part coded drops to level 0 inside, at the value that this free value names (R367). -/
  dropFree : Option Nat := none
  /-- CODEC_STATE_SAVE commands that wait for the next block boundary: handle and slot. -/
  saves : List (Nat × Nat) := []
  /-- BLOCKS, RAW_BLOCKS, VERIFY_FAIL, DEMOTIONS, CUT_MATCHES. -/
  counts : Tab Nat := []
  values : Nat := 0
  bytes : Nat := 0
deriving DecidableEq, Repr, Inhabited

/-- A CODEC_CHECK under way (R377). -/
structure CodCheck where
  handle : Nat
  slot : Option Nat
  entry : Nat
  ticket : Nat
  startSeq : Nat
deriving DecidableEq, Repr

structure CodSt where
  streams : Tab CodStream := []
  /-- Word `i` of save slot `k` at 1024 k + i. -/
  save : Tab Word := []
  /-- Engines out of service. -/
  lost : List Nat := []
  /-- XO counts of an engine's recent verification failures. -/
  fails : Tab (List Nat) := []
  checks : List CodCheck := []
deriving DecidableEq, Repr, Inhabited

end Sys2Proof.Machine
end

