-- ==== Sys2Proof/Machine/TrgTypes.lean ====
section
/-!
DEFINITION. State of calibration (chapter 04) and of triggers, capture groups and TRIG pins (chapter 06).
-/
namespace Sys2Proof.Machine

/-! ## Calibration -/

/-- CAL_POLICY_SET for one group (R109). -/
structure CalGroupCfg where
  suspend : Bool := true
  avg : Nat := 6
  dt : Nat := 8
  maxInt : Nat := 86400
  xfade : Nat := 64
  stepInt : Nat := 3072
  stepLimit : Nat := 256
deriving DecidableEq, Repr, Inhabited

/-- Trim codes and residual of a channel's modulator (R88, R89). -/
structure Trim where
  off : Int := 0
  gain : Int := 0
  oR : Int := 0
  gR : Int := 0
deriving DecidableEq, Repr, Inhabited

/-- CAL_REF_SET (REFIN in 10 nV, REFRES in micro-ohms, uncertainties) and the policies (R85, R108, R109). -/
structure CalCfg where
  ref : Option (Nat × Nat) := none
  unc : Nat := 0
  groups : Tab CalGroupCfg := []
deriving DecidableEq, Repr, Inhabited

/-- A CAL_RESULT payload (R106). -/
structure CalRec where
  tag : Nat := 0
  modulator : Nat := 0
  status : Nat := 0
  temp : Int := 0
  old : Trim := {}
  new : Trim := {}
  means : List Int := []
  noise : Nat := 0
  t : T64 := 0
  epoch : Nat := 0
  gainSel : Nat := 0
  refin : Nat := 0
  /-- The header's T64 and epoch: the start of the slot or rotation. -/
  start : T64 := 0
  startEpoch : Nat := 0
deriving DecidableEq, Repr, Inhabited

/-- Means of a measurement phase: ZERO, +Vc, −Vc in Q1.31; noise in nV; some code carried O (R96). -/
structure Meas where
  zero : Int
  plus : Int
  minus : Int
  noise : Nat
  ovr : Bool
deriving DecidableEq, Repr

/-- A trim ramp under way: the target and the record that lands at its end (R99, R106). -/
structure Ramp where
  target : Trim
  res : CalRec
  /-- The trims and the residual that the ramp starts from, TRIM_STEP_INTERVAL, and TIME cycles at its start or its last step. -/
  base : Trim := {}
  every : Nat := 3072
  since : Nat := 0
deriving DecidableEq, Repr

/-- Where a group run stands (R92). -/
inductive CalPhase where
  /-- The spare is being measured. -/
  | spare
  /-- The next slot is due. -/
  | next
  /-- Step 1 to 7 of the slot of channel `ch`. -/
  | step (n : Nat) (ch : Nat)
deriving DecidableEq, Repr

/-- The group run in progress (R92 to R98). -/
structure CalRun where
  group : Nat
  /-- The group had no spare at the start of the slot: the channel is disconnected for its measurement (R104). -/
  interrupt : Bool
  cfg : CalGroupCfg
  refin : Nat
  phase : CalPhase
  todo : List Nat
  deferred : List Nat
  temp : Int
  startLocal : Nat
  spareMeas : Option Meas
  /-- The first targets of a suspect measurement (R98). -/
  suspect : Option (Int × Int)
  /-- The shadow chain and the outputs of the cross-fade passed (R92, R93). -/
  shadow : Option Chain
  fade : Nat
  /-- The measured result of the slot, before its ramp starts. -/
  result : Option Ramp
  slotT : T64
  slotEpoch : Nat
  slotTemp : Int
  /-- The free count of TIME cycles at the start of the step in progress (R92, R98, R104, R107). -/
  since : Nat
  /-- Faults declared on the slot's channel up to the slot's start (R107). -/
  faults : Nat
deriving DecidableEq, Repr

/-- A CAL_RUN command outstanding (R110): handle, groups to finish, those started, completed, abandoned. -/
structure CalCmd where
  handle : Nat
  left : List Nat
  started : List Nat
  done : List Nat
  abandoned : List Nat
  /-- SYS_ABORT has stopped the command: it completes with ABORTED (R490). -/
  aborted : Bool := false
deriving DecidableEq, Repr

/-- A fast group (R52, R90, R103 to R105). -/
structure CalGrp where
  /-- The spare has been lost. -/
  noSpare : Bool := false
  lastTemp : Option Int := none
  lastStart : Nat := 0
  /-- The triggers that may not start a new run, and until which XO count (R86). -/
  block : List (Nat × Nat) := []
  suspendedRaised : Bool := false
deriving DecidableEq, Repr, Inhabited

/-- A correction of visit values: offset and gain with 31 fraction bits (R101). -/
structure Corr where
  off : Int := 0
  gain : Int := 0
deriving DecidableEq, Repr, Inhabited

/-- A correction that is being applied in 16 equal steps: what it adds in all, the steps left, and the records that land with the
last one (R101, R106). -/
structure ScanRamp where
  delta : Tab Corr
  left : Nat
  recs : List CalRec
deriving DecidableEq, Repr

/-- The continuous calibration of a multiplexer (R101, R102). Corrections of gain selection `g` at key `g`; the
current factor of excitation output `x` at key `8 + x`. -/
structure CalScan where
  corr : Tab Corr := []
  /-- The correction that the last rotation gave, and what is still being applied, oldest first. -/
  target : Tab Corr := []
  ramps : List ScanRamp := []
  /-- A step was applied at the start of this scan period: its values carry T. -/
  moving : Bool := false
  /-- Points measured in the rotation: (key, kind 0 ZERO 1 +Vc 2 −Vc 3 REFRES, value). -/
  got : List (Nat × Nat × Int) := []
  start : T64 := 0
  startEpoch : Nat := 0
  temp : Int := 0
  refin : Nat := 0
  refres : Nat := 0
  notBefore : Nat := 0
  failed : Bool := false
  failing : Bool := false
  /-- Noise of the ZERO points of the rotation, in nV RMS (R106). -/
  noise : Tab Nat := []
deriving DecidableEq, Repr, Inhabited

structure CalSt where
  /-- Pending groups with what made them pending: 0 temperature, 1 interval, 2 CAL_RUN, 3 a restart (R90, R106, R107). -/
  pending : List (Nat × Nat) := []
  run : Option CalRun := none
  cmds : List CalCmd := []
  grp : Tab CalGrp := []
  temp : Tab Int := []
  /-- Modulator serving a channel, plus 1; unlisted: its own MOD(9g + k). -/
  mod : Tab Nat := []
  /-- Channels lost with their modulator, and those whose GAP has landed with OPEN (R105). -/
  lost : List Nat := []
  lostOpen : List Nat := []
  trim : Tab Trim := []
  ramp : Tab (Option Ramp) := []
  /-- The latest measurement of each modulator. -/
  meas : Tab (Option Meas) := []
  scan : Tab CalScan := []
  /-- Latest record at 8 channel + gain selection. -/
  result : Tab (Option CalRec) := []
deriving DecidableEq, Repr, Inhabited

/-! ## Triggers -/

/-- TRG_UNIT_SET and TRG_QUAL_SET (R193, R194). -/
structure UnitCfg where
  /-- TRG_UNIT_SET has configured the unit, so that it has a source. -/
  set : Bool := false
  cond : Nat := 0
  dir : Nat := 0
  pepper : Bool := false
  holdMode : Nat := 0
  k : Nat := 0
  ch : Nat := 0
  a : Int := 0
  b : Int := 0
  hyst : Int := 0
  pa : Int := 0
  pb : Int := 0
  pHyst : Int := 0
  holdT : Nat := 0
  ctOut : Nat := 31
  confWin : Nat := 0
  holdN : Nat := 0
  groups : Nat := 0
  live : Option Nat := none
  mask : Nat := 0
  value : Nat := 0
deriving DecidableEq, Repr, Inhabited

/-- CAP_GROUP_SET (R195). -/
structure CapCfg where
  chans : List Nat := []
  autoEn : Bool := false
  pepper : Bool := false
  pre : Nat := 0
  post : Nat := 0
  ringMs : Nat := 0
  descMax : Nat := 0
  autoT : Nat := 0
  coalesce : Nat := 0
  segLimit : Nat := 0
  ctMask : Nat := 0
deriving DecidableEq, Repr, Inhabited

/-- TRG_IO_SET for a pin (R199). -/
structure PinCfg where
  activeLow : Bool := false
  early : Bool := false
  out : Bool := false
  width : Nat := 0
  mask : Nat := 0
deriving DecidableEq, Repr, Inhabited

structure TrgCfg where
  units : Tab UnitCfg := []
  groups : Tab CapCfg := []
  pins : Tab PinCfg := []
  /-- CT_HOLD of each cascade line in us. -/
  hold : Tab Nat := []
deriving DecidableEq, Repr, Inhabited

/-- An output as a trigger unit sees it: its exact timestamp, epoch, value, and whether it can be evaluated. -/
structure Seen where
  /-- Index on the grid; the output's ordinal in ORDER mode. -/
  n : Nat
  t : Fr
  epoch : Nat
  x : Int
  ok : Bool
deriving DecidableEq, Repr

/-- A condition's tracking on one path (R164 to R167). -/
structure Path where
  /-- Outputs seen, newest first: as many as a slope and its crossing need (R166, R170). -/
  hist : List Seen := []
  /-- Number of outputs seen. -/
  seq : Nat := 0
  /-- The instant after the newest output was passed over. -/
  broken : Bool := false
  /-- Primed for RISE or from below or within; primed for FALL or from above. -/
  up : Bool := false
  down : Bool := false
  /-- The comparison at the most recent evaluated output, and whether there is one since the unit was armed (R167). -/
  level : Bool := false
  live : Bool := false
deriving DecidableEq, Repr, Inhabited

/-- A Saffron detection: its output, the level crossed, the direction that completed (R170, R173). -/
structure Det where
  seq : Nat
  t : Fr
  epoch : Nat
  level : Int
  rise : Bool
  v : Int
deriving DecidableEq, Repr

/-- A provisional trigger (R172, R173). -/
structure Prov where
  tp : Fr
  epoch : Nat
  inst : T64
  rise : Bool
  v : Int
  /-- ORDER: number of the Saffron output nearest t_p, once known. -/
  near : Option Nat
  noSegment : Bool
  /-- Held spans since it was raised, which its confirmation window does not count (R192). -/
  held : T64
deriving DecidableEq, Repr

/-- A confirmed trigger whose crossing instant is not yet known (R170). -/
structure Waiting where
  det : Det
  prov : Option Prov
  noSegment : Bool
deriving DecidableEq, Repr

structure TrgUnit where
  armed : Bool := false
  det : Path := {}
  conf : Path := {}
  lastDet : Option Det := none
  /-- Crossing instant of the last Saffron detection, once its next output has been evaluated. -/
  lastCross : Option (Nat × T64 × Bool) := none
  prov : Option Prov := none
  waiting : List Waiting := []
  /-- Hold-off: end of its TIME part with the epoch, and conditions left of its COUNT part. -/
  holdEnd : Option (Fr × Nat) := none
  holdLeft : Nat := 0
  /-- Instant of the previous trigger, on TB_LOCAL. -/
  raised : Option Nat := none
  /-- FIRED, CONFIRMED, CANCELLED, QUAL_BLOCKED, BUSY, HELD_OFF, REARM_MISS, SEG_MISSED. -/
  counts : Tab Nat := []
  cross : T64 := 0
  crossEpoch : Nat := 0
deriving DecidableEq, Repr, Inhabited

/-- A cause of a segment (R184, R185). -/
structure Cause where
  unit : Nat
  kind : Nat
  hub : Nat
  prov : Bool
  linear : Bool
  value : Int
  cross : T64
  /-- The trigger's detection timestamp, which names it until it is confirmed. -/
  det : T64
  confirmed : Bool
deriving DecidableEq, Repr

/-- An open segment (R179 to R185). -/
structure Seg where
  /-- The number of its opening in the group. -/
  id : Nat
  anchor : T64
  epoch : Nat
  status : Nat
  causes : List Cause
  endCause : Nat
  /-- Last instant of a segment that was closed early. -/
  closeAt : Option T64
  /-- Channels that lost outputs to the ring. -/
  truncated : List Nat
  copying : Bool
  /-- When its copy began (XO cycles). -/
  copyAt : Nat := 0
deriving DecidableEq, Repr

/-- A segment that a trigger opens once 1 us has passed since its group's previous one (R187). -/
structure SegDue where
  anchor : T64
  epoch : Nat
  status : Nat
  cause : Cause
deriving DecidableEq, Repr

structure CapGroup where
  armed : Bool := false
  /-- The recent ring: outputs, oldest first; and of each channel the latest output that the ring has overwritten. -/
  ring : List StOut := []
  gone : Tab (Option (Nat × T64)) := []
  segs : List Seg := []
  due : List SegDue := []
  seq : Nat := 0
  /-- AUTO counts from this TB_SAMPLE instant. -/
  autoFrom : T64 := 0
  autoDue : Bool := false
  forceDue : Nat := 0
  landed : Nat := 0
  truncated : Nat := 0
  dropped : Nat := 0
  missed : Nat := 0
  sinceArm : Nat := 0
  emptyRaised : Bool := false
  /-- Segments opened, and the instant on TB_LOCAL of the last opening. -/
  opened : Nat := 0
  lastOpen : Option Nat := none
deriving DecidableEq, Repr, Inhabited

/-- A TRG_ARM that waits for its strobe (R196). -/
structure ArmReq where
  armU : Nat
  disU : Nat
  armG : Nat
  disG : Nat
  since : Nat
deriving DecidableEq, Repr

structure TrgSt where
  units : Tab TrgUnit := []
  groups : Tab CapGroup := []
  /-- Levels of TRIG pins that are inputs; for an output pin whose pulse runs, the TIME cycle of its latest trigger (R191). -/
  pinLevel : Tab Bool := []
  pulse : Tab (Option Nat) := []
  /-- Cascade lines whose qualifier bit is set, with the TIME cycle of their latest message (R190). -/
  lines : Tab (Option Nat) := []
  /-- What the GAP records of each channel cover: epoch, first and last instant, all ones when OPEN (R184). -/
  gaps : Tab (List (Nat × T64 × T64)) := []
  soft : Nat := 0
  arm : List ArmReq := []
  ctMismatch : Nat := 0
  /-- First instant of the current epoch. -/
  epochStart : T64 := 0
deriving DecidableEq, Repr, Inhabited

end Sys2Proof.Machine
end

