-- ==== Sys2Proof/Machine/Hub.lean ====
section
/-!
DEFINITION. The hub: every piece of state of the spec, grouped by chapter, without the queue of waiting commands.
-/
namespace Sys2Proof.Machine

/-- What leaves the hub, in the order it leaves (log entry 6). -/
inductive Tx where
  /-- An MSI-X message on a vector (R472). -/
  | msix (vector : Nat)
  /-- A bus write of a ferry ring: data or a descriptor's STATUS word (R466). -/
  | dma (addr : Nat) (bytes : List Byte)
  /-- The words and the CRC that a quad-SPI READ returns (R469). -/
  | spi (words : List Word) (crc : Option Word)
  /-- A word that a host register read returns. -/
  | read (addr : Nat) (w : Word)
  /-- A frame on a sensor lane: TYPE, SUBTYPE, SEQ, and the bytes from the header to the CRC (R392). -/
  | lane (n type sub : Nat) (seq : Nat) (body : List Byte)
  /-- A special code group on a sensor lane and the data code group after it (R380). -/
  | symbol (n : Nat) (k data : Byte)
  /-- A frame on a cascade port: TYPE, SEQ, and the bytes from the header to the CRC (R420, R421). -/
  | casc (p type : Nat) (seq : Nat) (body : List Byte)
  /-- A special code group on a lane of a cascade port and the data code group after it (R416, R422, R423). -/
  | csymbol (p lane : Nat) (k data : Byte)
  /-- `n` ALIGN markers, 4,096 code groups apart, on a lane of a cascade port: their first data group, and COUNT of the first (R417). -/
  | align (p lane : Nat) (g : Byte) (count n : Nat)
  /-- A datagram of R328 on a network port: KIND, destination, header and payload. -/
  | ferry (p kind : Nat) (dest : UdpDest) (header body : List Byte)
  /-- A PTP message on a network port: its Ethertype or UDP port, its message type and the bytes that the spec gives. -/
  | ptp (p dest type : Nat) (body : List Byte)
  /-- An ARP, NDP or ICMP message on a network port (R442, R451, R453): 0 gratuitous ARP, 1 unsolicited neighbour
  advertisement, 2 ARP or neighbour solicitation for ECHO_ADDR, 3 echo request, 4 a reply; the addresses it carries. -/
  | net (p kind : Nat) (body : List Byte)
  /-- A host-originated Ethernet frame on a network port, without FCS. -/
  | frame (p : Nat) (body : List Byte)
deriving DecidableEq, Repr

/-- Everything set by command, other than keys: what a saved state keeps (R553). -/
structure Cfg where
  autostart : Bool := true
  saveInt : Nat := 60
  clk : ClkCfg := {}
  tb : TbCfg := {}
  jrn : JrnCfg := {}
  act : ActCfg := {}
  fe : FeCfg := {}
  flt : FltCfg := {}
  cal : CalCfg := {}
  trg : TrgCfg := {}
  cod : CodCfg := {}
  slots : Tab SlotCfg := []
  tiu : TiuCfg := {}
  net : NetCfg := {}
  lanes : Tab LaneCfg := []
  casc : CascCfg := {}
deriving DecidableEq, Repr, Inhabited

/-- A saved state (R553). -/
structure Saved where
  cfg : Cfg := {}
  acquiring : List Nat := []
  epoch : Nat := 0
  /-- TB_SAMPLE seconds at the write (R232). -/
  sec : Nat := 0
  bound : Nat := 0
  reach : Nat := 0
  retired : List Nat := []
  /-- Trims and residuals of the fast channels (R106). -/
  trims : Tab Trim := []
  /-- Learned asymmetry of each port (R256) and the last accepted VSEQ (R446). -/
  rrAsym : Tab Int := []
  vseq : Nat := 0
  snap : Option Snapshot := none
  seq : Nat := 0
  sector : Nat := 0
  t : T64 := 0
deriving DecidableEq, Repr, Inhabited

/-- A firmware slot's image (R541, R543). -/
structure Slot where
  valid : Bool := false
  release : Word := 0
  levels : Word := 0
  secVer : Nat := 0
deriving DecidableEq, Repr, Inhabited

/-- A flash operation in progress, completed by FLASH_OPERATION_DONE (R553, R562, R563). -/
inductive FlashJob where
  | save (s : Saved) (handle : Option Nat)
  | image (slotB : Bool) (img : Slot) (handle : Nat)
  | bootCtl (mode : Nat) (slotB : Bool) (trialS : Nat) (handle : Nat)
deriving DecidableEq, Repr

/-- An OTP programming in progress, completed by OTP_PROGRAM_DONE (R560, R563). -/
inductive OtpJob where
  | field (f : Nat) (data : List Word) (handle : Nat)
  /-- The codes, the mailbox that waits (none once a reset has emptied it) and the command's TAG. -/
  | failSafe (code : Nat) (mb : Option Nat) (tag : Word)
  | counter (value : Nat) (slotB : Bool) (handle : Nat)
deriving DecidableEq, Repr

/-- The PFW record (R547). -/
structure Pfw where
  seq : Nat
  nextTicket : Nat
  /-- The lowest reach of any REQUIRED consumer, plus 1: the page carries the reach itself. -/
  reach : Nat
  epoch : Nat
  sample : T64
  loc : T64
  complete : Bool
  consumed : Bool
  /-- The landed marks of lanes 0 to 15, and the servo snapshot. -/
  landed : List Nat
  snap : Option Snapshot
  /-- The saved-state sequence that was newest when the record was written (R551). -/
  savedSeq : Nat
deriving DecidableEq, Repr

/-- OTP fields of security and of the action pins (R209, R558 to R560). -/
structure Otp where
  keyHash0 : Option (List Word) := none
  keyHash1 : Option (List Word) := none
  revoked0 : Bool := false
  jtagKey : Option (List Word) := none
  jtagState : Nat := 0
  subsys : Option Word := none
  rollback : Nat := 0
  /-- Fail-safe codes of the ACT pins, pin k at bits [2k+1:2k] (R209). -/
  actCodes : Word := 0
deriving DecidableEq, Repr, Inhabited

/-- A key slot (R270, R345, R411). -/
structure KeySlot where
  id : Nat := 0
  key : List Word := []
  active : Bool := false
deriving DecidableEq, Repr, Inhabited

/-- Flash, firmware, OTP and JTAG (chapter 19). -/
structure StoSt where
  saved : Option Saved := none
  saveSeq : Nat := 0
  nextSector : Nat := 0
  spares : Nat := 8
  saveDisabled : Bool := false
  erases : Tab Nat := []
  pfwCount : Nat := 0
  pfw : Option Pfw := none
  slotA : Slot := {}
  slotB : Slot := {}
  defaultB : Bool := false
  /-- Slot that FW_VERIFY last programmed since recovery began (R563). -/
  recVerified : Option Bool := none
  /-- BOOT_SEL is overridden until the next RESET_N or power-on reset (R563). -/
  bootOverride : Bool := false
  fwStage : Tab Word := []
  jobs : List FlashJob := []
  otpJobs : List OtpJob := []
  /-- A trial runs: armed for TRIAL_S (R545). -/
  trial : Bool := false
  trialArmed : Bool := false
  trialFailed : Bool := false
  /-- TB_LOCAL (XO cycles) at the switch that started the trial, and TRIAL_S (R545, R563). -/
  trialAt : Option Nat := none
  trialS : Nat := 0
  /-- TB_LOCAL (XO cycles) at the last write that SAVE_INT brought (R553, R557). -/
  saveAt : Nat := 0
  otp : Otp := {}
  /-- The key store (R552): ferry slots, sensor-lane slots, and PTP slots 2 p + slot. -/
  ferryKeys : Tab KeySlot := []
  laneKeys : Tab KeySlot := []
  ptpKeys : Tab KeySlot := []
  unlocked : Bool := false
  jtagFails : Nat := 0
  /-- The valid challenge nonce and the TB_LOCAL second it was drawn in (R559). -/
  nonce : Option (List Byte × Nat) := none
  /-- SELFTEST commands running: handle and test mask (R566). -/
  selftests : List (Nat × Nat) := []
  /-- PFW_N interrupted the programming of an image: EV16 follows at resume (R555). -/
  imageLost : Bool := false
deriving DecidableEq, Repr, Inhabited

structure Hub where
  cfg : Cfg := {}
  sys : SysSt := {}
  host : HostSt := {}
  evt : EvtSt := {}
  clk : ClkSt := {}
  tb : TbSt := {}
  jrn : JrnSt := {}
  sto : StoSt := {}
  act : ActSt := {}
  fe : FeSt := {}
  flt : FltSt := {}
  cal : CalSt := {}
  trg : TrgSt := {}
  cod : CodSt := {}
  tiu : TiuSt := {}
  net : NetSt := {}
  sl : SlSt := {}
  casc : CascSt := {}
  tx : List Tx := []
  free : Nat := 0
deriving DecidableEq, Repr, Inhabited

end Sys2Proof.Machine
end

