-- ==== Sys2Proof/Machine/Flags.lean ====
section
/-!
DEFINITION. Readings of the timebases, status flags, interrupts, events and the trouble log
(R221 to R223, R466, R472, R473, R499 to R511).
-/
namespace Sys2Proof.Machine

/-! ## Readings -/

/-- The T64 of a TB_SAMPLE count: round(count × 2^32 ÷ 122,880,000) is the fraction (R221). -/
def sampleT64 (sec cnt : Nat) : T64 :=
  BitVec.ofNat 64 (sec * 2 ^ 32 + (cnt * 2 ^ 32 * 2 + 122880000) / (2 * 122880000))
/-- TB_SAMPLE (R221). -/
def Hub.sampleT (h : Hub) : T64 := sampleT64 h.tb.sec h.tb.cnt
/-- XO cycles since power-on reset or RESET_N. -/
def Hub.xoCycles (h : Hub) : Nat := h.tb.xo / 2 ^ 40
/-- `n` XO cycles have passed since `since`; nothing that has not begun keeps a timer from expiring. -/
def Hub.passed (h : Hub) (since : Option Nat) (n : Nat) : Bool :=
  match since with | some t => decide (t + n ≤ h.xoCycles) | none => true
/-- The T64 of a count of XO cycles (R223). -/
def localT64 (cycles : Nat) : T64 := BitVec.ofNat 64 (cycles * 2 ^ 32 / 49152000)
/-- TB_LOCAL (R223). -/
def Hub.localT (h : Hub) : T64 := localT64 h.xoCycles
/-- TB_NET (R220, R253). -/
def Hub.netT (h : Hub) : T64 := BitVec.ofNat 64 (h.tb.net / 2 ^ 32)
/-- TB_REF, 0 until an edge is labelled (R220, R239). -/
def Hub.refT (h : Hub) : T64 := if h.tb.refValid then h.sampleT + h.tb.refOff else 0
/-- TB_SAMPLE is stopped (R235) or has not had its first origin (R232): events then carry TB_LOCAL (R508). -/
def Hub.onLocal (h : Hub) : Bool := h.clk.held || !h.tb.started

/-! ## Status bits and interrupts -/

/-- Hands something to the outside. -/
def Hub.send (h : Hub) (x : Tx) : Hub := { h with tx := h.tx ++ [x] }

/-- A message on a vector: sent in PCIe mode, or kept pending while the vector is masked (R472) or the hub may
not master the bus (R466). -/
def Hub.msix (h : Hub) (v : Nat) : Hub :=
  if h.sys.straps.hostSel then h
  else if (h.host.msix.get v).masked || !h.host.bme || h.host.d3hot then
    { h with host := { h.host with pba := h.host.pba ||| wd (2 ^ v) } }
  else h.send (.msix v)

/-- A status word with bit `i` set. -/
def setBit (w : Word) (i : Nat) : Word := w ||| wd (2 ^ i)

/-- Sends a message when the bit of a source rises while its enable is set (R472). -/
def Hub.edge (h : Hub) (was enabled : Bool) (v : Nat) : Hub := if !was && enabled then h.msix v else h

/-- The reset value of a bank's ENABLE (R504). -/
def enableReset (b : Nat) : Word :=
  if b = 0 then 0x0003293F else if b = 1 then 0x000A022D else if b = 2 then 0x000002B6 else 0x018CC240

/-- Class of an event: 0 N, 1 F, 2 W, 3 I; none for a reserved number (R503). -/
def evClass (e : Nat) : Option Nat :=
  if e ≤ 3 then some 0
  else if e ∈ [4, 5, 8, 11, 13, 16, 17, 32, 34, 35, 37, 41, 49, 51, 65, 66, 68, 69, 71, 73, 102, 105, 110, 111,
      114, 115, 119, 120] then some 1
  else if e ∈ [6, 14, 18, 19, 20, 36, 38, 39, 40, 43, 44, 45, 46, 47, 48, 50, 64, 67, 70, 74, 75, 76, 77, 97, 99,
      101, 103, 104, 107, 108, 112, 113, 117, 118] then some 2
  else if e ∈ [7, 9, 10, 12, 15, 33, 42, 72, 96, 98, 100, 106, 109, 116] then some 3
  else none

/-- ENABLE of a bank; bits 3 to 0 of bank 0 read 1 (R501). -/
def Hub.evEnable (h : Hub) (b : Nat) : Word :=
  ((h.evt.enable.get b).getD (enableReset b)) ||| (if b = 0 then 0xF else 0)
/-- ROUTE byte of an event; EV0 to EV3 read ALERT 1, a reserved event 0 (R501, R503, R504). -/
def Hub.evRoute (h : Hub) (e : Nat) : Nat :=
  if (evClass e).isNone then 0
  else ((h.evt.route.get e).getD (8 + e / 32)) % 32 ||| (if e ≤ 3 then 16 else 0)
/-- STATUS bit of an event. -/
def Hub.evStatus (h : Hub) (e : Nat) : Bool := bit (h.evt.status.get (e / 32)) (e % 32)
/-- PENDING of a bank (R504). -/
def Hub.evPending (h : Hub) (b : Nat) : Word := h.evt.status.get b &&& h.evEnable b
/-- An event is pending. -/
def Hub.evPend (h : Hub) (e : Nat) : Bool := bit (h.evPending (e / 32)) (e % 32)

/-- ALERT_N is held low (R501, R505); raises of EV0 to EV3 captured during a hold count. -/
def Hub.alert (h : Hub) : Bool :=
  (List.range 4).any (fun e => h.evStatus e || h.evt.latched.any (·.ev == e)) ||
  (List.range 128).any fun e => (h.evRoute e).testBit 4 && h.evPend e

/-- An enabled status bit is set on a source routed to vector `v` (R472, R473). -/
def Hub.vectorSet (h : Hub) (v : Nat) : Bool :=
  ((List.range 8).any fun m =>
    let x := h.host.mbs.get m
    bit x.ctrl 8 && fld x.ctrl 3 0 == v && bit x.status 0) ||
  (bit h.host.cqCtrl 8 && fld h.host.cqCtrl 3 0 == v && bit h.host.cqStatus 0) ||
  ([0, 3].any fun c =>
    let x := h.jrn.consumers.get c
    fld x.ctrl 11 8 == v && bit x.status 0) ||
  (List.range 128).any fun e => h.evPend e && h.evRoute e % 16 == v

/-- INT_N0 (`k` = 0) or INT_N1 is driven low in quad-SPI mode (R473). -/
def Hub.intLow (h : Hub) (k : Nat) : Bool :=
  h.sys.straps.hostSel && (List.range 8).any fun i => h.vectorSet (8 * k + i)

/-- Sends the pending messages that may leave now and whose source is still set (R466, R472). -/
def Hub.flushPending (h : Hub) : Hub :=
  (List.range 16).foldl (fun h v =>
    if bit h.host.pba v && !(h.host.msix.get v).masked && h.host.bme && !h.host.d3hot then
      let h' := { h with host := { h.host with pba := w1c h.host.pba (wd (2 ^ v)) } }
      if h'.vectorSet v then h'.send (.msix v) else h'
    else h) h

/-! ## The trouble log (R506 to R509) -/

/-- Writes one entry whole, with the next sequence number. -/
def Hub.logWrite (h : Hub) (ev sev : Nat) (data : List Byte) (t : T64) (epoch : Nat) (isLocal : Bool) : Hub :=
  let s := h.evt.logNext
  let en : LogEntry :=
    { t := t, epoch := if isLocal then 0 else epoch, event := ev, severity := sev + flag isLocal 7, seq := s,
      data := padTo 16 (data.take 16) }
  { h with evt := { h.evt with log := h.evt.log.put (s % 4096) en, logNext := (s + 1) % 2 ^ 32,
                               logWritten := h.evt.logWritten + 1, lastLocal := h.localT } }

/-- An entry dated now: TB_SAMPLE with its epoch, or TB_LOCAL under R508. -/
def Hub.logNow (h : Hub) (ev sev : Nat) (data : List Byte) : Hub :=
  if h.onLocal then h.logWrite ev sev data h.localT 0 true
  else h.logWrite ev sev data h.sampleT h.tb.epoch false

/-- LOG_OLDEST (R509). -/
def Hub.logOldest (h : Hub) : Word :=
  if h.evt.logWritten ≥ 4096 then wd (h.evt.logNext + 2 ^ 32 - 4096) else 0

/-! ## Raising an event (R499 to R502) -/

/-- STATUS, counter and interrupt of a raise. -/
def Hub.raiseFlags (h : Hub) (ev : Nat) : Hub :=
  let b := ev / 32
  let was := h.evStatus ev
  let h := { h with evt := { h.evt with status := h.evt.status.put b (setBit (h.evt.status.get b) (ev % 32)),
                                        count := h.evt.count.put ev (h.evt.count.get ev + 1) } }
  h.edge was (bit (h.evEnable b) (ev % 32)) (h.evRoute ev % 16)

/-- A raise with its date. -/
def Hub.raiseAt (h : Hub) (ev : Nat) (data : List Byte) (t : T64) (epoch : Nat) (isLocal : Bool) : Hub :=
  (h.raiseFlags ev).logWrite ev ((evClass ev).getD 0) data t epoch isLocal

/-- The processor and the event controller stand: in a hold, and in STOPPED while RC, which MX_CPU then selects, fails (R521, R528). -/
def Hub.cpuStands (h : Hub) : Bool := h.clk.held && (!h.clk.stopped || (h.clk.muxCpu == 1 && (h.clk.mon.get 1).failed))
/-- A source raises its event: at once, or captured while the controller's clock is held (R499, R511). -/
def Hub.raise (h : Hub) (ev : Nat) (data : List Byte) : Hub :=
  let t := if h.onLocal then h.localT else h.sampleT
  if h.cpuStands then
    { h with evt := { h.evt with latched := h.evt.latched ++
        [{ ev := ev, data := data, t := t, epoch := h.tb.epoch, isLocal := h.onLocal }] } }
  else h.raiseAt ev data t h.tb.epoch h.onLocal

/-- A source limited to once per second raises only when a second of TB_LOCAL has passed (R500). -/
def Hub.raiseLimited (h : Hub) (ev : Nat) (data : List Byte) : Hub :=
  let last := h.evt.lastRaise.get ev
  if last = 0 ∨ 49152000 + (last - 1) ≤ h.xoCycles then
    let h := h.raise ev data
    { h with evt := { h.evt with lastRaise := h.evt.lastRaise.put ev (h.xoCycles + 1) } }
  else h

/-- The raises captured during a hold are taken in order; a second raise of one source whose entry is still
queued is counted in LOG_MERGED (R511). -/
def Hub.drainLatched (h : Hub) : Hub :=
  let l := h.evt.latched
  let r := l.foldl (fun (acc : Hub × List Nat) x =>
    if acc.2.contains x.ev then
      let g := acc.1.raiseFlags x.ev
      ({ g with evt := { g.evt with logMerged := sat32 (g.evt.logMerged + 1) } }, acc.2)
    else (acc.1.raiseAt x.ev x.data x.t x.epoch x.isLocal, x.ev :: acc.2))
    ({ h with evt := { h.evt with latched := [] } }, [])
  r.1

/-! ## Data bytes of an event (R502) -/

def b1 (n : Nat) : List Byte := leBytes 1 n
def b2 (n : Nat) : List Byte := leBytes 2 n
def b4 (n : Nat) : List Byte := leBytes 4 n
def b8 (n : Nat) : List Byte := leBytes 8 n
def bT (t : T64) : List Byte := leBytes 8 t.toNat
/-- The channel tag of a channel of this hub (R16). -/
def Hub.tag (h : Hub) (ch : Nat) : Nat := h.sys.straps.hubId * 1024 + ch

end Sys2Proof.Machine
end

