-- ==== Sys2Proof/Machine/Operands.lean ====
section
/-!
DEFINITION. Commands in mailboxes: the header, the order of the checks, handles, responses and completions
(R476 to R492). One record `CmdSpec` holds what is each command's own.
-/
namespace Sys2Proof.Machine

/-- Adds to a counter that saturates. -/
def bump (t : Tab Nat) (i n : Nat) : Tab Nat := t.upd i fun x => sat32 (x + n)

/-! ## Status codes (R492) -/
def DONE : Nat := 0
def ACCEPTED : Nat := 1
def BUSY_RETRY : Nat := 2
def BAD_OPCODE : Nat := 0x10
def BAD_LENGTH : Nat := 0x11
def BAD_PARAM : Nat := 0x12
def BAD_STATE : Nat := 0x13
def NOT_PERMITTED : Nat := 0x14
def CRC_FAIL : Nat := 0x15
def HANDLE_UNKNOWN : Nat := 0x20
def ABORTED : Nat := 0x30
def TIMED_OUT : Nat := 0x31
def HW_FAULT : Nat := 0x40

/-! ## Handles (R485) -/

/-- The slots that serve a mailbox. -/
def slotRange (m : Nat) : List Nat := if m = 7 then (List.range 16).map (240 + ·) else List.range 240
/-- The lowest free slot for a mailbox. -/
def Hub.freeSlot (h : Hub) (m : Nat) : Option Nat := (slotRange m).find? fun s => !(h.host.slots.get s).held
/-- The handle of a slot at its present generation. -/
def Hub.handleOf (h : Hub) (s : Nat) : Nat := (h.host.slots.get s).gen * 4096 + s
/-- The slot of a handle that is held. -/
def Hub.slotOf (h : Hub) (hd : Nat) : Option HSlot :=
  let x := h.host.slots.get (hd % 4096)
  if x.held && x.gen == hd / 4096 && hd % 4096 < 256 then some x else none
/-- The generation after `g`: from 15 back to 1. -/
def nextGen (g : Nat) : Nat := if g ≥ 15 then 1 else g + 1
/-- Takes slot `s` for a command. -/
def Hub.allocSlot (h : Hub) (s opcode : Nat) (tag : Word) (m : Nat) : Hub :=
  { h with host := { h.host with slots := h.host.slots.upd s fun x =>
      { gen := nextGen x.gen, held := true, opcode := opcode, tag := tag, mb := m } } }
/-- Slots free for a mailbox class (HANDLES_FREE, R488). -/
def Hub.slotsFree (h : Hub) (m : Nat) : Nat := ((slotRange m).filter fun s => !(h.host.slots.get s).held).length

/-! ## The completion queue (R486 to R488) -/

/-- The eight words of a completion entry (R487). -/
def cqEntry (hd status : Nat) (x : HSlot) (result : List Word) (i epoch : Nat) (t : T64) : List Word :=
  [wd (hd + status * 2 ^ 16), wd (x.opcode + flag x.crossed 16 + result.length * 2 ^ 24), x.tag,
   wd (epoch + i % 65536 * 2 ^ 16), lo32 t.toNat, hi32 t.toNat, pw result 0, pw result 1]

/-- Writes the entry and the result area, and signals POSTED; a command that has completed stays so. -/
def Hub.cqWrite (h : Hub) (d : Deferred) : Hub :=
  match h.slotOf d.handle with
  | none => h
  | some x =>
    if x.done then h else
    let i := h.host.cqWr
    let was := bit h.host.cqStatus 0
    let h := { h with host := { h.host with
      cq := h.host.cq.puts (8 * (i % 256)) (cqEntry d.handle d.status x d.result i d.epoch d.t),
      cqWr := (i + 1) % 2 ^ 32,
      cqStatus := setBit h.host.cqStatus 0,
      slots := h.host.slots.put (d.handle % 4096) { x with done := true, seq := i % 65536, result := d.result } } }
    h.edge was (bit h.host.cqCtrl 8) (fld h.host.cqCtrl 3 0)

/-- A long-running command completes; while FW_READY is 0 the entry waits (R491). -/
def Hub.complete (h : Hub) (hd status : Nat) (result : List Word) : Hub :=
  let d : Deferred := { handle := hd, status := status, result := result, epoch := h.tb.epoch, t := h.sampleT }
  if h.sys.fwReady || h.sys.recovery then h.cqWrite d
  else { h with host := { h.host with deferred := h.host.deferred ++ [d] } }

/-! ## Mailboxes -/

def Hub.updMb (h : Hub) (m : Nat) (f : Mailbox → Mailbox) : Hub :=
  { h with host := { h.host with mbs := h.host.mbs.upd m f } }

/-- What a command has done. -/
structure CmdRes where
  hub : Hub
  status : Nat := 0
  words : List Word := []
  /-- The response follows later (R532, R556 KIND 3). -/
  wait : Bool := false

/-- A command being executed. -/
structure CmdIn where
  mb : Nat
  tag : Word
  handle : Nat
  pl : List Word

/-- What is each command's own in the order of R483. -/
structure CmdSpec where
  opcode : Nat
  /-- Step 5: the length that the payload and its counts require. -/
  len : List Word → Bool
  /-- Step 6: a reserved field set or a value out of range; the words are the response payload. -/
  bad : Hub → List Word → Option (List Word) := fun _ _ => none
  /-- Step 7: refusals of the command's own chapter, with their status. -/
  refuse : Hub → CmdIn → Option (Nat × List Word) := fun _ _ => none
  /-- The command needs a block that a STOPPED hub holds (R524). -/
  block : Bool := false
  /-- It is long-running here, so it needs a handle. -/
  long : Hub → List Word → Bool := fun _ _ => false
  run : Hub → CmdIn → CmdRes

/-- A length test of a fixed payload. -/
def lenIs (n : Nat) (pl : List Word) : Bool := pl.length == n
/-- A BAD_PARAM answer without payload. -/
def badIf (b : Bool) : Option (List Word) := if b then some [] else none
/-- A refusal without payload. -/
def refuseIf (b : Bool) (status : Nat) : Option (Nat × List Word) := if b then some (status, []) else none

/-- Opcodes marked MB7 in the index (R494). -/
def mb7Only (op : Nat) : Bool := op ∈ [0x0C06, 0x0E02, 0x0E03, 0x0E04, 0x0F01, 0x0F02, 0x0F03, 0x0F04, 0x0F05, 0x0F06]
/-- Commands that the boot ROM answers in recovery (R541). -/
def inRecovery (op : Nat) : Bool := op ∈ [0x0101, 0x0102, 0x0F01, 0x0F02, 0x0F03, 0x0F04]
/-- R484, and R541 in recovery. -/
def Hub.permitted (h : Hub) (m op : Nat) : Bool :=
  if h.sys.recovery then m == 7 && inRecovery op
  else if m = 7 then op / 256 ∈ [0x01, 0x0E, 0x0F] || op == 0x0C06
  else !mb7Only op

/-- The CRC-32C of a header and payload (R479). -/
def mailCrc (w0 w1 w2 : Word) (pl : List Word) : Word := crc32c (bytesOf ([w0, w1, w2] ++ pl))

/-- The first code of R483 that applies. -/
def Hub.checkCmd (h : Hub) (sp : Option CmdSpec) (m : Nat) (w0 w1 w2 w3 : Word) (pl : List Word) :
    Option (Nat × List Word) :=
  if fld w0 31 24 > 124 then some (BAD_LENGTH, [])
  else if bit w0 16 && mailCrc w0 w1 w2 pl != w3 then some (CRC_FAIL, [])
  else match sp with
    | none => some (BAD_OPCODE, [])
    | some c =>
      if !h.permitted m c.opcode then some (NOT_PERMITTED, [])
      else if !c.len pl then some (BAD_LENGTH, [])
      else if fld w0 23 17 != 0 || w2 != 0 then some (BAD_PARAM, [])
      else match c.bad h pl with
        | some ws => some (BAD_PARAM, ws)
        | none =>
          if c.block && h.clk.stopped then some (BAD_STATE, [])
          else match c.refuse h { mb := m, tag := w1, handle := 0, pl := pl } with
            | some r => some r
            | none => if c.long h pl && (h.freeSlot m).isNone then some (BUSY_RETRY, []) else none

/-- A response becomes READY (R478, R481). -/
def Hub.respond (h : Hub) (m status handle : Nat) (tag : Word) (words : List Word) (crc : Bool) : Hub :=
  let w0 := wd (status + handle * 2 ^ 16)
  let w2 := wd words.length
  let w3 := if crc then mailCrc w0 tag w2 words else 0
  let x := h.host.mbs.get m
  let was := bit x.status 0
  let h := h.updMb m fun x => { x with resp := x.resp.puts 0 ([w0, tag, w2, w3] ++ words.take 124),
                                       state := .ready, status := setBit x.status 0 }
  h.edge was (bit x.ctrl 8) (fld x.ctrl 3 0)

/-- The statuses that follow a command that took effect (R492). -/
def tookEffect (status : Nat) : Bool := status ∈ [DONE, ACCEPTED, ABORTED, TIMED_OUT, HW_FAULT]

def Hub.noteTag (h : Hub) (m status : Nat) (tag : Word) : Hub :=
  if tookEffect status then { h with sys := { h.sys with lastTag := h.sys.lastTag.put m tag } } else h

/-- The firmware takes the command of mailbox `m` and executes it (R482, R483, R486). -/
def Hub.perform (h : Hub) (sp : Option CmdSpec) (m : Nat) (w0 w1 w2 w3 : Word) (pl : List Word) : Hub :=
  let h := h.updMb m fun x => { x with state := .busy, taken := (x.taken + 1) % 256 }
  let h := { h with host := { h.host with posted := h.host.posted.filter (· != m) } }
  let crc := bit w0 16
  match h.checkCmd sp m w0 w1 w2 w3 pl, sp with
  | some (st, ws), _ => h.respond m st 0 w1 ws crc
  | none, none => h
  | none, some c =>
    if c.long h pl then
      let s := (h.freeSlot m).getD 0
      let h := h.allocSlot s c.opcode w1 m
      let hd := h.handleOf s
      let r := c.run h { mb := m, tag := w1, handle := hd, pl := pl }
      (r.hub.noteTag m ACCEPTED w1).respond m ACCEPTED hd w1 r.words crc
    else
      let r := c.run h { mb := m, tag := w1, handle := 0, pl := pl }
      if r.wait then r.hub else (r.hub.noteTag m r.status w1).respond m r.status 0 w1 r.words crc

/-- The mailbox whose command the firmware takes next: a posted MB7 first, then doorbell order (R482). -/
def Hub.nextPosted (h : Hub) : Option Nat := if 7 ∈ h.host.posted then some 7 else h.host.posted.head?

/-- The firmware can take a command: it answers, no command is being executed, the processor has a clock (R524, R528). -/
def Hub.canTake (h : Hub) : Bool :=
  (h.sys.fwReady || h.sys.recovery) && !h.cpuStands &&
  (List.range 8).all fun m => (h.host.mbs.get m).state != .busy

/-- A RING on an IDLE mailbox (R480). -/
def Hub.ring (h : Hub) (m : Nat) : Hub :=
  let h := h.updMb m fun x => { x with state := .posted }
  { h with host := { h.host with posted := h.host.posted ++ [m] } }

/-- The header of a command as the host writes it, without a CRC (R477). -/
def cmdHeader (op len : Nat) : Word := wd (op + len * 2 ^ 24)

/-- The hub when the host has written a command into the area of mailbox `m` and rung (R480). -/
def Hub.mailed (h : Hub) (c : CmdSpec) (m : Nat) (tag : Word) (pl : List Word) : Hub :=
  (h.updMb m fun x => { x with cmd := x.cmd.puts 0 ([cmdHeader c.opcode pl.length, tag, 0, 0] ++ pl.take 124) }).ring m
/-- The host writes a command into mailbox `m` and rings. The firmware executes it when it is the next to be
taken; otherwise it stays POSTED (log entry 13). -/
def Hub.mail (h : Hub) (c : CmdSpec) (m : Nat) (tag : Word) (pl : List Word) : Hub :=
  if (h.host.mbs.get m).state = .idle then
    let w0 := cmdHeader c.opcode pl.length
    let h := h.mailed c m tag pl
    if h.canTake && h.nextPosted == some m then h.perform (some c) m w0 tag 0 0 pl else h
  else h.updMb m fun x => { x with status := x.status ||| 6 }

/-! ## Payload tests -/

/-- All bits of a word that lie outside a mask are 0. -/
def rsv (w : Word) (mask : Nat) : Bool := w &&& ~~~(wd mask) == 0
/-- `lo ≤ x ≤ hi`. -/
def inR (x lo hi : Nat) : Bool := decide (lo ≤ x) && decide (x ≤ hi)

end Sys2Proof.Machine
end

