-- ==== Sys2Proof/Machine/Ops.lean ====
section
/-!
DEFINITION. The shared operations: journal pages, tickets, records, acknowledgement and freeing (R302 to R306,
R313, R317, R321 to R324, R330 to R332), saved states (R553) and TIME MAP records (R236 to R238).
-/
namespace Sys2Proof.Machine

/-! ## Saved states (R553) -/

/-- Pages that are retired, in page order (R333). -/
def Hub.retiredPages (h : Hub) : List Nat := (h.jrn.pages.filter (·.2.retired)).map (·.1)

/-- The hub is the master of its cascade (R27). -/
def Hub.isMaster (h : Hub) : Bool := h.sys.straps.cascMaster
/-- The consumer's configuration. On the master consumer 2 is neither enabled nor REQUIRED, whatever CONSUMER_SET holds (R429). -/
def Hub.cons (h : Hub) (c : Nat) : ConsCfg :=
  let k := h.cfg.jrn.consumers.get c
  if c = 2 ∧ h.isMaster = true then { k with enable := false, required := false } else k

/-- A consumer's masks select a record of this type and group (R322). -/
def ConsCfg.selects (k : ConsCfg) (type group : Nat) : Bool :=
  k.typeMask.testBit (type - 1) && type ≥ 1 && (group > 63 || k.groupMask.testBit group)

/-- Every ticket below this is acknowledged by the consumer or excluded by its masks: its reach plus 1 (R323). -/
def Hub.reachEnd (h : Hub) (c : Nat) : Nat :=
  let k := h.cons c
  let a := (h.jrn.consumers.get c).ackTo.get h.sys.straps.hubId
  match h.jrn.recs.find? (fun r => k.selects r.type r.group && r.ticket ≥ a) with
  | some r => r.ticket
  | none => h.jrn.nextTicket

/-- The consumers marked REQUIRED. -/
def Hub.required (h : Hub) : List Nat := (List.range 4).filter fun c => (h.cons c).required
/-- The lowest reach of any REQUIRED consumer, plus 1; the next ticket when none is required. -/
def Hub.lowReach (h : Hub) : Nat := h.required.foldl (fun a c => min a (h.reachEnd c)) h.jrn.nextTicket

/-- The saved state as the hub stands (R553). -/
def Hub.snapshotSaved (h : Hub) : Saved :=
  { cfg := h.cfg
    acquiring := (List.range 64).filter fun g => (h.jrn.groups.get g).acquiring || h.sys.autostart.contains g
    epoch := h.tb.epoch
    sec := h.tb.sec
    bound := h.jrn.bound
    reach := h.lowReach
    retired := h.retiredPages
    trims := h.cal.trim
    rrAsym := h.net.ports.foldl (fun t p => t.put p.1 p.2.ptp.rrAsym) []
    vseq := h.net.vseq
    snap := h.net.snap
    t := h.sampleT }

/-- Starts a saved-state write unless saving is disabled (R553, R554). -/
def Hub.saveState (h : Hub) (handle : Option Nat) : Hub :=
  if h.sto.saveDisabled then h
  else { h with sto := { h.sto with jobs := h.sto.jobs ++ [.save h.snapshotSaved handle] } }

/-! ## Journal pages (R302, R330, R332, R333) -/

/-- Journal pages in service (J_CAPACITY). -/
def Hub.capacity (h : Hub) : Nat := h.jrn.total - h.jrn.ringPages - h.retiredPages.length
/-- Pages in use of one share. -/
def Hub.usedOf (h : Hub) (s : Share) : Nat := (h.jrn.pages.filter fun p => p.2.used && p.2.share == s).length
/-- Free pages of a share: outside the reserve, or of its two shares of 64 pages (R332). -/
def Hub.freeOf (h : Hub) (s : Share) : Nat :=
  match s with
  | .normal => h.capacity - 128 - h.usedOf .normal
  | .parts => min 64 h.capacity - h.usedOf .parts
  | .sys => min 64 h.capacity - h.usedOf .sys
/-- J_FREE: free pages, including the reserve. -/
def Hub.jFree (h : Hub) : Nat := h.freeOf .normal + h.freeOf .parts + h.freeOf .sys

/-- The HIGH threshold in hundredths of pages (R330). -/
def Hub.highThreshold (h : Hub) : Nat := (100 - h.cfg.jrn.hwPct) * h.capacity

/-- Changes of the journal's state by its free pages (R330); FULL is entered where a page is needed. -/
def Hub.jrnState (h : Hub) : Hub :=
  let f := h.freeOf .normal
  if h.jrn.total = 0 then h
  else if h.jrn.state = 0 ∧ 100 * f < h.highThreshold then
    ({ h with jrn := { h.jrn with state := 1 } }).raise 70 []
  else if h.jrn.state = 2 ∧ h.cfg.jrn.resumePages ≤ f then
    if 100 * f < h.highThreshold then ({ h with jrn := { h.jrn with state := 1 } }).raise 72 (b4 1)
    else ({ h with jrn := { h.jrn with state := 0 } }).raise 72 (b4 0)
  else if h.jrn.state = 1 ∧ h.highThreshold + 100 * h.cfg.jrn.resumePages ≤ 100 * f then
    ({ h with jrn := { h.jrn with state := 0 } }).raise 72 (b4 0)
  else h

/-- DEGRADED when the capacity falls below JOURNAL_FLOOR (R333). -/
def Hub.jrnDegrade (h : Hub) : Hub :=
  if h.jrn.total > 0 ∧ h.capacity < h.cfg.jrn.floor ∧ ¬ h.jrn.degraded then
    ({ h with jrn := { h.jrn with degraded := true } }).raise 68 []
  else h

/-- The 32-byte header of a page in use (R304). HIGH_TICKET is written when the page closes. The spec states neither what it reads before
that nor PREV of a chain's first page: `open_` stands in for both (free values). -/
def Page.header (p : Page) (open_ : Nat) : List Byte :=
  b4 0x4A504147 ++ b1 p.writer ++ [0] ++ b2 (p.firstRec.getD 0xFFFF) ++ b4 p.seq ++ b4 (p.prev.getD open_) ++ b8 p.low ++
    b8 (if p.closed then p.high else open_)

/-- Takes a page of the first share named that has one (R303, R332). -/
def Hub.takePage (h : Hub) (w : Nat) (shares : List Share) (ticket : Nat) : Option (Nat × Hub) :=
  match shares.find? (fun s => h.freeOf s > 0) with
  | none => none
  | some s =>
    let n := h.jrn.pages.firstIdle (fun p => p.used || p.retired) 0
    let wr := h.jrn.writers.get w
    let pg : Page := { writer := w, seq := wr.seq, prev := wr.page, low := ticket, high := ticket, share := s, used := true
                       ce := (h.jrn.pages.get n).ce }
    let pages := match wr.page with
      | none => h.jrn.pages
      | some q => h.jrn.pages.upd q fun p => { p with closed := true }
    some (n, { h with jrn := { h.jrn with pages := pages.put n pg,
                                          writers := h.jrn.writers.put w { wr with page := some n, fill := 32, seq := wr.seq + 1 } } })

/-- Appends `n` bytes of a record to a writer's chain; answers the pages touched, or none when a page is lacking. -/
def Hub.appendBytes (h : Hub) (w : Nat) (shares : List Share) (ticket : Nat) (starts : Bool) :
    Nat → Nat → List Nat → Option (List Nat × Hub)
  | 0, _, acc => some (acc, h)
  | fuel + 1, n, acc =>
    if n = 0 then some (acc, h)
    else
      let wr := h.jrn.writers.get w
      match wr.page with
      | some p =>
        if wr.fill < 65536 then
          let k := min n (65536 - wr.fill)
          let pages := h.jrn.pages.upd p fun q =>
            { q with high := max q.high ticket,
                     firstRec := if starts && q.firstRec.isNone then some wr.fill else q.firstRec }
          let h := { h with jrn := { h.jrn with pages := pages, writers := h.jrn.writers.put w { wr with fill := wr.fill + k } } }
          h.appendBytes w shares ticket false fuel (n - k) (if p ∈ acc then acc else acc ++ [p])
        else match h.takePage w shares ticket with
          | none => none
          | some (_, h) => h.appendBytes w shares ticket starts fuel n acc
      | none => match h.takePage w shares ticket with
          | none => none
          | some (_, h) => h.appendBytes w shares ticket starts fuel n acc

/-- Appends bytes with a bound on the pages they can need. -/
def Hub.append (h : Hub) (w : Nat) (shares : List Share) (ticket n : Nat) (starts : Bool) : Option (List Nat × Hub) :=
  h.appendBytes w shares ticket starts (2 * (n / 65504 + 2)) n []

/-! ## Freeing (R324, R333) -/

/-- A closed page that no REQUIRED consumer holds. One with bytes of an open record is held too: R319 may still have to cut that record
(DEDUCED, log entry 107). -/
def Hub.pageFree (h : Hub) (n : Nat) (p : Page) : Bool :=
  p.used && p.closed && decide (p.high < h.lowReach) && !(h.jrn.recs.any fun r => r.isOpen && r.pages.contains n)

/-- An enabled consumer moves on over records that were freed before their offer: SKIPPED, and CONSUMER_LAG (R324). -/
def Hub.skipOn (h : Hub) (c : Nat) : Hub :=
  let x := h.jrn.consumers.get c
  let past := fun (t : Nat) => decide (x.next.get h.sys.straps.hubId ≤ t)
  let n := (x.gone.filter past).length
  if n > 0 && (h.cons c).enable then
    let x := { x with gone := x.gone.filter fun t => !past t, skipped := sat32 (x.skipped + n), status := setBit x.status 1 }
    ({ h with jrn := { h.jrn with consumers := h.jrn.consumers.put c x } }).raise 74 []
  else h
/-- Records are freed that consumers which are not REQUIRED have not acknowledged (R324). -/
def Hub.skipDropped (h : Hub) (dropped : List Rec) : Hub :=
  (List.range 4).foldl (fun h c =>
    let k := h.cons c
    let x := h.jrn.consumers.get c
    let mine := dropped.filter fun r => k.selects r.type r.group && decide (x.ackTo.get h.sys.straps.hubId ≤ r.ticket)
    if k.required || mine.isEmpty then h
    else ({ h with jrn := { h.jrn with consumers := h.jrn.consumers.put c { x with gone := x.gone ++ mine.map Rec.ticket } } }).skipOn c) h

/-- Pages below every REQUIRED consumer's reach are freed, a page due for retirement is retired, and the records with bytes in them go
(R324, R333). -/
def Hub.pagesFree (h : Hub) : Hub :=
  let gone := (h.jrn.pages.filter fun p => h.pageFree p.1 p.2).map (·.1)
  if gone.isEmpty then h
  else
    let retire := gone.filter fun n => (h.jrn.pages.get n).ce > h.cfg.jrn.retireCe
    let pages := gone.foldl (fun (t : Tab Page) n => t.put n { ce := (t.get n).ce, retired := retire.contains n }) h.jrn.pages
    let keep := fun (r : Rec) => r.pages.all fun p => !gone.contains p
    let dropped := h.jrn.recs.filter fun r => !keep r
    let h := { h with jrn := { h.jrn with pages := pages, recs := h.jrn.recs.filter keep } }
    let h := h.skipDropped dropped
    let h := retire.foldl (fun h n => (h.raise 67 (b4 n)).saveState none) h
    h.jrnDegrade.jrnState

/-! ## Tickets (R321) -/

/-- A record opens and takes the next ticket; the reservation bound is renewed when due. -/
def Hub.takeTicket (h : Hub) : Nat × Hub :=
  let t := h.jrn.nextTicket
  let h := { h with jrn := { h.jrn with nextTicket := t + 1 } }
  if h.jrn.bound ≤ 2 ^ 31 + (t + 1) ∧ ¬ h.sto.saveDisabled then
    let h := { h with jrn := { h.jrn with bound := h.jrn.bound + 2 ^ 32 } }
    (t, h.saveState none)
  else (t, h)

/-! ## Records (R305, R306, R313) -/

/-- The journal VERSION written (R306). -/
def Hub.recVersion (h : Hub) : Nat := if h.cfg.jrn.versionCompat then 1 else 2

/-- Header bytes with the CRC field as given (R305). -/
def Rec.header (r : Rec) (crc : Nat) : List Byte :=
  b1 r.type ++ b1 r.version ++ b2 r.flags ++ b4 (32 + r.body.length) ++ b8 r.ticket ++ b1 r.group ++
  b1 (if r.version = 1 then 0 else r.hub) ++ b2 r.epoch ++ b4 crc ++ bT r.t
/-- A record's bytes, LENGTH of them. -/
def Rec.bytes (r : Rec) : List Byte := r.header (crc32c (r.header 0 ++ r.body)).toNat ++ r.body

/-- The descriptor and channel entries of a SAMPLE BLOCK (R307). -/
def BlockDesc.bytes (d : BlockDesc) (tagOf : Nat → Nat) : List Byte :=
  b1 d.chans.length ++ b1 (if d.order then 1 else 0) ++ b2 0 ++ b4 d.n ++ b4 d.rateNum ++ b4 d.rateDen ++ b8 d.k0 ++
  b4 d.parts ++ b4 0 ++ d.chans.flatMap fun c => b2 (tagOf c.1) ++ b1 (if c.2 then 1 else 0) ++ b1 0

/-- Adds a record in ticket order. -/
def insertRec (rs : List Rec) (r : Rec) : List Rec := rs.filter (·.ticket < r.ticket) ++ r :: rs.filter (r.ticket < ·.ticket)

/-- Bytes of the records of writer 65 that wait in staging. -/
def Hub.waitingBytes (h : Hub) : Nat := h.jrn.waiting.foldl (fun a r => a + 32 + r.body.length) 0

/-- A whole record lands by writer 65, when a page has room for it (R303). -/
def Hub.tryLand (h : Hub) (r : Rec) : Option Hub :=
  let t := h.takeTicket
  match t.2.append 65 [.normal, .sys] t.1 ((32 + r.body.length + 7) / 8 * 8) true with
  | some (ps, g) =>
    let fl := if g.jrn.ticketUnsaved then r.flags ||| 2 else r.flags
    let r := { r with ticket := t.1, flags := fl, pages := ps, block := none }
    some ({ g with jrn := { g.jrn with recs := insertRec g.jrn.recs r } }).pagesFree.jrnState
  | none => none
/-- Lands one whole record by writer 65, or lets it wait for a page behind those that wait already (R303, R332). -/
def Hub.landWhole (h : Hub) (r : Rec) : Hub :=
  if h.jrn.total = 0 then h
  else
    match if h.jrn.waiting.isEmpty then h.tryLand r else none with
    | some g => g
    | none =>
      if (r.type = 4 ∨ r.type = 9) ∧ h.waitingBytes + 32 + r.body.length > 2 ^ 20 then
        ({ h with jrn := { h.jrn with dropped := h.jrn.dropped + 1 } }).raiseLimited 77 []
      else { h with jrn := { h.jrn with waiting := h.jrn.waiting ++ [r] } }

/-- Lands a record of writer 65 (R303). -/
def Hub.land (h : Hub) (type flags group epoch : Nat) (t : T64) (body : List Byte) : Hub :=
  h.landWhole { ticket := 0, type := type, flags := flags, group := group, hub := h.sys.straps.hubId,
                version := h.recVersion, epoch := epoch, t := t, body := body, block := none, isOpen := false, pages := [] }

/-- Records of writer 65 land in order up to the first that finds no page; it and those behind it wait (R332). -/
def Hub.landRest (h : Hub) : List Rec → Hub
  | [] => { h with jrn := { h.jrn with waiting := [] } }
  | r :: t => match h.tryLand r with
    | some g => g.landRest t
    | none => { h with jrn := { h.jrn with waiting := r :: t } }
/-- The records that waited for a page land in order once there is room. -/
def Hub.landWaiting (h : Hub) : Hub := h.landRest h.jrn.waiting
/-- Pages are freed, and what waited for one lands (R324, R332). -/
def Hub.freePages (h : Hub) : Hub := h.pagesFree.landWaiting

/-- An EVENT record: SUBTYPE, then the bytes after it (R316). -/
def Hub.landEvent (h : Hub) (subtype epoch : Nat) (t : T64) (body : List Byte) : Hub :=
  h.land 4 0 0xFF epoch t (b2 subtype ++ body)
/-- A HEALTH record (R316). -/
def Hub.landHealth (h : Hub) (subtype epoch : Nat) (t : T64) (body : List Byte) : Hub :=
  h.land 9 0 0xFF epoch t (b2 subtype ++ body)

/-- Payload of a GAP or REFUSAL record (R313). -/
def Hub.gapBody (h : Hub) (cause detail unc : Nat) (last : T64) (lastEpoch : Nat) (chans : List Nat) : List Byte :=
  b1 cause ++ b1 detail ++ b2 chans.length ++ b4 (if h.cfg.jrn.versionCompat then 0xFFFFFFFF else unc) ++ bT last ++
  b2 lastEpoch ++ b2 0 ++ b4 0 ++ padMul 8 (chans.flatMap fun c => b2 (h.tag c))
/-- The settings that a group lands with (R301). -/
def Hub.grp (h : Hub) (g : Nat) : ChgCfg := ((h.jrn.groups.get g).kept).getD (h.cfg.jrn.groups.get g)
/-- The channel group of a channel, 0xFF for none (R299): one whose stopped run has the channel first. -/
def Hub.groupOf (h : Hub) (ch : Nat) : Nat :=
  match h.jrn.groups.find? (fun g => g.2.kept.any fun k => ch ∈ k.chans), h.cfg.jrn.groups.find? (fun g => ch ∈ g.2.chans) with
  | some g, _ => g.1
  | none, some g => g.1
  | none, none => 0xFF
/-- The instants that a GAP record covers are noted for the segments of its channels (R184). -/
def Hub.gapNote (h : Hub) (chans : List Nat) (epoch : Nat) (first last : T64) : Hub :=
  { h with trg := { h.trg with gaps := chans.foldl (fun (t : Tab (List (Nat × T64 × T64))) c => t.upd c (· ++ [(epoch, first, last)])) h.trg.gaps } }
/-- A closed GAP (`type` 6) or REFUSAL (`type` 7) record over the channels of one group. -/
def Hub.landGap (h : Hub) (type cause detail group unc : Nat) (epoch : Nat) (first last : T64) (chans : List Nat) : Hub :=
  if chans.isEmpty then h
  else
    let h := if type = 6 then h.gapNote chans epoch first last else h
    h.land type 0 group epoch first (h.gapBody cause detail unc last epoch chans)
/-- A channel-lost GAP, landed at once with OPEN (R313). -/
def Hub.landGapOpen (h : Hub) (group : Nat) (chans : List Nat) (t : T64) : Hub :=
  (h.gapNote chans h.tb.epoch t (BitVec.ofInt 64 (-1))).land 6 4 group h.tb.epoch t (h.gapBody 7 0 0 (BitVec.ofInt 64 (-1)) 0 chans)

/-- A JOURNAL_LOST range: the event, its log entry and the LOST record (R38, R316, R334). -/
def Hub.journalLost (h : Hub) (first last : Nat) (boundOnly : Bool) : Hub :=
  let l := last % 2 ^ 63 + flag boundOnly 63
  let h := h.raise 73 (b8 first ++ b8 l)
  h.landEvent 0x40 h.tb.epoch h.sampleT (List.replicate 6 0 ++ b8 first ++ b8 l)

/-! ## Acknowledgement (R323) -/

/-- An acknowledgement of every ticket up to `t` from consumer `c` for origin hub `o` (R43, R323). -/
def Hub.acknowledge (h : Hub) (c o t : Nat) : Hub :=
  let x := h.jrn.consumers.get c
  if t + 1 ≤ x.ackTo.get o then h
  else if x.offered.get o < t + 1 then
    ({ h with jrn := { h.jrn with consumers := h.jrn.consumers.put c { x with status := setBit x.status 2 } } }).raise 75 []
  else
    let gone := if o = h.sys.straps.hubId then x.gone.filter fun u => decide (t < u) else x.gone
    let h := { h with jrn := { h.jrn with consumers := h.jrn.consumers.put c { x with ackTo := x.ackTo.put o (t + 1), gone := gone } } }
    h.freePages

/-- Pages held for one consumer alone (LAG_PAGES, R327). -/
def Hub.lagPages (h : Hub) (c : Nat) : Nat :=
  let others := (h.required.filter (· != c)).foldl (fun a d => min a (h.reachEnd d)) h.jrn.nextTicket
  if (h.cons c).required then
    (h.jrn.pages.filter fun p => p.2.used && p.2.closed && decide (p.2.high < others) && decide (h.reachEnd c ≤ p.2.high)).length
  else 0

/-- Delivery of a consumer restarts from its acknowledgements at a record boundary (R325, R327, R329). -/
def Hub.restartConsumer (h : Hub) (c : Nat) : Hub :=
  ({ h with jrn := { h.jrn with
    consumers := h.jrn.consumers.upd c fun x => { x with next := x.ackTo, stream := [], buf := none }
    ferry := if c = 1 then { h.jrn.ferry with flight := [], restart := true } else h.jrn.ferry } }).skipOn c

/-! ## Declared uncertainty and TIME MAP (R236 to R238) -/

/-- Whole seconds between two XO counts, times a rate in ns per s, rounded up. -/
def driftNs (stab since now : Nat) : Nat := ceilDiv (stab * (now - since)) 49152000

/-- The uncertainty declared at an XO count, in ns; none is unknown (R225, R232, R236). -/
def Hub.uncAt (h : Hub) (now : Nat) : Option Nat :=
  let hold := h.tb.u0.map (· + driftNs h.tb.use.holdStab h.tb.holdSince now)
  match h.tb.source with
  | .none => none
  | .holdover => hold
  | s => if h.tb.awaiting then hold
    else match s with
      | .net => some (h.tb.use.netUnc + h.tb.netRms)
      | .pps => some (h.cfg.tb.ppsUnc + 10)
      | _ => h.tb.cascUnc
/-- The declared uncertainty. -/
def Hub.unc (h : Hub) : Option Nat := h.uncAt h.xoCycles
/-- UNC_NS as a word. -/
def Hub.uncWord (h : Hub) : Nat := match h.unc with | some n => min n 0xFFFFFFFE | none => 0xFFFFFFFF

def TimeSrc.code : TimeSrc → Nat
  | .cascade => 0 | .net => 1 | .pps => 2 | .holdover => 3 | .none => 4

/-- ASYM_UNVERIFIED, while NET gives the time (R236). -/
def Hub.asymFlag (h : Hub) : Bool := h.tb.asymUnverified && h.tb.source == .net
/-- EPOCH_UNSAVED (R233). -/
def Hub.epochUnsaved (h : Hub) : Bool := h.sto.saveDisabled

/-- QUALITY: TAI_UNKNOWN, ASYM_UNVERIFIED and EPOCH_UNSAVED (R238, R422). -/
def Hub.quality (h : Hub) : Nat := flag h.tb.taiUnknown 0 + flag h.asymFlag 1 + flag h.epochUnsaved 2
/-- Lands a TIME MAP record (R238). -/
def Hub.landTimeMap (h : Hub) (kind oldEpoch : Nat) (oldT newT : T64) (dead : Nat) (err resid : Int) : Hub :=
  let body := b1 kind ++ b1 h.tb.source.code ++
    b1 h.quality ++
    b1 (if h.tb.source = .cascade then h.tb.cascMaster else 0xFF) ++ b4 h.uncWord ++ b2 oldEpoch ++ b2 h.tb.epoch ++
    b4 dead ++ bT oldT ++ bT newT ++ bT h.localT ++ b8 (unsigned 64 err) ++ b8 (unsigned 64 resid) ++
    b4 (unsigned 32 h.tb.y) ++ b4 0
  let h := h.land 5 0 0xFF h.tb.epoch newT body
  { h with tb := { h.tb with lastMap := some (h.xoCycles, h.unc) } }

/-- A TIME MAP record without a step (R237). -/
def Hub.mapNow (h : Hub) (kind : Nat) : Hub :=
  h.landTimeMap kind h.tb.epoch h.sampleT h.sampleT 0 (if kind = 2 then h.tb.lastErr else 0) 0

/-! ## The passing of time (R220 to R223) -/

/-- XO cycles, in units of 2^-40, per TIME cycle at steering `y`: XO × 20 × (1 + y) ÷ 8 is TIME. -/
def xoPerTime (y : Int) : Nat := 2 * 2 ^ 80 / (5 * (2 ^ 40 + y).toNat)

/-- A compare unit's reading of its timebase, when it is valid (R239). -/
def Hub.cmpReading (h : Hub) (tb : Nat) : Option T64 :=
  if tb = 0 then (if h.tb.netValid then some h.netT else none)
  else if tb = 1 then some h.sampleT
  else if tb = 2 then some h.localT
  else if h.tb.refValid then some h.refT else none

/-- The last whole second plus OFFSET at or before a reading (R246). -/
def ppsEdge (offset : Int) (r : T64) : T64 :=
  let o := BitVec.ofInt 64 (roundDiv (offset * 2 ^ 32) 1000000000)
  BitVec.ofNat 64 ((r - o).toNat / 2 ^ 32 * 2 ^ 32) + o
/-- PPS_OUT's timebase has a reading: what lies behind its first one is never crossed (R239, R246). -/
def Hub.ppsEvaluated (h : Hub) : Hub :=
  let p := h.cfg.tb.ppsOut
  match h.tb.ppsLast, h.cmpReading p.tb with
  | none, some r => if p.enable then { h with tb := { h.tb with ppsLast := some (ppsEdge p.offset r) } } else h
  | _, _ => h
/-- Units whose target has not been reached have now been evaluated (R239). -/
def Hub.cmpEvaluated (h : Hub) : Hub :=
  let h := h.ppsEvaluated
  let f := fun (c : Cmp) => match h.cmpReading (fld c.ctrl 3 2) with
    | some r => if bit c.ctrl 0 && tLt r c.target then { c with fresh := false } else c
    | none => c
  { h with tb := { h.tb with cmp := h.tb.cmp.mapAll fun _ => f } }

/-- The armed units on the timebases that `f` selects are evaluated anew (R239). -/
def TbSt.refreshCmp (t : TbSt) (f : Nat → Bool) : TbSt :=
  { t with cmp := t.cmp.mapAll fun _ c => if bit c.ctrl 0 && f (fld c.ctrl 3 2) then { c with fresh := true } else c }

/-- TB_SAMPLE as TIME cycles since its zero. -/
def TbSt.total (t : TbSt) : Nat := t.sec * 122880000 + t.cnt
/-- T64 of a count of TIME cycles since the zero of TB_SAMPLE. -/
def cycT (c : Nat) : T64 := sampleT64 (c / 122880000 % 2 ^ 32) (c % 122880000)
/-- TIME cycles since the zero of TB_SAMPLE that a T64 names, rounded to nearest. -/
def cyclesOf (t : T64) : Nat := (t.toNat * 122880000 + 2 ^ 31) / 2 ^ 32
/-- TB_SAMPLE loaded with TIME cycles since its zero, modulo 2^32 s. -/
def TbSt.load (t : TbSt) (n : Nat) : TbSt := { t with sec := n / 122880000 % 2 ^ 32, cnt := n % 122880000 }

/-- `n` TIME cycles pass; held domains stop while TB_LOCAL runs on (R220, R235). -/
def Hub.passTime (h : Hub) (n : Nat) : Hub :=
  let h := h.cmpEvaluated
  let xo := h.tb.xo + n * xoPerTime h.tb.y
  if h.clk.held then { h with tb := { h.tb with xo := xo } }
  else
    let net := (h.tb.net + n * h.tb.netInc) % 2 ^ 96
    { h with tb := { h.tb.load (h.tb.total + n) with xo := xo, cycles := h.tb.cycles + n, net := net, loaded := h.tb.loaded && n == 0 } }

/-- The slew term of R227 in force, units of 2^-40. -/
def Hub.slewTerm (h : Hub) : Int :=
  if h.tb.awaiting then 0
  else match h.tb.source with
    | .cascade | .net | .pps => h.tb.y - h.tb.ySrc
    | _ => 0
/-- Running frequency gates add up the slew term up to now, before it changes (R290). -/
def Hub.slewNote (h : Hub) : Hub :=
  let now := h.xoCycles
  let f := fun (g : Gate) => { g with slewSum := g.slewSum + h.slewTerm * ((now - g.slewAt : Nat) : Int), slewAt := now }
  { h with tiu := { h.tiu with gates := h.tiu.gates.map f } }

/-- TIME cycles to the next frame strobe: to a count that is a multiple of 15,360, after the present one, or at it when TB_SAMPLE has
just been loaded with it (R221, R229). -/
def TbSt.toStrobe (t : TbSt) : Nat := if t.loaded && t.cnt % 15360 == 0 then 0 else 15360 - t.cnt % 15360
/-- DEAD_SPAN: ns from the present reading to the first frame strobe at or after it, rounded to nearest (R238). -/
def TbSt.deadNs (t : TbSt) : Nat := ((15360 - t.cnt % 15360) % 15360 * 1000000000 * 2 + 122880000) / (2 * 122880000)

/-- Ends a timebase's mapping: the epoch advances, the step is kept for MAP (R233, R240). -/
def Hub.newEpoch (h : Hub) (epoch : Nat) (step : T64) (origin : Bool) : Hub :=
  let e := epoch % 65536
  let steps := h.tb.steps ++ [{ old := h.tb.epoch, ended := h.sampleT, epoch := e, step := step, origin := origin }]
  { h with tb := { h.tb with epoch := e, steps := steps.drop (steps.length - 16) } }

/-- A timestamp of an epoch that has ended, in the timeline of the present one: the steps since are added. -/
def Hub.inPresent (h : Hub) (epoch : Nat) (t : T64) : T64 :=
  (h.tb.steps.filter fun s => decide (0 < epochDiff epoch s.epoch)).foldl (fun a s => a + s.step) t
/-- The first instant of an epoch, its first frame strobe (R229), and the reading at which it ended. -/
def Hub.epochFirst (h : Hub) (epoch : Nat) : T64 :=
  if epoch = h.tb.epoch then h.trg.epochStart
  else match h.tb.steps.find? (·.epoch == epoch) with
    | some s => cycT (ceilDiv (cyclesOf (s.ended + s.step)) 15360 * 15360)
    | none => 0
def Hub.epochEnd (h : Hub) (epoch : Nat) : Option T64 := (h.tb.steps.find? (·.old == epoch)).map (·.ended)

end Sys2Proof.Machine
end

