-- ==== Sys2Proof/Machine/Clock.lean ====
section
/-!
DEFINITION. The clock commands that touch one block (R530, R531, R533), the frequency-measuring counter (R527), the
source monitors' judgement (R517) and clock muxes (R519).
-/
namespace Sys2Proof.Machine

/-- CLK_STATUS (R529). -/
def Hub.clkStatusWord (h : Hub) : Word :=
  let ok := fun s => (h.clk.mon.get s).ok
  wd (flag h.clk.rootLock 0 + flag h.clk.memLock 1 + flag h.clk.held 2 + flag h.clk.stopped 3 + flag (ok 0) 4 + flag (ok 1) 5 +
      flag (ok 2) 6 + flag (ok 3 && !h.sys.straps.hostSel) 7 + flag (ok 4) 8 + flag h.clk.oscWait 9)
/-- MUX_STATE (R529). -/
def Hub.muxState (h : Hub) : Word := wd (h.clk.muxCpu + h.clk.muxHost * 4)
/-- GATES_LO and GATES_HI (R529). -/
def Hub.gatesWord (h : Hub) (hi : Bool) : Word := wd (maskOf h.clk.gates / (if hi then 2 ^ 32 else 1))
/-- FMC_SEL (R529). -/
def Hub.fmcSel (h : Hub) : Word :=
  wd (h.clk.fmc.meas + h.clk.fmc.ref * 256 + h.clk.fmc.log2 * 65536 + flag h.clk.fmc.busy 31)

/-- CLK_FAULT bits set. -/
def Hub.clkFault (h : Hub) (i : Nat) : Hub := { h with clk := { h.clk with fault := setBit h.clk.fault i } }

def clkStatus : CmdSpec where
  opcode := 0x0201
  len := lenIs 0
  run := fun h _ =>
    { hub := h
      words := [h.clkStatusWord, h.clk.fault, h.muxState, h.gatesWord false, h.gatesWord true] ++
        (List.range 5).map (fun s => wd (h.clk.mon.get s).count) ++ [wd h.clk.holds, wd h.clk.stops] ++
        tWords h.clk.lastHold ++ [wd h.clk.lastHoldNs, wd h.clk.resumeEpoch] }

/-- Nominal frequency of a clock source of R527 in units of 1/3 Hz, excluding steering. -/
def fmcNominal (spi : Bool) (s : Nat) : Nat :=
  3 * (if s = 0 then 983040000 else if s = 1 then 491520000 else if s = 2 then 245760000 else if s = 3 then 122880000
    else if s = 4 then 24576000 else if s = 5 then 3072000 else if s = 6 then 49152000 else if s = 7 then 400000000
    else if s = 8 then (if spi then 49152000 else 250000000) else if s = 9 then 125000000 else if s = 10 then 32768
    else if s = 11 then 40000000 else if s ≤ 27 then 147456000 else if s ≤ 29 then 294912000 else if s ≤ 31 then 62500000
    else if s = 32 then 100000000 else 125000000)
/-- A clock of R527 is held or failed. -/
def Hub.fmcDown (h : Hub) (s : Nat) : Bool :=
  let failed := fun k => (h.clk.mon.get k).failed
  if s ≤ 5 then h.clk.held || (s == 0 && !h.clk.rootLock)
  else if s = 6 then failed 0 else if s = 7 then !h.clk.memLock
  else if s = 9 ∨ s = 33 ∨ s = 30 ∨ s = 31 then failed 4
  else if s = 10 then failed 2 else if s = 11 then failed 1
  else if s = 32 then failed 3
  else false

def clkFmc : CmdSpec where
  opcode := 0x0202
  len := lenIs 1
  bad := fun _ p => badIf !(rsv (pw p 0) 0x001F3F3F && inR (fld (pw p 0) 5 0) 0 33 && inR (fld (pw p 0) 13 8) 0 33 &&
    fld (pw p 0) 5 0 != fld (pw p 0) 13 8 && inR (fld (pw p 0) 20 16) 10 31)
  refuse := fun h c => refuseIf (h.clk.fmc.busy || h.fmcDown (fld (pw c.pl 0) 5 0) || h.fmcDown (fld (pw c.pl 0) 13 8)) BAD_STATE
  long := fun _ _ => true
  run := fun h c =>
    let w := pw c.pl 0
    let f : Fmc := { h.clk.fmc with busy := true, meas := fld w 5 0, ref := fld w 13 8, log2 := fld w 20 16,
                                    handle := c.handle, start := h.localT }
    { hub := { h with clk := { h.clk with fmc := f } } }

/-- Completion result words of CLK_FMC: N_m, reference edges, ratio error in parts per 10^9, start (R531). -/
def Hub.fmcResult (h : Hub) (n edges : Nat) : List Word :=
  let f := h.clk.fmc
  let spi := h.sys.straps.hostSel
  let num : Int := (n * fmcNominal spi f.ref : Nat)
  let den := edges * fmcNominal spi f.meas
  let err := if den = 0 then 0 else roundDiv ((num - (den : Nat)) * 1000000000) den
  [lo32 n, hi32 n, lo32 edges, hi32 edges, wdInt err] ++ tWords f.start

/-- The measurement stops: held, failed or aborted (R490, R528). -/
def Hub.fmcStop (h : Hub) : Hub :=
  if h.clk.fmc.busy then
    let hd := h.clk.fmc.handle
    ({ h with clk := { h.clk with fmc := { h.clk.fmc with busy := false } } }).complete hd ABORTED []
  else h
/-- The measurement stops when one of its clocks is down (R528). -/
def Hub.fmcCheck (h : Hub) : Hub :=
  if h.clk.fmc.busy && (h.fmcDown h.clk.fmc.meas || h.fmcDown h.clk.fmc.ref) then h.fmcStop else h

/-- The reference window is complete with N_m edges of the measured clock (R527, R531). -/
def fmcComplete (n : Nat) (h : Hub) : Hub :=
  if h.clk.fmc.busy then
    let r := h.fmcResult n (2 ^ h.clk.fmc.log2)
    let hd := h.clk.fmc.handle
    ({ h with clk := { h.clk with fmc := { h.clk.fmc with busy := false, n := n % 2 ^ 64 } } }).complete hd DONE r
  else h

def clkMonSet : CmdSpec where
  opcode := 0x0204
  len := lenIs 2
  bad := fun _ p => badIf !(rsv (pw p 0) 0xFFFFF000 && inR (fld (pw p 0) 31 24) 60 200 && inR (fld (pw p 0) 23 20) 1 15 &&
    inR (fld (pw p 0) 19 12) 4 255 && inR (fld (pw p 1) 31 16) 100 50000 && inR (fld (pw p 1) 15 0) 1 500)
  run := fun h c =>
    let p := c.pl
    let k : ClkCfg := { xoTol := fld (pw p 0) 31 24, failWin := fld (pw p 0) 23 20, okWin := fld (pw p 0) 19 12,
                        refTol := fld (pw p 1) 31 16, xoDecl := fld (pw p 1) 15 0 }
    { hub := { h with cfg := { h.cfg with clk := k } } }

/-! ## Source monitors (R517) -/

/-- Expected count and tolerance of a window, both in thousandths: 0 XO, 1 RC, 2 AON, 3 REFCLK_HOST, 4 REFCLK_NET. -/
def Hub.monExpect (h : Hub) (s : Nat) : Nat × Nat :=
  let c := h.cfg.clk
  if s = 0 then (if (h.clk.mon.get 1).failed then (96000000, 96000 * c.xoTol) else (1258291, 1258291 * c.xoTol / 1000))
  else if s = 1 then (833333, 833333 * c.xoTol / 1000)
  else if s = 2 then (699051, 6991)
  else if s = 3 then (133333333, 133333333 * c.refTol / 1000000)
  else (166666667, 166666667 * c.refTol / 1000000)
/-- A window's count lies within tolerance. -/
def Hub.monInTol (h : Hub) (s count : Nat) : Bool :=
  let e := h.monExpect s
  decide (((1000 * count : Int) - (e.1 : Nat)).natAbs ≤ e.2)

/-- A window ends: the new state of the monitor, and whether the source fails or becomes OK at it. -/
def Hub.monWindow (h : Hub) (s count : Nat) : ClkMon × Bool × Bool :=
  let m := h.clk.mon.get s
  if h.monInTol s count then
    let oks := m.oks + 1
    let back := m.failed && decide (h.cfg.clk.okWin ≤ oks)
    let first := !m.failed && !m.ok && (s != 0 || decide (16 ≤ oks))
    ({ count := count, ok := m.ok || back || first, failed := m.failed && !back, fails := 0, oks := oks }, false, back)
  else
    let fails := m.fails + 1
    let fail := !m.failed && decide (h.cfg.clk.failWin ≤ fails)
    ({ count := count, ok := m.ok && !fail, failed := m.failed || fail, fails := fails, oks := 0 }, fail, false)

end Sys2Proof.Machine
end

