-- ==== Sys2Proof/Machine/Time.lean ====
section
/-!
DEFINITION. Sources, slew and break (R224 to R228), origins (R232), compare units (R239, R240), PPS (R244, R246,
R291) and the time commands (R243 to R247).
-/
namespace Sys2Proof.Machine

/-! ## Sources (R224 to R226) -/

/-- Bit of SRC_EN and place in the order of priority. -/
def TimeSrc.rank : TimeSrc → Nat
  | .cascade => 0 | .net => 1 | .pps => 2 | .holdover => 3 | .none => 3

/-- A source is qualified and enabled. -/
def Hub.srcOk (h : Hub) (s : TimeSrc) : Bool :=
  match s with
  | .cascade => h.tb.qCasc && h.tb.use.srcEn.testBit 0
  | .net => h.tb.qNet && h.tb.use.srcEn.testBit 1
  | .pps => h.tb.qPps && h.tb.use.srcEn.testBit 2
  | _ => false
/-- The highest-priority qualified source among those enabled. -/
def Hub.bestSrc (h : Hub) : Option TimeSrc := [.cascade, .net, .pps].find? h.srcOk

/-- y less its slew component, averaged over the 64 s before `now` (R226). -/
def meanY (hist : List (Nat × Int)) (now : Nat) (cur : Int) : Int :=
  let lo := now - 64 * 49152000
  let hist := hist.filter fun e => decide (e.1 ≤ now)
  let rec go : List (Nat × Int) → Int × Nat
    | [] => (0, 0)
    | [(t, v)] => let d := now - max t lo; (v * d, d)
    | (t, v) :: (t2, v2) :: r =>
      let d := max t2 lo - max t lo
      let s := go ((t2, v2) :: r)
      (s.1 + v * d, s.2 + d)
  let s := go hist
  if s.2 = 0 then cur else roundDiv s.1 s.2

/-- A change of source lands a TIME MAP record and raises TIME_SOURCE (R225). -/
def Hub.sourceChanged (h : Hub) : Hub := (h.mapNow 2).raise 96 []

/-- A limit in ppm in units of 2^-40. -/
def ppm40 (p : Nat) : Int := (p * 2 ^ 40 / 1000000 : Nat)

/-- Entries of a history that are younger than `span` XO cycles, and the one in force when the span begins. -/
def sinceThen (hist : List (Nat × Int)) (now span : Nat) : List (Nat × Int) :=
  let old := hist.filter fun p => decide (p.1 + span < now)
  (match old.getLast? with | some p => [p] | none => []) ++ hist.filter fun p => decide (now ≤ p.1 + span)
/-- y is set within ±1,050 ppm and within 1,000 ppm of every value it had in the last second (R222); what the limits leave out is not
made up before y is next set (DESIGN CHOICE, log entry 64). -/
def Hub.setY (h : Hub) (y : Int) : Hub :=
  let now := h.xoCycles
  let had := sinceThen h.tb.yMoves now 49152000
  let m := ppm40 1000
  let lo := had.foldl (fun a p => max a (p.2 - m)) (h.tb.y - m)
  let hi := had.foldl (fun a p => min a (p.2 + m)) (h.tb.y + m)
  let y := clampI (clampI y lo hi) (-(ppm40 1050)) (ppm40 1050)
  { h with tb := { h.tb with y := y, yMoves := had ++ [(now, y)] } }
/-- y less its slew component is `v` from now on (R226). -/
def Hub.noteY (h : Hub) (v : Int) : Hub :=
  let now := h.xoCycles
  { h with tb := { h.tb with ySrc := v, yHist := sinceThen h.tb.yHist now (64 * 49152000) ++ [(now, v)] } }
/-- y is frozen at its mean over the 64 s before `now` (R225, R226). -/
def Hub.freezeY (h : Hub) (now : Nat) : Hub :=
  let v := meanY h.tb.yHist now h.tb.ySrc
  { ((h.setY v).noteY v) with tb := { ((h.setY v).noteY v).tb with slewing := false, breakCnt := 0 } }

/-- HOLDOVER is entered: y is frozen at its mean, u0 is the value declared at entry (R225, R226, R236). -/
def Hub.enterHoldover (h : Hub) : Hub :=
  let h := h.slewNote
  let u := h.unc
  let h := h.freezeY h.xoCycles
  let h := { h with tb := { h.tb with source := .holdover, awaiting := false, u0 := u, holdSince := h.xoCycles } }
  h.sourceChanged

/-- The active source has lost qualification (R225). -/
def Hub.sourceLost (h : Hub) : Hub :=
  let h := h.slewNote
  match h.bestSrc with
  | some s =>
    let u := h.unc
    let h := h.freezeY h.xoCycles
    { h with tb := { h.tb with source := s, awaiting := true, u0 := if h.tb.awaiting then h.tb.u0 else u,
                               holdSince := if h.tb.awaiting then h.tb.holdSince else h.xoCycles } }
  | none => h.enterHoldover

/-- The active source is a source that can lose qualification. -/
def TimeSrc.real (s : TimeSrc) : Bool := s == .cascade || s == .net || s == .pps

/-- The hold-off of each higher-priority source that has become qualified (R225). -/
def Hub.trackCand (h : Hub) : Hub :=
  let higher := [TimeSrc.cascade, .net, .pps].filter fun s => h.tb.source.real && s.rank < h.tb.source.rank && h.srcOk s
  let since := fun (s : TimeSrc) => ((h.tb.cand.find? (·.1 == s)).map (·.2)).getD h.xoCycles
  { h with tb := { h.tb with cand := higher.map fun s => (s, since s) } }

/-- A source gains or loses qualification (R224, R225). -/
def Hub.setQual (h : Hub) (s : TimeSrc) (q : Bool) : Hub :=
  let h := match s with
    | .cascade => { h with tb := { h.tb with qCasc := q } }
    | .net => { h with tb := { h.tb with qNet := q } }
    | .pps => { h with tb := { h.tb with qPps := q } }
    | _ => h
  (if h.tb.source.real && !h.srcOk h.tb.source then h.sourceLost else h).trackCand

/-! ## Slew and break (R227, R228) -/

/-- A measurement from the active source: slew, or the count towards a break. `e` is in units of 2^-32 s; a
master's epoch comes with CASCADE (R234). -/
def Hub.steerBy (h : Hub) (e ySrc : Int) (epoch : Option Nat) : Hub :=
  let h := h.slewNote
  let lim := e.natAbs * 1000000 > h.tb.use.breakLimit * 2 ^ 32
  let m := ppm40 h.tb.use.slewMax
  let slew := if lim then 0 else clampI (e * 16) (-m) m
  let cnt := if lim then (if h.tb.breakCnt > 0 ∧ h.tb.breakNeg = decide (e < 0) then h.tb.breakCnt + 1 else 1) else 0
  let h := (h.setY (ySrc + slew)).noteY ySrc
  let h := { h with tb := { h.tb with slewing := !lim && decide ((e * 16).natAbs > m.natAbs), lastErr := e, breakCnt := cnt,
                                      breakNeg := decide (e < 0) } }
  if cnt ≥ h.tb.use.breakQual ∧ lim then
    let s := 20 * roundDiv (e * 6144000) (2 ^ 32)
    { h with tb := { h.tb with breakCnt := 0,
                               pendBreak := h.tb.pendBreak ++ [{ e := e, s := s, epoch := epoch, kind := 1, since := h.tb.strobes }] } }
  else h

/-- A measurement of e from a source (R224, R225, R227, R228, R243). -/
def Hub.measure (h : Hub) (s : TimeSrc) (e ySrc : Int) (epoch : Option Nat) : Hub :=
  let h := { h with tb := { h.tb with use := h.cfg.tb.src } }
  let h := if h.tb.source.real && !h.srcOk h.tb.source then h.sourceLost else h.trackCand
  if h.srcOk s then
    if h.tb.source = s ∧ ¬ h.tb.awaiting then h.steerBy e ySrc epoch
    else if h.tb.source = s ∨ (¬ h.tb.source.real ∧ h.bestSrc = some s) then
      let h := { h with tb := { h.tb with source := s, awaiting := false, breakCnt := 0, taiUnknown := false } }
      (h.steerBy e ySrc epoch).sourceChanged.trackCand
    else h
  else h

/-! ## Origins (R232) -/


/-- TB_SAMPLE starts at `total` TIME cycles as an origin: the epoch advances and a TIME MAP record lands. -/
def Hub.startOrigin (h : Hub) (total : Nat) (oldT : T64) : Hub :=
  let oldEpoch := h.tb.epoch
  let h := h.newEpoch (oldEpoch + 1) 0 true
  let h := { h with tb := { (h.tb.load total) with started := true, breakCnt := 0, pendBreak := [], loaded := true } }
  let h := { h with tb := h.tb.refreshCmp (· != 2) }
  (h.landTimeMap 0 oldEpoch oldT h.sampleT h.tb.deadNs 0 0).saveState none

/-- An origin after RETAIN or STOPPED (R232): from the first qualified source, or from the last reading advanced by
TB_LOCAL's measure of the outage of `out` XO cycles; `extra` ns join u0; no measure exists when `lost`. -/
def Hub.outageOrigin (h : Hub) (src : Option SrcReading) (out extra : Nat) (lost : Bool) : Hub :=
  let oldT := h.sampleT
  let was := h.tb.source
  let began := h.xoCycles - out
  let u := h.uncAt began
  let h := h.slewNote
  let h := match src.filter fun r => h.srcOk r.src with
    | some r =>
      let h := (h.setY r.y).noteY r.y
      let h := { h with tb := { h.tb with source := r.src, awaiting := false, slewing := false, taiUnknown := false } }
      h.startOrigin (cyclesOf r.t) oldT
    | none =>
      let total := h.tb.total + (out * 5 + 1) / 2
      if u.isNone || lost then
        let h := (h.setY 0).noteY 0
        let h := { h with tb := { h.tb with source := .none, awaiting := false, slewing := false, u0 := none, taiUnknown := true } }
        h.startOrigin total oldT
      else
        let h := if was.real then h.freezeY began else h
        let h := { h with tb := { h.tb with source := .holdover, awaiting := false, slewing := false, u0 := u.map (· + extra), holdSince := began } }
        h.startOrigin total oldT
  (if h.tb.source = was then h else h.sourceChanged).trackCand

/-! ## Compare units (R239, R240, R242) -/

/-- The sum of the steps from an epoch to the current one, when a mapping exists (R240). -/
def Hub.epochMap (h : Hub) (from_ : Nat) : Option T64 :=
  let later := h.tb.steps.filter fun s => epochDiff from_ s.epoch > 0
  let kept := h.tb.steps.head?.any fun s => decide (0 ≤ epochDiff s.old from_)
  if !kept || later.any (·.origin) then none else some (later.foldl (fun a s => a + s.step) 0)

/-- An armed unit on TB_SAMPLE whose target epoch is earlier follows its EPOCH_POLICY (R240). -/
def Hub.cmpPolicy (h : Hub) (n : Nat) : Hub :=
  let c := h.tb.cmp.get n
  if bit c.ctrl 0 && fld c.ctrl 3 2 == 1 && decide (epochDiff (fld c.ctrl 31 16) h.tb.epoch > 0) then
    let cancel : Cmp := { c with ctrl := w1c c.ctrl 1, status := setBit c.status 2 }
    let p := fld c.ctrl 7 6
    let c' := if p = 1 then
        match h.epochMap (fld c.ctrl 31 16) with
        | some d => { c with target := c.target + d, ctrl := (c.ctrl &&& 0xFFFF) ||| wd (h.tb.epoch * 65536) }
        | none => cancel
      else if p = 2 then cancel else c
    { h with tb := { h.tb with cmp := h.tb.cmp.put n c' } }
  else h

/-- Every unit's policy after a change of epoch. -/
def Hub.cmpPolicies (h : Hub) : Hub := (List.range 8).foldl (fun h n => h.cmpPolicy n) h

/-- Bits of CMPn_CTRL that are not reserved. -/
def cmpMask : Word := 0xFFFF00ED

/-- A write to CMPn_CTRL: while ARM is 1 only ARM is written (R242). -/
def cmpCtrlWrite (n : Nat) (w : Word) (h : Hub) : Hub :=
  let c := h.tb.cmp.get n
  if bit c.ctrl 0 then
    if bit w 0 then h else { h with tb := { h.tb with cmp := h.tb.cmp.put n { c with ctrl := w1c c.ctrl 1 } } }
  else
    let h := { h with tb := { h.tb with cmp := h.tb.cmp.put n { c with ctrl := w &&& cmpMask, fresh := true } } }
    h.cmpPolicy n

/-- One cycle of a timebase's domain in units of 2^-32 s, rounded up (R239). -/
def cmpCycle (tb : Nat) : Int := if tb = 2 then 88 else 35

/-- A compare unit reaches its target and fires (R239, R240). -/
def cmpFire (n : Nat) (h : Hub) : Hub :=
  let c := h.tb.cmp.get n
  match h.cmpReading (fld c.ctrl 3 2) with
  | some r =>
    if bit c.ctrl 0 && tLe c.target r then
      let late := c.fresh && decide (cmpCycle (fld c.ctrl 3 2) ≤ tDiff c.target r)
      let c := { c with fired := r, fresh := false, status := c.status ||| 1 ||| wd (flag late 1) }
      let c := if bit c.ctrl 5 then { c with target := c.target + c.period } else { c with ctrl := w1c c.ctrl 1 }
      ({ h with tb := { h.tb with cmp := h.tb.cmp.put n c } }).raise 98 (b1 n)
    else h
  | none => h

/-- SNAP: all four timebases and the epoch on one edge (R242). -/
def snapCtrlSnap (h : Hub) : Hub :=
  { h with tb := { h.tb with snap :=
    { net := h.netT, sample := h.sampleT, loc := h.localT, ref := h.refT,
      word := wd (h.tb.epoch + flag h.tb.qNet 16 + flag h.tb.refValid 17) } } }

/-- TIME_STATUS (R242). -/
def Hub.timeStatus (h : Hub) : Word :=
  wd (min h.tb.breakCnt 15 + h.tb.source.code * 256 + flag h.tb.qCasc 12 + flag h.tb.qNet 13 + flag h.tb.qPps 14 +
      flag h.tb.slewing 16 + flag h.asymFlag 17 + flag h.tb.taiUnknown 18 + flag h.clk.held 19)

/-! ## Timed rows of chapter 08 -/

/-- A higher-priority source has stayed qualified for SRC_HOLDOFF and replaces the active one at its next
measurement (R225). -/
def sourceHoldoffExpiry (h : Hub) : Hub :=
  match h.tb.cand.find? fun c => h.srcOk c.1 && decide (c.2 + h.tb.use.holdoff * 49152000 ≤ h.xoCycles) with
  | some (s, _) =>
    let u := h.unc
    let h := { h with tb := { h.tb with source := s, awaiting := true, breakCnt := 0, u0 := if h.tb.awaiting then h.tb.u0 else u,
                                        holdSince := if h.tb.awaiting then h.tb.holdSince else h.xoCycles } }
    h.trackCand
  | none => h

/-- TIME_MAP_PERIOD has passed since the last TIME MAP record (R237). -/
def timeMapPeriodic (h : Hub) : Hub :=
  match h.tb.lastMap with
  | some (t, _) => if t + h.tb.use.mapPeriod * 49152000 ≤ h.xoCycles ∧ ¬ h.clk.held then h.mapNow 4 else h
  | none => h

/-- The declared value has doubled or halved, or changed to or from unknown (R237). -/
def uncChanged (old new : Option Nat) : Bool :=
  match old, new with
  | some a, some b => decide (b ≠ a) && (decide (2 * a ≤ b) || decide (2 * b ≤ a))
  | none, none => false
  | _, _ => true
def uncertaintyRecord (h : Hub) : Hub :=
  match h.tb.lastMap with
  | some (_, u) => if uncChanged u h.unc && !h.clk.held then h.mapNow 3 else h
  | none => h

/-- Nanoseconds as units of 2^-32 s, rounded to nearest. -/
def nsToT (ns : Int) : Int := roundDiv (ns * 2 ^ 32) 1000000000

/-- A free value of the spec as a signed 32-bit number. -/
def Hub.freeInt (h : Hub) : Int × Hub := (signed 32 (Config.freeValue h.free).toNat, { h with free := h.free + 1 })

/-- The second source measures q = TB_NET − its time, for the active port's re-route detector (R255). -/
def Hub.noteQ (h : Hub) (casc : Bool) (q : Int) : Hub :=
  match h.net.active with
  | none => h
  | some p =>
    let f := fun (x : Port) =>
      let t := x.ptp
      let hist := (t.qHist.filter fun e => decide (h.xoCycles ≤ e.2.1 + 64 * 49152000)) ++ [(casc, h.xoCycles, q)]
      { x with ptp := { t with qHist := hist, secQ := if t.servo = .qualHold then t.secQ ++ [(casc, q)] else t.secQ } }
    { h with net := { h.net with ports := h.net.ports.upd p f } }

/-- A good edge, or not: the last four decide whether PPS is qualified, and then the edge gives a measurement (R224). -/
def Hub.ppsCount (h : Hub) (good : Bool) : Hub :=
  let n := if good then min 4 (h.tb.ppsGood + 1) else 0
  let h := { h with tb := { h.tb with ppsGood := n } }
  let h := h.setQual .pps (decide (n = 4))
  if n = 4 then
    let y := h.freeInt
    (y.2.noteQ false (tDiff y.2.refT y.2.netT)).measure .pps y.2.tb.refOff.toInt y.1 none
  else h
/-- TB_REF follows an edge (R220). -/
def Hub.refTo (h : Hub) (off : T64) : Hub :=
  let tb := { h.tb with refOff := off, refValid := true }
  { h with tb := if h.tb.refValid && h.tb.refOff == off then tb else tb.refreshCmp (· == 3) }
/-- An edge on PPS_IN, stamped by line 8 on TB_SAMPLE, less CABLE_DLY: it labels TB_REF for every TIME_REF_SET that waits, or is
compared with it (R224, R244, R291). -/
def Hub.ppsStamp (h : Hub) (stamp : T64) : Hub :=
  let st := stamp - BitVec.ofInt 64 (nsToT h.cfg.tb.cableDly)
  match h.tb.pendRef with
  | p :: ps =>
    let h := h.refTo (BitVec.ofNat 64 ((ps.getLastD p).seconds * 2 ^ 32) - st)
    let h := { h with tb := { h.tb with pendRef := [] } }
    ((p :: ps).foldl (fun h p => h.complete p.handle DONE [lo32 st.toNat, hi32 st.toNat, wd h.tb.epoch]) h).ppsCount true
  | [] =>
    if h.tb.refValid then
      let frac := signed 32 (st + h.tb.refOff).toNat
      let good := decide (frac.natAbs * 1000000 ≤ 2 ^ 32)
      (if good then h.refTo (h.tb.refOff - BitVec.ofInt 64 frac) else h).ppsCount good
    else h

/-- No edge within 2 s of a TIME_REF_SET (R244). -/
def timeRefTimeout (h : Hub) : Hub :=
  let late := h.tb.pendRef.filter fun p => decide (tDiff p.since h.localT ≥ 2 * 2 ^ 32)
  let h := { h with tb := { h.tb with pendRef := h.tb.pendRef.filter fun p => !late.contains p } }
  late.foldl (fun h p => h.complete p.handle TIMED_OUT []) h

/-- The selected timebase crosses a whole second plus OFFSET, one that it has not crossed before, and a pulse begins (R239, R246). -/
def ppsOutPulse (h : Hub) : Hub :=
  let p := h.cfg.tb.ppsOut
  match h.cmpReading p.tb, h.tb.ppsLast with
  | some r, some l =>
    let e := ppsEdge p.offset r
    if p.enable && !(h.clk.held && p.tb != 2) && tLt l e then { h with tb := { h.tb with ppsPin := some h.tb.xo, ppsLast := some e } } else h
  | _, _ => h
/-- The pulse's WIDTH expires (R246); it is counted on TB_LOCAL, since the spec names no clock for it (DESIGN CHOICE, log entry 65). -/
def ppsOutPulseEnd (h : Hub) : Hub :=
  match h.tb.ppsPin with
  | some at_ => if at_ * 1000 + h.cfg.tb.ppsOut.width * 49152 * 2 ^ 40 ≤ h.tb.xo * 1000 then { h with tb := { h.tb with ppsPin := none } } else h
  | none => h
/-- The level that drives PPS_OUT, none while it is not driven (R246). -/
def Hub.ppsOutLevel (h : Hub) : Option Bool :=
  if h.cfg.tb.ppsOut.enable then some (h.tb.ppsPin.isSome != h.cfg.tb.ppsOut.pol) else none

/-! ## Time commands (R243 to R247) -/

def timeSrcSet : CmdSpec where
  opcode := 0x0901
  len := lenIs 5
  bad := fun _ p => badIf !(rsv (pw p 0) 0x0007FFFF && inR (fld (pw p 0) 15 0) 1 1000 &&
    inR (pw p 1).toNat 10 1000000 && rsv (pw p 2) 0x0F00FFFF && inR (fld (pw p 2) 27 24) 1 15 &&
    inR (fld (pw p 2) 15 0) 0 3600 && inR (pw p 3).toNat 1 100000 && inR (fld (pw p 4) 31 16) 1 3600)
  run := fun h c =>
    let p := c.pl
    let s : SrcCfg := { srcEn := fld (pw p 0) 18 16, slewMax := fld (pw p 0) 15 0, breakLimit := (pw p 1).toNat,
                        breakQual := fld (pw p 2) 27 24, holdoff := fld (pw p 2) 15 0, holdStab := (pw p 3).toNat,
                        mapPeriod := fld (pw p 4) 31 16, netUnc := fld (pw p 4) 15 0 }
    { hub := { h with cfg := { h.cfg with tb := { h.cfg.tb with src := s } } } }

def timeRefSet : CmdSpec where
  opcode := 0x0902
  len := lenIs 3
  bad := fun _ p => badIf !(rsv (pw p 1) 0xFFFF8000)
  long := fun _ _ => true
  block := true
  run := fun h c =>
    let p := c.pl
    let cfg := { h.cfg.tb with ppsUnc := fld (pw p 1) 31 16, ppsFalling := bit (pw p 1) 15, cableDly := signed 32 (pw p 2).toNat }
    let q : PendRef := { seconds := (pw p 0).toNat, handle := c.handle, since := h.localT }
    { hub := { h with cfg := { h.cfg with tb := cfg }, tb := { h.tb with pendRef := h.tb.pendRef ++ [q] } } }

def timeSet : CmdSpec where
  opcode := 0x0903
  len := lenIs 3
  bad := fun _ p => badIf !(rsv (pw p 1) 0x1FFF && inR (fld (pw p 1) 12 0) 0 7999)
  refuse := fun h _ => refuseIf (h.tb.source.real || h.tb.pendSet.isSome) BAD_STATE
  long := fun _ _ => true
  block := true
  run := fun h c =>
    let p := c.pl
    let q : PendSet := { seconds := (pw p 0).toNat, strobe := fld (pw p 1) 12 0, unc := (pw p 2).toNat,
                         handle := c.handle, since := h.tb.strobes }
    { hub := { h with tb := { h.tb with pendSet := some q } } }

def timePpsOutSet : CmdSpec where
  opcode := 0x0904
  len := lenIs 3
  bad := fun _ p => badIf !(rsv (pw p 0) 0xF0000000 && inR (pw p 1).toNat 1 500000 &&
    decide ((signed 32 (pw p 2).toNat).natAbs ≤ 500000000))
  run := fun h c =>
    let p := c.pl
    let o : PpsOut := { tb := fld (pw p 0) 31 30, enable := bit (pw p 0) 29, pol := bit (pw p 0) 28,
                        width := (pw p 1).toNat, offset := signed 32 (pw p 2).toNat }
    { hub := { h with cfg := { h.cfg with tb := { h.cfg.tb with ppsOut := o } }, tb := { h.tb with ppsPin := none, ppsLast := none } } }

def timeStatusRead : CmdSpec where
  opcode := 0x0905
  len := lenIs 0
  run := fun h _ =>
    let e := unsigned 64 h.tb.lastErr
    let hold := if h.tb.source = .holdover then (h.xoCycles - h.tb.holdSince) / 49152000 else 0
    { hub := h, words := [h.timeStatus, wd h.tb.epoch, wd h.uncWord, wdInt h.tb.y, lo32 e, hi32 e, wd hold,
                          wd h.tb.breaks] ++ tWords h.tb.lastBreak }

end Sys2Proof.Machine
end

