-- ==== Sys2Proof/Machine/Sys.lean ====
section
/-!
DEFINITION. System commands (R495 to R497, R512, R556, R557), security, firmware and flash (R541 to R545,
R553, R554, R558 to R566).
-/
namespace Sys2Proof.Machine

/-! ## System commands -/

def sysNop : CmdSpec where
  opcode := 0x0101
  len := fun p => decide (p.length ≤ 124)
  run := fun h c => { hub := h, words := c.pl }

/-- The image of a slot. -/
def Hub.slot (h : Hub) (b : Bool) : Slot := if b then h.sto.slotB else h.sto.slotA

def sysInfo : CmdSpec where
  opcode := 0x0102
  len := lenIs 0
  run := fun h _ =>
    let s := h.slot h.sys.slotB
    { hub := h
      words := [if h.sys.recovery then Config.romRelease else s.release,
                wd (flag h.sys.slotB 0 + flag h.sto.trialFailed 1 + h.sto.otp.rollback * 256),
                if h.sys.recovery then Config.romLevels else wd (s.levels.toNat % 65536 + h.recVersion * 65536), 1] ++
        (List.range 8).map (fun m => h.sys.lastTag.get m) ++
        [wd h.sys.ctrlResets, Config.revision, lo32 Config.serial.toNat, hi32 Config.serial.toNat] }

/-- The handle that word 0 carries. -/
def pwHandle (p : List Word) : Nat := fld (pw p 0) 15 0

def sysHandleQuery : CmdSpec where
  opcode := 0x0103
  len := lenIs 1
  bad := fun _ p => badIf !(rsv (pw p 0) 0xFFFF)
  refuse := fun h c => refuseIf (h.slotOf (pwHandle c.pl)).isNone HANDLE_UNKNOWN
  run := fun h c =>
    let x := (h.slotOf (pwHandle c.pl)).getD {}
    { hub := h, words := [wd ((if x.done then 2 else 1) + x.opcode * 65536), x.tag,
                          wd (x.mb + if x.done then x.seq * 65536 else 0)] }

def sysReset : CmdSpec where
  opcode := 0x0105
  len := lenIs 1
  bad := fun _ p => badIf !(rsv (pw p 0) 0x1F03 && fld (pw p 0) 1 0 != 0 && inR (fld (pw p 0) 12 8) 0 16)
  refuse := fun h c =>
    let k := fld (pw c.pl 0) 1 0
    refuseIf ((k == 2 && h.sys.acq != .running) || (k == 3 && h.clk.stopped)) BAD_STATE
  run := fun h c =>
    let k := fld (pw c.pl 0) 1 0
    if k = 1 then { hub := { h with sys := { h.sys with pendingReset := some (.control 4), pendingMb := c.mb, resetDue := h.xoCycles + 49152 } } }
    else if k = 2 then { hub := { h with sys := { h.sys with pendingReset := some .datapath, pendingMb := c.mb, resetDue := h.xoCycles + 49152 } } }
    else { hub := { h with sys := { h.sys with blockReset := some { block := fld (pw c.pl 0) 12 8, mb := c.mb, tag := c.tag, since := h.tb.strobes } } }, wait := true }

def sysStateSave : CmdSpec where
  opcode := 0x0106
  len := lenIs 1
  bad := fun _ p => badIf !(rsv (pw p 0) 0x8000FFFF && inR (fld (pw p 0) 15 0) 0 10080)
  refuse := fun h _ => refuseIf h.sto.saveDisabled BAD_STATE
  long := fun _ _ => true
  run := fun h c =>
    let h := { h with cfg := { h.cfg with autostart := bit (pw c.pl 0) 31, saveInt := fld (pw c.pl 0) 15 0 } }
    { hub := h.saveState (some c.handle) }

def logMark : CmdSpec where
  opcode := 0x0107
  len := lenIs 5
  bad := fun _ p => badIf !(rsv (pw p 0) 3)
  run := fun h c =>
    { hub := h.logNow 0xF0 (fld (pw c.pl 0) 1 0 + 64) (bytesOf (c.pl.drop 1)), words := [wd h.evt.logNext] }

/-! ## Security (R558 to R560) -/

/-- JTAG state as SEC_STATUS reports it (R558). -/
def Hub.jtagState (h : Hub) : Nat := if h.sto.unlocked then 2 else h.sto.otp.jtagState

def secStatus : CmdSpec where
  opcode := 0x0E01
  len := lenIs 0
  run := fun h _ =>
    let o := h.sto.otp
    { hub := h, words := [wd (h.jtagState + flag o.keyHash0.isSome 2 + flag o.keyHash1.isSome 3 + flag o.revoked0 4 + flag o.jtagKey.isSome 6),
                          wd o.rollback, wd h.sto.jtagFails] }

/-- A fresh random draw of 16 bytes. -/
def Hub.draw (h : Hub) : List Byte × Hub := (Config.random h.free, { h with free := h.free + 1 })

def secJtagChallenge : CmdSpec where
  opcode := 0x0E02
  len := lenIs 0
  run := fun h _ =>
    let d := h.draw
    { hub := { d.2 with sto := { d.2.sto with nonce := some (d.1, h.xoCycles) } }
      words := wordsOf 4 d.1 ++ [lo32 Config.serial.toNat, hi32 Config.serial.toNat] }

/-- The MAC that SEC_JTAG_UNLOCK must carry, when a nonce and a key are there (R559). -/
def Hub.jtagMac (h : Hub) : Option (List Byte) :=
  match h.sto.nonce, h.sto.otp.jtagKey with
  | some (n, t), some k =>
    if h.xoCycles ≤ t + 60 * 49152000 then
      some (mac16 (bytesOf k) ([0x4A, 0x54, 0x41, 0x47] ++ leBytes 8 Config.serial.toNat ++ n))
    else none
  | _, _ => none

def secJtagUnlock : CmdSpec where
  opcode := 0x0E03
  len := lenIs 4
  run := fun h c =>
    let ok := h.jtagState != 3 && decide (h.sto.jtagFails < 3) && h.jtagMac == some (bytesOf c.pl)
    if ok then { hub := ({ h with sto := { h.sto with unlocked := true } }).raise 18 [] }
    else { hub := { h with sto := { h.sto with jtagFails := h.sto.jtagFails + 1 } }, status := NOT_PERMITTED }

/-- Why an OTP programming cannot be done: the field is programmed or a bit would go from 1 to 0 (R560). -/
def Otp.refuses (o : Otp) (f : Nat) (d : List Word) : Bool :=
  if f = 0 then o.keyHash0.isSome else if f = 1 then o.keyHash1.isSome
  else if f = 2 then o.revoked0 || o.keyHash1.isNone
  else if f = 3 then o.jtagKey.isSome
  else if f = 4 then !(fld (pw d 0) 1 0 == 3 || (fld (pw d 0) 1 0 == 1 && o.jtagState ≤ 1))
  else o.subsys.isSome
/-- The field programmed. -/
def Otp.program (o : Otp) (f : Nat) (d : List Word) : Otp :=
  if f = 0 then { o with keyHash0 := some d } else if f = 1 then { o with keyHash1 := some d }
  else if f = 2 then { o with revoked0 := true } else if f = 3 then { o with jtagKey := some (d.take 4) }
  else if f = 4 then { o with jtagState := fld (pw d 0) 1 0 } else { o with subsys := some (pw d 0) }

def secOtpProgram : CmdSpec where
  opcode := 0x0E04
  len := lenIs 10
  bad := fun _ p => badIf !(rsv (pw p 0) 7 && inR (fld (pw p 0) 2 0) 0 5)
  long := fun _ _ => true
  run := fun h c =>
    let f := fld (pw c.pl 0) 2 0
    let d := c.pl.drop 2
    if pw c.pl 1 ≠ 0x0A5C0E04 then { hub := h.complete c.handle NOT_PERMITTED [] }
    else if h.sto.otpJobs.isEmpty && h.sto.otp.refuses f d then { hub := h.complete c.handle BAD_PARAM [] }
    else { hub := { h with sto := { h.sto with otpJobs := h.sto.otpJobs ++ [.field f d c.handle] } } }

/-! ## Firmware (R542 to R545, R561 to R563) -/

/-- FW_VERIFY is programming. -/
def Hub.fwBusy (h : Hub) : Bool := h.sto.jobs.any fun j => match j with | .image _ _ _ => true | _ => false

def fwWrite : CmdSpec where
  opcode := 0x0F01
  len := fun p => p.length == fld (pw p 0) 31 24 + 2
  bad := fun _ p => badIf !(rsv (pw p 0) 0xFF000000 && inR (fld (pw p 0) 31 24) 1 120 &&
    decide ((pw p 1).toNat + fld (pw p 0) 31 24 ≤ 196656))
  refuse := fun h _ => refuseIf h.fwBusy BAD_STATE
  run := fun h c => { hub := { h with sto := { h.sto with fwStage := h.sto.fwStage.puts (pw c.pl 1).toNat (c.pl.drop 2) } } }

/-- Header byte `i` on of the staged image: `n` bytes. -/
def Hub.stageBytes (h : Hub) (i n : Nat) : List Byte := bytesOf (h.sto.fwStage.gets (i / 4) (n / 4))
/-- The staged header as a slot's data (R543). -/
def Hub.stageSlot (h : Hub) : Slot :=
  { valid := true, release := h.sto.fwStage.get 2, levels := h.sto.fwStage.get 4, secVer := fld (h.sto.fwStage.get 1) 23 16 }

/-- The reason of FW_VERIFY before programming (R542, R543, R562). -/
def Hub.verifyReason (h : Hub) : Nat :=
  let w := h.sto.fwStage
  let o := h.sto.otp
  let len := (w.get 3).toNat
  let hash := Config.sha256 (h.stageBytes 64 64)
  let keyOk := (o.keyHash0.map bytesOf == some hash && !o.revoked0) || o.keyHash1.map bytesOf == some hash
  let digest := Config.sha256 (h.stageBytes 0 128 ++ h.stageBytes 192 len)
  if w.get 0 ≠ 0x4B4C4E31 ∨ fld (w.get 1) 15 0 ≠ 1 then 1
  else if len % 4 ≠ 0 ∨ len < 4 ∨ 786432 < len then 2
  else if !keyOk then 3
  else if !Config.ecdsa (h.stageBytes 64 64) digest (h.stageBytes 128 64) then 4
  else if fld (w.get 1) 23 16 < o.rollback then 5 else 0

/-- Completion result words of FW_VERIFY (R562). -/
def verifyResult (reason : Nat) (b : Bool) (i : Slot) : List Word :=
  [wd reason, wd (flag b 0), i.release, i.levels, wd i.secVer]

def Hub.setSlot (h : Hub) (b : Bool) (i : Slot) : Hub :=
  { h with sto := if b then { h.sto with slotB := i } else { h.sto with slotA := i } }

def fwVerify : CmdSpec where
  opcode := 0x0F02
  len := lenIs 1
  bad := fun h p => badIf !(rsv (pw p 0) (if h.sys.recovery then 1 else 0))
  long := fun _ _ => true
  run := fun h c =>
    let b := if h.sys.recovery then bit (pw c.pl 0) 0 else !h.sys.slotB
    let r := h.verifyReason
    let i := h.stageSlot
    if r ≠ 0 then { hub := (h.raise 16 []).complete c.handle HW_FAULT (verifyResult r b i) }
    else
      let h := h.setSlot b {}
      { hub := { h with sto := { h.sto with jobs := h.sto.jobs ++ [.image b i c.handle] } } }

/-- Completion result words of FW_SWITCH (R563). -/
def Hub.switchResult (h : Hub) (run : Bool) : List Word :=
  [wd (flag run 0 + flag h.sto.defaultB 1), wd h.sto.otp.rollback]

def fwSwitch : CmdSpec where
  opcode := 0x0F03
  len := lenIs 2
  bad := fun _ p => badIf !(rsv (pw p 0) 3 && inR (fld (pw p 0) 1 0) 0 2 &&
    inR (pw p 1).toNat 60 86400)
  refuse := fun h c =>
    let m := fld (pw c.pl 0) 1 0
    if h.sys.recovery then refuseIf (m != 1 || h.sto.recVerified.isNone) BAD_STATE
    else refuseIf ((m == 0 && !(h.slot !h.sys.slotB).valid) || (m != 0 && h.sys.slotB == h.sto.defaultB)) BAD_STATE
  long := fun _ _ => true
  run := fun h c =>
    let m := fld (pw c.pl 0) 1 0
    let h := { h with sto := { h.sto with trialFailed := false } }
    if m = 1 then
      let b := if h.sys.recovery then h.sto.recVerified.getD false else h.sys.slotB
      { hub := { h with sto := { h.sto with jobs := h.sto.jobs ++ [.bootCtl 1 b 0 c.handle] } } }
    else
      let b := if m = 0 then !h.sys.slotB else h.sto.defaultB
      let h := h.complete c.handle DONE (h.switchResult b)
      let t := if m = 0 then some (pw c.pl 1).toNat else none
      { hub := ({ h with sys := { h.sys with pendingReset := some (.slotSwitch b t), pendingMb := 8, resetDue := h.xoCycles + 49152 } }).raise 15 [] }

/-! ## Flash, DRAM and self-tests (R553, R554, R564 to R566) -/

def flashStatus : CmdSpec where
  opcode := 0x0F04
  len := lenIs 0
  run := fun h _ =>
    let s := h.sto
    let v := s.saved.getD {}
    { hub := h
      words := [wd (flag s.saveDisabled 0 + s.spares * 256 + flag s.slotA.valid 16 + flag s.slotB.valid 17 + flag s.defaultB 18),
                wd v.seq] ++ tWords v.t ++ [wd (s.erases.foldl (fun a e => max a e.2) 0), wd s.pfwCount, s.slotA.release, s.slotB.release] }

def dramRetiredRead : CmdSpec where
  opcode := 0x0F05
  len := lenIs 1
  bad := fun _ p => badIf !(rsv (pw p 0) 0xFF0FFFFF && inR (fld (pw p 0) 31 24) 1 120)
  run := fun h c =>
    let l := h.retiredPages
    { hub := h, words := wd l.length :: ((l.drop (fld (pw c.pl 0) 19 0)).take (fld (pw c.pl 0) 31 24)).map wd }

def selftest : CmdSpec where
  opcode := 0x0F06
  len := lenIs 1
  bad := fun _ p => badIf !(rsv (pw p 0) 0x1F)
  long := fun _ _ => true
  run := fun h c => { hub := { h with sto := { h.sto with selftests := h.sto.selftests ++ [(c.handle, fld (pw c.pl 0) 4 0)] } } }

/-- The oldest SELFTEST ends with the tests that failed, the DRAM among them when its training failed (R555, R566). -/
def selftestDone (failed : Nat) (h : Hub) : Hub :=
  match h.sto.selftests with
  | (hd, m) :: r =>
    let f := (failed ||| (if h.jrn.total = 0 then 16 else 0)) &&& m
    ({ h with sto := { h.sto with selftests := r } }).complete hd (if f = 0 then DONE else HW_FAULT) [wd f]
  | [] => h

/-- A COMMIT completes: the boot restarts from step 4 in recovery (R563). -/
def Hub.commitDone (h : Hub) (b : Bool) (hd : Nat) : Hub :=
  let h := (h.complete hd DONE (h.switchResult b)).raise 15 []
  if h.sys.recovery then { h with sys := { h.sys with pendingReset := some .bootRestart, pendingMb := 8 } } else h

/-- The sector that a saved-state write takes next: 64 in the ring (R552, R553). -/
def StoSt.sector (s : StoSt) : Nat := s.nextSector % 64

/-- The oldest flash operation ends; `ok` when its read-back is correct. The spare that takes a retired sector's place has not been erased
(R553, R554, R562, R563). -/
def flashOperationDone (ok : Bool) (h : Hub) : Hub :=
  match h.sto.jobs with
  | [] => h
  | .save s hd :: r =>
    let sec := h.sto.sector
    let erases := h.sto.erases.upd sec (· + 1)
    if ok then
      let s := { s with seq := h.sto.saveSeq + 1, sector := sec }
      let h := { h with sto := { h.sto with jobs := r, saved := some s, saveSeq := s.seq, nextSector := h.sto.nextSector + 1, erases := erases } }
      match hd with
      | some hd => h.complete hd DONE ([wd sec, wd s.seq] ++ tWords s.t)
      | none => h
    else if h.sto.spares > 0 then
      ({ h with sto := { h.sto with spares := h.sto.spares - 1, erases := h.sto.erases.put sec 0 } }).raise 14 []
    else
      let hs := h.sto.jobs.filterMap fun j => match j with | .save _ hd => hd | _ => none
      let rest := h.sto.jobs.filter fun j => match j with | .save _ _ => false | _ => true
      let h := ({ h with sto := { h.sto with jobs := rest, saveDisabled := true, erases := erases } }).raise 13 []
      hs.foldl (fun h hd => h.complete hd HW_FAULT []) h
  | .image b i hd :: r =>
    let h := { h with sto := { h.sto with jobs := r } }
    if ok then
      let h := h.setSlot b i
      let h := if h.sys.recovery then { h with sto := { h.sto with recVerified := some b } } else h
      h.complete hd DONE (verifyResult 0 b i)
    else (h.raise 16 []).complete hd HW_FAULT (verifyResult 6 b i)
  | .bootCtl _ b _ hd :: r =>
    let h := { h with sto := { h.sto with jobs := r } }
    if ok then
      let h := { h with sto := { h.sto with defaultB := b, trial := false, trialArmed := false } }
      let v := (h.slot b).secVer
      if ¬ h.sys.recovery ∧ h.sto.otp.rollback < v then
        { h with sto := { h.sto with otpJobs := h.sto.otpJobs ++ [.counter v b hd] } }
      else h.commitDone b hd
    else h.complete hd HW_FAULT []

/-- SAVE_INT expires and a saved state is written (R553, R557). -/
def stateSaveTimer (h : Hub) : Hub :=
  if h.cfg.saveInt = 0 || !h.passed (some h.sto.saveAt) (h.cfg.saveInt * 60 * 49152000) then h
  else { h.saveState none with sto := { (h.saveState none).sto with saveAt := h.xoCycles } }

end Sys2Proof.Machine
end

