-- ==== Sys2Proof/Machine/Action.lean ====
section
/-!
DEFINITION. Action outputs (chapter 07).
-/
namespace Sys2Proof.Machine

def Hub.actRule (h : Hub) (r : Nat) : ActRule := h.act.rules.get r
def Hub.actRuleCfg (h : Hub) (r : Nat) : ActRuleCfg := h.cfg.act.rules.get r
def Hub.actPin (h : Hub) (k : Nat) : PinCond := h.act.pins.get k
def Hub.setRule (h : Hub) (r : Nat) (x : ActRule) : Hub := { h with act := { h.act with rules := h.act.rules.put r x } }
def Hub.setPin (h : Hub) (k : Nat) (x : PinCond) : Hub := { h with act := { h.act with pins := h.act.pins.put k x } }

/-! ## Records (R213) -/

/-- The journal can land: the hub runs, its clocks run, and it has a journal. -/
def Hub.canLand (h : Hub) : Bool := h.sys.power == .run && !h.clk.held && decide (0 < h.jrn.total)

/-- The ACTION record of a pin change. -/
def Hub.landChange (h : Hub) (c : PinChange) : Hub :=
  h.landEvent 0x21 c.epoch c.t (b1 c.pin ++ b1 c.change ++ b1 c.rule ++ b1 c.cause ++ b1 c.unit ++ b1 c.flags ++ bT c.t ++ bT c.cross)
/-- A pin change lands, or waits until landing resumes. -/
def Hub.pinChange (h : Hub) (c : PinChange) : Hub :=
  if h.canLand then h.landChange c else { h with act := { h.act with unlanded := h.act.unlanded ++ [c] } }
/-- The changes that waited land. -/
def Hub.landUnlanded (h : Hub) : Hub :=
  h.act.unlanded.foldl (fun h c => h.landChange c) { h with act := { h.act with unlanded := [] } }
/-- A change that is not landed reaches the trouble log (R213, R507). -/
def Hub.logChange (h : Hub) (c : PinChange) : Hub :=
  h.logNow 0xF2 2 (b1 c.pin ++ b1 c.change ++ b1 c.rule ++ b1 c.cause ++ b1 c.unit ++ b1 c.flags ++ bT c.t)

/-- A pin change at `t` (R201). -/
def Hub.mkChange (h : Hub) (t : T64) (pin change rule cause unit : Nat) : PinChange :=
  { pin := pin, change := change, rule := rule, cause := cause, unit := unit, flags := 0, t := t, epoch := h.tb.epoch, cross := 0 }

/-! ## Assertion and release (R202 to R206) -/

/-- An armed rule holds the pin asserted. -/
def Hub.pinHeld (h : Hub) (k : Nat) : Bool :=
  (List.range 32).any fun r => (h.actRule r).armed && (h.actRule r).asserted && (h.actRuleCfg r).pin == k

/-- An assertion waits for the crossing instant of the trigger of unit `u` detected at `det` (R170, R213). -/
def Hub.awaitChange (h : Hub) (u : Nat) (det : T64) (c : PinChange) : Hub :=
  { h with act := { h.act with await := h.act.await ++ [(u, det, c)] } }

/-- Rule `r` acts on the trigger of unit `u` detected at `det`; `prov` says that it is provisional. -/
def Hub.actAssert (h : Hub) (r u : Nat) (det : T64) (prov : Bool) : Hub :=
  let x := h.actRule r
  let k := (h.actRuleCfg r).pin
  if h.actPin k = .failSafe then h
  else
    let c := h.mkChange h.sampleT k 0 r 0 u
    let rises := h.actPin k = .idle
    let x := { x with asserted := true, latest := h.tb.cycles, unlanded := false, cause := if prov then some (u, det) else none }
    let h := h.setPin k .asserted
    if prov then h.setRule r { x with early := x.early ++ [{ unit := u, tp := det, waiting := if rises then [{ c with flags := 1 }] else [] }] }
    else
      let h := h.setRule r x
      if rises then h.awaitChange u det c else h

/-- Rule `r` stops holding its pin at `t`. The end of a pulse is a change of the latest trigger that the rule acted on: it waits while that
trigger is unresolved, and does not land when it was cancelled (R213). -/
def Hub.actRelease (h : Hub) (r cause : Nat) (t : T64) : Hub :=
  let x := h.actRule r
  let k := (h.actRuleCfg r).pin
  let h := h.setRule r { x with asserted := false }
  if x.asserted && h.actPin k == .asserted && !h.pinHeld k then
    let h := h.setPin k .idle
    let c := h.mkChange t k 1 r cause 0xFF
    if cause ≠ 1 then h.pinChange c
    else if x.unlanded then h.logChange c
    else match x.cause with
      | some s =>
        let wait := fun (e : EarlyAct) => if (e.unit, e.tp) = s then { e with waiting := e.waiting ++ [c] } else e
        h.setRule r { x with asserted := false, early := x.early.map wait }
      | none => h.pinChange c
  else h

/-- A provisional trigger of PEPPER unit `u` with t_p (R203). -/
def Hub.actProvisional (h : Hub) (u : Nat) (tp : T64) : Hub :=
  (List.range 32).foldl (fun h r =>
    let c := h.actRuleCfg r
    if (h.actRule r).armed && c.early && c.mask.testBit u then h.actAssert r u tp true else h) h

/-- A confirmed trigger of unit `u`, named by `det`; `prov` when it was provisional, `det` being its t_p (R203, R213). -/
def Hub.actConfirm (h : Hub) (u : Nat) (det : T64) (prov : Bool) : Hub :=
  (List.range 32).foldl (fun h r =>
    let c := h.actRuleCfg r
    let x := h.actRule r
    let mine := fun (e : EarlyAct) => prov && e.unit == u && e.tp == det
    match x.early.find? mine with
    | some e =>
      let h := h.setRule r { x with early := x.early.filter fun e => !mine e, cause := if x.cause = some (u, det) then none else x.cause }
      e.waiting.foldl (fun h w => if w.change = 0 then h.awaitChange u det w else h.pinChange w) h
    | none => if x.armed && c.mask.testBit u && (!c.early || !prov) then h.actAssert r u det false else h) h

/-- The crossing instant of a trigger is known, and the assertions that wait for it land (R213). -/
def Hub.actCrossed (h : Hub) (u : Nat) (det cross : T64) : Hub :=
  let mine := fun (w : Nat × T64 × PinChange) => w.1 == u && w.2.1 == det
  let ws := h.act.await.filter mine
  let h := { h with act := { h.act with await := h.act.await.filter fun w => !mine w } }
  ws.foldl (fun h w => h.pinChange { w.2.2 with cross := cross }) h

/-- The provisional trigger of unit `u` with t_p is cancelled (R206, R213). -/
def Hub.actCancel (h : Hub) (u : Nat) (tp : T64) : Hub :=
  (List.range 32).foldl (fun h r =>
    let x := h.actRule r
    let mine := fun (e : EarlyAct) => e.unit == u && e.tp == tp
    match x.early.find? mine with
    | some e =>
      let last := x.cause == some (u, tp)
      let x := { x with early := x.early.filter fun e => !mine e, cancelled := sat32 (x.cancelled + 1) }
      let h := h.setRule r { x with unlanded := x.unlanded || last, cause := if last then none else x.cause }
      (e.waiting.foldl (fun h w => h.logChange w) h).raise 48 (b4 r ++ b1 u ++ bT tp)
    | none => h) h

/-- The TIME cycles that PULSE_W or FOLLOW_MIN of a rule takes have passed since its latest trigger, those of a hold apart (R204, R212). -/
def Hub.widthOver (h : Hub) (r : Nat) : Bool :=
  !h.clk.held && decide ((h.actRule r).latest + ceilDiv ((h.actRuleCfg r).width * 3072) 25 ≤ h.tb.cycles)

/-- FOLLOW rules whose conditions of R204 hold release their pins; `holds u` says that unit `u` still holds. -/
def Hub.actFollow (h : Hub) (holds : Nat → Bool) : Hub :=
  (List.range 32).foldl (fun h r =>
    let c := h.actRuleCfg r
    let x := h.actRule r
    if c.mode = 2 ∧ x.armed ∧ x.asserted ∧ h.widthOver r ∧ (bitsOf c.mask 64).all (fun u => !holds u) then h.actRelease r 2 h.sampleT else h) h

/-! ## FAIL-SAFE (R208 to R211) -/

/-- The OTP code of a pin (R209). -/
def Otp.code (o : Otp) (k : Nat) : Nat := fld o.actCodes (2 * k + 1) (2 * k)
/-- A pin enters FAIL-SAFE, with the OTP code as it stands; every rule on it starts released (R211, R219). -/
def Hub.pinFailSafe (h : Hub) (k cause : Nat) : Hub :=
  if h.actPin k = .failSafe then h
  else
    let h := (List.range 32).foldl (fun h r =>
      if (h.actRuleCfg r).pin = k ∧ (h.actRule r).asserted then h.setRule r { h.actRule r with asserted := false } else h) h
    let h := { h with act := { h.act with codes := h.act.codes.put k (h.sto.otp.code k) } }
    (h.setPin k .failSafe).pinChange (h.mkChange h.sampleT k 2 0xFF cause 0xFF)
/-- Every pin enters FAIL-SAFE (R210). -/
def Hub.failSafeAll (h : Hub) (cause : Nat) : Hub := (List.range 16).foldl (fun h k => h.pinFailSafe k cause) h

/-- A cause of R210 still holds: a failed XO, RC or AON, or STOPPED. -/
def Hub.failCause (h : Hub) : Bool :=
  h.clk.stopped || (h.clk.mon.get 0).failed || (h.clk.mon.get 1).failed || (h.clk.mon.get 2).failed

/-- The level at which a pin is driven: by its fail-safe code, or active and idle by POL, an open-drain pin never being driven high
(R200, R209, R215). -/
def Hub.actLevel (h : Hub) (k : Nat) : PinLevel :=
  let c := h.cfg.act.pins.get k
  let up : PinLevel := if c.drive then .highZ else .high
  match h.actPin k with
  | .failSafe => if h.act.codes.get k = 1 then .low else if h.act.codes.get k = 2 then .high else .highZ
  | .asserted => if c.pol then .low else up
  | .idle => if c.pol then up else .low

/-- Rules with DEADMAN, and whether one of them is armed, so that the timer runs (R208). -/
def Hub.deadmanRules (h : Hub) : List Nat := (List.range 32).filter fun r => (h.actRuleCfg r).deadman
def Hub.deadmanRuns (h : Hub) : Bool := h.deadmanRules.any fun r => (h.actRule r).armed
/-- Milliseconds left on the deadman timer: none from its expiry to the next ACT_ARM, which reloads it (R208, R218). -/
def Hub.deadmanLeft (h : Hub) : Nat :=
  if h.act.deadmanOut then 0
  else if h.deadmanRuns then h.act.deadmanT - (h.xoCycles - h.act.deadmanAt) / 49152 else h.act.deadmanT

/-- The deadman timer expires, DEADMAN_T on TB_LOCAL after its last reload (R208). -/
def actDeadmanExpiry (h : Hub) : Hub :=
  let rs := h.deadmanRules
  if !h.deadmanRuns || h.act.deadmanT == 0 || decide (h.xoCycles < h.act.deadmanAt + h.act.deadmanT * 49152) then h
  else
    let pins := rs.map fun r => (h.actRuleCfg r).pin
    let h := pins.foldl (fun h k => h.pinFailSafe k 4) h
    let h := rs.foldl (fun h r => h.setRule r { h.actRule r with armed := false, asserted := false }) h
    ({ h with act := { h.act with deadmanOut := true } }).raise 49 []

/-- A PULSE rule's width ends (R204). -/
def actPulseEnd (r : Nat) (h : Hub) : Hub :=
  if (h.actRuleCfg r).mode = 1 ∧ (h.actRule r).armed ∧ h.widthOver r then h.actRelease r 1 h.sampleT else h

/-! ## Commands (R214 to R219) -/

def actRuleSet : CmdSpec where
  opcode := 0x0C01
  len := lenIs 4
  bad := fun _ p =>
    let w := pw p 0
    let mode := fld w 29 28
    badIf !(rsv w 0xF0000F1F && decide (mode ≤ 2) && !(bit w 31 && mode == 2) &&
      (if mode = 0 then pw p 3 == 0 else inR (pw p 3).toNat 1 60000000))
  refuse := fun h c => refuseIf (h.actRule (fld (pw c.pl 0) 4 0)).armed BAD_STATE
  block := true
  run := fun h c =>
    let w := pw c.pl 0
    let k : ActRuleCfg := { early := bit w 31, deadman := bit w 30, mode := fld w 29 28, pin := fld w 11 8,
                            mask := mask64 (pw c.pl 1) (pw c.pl 2), width := (pw c.pl 3).toNat }
    { hub := { h with cfg := { h.cfg with act := { h.cfg.act with rules := h.cfg.act.rules.put (fld w 4 0) k } } } }

def actPinSet : CmdSpec where
  opcode := 0x0C02
  len := lenIs 1
  bad := fun _ p => badIf !(rsv (pw p 0) 0x3F)
  refuse := fun h c => refuseIf ((List.range 32).any fun r => (h.actRule r).armed && (h.actRuleCfg r).pin == fld (pw c.pl 0) 3 0) BAD_STATE
  block := true
  run := fun h c =>
    let w := pw c.pl 0
    { hub := { h with cfg := { h.cfg with act := { h.cfg.act with pins := h.cfg.act.pins.put (fld w 3 0) { drive := bit w 5, pol := bit w 4 } } } } }

/-- A new DEADMAN_T, or the one in force (R216). -/
def Hub.newDeadman (h : Hub) (p : List Word) : Nat := if pw p 3 = 0 then h.act.deadmanT else (pw p 3).toNat
/-- A rule with DEADMAN would be armed after the command. -/
def Hub.deadmanAfter (h : Hub) (p : List Word) : Bool :=
  (List.range 32).any fun r => (h.actRuleCfg r).deadman && (bit (pw p 0) r || ((h.actRule r).armed && !bit (pw p 1) r))

/-- An armed rule would name the pin after ACT_ARM. -/
def Hub.namedAfter (h : Hub) (p : List Word) (k : Nat) : Bool :=
  (List.range 32).any fun r => (h.actRuleCfg r).pin == k && (bit (pw p 0) r || ((h.actRule r).armed && !bit (pw p 1) r))
/-- Pins in FAIL-SAFE that ACT_ARM would release, or whose rules it would arm, while they must stay there: a cause of R210 holds and an
armed rule names the pin (R211), or the hub is STOPPED and cannot drive it (R524). -/
def Hub.mustStay (h : Hub) (p : List Word) : List Nat :=
  let pins := bitsOf (pw p 2).toNat 16 ++ ((bitsOf (pw p 0).toNat 32).map fun r => (h.actRuleCfg r).pin)
  pins.filter fun k => h.actPin k == .failSafe && (h.clk.stopped || (h.failCause && h.namedAfter p k))

def actArm : CmdSpec where
  opcode := 0x0C03
  len := lenIs 4
  bad := fun h p => badIf !(rsv (pw p 2) 0xFFFF && (pw p 0 &&& pw p 1) == 0 && (pw p 3 == 0 || inR (pw p 3).toNat 200 600000) &&
    !(h.deadmanAfter p && h.newDeadman p == 0))
  refuse := fun h c =>
    if (h.mustStay c.pl).isEmpty then none
    else some (BAD_STATE, [wd (maskOf ((List.range 16).filter fun k => h.actPin k == .failSafe))])
  run := fun h c =>
    let p := c.pl
    let t := cycT (h.tb.total + 1)
    let h := (bitsOf (pw p 1).toNat 32).foldl (fun h r =>
      let h := h.actRelease r 7 t
      h.setRule r { h.actRule r with armed := false }) h
    let h := (bitsOf (pw p 2).toNat 16).foldl (fun h k =>
      if h.actPin k = .failSafe then (h.setPin k .idle).pinChange (h.mkChange t k 3 0xFF 7 0xFF) else h) h
    let h := (bitsOf (pw p 0).toNat 32).foldl (fun h r => h.setRule r { h.actRule r with armed := true }) h
    { hub := { h with act := { h.act with deadmanT := h.newDeadman p, deadmanAt := h.xoCycles, deadmanOut := false } } }

/-- ACT_CLEAR; a rule that a trigger asserts in the same TIME cycle stays asserted (R205, R217). -/
def actClear : CmdSpec where
  opcode := 0x0C04
  len := lenIs 1
  block := true
  run := fun h c =>
    let clears := fun (h : Hub) (r : Nat) => (h.actRuleCfg r).mode == 0 && (h.actRule r).armed && (h.actRule r).latest != h.tb.cycles
    { hub := (bitsOf (pw c.pl 0).toNat 32).foldl (fun h r => if clears h r then h.actRelease r 3 h.sampleT else h) h }

def actStatus : CmdSpec where
  opcode := 0x0C05
  len := lenIs 0
  run := fun h _ =>
    let pins := fun (x : PinCond) => maskOf ((List.range 16).filter fun k => h.actPin k == x)
    { hub := h
      words := [wd (pins .asserted + pins .failSafe * 65536), wd (maskOf ((List.range 32).filter fun r => (h.actRule r).armed)),
                wd h.deadmanLeft] ++ (List.range 32).map (fun r => wd (h.actRule r).cancelled) ++ [h.sto.otp.actCodes] }

/-- The codes of a job that programs them. -/
def OtpJob.actCodes : OtpJob → Word
  | .failSafe code _ _ => wd code
  | _ => 0
/-- The fail-safe codes that stand once the jobs under way have programmed theirs: a bit never goes from 1 to 0 (R209, R219). -/
def Hub.actCodesDue (h : Hub) : Word := h.sto.otpJobs.foldl (fun (w : Word) j => w ||| j.actCodes) h.sto.otp.actCodes
def actFailsafeProgram : CmdSpec where
  opcode := 0x0C06
  len := lenIs 2
  refuse := fun h c =>
    if pw c.pl 1 ≠ 0x0A5C0C06 then some (NOT_PERMITTED, [])
    else if h.actCodesDue &&& ~~~(pw c.pl 0) ≠ 0 then some (BAD_PARAM, []) else none
  run := fun h c =>
    { hub := { h with sto := { h.sto with otpJobs := h.sto.otpJobs ++ [.failSafe (pw c.pl 0).toNat (some c.mb) c.tag] } }, wait := true }

/-- The oldest OTP programming ends; `ok` when its read-back is correct (R219, R560, R563). A field that an earlier programming has
meanwhile programmed is refused at its turn. -/
def otpProgramDone (ok : Bool) (h : Hub) : Hub :=
  match h.sto.otpJobs with
  | [] => h
  | .field f d hd :: r =>
    let h := { h with sto := { h.sto with otpJobs := r } }
    if h.sto.otp.refuses f d then h.complete hd BAD_PARAM []
    else if ok then ({ h with sto := { h.sto with otp := h.sto.otp.program f d } }).complete hd DONE []
    else h.complete hd HW_FAULT []
  | .failSafe code mb tag :: r =>
    let h := { h with sto := { h.sto with otpJobs := r } }
    let st := if ok then DONE else HW_FAULT
    let h := if ok then { h with sto := { h.sto with otp := { h.sto.otp with actCodes := h.sto.otp.actCodes ||| wd code } } } else h
    match mb with
    | some mb => if (h.host.mbs.get mb).state = .busy then (h.noteTag mb st tag).respond mb st 0 tag [] (bit ((h.host.mbs.get mb).cmd.get 0) 16) else h
    | none => h
  | .counter v b hd :: r =>
    let h := { h with sto := { h.sto with otpJobs := r } }
    if ok then ({ h with sto := { h.sto with otp := { h.sto.otp with rollback := v } } }).commitDone b hd
    else h.complete hd HW_FAULT []

end Sys2Proof.Machine
end

