-- ==== Sys2Proof/Machine/Filter.lean ====
section
/-!
DEFINITION. Scan timing (R57 to R61), the geometry of a channel's chain (R115 to R117, R129, R133 to R135), bank swaps
(R122 to R125), CHANNEL DESCRIPTOR records (R314) and the filter commands (R155 to R161).
-/
namespace Sys2Proof.Machine

/-! ## Scan timing (R57 to R61) -/

def Hub.scanCfg (h : Hub) (m : Nat) : ScanCfg := h.cfg.fe.scan.get m
/-- The setting that an excitation output has in force. -/
def Hub.excNow (h : Hub) (x : Nat) : ExcCfg := (h.fe.exc.get x).drive
/-- A position bound to output `x` is visited in two halves by multiplexer `m` (R57, R65). A FE_EXC_SET that comes after the scan list
lengthens the visits when it takes effect, though the list may then exceed its period: R61 holds for FE_SCAN_SET, and no rule refuses
the FE_EXC_SET (DESIGN CHOICE, log entry 95). -/
def Hub.chopped (h : Hub) (m x : Nat) : Bool :=
  decide (x < 8) && (h.excNow (x / 2 * 2)).chop && (h.excNow (x / 2 * 2)).mode != 0 && (h.excNow (x / 2 * 2)).src == m
/-- Length of a visit in CONV cycles (R57). -/
def visitLen (chop : Bool) (e : ScanEntry) : Nat := (if chop then 2 else 1) * (8 * (e.settle + 1) + 25 * 2 ^ e.k)
/-- Hold offset of a visit that starts at CONV cycle `s`, in half CONV cycles (R58). -/
def visitHold (chop : Bool) (e : ScanEntry) (s : Nat) : Nat :=
  let d := e.settle + 1
  let k := 2 ^ e.k
  2 * s + 16 * d + 25 * (k - 1) + if chop then 8 * d + 25 * k else 0
/-- Entries with their start cycles. -/
def scanStarts (chop : Nat → Bool) : List ScanEntry → Nat → List (ScanEntry × Nat)
  | [], _ => []
  | e :: es, s => (e, s) :: scanStarts chop es (s + visitLen (chop e.exc) e)
/-- CONV cycles that the list and the reference visit need in a period (R61). -/
def scanNeed (chop : Nat → Bool) (list : List ScanEntry) (ref : ScanEntry) : Nat :=
  list.foldl (fun a e => a + visitLen (chop e.exc) e) 0 + if ref.en then visitLen (chop ref.exc) ref else 0
/-- The entry of a scan channel and its hold offset. -/
def Hub.scanEntry (h : Hub) (ch : Nat) : Option (ScanEntry × Nat) :=
  let m := (ch - 64) / 8
  let chop := h.chopped m
  ((scanStarts chop (h.scanCfg m).list 0).find? fun e => e.1.pos == (ch - 64) % 8).map fun e => (e.1, visitHold (chop e.1.exc) e.1 e.2)

/-! ## A channel's chain: rates and delays (R116, R133) -/

def isFast (ch : Nat) : Bool := decide (ch < 64)
def isScan (ch : Nat) : Bool := decide (64 ≤ ch) && decide (ch < 128)
def isRemote (ch : Nat) : Bool := decide (128 ≤ ch)

def Hub.chain (h : Hub) (ch : Nat) : Chain := h.flt.ch.get ch
def Hub.setChain (h : Hub) (ch : Nat) (c : Chain) : Hub := { h with flt := { h.flt with ch := h.flt.ch.put ch c } }
def Hub.chanCfg (h : Hub) (ch : Nat) : Option ChanCfg := h.cfg.flt.chans.get ch
def Hub.profile (h : Hub) (p : Nat) : Option Profile := h.cfg.flt.profiles.get p
def Hub.bank (h : Hub) (p b : Nat) : Bank := h.cfg.flt.banks.get (4 * p + b)
def Hub.activeBank (h : Hub) (p : Nat) : Nat := h.cfg.flt.active.get p
def Hub.slotCfg (h : Hub) (ch : Nat) : SlotCfg := h.cfg.slots.get (ch - 128)

/-- A channel is enabled (R137). -/
def Hub.chanEnabled (h : Hub) (ch : Nat) : Bool :=
  if isFast ch then (h.fe.fast.get ch).enable
  else if isScan ch then (h.scanEntry ch).isSome
  else (h.slotCfg ch).enable
/-- Input rate in Sa/s (R116). -/
def Hub.fIn (h : Hub) (ch : Nat) : Option Fr :=
  if isFast ch then some (fr 6144000 1)
  else if isScan ch then (h.scanEntry ch).map fun e => fr 8000 ((h.scanCfg ((ch - 64) / 8)).div * 2 ^ e.1.divSel)
  else if (h.slotCfg ch).enable then some (fr (h.slotCfg ch).rate 1) else none
/-- The offset σ of R133 in seconds. -/
def Hub.sigma (h : Hub) (ch : Nat) : Fr :=
  if isFast ch then fr 0 1
  else if isScan ch then fr (-((((h.scanEntry ch).map (·.2)).getD 0 : Nat) : Int)) (2 * 24576000)
  else fr (h.chain ch).d (65536 * max 1 (h.slotCfg ch).rate)

/-- H_C (R118). -/
def Profile.hc (p : Profile) : Nat := (p.n * (p.m - 1) + 1) / 2
/-- A two-tap average precedes the integrators (R118). -/
def Profile.twoTap (p : Profile) : Bool := p.n * (p.m - 1) % 2 == 1
/-- Inputs per FIR output. -/
def Profile.md (p : Profile) : Nat := p.m * if p.full then p.d else 1
/-- f_F (R116). -/
def Profile.fF (p : Profile) (fin : Fr) : Fr := fin.mul (fr 1 p.md)
def Profile.tauC (p : Profile) (fin : Fr) : Fr := (fr p.hc 1).div fin
def Profile.tauF (p : Profile) (fin : Fr) : Fr := if p.full then (fr ((p.l - 1) / 2 * p.m : Nat) 1).div fin else fr 0 1
def Profile.tauR (p : Profile) (fin : Fr) : Fr := if p.mode = 0 then fr 0 1 else (fr 8 1).div (p.fF fin)
/-- W (R133). -/
def Profile.w (p : Profile) (fin : Fr) : Fr := ((p.tauC fin).add (p.tauF fin)).add (p.tauR fin)
/-- Output rate; none in ORDER mode. -/
def Profile.rate (p : Profile) (fin : Fr) : Option Fr :=
  if p.mode = 3 then none else if p.mode = 2 then some (fr p.fOut 1) else some (p.fF fin)

/-- Ceiling of the binary logarithm. -/
def clog2 (n : Nat) : Nat := ((List.range 33).find? fun k => decide (n ≤ 2 ^ k)).getD 32
/-- The highest output rate of a channel (R116). -/
def maxRate (ch : Nat) : Nat := if isFast ch then 128000 else if isScan ch then 1000 else 64000
/-- A FIXED ratio lies from 0.25 to just below 65,536 (R129). -/
def Profile.ratioOk (p : Profile) (fin : Fr) : Bool :=
  p.mode != 2 || ((fr 1 4).le ((p.fF fin).div (fr p.fOut 1)) && ((p.fF fin).div (fr p.fOut 1)).lt (fr 65536 1))
/-- Limits of R116 and R129 that a profile alone decides. -/
def Profile.ok (p : Profile) : Bool :=
  inR p.n 3 5 && inR p.m 1 256 && inR p.xf 1 65535 &&
  (if p.full then inR p.l 3 255 && p.l % 2 == 1 else p.l == 0) &&
  (if p.mode = 2 then inR p.fOut 1 (if p.other then maxRate 128 else 128000) else p.fOut == 0) &&
  (if p.other then p.n * clog2 p.m ≤ 20
   else decide (4 ≤ p.m) && 6144000 % p.m == 0 && (!p.full || (p.fF (fr 6144000 1)).le (fr 768000 1)) &&
     p.ratioOk (fr 6144000 1) &&
     (match p.rate (fr 6144000 1) with | some r => r.le (fr 128000 1) | none => true))

/-- A profile suits a channel: its class, its output rate, and what its input rate decides when there is one (R116, R129, R135). A remote
channel whose slot is not enabled has no d and no rate: the spec does not say what FLT_CHAN_SET makes of BYPASS or of a FIXED ratio
there, and the model accepts them; R117 holds once the slot is enabled (DESIGN CHOICE, log entry 100). -/
def Hub.suits (h : Hub) (p : Profile) (ch : Nat) : Bool :=
  p.other == !isFast ch && !(p.mode == 3 && isScan ch) && !(p.mode == 0 && isScan ch) &&
  (p.mode != 2 || decide (p.fOut ≤ maxRate ch)) &&
  (match h.fIn ch with
   | none => true
   | some f => p.ratioOk f && (match p.rate f with | some r => r.le (fr (maxRate ch) 1) | none => true) &&
       !(p.mode == 0 && isRemote ch && (h.chain ch).d % 65536 != 0))

/-- A channel is configured as R117 requires. -/
def Hub.configured (h : Hub) (ch : Nat) : Bool :=
  match h.chanCfg ch with
  | none => false
  | some c => match h.profile c.profile with
    | none => false
    | some p => h.suits p ch && (!p.full || (h.bank c.profile (h.activeBank c.profile)).committed)
/-- A channel's profile and input rate, when it is configured and has an input. -/
def Hub.geo (h : Hub) (ch : Nat) : Option (ChanCfg × Profile × Fr) :=
  if (h.chain ch).was.isSome then
    match (h.chain ch).was with
    | some c => match h.profile c.profile, h.fIn ch with
      | some p, some f => some (c, p, f)
      | _, _ => none
    | none => none
  else if h.configured ch then
    match h.chanCfg ch with
    | some c => match h.profile c.profile, h.fIn ch with
      | some p, some f => some (c, p, f)
      | _, _ => none
    | none => none
  else none

/-- The channel belongs to a group that is acquiring. -/
def Hub.acquiring (h : Hub) (ch : Nat) : Bool :=
  let g := h.groupOf ch
  decide (g < 64) && (h.jrn.groups.get g).acquiring
def Hub.chg (h : Hub) (g : Nat) : ChgSt := h.jrn.groups.get g
def Hub.setChg (h : Hub) (g : Nat) (x : ChgSt) : Hub := { h with jrn := { h.jrn with groups := h.jrn.groups.put g x } }
/-- Epoch and timestamp order (R42). -/
def instLe (a b : Nat × T64) : Bool :=
  decide (0 < epochDiff a.1 b.1) || (a.1 == b.1 && tLe a.2 b.2)

/-- The group lands outputs: it is acquiring, or outputs before a stop are still to come (R301). -/
def ChgSt.lands (x : ChgSt) : Bool := x.acquiring || !x.past.isEmpty
/-- An instant lies at or after the group's start, or within a run that has stopped. -/
def ChgSt.covers (x : ChgSt) (epoch : Nat) (t : T64) : Bool :=
  (x.acquiring && instLe (x.startEpoch, x.start) (epoch, t)) ||
  x.past.any fun p => instLe p.1 (epoch, t) && !instLe p.2 (epoch, t)
/-- A stop lies after instant `a` and not after instant `b`, so that they belong to two runs. -/
def ChgSt.parted (x : ChgSt) (a b : Nat × T64) : Bool := x.past.any fun p => !instLe p.2 a && instLe p.2 b
def Hub.covers (h : Hub) (ch epoch : Nat) (t : T64) : Bool :=
  let g := h.groupOf ch
  decide (g < 64) && (h.chg g).covers epoch t

/-- The chain of some channel that names the profile runs. -/
def Hub.profileRuns (h : Hub) (p : Nat) : Bool :=
  h.flt.ch.any fun c => c.2.running && (h.chanCfg c.1).any (·.profile == p)
/-- Channels that name a profile. -/
def Hub.namers (h : Hub) (p : Nat) : List Nat := (h.cfg.flt.chans.filter fun c => c.2.any (·.profile == p)).map (·.1)
/-- Acquiring channels that name a profile. -/
def Hub.acquiringOf (h : Hub) (p : Nat) : List Nat :=
  (h.cfg.flt.chans.filter fun c => c.2.any (·.profile == p) && h.acquiring c.1).map (·.1)

/-- RATE_NUM and RATE_DEN of a channel (R307): scan rates as 8,000 over SCAN_DIV and dividers. -/
def Hub.rateWords (h : Hub) (ch : Nat) : Nat × Nat :=
  match h.geo ch with
  | none => (0, 0)
  | some (_, p, f) => match p.rate f with
    | none => (0, 0)
    | some r => if isScan ch && p.mode != 2 then (r.num.toNat, r.den)
        else let g := Nat.gcd r.num.toNat r.den
             (r.num.toNat / max 1 g, r.den / max 1 g)

/-! ## CHANNEL DESCRIPTOR (R314) -/

/-- DESIGN_ID of a bank. -/
def Bank.designId (b : Bank) : List Word := [b.image.get 4, b.image.get 5]

/-- The parameters that the newest change gives a channel (R147). -/
def Chain.newPar (k : Chain) : ChanPar := match k.parNext.getLast? with | some n => n.1 | none => k.par
/-- Lands a CHANNEL DESCRIPTOR with these parameters, bank and settings of CHAN_DESC_SET that holds from `t` (R314). A channel need not be
configured: what the spec then leaves open of its descriptor is free (R347). -/
def Hub.landDescPar (h : Hub) (ch bank : Nat) (t : T64) (k : ChanPar) (d : DescCfg) : Hub :=
  let free := fun (i : Nat) => (Config.descOpen ch h.jrn.nextTicket i).toNat
  let c := if (h.chain ch).was.isSome then (h.chain ch).was else h.chanCfg ch
  let head := match c with
    | some c => b1 c.profile ++ b1 bank
    | none => b1 (free 0 % 32) ++ b1 (free 1)
  let design := match c with | some c => bytesOf (h.bank c.profile bank).designId | none => b8 (free 2)
  let path := match h.geo ch with
    | some (_, p, f) => b8 (unsigned 64 ((p.w f).add (h.sigma ch)).t) ++ b4 (h.rateWords ch).1 ++ b4 (h.rateWords ch).2
    | none => b8 (free 3) ++ b4 (free 4) ++ b4 (free 5)
  let tbl := if k.linEn then (h.cfg.fe.lin.get k.linTable).xy else []
  let body := b2 (h.tag ch) ++ head ++ b4 (unsigned 32 k.gain) ++ b4 (unsigned 32 k.offset) ++ design ++ path ++ bT d.fullScale ++
    padTo 16 (bytesOf d.units) ++ b1 (if k.linEn then k.linTable else 0xFF) ++ b1 tbl.length ++ List.replicate 6 0 ++
    tbl.flatMap fun xy => b4 (unsigned 32 xy.1) ++ b4 (unsigned 32 xy.2)
  h.land 8 0 (h.groupOf ch) h.tb.epoch t body
/-- Lands a CHANNEL DESCRIPTOR that names a bank and holds from `t`. -/
def Hub.landDesc (h : Hub) (ch bank : Nat) (t : T64) : Hub :=
  h.landDescPar ch bank t (h.chain ch).newPar (h.cfg.jrn.desc.get ch)
/-- The bank a descriptor of a channel names now: the target once a swap has begun. -/
def Hub.descBank (h : Hub) (ch : Nat) : Nat :=
  match h.chanCfg ch with
  | none => 0
  | some c => match (h.flt.swap.get c.profile).cur with
    | some s => if s.started then s.target else h.activeBank c.profile
    | none => h.activeBank c.profile
/-- A descriptor for every channel of the groups named (R314). -/
def Hub.landDescs (h : Hub) (groups : List Nat) (t : T64) : Hub :=
  groups.foldl (fun h g => (h.grp g).chans.foldl (fun h ch => h.landDesc ch (h.descBank ch) t) h) h

/-! ## Bank swaps (R122, R123, R154) -/

def Hub.setSwap (h : Hub) (p : Nat) (s : Swap) : Hub := { h with flt := { h.flt with swap := h.flt.swap.put p s } }

/-- A request becomes current. -/
def Hub.swapBegin (h : Hub) (p b handle : Nat) : Swap :=
  { cur := some { source := h.activeBank p, target := b, handles := [handle], since := h.tb.strobes, started := false,
                  instant := 0, epoch := 0, passed := [], last := 0 } }

/-- The swap instant of the current request: fades begin, descriptors land (R122, R125). -/
def Hub.swapStart (h : Hub) (p : Nat) : Hub :=
  match (h.flt.swap.get p).cur with
  | some c =>
    if c.started then h
    else
      let t := h.sampleT
      let chs := h.acquiringOf p
      let h := h.setSwap p { h.flt.swap.get p with cur := some { c with started := true, instant := t, epoch := h.tb.epoch, last := t } }
      let h := (h.namers p).foldl (fun h ch =>
        let k := h.chain ch
        h.setChain ch { k with fade := flag (chs.contains ch) 0, solo := k.solo || !chs.contains ch }) h
      chs.foldl (fun h ch => h.landDesc ch c.target t) h
  | none => h

/-- Every acquiring channel of the profile has passed its output XF; one that changed bank at once, or whose chain does not run,
has none to pass. -/
def Hub.fadePassed (h : Hub) (p : Nat) : Bool :=
  match (h.flt.swap.get p).cur with
  | some c => c.started && (h.acquiringOf p).all fun ch => c.passed.contains ch || (h.chain ch).solo || !(h.chain ch).running
  | none => false
/-- A synchronising reset while a request is current: the channel computes with the target bank alone from the later of t_s and
the swap instant, and counts as having passed (R154). -/
def Hub.swapReset (h : Hub) (p ch : Nat) : Hub :=
  if (h.flt.swap.get p).cur.isSome then h.setChain ch { h.chain ch with solo := true } else h

/-- A fade completes and the state machine of R123 advances. -/
def Hub.swapComplete (h : Hub) (p : Nat) : Hub :=
  match (h.flt.swap.get p).cur with
  | some c =>
    if h.fadePassed p then
      let pend := (h.flt.swap.get p).pend
      let h := { h with cfg := { h.cfg with flt := { h.cfg.flt with active := h.cfg.flt.active.put p c.target } } }
      let h := (h.namers p).foldl (fun h ch => h.setChain ch { h.chain ch with fade := 0, solo := false }) h
      let hs := c.handles ++ (match pend with | some (b, hd) => if b = c.target then [hd] else [] | none => [])
      let h := hs.foldl (fun h hd => h.complete hd DONE (tWords c.instant ++ tWords c.last ++ [wd c.epoch])) h
      match pend with
      | some (b, hd) => if b = c.target then h.setSwap p {} else h.setSwap p (h.swapBegin p b hd)
      | none => h.setSwap p {}
    else h
  | none => h

/-! ## Filter commands (R155 to R161) -/

/-- The profile that FLT_PROFILE_SET describes. -/
def pwProfile (p : List Word) : Profile :=
  let w := pw p 0
  { full := bit w 31, other := bit w 30, mode := fld w 29 28, n := fld w 27 25, d := if bit w 24 then 2 else 1,
    l := fld w 23 16, m := fld w 13 5, xf := fld (pw p 1) 31 16, fOut := (pw p 2).toNat }

/-- FLT_PROFILE_SET (R117, R155). A running chain of the profile that is not acquiring goes on with its indices and states under the new
geometry: the spec names no restart (DESIGN CHOICE, log entry 68). -/
def fltProfileSet : CmdSpec where
  opcode := 0x0501
  len := lenIs 3
  bad := fun _ p => badIf !(rsv (pw p 0) 0xFFFF3FFF && rsv (pw p 1) 0xFFFF0000 && (pwProfile p).ok)
  refuse := fun h c => refuseIf (!(h.acquiringOf (fld (pw c.pl 0) 4 0)).isEmpty) BAD_STATE
  block := true
  run := fun h c =>
    let n := fld (pw c.pl 0) 4 0
    let p := pwProfile c.pl
    let keep := match h.profile n with | some q => q.l == p.l && q.d == p.d | none => true
    let banks := if keep then h.cfg.flt.banks
      else (List.range 4).foldl (fun t b => t.upd (4 * n + b) fun k => { k with committed := false }) h.cfg.flt.banks
    { hub := { h with cfg := { h.cfg with flt := { h.cfg.flt with profiles := h.cfg.flt.profiles.put n (some p), banks := banks } } } }

/-- A write or commit of a bank is refused (R124). -/
def Hub.bankLocked (h : Hub) (p b : Nat) : Bool :=
  let s := h.flt.swap.get p
  (h.profileRuns p && h.activeBank p == b) || s.cur.any (·.target == b) || s.pend.any (·.1 == b)

def Hub.setBank (h : Hub) (p b : Nat) (k : Bank) : Hub :=
  { h with cfg := { h.cfg with flt := { h.cfg.flt with banks := h.cfg.flt.banks.put (4 * p + b) k } } }

def fltCoefWrite : CmdSpec where
  opcode := 0x0502
  len := fun p => p.length == fld (pw p 0) 31 24 + 1
  bad := fun _ p => badIf !(rsv (pw p 0) 0xFFFF007F && inR (fld (pw p 0) 31 24) 1 120 &&
    decide (fld (pw p 0) 23 16 + fld (pw p 0) 31 24 ≤ 135))
  refuse := fun h c => refuseIf (h.bankLocked (fld (pw c.pl 0) 4 0) (fld (pw c.pl 0) 6 5)) BAD_STATE
  block := true
  run := fun h c =>
    let w := pw c.pl 0
    let k := h.bank (fld w 4 0) (fld w 6 5)
    { hub := h.setBank (fld w 4 0) (fld w 6 5) { image := k.image.puts (fld w 23 16) (c.pl.drop 1), committed := false } }

/-- Coefficient `i` of an image, signed with 23 fraction bits (R152). -/
def Bank.coef (k : Bank) (i : Nat) : Int := signed 24 (k.image.get (6 + i)).toNat
/-- The reason for which a commit fails; 0 for none (R153, R157). When several checks fail the spec does not say which reason word 0
gives: the lowest (DESIGN CHOICE, log entry 101). -/
def Hub.commitReason (h : Hub) (p b : Nat) : Nat :=
  let k := h.bank p b
  let w := fun i => k.image.get i
  let q := h.profile p
  let l := fld (w 1) 31 16
  let half := (l + 1) / 2
  let sum := (List.range (half - 1)).foldl (fun a i => a + 2 * k.coef i) (k.coef (half - 1))
  if w 0 ≠ 0x5A444346 ∨ fld (w 1) 15 0 ≠ 1 then 1
  else if !(q.any fun q => q.l == l && q.d == fld (w 2) 7 0 && q.full) then 2
  else if fld (w 2) 15 8 ≠ b ∨ fld (w 2) 23 16 ≠ p then 3
  else if !(List.range half).all (fun i => w (6 + i) == wdInt (k.coef i)) then 4
  else if signed 32 (w 3).toNat ≠ sum then 5
  else if w (6 + half) ≠ crc32c (bytesOf (k.image.gets 0 (6 + half))) then 6 else 0

def fltCoefCommit : CmdSpec where
  opcode := 0x0503
  len := lenIs 1
  bad := fun _ p => badIf !(rsv (pw p 0) 0x7F)
  refuse := fun h c =>
    let p := fld (pw c.pl 0) 4 0
    let b := fld (pw c.pl 0) 6 5
    if h.bankLocked p b then some (BAD_STATE, [])
    else if h.commitReason p b ≠ 0 then some (BAD_PARAM, [wd (h.commitReason p b)]) else none
  block := true
  run := fun h c =>
    let p := fld (pw c.pl 0) 4 0
    let b := fld (pw c.pl 0) 6 5
    { hub := h.setBank p b { h.bank p b with committed := true } }

/-- R123 completes a request for the active bank at once in STEADY. -/
def Hub.swapNow (h : Hub) (p b : Nat) : Bool := (h.flt.swap.get p).cur.isNone && h.activeBank p == b

def fltBankSwap : CmdSpec where
  opcode := 0x0504
  len := lenIs 1
  bad := fun _ p => badIf !(rsv (pw p 0) 0x7F)
  refuse := fun h c =>
    let p := fld (pw c.pl 0) 4 0
    refuseIf (!(h.bank p (fld (pw c.pl 0) 6 5)).committed || !(h.profile p).any (·.full)) BAD_STATE
  block := true
  long := fun h p => !h.swapNow (fld (pw p 0) 4 0) (fld (pw p 0) 6 5)
  run := fun h c =>
    let p := fld (pw c.pl 0) 4 0
    let b := fld (pw c.pl 0) 6 5
    let s := h.flt.swap.get p
    if h.swapNow p b then
      { hub := h, words := tWords h.sampleT ++ tWords h.sampleT ++ [wd h.tb.epoch] }
    else match s.cur with
      | none => { hub := h.setSwap p (h.swapBegin p b c.handle) }
      | some _ =>
        let h := match s.pend with | some (_, hd) => h.complete hd ABORTED [] | none => h
        { hub := h.setSwap p { s with pend := some (b, c.handle) } }

/-- The channel configuration that FLT_CHAN_SET describes. -/
def pwChan (p : List Word) : ChanCfg :=
  let w := pw p 0
  { profile := fld w 14 10, linEn := bit w 21, linTable := fld w 20 16, gain := signed 32 (pw p 1).toNat,
    offset := signed 32 (pw p 2).toNat, redN := fld (pw p 3) 20 0, excSettle := fld (pw p 4) 31 16,
    tiSel := fld (pw p 5) 31 29, spr := fld (pw p 5) 28 16, ppr := fld (pw p 5) 10 0, tachMax := (pw p 6).toNat }

def fltChanSet : CmdSpec where
  opcode := 0x0505
  len := lenIs 7
  bad := fun h p =>
    let ch := fld (pw p 0) 9 0
    let c := pwChan p
    badIf !(rsv (pw p 0) 0x003F7FFF && decide (ch < 640) && rsv (pw p 3) 0x001FFFFF && (c.redN == 0 || inR c.redN 2 1048576) &&
      rsv (pw p 4) 0xFFFF0000 && rsv (pw p 5) 0xFFFF07FF &&
      (match h.profile c.profile with
       | none => true
       | some q => h.suits q ch && (q.mode != 3 || (inR c.ppr 1 1024 && inR c.spr 1 4096 && c.spr % c.ppr == 0 &&
           inR c.tachMax 1000 60000000))))
  refuse := fun h x =>
    let ch := fld (pw x.pl 0) 9 0
    let c := pwChan x.pl
    let frozen := h.acquiring ch && (match h.chanCfg ch with
      | some o => o.profile != c.profile || o.redN != c.redN || o.tiSel != c.tiSel || o.spr != c.spr || o.ppr != c.ppr
      | none => true)
    refuseIf (frozen || (h.profile c.profile).isNone) BAD_STATE
  block := true
  run := fun h x =>
    let ch := fld (pw x.pl 0) 9 0
    let c := pwChan x.pl
    let k := h.chain ch
    let par : ChanPar := { gain := c.gain, offset := c.offset, linEn := c.linEn, linTable := c.linTable }
    let moved := (h.chanCfg ch).any (·.profile != c.profile)
    let k := if k.running then { k with parReq := if par = k.newPar then k.parReq else some h.tb.strobes, restart := k.restart || moved,
                                                    was := if moved && k.was.isNone then h.chanCfg ch else k.was }
             else { k with par := par, parNext := [] }
    { hub := { (h.setChain ch k) with cfg := { h.cfg with flt := { h.cfg.flt with chans := h.cfg.flt.chans.put ch (some c) } } } }

def fltSync : CmdSpec where
  opcode := 0x0506
  len := lenIs 2
  bad := fun _ p => badIf (mask64 (pw p 0) (pw p 1) == 0)
  block := true
  long := fun _ _ => true
  run := fun h c =>
    let r : SyncReq := { mask := mask64 (pw c.pl 0) (pw c.pl 1), handle := c.handle, since := h.tb.strobes }
    { hub := { h with flt := { h.flt with sync := h.flt.sync ++ [r] } } }

/-- A signed duration in two words. -/
def durWords (x : Fr) : List Word := let n := unsigned 64 x.t; [lo32 n, hi32 n]
/-- t_set for a synchronising reset at the start of a second (R138, R161); pulses decide it in ORDER mode. -/
def Profile.tset (p : Profile) (f : Fr) : Option Fr := (p.rate f).map fun r => (fr ((p.w f).mul r).ceil 1).div r
/-- A 64-bit value that the spec leaves open, in two words. -/
def freeWords (n : Nat) : List Word := let v := (Config.freeValue n).toNat; [lo32 v, hi32 v]
/-- RATIO of a channel (R129, R130). -/
def Hub.ratio (h : Hub) (ch : Nat) (p : Profile) (f : Fr) : Nat :=
  if p.mode = 2 then (((p.fF f).div (fr p.fOut 1)).mul (fr (2 ^ 32) 1)).round.toNat
  else if p.mode = 3 then (h.chain ch).order.ratio else 2 ^ 32

/-- FLT_DELAY_READ (R161). For a channel that is configured but has no input (a position that the scan list lacks, a slot that is not
enabled) the words that an input rate decides are free values (log entry 12). -/
def fltDelayRead : CmdSpec where
  opcode := 0x0507
  len := lenIs 1
  bad := fun _ p => badIf !(rsv (pw p 0) 0x3FF && decide (fld (pw p 0) 9 0 < 640))
  refuse := fun h c => refuseIf (!h.configured (fld (pw c.pl 0) 9 0)) BAD_STATE
  block := true
  run := fun h c =>
    let ch := fld (pw c.pl 0) 9 0
    let pn := ((h.chanCfg ch).map (·.profile)).getD 0
    let s := h.flt.swap.get pn
    let tail := [wd (sat32 (h.chain ch).slip),
                 wd (h.activeBank pn + ((s.cur.map (·.target)).getD 0) * 4 + ((s.pend.map (·.1)).getD 0) * 16 +
                   flag (s.cur.any (·.started)) 6 + flag s.pend.isSome 7)]
    match h.geo ch, h.profile pn with
    | none, some p =>
      let f := fun (i : Nat) => freeWords (h.free + i)
      let tauC := if p.hc = 0 then [0, 0] else f 0
      let w := if p.hc = 0 ∧ !p.full ∧ p.mode = 0 then [0, 0] else f 1
      let ts := match (h.chain ch).tset with | some n => [lo32 n, hi32 n] | none => f 3
      let iv := if p.mode = 3 then [0, 0] else if p.mode = 2 then durWords (fr 1 (max 1 p.fOut)) else f 4
      let r := if p.mode = 2 then (Config.freeValue (h.free + 5)).toNat else h.ratio ch p (fr 1 1)
      { hub := { h with free := h.free + 6 }, words := tauC ++ w ++ f 2 ++ ts ++ iv ++ [lo32 r, wd (r / 2 ^ 32 % 65536)] ++ tail }
    | none, none => { hub := h, words := List.replicate 12 0 ++ tail }
    | some (_, p, f), _ =>
      let r := h.ratio ch p f
      let ts := match (h.chain ch).tset, p.tset f with
        | some n, _ => [lo32 n, hi32 n]
        | none, some t => durWords t
        | none, none => freeWords h.free
      let iv := match p.rate f with | some q => (fr 1 1).div q | none => fr 0 1
      { hub := { h with free := h.free + 1 }
        words := durWords (p.tauC f) ++ durWords (p.w f) ++ durWords ((p.w f).add (h.sigma ch)) ++ ts ++ durWords iv ++
          [lo32 r, wd (r / 2 ^ 32 % 65536)] ++ tail }

end Sys2Proof.Machine
end

