-- ==== Sys2Proof/Machine/FrontEnd.lean ====
section
/-!
DEFINITION. Front-end commands (R55, R59, R61, R64, R76, R79 to R84), linearisation (R77) and excitation outputs
(R63 to R68).
-/
namespace Sys2Proof.Machine

def Hub.setExc (h : Hub) (x : Nat) (e : ExcSt) : Hub := { h with fe := { h.fe with exc := h.fe.exc.put x e } }
def Hub.fault (h : Hub) (ch : Nat) : FaultSt := h.fe.fault.get ch
def Hub.setFault (h : Hub) (ch : Nat) (f : FaultSt) : Hub := { h with fe := { h.fe with fault := h.fe.fault.put ch f } }

/-! ## Fast channels (R55, R79) -/

/-- The setting that FE_FAST_SET describes. -/
def pwFast (p : List Word) : FastCfg :=
  { enable := bit (pw p 0) 31, exc := fld (pw p 0) 27 24, pull := fld (pw p 0) 21 20, gain := fld (pw p 0) 18 16,
    deb := fld (pw p 1) 28 16, hi := fld (pw p 1) 15 8, lo := fld (pw p 1) 7 0, extend := fld (pw p 2) 11 0 }

def excOk (x : Nat) : Bool := decide (x ≤ 7) || x == 15

def feFastSet : CmdSpec where
  opcode := 0x0301
  len := lenIs 3
  bad := fun _ p =>
    let c := pwFast p
    badIf !(rsv (pw p 0) 0x8F37003F && rsv (pw p 1) 0x1FFFFFFF && rsv (pw p 2) 0xFFF && excOk c.exc &&
      inR c.deb 1 4096 && decide (c.deb + c.extend ≤ 4096))
  refuse := fun h x =>
    let ch := fld (pw x.pl 0) 5 0
    let c := pwFast x.pl
    let o := h.cfg.fe.fast.get ch
    refuseIf (h.acquiring ch && (c.gain != o.gain || c.exc != o.exc || c.enable != o.enable)) BAD_STATE
  block := true
  run := fun h x =>
    { hub := { h with cfg := { h.cfg with fe := { h.cfg.fe with fast := h.cfg.fe.fast.put (fld (pw x.pl 0) 5 0) (pwFast x.pl) } } } }

/-! ## Scan lists (R59 to R61, R80) -/

/-- An entry word of FE_SCAN_SET. -/
def pwEntry (w : Word) : ScanEntry :=
  { divSel := fld w 30 28, exc := fld w 27 24, pull := fld w 23 22, gain := fld w 21 19, k := fld w 18 16,
    settle := fld w 15 4, en := bit w 3, pos := fld w 2 0 }
/-- The list entries up to the first that is not present. -/
def pwList (p : List Word) : List ScanEntry := ((p.drop 3).take 8 |>.map pwEntry).takeWhile (·.en)
/-- An entry's fields lie in range. -/
def entryOk (e : ScanEntry) : Bool := excOk e.exc && decide (e.gain ≤ 5) && decide (e.k ≤ 6)
/-- SCAN_DIV of R59. -/
def scanDivOk (d : Nat) : Bool :=
  (decide (8 ≤ d) && 8000 % d == 0) || (decide (0 < d) && d % 8000 == 0 && decide (d ≤ 64000))

def pwScan (p : List Word) : ScanCfg :=
  { div := fld (pw p 0) 31 16, deb := fld (pw p 1) 19 16, hi := fld (pw p 1) 15 8, lo := fld (pw p 1) 7 0,
    ref := pwEntry (pw p 2), list := pwList p }
/-- CONV cycles that a FE_SCAN_SET needs per period. -/
def Hub.pwNeed (h : Hub) (p : List Word) : Nat :=
  scanNeed (h.chopped (fld (pw p 0) 2 0)) (pwList p) (pwEntry (pw p 2))

/-- FE_SCAN_SET (R80). The new list replaces the old one at once, also within a scan period: the spec gives no instant. The entry
with EN = 0 that ends the list names no visit, and of its fields the reserved bit alone is checked; the reference entry's fields are
checked whether it is enabled or not, as R80 asks of its POS (DESIGN CHOICE, log entry 95). -/
def feScanSet : CmdSpec where
  opcode := 0x0302
  len := lenIs 11
  bad := fun h p =>
    let c := pwScan p
    let pos := c.list.map (·.pos)
    let used := 3 + min 8 (c.list.length + 1)
    if !(rsv (pw p 0) 0xFFFF0007 && rsv (pw p 1) 0xFFFFF && ((p.take used).drop 2).all (fun w => rsv w 0x7FFFFFFF) &&
        scanDivOk c.div && inR c.deb 1 15 && c.ref.pos == 0 && entryOk c.ref && c.list.all entryOk && decide pos.Nodup) then some []
    else if c.div * 3072 < h.pwNeed p then some [wd (h.pwNeed p)] else none
  refuse := fun h x => refuseIf ((List.range 8).any fun i => h.acquiring (64 + 8 * fld (pw x.pl 0) 2 0 + i)) BAD_STATE
  block := true
  run := fun h x =>
    let m := fld (pw x.pl 0) 2 0
    let c := pwScan x.pl
    let chop := h.chopped m
    let need := h.pwNeed x.pl
    let holds := (scanStarts chop c.list 0).map fun e => wd (visitHold (chop e.1.exc) e.1 e.2)
    { hub := { h with cfg := { h.cfg with fe := { h.cfg.fe with scan := h.cfg.fe.scan.put m c } } }
      words := [wd need, wd (c.div * 3072 - need)] ++ holds ++ List.replicate (8 - holds.length) 0 }

/-! ## Excitation (R64, R66, R81) -/

/-- The setting that FE_EXC_SET describes. -/
def pwExc (p : List Word) : ExcCfg :=
  let w := pw p 0
  { mode := fld w 5 4, value := fld w 31 16, chop := bit w 8, src := fld w 15 12, n := fld w 11 9, blank := fld (pw p 1) 7 0 }
/-- A change of MODE, of VALUE or of chopping (CHOP, CHOP_SRC or CHOP_N) is a switch; one of BLANK alone is none (R66). -/
def ExcCfg.switches (a b : ExcCfg) : Bool := { a with blank := b.blank } != b

/-- A pair chops (R64). One set with CHOP 1 and MODE 0 drives nothing and counts as not chopping, so that its odd partner can be
configured: the spec does not say (DESIGN CHOICE, log entry 55). -/
def ExcCfg.chops (c : ExcCfg) : Bool := c.chop && c.mode != 0

def feExcSet : CmdSpec where
  opcode := 0x0303
  len := lenIs 2
  bad := fun _ p =>
    let w := pw p 0
    let c := pwExc p
    badIf !(rsv w 0xFFFFFF37 && rsv (pw p 1) 0xFF && decide (c.mode ≤ 2) && decide (c.src ≤ 8) && decide (c.n ≤ 6) &&
      !(c.chop && fld w 0 0 == 1) && (c.mode != 1 || inR c.value 500 5000) && (c.mode != 2 || inR c.value 10 2000))
  refuse := fun h c =>
    let x := fld (pw c.pl 0) 2 0
    refuseIf (x % 2 == 1 && (h.excNow (x - 1)).chops) BAD_STATE
  block := true
  long := fun _ _ => true
  run := fun h c =>
    let x := fld (pw c.pl 0) 2 0
    let e := h.fe.exc.get x
    let h := h.setExc x { e with pending := e.pending ++ [(pwExc c.pl, c.handle, h.tb.strobes)] }
    { hub := { h with cfg := { h.cfg with fe := { h.cfg.fe with exc := h.cfg.fe.exc.put x (pwExc c.pl) } } } }

/-- The excitation output that a channel is bound to; 15 for none. -/
def Hub.boundExc (h : Hub) (ch : Nat) : Nat :=
  if isFast ch then (h.fe.fast.get ch).exc
  else if isScan ch then ((h.scanEntry ch).map (·.1.exc)).getD 15 else 15
/-- What names output `b` is bound to output `x`, or to the pair that `x` drives by chopping. -/
def Hub.excBinds (h : Hub) (x b : Nat) : Bool :=
  decide (b < 8) && (b == x || (b / 2 == x / 2 && (h.excNow (x / 2 * 2)).chops))
/-- A channel is bound to output `x`. -/
def Hub.isBound (h : Hub) (x ch : Nat) : Bool := h.excBinds x (h.boundExc ch)
/-- An overload or a compliance loss persists on the output a channel is bound to (R67). -/
def Hub.excFaulty (h : Hub) (ch : Nat) : Bool :=
  (List.range 8).any fun x => h.isBound x ch && ((h.fe.exc.get x).overload || (h.fe.exc.get x).compliance)

/-- Channels of a bound output start their settle span at a switch instant (R66, R144). -/
def Hub.settleBound (h : Hub) (x : Nat) (t : T64) : Hub :=
  (List.range 128).foldl (fun h ch =>
    if h.isBound x ch then
      let n := ((h.chanCfg ch).map (·.excSettle)).getD 0
      h.setChain ch { h.chain ch with settle := some (t, t + (fr n 8000).toT) }
    else h) h

/-- Every change that waits on an output, and whose first strobe has come, takes effect at `t`; each completes with that instant
(R66). -/
def Hub.excApply (h : Hub) (x : Nat) (t : T64) : Hub :=
  let e := h.fe.exc.get x
  let due := fun (p : ExcCfg × Nat × Nat) => decide (p.2.2 < h.tb.strobes)
  (e.pending.filter due).foldl (fun h p =>
    let e := h.fe.exc.get x
    let sw := e.drive.switches p.1
    let h := if sw then h.settleBound x t else h
    let h := h.setExc x { h.fe.exc.get x with drive := p.1, reversed := if sw then false else e.reversed }
    let h := if sw then h.settleBound x t else h
    h.complete p.2.1 DONE (tWords t ++ [wd h.tb.epoch])) (h.setExc x { e with pending := e.pending.filter fun p => !due p })

/-- Changes that make no switch take effect and complete at the first frame strobe, whatever waits before them (R66). -/
def Hub.excBlankOnly (h : Hub) : Hub :=
  (List.range 8).foldl (fun h x =>
    let e := h.fe.exc.get x
    let r := e.pending.foldl (fun (a : ExcCfg × List (ExcCfg × Nat × Nat) × List Nat) p =>
      let last := (a.2.1.getLast?.map (·.1)).getD a.1
      let b := p.1.blank
      if last.switches p.1 then (a.1, a.2.1 ++ [p], a.2.2)
      else ({ a.1 with blank := b }, a.2.1.map (fun q => ({ q.1 with blank := b }, q.2)), a.2.2 ++ [p.2.1])) (e.drive, [], [])
    r.2.2.foldl (fun h hd => h.complete hd DONE (tWords h.sampleT ++ [wd h.tb.epoch]))
      (if r.2.2.isEmpty then h else h.setExc x { e with drive := r.1, pending := r.2.1 })) h

/-- The chains of the fast channels bound to output `x`, and the shadow chain of one of them, blank their next `n` codes (R65). -/
def Hub.blankBound (h : Hub) (x n : Nat) : Hub :=
  let h := (List.range 64).foldl (fun h ch => if h.isBound x ch then h.setChain ch { h.chain ch with blankLeft := n } else h) h
  let bound := h.isBound x
  let run := h.cal.run.map fun (r : CalRun) => match r.phase with
    | .step _ ch => if bound ch then { r with shadow := r.shadow.map fun (s : Chain) => { s with blankLeft := n } } else r
    | _ => r
  { h with cal := { h.cal with run := run } }
/-- FRAME chopping reverses a pair on every 2^n-th strobe (R65). The spec does not say on which of them: the model takes those
whose index in the second is a multiple of 2^n, and a switch puts the pair in normal polarity (DESIGN CHOICE, log entry 56). -/
def Hub.frameChop (h : Hub) : Hub :=
  let k := h.tb.cnt / 15360
  (List.range 4).foldl (fun h i =>
    let e := h.fe.exc.get (2 * i)
    if e.drive.chops && e.drive.src == 8 && k % 2 ^ e.drive.n == 0 then
      (h.setExc (2 * i) { e with reversed := !e.reversed }).blankBound (2 * i) e.drive.blank
    else h) h

/-- The conditions of an output clear, with their events (R67). -/
def Hub.excClear (h : Hub) (x : Nat) : Hub :=
  let e := h.fe.exc.get x
  let h := h.setExc x { e with overload := false, compliance := false }
  let h := if e.overload then h.raise 34 (b4 x ++ b4 0) else h
  if e.compliance then h.raise 35 (b4 x ++ b4 0) else h
/-- Outputs switch off (R68), which ends their faults; what waits is superseded and completes with the restore. -/
def Hub.excOff (h : Hub) : Hub :=
  (List.range 8).foldl (fun h x =>
    let h := h.excClear x
    h.setExc x { h.fe.exc.get x with drive := {}, reversed := false }) h
/-- Outputs are restored to their last configuration; each restore is a switch (R68). -/
def Hub.excRestore (h : Hub) (t : T64) : Hub :=
  (List.range 8).foldl (fun h x =>
    let e := h.fe.exc.get x
    let h := h.setExc x { e with drive := h.cfg.fe.exc.get x, reversed := false, pending := [] }
    let h := e.pending.foldl (fun h p => h.complete p.2.1 DONE (tWords t ++ [wd h.tb.epoch])) h
    if (h.cfg.fe.exc.get x).mode = 0 then h else h.settleBound x t) h

/-! ## Linearisation (R76 to R78, R82, R83) -/

/-- The slope of a segment with 24 fraction bits (R76). -/
def slope (a b : Int × Int) : Int := if b.1 ≤ a.1 then 0 else roundDiv ((b.2 - a.2) * 2 ^ 24) (b.1 - a.1).toNat
/-- Saturation to Q1.31: the value, and whether it saturated. -/
def sat31 (z : Int) : Int × Bool :=
  if z < -2147483648 then (-2147483648, true) else if 2147483647 < z then (2147483647, true) else (z, false)

/-- Stage 6: the linearised value, and whether it carries O (R77). -/
def linearise (xy : List (Int × Int)) (x : Int) : Int × Bool :=
  let i := (xy.filter fun p => p.1 ≤ x).length - 1
  let seg := min i (xy.length - 2)
  let a := xy.getD seg (0, 0)
  let b := xy.getD (seg + 1) (0, 0)
  let ovr := match xy.getLast? with | some l => decide (l.1 ≤ x) | none => false
  let y := sat31 (a.2 + roundDiv ((x - a.1) * slope a b) (2 ^ 24))
  (y.1, ovr || y.2)

/-- COUNT, FIRST and TABLE of FE_LIN_WRITE are in range. -/
def linHeadOk (w : Word) : Bool :=
  rsv w 0x007F3F1F && inR (fld w 22 16) 1 60 && decide (fld w 13 8 + fld w 22 16 ≤ 64)

def feLinWrite : CmdSpec where
  opcode := 0x0304
  len := fun p => p.length == 1 + 2 * fld (pw p 0) 22 16
  bad := fun _ p => badIf !(linHeadOk (pw p 0))
  block := true
  run := fun h c =>
    let w := pw c.pl 0
    let base := 64 * fld w 4 0 + fld w 13 8
    let pairs := (List.range (fld w 22 16)).map fun j =>
      some (signed 32 (pw c.pl (1 + 2 * j)).toNat, signed 32 (pw c.pl (2 + 2 * j)).toNat)
    { hub := { h with fe := { h.fe with stage := h.fe.stage.puts base pairs } } }

/-- The first `n` staged breakpoints of a table. -/
def Hub.staged (h : Hub) (t n : Nat) : List (Option (Int × Int)) := h.fe.stage.gets (64 * t) n
/-- The first breakpoint of a list for which the x values or the slopes break R76. -/
def linBad (xy : List (Int × Int)) : Option Nat :=
  (List.range (xy.length - 1)).findSome? fun i =>
    let a := xy.getD i (0, 0)
    let b := xy.getD (i + 1) (0, 0)
    if b.1 ≤ a.1 then some (i + 1) else if 2 ^ 31 ≤ (slope a b).natAbs then some i else none

def feLinCommit : CmdSpec where
  opcode := 0x0305
  len := lenIs 1
  bad := fun _ p => badIf !(rsv (pw p 0) 0x7F1F && inR (fld (pw p 0) 14 8) 2 64)
  refuse := fun h c =>
    let s := h.staged (fld (pw c.pl 0) 4 0) (fld (pw c.pl 0) 14 8)
    match s.findIdx? (·.isNone) with
    | some i => some (BAD_STATE, [wd i])
    | none => match linBad (s.filterMap id) with
      | some i => some (BAD_PARAM, [wd i])
      | none => none
  block := true
  run := fun h c =>
    let t := fld (pw c.pl 0) 4 0
    let xy := (h.staged t (fld (pw c.pl 0) 14 8)).filterMap id
    { hub := { h with cfg := { h.cfg with fe := { h.cfg.fe with lin := h.cfg.fe.lin.put t { xy := xy } } },
                      fe := { h.fe with stage := h.fe.stage.puts (64 * t) (List.replicate 64 none) } } }

def feLinRead : CmdSpec where
  opcode := 0x0306
  len := lenIs 1
  bad := fun _ p => badIf !(linHeadOk (pw p 0))
  block := true
  run := fun h c =>
    let w := pw c.pl 0
    let xy := (h.cfg.fe.lin.get (fld w 4 0)).xy
    let pairs := (List.range (fld w 22 16)).flatMap fun j =>
      match xy[fld w 13 8 + j]? with
      | some p => [wdInt p.1, wdInt p.2]
      | none => let v := (Config.freeValue (h.free + j)).toNat; [lo32 v, hi32 v]
    { hub := { h with free := h.free + fld w 22 16 }, words := wd xy.length :: pairs }

/-! ## Fault reports (R84) -/

def feFaultStatus : CmdSpec where
  opcode := 0x0307
  len := lenIs 0
  run := fun h _ =>
    let m := maskOf ((List.range 128).filter fun ch => (h.fault ch).inFault)
    let x := fun (f : ExcSt → Bool) => maskOf ((List.range 8).filter fun x => f (h.fe.exc.get x))
    { hub := h
      words := [wd m, wd (m / 2 ^ 32), wd (m / 2 ^ 64), wd (m / 2 ^ 96), wd (x (·.compliance) * 256 + x (·.overload))] }

def feFaultDetail : CmdSpec where
  opcode := 0x0308
  len := lenIs 1
  bad := fun _ p => badIf !(rsv (pw p 0) 0x3FF && decide (fld (pw p 0) 9 0 < 128))
  run := fun h c =>
    let f := h.fault (fld (pw c.pl 0) 9 0)
    { hub := h
      words := [wd (flag f.inFault 0 + f.pin * 2 + flag f.above 3)] ++ tWords f.t ++ [wd f.epoch, wd (sat32 f.excursions), wd f.declared] }

end Sys2Proof.Machine
end

