-- ==== Sys2Proof/Machine/Live.lean ====
section
/-!
DEFINITION. Live queues (R335 to R338) and the journal's commands (R340 to R347).
-/
namespace Sys2Proof.Machine

/-! ## Live queues -/

def Hub.setLive (h : Hub) (q : Nat) (l : LiveQ) : Hub := { h with jrn := { h.jrn with live := h.jrn.live.put q l } }

/-- Removes the oldest items whole until `n` words fit (R337). -/
def LiveQ.room (q : LiveQ) (n : Nat) : LiveQ :=
  let rec go : List Nat → Nat → Nat → List Nat × Nat × Nat
    | [], used, k => ([], used, k)
    | l :: ls, used, k => if 7168 < used + n then go ls (used - l) (k + 1) else (l :: ls, used, k)
  let used := q.items.foldl (· + ·) 0
  let r := go q.items used 0
  if r.2.2 = 0 then q
  else { q with items := r.1, oldest := (q.wr + 2 ^ 32 - r.2.1) % 2 ^ 32, lost := sat32 (q.lost + r.2.2), status := setBit q.status 1 }

/-- Writes one item whole into a live queue (R336, R337). -/
def Hub.liveWrite (h : Hub) (q type flags : Nat) (body : List Word) : Hub :=
  let n := body.length + 1
  let l := (h.jrn.live.get q).room n
  let w0 := wd (type + n * 256 + flags * 65536 + l.seq * 16777216)
  let words := ((w0 :: body).foldl (fun (a : Tab Word × Nat) w => (a.1.put (a.2 % 7168) w, a.2 + 1)) (l.words, l.wr)).1
  h.setLive q { l with words := words, wr := (l.wr + n) % 2 ^ 32, seq := (l.seq + 1) % 256, items := l.items ++ [n] }

/-- Items are written whole, so a flush finds an item boundary at once (R338). -/
def lqFlush (q : Nat) (h : Hub) : Hub :=
  let l := h.jrn.live.get q
  h.setLive q { l with items := [], oldest := l.wr, status := setBit l.status 0 }

/-- Words of a SAMPLES item. -/
def liveSamples (tag : Nat) (a : LiveAcc) : List Word :=
  [wd (tag + a.epoch * 65536)] ++ tWords a.t ++ [wd a.vals.length] ++ a.vals ++ wordsOf ((a.quals.length + 3) / 4) a.quals

/-- The batch of a live source becomes an item. -/
def Hub.liveBatch (h : Hub) (s : Nat) : Hub :=
  let a := h.jrn.liveAcc.get s
  let c := h.cfg.jrn.live.get s
  let h := if a.vals.isEmpty then h else h.liveWrite c.queue 1 0 (liveSamples (h.tag c.ch) a)
  { h with jrn := { h.jrn with liveAcc := h.jrn.liveAcc.put s { a with vals := [], quals := [] } } }

/-- An output reaches the live sources of its channel and path (R335). `n` is its index: an item holds outputs that follow one another, one
alone on an ORDER channel (R336). -/
def Hub.liveOutput (h : Hub) (ch : Nat) (pepper order : Bool) (n : Nat) (t : T64) (epoch : Nat) (v : Word) (q : Nat) : Hub :=
  h.cfg.jrn.live.foldl (fun h sc =>
    let s := sc.1
    let c := sc.2
    if c.enable && c.ch == ch && c.pepper == pepper then
      let a := h.jrn.liveAcc.get s
      let take := a.count % max 1 c.decim == 0
      let h := if a.last.any (fun l => l != (n - 1, epoch)) then h.liveBatch s else h
      let a := h.jrn.liveAcc.get s
      let a := { a with count := (a.count + 1) % max 1 c.decim, last := some (n, epoch) }
      let a := if take then
          { a with t := if a.vals.isEmpty then t else a.t, epoch := if a.vals.isEmpty then epoch else a.epoch,
                   vals := a.vals ++ [v], quals := a.quals ++ [BitVec.ofNat 8 q] }
        else a
      let h := { h with jrn := { h.jrn with liveAcc := h.jrn.liveAcc.put s a } }
      if take && decide ((if order then 1 else c.batch) ≤ a.vals.length) then h.liveBatch s else h
    else h) h

/-! ## Journal commands -/

/-- Channel indices packed two to a word, `n` of them. -/
def pwChans (ws : List Word) (n : Nat) : List Nat :=
  (List.range n).map fun i => if i % 2 = 0 then fld (pw ws (i / 2)) 9 0 else fld (pw ws (i / 2)) 25 16
/-- The packed words have no reserved bit, nothing in an unused half, and distinct channels. -/
def chansOk (ws : List Word) (n : Nat) : Bool :=
  let cs := pwChans ws n
  ws.all (fun w => rsv w 0x03FF03FF) && cs.all (· < 640) && decide cs.Nodup &&
  (n % 2 == 0 || fld (pw ws (n / 2)) 31 16 == 0)

/-- What channels of one group share: an angle grid with its TI_SEL, PPR and SPR, or a time grid with its rate, which FIXED alone decides
without an input (R300). -/
def Hub.gridOf (h : Hub) (ch : Nat) : Option (Bool × Option (Nat × Nat × Nat)) :=
  match h.chanCfg ch with
  | none => none
  | some c => match h.profile c.profile with
    | none => none
    | some p =>
      if p.mode = 3 then some (true, some (c.tiSel, c.ppr, c.spr))
      else match if p.mode = 2 then some (fr p.fOut 1) else (h.fIn ch).bind p.rate with
        | some r => let g := Nat.gcd r.num.toNat r.den
                    some (false, some (r.num.toNat / max 1 g, r.den / max 1 g, 0))
        | none => some (false, none)
/-- The channels share one grid, as far as it is known (R300). -/
def Hub.sameGrid (h : Hub) (cs : List Nat) : Bool :=
  let gs := cs.filterMap h.gridOf
  let rates := gs.filterMap (·.2)
  (match gs with | [] => true | g :: r => r.all (·.1 == g.1)) && (match rates with | [] => true | g :: r => r.all (· == g))

def chgSet : CmdSpec where
  opcode := 0x0701
  len := fun p => p.length == 1 + (fld (pw p 0) 13 7 + 1) / 2
  bad := fun h p =>
    let w := pw p 0
    let cs := pwChans (p.drop 1) (fld w 13 7)
    let ms := fld w 25 16
    badIf !(rsv w 0xFFFF3FBF && inR (fld w 13 7) 1 64 && inR ms 1 1000 && 1000 % ms == 0 && chansOk (p.drop 1) (fld w 13 7) &&
      cs.all (fun c => h.groupOf c == 0xFF || h.groupOf c == fld w 5 0) && h.sameGrid cs)
  refuse := fun h c => refuseIf (h.jrn.groups.get (fld (pw c.pl 0) 5 0)).acquiring BAD_STATE
  block := true
  run := fun h c =>
    let w := pw c.pl 0
    let k : ChgCfg := { thin := bit w 31, uDrop := bit w 30, lateWait := fld w 29 26, recordMs := fld w 25 16,
                        chans := pwChans (c.pl.drop 1) (fld w 13 7) }
    let g := fld w 5 0
    let keep := fun (x : ChgSt) => if x.past.isEmpty then x else { x with kept := some (h.grp g) }
    { hub := { h with cfg := { h.cfg with jrn := { h.cfg.jrn with groups := h.cfg.jrn.groups.put g k } }, jrn := { h.jrn with groups := h.jrn.groups.upd g keep } } }

/-- The count of the next frame strobe of the running epoch, which is P when its end is decided (R221, R229). -/
def Hub.nextMark (h : Hub) : Nat := h.tb.total + h.tb.toStrobe
/-- The epoch that a decided break leads into, and whether it is the master's own (R233, R234). -/
def Hub.breakEpoch (h : Hub) (b : PendBreak) : Nat × Bool :=
  match b.epoch.filter fun m => decide (0 < epochDiff h.tb.epoch m) with
  | some m => (m % 65536, true)
  | none => ((h.tb.epoch + 1) % 65536, false)
/-- The count that a decided break loads at P (R229). -/
def Hub.breakTotal (p : Nat) (b : PendBreak) : Nat := (((p : Int) + b.s) % ((2 ^ 32 * 122880000 : Nat) : Int)).toNat
/-- A renumbering that the master need not make any more: its epoch is as late already (R234). -/
def Hub.renumbered (h : Hub) (b : PendBreak) : Bool := h.isMaster && b.kind == 6 && !b.epoch.any fun n => decide (0 < epochDiff h.tb.epoch n)
/-- Count and epoch of the first frame strobe from a P at count `p` on, once the breaks that wait there have been executed: each loads
its count, and the next P is the first multiple of 15,360 from it on (R229, R241). -/
def Hub.strobeAfter (h : Hub) (p : Nat) : List PendBreak → Nat × Nat
  | [] => (p, h.tb.epoch)
  | b :: r =>
    if h.renumbered b then h.strobeAfter p r
    else { h with tb := { h.tb with epoch := (h.breakEpoch b).1 } }.strobeAfter (ceilDiv (Hub.breakTotal p b) 15360 * 15360) r
/-- T64 and epoch of the frame strobe at which what is accepted now takes effect: with an end of the epoch decided it is the first
one of the new epoch (R221, R230, R245). -/
def Hub.nextStrobe (h : Hub) : T64 × Nat :=
  match h.tb.pendSet with
  | some q => (cycT (q.seconds * 122880000 + q.strobe * 15360), (h.tb.epoch + 1) % 65536)
  | none => let x := h.strobeAfter h.nextMark h.tb.pendBreak; (cycT x.1, x.2)
/-- T64 and epoch of that strobe as response words. -/
def Hub.strobeWords (h : Hub) : List Word := tWords h.nextStrobe.1 ++ [wd h.nextStrobe.2]

/-- A group can start: its channels are configured (R117, R341). -/
def Hub.canStart (h : Hub) (g : Nat) : Bool :=
  (h.cfg.jrn.groups.get g).chans.all h.configured

def chgRun : CmdSpec where
  opcode := 0x0702
  len := lenIs 4
  bad := fun h p =>
    let a := mask64 (pw p 0) (pw p 1)
    let b := mask64 (pw p 2) (pw p 3)
    badIf ((a &&& b) != 0 || (bitsOf (a ||| b) 64).any fun g => (h.cfg.jrn.groups.get g).chans.isEmpty)
  refuse := fun h c => refuseIf ((bitsOf (mask64 (pw c.pl 0) (pw c.pl 1)) 64).any fun g => !h.canStart g) BAD_STATE
  block := true
  run := fun h c =>
    let a := mask64 (pw c.pl 0) (pw c.pl 1)
    let b := mask64 (pw c.pl 2) (pw c.pl 3)
    let f := fun (g : Nat) (t : Tab ChgSt) => t.upd g fun x =>
      { x with startReq := if a.testBit g then true else if b.testBit g then false else x.startReq,
               stopReq := if b.testBit g then true else if a.testBit g then false else x.stopReq, reqSince := h.tb.strobes }
    { hub := { h with jrn := { h.jrn with groups := (bitsOf (a ||| b) 64).foldl (fun t g => f g t) h.jrn.groups } }
      words := h.strobeWords }

/-- A consumer made REQUIRED whose reach lies in freed pages moves to the lowest ticket still held (R339). -/
def Hub.requireMove (h : Hub) (c : Nat) : Hub :=
  let x := h.jrn.consumers.get c
  let own := h.sys.straps.hubId
  let n := x.gone.length
  if n = 0 then h
  else
    let low := match h.jrn.recs.head? with | some r => r.ticket | none => h.jrn.nextTicket
    let x := { x with ackTo := x.ackTo.put own (max low (x.ackTo.get own)), next := x.next.put own (max low (x.next.get own)), gone := [],
                      skipped := sat32 (x.skipped + n), status := setBit x.status 1 }
    ({ h with jrn := { h.jrn with consumers := h.jrn.consumers.put c x } }).raise 74 []

/-- A random draw of SESSION (R328). -/
def Hub.newSession (h : Hub) : Hub :=
  { h with jrn := { h.jrn with ferry := { h.jrn.ferry with session := leNat ((Config.random h.free).take 4), seq := 0 } }
           free := h.free + 1 }

/-- Consumer 1 starts, when it is enabled: delivery from its reach plus 1, under a new SESSION (R325, R328, R329). -/
def Hub.ferryStart (h : Hub) : Hub := if (h.cons 1).enable then (h.restartConsumer 1).newSession else h

def journalSet : CmdSpec where
  opcode := 0x0704
  len := lenIs 3
  bad := fun _ p => badIf !(rsv (pw p 0) 0xFF00FFFF && inR (fld (pw p 0) 31 24) 50 95 && inR (fld (pw p 0) 15 0) 1 65535 &&
    rsv (pw p 2) 0x1FF && inR (fld (pw p 2) 7 0) 1 255)
  run := fun h c =>
    let p := c.pl
    let j := { h.cfg.jrn with hwPct := fld (pw p 0) 31 24, resumePages := fld (pw p 0) 15 0, floor := (pw p 1).toNat,
                              versionCompat := bit (pw p 2) 8, retireCe := fld (pw p 2) 7 0 }
    let h := { h with cfg := { h.cfg with jrn := j } }
    { hub := h.jrnDegrade.jrnState }

/-- J_STATE (R327). -/
def Hub.jState (h : Hub) : Word := wd (h.jrn.state + flag h.jrn.degraded 2)
/-- The lowest reach of any REQUIRED consumer, 0 when it has reached no ticket. -/
def Hub.jReach (h : Hub) : Nat := h.lowReach - 1

def journalStatus : CmdSpec where
  opcode := 0x0705
  len := lenIs 0
  run := fun h _ =>
    let holds := fun c => (h.cons c).required && h.jrn.pages.any fun p => p.2.used && p.2.closed && decide (h.reachEnd c ≤ p.2.high)
    { hub := h
      words := [wd h.capacity, wd h.jFree, wd h.retiredPages.length, h.jState, wd (sat32 h.jrn.dropped), lo32 h.jrn.nextTicket,
                hi32 h.jrn.nextTicket, lo32 h.jReach, hi32 h.jReach, lo32 h.jrn.bound, hi32 h.jrn.bound,
                wd (maskOf ((List.range 4).filter holds))] }

def ferryKeySet : CmdSpec where
  opcode := 0x0706
  len := lenIs 5
  bad := fun _ p => badIf !(rsv (pw p 0) 0x00FF0300)
  run := fun h c =>
    let w := pw c.pl 0
    let s := fld w 8 8
    let tx := bit w 9
    let k : KeySlot := { id := fld w 23 16, key := c.pl.drop 1, active := tx || (h.sto.ferryKeys.get s).active }
    let keys := h.sto.ferryKeys.put s k
    let keys := if tx then keys.upd (1 - s) fun x => { x with active := false } else keys
    let h := { h with sto := { h.sto with ferryKeys := keys } }
    { hub := if k.active then h.newSession else h }

def liveSet : CmdSpec where
  opcode := 0x0707
  len := lenIs 2
  bad := fun _ p => badIf !(rsv (pw p 0) 0xFFF003FF && decide (fld (pw p 0) 9 0 < 640) && rsv (pw p 1) 0x00FFFFFF &&
    inR (fld (pw p 1) 23 16) 1 64 && inR (fld (pw p 1) 15 0) 1 65535)
  block := true
  run := fun h c =>
    let w := pw c.pl 0
    let s := fld w 29 24
    let k : LiveCfg := { enable := bit w 31, pepper := bit w 30, queue := fld w 23 20, ch := fld w 9 0,
                         batch := fld (pw c.pl 1) 23 16, decim := fld (pw c.pl 1) 15 0 }
    let h := h.liveBatch s
    { hub := { h with cfg := { h.cfg with jrn := { h.cfg.jrn with live := h.cfg.jrn.live.put s k } },
                      jrn := { h.jrn with liveAcc := h.jrn.liveAcc.put s {} } } }

def chanDescSet : CmdSpec where
  opcode := 0x0708
  len := lenIs 7
  bad := fun _ p => badIf !(rsv (pw p 0) 0x3FF && decide (fld (pw p 0) 9 0 < 640))
  run := fun h c =>
    let p := c.pl
    let ch := fld (pw p 0) 9 0
    let d : DescCfg := { fullScale := BitVec.ofNat 64 (mask64 (pw p 1) (pw p 2)), units := p.drop 3 }
    { hub := { h with cfg := { h.cfg with jrn := { h.cfg.jrn with desc := h.cfg.jrn.desc.put ch d } },
                      jrn := { h.jrn with descReq := h.jrn.descReq ++ [(ch, h.tb.strobes, d)] } } }

end Sys2Proof.Machine
end

