-- ==== Sys2Proof/Machine/Prc.lean ====
section
/-!
DEFINITION. The predictive residue codec as a function of data alone: values, residues, Rice codes, matches, blocks,
encoder and decoder (R351 to R366, R369) and the stream state image (R370).
-/
namespace Sys2Proof.Machine

/-- Two's complement modulo 2^32. -/
def s32 (z : Int) : Int := signed 32 (unsigned 32 z)
/-- The map of R353. -/
def zig (e : Int) : Nat := if 0 ≤ e then 2 * e.toNat else 2 * (-e).toNat - 1
def unzig (u : Nat) : Int := if u % 2 = 0 then s32 ((u % 2 ^ 32 / 2 : Nat) : Int) else s32 (-((u % 2 ^ 32 / 2 + 1 : Nat) : Int))

/-! ## Positions (R352, R354, R355, R361) -/

/-- A parameter entry. -/
def paramWord (order nb beta kInit : Nat) : Word := wd (order % 4 + nb % 64 * 4 + beta % 256 * 256 + kInit % 32 * 65536)
def PosSt.order (s : PosSt) : Nat := fld s.param 1 0
def PosSt.nb (s : PosSt) : Nat := fld s.param 7 2
def PosSt.beta (s : PosSt) : Int := signed 8 (fld s.param 15 8)
/-- A position just after RESET. -/
def PosSt.fresh (param : Word) : PosSt := { param := param, a := 2 ^ fld param 20 16, n := 1 }

/-- Time prediction and prediction, with RT of the neighbour (R352). -/
def PosSt.predict (s : PosSt) (rtNb : Int) : Int × Int :=
  let pt := s32 (if s.order = 0 then 0 else if s.order = 1 then s.x1 else if s.order = 2 then 2 * s.x1 - s.x2
                 else 3 * s.x1 - 3 * s.x2 + s.x3)
  (pt, if s.nb = 63 then pt else s32 (pt + (s.beta * rtNb + 32) / 64))
/-- The Rice parameter k (R354). -/
def PosSt.k (s : PosSt) : Nat := ((List.range 31).find? fun k => decide (s.a ≤ s.n * 2 ^ k)).getD 30
/-- After value x whose time prediction was pt and mapped residue u (R352, R355). -/
def PosSt.push (s : PosSt) (x pt : Int) (u : Nat) : PosSt :=
  let a := s.a + min u (2 ^ 26)
  let n := s.n + 1
  { s with x1 := x, x2 := s.x1, x3 := s.x2, rt := s32 (x - pt), a := if n = 32 then a / 2 else a, n := if n = 32 then 16 else n }

def PrcSt.cur (s : PrcSt) : PosSt := s.pos.getD s.next {}
/-- Predictions at the position that comes next. -/
def PrcSt.predict (s : PrcSt) : Int × Int := s.cur.predict ((s.pos.getD s.cur.nb {}).rt)
/-- A value with residue e joins: it advances the position and the history (R352, R355, R358). -/
def PrcSt.emit (s : PrcSt) (x : Int) : PrcSt :=
  let pr := s.predict
  let e := s32 (x - pr.2)
  { s with pos := s.pos.set s.next (s.cur.push x pr.1 (zig e)), hist := (e :: s.hist).take 16384,
           next := (s.next + 1) % max 1 s.p, count := s.count + 1 }
/-- Residue and Rice parameter of a value at the position that comes next. -/
def PrcSt.residue (s : PrcSt) (x : Int) : Int × Nat := (s32 (x - s.predict.2), s.cur.k)
/-- Residues and Rice parameters of the values that come next. -/
def PrcSt.ahead (s : PrcSt) : List Int → List (Int × Nat)
  | [] => []
  | x :: xs => s.residue x :: (s.emit x).ahead xs
/-- RESET with parameter entries. -/
def PrcSt.reset (s : PrcSt) (params : List Word) : PrcSt :=
  { s with pos := params.map PosSt.fresh, hist := [], cut := none, resetDue := false }

/-! ## Code words (R356, R357, R359) -/

def bitsLsb (n x : Nat) : List Bool := (List.range n).map fun i => x.testBit i
/-- Bits packed into bytes, the first in bit 0; zeros fill the last byte. -/
def packBits (bs : List Bool) : List Byte :=
  (List.range ((bs.length + 7) / 8)).map fun i =>
    BitVec.ofNat 8 (maskOf ((List.range 8).filter fun j => bs.getD (8 * i + j) false))

def resCode (u k : Nat) : List Bool :=
  let q := u / 2 ^ k
  if 24 ≤ q then List.replicate 24 true ++ bitsLsb 2 0 ++ bitsLsb 32 u
  else List.replicate q true ++ [false] ++ bitsLsb k u
def matchCode (len dist : Nat) (cont : Bool) : List Bool :=
  let m := len - (if cont then 1 else 4)
  List.replicate 24 true ++ bitsLsb 2 1 ++ (if m < 64 then bitsLsb 1 0 ++ bitsLsb 6 m else bitsLsb 1 1 ++ bitsLsb 14 m) ++
    bitsLsb 14 (dist - 1)

/-! ## The encoder (R360 to R366) -/

/-- Length of the match at distance `d` against the residues that come next (R358, R366). -/
def matchLen (hist : List Int) (d : Nat) (ahead : List Int) : Nat :=
  ((List.range (min ahead.length 16387)).takeWhile fun j =>
    ahead.getD j 0 == (if j < d then hist.getD (d - 1 - j) 0 else ahead.getD (j - d) 0)).length
/-- The longest candidate at effort level `lev`, ties to the smaller distance: length and distance (R366). -/
def findMatch (lev p : Nat) (hist : List Int) (ahead : List Int) : Nat × Nat :=
  (List.range (min (4 ^ lev) (hist.length / max 1 p))).foldl (fun best j =>
    let d := (j + 1) * p
    let l := matchLen hist d ahead
    if best.1 < l then (l, d) else best) (0, 0)

/-- A block being encoded: bits, values and flags so far. -/
structure Enc where
  st : PrcSt
  bits : List Bool := []
  vals : List Int := []
  rest : List Int
  cut : Bool := false
deriving DecidableEq, Repr

/-- `n` values go into the block. -/
def Enc.take : Nat → Enc → Enc
  | 0, e => e
  | n + 1, e => match e.rest with
    | [] => e
    | x :: xs => Enc.take n { e with st := e.st.emit x, vals := e.vals ++ [x], rest := xs }

/-- Codes values until the block closes (R364 to R367): `room` bits may be used; `drop` is the value of the block from which on the stream is
demoted; `more` are values of the record that follow the part; `tail` codes residues alone. -/
def Enc.run (lev room : Nat) (drop : Option Nat) (more : List Int) : Nat → Bool → Enc → Enc
  | 0, _, e => e
  | fuel + 1, tail, e =>
    match e.rest with
    | [] => e
    | x :: _ =>
      if 4096 ≤ e.vals.length then e
      else
        let rk := e.st.residue x
        let u := zig rk.1
        let res := resCode u rk.2
        let low := lev == 0 || tail || drop.any fun d => decide (d ≤ e.vals.length)
        let ahead := if low then [] else e.st.ahead ((e.rest ++ more).take 16387)
        let m := if ahead.isEmpty then (0, 0) else findMatch lev e.st.p e.st.hist (ahead.map (·.1))
        let f := min (4096 - e.vals.length) e.rest.length
        let cost := ((ahead.take m.1).map fun a => (resCode (zig a.1) a.2).length).foldl (· + ·) 0
        let chosen := decide (4 ≤ m.1) && decide ((matchCode m.1 m.2 false).length < cost)
        if chosen && (decide (m.1 ≤ f) || decide (4 ≤ f)) then
          let l := min m.1 f
          let code := matchCode l m.2 false
          if room < e.bits.length + code.length then e
          else
            let e' := Enc.take l { e with bits := e.bits ++ code }
            if f < m.1 then { e' with cut := true, st := { e'.st with cut := some (m.2, m.1 - l) } }
            else Enc.run lev room drop more fuel false e'
        else if room < e.bits.length + res.length then e
        else Enc.run lev room drop more fuel (tail || chosen) (Enc.take 1 { e with bits := e.bits ++ res })

/-- The bytes of a block's values, for CHECK and for RAW. -/
def valBytes (vs : List Int) : List Byte := vs.flatMap fun v => leBytes 4 (unsigned 32 v)
/-- A block header (R360). -/
def blockHeader (flags level p bytes nvals first seq : Nat) (vs : List Int) : List Byte :=
  [0xC5] ++ b1' flags ++ b1' level ++ b1' p ++ leBytes 2 bytes ++ leBytes 2 nvals ++ leBytes 2 first ++ leBytes 2 seq ++
    leBytes 4 (crc32c (valBytes vs)).toNat
where b1' (n : Nat) : List Byte := leBytes 1 n

/-- A block encoded: its bytes, what is left, the state, and whether it is RAW and whether it is cut. -/
structure BlockOut where
  bytes : List Byte
  rest : List Int
  st : PrcSt
  raw : Bool
  cut : Bool
  count : Nat
deriving DecidableEq, Repr

/-- Encodes one block (R360 to R368): `lev` the effort, `noEngine` that it must be RAW, `vfail` that verification failed, `drop` the value
from which on the stream is demoted, `more` the values of the record that follow the part. A RAW block leaves predictor and history as they
were, and clears a match that was cut (R363, R369). -/
def encodeBlock (lev blockBytes : Nat) (demoted noEngine vfail : Bool) (params : List Word) (st0 : PrcSt) (vals : List Int)
    (drop : Option Nat := none) (more : List Int := []) : BlockOut :=
  let reset := st0.resetDue
  let st := if reset then st0.reset params else st0
  let hdr := 16 + if reset then 4 * st.p else 0
  let room := 8 * (blockBytes - hdr)
  let e : Enc := match st.cut with
    | some (d, rem) =>
      let l := min rem (min 4096 vals.length)
      let on := decide (l < rem) && (decide (l < vals.length) || !more.isEmpty)
      let e := Enc.take l { st := { st with cut := if on then some (d, rem - l) else none }, bits := matchCode l d true, rest := vals }
      { e with cut := on }
    | none => { st := st, rest := vals }
  let e := if e.cut then e else Enc.run lev room drop more (vals.length + 1) false e
  let body := packBits e.bits
  let n := e.vals.length
  let cont := st.cut.isSome
  let len := hdr + body.length
  let raw := noEngine || vfail || decide (16 + 4 * n < len)
  let fell := drop.any fun d => decide (d < n)
  let lv := (if fell then 0 else lev) + flag (demoted || fell) 3
  let seq := (st.seq + 1) % 65536
  if raw then
    { bytes := blockHeader (8 + flag vfail 4) lv st.p (16 + 4 * n) n st.next st.seq e.vals ++ valBytes e.vals, rest := e.rest,
      st := { st0 with seq := seq, cut := none, resetDue := true, next := e.st.next, count := e.st.count }, raw := true, cut := false, count := n }
  else
    { bytes := blockHeader (flag reset 0 + flag cont 1 + flag e.cut 2) lv st.p len n st.next st.seq e.vals ++
        (if reset then bytesOf params else []) ++ body
      rest := e.rest, st := { e.st with seq := seq }, raw := false, cut := e.cut, count := n }

/-! ## The decoder (R369) -/

/-- An error: class, SEQ of the block, bit offset, values decoded before it. -/
structure PrcErr where
  code : Nat
  seq : Nat
  bit : Nat
  decoded : Nat
deriving DecidableEq, Repr

/-- A block being decoded: the bits, where the reader stands, and the values left. -/
structure Dec where
  st : PrcSt
  bits : Nat
  len : Nat
  at_ : Nat := 0
  left : Nat
  vals : List Int := []
  last : Option Nat := none
deriving DecidableEq, Repr

def Dec.fail (d : Dec) (code : Nat) : PrcErr := { code := code, seq := (d.st.seq + 65535) % 65536, bit := d.at_, decoded := d.st.count }
/-- read(n) (R356); none when the bits end. -/
def Dec.read (d : Dec) (n : Nat) : Option (Nat × Dec) :=
  if d.len < d.at_ + n then none else some (d.bits / 2 ^ d.at_ % 2 ^ n, { d with at_ := d.at_ + n })
/-- Counts the 1 bits before the first 0, up to 24 (R357). -/
def Dec.ones : Nat → Nat → Dec → Option (Nat × Dec)
  | 0, q, d => some (q, d)
  | n + 1, q, d => match d.read 1 with
    | none => none
    | some (1, d) => Dec.ones n (q + 1) d
    | some (_, d) => some (q, d)
/-- A decoded residue becomes a value. -/
def Dec.emit (d : Dec) (e : Int) : Dec :=
  let x := s32 (d.st.predict.2 + e)
  { d with st := d.st.emit x, vals := d.vals ++ [x], left := d.left - 1 }
def Dec.copyN : Nat → Nat → Dec → Dec
  | 0, _, d => d
  | n + 1, dist, d => Dec.copyN n dist (d.emit (d.st.hist.getD (dist - 1) 0))
def Dec.copy (d : Dec) (l dist : Nat) : Except PrcErr Dec :=
  if d.left < l then .error (d.fail 3)
  else if d.st.hist.length < dist then .error (d.fail 2)
  else .ok { Dec.copyN l dist d with last := some dist }
/-- Length less its base, and distance (R359). -/
def Dec.fields (d : Dec) : Option (Nat × Nat × Dec) :=
  match d.read 1 with
  | none => none
  | some (b, d) => match d.read (if b = 1 then 14 else 6) with
    | none => none
    | some (m, d) => match d.read 14 with
      | none => none
      | some (x, d) => some (m, x + 1, d)
/-- One code word. -/
def Dec.word (d : Dec) : Except PrcErr Dec :=
  match Dec.ones 24 0 d with
  | none => .error (d.fail 3)
  | some (q, d) =>
    if q < 24 then
      let k := d.st.cur.k
      match d.read k with
      | none => .error (d.fail 3)
      | some (r, d) => .ok { d.emit (unzig (q * 2 ^ k + r)) with last := none }
    else match d.read 2 with
      | none => .error (d.fail 3)
      | some (0, d) => (match d.read 32 with
        | none => .error (d.fail 3)
        | some (u, d) => .ok { d.emit (unzig u) with last := none })
      | some (1, d) => (match d.fields with
        | none => .error (d.fail 3)
        | some (m, dist, d) => d.copy (m + 4) dist)
      | some (_, d) => .error (d.fail 1)
def Dec.words : Nat → Dec → Except PrcErr Dec
  | 0, d => .ok d
  | n + 1, d => if d.left = 0 then .ok d else match d.word with
    | .error e => .error e
    | .ok d => Dec.words n d
/-- The continuation match of a CONT block. -/
def Dec.cont (d : Dec) (cutD : Nat) : Except PrcErr Dec :=
  match Dec.ones 24 0 d with
  | none => .error (d.fail 3)
  | some (q, d) =>
    if q < 24 then .error (d.fail 1)
    else match d.read 2 with
      | none => .error (d.fail 3)
      | some (1, d) => (match d.fields with
        | none => .error (d.fail 3)
        | some (m, dist, d) => if dist ≠ cutD then .error (d.fail 1) else d.copy (m + 1) dist)
      | some (_, d) => .error (d.fail 1)

/-- A header's fields are as R369 requires, given what is expected and the bytes left in the section. A RAW block may follow a CUT: the
procedure of R369 clears the cut there (DEDUCED, log entry 29). -/
def headerOk (s : PrcSt) (h : List Byte) (secLen : Nat) : Bool :=
  let g := fun i => (h.getD i 0).toNat
  let flags := g 1
  let raw := flags.testBit 3
  let reset := flags.testBit 0
  let cont := flags.testBit 1
  let cut := flags.testBit 2
  let bytes := leNat ((h.drop 4).take 2)
  let nvals := leNat ((h.drop 6).take 2)
  decide (16 ≤ h.length) && g 0 == 0xC5 && decide (flags < 32) && decide (g 2 < 16) && g 3 == s.p && inR' nvals 1 4096 &&
  decide (bytes ≤ secLen) &&
  !(raw && (bytes != 16 + 4 * nvals || reset || cont || cut)) &&
  leNat ((h.drop 8).take 2) == s.next && leNat ((h.drop 10).take 2) == s.seq &&
  !(s.resetDue && !raw && !reset) && !(cont && (reset || s.cut.isNone)) && !(s.cut.isSome && !cont && !reset && !raw)
where inR' (x lo hi : Nat) : Bool := decide (lo ≤ x) && decide (x ≤ hi)

/-- A parameter entry at position `i` has no reserved bit, K_INIT at most 24 and an earlier neighbour. -/
def entryGood (i : Nat) (w : Word) : Bool :=
  fld w 31 21 == 0 && decide (fld w 20 16 ≤ 24) && (fld w 7 2 == 63 || decide (fld w 7 2 < i))

/-- Decodes one block at the head of a section: the values, the state, and the bytes after it. -/
def decodeBlock (s : PrcSt) (sec : List Byte) : Except PrcErr (List Int × PrcSt × List Byte) :=
  let seq := leNat ((sec.drop 10).take 2)
  let bad : PrcErr := { code := 4, seq := seq, bit := 0, decoded := s.count }
  if !headerOk s sec sec.length then .error bad
  else
    let flags := (sec.getD 1 0).toNat
    let bytes := leNat ((sec.drop 4).take 2)
    let nvals := leNat ((sec.drop 6).take 2)
    let check := leNat ((sec.drop 12).take 4)
    let blk := sec.take bytes
    let rest := sec.drop bytes
    let s1 := { s with seq := (s.seq + 1) % 65536 }
    if flags.testBit 3 then
      let vs := (List.range nvals).map fun i => signed 32 (leNat ((blk.drop (16 + 4 * i)).take 4))
      let s2 := { s1 with cut := none, resetDue := true, next := (s.next + nvals) % max 1 s.p, count := s.count + nvals }
      if (crc32c (valBytes vs)).toNat ≠ check then .error { code := 5, seq := seq, bit := 0, decoded := s2.count } else .ok (vs, s2, rest)
    else
      let reset := flags.testBit 0
      let params := if reset then wordsOf s.p (blk.drop 16) else []
      if bytes < 16 + (if reset then 4 * s.p else 0) then .error { bad with code := 3 }
      else if !(List.range params.length).all (fun i => entryGood i (params.getD i 0)) then .error bad
      else
        let s2 := if reset then s1.reset params else s1
        let body := blk.drop (16 + if reset then 4 * s.p else 0)
        let d : Dec := { st := { s2 with cut := none }, bits := leNat body, len := 8 * body.length, left := nvals }
        let d := if flags.testBit 1 then d.cont ((s2.cut.map (·.1)).getD 0) else .ok d
        match d with
        | .error e => .error e
        | .ok d => match Dec.words (nvals + 1) d with
          | .error e => .error e
          | .ok d =>
            if flags.testBit 2 && d.last.isNone then .error (d.fail 1)
            else if 8 ≤ d.len - d.at_ ∨ d.bits / 2 ^ d.at_ ≠ 0 then .error (d.fail 1)
            else if (crc32c (valBytes d.vals)).toNat ≠ check then .error { code := 5, seq := seq, bit := 0, decoded := d.st.count }
            else .ok (d.vals, { d.st with cut := if flags.testBit 2 then d.last.map (·, 0) else none }, rest)

/-- Decodes the blocks of a section in order. -/
def decodeSection : Nat → PrcSt → List Byte → Except PrcErr PrcSt
  | 0, s, _ => .ok s
  | fuel + 1, s, sec =>
    if sec.isEmpty then .ok s
    else match decodeBlock s sec with
      | .error e => .error e
      | .ok (_, s, rest) => decodeSection fuel s rest
/-- Decodes the sections of a record's parts in order. -/
def decodeSections : PrcSt → List (List Byte) → Except PrcErr PrcSt
  | s, [] => .ok s
  | s, sec :: r => match decodeSection (sec.length + 1) s sec with
    | .error e => .error e
    | .ok s => decodeSections s r

/-! ## The stream state image (R370) -/

def PosSt.bytes (s : PosSt) : List Byte :=
  leBytes 4 s.param.toNat ++ ([s.x1, s.x2, s.x3, s.rt].flatMap fun z => leBytes 4 (unsigned 32 z)) ++ leBytes 4 s.a ++ leBytes 1 s.n ++
    List.replicate 7 0
/-- The image of a stream. -/
def prcImage (stream levels ticket : Nat) (window isOpen : Bool) (s : PrcSt) : List Byte :=
  let b := leBytes 4 0x50525331 ++ leBytes 2 1 ++ leBytes 1 stream ++ leBytes 1 (if isOpen then s.p else 0) ++
    leBytes 1 (flag s.resetDue 0 + flag s.cut.isSome 1 + flag window 2) ++ leBytes 1 levels ++ leBytes 2 s.next ++ leBytes 2 s.seq ++
    leBytes 2 s.hist.length ++ leBytes 2 ((s.cut.map fun c => c.1 - 1).getD 0) ++ leBytes 2 0 ++ leBytes 4 ((s.cut.map (·.2)).getD 0) ++
    leBytes 8 ticket
  let b := padTo 4092 (b ++ s.pos.flatMap PosSt.bytes)
  b ++ leBytes 4 (crc32c b).toNat
/-- An image's MAGIC, FORMAT and CRC are right. -/
def imageOk (b : List Byte) : Bool :=
  leNat (b.take 4) == 0x50525331 && leNat ((b.drop 4).take 2) == 1 && leNat ((b.drop 4092).take 4) == (crc32c (b.take 4092)).toNat
/-- A decoder started from an image, with HFILL 0. -/
def imageState (b : List Byte) : PrcSt :=
  let n := fun off len => leNat ((b.drop off).take len)
  let p := n 7 1
  let pos := (List.range p).map fun i =>
    let o := 32 + 32 * i
    { param := wd (n o 4), x1 := signed 32 (n (o + 4) 4), x2 := signed 32 (n (o + 8) 4), x3 := signed 32 (n (o + 12) 4),
      rt := signed 32 (n (o + 16) 4), a := n (o + 20) 4, n := n (o + 24) 1 : PosSt }
  { p := p, pos := pos, next := n 10 2, seq := n 12 2, resetDue := (n 8 1).testBit 0,
    cut := if (n 8 1).testBit 1 then some (n 16 2 + 1, n 20 4) else none }

end Sys2Proof.Machine
end

