-- ==== Sys2Proof/Machine/Codec.lean ====
section
/-!
DEFINITION. Codec streams: coding a part (R348, R349, R362 to R368), demotion (R367), and the codec commands
(R372 to R377).
-/
namespace Sys2Proof.Machine

def Hub.stream (h : Hub) (s : Nat) : CodStream := h.cod.streams.get s
def Hub.streamCfg (h : Hub) (s : Nat) : StreamCfg := h.cfg.cod.streams.get s
def Hub.setStream (h : Hub) (s : Nat) (x : CodStream) : Hub := { h with cod := { h.cod with streams := h.cod.streams.put s x } }
/-- The level in use. -/
def Hub.curLevel (h : Hub) (s : Nat) : Nat := if (h.stream s).demoted then 0 else (h.streamCfg s).level
/-- Engines in service. -/
def Hub.engines (h : Hub) : List Nat := (List.range 4).filter fun e => e ∉ h.cod.lost
/-- The engine that serves a stream. -/
def Hub.engineOf (h : Hub) (s : Nat) : Nat := h.engines.getD (Config.engineOf s % max 1 h.engines.length) 0

/-- Parameter entries for the present channels of a record, in entry order (R361, R371 to R373). -/
def Hub.streamParams (h : Hub) (s : Nat) (present : List Nat) : List Word :=
  let c := h.streamCfg s
  (List.range present.length).map fun i =>
    match (if s < 64 then h.cfg.cod.chans.get (present.getD i 0) else none) with
    | none => paramWord c.order 63 0 c.kInit
    | some k =>
      let r := match k.nb with | some n => present.findIdx (· == n) | none => 63
      paramWord k.order (if r < i then r else 63) k.beta k.kInit

/-- The stream's state image (R370). -/
def Hub.image (h : Hub) (s ticket : Nat) : List Byte :=
  let x := h.stream s
  prcImage s ((h.streamCfg s).level + h.curLevel s * 8) ticket x.window x.isOpen x.st

/-- The open record of a stream's writer. -/
def Hub.openTicket (h : Hub) (s : Nat) : Option Nat := if s < 64 then (h.jrn.writers.get s).openRec else none

/-- The ticket of the record that a stream codes, once that record has opened: not while a part that ends the one before it still waits to
land (R321, R375). -/
def Hub.recTicket (h : Hub) (s : Nat) : Option Nat :=
  if h.jrn.parts.any (fun p => p.writer == s && p.last) then none else h.openTicket s

/-- At a block boundary the waiting CODEC_STATE_SAVE commands complete, once the record has its ticket (R375). -/
def Hub.saveImages (h : Hub) (s entry : Nat) (ticket : Option Nat) : Hub :=
  let x := h.stream s
  match ticket with
  | none => h
  | some t =>
    let img := wordsOf 1024 (h.image s t)
    let r := [lo32 t, hi32 t, wd (x.st.seq + entry * 65536), wd x.st.count]
    x.saves.foldl (fun h sv =>
      ({ h with cod := { h.cod with save := h.cod.save.puts (1024 * sv.2) img } }).complete sv.1 DONE r)
      (h.setStream s { x with saves := [] })

/-- A verification failure of the engine that serves a stream (R368). The ticket of a record that has not opened yet is free. -/
def Hub.verifyFail (h : Hub) (s : Nat) (ticket : Option Nat) : Hub :=
  let e := h.engineOf s
  let now := h.xoCycles
  let recent := ((h.cod.fails.get e).filter fun t => now < 49152000 + t) ++ [now]
  let h := { h with cod := { h.cod with fails := h.cod.fails.put e recent } }
  let h := h.raise 65 (b1 s ++ b1 e ++ b4 (ticket.getD (Config.ticketOpen s now).toNat))
  if 3 ≤ recent.length ∧ e ∉ h.cod.lost then
    ({ h with cod := { h.cod with lost := h.cod.lost ++ [e] } }).raise 66 (b1 e)
  else h

/-- Codes values on a stream into blocks, each with its number of values; `fails` names the blocks, counted from 0, whose verification fails;
`drop` the value at which the stream drops to level 0; `more` the values of the record that follow. -/
def Hub.encode (h : Hub) (s entry : Nat) (ticket : Option Nat) (params : List Word) (fails : List Nat) (more : List Int) :
    Nat → Nat → Option Nat → List Int → Hub × List (List Byte × Nat)
  | 0, _, _, _ => (h, [])
  | fuel + 1, i, drop, vals =>
    if vals.isEmpty then (h, [])
    else
      let x := h.stream s
      let lev := if drop.isSome then (h.streamCfg s).level else h.curLevel s
      let o := encodeBlock lev (h.streamCfg s).blockBytes (x.demoted && drop.isNone) h.engines.isEmpty (fails.contains i) params x.st vals drop more
      let c := bump x.counts 0 1
      let c := if o.raw then bump c 1 1 else c
      let c := if fails.contains i then bump c 2 1 else c
      let c := if o.cut then bump c 4 1 else c
      let h := h.setStream s { x with st := o.st, isOpen := true, counts := c, values := (x.values + o.count) % 2 ^ 64, bytes := (x.bytes + o.bytes.length) % 2 ^ 64 }
      let h := if fails.contains i then h.verifyFail s ticket else h
      let h := h.saveImages s entry ticket
      let drop := match drop with | some d => if d < o.count then none else some (d - o.count) | none => none
      let r := h.encode s entry ticket params fails more fuel (i + 1) drop o.rest
      (r.1, (o.bytes, o.count) :: r.2)

/-- A value of the stream may have waited in staging for longer than DEMOTE_US: one is staged whose instant lies further back, or a segment
has been in copy for that long (R367). -/
def Hub.waitsLong (h : Hub) (s : Nat) : Bool :=
  let us := (h.streamCfg s).demoteUs
  let d := (fr us 1000000).toT
  if s < 64 then (h.jrn.groups.get s).staged.any fun o => o.epoch != h.tb.epoch || tLt (o.t + d) h.sampleT
  else (h.trg.groups.get (s - 64)).segs.any fun x => x.copying && h.passed (some x.copyAt) (ceilDiv (us * 49152) 1000)
/-- The stream's waiting time has come to half of DEMOTE_US, which starts PROMOTE_MS anew (R367). -/
def Hub.waitsHalf (h : Hub) (s : Nat) : Bool :=
  let us := (h.streamCfg s).demoteUs
  let d := (fr us 2000000).toT
  if s < 64 then (h.jrn.groups.get s).staged.any fun o => o.epoch != h.tb.epoch || tLe (o.t + d) h.sampleT
  else (h.trg.groups.get (s - 64)).segs.any fun x => x.copying && h.passed (some x.copyAt) (ceilDiv (us * 49152) 2000)
/-- Codes one part of a record, beginning the record when it is not open (R362). A demotion since the last part falls at one of its values,
which the spec does not name; values that waited for half of DEMOTE_US put a promotion off (R367, log entry 116). -/
def Hub.encodePart (h : Hub) (s entry : Nat) (ticket : Option Nat) (params : List Word) (fails : List Nat) (vals more : List Int) :
    Hub × List (List Byte × Nat) :=
  let x := h.stream s
  let x := if x.isOpen then x else { x with st := { p := params.length, pos := params.map PosSt.fresh }, isOpen := true }
  let x := if x.demoted && h.waitsHalf s then { x with demotedAt := h.xoCycles } else x
  let drop := if x.demoted then x.dropFree.map fun n => (Config.freeValue n).toNat % max 1 vals.length else none
  (h.setStream s { x with dropFree := if vals.isEmpty then x.dropFree else none }).encode s entry ticket params fails more (vals.length + 1) 0 drop vals
/-- The bytes of blocks. -/
def blocksBytes (bs : List (List Byte × Nat)) : List Byte := bs.flatMap (·.1)
/-- The length of blocks with the open one, the last, counted at its RAW length (R309, R363). -/
def blocksRoom (bs : List (List Byte × Nat)) : Nat :=
  (bs.dropLast.foldl (fun a b => a + b.1.length) 0) + match bs.getLast? with | some b => 16 + 4 * b.2 | none => 0
/-- The stream's record ends (R362). -/
def Hub.endStream (h : Hub) (s : Nat) : Hub := h.setStream s { h.stream s with isOpen := false, st := {} }

/-- A stream's staging wait exceeds DEMOTE_US; the engines stop in a hold (R367, R371). -/
def codecDemote (s : Nat) (h : Hub) : Hub :=
  let x := h.stream s
  if h.clk.held || !h.waitsLong s then h
  else if x.demoted then h.setStream s { x with demotedAt := h.xoCycles }
  else
    let x := { x with demoted := true, demotedAt := h.xoCycles, dropFree := some h.free, counts := bump x.counts 3 1 }
    let h : Hub := { h.setStream s x with free := h.free + 1 }
    let last := h.evt.lastRaise.get (1000 + s)
    if last = 0 ∨ 49152000 + (last - 1) ≤ h.xoCycles then
      let h := h.raise 64 (b1 s)
      { h with evt := { h.evt with lastRaise := h.evt.lastRaise.put (1000 + s) (h.xoCycles + 1) } }
    else h
/-- A demoted stream's waiting time has stayed below half of DEMOTE_US for PROMOTE_MS (R367). -/
def codecPromote (s : Nat) (h : Hub) : Hub :=
  let x := h.stream s
  if x.demoted && !h.clk.held && !h.waitsHalf s && h.passed (some x.demotedAt) ((h.streamCfg s).promoteMs * 49152) then
    h.setStream s { x with demoted := false, dropFree := none }
  else h

/-! ## Commands -/

/-- Streams that hold a window slot. -/
def Hub.windows (h : Hub) : Nat := ((List.range 96).filter fun s => (h.stream s).window).length
/-- The stream's group acquires, or its capture group is armed. -/
def Hub.streamBusy (h : Hub) (s : Nat) : Bool :=
  if s < 64 then (h.jrn.groups.get s).acquiring else (h.trg.groups.get (s - 64)).armed

def codecSet : CmdSpec where
  opcode := 0x0801
  len := lenIs 3
  bad := fun _ p => badIf !(rsv (pw p 0) 0x071FC07F && decide (fld (pw p 0) 20 16 ≤ 24) && decide (fld (pw p 0) 6 0 < 96) &&
    inR (fld (pw p 1) 31 16) 512 16384 && inR (fld (pw p 1) 15 0) 50 400 && rsv (pw p 2) 0xFFFF0000 && inR (fld (pw p 2) 31 16) 1 10000)
  refuse := fun h c =>
    let s := fld (pw c.pl 0) 6 0
    refuseIf (h.streamBusy s || (fld (pw c.pl 0) 26 24 != 0 && !(h.stream s).window && h.windows == 24)) BAD_STATE
  block := true
  run := fun h c =>
    let w := pw c.pl 0
    let s := fld w 6 0
    let k : StreamCfg := { level := fld w 26 24, kInit := fld w 20 16, order := fld w 15 14, blockBytes := fld (pw c.pl 1) 31 16,
                           demoteUs := fld (pw c.pl 1) 15 0, promoteMs := fld (pw c.pl 2) 31 16 }
    let h := h.setStream s { h.stream s with window := decide (k.level ≠ 0) }
    { hub := { h with cfg := { h.cfg with cod := { h.cfg.cod with streams := h.cfg.cod.streams.put s k } } } }

def codecChanSet : CmdSpec where
  opcode := 0x0802
  len := lenIs 2
  bad := fun h p =>
    let w := pw p 0
    let ch := fld w 9 0
    let nb := fld (pw p 1) 9 0
    let cs := (h.grp (h.groupOf ch)).chans
    badIf !(rsv w 0x03FFFFFF && rsv (pw p 1) 0x3FF && decide (fld w 15 11 ≤ 24) && decide (ch < 640) && h.groupOf ch != 0xFF &&
      (if bit w 10 then cs.contains nb && decide (cs.findIdx (· == nb) < cs.findIdx (· == ch)) else pw p 1 == 0))
  refuse := fun h c => refuseIf (h.acquiring (fld (pw c.pl 0) 9 0)) BAD_STATE
  block := true
  run := fun h c =>
    let w := pw c.pl 0
    let k : CodChan := { order := fld w 25 24, beta := fld w 23 16, kInit := fld w 15 11,
                         nb := if bit w 10 then some (fld (pw c.pl 1) 9 0) else none }
    { hub := { h with cfg := { h.cfg with cod := { h.cfg.cod with chans := h.cfg.cod.chans.put (fld w 9 0) (some k) } } } }

def codecStatus : CmdSpec where
  opcode := 0x0803
  len := lenIs 1
  bad := fun _ p => badIf !(rsv (pw p 0) 0x17F && decide (fld (pw p 0) 6 0 < 96))
  run := fun h c =>
    let s := fld (pw c.pl 0) 6 0
    let x := h.stream s
    let ws := [wd ((h.streamCfg s).level + h.curLevel s * 8 + flag x.demoted 6 + flag x.window 7 + h.engineOf s * 256),
               wd (maskOf h.engines + (24 - h.windows) * 256)] ++ (List.range 5).map (fun i => wd (x.counts.get i)) ++
              [lo32 x.values, hi32 x.values, lo32 x.bytes, hi32 x.bytes]
    { hub := if bit (pw c.pl 0) 8 then h.setStream s { x with counts := [], values := 0, bytes := 0 } else h, words := ws }

def codecStateSave : CmdSpec where
  opcode := 0x0804
  len := lenIs 1
  bad := fun _ p => badIf !(rsv (pw p 0) 0x37F && decide (fld (pw p 0) 6 0 < 96))
  refuse := fun h c =>
    let s := fld (pw c.pl 0) 6 0
    refuseIf (if s < 64 then (h.openTicket s).isNone else !((h.trg.groups.get (s - 64)).segs.any (·.copying))) BAD_STATE
  block := true
  long := fun _ _ => true
  run := fun h c =>
    let s := fld (pw c.pl 0) 6 0
    let x := h.stream s
    { hub := h.setStream s { x with saves := x.saves ++ [(c.handle, fld (pw c.pl 0) 9 8)] } }

/-- COUNT, OFFSET and SLOT of R376 are in range. -/
def stateHeadOk (w : Word) : Bool :=
  rsv w 0xFF03FF03 && inR (fld w 31 24) 1 120 && decide (fld w 17 8 + fld w 31 24 ≤ 1024)

def codecStateRead : CmdSpec where
  opcode := 0x0805
  len := lenIs 1
  bad := fun _ p => badIf !(stateHeadOk (pw p 0))
  run := fun h c =>
    let w := pw c.pl 0
    { hub := h, words := h.cod.save.gets (1024 * fld w 1 0 + fld w 17 8) (fld w 31 24) }

def codecStateWrite : CmdSpec where
  opcode := 0x0806
  len := fun p => p.length == 1 + fld (pw p 0) 31 24
  bad := fun _ p => badIf !(stateHeadOk (pw p 0))
  refuse := fun h c => refuseIf (h.cod.checks.any fun k => k.slot == some (fld (pw c.pl 0) 1 0)) BAD_STATE
  run := fun h c =>
    let w := pw c.pl 0
    { hub := { h with cod := { h.cod with save := h.cod.save.puts (1024 * fld w 1 0 + fld w 17 8) (c.pl.drop 1) } } }

/-- A landed record that the hub holds, an open one with what has landed of it. -/
def Hub.heldRec (h : Hub) (t : Nat) : Option Rec :=
  (h.jrn.recs.find? fun r => r.ticket == t).map fun r =>
    if r.isOpen then { r with body := (match r.block with | some b => b.bytes h.tag | none => []) ++ r.body } else r
/-- The bytes of a save slot. -/
def Hub.slotBytes (h : Hub) (k : Nat) : List Byte := bytesOf (h.cod.save.gets (1024 * k) 1024)

def codecCheck : CmdSpec where
  opcode := 0x0807
  len := lenIs 4
  bad := fun h p =>
    let w := pw p 0
    let r := h.heldRec (mask64 (pw p 1) (pw p 2))
    badIf !(rsv w 0x80FF0003 && rsv (pw p 3) 0xFFFF && (bit w 31 || pw p 3 == 0) &&
      (!bit w 31 || imageOk (h.slotBytes (fld w 1 0))) && r.all fun r => r.type == 2 || (r.type == 1 && fld w 23 16 == 0))
  refuse := fun h c => refuseIf (h.heldRec (mask64 (pw c.pl 1) (pw c.pl 2))).isNone BAD_STATE
  long := fun _ _ => true
  run := fun h c =>
    let w := pw c.pl 0
    let k : CodCheck := { handle := c.handle, slot := if bit w 31 then some (fld w 1 0) else none, entry := fld w 23 16,
                          ticket := mask64 (pw c.pl 1) (pw c.pl 2), startSeq := fld (pw c.pl 3) 15 0 }
    { hub := { h with cod := { h.cod with checks := h.cod.checks ++ [k] } } }

/-! ## CODEC_CHECK's decoding (R377) -/

/-- VALUES sections of a SAMPLE BLOCK's parts (R308). -/
def partValues : Nat → List Byte → List (List Byte)
  | 0, _ => []
  | fuel + 1, b =>
    if b.length < 8 then []
    else
      let v := leNat (b.take 2)
      let inst := leNat ((b.drop 2).take 2)
      let q := leNat ((b.drop 4).take 2)
      let _ := inst
      let len := 8 + v + q
      (b.drop 8).take v :: partValues fuel (b.drop ((len + 7) / 8 * 8))
/-- The same on an ORDER grid, whose parts carry TIMES. -/
def partValuesOrder : Nat → List Byte → List (List Byte)
  | 0, _ => []
  | fuel + 1, b =>
    if b.length < 8 then []
    else
      let v := leNat (b.take 2)
      let len := 8 + v + leNat ((b.drop 4).take 2) + 4 * leNat ((b.drop 2).take 2)
      (b.drop 8).take v :: partValuesOrder fuel (b.drop ((len + 7) / 8 * 8))

/-- Channel entries of a SEGMENT with their VALUES sections (R184, R315). -/
def segValues (body : List Byte) : List (List Byte) :=
  let nCh := (body.getD 17 0).toNat
  let nCauses := leNat ((body.drop 18).take 2)
  let ents := (body.drop (64 + 16 * nCauses)).take (16 * nCh)
  let data := body.drop (64 + 16 * nCauses + 16 * nCh)
  ((List.range nCh).foldl (fun (acc : List (List Byte) × List Byte) i =>
    if leNat ((ents.drop (16 * i + 4)).take 4) = 0 then (acc.1 ++ [[]], acc.2)
    else
      let b := acc.2
      let v := leNat (b.take 4)
      let len := 24 + v + leNat ((b.drop 4).take 4) + leNat ((b.drop 8).take 4)
      (acc.1 ++ [(b.drop 24).take v], b.drop ((len + 7) / 8 * 8))) ([], data)).1

/-- Blocks before block `seq` are passed over. -/
def skipBlocks : Nat → Nat → List Byte → List Byte
  | 0, _, b => b
  | fuel + 1, seq, b =>
    if b.isEmpty ∨ leNat ((b.drop 10).take 2) = seq then b else skipBlocks fuel seq (b.drop (max 16 (leNat ((b.drop 4).take 2))))

/-- The same over the sections of a record's parts. -/
def skipTo (seq : Nat) : List (List Byte) → List (List Byte)
  | [] => []
  | s :: r => match skipBlocks s.length seq s with
    | [] => skipTo seq r
    | t => t :: r

/-- The result words of a check (R377). -/
def Hub.checkResult (h : Hub) (k : CodCheck) : List Word :=
  match h.heldRec k.ticket with
  | none => [0, 0, 0, 0]
  | some r =>
    let start := fun (p : Nat) => match k.slot with
      | some s => { imageState (h.slotBytes s) with count := 0 }
      | none => ({ p := p } : PrcSt)
    let word := fun (e : PrcErr) (entry : Nat) => [wd e.code, wd (entry + e.seq * 65536), wd e.bit, wd e.decoded]
    if r.type = 1 then
      let nCh := (r.body.getD 0 0).toNat
      let ents := (r.body.drop 32).take (4 * nCh)
      let p := ((List.range nCh).filter fun i => (ents.getD (4 * i + 2) 0).toNat == 1).length
      let parts := r.body.drop (32 + 4 * nCh)
      let sec := if (r.body.getD 1 0).toNat = 1 then partValuesOrder parts.length parts else partValues parts.length parts
      let secs := if k.slot.isSome then skipTo k.startSeq sec else sec
      match decodeSections (start p) secs with
      | .error e => word e 0
      | .ok s => [0, 0, 0, wd s.count]
    else
      let secs := segValues r.body
      let go := (List.range secs.length).foldl (fun (acc : Except (PrcErr × Nat) Nat) i =>
        match acc with
        | .error e => .error e
        | .ok n =>
          if i < k.entry then .ok n
          else
            let sec := secs.getD i []
            let first := decide (i = k.entry) && k.slot.isSome
            let sec := if first then skipBlocks sec.length k.startSeq sec else sec
            match decodeSection (sec.length + 1) { (if first then start 1 else { p := 1 }) with count := 0 } sec with
            | .error e => .error ({ e with decoded := e.decoded + n }, i)
            | .ok s => .ok (n + s.count)) (.ok 0)
      match go with
      | .error (e, i) => word e i
      | .ok n => [0, 0, 0, wd n]

/-- The oldest CODEC_CHECK's decoding ends, unless the engines are held (R371, R377). -/
def codecCheckDone (h : Hub) : Hub :=
  match if h.clk.held then [] else h.cod.checks with
  | [] => h
  | k :: r => ({ h with cod := { h.cod with checks := r } }).complete k.handle DONE (h.checkResult k)

end Sys2Proof.Machine
end

