-- ==== Sys2Proof/Machine/Resample.lean ====
section
/-!
DEFINITION. The resampler's coefficients: the free prototype where it meets the limits of R128, one that does otherwise (R127, R128).
-/
namespace Sys2Proof.Machine

/-- 2^40 cos(2π n/d), from its series: 43406979202188 is (2π)^2 2^40. -/
def cosTurn (n : Int) (d : Nat) : Int :=
  let r := (n % (d : Int)).toNat
  let r := if d < 2 * r then d - r else r
  let x : Int := ((43406979202188 * r * r / (d * d) : Nat) : Int)
  (List.range 16).foldl (fun (a : Int) j =>
    let k := 16 - j
    2 ^ 40 - a * x / (2 ^ 40 * ((2 * k - 1) * (2 * k) : Nat))) (2 ^ 40)

/-- A sum over the sixteen inputs of a phase. -/
def sum16 (f : Nat → Int) : Int := (List.range 16).foldl (fun a i => a + f i) 0

/-- The free prototype. No input outside the output's window contributes (R113), so the last coefficient of phase 0, which phase 128
would put on an input outside it, is 0. -/
def rsFree (ph i : Nat) : Int := if ph % 128 = 0 ∧ i = 15 then 0 else Config.rsCoef (ph % 128) i
/-- A prototype's coefficient `i` in a phase from 0 to 127, its centre moved so that the gain at DC is 1 within 2^-20 (R128). -/
def rsRow (frac : Nat) (c : Nat → Nat → Int) (ph i : Nat) : Int :=
  if i = 7 then
    let rest := sum16 fun j => if j = 7 then 0 else c ph j
    let one : Int := 2 ^ frac
    let tol : Int := if frac < 20 then 0 else 2 ^ (frac - 20)
    clampI (c ph 7) (one - tol - rest) (one + tol - rest)
  else c ph i
/-- Its coefficient of input `i` in a phase from 0 to 128; phase 128 is phase 0 one input later (R127). -/
def rsTap (frac : Nat) (c : Nat → Nat → Int) (ph i : Nat) : Int :=
  if ph = 128 then (if i = 0 then 0 else rsRow frac c 0 (i - 1)) else rsRow frac c ph i

/-- A response at 7 k/400 of f_F, in 2^-40 of the coefficients' unit: real and imaginary part. -/
def rsResponse (row : List Int) (k : Nat) : Int × Int :=
  let n := fun (i : Nat) => 7 * (k : Int) * ((i : Int) - 7)
  (sum16 fun i => row.getD i 0 * cosTurn (n i) 400, sum16 fun i => row.getD i 0 * cosTurn (n i - 100) 400)
/-- A prototype meets the limits of R128 from 0 to 0.35 × f_F in every phase and halfway to the next: flat within ±0.005 dB, and no
further from the ideal interpolation than 70 dB below the input, which bounds its images and aliases. It is asked at every 0.0175 × f_F
(log entry 12). -/
def rsMeets (frac : Nat) (c : Nat → Nat → Int) : Bool :=
  (List.range 256).all fun h =>
    let row := (List.range 16).map fun i => (2 - (h % 2 : Nat)) * rsTap frac c (h / 2) i + (h % 2 : Nat) * rsTap frac c (h / 2 + 1) i
    let one : Int := 2 ^ (frac + 1)
    let u := (one * 2 ^ 40) * (one * 2 ^ 40)
    (List.range 21).all fun k =>
      let r := rsResponse row k
      let n : Int := 7 * k * h
      let a := r.1 - one * cosTurn n 102400
      let b := r.2 - one * cosTurn (n - 25600) 102400
      let p := r.1 * r.1 + r.2 * r.2
      decide (10000000 * (a * a + b * b) ≤ u) && decide (9977001 * u ≤ 10000000 * p) && decide (10000000 * p ≤ 10023052 * u)

/-- A prototype that meets them: a windowed sinc in 2^-30; 3454217652358 is π 2^40. -/
def rsSinc (ph i : Nat) : Int :=
  let n : Int := 128 * (7 - (i : Int)) + (ph : Int)
  if n = 0 then 2 ^ 30
  else
    let a : List Int := [45048904, 49653340, 5377602, -54241, -60813, 64003, -28795]
    let w := (List.range 7).foldl (fun (s : Int) k => s + a.getD k 0 * cosTurn (k * n) 2048) 0
    roundDiv (cosTurn (n - 64) 256 * w * n.sign) (800000000 * 3454217652358 * n.natAbs)
/-- The same with unit gain at DC in every phase. -/
def rsSafe (ph i : Nat) : Int := roundDiv (rsSinc ph i * 2 ^ 30) (sum16 (rsSinc ph)).toNat

/-- The free prototype meets the limits of R128. -/
def rsFreeOk : Bool := rsMeets Config.rsFrac rsFree
/-- Fraction bits of the coefficients. -/
def rsFrac : Nat := if rsFreeOk then Config.rsFrac else 30
/-- Coefficient of input `i` in a phase from 0 to 128 (R127, R128). -/
def rsCoef (ph i : Nat) : Int := if rsFreeOk then rsTap Config.rsFrac rsFree ph i else rsTap 30 rsSafe ph i

end Sys2Proof.Machine
end

