-- ==== Sys2Proof/Machine/Chain.lean ====
section
/-!
DEFINITION. One channel's chain: CIC, residual correction, FIR with bank fade, resampler, windows and flags
(R113, R118 to R134, R138, R142, R144).
-/
namespace Sys2Proof.Machine

/-- What a channel's profile and input fix of its chain. -/
structure Geo where
  p : Profile
  fin : Fr
  sig : Fr
  fast : Bool
  /-- Inputs by which the decimations are phased: a pod's whole-interval offset in BYPASS, so that timestamps fall on the output
  grid (R121, R135). -/
  ph : Int
deriving DecidableEq, Repr

/-- The geometry of a configured channel. -/
def Hub.geoOf (h : Hub) (ch : Nat) : Option (ChanCfg × Geo) :=
  (h.geo ch).map fun g => (g.1, { p := g.2.1, fin := g.2.2, sig := h.sigma ch, fast := isFast ch
                                  ph := if isRemote ch && g.2.1.mode == 0 then (h.chain ch).d / 65536 else 0 })

/-- CIC outputs on either side of the FIR's centre; inputs of the FIR per output. -/
def Geo.half (g : Geo) : Int := if g.p.full then ((g.p.l - 1) / 2 : Nat) else 0
def Geo.dec (g : Geo) : Int := if g.p.full then (g.p.d : Nat) else 1
def Geo.fF (g : Geo) : Fr := g.p.fF g.fin
/-- Half-widths of the Pepper and of the Saffron window (R113, R133). -/
def Geo.wC (g : Geo) : Fr := g.p.tauC g.fin
def Geo.wS (g : Geo) : Fr := g.p.w g.fin
/-- Pin instant of input `i`, and timestamps of CIC output `c` and FIR output `q`. -/
def Geo.pin (g : Geo) (i : Int) : Fr := ((fr i 1).div g.fin).sub g.sig
def Geo.cT (g : Geo) (c : Int) : Fr := g.pin (c * (g.p.m : Nat) + g.ph)
def Geo.qT (g : Geo) (q : Int) : Fr := g.cT (q * g.dec)
/-- The first input whose pin instant is at or after `t`; the first CIC and FIR outputs computed from it (R137). -/
def Geo.u0 (g : Geo) (t : Fr) : Nat := ((t.add g.sig).mul g.fin).ceil.toNat
def Geo.c0 (g : Geo) (t : Fr) : Int := -(((g.p.hc : Nat) + g.ph - (g.u0 t : Int)) / ((max 1 g.p.m : Nat) : Int))
def Geo.q0 (g : Geo) (t : Fr) : Int := -((g.half - g.c0 t) / g.dec)
/-- Timestamp of output `n` of a channel on a time grid. -/
def Geo.outT (g : Geo) (n : Nat) : Fr :=
  if g.p.mode = 0 then g.qT n else if g.p.mode = 1 then (fr n 1).div g.fF else fr n (max 1 g.p.fOut)
/-- The first Pepper output, FIR output and channel output stamped at or after `t`. -/
def Geo.firstC (g : Geo) (t : Fr) : Nat := ((((t.add g.sig).mul g.fin).sub (fr g.ph 1)).mul (fr 1 (max 1 g.p.m))).ceil.toNat
def Geo.firstQ (g : Geo) (t : Fr) : Nat := ((((t.add g.sig).mul g.fin).sub (fr g.ph 1)).mul (fr 1 g.p.md)).ceil.toNat
def Geo.firstOut (g : Geo) (t : Fr) : Nat :=
  if g.p.mode = 0 then g.firstQ t
  else if g.p.mode = 1 then (t.mul g.fF).ceil.toNat
  else if g.p.mode = 2 then (t.mul (fr g.p.fOut 1)).ceil.toNat else 0
/-- The sync instant. -/
def Chain.tsF (k : Chain) : Fr := frCyc k.ts

/-! ## Windows and flags (R113) -/

/-- Quality bits of R112. -/
def qU : Nat := 1
def qC : Nat := 2
def qO : Nat := 4
def qF : Nat := 8
def qT : Nat := 16
def qX : Nat := 32
def qE : Nat := 64
def qS : Nat := 128
/-- A quality byte has the flag. -/
def hasQ (q f : Nat) : Bool := q / f % 2 == 1

/-- A window [lo, hi] meets the span [a, b]. -/
def meets (lo hi : Fr) (a b : T64) : Bool := (frT a).le hi && lo.le (frT b)
/-- Some input instant of the window is missing (R142). -/
def Chain.lacks (k : Chain) (t w : Fr) : Bool :=
  k.missing.any fun s => s.a.le (t.add w) && (t.sub w).le s.b

/-- Flags of an output stamped `t` with half-width `w`: U, O, F, T and X. -/
def Chain.flags (k : Chain) (g : Geo) (f : FaultSt) (t w : Fr) : Nat :=
  let lo := t.sub w
  let hi := t.add w
  let inp := k.flagged.foldl (fun q x => if lo.le (g.pin x.1) && (g.pin x.1).le hi then q ||| x.2 else q) 0
  let u := (lo.lt k.tsF && k.tsF.le hi) || k.tail.any fun n => lo.lt (frCyc n) && (frCyc n).le hi
  let bad := (f.from_.any fun a => (frT a).le hi && f.till.all fun b => lo.le (frT b)) || k.faulty.any fun s => meets lo hi s.1 s.2
  let x := k.settle.any fun s => meets lo hi s.1 s.2
  let tr := k.trimAt.any fun a => meets lo hi a a
  inp ||| (if u then qU else 0) ||| (if bad then qF else 0) ||| (if x then qX else 0) ||| if tr then qT else 0

/-! ## CIC (R118, R119) and residual (R89) -/

/-- Bits of the CIC's arithmetic: modulo 2^44 in LSBs of its input, with one more for the half LSB of a two-tap average (R118). -/
def Profile.cicBits (p : Profile) : Nat := if p.twoTap then 45 else 44
/-- Integrators take an input, modulo `m`. -/
def integrate (m : Nat) : Nat → List Nat → Nat → List Nat × Nat
  | 0, _, x => ([], x)
  | n + 1, l, x =>
    let y := (l.headD 0 + x) % m
    let r := integrate m n l.tail y
    (y :: r.1, r.2)
/-- Combs take a decimated value, modulo `m`. -/
def combs (m : Nat) : Nat → List Nat → Nat → List Nat × Nat
  | 0, _, x => ([], x)
  | n + 1, l, x =>
    let r := combs m n l.tail ((x + m - l.headD 0) % m)
    (x :: r.1, r.2)

/-- y = (x − o_r)(1 + g_r), with the factor of R102: the value and whether it saturated. -/
def residual (oR gR fx x : Int) : Int × Bool :=
  sat31 (roundDiv ((x - oR) * (2 ^ 31 + gR) * (2 ^ 31 + fx)) (2 ^ 62))

/-- What a DC input of full scale gives before scaling: a mean code of `Config.codeFs`, which codes of 4 bits hold to 7, or 1.0 in Q1.23,
summed over the window, in half LSBs after a two-tap average. -/
def Profile.cicFull (p : Profile) (fast : Bool) : Nat :=
  (if fast then max 1 (min 7 Config.codeFs) else 2 ^ 23) * p.m ^ p.n * if p.twoTap then 2 else 1
/-- The scaled CIC output, rounded to Q1.31: unit gain at DC within 2^-22, and for a fast channel not below 1, so that a DC input
of +FS gives the largest value (R118). How far within these limits the gain lies is free (log entry 12). -/
def Profile.cicScale (p : Profile) (fast : Bool) (x : Int) : Int × Bool :=
  let d := clampI (Config.cicDev fast p.n p.m) (if fast then 0 else -(2 ^ 18)) (2 ^ 18)
  sat31 (roundDiv (x * (2 ^ 40 + d)) (2 ^ 9 * p.cicFull fast))

/-- The next input enters the CIC; at a decimation instant a CIC output leaves it (R118, R119). A value that would round to 1.0 in Q1.23
is the largest one of that format. -/
def Chain.feed (k : Chain) (g : Geo) (oR gR fx v : Int) : Chain × Option Tap :=
  let p := g.p
  let u := k.nextIn
  if p.m = 1 then
    let y := residual oR gR fx v
    ({ k with nextIn := u + 1 }, some { i := (u : Int) - g.ph, v := y.1, q := if y.2 then qO else 0 })
  else
    let x := if g.fast then v else min (roundDiv v 256) (2 ^ 23 - 1)
    let z := if p.twoTap then x + k.lastIn else x
    let a := integrate (2 ^ p.cicBits) p.n k.integ (unsigned p.cicBits z)
    let k := { k with nextIn := u + 1, lastIn := x, integ := a.1 }
    let at_ := (u : Int) - (p.hc : Nat) - g.ph
    if at_ % (p.m : Nat) = 0 then
      let c := combs (2 ^ p.cicBits) p.n k.comb a.2
      let s := p.cicScale g.fast (signed p.cicBits c.2)
      let y := residual oR gR fx s.1
      ({ k with comb := c.1 }, some { i := at_ / (p.m : Nat), v := y.1, q := if s.2 || y.2 then qO else 0 })
    else (k, none)

/-! ## FIR (R121, R122) -/

/-- Entry `i` of a delay line: entries before the first after a reset are 0 (R137). -/
def tapAt (l : List Tap) (first i : Int) : Option Tap :=
  if i < first then some { i := i, v := 0, q := 0 } else l.find? (·.i == i)
/-- The L values behind CIC output `c`, newest first, when none is missing. -/
def Chain.firIn (k : Chain) (g : Geo) (c : Int) : Option (List Tap) :=
  (List.range g.p.l).mapM fun (i : Nat) => tapAt k.cic (g.c0 k.tsF) (c - (i : Int))
/-- Σ h_i x_(n−i), rounded and saturated. -/
def firSum (b : Bank) (l : Nat) (xs : List Tap) : Int × Bool :=
  sat31 (roundDiv ((List.range l).foldl (fun a i => a + b.coef (min i (l - 1 - i)) * (((xs.getD i { i := 0, v := 0, q := 0 }).v))) 0) (2 ^ 23))

/-- Number of FIR output `q` in the fade of a swap: 1 for the first stamped at or after the swap instant. -/
def fadeNo (g : Geo) (s : SwapCur) (q : Int) : Int := q - (g.firstQ (frT s.instant) : Int) + 1
/-- A fade's output. -/
def fadeMix (n xf : Nat) (a b : Int × Bool) : Int × Bool :=
  if xf ≤ n then b
  else
    let w : Int := roundDiv ((n * 65536 : Nat) : Int) xf
    let y := sat31 (roundDiv ((65536 - w) * a.1 + w * b.1) 65536)
    (y.1, a.2 || b.2 || y.2)

/-- FIR output of the channel's chain for the newest CIC output, and its number in a fade. A chain in an earlier epoch than the swap
instant has not come to it, one in a later epoch lies behind it (R122, R154). -/
def Hub.firOut (h : Hub) (pn : Nat) (g : Geo) (k : Chain) (c : Int) : Option Tap × Option Nat :=
  if !g.p.full then (k.cic.head?, none)
  else if (c - g.half) % g.dec ≠ 0 then (none, none)
  else match k.firIn g c with
    | none => (none, none)
    | some xs =>
      let q := (c - g.half) / g.dec
      let val := fun b => firSum (h.bank pn b) g.p.l xs
      let o := if xs.any (fun x => hasQ x.q qO) then qO else 0
      let out := fun (y : Int × Bool) => some { i := q, v := y.1, q := if y.2 then qO else o : Tap }
      match (h.flt.swap.get pn).cur with
      | some s =>
        if !s.started then (out (val (h.activeBank pn)), none)
        else
          let n := if k.tsEpoch = s.epoch then fadeNo g s q else if epochDiff s.epoch k.tsEpoch < 0 then 0 else 1
          if n ≤ 0 then (out (val s.source), none)
          else if k.solo then (out (val s.target), none)
          else (out (fadeMix n.toNat g.p.xf (val s.source) (val s.target)), some n.toNat)
      | none => (out (val (h.activeBank pn)), none)

/-- A CIC output enters the FIR of a chain. -/
def Hub.chainPush (h : Hub) (pn : Nat) (g : Geo) (k : Chain) (x : Tap) : Chain × Option (Int × Nat) :=
  let k := { k with cic := (x :: k.cic).take (max 1 g.p.l) }
  let r := h.firOut pn g k x.i
  match r.1 with
  | some y => ({ k with fir := (y :: k.fir).take 65536 }, r.2.map (y.i, ·))
  | none => (k, none)

/-! ## Resampler (R126 to R129) -/

/-- A position with 32 fraction bits. -/
def posOf (x : Fr) : Int := (x.mul (fr (2 ^ 32) 1)).round

/-- The value interpolated at a position, when no input is missing; its saturation. -/
def Chain.interp (k : Chain) (g : Geo) (pos : Int) : Option (Int × Bool) :=
  let m := pos / 2 ^ 32
  let f := (pos % 2 ^ 32).toNat
  let ph := f / 2 ^ 25
  let mu : Int := (f / 2 ^ 9 % 65536 : Nat)
  match (List.range 16).mapM fun (i : Nat) => tapAt k.fir (g.q0 k.tsF) (m - 7 + (i : Int)) with
  | none => none
  | some xs =>
    let s := (List.range 16).foldl (fun a i =>
      a + ((65536 - mu) * rsCoef ph i + mu * rsCoef (ph + 1) i) * (xs.getD i { i := 0, v := 0, q := 0 }).v) 0
    let y := sat31 (roundDiv s (2 ^ (16 + rsFrac)))
    some (y.1, y.2 || xs.any fun x => hasQ x.q qO)

/-- What stage 4 gives next: index, exact instant, angle index in ORDER mode, and the value, when it has one. -/
structure Stage4 where
  n : Nat
  t : Fr
  order : Option (Nat × Nat)
  v : Option (Int × Bool)
deriving DecidableEq, Repr

/-- Index of the newest FIR output. -/
def Chain.newest (k : Chain) : Option Int := k.fir.head?.map (·.i)

/-- The next output of stage 4 once its latest input has arrived. -/
def Chain.stage4 (k : Chain) (g : Geo) : Option Stage4 :=
  match k.newest with
  | none => none
  | some top =>
    let n := k.nextOut
    let at_ := fun (t : Fr) (o : Option (Nat × Nat)) (pos : Int) =>
      if pos / 2 ^ 32 + 8 ≤ top then some { n := n, t := t, order := o, v := if k.lacks t g.wS then none else k.interp g pos : Stage4 } else none
    if g.p.mode = 0 then
      if (n : Int) ≤ top then
        some { n := n, t := g.qT n, order := none
               v := if k.lacks (g.qT n) g.wS then none else (tapAt k.fir (g.q0 k.tsF) n).map fun x => (x.v, hasQ x.q qO) }
      else none
    else if g.p.mode = 3 then
      match k.order.placed with
      | [] => none
      | o :: _ => if o.epoch = k.tsEpoch then at_ (frT o.t) (some (o.rev, o.step)) o.pos else none
    else
      let t := if g.p.mode = 1 then (fr n 1).div g.fF else fr n (max 1 g.p.fOut)
      at_ t none (posOf ((t.add g.sig).mul g.fF))

/-- The output has left: the next one is due, and taps behind every later window go. -/
def Chain.advance (k : Chain) (g : Geo) (s : Stage4) : Chain :=
  let lo := if g.p.mode = 0 then (s.n : Int) else posOf ((s.t.add g.sig).mul g.fF) / 2 ^ 32 - 8
  { k with nextOut := s.n + 1
           fir := k.fir.filter fun x => decide (lo ≤ x.i)
           flagged := k.flagged.filter fun x => (s.t.sub g.wS).le (g.pin x.1)
           missing := k.missing.filter fun x => (s.t.sub g.wS).le x.b
           faulty := k.faulty.filter fun x => (s.t.sub g.wS).le (frT x.2)
           trimAt := k.trimAt.filter fun x => (s.t.sub g.wS).le (frT x)
           order := { k.order with placed := k.order.placed.tail } }

/-! ## Synchronising resets (R137 to R139) -/

/-- Zeroed states; the first input is the first at or after `ts`. -/
def Chain.zero (k : Chain) (g : Geo) (ts epoch : Nat) : Chain :=
  let u := g.u0 (frCyc ts)
  { k with ts := ts, tsEpoch := epoch, nextIn := u, integ := [], comb := [], lastIn := 0, cic := [], fir := [],
           inq := k.inq.filter (fun x => x.epoch != epoch || u < x.i + x.n), tset := none }
/-- A chain starts to run: no output is stamped before `ts`. -/
def Chain.start (k : Chain) (g : Geo) (ts epoch : Nat) : Chain :=
  let t := frCyc ts
  { k.zero g ts epoch with
    running := true, nextC := g.firstC t, nextOut := g.firstOut t, outFrom := g.firstOut t, lastLack := none, restart := false,
    order := { ({} : OrderSt) with pulses := k.order.pulses, rev := k.order.rev },
    flagged := k.flagged.filter (fun x => g.u0 t ≤ x.1), missing := [] }

/-- t_set for a sync instant, in units of 2^-32 s; in ORDER mode it is known with the first output without U (R138, R161). -/
def Geo.tset (g : Geo) (ts : Nat) : Option Nat :=
  let t := frCyc ts
  let a := t.add g.wS
  if g.p.mode = 3 then none
  else
    let n := g.firstOut a
    let o := if g.p.mode = 0 then g.qT n else if g.p.mode = 1 then (fr n 1).div g.fF else fr n (max 1 g.p.fOut)
    some (o.sub t).t.toNat

end Sys2Proof.Machine
end

