-- ==== Sys2Proof/Machine/CascOps.lean ====
section
/-!
DEFINITION. Sending on a cascade port: held frames, credit and trigger messages (R420, R421, R426).
-/
namespace Sys2Proof.Machine

/-- A frame from its header to its CRC (R392, R420). -/
def frameBytes (type sub seq level flags : Nat) (payload : List Byte) : List Byte :=
  let f := b1 type ++ b1 sub ++ b2 payload.length ++ b4 seq ++ b1 level ++ b1 flags ++ b2 0 ++ payload
  f ++ leBytes 4 (crc32c f).toNat
def Hub.cPort (h : Hub) (p : Nat) : CascPort := h.casc.ports.get p
def Hub.cPortCfg (h : Hub) (p : Nat) : CascPortCfg := h.cfg.casc.ports.get p
def Hub.setCPort (h : Hub) (p : Nat) (k : CascPort) : Hub := { h with casc := { h.casc with ports := h.casc.ports.put p k } }
/-- Ports whose hop is up. -/
def Hub.cascUp (h : Hub) : List Nat := (List.range 2).filter fun p => (h.cPort p).st == .up

/-- Units of credit of a payload: 64 bytes from SOF to EOF (R395). -/
def creditCost (n : Nat) : Nat := ceilDiv (n + 18) 64

/-- Sends a frame with the next SEQ, its header and its CRC, and holds it until it is acknowledged (R420, R421). -/
def Hub.cascEmit (h : Hub) (p type : Nat) (body : List Byte) : Hub :=
  let k := h.cPort p
  let q := k.txSeq
  (h.setCPort p { k with txSeq := (q + 1) % 2 ^ 32, sent := k.sent ++ [{ seq := q, type := type, body := body }] }).send (.casc p type q (frameBytes type 0 q (if type = 1 then 0 else k.level) 0 body))

/-- ORIGIN of a RECORD frame. -/
def CFrame.origin (f : CFrame) : Nat := leNat (f.body.take 1)
/-- The waiting RECORD frame whose turn it is: the first of the next origin in rotation (R428). -/
def CascPort.turn (k : CascPort) : Option CFrame :=
  (List.range 16).foldl (fun (a : Option CFrame) i => a.or (k.waiting.find? fun f => f.origin == (k.lastOrigin + 1 + i) % 16)) none

/-- RECORD frames that wait leave while there is credit, one from each origin in turn (R421, R428). -/
def Hub.cascDrain (h : Hub) (p : Nat) : Nat → Hub
  | 0 => h
  | n + 1 =>
    let k := h.cPort p
    match k.turn with
    | some f =>
      let c := creditCost f.body.length
      if k.st = .up ∧ k.txUsed + c ≤ k.txLimit then
        ((h.setCPort p { k with waiting := k.waiting.erase f, txUsed := k.txUsed + c, lastOrigin := f.origin }).cascEmit p 5 f.body).cascDrain p n
      else h
    | none => h

/-- Sends a frame; a RECORD frame waits while it has no credit (R421). -/
def Hub.cascSend (h : Hub) (p type : Nat) (body : List Byte) : Hub :=
  let k := h.cPort p
  if type = 3 then h.send (.casc p 3 0 (frameBytes 3 0 0 k.level 0 body))
  else if type = 5 then
    let w := k.waiting ++ [{ seq := 0, type := 5, body := body }]
    (h.setCPort p { k with waiting := w }).cascDrain p w.length
  else h.cascEmit p type body

/-- A TRIGGER frame's payload (R420). -/
def trigBody (line hub unit hops epoch : Nat) (cross : T64) (seq : Nat) : List Byte :=
  b1 line ++ b1 hub ++ b1 unit ++ b1 hops ++ b2 epoch ++ b2 0 ++ bT cross ++ b4 seq

/-- The cascade message of a confirmed trigger on every port that is up (R426). -/
def Hub.ctSend (h : Hub) (line unit epoch : Nat) (cross : T64) : Hub :=
  let s := h.casc.msgSeq
  let h := { h with casc := { h.casc with msgSeq := (s + 1) % 2 ^ 32 } }
  h.cascUp.foldl (fun h p => h.cascSend p 4 (trigBody line h.sys.straps.hubId unit 0 epoch cross s)) h

end Sys2Proof.Machine
end

