-- ==== Sys2Proof/Machine/Trigger.lean ====
section
/-!
DEFINITION. Trigger units, capture groups, segments and TRIG pins (R162 to R199), up to the landing of a segment.
-/
namespace Sys2Proof.Machine

def Hub.unit (h : Hub) (u : Nat) : TrgUnit := h.trg.units.get u
def Hub.unitCfg (h : Hub) (u : Nat) : UnitCfg := h.cfg.trg.units.get u
def Hub.setUnit (h : Hub) (u : Nat) (x : TrgUnit) : Hub := { h with trg := { h.trg with units := h.trg.units.put u x } }
def Hub.cg (h : Hub) (g : Nat) : CapGroup := h.trg.groups.get g
def Hub.cgCfg (h : Hub) (g : Nat) : CapCfg := h.cfg.trg.groups.get g
def Hub.setCg (h : Hub) (g : Nat) (x : CapGroup) : Hub := { h with trg := { h.trg with groups := h.trg.groups.put g x } }
/-- Counts on a unit, in the order of R198. -/
def Hub.unitCount (h : Hub) (u i : Nat) : Hub := h.setUnit u { h.unit u with counts := bump (h.unit u).counts i 1 }

/-! ## Conditions (R163 to R167) -/

/-- Level, upper level and hysteresis of a path. -/
def UnitCfg.lv (c : UnitCfg) (pepper : Bool) : Int × Int × Int := if pepper then (c.pa, c.pb, c.pHyst) else (c.a, c.b, c.hyst)

/-- The value that the condition compares at the output `j` places back, when it exists. -/
def Path.val (c : UnitCfg) (p : Path) (j : Nat) : Option Int :=
  if c.cond = 2 then
    let w := (p.hist.drop j).take (c.k + 1)
    match w.head?, w.getLast? with
    | some a, some b => if w.length = c.k + 1 ∧ w.all (·.ok) then some (a.x - b.x) else none
    | _, _ => none
  else match p.hist[j]? with
    | some s => if s.ok then some s.x else none
    | none => none

/-- An output follows the newest one on the path. -/
def Path.follows (p : Path) (s : Seen) : Bool := p.hist.head?.any fun x => x.n + 1 == s.n && x.epoch == s.epoch
/-- Takes an output; after one that is missing the history begins anew. -/
def Path.push (p : Path) (s : Seen) : Path :=
  { p with hist := if p.follows s && !p.broken then s :: p.hist.take 258 else [s], seq := p.seq + 1, broken := false }
def Path.unprime (p : Path) : Path := { p with up := false, down := false }
/-- The path's newest output is of another epoch. -/
def Path.turns (p : Path) (epoch : Nat) : Bool := p.hist.head?.any (·.epoch != epoch)

/-- The comparison of R167. -/
def UnitCfg.holds (c : UnitCfg) (pepper : Bool) (v : Int) : Bool :=
  let l := c.lv pepper
  if c.cond = 1 then (decide (l.1 ≤ v) && decide (v ≤ l.2.1)) == (c.dir == 0)
  else if c.dir = 1 then decide (v ≤ l.1) else decide (l.1 ≤ v)

/-- An edge condition (R164): the path, and the direction and level met. -/
def Path.edge (dir : Nat) (l hy : Int) (p : Path) (v : Int) : Path × Option (Bool × Int) :=
  let up := dir != 1
  let dn := dir != 0
  if up && p.up && decide (l ≤ v) then (p.unprime, some (true, l))
  else if dn && p.down && decide (v ≤ l) then (p.unprime, some (false, l))
  else ({ p with up := p.up || (up && decide (v ≤ l - hy)), down := p.down || (dn && decide (l + hy ≤ v)) }, none)

/-- A window condition (R165). -/
def Path.window (c : UnitCfg) (lo hi hy : Int) (p : Path) (v : Int) : Path × Option (Bool × Int) :=
  let inside := decide (lo ≤ v) && decide (v ≤ hi)
  if c.dir = 0 then
    if (p.up || p.down) && inside then
      let below := match p.val c 1 with | some w => decide (w < lo) | none => p.up
      (p.unprime, some (true, if below then lo else hi))
    else if v < lo - hy then ({ p with up := true, down := false }, none)
    else if hi + hy < v then ({ p with up := false, down := true }, none)
    else (p, none)
  else
    if p.up && !inside then (p.unprime, some (false, if v < lo then lo else hi))
    else if lo + hy ≤ v ∧ v ≤ hi - hy then ({ p with up := true }, none)
    else (p, none)

/-- A path evaluates an output; the first one of another epoch finds it unprimed (R163 to R167, R192). -/
def Path.step (c : UnitCfg) (pepper : Bool) (p : Path) (s : Seen) : Path × Option (Bool × Int) :=
  let p := (if p.turns s.epoch then p.unprime else p).push s
  let l := c.lv pepper
  match p.val c 0 with
  | none => (p.unprime, none)
  | some v =>
    let p := { p with level := c.holds pepper v, live := true }
    if c.cond = 1 then p.window c l.1 l.2.1 l.2.2 v else p.edge c.dir l.1 l.2.2 v
/-- A disarmed unit sees an output: it is not primed and has no level state, but its comparison goes on for FOLLOW rules (R204). -/
def Path.watch (p : Path) (s : Seen) : Path := { (p.push s).unprime with live := false }

/-! ## The crossing instant (R170) -/

/-- Steps of a bisection. -/
def bisect (f : Int → Int) : Nat → Int → Int → Int
  | 0, _, hi => hi
  | n + 1, lo, hi =>
    if hi ≤ lo + 1 then hi
    else
      let m := (lo + hi) / 2
      if f m ≠ 0 ∧ decide (f m < 0) = decide (f lo < 0) then bisect f n m hi else bisect f n lo m
/-- The root of a function that is monotone on [lo, hi]. -/
def rootIn (f : Int → Int) (lo hi : Int) : Option Int :=
  if hi < lo then none
  else if f lo = 0 then some lo
  else if f hi = 0 ∨ decide (f hi < 0) ≠ decide (f lo < 0) then some (bisect f 40 lo hi)
  else none
/-- One output interval in the units of the crossing's position. -/
def uOne : Int := 2 ^ 24
/-- The smallest root in [0, 1] of the cubic through four values, in units of 2^-24. -/
def cubicRoot (y0 y1 y2 y3 lvl : Int) : Option Int :=
  let a := -y0 + 3 * y1 - 3 * y2 + y3
  let b := 3 * (y0 - 2 * y1 + y2)
  let c := -2 * y0 - 3 * y1 + 6 * y2 - y3
  let d := 6 * (y1 - lvl)
  let f := fun n : Int => a * n * n * n + b * n * n * uOne + c * n * uOne * uOne + d * uOne * uOne * uOne
  let g := fun n : Int => 3 * a * n * n + 2 * b * n * uOne + c * uOne * uOne
  let nv := if a = 0 then 0 else clampI ((-b * uOne) / (3 * a)) 0 uOne
  let cuts := 0 :: (rootIn g 0 nv).toList ++ [nv] ++ (rootIn g nv uOne).toList ++ [uOne]
  (List.range (cuts.length - 1)).findSome? fun i => rootIn f (cuts.getD i 0) (cuts.getD (i + 1) 0)

/-- Position of a linear crossing between two values, in units of 2^-24. -/
def linearRoot (v1 v0 : Option Int) (lvl : Int) : Int :=
  match v1, v0 with
  | some a, some b => if a = b then uOne else clampI (((fr ((lvl - a) * (if b < a then -1 else 1) * uOne) (b - a).natAbs)).round) 0 uOne
  | _, _ => uOne

/-- The instant at position `u` between two outputs. -/
def between (t1 t0 : Fr) (u : Int) : T64 := (t1.add ((t0.sub t1).mul (fr u (2 ^ 24)))).toT

/-- Crossing instant of the detection at place `j` of the history (1 once the next output is there), and LINEAR. -/
def Path.cross (c : UnitCfg) (p : Path) (j : Nat) (lvl : Int) : T64 × Bool :=
  let t0 := (p.hist[j]?.map (·.t)).getD (fr 0 1)
  let t1 := (p.hist[j + 1]?.map (·.t)).getD t0
  let cub := if j = 0 then none else
    match p.val c 3, p.val c 2, p.val c 1, p.val c 0 with
    | some a, some b, some d, some e => cubicRoot a b d e lvl
    | _, _, _, _ => none
  match cub with
  | some u => (between t1 t0 u, false)
  | none => (between t1 t0 (linearRoot (p.val c (j + 1)) (p.val c j) lvl), true)

/-! ## Segments (R179 to R190) -/

/-- Descriptors that a group holds, and that the pool has left (R183). -/
def Hub.descHeld (h : Hub) (g : Nat) : Nat := (h.cg g).segs.length
def Hub.descFree (h : Hub) : Nat := 16384 - (List.range 32).foldl (fun a g => a + h.descHeld g) 0

/-- Microseconds as a T64. -/
def usT (us : Nat) : T64 := (fr us 1000000).toT
/-- Less than 1 µs of TB_LOCAL has passed since `t`. -/
def Hub.within1us (h : Hub) (t : Nat) : Bool := decide ((h.tb.xo - t) * 1000 < 49152 * 2 ^ 40)

/-- A segment loses outputs of the channels named: TRUNCATED with END_CAUSE 1, unless it ended for another cause (R182). -/
def Seg.cut (s : Seg) (chans : List Nat) : Seg :=
  { s with truncated := s.truncated ++ chans.filter fun c => !s.truncated.contains c, status := s.status ||| 16
           endCause := if s.endCause = 0 then 1 else s.endCause }
/-- Staging wait of R73 in seconds. -/
def Hub.stageWait (h : Hub) (ch : Nat) : Fr :=
  if isFast ch then let c := h.fe.fast.get ch; fr (c.deb + c.extend) 6144000 else fr 0 1
/-- 2,048 CORE cycles, and 64 (R136, R120). -/
def coreLat : Fr := fr 2048 491520000
def pepperLat : Fr := fr 64 491520000
/-- The larger of two fractions. -/
def Fr.max (a b : Fr) : Fr := if a.le b then b else a

/-- L_ch of R180. -/
def Hub.latCh (h : Hub) (g : Nat) : Fr :=
  let k := h.cgCfg g
  k.chans.foldl (fun a ch => match h.geoOf ch with
    | some (_, q) => a.max (if k.pepper then q.wC.add pepperLat else (q.wS.add coreLat).add (h.stageWait ch))
    | none => a) (fr 0 1)
/-- The window of a segment, up to its end, contains an output. -/
def Seg.holds (k : CapCfg) (s : Seg) (o : StOut) : Bool :=
  o.epoch == s.epoch && tLe (s.anchor - usT k.pre) o.t && tLe o.t (s.anchor + usT k.post) && s.closeAt.all fun c => tLe o.t c
/-- No further output of a group's channels can fall into a segment's window: the ring holds a later output of every channel, or
TB_SAMPLE has passed the window's end and the channels' latency (R181). -/
def Hub.segOver (h : Hub) (g : Nat) (s : Seg) : Bool :=
  let k := h.cgCfg g
  let e := s.closeAt.getD (s.anchor + usT k.post)
  let past := fun (ch : Nat) => (h.cg g).ring.any fun o => o.ch == ch && (decide (0 < epochDiff s.epoch o.epoch) || (o.epoch == s.epoch && tLt e o.t))
  tLt (h.inPresent s.epoch e + (h.latCh g).toT) h.sampleT || k.chans.all past

/-- Descriptors are freed: an empty pool may be reported again (R183). -/
def Hub.descFreed (h : Hub) : Hub :=
  { h with trg := { h.trg with groups := h.trg.groups.mapAll fun _ x => { x with emptyRaised := false } } }

/-- Segments of a group that have lost every output are discarded (R182). -/
def Hub.segsDead (h : Hub) (g : Nat) : Hub :=
  let k := h.cgCfg g
  let x := h.cg g
  let dead := fun (s : Seg) => !s.truncated.isEmpty && !(x.ring.any fun o => s.holds k o) && h.segOver g s
  let n := (x.segs.filter dead).length
  if n = 0 then h
  else
    let h := h.setCg g { x with segs := x.segs.filter fun s => !dead s, dropped := sat32 (x.dropped + n), seq := (x.seq + n) % 2 ^ 32 }
    ((List.range n).foldl (fun h _ => h.raise 44 (b1 g)) h).descFreed
/-- Opens a segment in a group when it has a descriptor; the second part is false when it has none (R183). One that a trigger of an
epoch already over opens has ended with its epoch, and what the ring has overwritten of its window, or past it, is lost to it (R182, R192). -/
def Hub.segOpen (h : Hub) (g : Nat) (anchor : T64) (epoch status : Nat) (c : Cause) : Hub × Bool :=
  let x := h.cg g
  let k := h.cgCfg g
  if k.descMax ≤ h.descHeld g ∨ h.descFree = 0 then
    let h := h.setCg g { x with missed := sat32 (x.missed + 1), emptyRaised := true }
    (if x.emptyRaised then h else h.raise 45 (b1 g), false)
  else
    let lo := anchor - usT k.pre
    let clip := tLt lo (h.epochFirst epoch)
    let stop := (h.epochEnd epoch).filter fun e => tLe e (anchor + usT k.post)
    let lost := k.chans.filter fun ch => (x.gone.get ch).any fun o => instLe (epoch, lo) o
    let s : Seg := { id := x.opened, anchor := anchor, epoch := epoch, status := status + flag clip 6 + flag k.pepper 7 + flag stop.isSome 4,
                     causes := [c], endCause := if stop.isSome then 2 else 0, closeAt := stop.map (· - 1), truncated := [], copying := false }
    let short := !lost.isEmpty
    let s := if short then s.cut lost else s
    let h := h.setCg g { x with segs := x.segs ++ [s], lastOpen := some h.tb.xo, opened := x.opened + 1, autoDue := false
                                autoFrom := if epoch = h.tb.epoch then anchor else x.autoFrom
                                truncated := if short then sat32 (x.truncated + 1) else x.truncated }
    (if short then (h.raise 43 (b1 g)).segsDead g else h, true)

/-- The segment of a group that a trigger joins: an open one by its detection timestamp, or the group's previous one while 1 us has not
passed since that opened (R185, R187). -/
def Hub.segJoin (h : Hub) (g : Nat) (det : T64) (epoch : Nat) : Option Nat :=
  let x := h.cg g
  let co := (fr (h.cgCfg g).coalesce 1000000000).toT
  match x.segs.findIdx? fun s => !s.copying && s.epoch == epoch && tLe s.anchor det && tLe det (s.anchor + co) with
  | some i => some i
  | none => if x.lastOpen.any h.within1us then x.segs.findIdx? fun s => !s.copying && s.id + 1 == x.opened else none

/-- Changes segment `i` of a group. -/
def Hub.segUpd (h : Hub) (g i : Nat) (f : Seg → Seg) : Hub :=
  let x := h.cg g
  h.setCg g { x with segs := (List.range x.segs.length).filterMap fun j => (x.segs[j]?).map fun s => if j = i then f s else s }

/-- A trigger opens or joins a segment in an armed group; one that comes less than 1 us after a segment that can no longer be joined
opens its own once the 1 us has passed (R187). True when the group had no descriptor. -/
def Hub.segGroup (h : Hub) (g : Nat) (w : SegDue) : Hub × Bool :=
  let x := h.cg g
  if !x.armed then (h, false)
  else match h.segJoin g w.anchor w.epoch with
    | some i => (h.segUpd g i fun s => { s with causes := s.causes ++ [w.cause] }, false)
    | none =>
      if x.lastOpen.any h.within1us then (h.setCg g { x with due := x.due ++ [w] }, false)
      else
        let r := h.segOpen g w.anchor w.epoch w.status w.cause
        (r.1, !r.2)
/-- Changes the causes of every segment; segments left without a cause are discarded (R176, R185). -/
def Hub.segCauses (h : Hub) (f : Cause → Option Cause) : Hub :=
  (List.range 32).foldl (fun h g =>
    let x := h.cg g
    let ss := x.segs.map fun s => { s with causes := s.causes.filterMap f }
    let keep := ss.filter fun s => !s.causes.isEmpty
    let due := x.due.filterMap fun w => (f w.cause).map fun c => { w with cause := c }
    let h := if x.segs == keep && x.due == due then h else h.setCg g { x with segs := keep, due := due }
    if keep.length < ss.length then h.descFreed else h) h

/-- A cause is the trigger of unit `u` detected at `det`. -/
def Cause.isOf (c : Cause) (u : Nat) (det : T64) : Bool := c.kind == 0 && c.unit == u && c.det == det
/-- What names a trigger in its segments and actions: t_p when it was provisional, else its detection timestamp. -/
def Waiting.key (w : Waiting) : T64 := match w.prov with | some p => p.tp.toT | none => w.det.t.toT

/-- Unit `u`'s trigger got no segment in some group (R183). -/
def Hub.noSegment (h : Hub) (u : Nat) (det : T64) : Hub :=
  let h := h.unitCount u 7
  let x := h.unit u
  h.setUnit u { x with prov := x.prov.map fun p => if p.tp.toT = det then { p with noSegment := true } else p
                       waiting := x.waiting.map fun w => if w.key = det then { w with noSegment := true } else w }
/-- Segments that waited for 1 us to pass since their group's previous one open (R187). -/
def Hub.segDue (h : Hub) : Hub :=
  (List.range 32).foldl (fun h g =>
    let x := h.cg g
    if x.due.isEmpty || x.lastOpen.any h.within1us then h
    else x.due.foldl (fun h w =>
      let r := h.segGroup g w
      if r.2 && w.cause.kind == 0 then r.1.noSegment w.cause.unit w.cause.det else r.1) (h.setCg g { x with due := [] })) h

/-- A trigger opens or joins a segment in every armed group it names, and how many of them had no descriptor. -/
def Hub.segTrigger (h : Hub) (groups : Nat) (w : SegDue) : Hub × Nat :=
  (bitsOf groups 32).foldl (fun (acc : Hub × Nat) g => let r := acc.1.segGroup g w; (r.1, acc.2 + if r.2 then 1 else 0)) (h.segDue, 0)

/-! ## TRIG pins and live items -/

/-- The level that an output pin is driven to; none for an input (R191). -/
def Hub.trigLevel (h : Hub) (k : Nat) : Option Bool :=
  let c := h.cfg.trg.pins.get k
  if c.out then some ((h.trg.pulse.get k).isSome != c.activeLow) else none
/-- Pulses the output pins of a unit, anew where a pulse runs: those marked EARLY, the others, or both (R191). -/
def Hub.trigPins (h : Hub) (u : Nat) (early late : Bool) : Hub :=
  (List.range 8).foldl (fun h k =>
    let c := h.cfg.trg.pins.get k
    if c.out && c.mask.testBit u && (if c.early then early else late) then
      { h with trg := { h.trg with pulse := h.trg.pulse.put k (some h.tb.cycles) } } else h) h

/-- An item on the unit's live queue (R336). -/
def Hub.trigItem (h : Hub) (u type epoch : Nat) (tp : T64) (tail : List Word) : Hub :=
  let c := h.unitCfg u
  match c.live with
  | some q => h.liveWrite q type (flag (type == 2) 0) ([wd (u + epoch * 65536), wd (h.tag c.ch)] ++ tWords tp ++ tail)
  | none => h

/-! ## Triggers (R172 to R177, R186, R187, R189) -/

/-- The vector V of R168. -/
def Hub.qualVector (h : Hub) : Nat :=
  let lev := maskOf ((List.range 64).filter fun u =>
    let x := h.unit u
    let p := if (h.unitCfg u).pepper then x.det else x.conf
    x.armed && p.live && p.level)
  let pins := maskOf ((List.range 8).filter fun k =>
    let c := h.cfg.trg.pins.get k
    !c.out && h.trg.pinLevel.get k != c.activeLow)
  let acts := maskOf ((List.range 16).filter fun k => h.actPin k == .asserted)
  let lines := maskOf ((List.range 16).filter fun c => (h.trg.lines.get c).isSome)
  lev + pins * 2 ^ 64 + acts * 2 ^ 72 + lines * 2 ^ 88 + h.trg.soft * 2 ^ 104
/-- The condition of unit `u` is qualified. -/
def Hub.qualified (h : Hub) (u : Nat) : Bool := (h.qualVector ^^^ (h.unitCfg u).value) &&& (h.unitCfg u).mask == 0

/-- The EVENT record of a confirmed trigger, its message, live item and the records of its actions, once the crossing
instant is known (R170, R177, R189, R190). -/
def Hub.trigFinish (h : Hub) (u : Nat) (w : Waiting) (cross : T64) (linear : Bool) : Hub :=
  let c := h.unitCfg u
  let ct := c.ctOut
  let det := w.det.t.toT
  let x := h.unit u
  let h := h.setUnit u { x with waiting := x.waiting.filter (· != w), cross := cross, crossEpoch := w.det.epoch }
  let h := h.segCauses fun x => some (if x.isOf u w.key then { x with cross := cross, linear := linear } else x)
  let h := h.actCrossed u w.key cross
  let h := h.landEvent 0x20 w.det.epoch cross
    (b2 (h.tag c.ch) ++ b1 u ++ b1 (flag w.prov.isSome 0 + flag linear 1 + flag w.noSegment 2 + flag (ct < 16) 3) ++
      b1 (c.cond + c.dir * 4) ++ b1 (if ct < 16 then ct else 0xFF) ++ bT cross ++ bT det ++
      bT (match w.prov with | some p => p.inst | none => 0))
  let h := h.trigItem u 3 w.det.epoch (match w.prov with | some p => p.tp.toT | none => 0) (tWords cross)
  if ct < 16 then { (h.ctSend ct u w.det.epoch cross) with trg := { h.trg with lines := h.trg.lines.put ct (some h.tb.cycles) } } else h

/-- A trigger is confirmed by a Saffron detection (R173, R177). -/
def Hub.trigConfirm (h : Hub) (u : Nat) (p : Option Prov) (d : Det) (noSeg : Bool) : Hub :=
  let x := h.unit u
  let w : Waiting := { det := d, prov := p, noSegment := noSeg }
  let h := h.setUnit u { x with prov := none, counts := bump x.counts 1 1, waiting := x.waiting ++ [w] }
  let h := if p.isSome then h.segCauses fun c => some (if c.isOf u w.key then { c with confirmed := true } else c) else h
  let h := h.trigPins u p.isNone true
  let h := h.actConfirm u w.key p.isSome
  match x.lastCross with
  | some (s, cr, lin) => if s = d.seq then h.trigFinish u w cr lin else h
  | none => h

/-- The provisional trigger of a unit is cancelled (R44, R176). -/
def Hub.trigCancel (h : Hub) (u cause : Nat) : Hub :=
  let x := h.unit u
  match x.prov with
  | none => h
  | some p =>
    let tp := p.tp.toT
    let h := h.setUnit u { x with prov := none, counts := bump x.counts 2 1, holdEnd := none, holdLeft := 0 }
    let h := h.trigItem u 4 p.epoch tp [wd cause]
    let h := h.raise 42 (b1 u ++ bT tp ++ b1 cause)
    let h := h.segCauses fun c => if c.isOf u tp && !c.confirmed then none else some c
    h.actCancel u tp

/-- The confirmation window of a provisional trigger holds a detection (R173). It counts outputs, so that a held span, which has none, does
not use it up (R192). -/
def Hub.inWindow (h : Hub) (u : Nat) (p : Prov) (d : Det) : Bool :=
  let c := h.unitCfg u
  match h.geoOf c.ch with
  | none => false
  | some (_, g) =>
    match g.p.rate g.fin with
    | some r =>
      let half := (fr c.confWin 1).div r
      (p.tp.sub half).le d.t && d.t.le ((p.tp.add half).add (frT p.held))
    | none => p.near.any fun n => decide (n ≤ d.seq + c.confWin) && decide (d.seq ≤ n + c.confWin)
/-- The Saffron output `s`, the `seq`-th, is at or after the window's end. -/
def Hub.windowOver (h : Hub) (u : Nat) (p : Prov) (s : Seen) (seq : Nat) : Bool :=
  let c := h.unitCfg u
  match h.geoOf c.ch with
  | none => true
  | some (_, g) =>
    match g.p.rate g.fin with
    | some r => s.epoch == p.epoch && ((p.tp.add ((fr c.confWin 1).div r)).add (frT p.held)).le s.t
    | none => p.near.any fun n => decide (n + c.confWin ≤ seq)
/-- A Saffron detection confirms the provisional trigger when the direction and the window agree. -/
def Hub.trigAttach (h : Hub) (u : Nat) (d : Det) : Hub :=
  match (h.unit u).prov with
  | some p => if p.epoch = d.epoch ∧ p.rise = d.rise ∧ h.inWindow u p d then h.trigConfirm u (some p) d p.noSegment else h
  | none => h

/-- In ORDER mode the output nearest t_p is known once an output of its epoch at or after t_p has been seen (R14, R173). -/
def nearest (p : Path) (tp : Fr) (epoch : Nat) : Option Nat :=
  match p.hist.filter (·.epoch == epoch) with
  | a :: b :: _ => if tp.le a.t then some (if (a.t.sub tp).lt (tp.sub b.t) then p.seq else p.seq - 1) else none
  | [a] => if tp.le a.t then some p.seq else none
  | [] => none
def Hub.trigNear (h : Hub) (u : Nat) : Hub :=
  let x := h.unit u
  match x.prov with
  | some p =>
    if p.near.isNone then
      let h := h.setUnit u { x with prov := some { p with near := nearest x.conf p.tp p.epoch } }
      match x.lastDet with | some d => h.trigAttach u d | none => h
    else h
  | none => h

/-- The hold-off of a condition (R186): whether it is ignored, and the unit afterwards. -/
def TrgUnit.heldOff (x : TrgUnit) (s : Seen) : Bool × TrgUnit :=
  let time := match x.holdEnd with | some (e, ep) => ep == s.epoch && s.t.lt e | none => false
  let active := time || decide (0 < x.holdLeft)
  (active, { x with holdLeft := x.holdLeft - 1, holdEnd := if active then x.holdEnd else none })

/-- The unit fires (R172, R175, R186, R189). -/
def Hub.trigFire (h : Hub) (u : Nat) (s : Seen) (rise : Bool) (lvl : Int) : Hub :=
  let c := h.unitCfg u
  let x := h.unit u
  let time := c.holdMode == 1 || c.holdMode == 3
  let count := c.holdMode == 2 || c.holdMode == 3
  let x := { x with raised := some h.tb.xo, counts := bump x.counts 0 1
                    holdEnd := if time then some (s.t.add (fr c.holdT 1000000), s.epoch) else none
                    holdLeft := if count then c.holdN else 0 }
  let p := if c.pepper then x.det else x.conf
  let v := (p.val c 0).getD 0
  let t := s.t.toT
  let h := h.setUnit u x
  let cause : Cause := { unit := u, kind := 0, hub := h.sys.straps.hubId, prov := c.pepper, linear := false, value := (sat31 v).1,
                         cross := 0, det := t, confirmed := !c.pepper }
  let r := h.segTrigger c.groups { anchor := t, epoch := s.epoch, status := flag c.pepper 0, cause := cause }
  let h := r.1.setUnit u { r.1.unit u with counts := bump (r.1.unit u).counts 7 r.2 }
  if c.pepper then
    let inst := (p.cross c 0 lvl).1
    let pr : Prov := { tp := s.t, epoch := s.epoch, inst := inst, rise := rise, v := v, near := none, noSegment := decide (0 < r.2), held := 0 }
    let h := h.setUnit u { h.unit u with prov := some pr }
    let h := h.trigItem u 2 s.epoch t (tWords inst)
    let h := h.trigPins u true false
    let h := h.actProvisional u t
    let h := h.trigNear u
    match (h.unit u).prov, (h.unit u).lastDet with
    | some _, some d => h.trigAttach u d
    | _, _ => h
  else
    let d : Det := { seq := x.conf.seq, t := s.t, epoch := s.epoch, level := lvl, rise := rise, v := v }
    (h.setUnit u { h.unit u with lastDet := some d, lastCross := none }).trigConfirm u none d (decide (0 < r.2))

/-- A unit meets its condition (R145, R169, R174, R186, R187). -/
def Hub.trigCondition (h : Hub) (u : Nat) (s : Seen) (rise : Bool) (lvl : Int) : Hub :=
  let c := h.unitCfg u
  if (h.chain c.ch).xHold then h
  else if !h.qualified u then h.unitCount u 3
  else if (h.unit u).prov.isSome then h.unitCount u 4
  else
    let r := (h.unit u).heldOff s
    let h := h.setUnit u r.2
    if r.1 then h.unitCount u 5
    else if (h.unit u).raised.any h.within1us then h.unitCount u 6
    else h.trigFire u s rise lvl

/-- The crossing of the last detection is settled from the path; `j` as in `Path.cross`. -/
def Hub.trigResolve (h : Hub) (u j : Nat) : Hub :=
  let c := h.unitCfg u
  let x := h.unit u
  match x.lastDet with
  | none => h
  | some d =>
    if x.lastCross.isSome then h
    else
      let cr := x.conf.cross c j d.level
      let h := h.setUnit u { x with lastCross := some (d.seq, cr.1, cr.2) }
      (x.waiting.filter (·.det.seq == d.seq)).foldl (fun h w => h.trigFinish u w cr.1 cr.2) h

/-- The crossing instant of a unit's last detection when no later output is to come. -/
def Hub.crossNow (h : Hub) (u : Nat) : T64 :=
  match (h.unit u).lastDet with
  | some d => ((h.unit u).conf.cross (h.unitCfg u) 0 d.level).1
  | none => 0

/-- A unit takes an output of its source on the Pepper path. -/
def Hub.trigPepper (h : Hub) (u : Nat) (s : Seen) : Hub :=
  let c := h.unitCfg u
  let x := h.unit u
  let r := x.det.step c true s
  let h := h.setUnit u { x with det := r.1 }
  match r.2 with
  | some m => h.trigCondition u s m.1 m.2
  | none => h

/-- A unit takes an output of its source on the Saffron path (R170, R173). -/
def Hub.trigSaffron (h : Hub) (u : Nat) (s : Seen) : Hub :=
  let c := h.unitCfg u
  let h := if (h.unit u).conf.follows s && !(h.unit u).conf.broken then h else h.trigResolve u 0
  let x := h.unit u
  let r := x.conf.step c false s
  let h := (h.setUnit u { x with conf := r.1 }).trigResolve u 1
  let h := match r.2 with
    | some m =>
      if c.pepper then
        let d : Det := { seq := r.1.seq, t := s.t, epoch := s.epoch, level := m.2, rise := m.1, v := (r.1.val c 0).getD 0 }
        (h.setUnit u { h.unit u with lastDet := some d, lastCross := none }).trigAttach u d
      else h.trigCondition u s m.1 m.2
    | none => h
  let h := h.trigNear u
  match (h.unit u).prov with
  | some p => if h.windowOver u p s r.1.seq then h.trigCancel u 0 else h
  | none => h

/-- Units whose source is a channel. -/
def Hub.unitsOn (h : Hub) (ch : Nat) : List Nat :=
  (List.range 64).filter fun u => ((h.unit u).armed || (h.unitCfg u).set) && (h.unitCfg u).ch == ch

/-- FOLLOW rules look at a unit's comparison on its source's latest Saffron output, armed or not; one that cannot be evaluated, or is
still to come, holds. A unit that nothing has configured has no source and does not hold (R204; DEDUCED, log entry 70). -/
def Hub.unitHolds (h : Hub) (u : Nat) : Bool :=
  let c := h.unitCfg u
  (h.unit u).conf.val c 0 |>.elim (c.set || (h.unit u).armed) (c.holds false)

/-- The first output of another epoch reaches a unit: what is left of the former epoch ends, also where a remote channel's outputs came
after the break (R186, R192). -/
def Hub.unitTurn (h : Hub) (u : Nat) : Hub :=
  let h := (h.trigResolve u 0).trigCancel u 3
  h.setUnit u { h.unit u with lastDet := none, lastCross := none, holdEnd := none, holdLeft := 0 }
/-- A unit evaluates an output of its source; a disarmed one only sees it. -/
def Hub.unitOutput (h : Hub) (u : Nat) (pepper : Bool) (s : Seen) : Hub :=
  let x := h.unit u
  if !x.armed then h.setUnit u (if pepper then { x with det := x.det.watch s } else { x with conf := x.conf.watch s })
  else
    let h := if (if pepper then x.det else x.conf).turns s.epoch then h.unitTurn u else h
    if pepper then h.trigPepper u s else h.trigSaffron u s
/-- An instant of a channel is passed over, so that what a unit's outputs on both sides of it give ends there (R166, R170). -/
def Hub.trigMissed (h : Hub) (ch : Nat) : Hub :=
  (h.unitsOn ch).foldl (fun h u =>
    let h := h.trigResolve u 0
    h.setUnit u { h.unit u with conf := { (h.unit u).conf with broken := true } }) h

/-- Every unit on a channel evaluates an output (R162, R163, R176). -/
def Hub.trigOutput (h : Hub) (ch : Nat) (pepper : Bool) (n : Nat) (t : Fr) (epoch : Nat) (x : Int) (q : Nat) : Hub :=
  let fault := (h.fault ch).inFault
  let ok := !(hasQ q qU || hasQ q qF || hasQ q qX || fault)
  let us := h.unitsOn ch
  let h := if hasQ q qX then us.foldl (fun h u => h.trigCancel u 2) h else h
  let h := us.foldl (fun h u =>
    let c := h.unitCfg u
    if pepper && !c.pepper then h
    else
      let order := !pepper && (h.geoOf ch).any fun g => g.2.p.mode == 3
      let k := if order then (match (h.unit u).conf.hist.head? with | some a => a.n + 1 | none => 0) else n
      h.unitOutput u pepper { n := k, t := t, epoch := epoch, x := x, ok := ok }) h
  if pepper then h else h.actFollow h.unitHolds

/-- A fault is declared on a channel: provisional triggers on it are cancelled (R176). -/
def Hub.trigFault (h : Hub) (ch : Nat) : Hub := (h.unitsOn ch).foldl (fun h u => h.trigCancel u 1) h

/-! ## The recent ring (R178, R182) -/

/-- Outputs leave a group's ring: segments that lose some of theirs are truncated, and those that lose all are discarded (R182). -/
def Hub.ringDrop (h : Hub) (g : Nat) (gone : List StOut) : Hub :=
  let k := h.cgCfg g
  let x := h.cg g
  let hit := fun (s : Seg) => gone.filter fun o => s.holds k o
  let newly := (x.segs.filter fun s => !(hit s).isEmpty && s.truncated.isEmpty).length
  let segs := x.segs.map fun s => if (hit s).isEmpty then s else s.cut ((hit s).map (·.ch)).eraseDups
  let h := h.setCg g { x with gone := gone.foldl (fun t o => t.put o.ch (some (o.epoch, o.t))) x.gone, segs := segs
                              truncated := sat32 (x.truncated + newly) }
  let h := (List.range newly).foldl (fun h _ => h.raise 43 (b1 g)) h
  h.segsDead g
/-- An output enters the rings of the groups that hold the channel on this path, and the channel's outputs that are older by RING_MS leave
them, on the timeline of the present epoch (R178, R182). The outputs of every running chain do (R137, R299; DEDUCED, log entry 106: R178 says
that a channel which is not acquiring contributes none). -/
def Hub.ringPush (h : Hub) (pepper : Bool) (o : StOut) : Hub :=
  (List.range 32).foldl (fun h g =>
    let k := h.cgCfg g
    if !(k.chans.contains o.ch) || k.pepper != pepper then h
    else
      let x := h.cg g
      let lim := h.inPresent o.epoch o.t - (fr k.ringMs 1000).toT
      let old := fun (e : StOut) => e.ch == o.ch && tLe (h.inPresent e.epoch e.t) lim
      let h := h.setCg g { x with ring := x.ring.filter (fun e => !old e) ++ [o] }
      h.ringDrop g (x.ring.filter old)) h

/-! ## Cascade messages, AUTO and FORCED (R188, R190) -/

/-- A group opens a segment at a frame strobe: AUTO 0xFF or FORCED 0xFE. -/
def Hub.segAtStrobe (h : Hub) (g : Nat) (forced : Bool) : Hub :=
  let t := h.sampleT
  let c : Cause := { unit := 0, kind := if forced then 3 else 2, hub := h.sys.straps.hubId, prov := false, linear := false,
                     value := 0, cross := t, det := t, confirmed := true }
  (h.segOpen g t h.tb.epoch (if forced then 4 else 2) c).1

/-- Segments that AUTO and TRG_SOFT have asked for open at this strobe. -/
def Hub.segStrobe (h : Hub) : Hub :=
  (List.range 32).foldl (fun h g =>
    let x := h.cg g
    let n := x.forceDue
    let auto := x.autoDue
    let h := if n = 0 && !auto then h else h.setCg g { x with forceDue := 0, autoDue := false }
    let h := if auto && x.armed then h.segAtStrobe g false else h
    if n > 0 && x.armed then h.segAtStrobe g true else h) h

/-- AUTO_T passes since a group was armed or its last anchor; the segment opens at the next strobe (R188). -/
def autoSegment (g : Nat) (h : Hub) : Hub :=
  let x := h.cg g
  let k := h.cgCfg g
  if x.armed && k.autoEn && tLe (x.autoFrom + (fr k.autoT 1000).toT) h.sampleT then h.setCg g { x with autoDue := true } else h

/-- A cascade message acts on this hub (R190). -/
def Hub.ctApply (h : Hub) (line hub unit epoch : Nat) (cross : T64) : Hub :=
  if epoch ≠ h.tb.epoch then
    ({ h with trg := { h.trg with ctMismatch := sat32 (h.trg.ctMismatch + 1) } }).raise 46 []
  else
    let h := { h with trg := { h.trg with lines := h.trg.lines.put line (some h.tb.cycles) } }
    let c : Cause := { unit := unit, kind := 1, hub := hub, prov := false, linear := false, value := 0, cross := cross, det := cross,
                       confirmed := true }
    let gs := maskOf ((List.range 32).filter fun g => (h.cgCfg g).ctMask.testBit line)
    (h.segTrigger gs { anchor := cross, epoch := epoch, status := 8, cause := { c with value := (line : Int) } }).1

/-- A line's CT_HOLD expires, counted from its latest message (R190). -/
def ctHoldExpiry (line : Nat) (h : Hub) : Hub :=
  if !h.clk.held && (h.trg.lines.get line).any fun t => decide (t + ceilDiv (h.cfg.trg.hold.get line * 3072) 25 ≤ h.tb.cycles) then
    { h with trg := { h.trg with lines := h.trg.lines.put line none } }
  else h
/-- A TRIG input changes its level (R168). -/
def trigInputChange (k : Nat) (level : Bool) (h : Hub) : Hub := { h with trg := { h.trg with pinLevel := h.trg.pinLevel.put k level } }
/-- A TRIG output's pulse ends, TRIG_PW after its latest trigger; pins hold their level while the domains are held (R191). -/
def trigPulseEnd (k : Nat) (h : Hub) : Hub :=
  if !h.clk.held && (h.trg.pulse.get k).any fun t => decide (t + (h.cfg.trg.pins.get k).width ≤ h.tb.cycles) then
    { h with trg := { h.trg with pulse := h.trg.pulse.put k none } }
  else h

/-! ## Arming (R180, R196) -/

/-- A path as arming leaves it: unprimed and without a level state; the outputs that it has seen stay (R164, R166, R167). -/
def Path.armed (p : Path) : Path := { p.unprime with live := false, level := false }
/-- Arms a unit. -/
def Hub.unitArm (h : Hub) (u : Nat) : Hub :=
  let x := h.unit u
  if x.armed then h
  else h.setUnit u { x with armed := true, det := x.det.armed, conf := x.conf.armed, lastDet := none, lastCross := none, prov := none,
                            waiting := [], holdEnd := none, holdLeft := 0 }
/-- Disarms a unit. -/
def Hub.unitDisarm (h : Hub) (u : Nat) : Hub :=
  if (h.unit u).armed then
    let h := (h.trigCancel u 4).trigResolve u 0
    h.setUnit u { h.unit u with armed := false, holdEnd := none, holdLeft := 0 }
  else h
/-- Arms a capture group. -/
def Hub.cgArm (h : Hub) (g : Nat) : Hub :=
  let x := h.cg g
  if x.armed then h else h.setCg g { x with armed := true, autoFrom := h.sampleT, autoDue := false, sinceArm := 0 }
def Hub.cgDisarm (h : Hub) (g : Nat) : Hub := h.setCg g { h.cg g with armed := false, autoDue := false, forceDue := 0, due := [] }

/-- Every TRG_ARM that waits takes effect (R196). -/
def Hub.armApply (h : Hub) : Hub :=
  h.trg.arm.foldl (fun h r =>
    let h := (bitsOf r.disU 64).foldl (fun h u => h.unitDisarm u) h
    let h := (bitsOf r.disG 32).foldl (fun h g => h.cgDisarm g) h
    let h := (bitsOf r.armG 32).foldl (fun h g => h.cgArm g) h
    (bitsOf r.armU 64).foldl (fun h u => h.unitArm u) h) { h with trg := { h.trg with arm := [] } }

/-- Output interval of a channel; that of its present ratio in ORDER mode. -/
def Hub.interval (h : Hub) (ch : Nat) : Fr :=
  match h.geoOf ch with
  | some (_, q) => match q.p.rate q.fin with
    | some r => (fr 1 1).div r
    | none => ((fr (h.chain ch).order.ratio (2 ^ 32))).div q.fF
  | none => fr 0 1
/-- L_trg of R180 for the units armed. -/
def Hub.latTrg (h : Hub) (g units : Nat) : Fr :=
  let l := (bitsOf units 64).foldl (fun a u =>
    let c := h.unitCfg u
    if c.groups.testBit g then a.max ((fr (if c.pepper then c.confWin + 1 else 1) 1).mul (h.interval c.ch)) else a) (fr 0 1)
  if (h.cgCfg g).ctMask = 0 then l else l.max (fr h.cfg.casc.ctLat 1000000)
/-- Microseconds by which a group fails the check of R180. -/
def Hub.ringShort (h : Hub) (g units : Nat) : Nat :=
  let k := h.cgCfg g
  let need := (((fr (k.pre + k.post) 1000000).add (h.latCh g)).add (h.latTrg g units)).add (fr 1 1000)
  (((need.sub (fr k.ringMs 1000)).mul (fr 1000000 1)).ceil).toNat

/-- Units armed, and groups armed, once a TRG_ARM has taken effect, after those that wait for the same strobe. -/
def Hub.armedAfter (h : Hub) (p : List Word) : Nat × Nat :=
  let u := maskOf ((List.range 64).filter fun u => (h.unit u).armed)
  let g := maskOf ((List.range 32).filter fun g => (h.cg g).armed)
  let s := h.trg.arm.foldl (fun (s : Nat × Nat) r => (s.1 - (s.1 &&& r.disU) ||| r.armU, s.2 - (s.2 &&& r.disG) ||| r.armG)) (u, g)
  (s.1 - (s.1 &&& mask64 (pw p 2) (pw p 3)) ||| mask64 (pw p 0) (pw p 1), s.2 - (s.2 &&& (pw p 5).toNat) ||| (pw p 4).toNat)
/-- Groups that the check of R180 covers. -/
def Hub.armChecked (h : Hub) (p : List Word) : List Nat :=
  let a := h.armedAfter p
  (bitsOf a.2 32).filter fun g => bit (pw p 4) g ||
    (bitsOf (mask64 (pw p 0) (pw p 1)) 64).any fun u => (h.unitCfg u).groups.testBit g

def trgArm : CmdSpec where
  opcode := 0x0604
  len := lenIs 6
  bad := fun h p =>
    if mask64 (pw p 0) (pw p 1) &&& mask64 (pw p 2) (pw p 3) ≠ 0 ∨ pw p 4 &&& pw p 5 ≠ 0 then some []
    else match (h.armChecked p).find? fun g => h.ringShort g (h.armedAfter p).1 != 0 with
      | some g => some [0, 0, wd g, wd (h.ringShort g (h.armedAfter p).1)]
      | none => none
  block := true
  run := fun h c =>
    let p := c.pl
    let r : ArmReq := { armU := mask64 (pw p 0) (pw p 1), disU := mask64 (pw p 2) (pw p 3), armG := (pw p 4).toNat,
                        disG := (pw p 5).toNat, since := h.tb.strobes }
    { hub := { h with trg := { h.trg with arm := h.trg.arm ++ [r] } }, words := h.strobeWords ++ [0] }

/-! ## Commands (R193 to R195, R197 to R199) -/

/-- The setting that TRG_UNIT_SET describes; the qualifier is TRG_QUAL_SET's. -/
def pwUnit (o : UnitCfg) (p : List Word) : UnitCfg :=
  let w := pw p 0
  { o with set := true, cond := fld w 31 30, dir := fld w 29 28, pepper := bit w 27, holdMode := fld w 25 24, k := fld w 23 16, ch := fld w 9 0
           a := signed 32 (pw p 1).toNat, b := signed 32 (pw p 2).toNat, hyst := (pw p 3).toNat
           pa := signed 32 (pw p 4).toNat, pb := signed 32 (pw p 5).toNat, pHyst := (pw p 6).toNat
           holdT := (pw p 7).toNat, ctOut := fld (pw p 8) 28 24, confWin := fld (pw p 8) 23 16, holdN := fld (pw p 8) 15 0
           groups := (pw p 9).toNat, live := if bit (pw p 10) 4 then some (fld (pw p 10) 3 0) else none }
/-- Levels of a window condition (R165). -/
def windowOk (dir : Nat) (l : Int × Int × Int) : Bool := decide (l.1 ≤ l.2.1) && (dir == 0 || decide (2 * l.2.2 ≤ l.2.1 - l.1))
def UnitCfg.ok (c : UnitCfg) : Bool :=
  decide (c.cond ≤ 2) && decide (c.dir ≤ if c.cond = 1 then 1 else 2) && decide (c.ch < 640) &&
  (if c.cond = 2 then decide (1 ≤ c.k) else c.k == 0) && (decide (c.ctOut < 16) || c.ctOut == 31) &&
  (decide (c.holdMode < 2) || decide (1 ≤ c.holdN)) && (!c.pepper || decide (1 ≤ c.confWin)) &&
  (c.pepper || (c.pa == 0 && c.pb == 0 && c.pHyst == 0)) &&
  (if c.cond = 1 then windowOk c.dir (c.lv false) && (!c.pepper || windowOk c.dir (c.lv true)) else c.b == 0 && c.pb == 0)

def trgUnitSet : CmdSpec where
  opcode := 0x0601
  len := lenIs 11
  bad := fun _ p => badIf !(rsv (pw p 0) 0xFBFFFFFF && rsv (pw p 3) 0x7FFFFFFF && rsv (pw p 6) 0x7FFFFFFF && rsv (pw p 8) 0x1FFFFFFF &&
    rsv (pw p 10) 0x1F && (pwUnit {} p).ok)
  refuse := fun h c => refuseIf (h.unit (fld (pw c.pl 0) 15 10)).armed BAD_STATE
  block := true
  run := fun h c =>
    let u := fld (pw c.pl 0) 15 10
    let x := h.unit u
    let h := if (pwUnit {} c.pl).ch = (h.unitCfg u).ch then h else h.setUnit u { x with det := {}, conf := {} }
    { hub := { h with cfg := { h.cfg with trg := { h.cfg.trg with units := h.cfg.trg.units.put u (pwUnit (h.unitCfg u) c.pl) } } } }

/-- 128 bits from four payload words. -/
def pw128 (p : List Word) (i : Nat) : Nat := mask64 (pw p i) (pw p (i + 1)) + 2 ^ 64 * mask64 (pw p (i + 2)) (pw p (i + 3))

def trgQualSet : CmdSpec where
  opcode := 0x0602
  len := lenIs 9
  bad := fun _ p => badIf !(rsv (pw p 0) 0x3F && decide (pw128 p 1 < 2 ^ 120))
  refuse := fun h c => refuseIf (h.unit (fld (pw c.pl 0) 5 0)).armed BAD_STATE
  block := true
  run := fun h c =>
    let u := fld (pw c.pl 0) 5 0
    let k := { h.unitCfg u with mask := pw128 c.pl 1, value := pw128 c.pl 5 }
    { hub := { h with cfg := { h.cfg with trg := { h.cfg.trg with units := h.cfg.trg.units.put u k } } } }

/-- Pages of 64 KiB that a group's ring takes (R178). -/
def Hub.ringPagesOf (h : Hub) (k : CapCfg) : Nat :=
  let rate := k.chans.foldl (fun (a : Fr) ch => match h.geoOf ch with
    | some (_, g) => a.add (if k.pepper then g.fin.mul (fr 1 (max 1 g.p.m)) else (g.p.rate g.fin).getD (fr (maxRate ch) 1))
    | none => a) (fr 0 1)
  ((rate.mul (fr (5 * k.ringMs) (1000 * 65536))).ceil).toNat

/-- Pages that the rings of all groups and the cascade buffers take (R178, R302, R421). -/
def Hub.ringTotal (h : Hub) : Nat :=
  h.cfg.trg.groups.foldl (fun a k => a + h.ringPagesOf k.2) 0 +
  64 * ((List.range 2).filter fun p => (h.cPortCfg p).enable).length

def capGroupSet : CmdSpec where
  opcode := 0x0603
  len := fun p => p.length == 7 + (fld (pw p 0) 22 16 + 1) / 2
  bad := fun _ p =>
    let w := pw p 0
    let n := fld w 22 16
    badIf !(rsv w 0x007F00DF && inR n 1 64 && decide ((pw p 1).toNat ≤ 10000000) && inR (pw p 2).toNat 1 10000000 &&
      rsv (pw p 3) 0xFFFF7FFF && inR (fld (pw p 3) 31 16) 1 65535 && inR (fld (pw p 3) 14 0) 1 16384 &&
      (if bit w 7 then inR (pw p 4).toNat 1 86400000 else pw p 4 == 0) && decide ((pw p 5).toNat ≤ 1000000) && chansOk (p.drop 7) n)
  refuse := fun h c => refuseIf (h.cg (fld (pw c.pl 0) 4 0)).armed BAD_STATE
  block := true
  run := fun h c =>
    let p := c.pl
    let w := pw p 0
    let g := fld w 4 0
    let k : CapCfg := { chans := pwChans (p.drop 7) (fld w 22 16), autoEn := bit w 7, pepper := bit w 6, pre := (pw p 1).toNat,
                        post := (pw p 2).toNat, ringMs := fld (pw p 3) 31 16, descMax := fld (pw p 3) 14 0, autoT := (pw p 4).toNat,
                        coalesce := (pw p 5).toNat, segLimit := fld (pw p 6) 31 16, ctMask := fld (pw p 6) 15 0 }
    let h := { h with cfg := { h.cfg with trg := { h.cfg.trg with groups := h.cfg.trg.groups.put g k } } }
    let h := h.setCg g { h.cg g with ring := [], gone := [], segs := [], due := [], seq := 0 }
    let h := { h with jrn := { h.jrn with ringPages := h.ringTotal } }
    { hub := h.descFreed.jrnDegrade.jrnState }

def trgSoft : CmdSpec where
  opcode := 0x0605
  len := lenIs 2
  bad := fun _ p => badIf (fld (pw p 0) 15 0 &&& fld (pw p 0) 31 16 != 0)
  block := true
  run := fun h c =>
    let s := h.trg.soft ||| fld (pw c.pl 0) 15 0
    let h := { h with trg := { h.trg with soft := s - (s &&& fld (pw c.pl 0) 31 16) } }
    { hub := (bitsOf (pw c.pl 1).toNat 32).foldl (fun h g => h.setCg g { h.cg g with forceDue := 1 }) h }

/-- The unit's hold-off runs now (R198). -/
def Hub.inHold (h : Hub) (x : TrgUnit) : Bool :=
  decide (0 < x.holdLeft) || match x.holdEnd with
    | some (e, ep) => ep == h.tb.epoch && (frCyc h.tb.total).lt e
    | none => false

def trgStatus : CmdSpec where
  opcode := 0x0606
  len := lenIs 1
  bad := fun _ p => badIf !(rsv (pw p 0) 0x33F && (!bit (pw p 0) 8 || decide (fld (pw p 0) 5 0 < 32)))
  run := fun h c =>
    let w := pw c.pl 0
    let i := fld w 5 0
    if bit w 8 then
      let x := h.cg i
      let r := [wd (flag x.armed 0 + h.descHeld i * 65536), wd x.seq, wd x.landed, wd x.truncated, wd x.dropped, wd x.missed, wd h.descFree]
      { hub := if bit w 9 then h.setCg i { x with landed := 0, truncated := 0, dropped := 0, missed := 0 } else h, words := r }
    else
      let x := h.unit i
      let p := if (h.unitCfg i).pepper then x.det else x.conf
      let s := flag x.armed 0 + flag (x.armed && (p.up || p.down)) 1 + flag x.prov.isSome 2 + flag (h.inHold x) 3 + flag (x.armed && p.live && p.level) 4
      let r := wd s :: (List.range 8).map (fun j => wd (x.counts.get j)) ++ tWords x.cross ++ [wd x.crossEpoch]
      { hub := if bit w 9 then h.setUnit i { x with counts := [] } else h, words := r }

def trgIoSet : CmdSpec where
  opcode := 0x0607
  len := lenIs 4
  bad := fun _ p =>
    let w := pw p 0
    badIf !(if bit w 31 then rsv w 0x8000000F && inR (pw p 1).toNat 1 1000000 && pw p 2 == 0 && pw p 3 == 0
      else rsv w 0x000000EF && decide (fld w 3 0 < 8) && inR (pw p 1).toNat 1 65535 && (bit w 5 || (pw p 2 == 0 && pw p 3 == 0)))
  block := true
  run := fun h c =>
    let w := pw c.pl 0
    let i := fld w 3 0
    if bit w 31 then
      { hub := { h with cfg := { h.cfg with trg := { h.cfg.trg with hold := h.cfg.trg.hold.put i (pw c.pl 1).toNat } } } }
    else
      let k : PinCfg := { activeLow := bit w 7, early := bit w 6, out := bit w 5, width := (pw c.pl 1).toNat, mask := mask64 (pw c.pl 2) (pw c.pl 3) }
      { hub := { h with cfg := { h.cfg with trg := { h.cfg.trg with pins := h.cfg.trg.pins.put i k } },
                        trg := { h.trg with pulse := h.trg.pulse.put i none } } }

/-! ## Epochs and resets (R192) -/

/-- The confirmation windows that are open reach beyond a held span (R192). -/
def Hub.provHeld (h : Hub) (d : T64) : Hub :=
  { h with trg := { h.trg with units := h.trg.units.mapAll fun _ x => { x with prov := x.prov.map fun p => { p with held := p.held + d } } } }

/-- The open segments of an epoch in a group close at `t`, its last instant or that of acquisition; TRUNCATED with an epoch break. A reset
also closes those whose window has ended but whose outputs have not all come. -/
def Hub.segClose (h : Hub) (g epoch : Nat) (t : T64) (endCause : Nat) : Hub :=
  let x := h.cg g
  let k := h.cgCfg g
  let shut := fun (s : Seg) =>
    let e := s.anchor + usT k.post
    if !s.copying && s.closeAt.isNone && s.epoch == epoch && (tLt t e || (endCause == 3 && !h.segOver g s)) then
      { s with closeAt := some (if tLt t e then t else e), endCause := endCause, status := s.status ||| if endCause = 2 then 16 else 0 }
    else s
  if x.segs.isEmpty then h else h.setCg g { x with segs := x.segs.map shut }
/-- The same in every group. -/
def Hub.segsClose (h : Hub) (epoch : Nat) (t : T64) (endCause : Nat) : Hub := (List.range 32).foldl (fun h g => h.segClose g epoch t endCause) h
/-- The host has stopped groups: segments whose channels have all ceased to acquire close at `t` (R184). -/
def Hub.segsStopped (h : Hub) (t : T64) : Hub :=
  (List.range 32).foldl (fun h g => if (h.cgCfg g).chans.any h.acquiring then h else h.segClose g h.tb.epoch t 4) h

/-- Every unit settles what waits for a crossing and loses its provisional trigger. -/
def Hub.trigStop (h : Hub) (cause : Nat) : Hub := (List.range 64).foldl (fun h u => (h.trigResolve u 0).trigCancel u cause) h
/-- Units start anew, without hold-off: at an epoch break unprimed, with the comparisons that they have; after a reset with nothing seen,
their provisional triggers cancelled (R167, R176, R192). -/
def Hub.unitsAnew (h : Hub) (f : Path → Path) : Hub :=
  { h with trg := { h.trg with units := h.trg.units.mapAll fun _ x =>
      { x with det := f x.det, conf := f x.conf, lastDet := none, lastCross := none, waiting := [], holdEnd := none, holdLeft := 0 } } }
def Hub.trigRestart (h : Hub) : Hub := (h.trigStop 5).unitsAnew fun _ => {}

/-- An epoch is about to end (R192). -/
def Hub.trigEpoch (h : Hub) : Hub := (h.trigStop 3).unitsAnew Path.unprime
/-- An epoch has ended at its reading `p`; the first instant of the new one is `first` (R188, R192). -/
def Hub.trigTurn (h : Hub) (old : Nat) (p first : T64) : Hub :=
  let h := h.segsClose old (p - 1) 2
  { h with trg := { h.trg with groups := h.trg.groups.mapAll (fun _ x => { x with autoFrom := first, autoDue := false }), epochStart := first } }

/-- A datapath warm reset, RETAIN or STOPPED (R192). -/
def Hub.trigReset (h : Hub) : Hub := (h.trigStop 5).segsClose h.tb.epoch h.sampleT 3

/-- Segments are complete and confirmed: the oldest starts its copy (R181). -/
def Hub.segReady (h : Hub) (g : Nat) (s : Seg) : Bool :=
  !s.copying && h.segOver g s && s.causes.all (·.confirmed) &&
    s.causes.all fun c => c.kind != 0 || !((h.unit c.unit).waiting.any fun w => w.key == c.det)
def segmentComplete (g : Nat) (h : Hub) : Hub :=
  match if h.clk.held then none else (h.cg g).segs.findIdx? (h.segReady g) with
  | some i => h.segUpd g i fun s => { s with copying := true, copyAt := h.xoCycles }
  | none => h

end Sys2Proof.Machine
end

