-- ==== Sys2Proof/Machine/SlOps.lean ====
section
/-!
DEFINITION. GAP episodes of one channel (R39, R142, R313), missing inputs, and what landing does on a sensor lane:
frames sent, landed marks and LANDED (R392, R395, R397).
-/
namespace Sys2Proof.Machine

/-! ## GAP episodes -/

/-- The channel's GAP episodes end and their records land (R313). -/
def Hub.gapEnd (h : Hub) (ch : Nat) : Hub :=
  let mine := h.jrn.gaps.filter fun e => e.chans == [ch]
  if mine.isEmpty then h
  else
    let h := { h with jrn := { h.jrn with gaps := h.jrn.gaps.filter fun e => e.chans != [ch] } }
    mine.foldl (fun h e => h.landGap 6 e.cause e.detail (h.groupOf ch) e.unc e.epoch e.first e.last [ch]) h

/-- The channel's GAP episodes that end before an output have ended once the output is taken for landing (R313). -/
def Hub.gapEndBefore (h : Hub) (ch : Nat) (i : Nat × T64) : Hub :=
  if h.jrn.gaps.any fun e => e.chans == [ch] && instLe (e.epoch, e.last) i then h.gapEnd ch else h
/-- The channel's REFUSAL episodes end and land (R313). -/
def Hub.refusalEnd (h : Hub) (ch : Nat) : Hub :=
  let mine := h.jrn.refusals.filter fun e => e.chans == [ch]
  if mine.isEmpty then h
  else
    let h := { h with jrn := { h.jrn with refusals := h.jrn.refusals.filter fun e => e.chans != [ch] } }
    mine.foldl (fun h e => h.landGap 7 e.cause e.detail (h.groupOf ch) e.unc e.epoch e.first e.last [ch]) h

/-- An instant of a channel for which no sample is taken joins the channel's episode, or begins one; a refusal of the channel ends there
(R31, R36, R37, R39). -/
def Hub.gapInstant (h : Hub) (ch cause detail unc epoch : Nat) (t : T64) : Hub :=
  if h.covers ch epoch t then
    let h := h.refusalEnd ch
    let same := fun (e : Episode) => e.chans == [ch] && e.cause == cause && e.detail == detail && e.epoch == epoch && e.unc == unc
    if h.jrn.gaps.any same then
      { h with jrn := { h.jrn with gaps := h.jrn.gaps.map fun e => if same e then { e with last := t } else e } }
    else
      let h := h.gapEnd ch
      { h with jrn := { h.jrn with gaps := h.jrn.gaps ++
          [{ cause := cause, detail := detail, chans := [ch], epoch := epoch, first := t, last := t, unc := unc }] } }
  else h

/-- A closed GAP over every channel of the acquiring groups among those named, one record for each group. -/
def Hub.gapGroups (h : Hub) (chans : List Nat) (cause detail unc epoch : Nat) (first last : T64) : Hub :=
  (List.range 64).foldl (fun h g =>
    let x := h.chg g
    let cs := (h.grp g).chans.filter fun c => chans.contains c
    if x.acquiring && tLe first last then h.landGap 6 cause detail g unc epoch first last cs else h) h

/-! ## Missing inputs (R142) -/

/-- Inputs `i` to `j` − 1 of a chain are missing; the span's ends are their first and last pin instants. -/
def Chain.miss (k : Chain) (g : Geo) (i j cause detail unc : Nat) : Chain :=
  if i < j then { k with missing := k.missing ++ [{ a := g.pin i, b := g.pin ((j : Int) - 1), cause := cause, detail := detail, unc := unc }] } else k
/-- Inputs of a running channel are missing. -/
def Hub.missInputs (h : Hub) (ch : Nat) (i j cause detail unc : Nat) : Hub :=
  match h.geoOf ch with
  | some (_, g) => if (h.chain ch).running then h.setChain ch ((h.chain ch).miss g i j cause detail unc) else h
  | none => h

/-- The span for which an output is not produced. -/
def Chain.lackOf (k : Chain) (t w : Fr) : Option Miss := k.missing.find? fun s => s.a.le (t.add w) && (t.sub w).le s.b

/-! ## Frames to a pod (R392) -/

def Hub.lane (h : Hub) (n : Nat) : Lane := h.sl.lanes.get n
def Hub.laneCfg (h : Hub) (n : Nat) : LaneCfg := h.cfg.lanes.get n
def Hub.setLane (h : Hub) (n : Nat) (x : Lane) : Hub := { h with sl := { h.sl with lanes := h.sl.lanes.put n x } }

/-- Sends a frame with the next CSEQ. -/
def Hub.laneSend (h : Hub) (n type sub : Nat) (payload : List Byte) : Hub :=
  let x := h.lane n
  let lv := if sub == 1 && type == 8 then 0 else x.level
  (h.setLane n { x with cseq := (x.cseq + 1) % 2 ^ 32 }).send (.lane n type sub x.cseq (frameBytes type sub x.cseq lv 0 payload))

/-- LANDED with the marks of a lane (R394, R397). -/
def Hub.sendLanded (h : Hub) (n : Nat) (all : Bool) : Hub :=
  let x := h.lane n
  (h.setLane n { x with landedAt := h.xoCycles }).laneSend n 10 0 (b4 x.taken ++ b4 (x.landed.getD x.taken) ++ b4 (flag all 0))

/-- The lane carries frames: bring-up has reached AUTH or a later step. -/
def Lane.carries (x : Lane) : Bool := x.st == .up

/-- What has become of a sample: the outcome of the first output at or after its instant. -/
def Hub.sampleFate (h : Hub) (s : Nat × Nat × T64) : Option Fate := (h.chain s.1).fates.find? fun f => instLe s.2 f.inst
/-- An output of the sample's channel, at or after the sample's instant and not after `to_`, is in landing staging: there, in a closed part, or in a LATE record
that waits for a page (R32, R34, R332). -/
def Hub.sampleStaged (h : Hub) (s : Nat × Nat × T64) (to_ : Option (Nat × T64)) : Bool :=
  let within := fun (e : Nat) (t : T64) => instLe s.2 (e, t) && to_.all fun u => instLe (e, t) u
  (h.chg (h.groupOf s.1)).staged.any (fun o => o.ch == s.1 && within o.epoch o.t) ||
    (h.jrn.parts.any fun p => p.block.chans.any (fun c => c.1 == s.1 && c.2) && instLe s.2 (p.epoch, p.lastT) &&
      to_.all fun u => instLe (p.epoch, p.firstT) u) ||
    h.jrn.waiting.any fun r => r.block.any (fun b => b.chans.any fun c => c.1 == s.1) && to_.all fun u => instLe (r.epoch, r.t) u
/-- A sample has landed or been declined, or its channel lands nothing (R397). -/
def Hub.sampleDone (h : Hub) (s : Nat × Nat × T64) : Bool :=
  match h.sampleFate s with
  | some f => !(h.sampleStaged s (some f.inst))
  | none => !(h.covers s.1 s.2.1 s.2.2) && !(h.sampleStaged s none)
/-- A sample has landed. -/
def Hub.sampleLanded (h : Hub) (s : Nat × Nat × T64) : Bool := (h.sampleFate s).any (·.landed)

/-- The leading frames of a lane whose samples have all landed or been declined leave its list. A frame of which some samples
landed and others were declined counts as landed in LANDED_DSEQ, and not as declined: the spec does not say which of the two marks
it moves (DESIGN CHOICE, log entry 53). -/
def Hub.markAdvance (h : Hub) : Lane → List OpenFrame → Lane
  | x, [] => { x with open_ := [] }
  | x, f :: r =>
    if f.left.all h.sampleDone then
      let took := f.left.any h.sampleLanded
      h.markAdvance { x with landed := some f.seq, taken := if took then f.seq else x.taken, counts := if took then x.counts else bump x.counts 8 f.n } r
    else { x with open_ := f :: r }
/-- The outcomes before a sample that the landed mark has passed are forgotten. -/
def Hub.fatesPass (h : Hub) (fs : List OpenFrame) : Hub :=
  fs.foldl (fun h f => f.left.foldl (fun h s =>
    let k := h.chain s.1
    h.setChain s.1 { k with fates := k.fates.filter fun x => instLe s.2 x.inst }) h) h

/-- The landed mark of every lane advances as far as it may; LANDED follows each advance (R397). -/
def Hub.slMarks (h : Hub) : Hub :=
  (List.range 16).foldl (fun h n =>
    let x := h.lane n
    let y := h.markAdvance x x.open_
    if y.landed == x.landed then h
    else
      let h := (h.setLane n y).fatesPass (x.open_.take (x.open_.length - y.open_.length))
      if y.carries then h.sendLanded n false else h) h

/-- An outcome joins the others of its channel. -/
def insertFate (f : Fate) : List Fate → List Fate
  | [] => [f]
  | x :: r => if instLe x.inst f.inst then x :: insertFate f r else f :: x :: r
/-- The outputs of a channel that end with the one at `t` have landed, or have been declined (R31, R35). -/
def Hub.chanDone (h : Hub) (ch epoch : Nat) (t : T64) (landed : Bool) : Hub :=
  let k := h.chain ch
  let last := if k.doneAt.any (fun d => instLe (epoch, t) d) then k.doneAt else some (epoch, t)
  let fates := if isRemote ch then insertFate { inst := (epoch, t), landed := landed } k.fates else k.fates
  h.setChain ch { k with doneAt := last, fates := fates }

end Sys2Proof.Machine
end

