-- ==== Sys2Proof/Machine/Lines.lean ====
section
/-!
DEFINITION. The delay lines of the time-interval unit, their stamps and the stamp FIFO (R277 to R280, R291).
-/
namespace Sys2Proof.Machine

/-- Counter numbers of R297. -/
def cRESTART : Nat := 0
def cORPHAN : Nat := 1
def cTIMEOUT : Nat := 2
def cEARLY : Nat := 3
def cDEAD : Nat := 4
def cOVERFLOW : Nat := 5
def cHELD : Nat := 6
def cSKIPPED : Nat := 7
/-- Counter `i` of a source: inputs 0 to 7, units from 8 on, then line 8 at 16 and line 9 at 17, which the host cannot read (R291, R297). -/
def Hub.tiuCount (h : Hub) (s i : Nat) : Hub := { h with tiu := { h.tiu with counts := bump h.tiu.counts (16 * s + i) 1 } }
/-- The line that serves a source (R282, R283). -/
def Hub.tiuLine (h : Hub) (s : Nat) : Nat := match h.tiu.line.get s with | 0 => s | n + 1 => n

/-! ## Stamps (R277 to R279) -/

/-- TIME cycles in units of 2^-40 s. -/
def cyc40 (n : Nat) : Int := roundDiv ((n * 2 ^ 40 : Nat) : Int) 122880000
/-- Picoseconds in units of 2^-40 s. -/
def ps40 (p : Int) : Int := roundDiv (p * 2 ^ 40) 1000000000000
/-- The calibrated position of a tap of the line that serves a source (R277). -/
def Hub.tapPos (h : Hub) (s tap : Nat) : Nat := (h.tiu.taps.get (h.tiuLine s)).getD tap 0
/-- The stamp of an edge that had reached a tap of the source's line at the present TIME edge, less the source's delay in ps. -/
def Hub.mkStamp (h : Hub) (s tap : Nat) (dly : Int) : Stamp :=
  let back := (h.tapPos s tap : Int) + ps40 dly
  { t40 := ((cyc40 h.tb.total - back) % ((2 ^ 72 : Nat) : Int)).toNat, epoch := h.tb.epoch, free := cyc40 h.tb.cycles - back, spare := h.tiuLine s == 10 }
/-- The T64 of a stamp, and its extension EXT (R278). -/
def Stamp.t (s : Stamp) : T64 := BitVec.ofNat 64 (s.t40 / 256)
def Stamp.ext (s : Stamp) : Nat := s.t40 % 256

/-! ## The stamp FIFO (R280) -/

/-- `drained` entries have left the stamp FIFO since the last edge (R280). -/
def Hub.fifoDrain (h : Hub) (drained : Nat) : Hub :=
  let f := h.tiu.fifo - drained
  { h with tiu := { h.tiu with fifo := f, overflowRaised := h.tiu.overflowRaised && decide (256 < f) } }
/-- TIU_OVERFLOW once, until the FIFO has drained to half full (R280). -/
def Hub.fifoOverflow (h : Hub) : Hub :=
  if h.tiu.overflowRaised then h else ({ h with tiu := { h.tiu with overflowRaised := true } }).raise 50 []

/-- A stamp of source `s` takes one of the first `n` entries of the FIFO, or is discarded and counted (R280). -/
def Hub.fifoTake (h : Hub) (s n : Nat) : Hub × Bool :=
  if n ≤ h.tiu.fifo then ((h.tiuCount s cOVERFLOW).fifoOverflow, false)
  else ({ h with tiu := { h.tiu with fifo := h.tiu.fifo + 1 } }, true)

/-! ## Round trips on line 9 (R291) -/

/-- The round trip of requester `r` in ps: the stamp of the echo less the stamp of the probe, both at the balls. -/
def Hub.tripPs (h : Hub) (r : Nat) (e : RoundTrip) : Int :=
  roundDiv ((cyc40 e.cycles + h.tapPos 9 e.probe.val - h.tapPos 9 e.echo.val) * 1000000000000) (2 ^ 40) - Config.line9Offset r
/-- Line 9 stamps the probe and the echo of requester `r`: the round trip, unless the FIFO discards one of the two (R280, R291). -/
def Hub.line9Trip (h : Hub) (r : Nat) (e : RoundTrip) : Hub × Option Int :=
  let a := (h.fifoDrain e.drained).fifoTake 17 512
  let b := a.1.fifoTake 17 512
  (b.1, if a.2 && b.2 then some (h.tripPs r e) else none)

end Sys2Proof.Machine
end

