-- ==== Sys2Proof/Machine/Lanes.lean ====
section
/-!
DEFINITION. Sensor lanes (chapter 13): bring-up, frames from pods, violations, delay measurement and commands.
-/
namespace Sys2Proof.Machine

/-! ## Bring-up (R381, R382, R402 to R404) -/

/-- LV_MIN and LV_MAX of the hub (R404, R496). -/
def Hub.lvMin (h : Hub) : Nat := fld (h.slot h.sys.slotB).levels 3 0
def Hub.lvMax (h : Hub) : Nat := fld (h.slot h.sys.slotB).levels 7 4

/-! ## Line 9 of the TIU (R291) -/

/-- Probes that a requester of line 9 has to send: one of a link that is up, 16 in step 8 (R381, R389, R418, R423). -/
def Hub.probesOf (h : Hub) (r : Nat) : Nat :=
  let st := if r < 16 then (h.lane r).st else (h.cPort 0).st
  let step := if r < 16 then (h.lane r).step else (h.cPort 0).step
  if st = .up then 1 else if st = .training ∧ step = 8 then 16 else 0
/-- The probes of a requester leave; LANE_ASYM and HOP_ASYM take effect (R409, R436). -/
def Hub.probeSend (h : Hub) (r : Nat) : Hub :=
  let up := h.probesOf r == 1
  let h := { h with tiu := { h.tiu with line9At := h.xoCycles } }
  if r < 16 then
    let x := h.lane r
    let h := h.setLane r { x with unanswered := if up then x.unanswered + 1 else x.unanswered, stepAt := if up then x.stepAt else h.xoCycles
                                  use := { x.use with asym := (h.laneCfg r).asym } }
    (List.range (h.probesOf r)).foldl (fun h _ => h.send (.symbol r 0x1C 0)) h
  else
    let k := h.cPort 0
    let h := h.setCPort 0 { k with unanswered := if up then k.unanswered + 1 else k.unanswered, stepAt := if up then k.stepAt else h.xoCycles
                                   use := { k.use with asym := (h.cPortCfg 0).asym } }
    (List.range (h.probesOf r)).foldl (fun h _ => h.send (.csymbol 0 0 0x1C 0)) h
/-- The first of those who wait that still has something to measure takes the line. -/
def Hub.line9Go (h : Hub) : List Nat → Hub
  | [] => { h with tiu := { h.tiu with line9 := [] } }
  | r :: rs => if h.probesOf r = 0 then h.line9Go rs else { h with tiu := { h.tiu with line9 := r :: rs } }.probeSend r
/-- The line is free again. -/
def Hub.line9Next (h : Hub) : Hub := h.line9Go (h.tiu.line9.drop 1)
/-- A requester stops measuring. -/
def Hub.line9Free (h : Hub) (r : Nat) : Hub :=
  if h.tiu.line9.head? = some r then h.line9Next else { h with tiu := { h.tiu with line9 := h.tiu.line9.erase r } }
/-- No echo can come any more: 262 μs after the probes of a lane, 862 μs after those of a hop (DEDUCED from R378, R381, R388 and R415,
log entry 74). -/
def Hub.line9Stale (h : Hub) : Bool :=
  h.tiu.line9.head?.any fun r => decide (h.tiu.line9At + (if r < 16 then 12878 else 42370) ≤ h.xoCycles)
/-- A requester asks for the line. -/
def Hub.line9Ask (h : Hub) (r : Nat) : Hub :=
  let h := if h.line9Stale then h.line9Next else h
  if h.tiu.line9.isEmpty then h.line9Go [r]
  else if h.tiu.line9.contains r then h
  else { h with tiu := { h.tiu with line9 := h.tiu.line9 ++ [r] } }

/-! ## The steps of bring-up -/

/-- Bring-up begins at step 1 with the settings of SL_LANE_SET (R381, R409). -/
def Hub.laneStart (h : Hub) (n : Nat) : Hub :=
  let h := h.line9Free n
  let x := h.lane n
  h.setLane n { x with
    st := .training, step := 1, stepAt := h.xoCycles, inverted := false, use := h.laneCfg n, cseq := 0, rxCseq := 0, delays := [], unanswered := 0,
    slip := false, used := 0, limit := 256, level := 0, jump := false }
/-- A retrain from step 1 that keeps E and the landed mark (R381, R406). -/
def Hub.laneRetrain (h : Hub) (n : Nat) : Hub :=
  let x := h.lane n
  (h.setLane n { x with attempts := 0, counts := bump x.counts 9 1 }).laneStart n

/-- An event limited to once per second for each of several sources. -/
def Hub.raiseEach (h : Hub) (key ev : Nat) (data : List Byte) : Hub :=
  let last := h.evt.lastRaise.get key
  if last = 0 ∨ 49152000 + (last - 1) ≤ h.xoCycles then
    let h := h.raise ev data
    { h with evt := { h.evt with lastRaise := h.evt.lastRaise.put key (h.xoCycles + 1) } }
  else h

/-- A lane reset that a violation causes, or the quarantine that it leads to (R406). -/
def Hub.laneReset (h : Hub) (n : Nat) : Hub :=
  let x := h.lane n
  let k := h.laneCfg n
  let now := h.xoCycles
  let rs := now :: x.resets.filter fun t => decide (now ≤ t + k.quarWin * 49152000)
  if k.quarN ≤ rs.length then ((h.setLane n { x with st := .quarantined, resets := [], naks := [] }).line9Free n).raise 114 []
  else (h.setLane n { x with resets := rs, naks := [] }).laneRetrain n

/-- NAK with E; NAK_MAX of them within VIOL_WIN reset the lane (R396, R406). -/
def Hub.laneNak (h : Hub) (n cls : Nat) : Hub :=
  let x := h.lane n
  let now := h.xoCycles
  let ns := now :: x.naks.filter fun t => decide (now ≤ t + (h.laneCfg n).violWin * 49152)
  let e := match x.expect with | some e => e | none => (Config.freeValue h.free).toNat % 2 ^ 32
  let h := { h with free := if x.expect.isNone then h.free + 1 else h.free }
  let h := (h.setLane n { x with naks := ns, counts := bump x.counts 10 1 }).laneSend n 11 0 (b4 e ++ b1 cls ++ [0, 0, 0])
  if (h.laneCfg n).nakMax ≤ ns.length then h.laneReset n else h

/-- A violation is counted and has its first response (R405, R406). -/
def Hub.laneViolation (h : Hub) (n cls : Nat) (nak : Bool) : Hub :=
  let x := h.lane n
  let h := (h.setLane n { x with counts := bump x.counts (cls - 1) 1 }).raiseEach (2000 + n) 113 []
  if 5 ≤ cls then h.laneReset n else if nak then h.laneNak n cls else h

/-- Loss of lock on a lane (R381). -/
def slLossOfLock (n : Nat) (h : Hub) : Hub :=
  let x := h.lane n
  if x.st = .up ∨ x.st = .training then h.laneRetrain n else h

/-- XO cycles from the start of step 1 to the limit of step phy + 1: 10, 200, 10 and 10 μs, one after the other (R381, log entry 87). -/
def phyLimit (phy : Fin 4) : Nat := if phy = 0 then 492 else if phy = 1 then 10322 else if phy = 2 then 10814 else 11305
/-- The step reached: in steps 1 to 4, before step `n`, that of the receiver. -/
def phyStep (step : Nat) (phy : Fin 4) (n : Nat) : Nat := if step < n then phy.val + 1 else step
/-- XO cycles of the limit of a step without its round trip, in steps 1 to 4 of the one that the receiver has reached (R381). -/
def stepLimit (step : Nat) (phy : Fin 4) : Nat := if step < 7 then phyLimit phy else if step = 7 then 24576 else if step = 8 then 4916 else 6390
/-- A step exceeds its limit (R382). In step 8, three probes in succession without an echo are LV_STROBE (R389). -/
def slStepTimeout (n : Nat) (phy : Fin 4) (h : Hub) : Hub :=
  let x := { h.lane n with step := phyStep (h.lane n).step phy 7 }
  let waits := x.step == 8 && h.tiu.line9.contains n && h.tiu.line9.head? != some n
  if x.st ≠ .training ∨ waits ∨ h.xoCycles < x.stepAt + stepLimit x.step phy then h
  else if x.step = 8 ∧ x.delays.length + 3 ≤ 16 then h.laneViolation n 7 false
  else
    let h := h.setLane n { x with attempts := x.attempts + 1 }
    if 3 ≤ x.attempts + 1 then
      let h := (h.line9Free n)
      let h := h.setLane n { h.lane n with st := .down, stepAt := h.xoCycles, downRaised := true }
      if x.downRaised then h else h.raise 111 []
    else h.laneStart n

/-- A DOWN lane tries again every 10 ms; another failure leaves it DOWN (R382). -/
def slRetryTimer (n : Nat) (h : Hub) : Hub :=
  if (h.lane n).st = .down ∧ (h.lane n).stepAt + 491520 ≤ h.xoCycles then (h.setLane n { h.lane n with attempts := 2 }).laneStart n else h

/-- Steps 1 to 4 complete and CONTROL HELLO is sent (R381, R394). -/
def slCommaAlignment (n : Nat) (inverted : Bool) (h : Hub) : Hub :=
  let x := h.lane n
  if x.st = .training ∧ x.step < 7 then
    let d := h.draw
    (d.2.setLane n { x with step := 7, stepAt := h.xoCycles, inverted := inverted, nonceH := d.1 }).laneSend n 8 1
      (b1 h.sys.straps.hubId ++ b1 n ++ b1 h.lvMin ++ b1 h.lvMax ++ padTo 16 (d.1.take 16))
  else h

/-! ## Frames received (R392, R405) -/

/-- The class of R405 that a received frame violates. -/
def frameFault (type sub level maxFlags : Nat) (intact : Bool) (f : List Byte) : Option Nat :=
  let len := leNat ((f.drop 2).take 2)
  if !intact || decide (f.length < 16) || decide (2048 < len) || len % 4 != 0 || len + 16 != f.length then some 1
  else if crc32c (f.take (12 + len)) ≠ wd (leNat (f.drop (12 + len))) then some 2
  else if leNat (f.take 1) ≠ type ∨ leNat ((f.drop 1).take 1) ≠ sub ∨ leNat ((f.drop 10).take 2) ≠ 0 ∨ maxFlags < leNat ((f.drop 9).take 1) then some 1
  else if leNat ((f.drop 8).take 1) ≠ level then some 6 else none
/-- SEQ and the payload of a frame. -/
def frameSeq (f : List Byte) : Nat := leNat ((f.drop 4).take 4)
def framePay (f : List Byte) : List Byte := (f.drop 12).take (f.length - 16)
/-- A number of `n` bytes at an offset. -/
def at_ (b : List Byte) (i n : Nat) : Nat := leNat ((b.drop i).take n)

/-- A STATUS frame arrives: its payload when it is good; CSEQ gaps are counted (R392). In a hold frames are dropped (R408). -/
def Hub.laneStatus (h : Hub) (n sub len : Nat) (intact : Bool) (f : List Byte) : Hub × Option (List Byte) :=
  let x := h.lane n
  if h.clk.held then (h, none)
  else match frameFault 2 sub (if sub = 1 then 0 else x.level) 0 intact f with
  | some c => (h.laneViolation n c (c == 1), none)
  | none =>
    let s := frameSeq f
    let gap := if s = x.rxCseq then 0 else 1
    let h := h.setLane n { x with rxCseq := (s + 1) % 2 ^ 32, cseqGaps := sat32 (x.cseqGaps + gap) }
    if (framePay f).length = len then (h, some (framePay f)) else (h.laneViolation n 1 true, none)

/-- The message M of R402. -/
def laneM (role lane hub serial : Nat) (nh np : List Byte) (hMin hMax pMin pMax : Nat) : List Byte :=
  [0x56, 0x4C, 0x59, 0x31] ++ b1 role ++ b1 lane ++ b1 hub ++ b1 0 ++ b8 serial ++ nh ++ np ++ b1 hMin ++ b1 hMax ++ b1 pMin ++ b1 pMax

/-- STATUS HELLO is checked and AUTH answers it; 16 probes follow (R381, R388, R394, R398, R402 to R404). -/
def slHelloReceive (n : Nat) (intact : Bool) (f : List Byte) (h : Hub) : Hub :=
  if (h.lane n).st ≠ .training ∨ (h.lane n).step ≠ 7 then h
  else
    let r := h.laneStatus n 1 56 intact f
    let h := r.1
    match r.2 with
    | none => h
    | some p =>
      let x := h.lane n
      let serial := at_ p 0 8
      let pMin := at_ p 8 1
      let pMax := at_ p 9 1
      let np := (p.drop 24).take 16
      let nh := padTo 16 (x.nonceH.take 16)
      let m := fun role => laneM role n h.sys.straps.hubId serial nh np h.lvMin h.lvMax pMin pMax
      let good := [0, 1].any fun s => (h.sto.laneKeys.get s).key != [] && mac16 (bytesOf (h.sto.laneKeys.get s).key) (m 1) == (p.drop 40).take 16
      let lv := min h.lvMax pMax
      if at_ p 11 1 ≠ 0 ∨ at_ p 22 2 ≠ 0 then h.laneViolation n 1 true
      else if !good || (x.use.serial != 0 && serial != x.use.serial) || (x.lastSerial != 0 && serial != x.lastSerial) then h.laneViolation n 5 false
      else if lv < h.lvMin ∨ lv < pMin ∨ at_ p 12 4 < 600 then h.laneViolation n 6 false
      else
        let key := if (h.sto.laneKeys.get 1).active then h.sto.laneKeys.get 1 else h.sto.laneKeys.get 0
        let x := { x with
          serial := serial, lastSerial := serial, level := lv, podMin := pMin, podMax := pMax, nslots := at_ p 10 1,
          retain := min 120000 (at_ p 12 4), turnDecl := at_ p 16 4, holdPpm := at_ p 20 2, nonceP := np, step := 8, stepAt := h.xoCycles,
          delays := [], turn := 0 }
        let h := (h.setLane n x).laneSend n 8 2 (b1 lv ++ b1 (flag x.expect.isNone 0) ++ b2 0 ++ b4 (x.expect.getD 0) ++
          mac16 (bytesOf key.key) (m 2))
        h.line9Ask n

/-! ## Delay and strobe placement (R388, R389) -/

/-- How far the strobe count advances at this strobe: after a held span, by the interval on TB_LOCAL since the last frame
strobe before it, in whole 125 us (R384). -/
def Hub.strobeStep (h : Hub) : Nat := if h.tb.afterHold then ceilDiv (h.tb.xo - h.tb.strobeXo) (6144 * 2 ^ 40) else 1

/-- CONTROL TIMING for the next frame strobe, at which the count advances by `by_` (R394). -/
def Hub.timing (h : Hub) (n by_ : Nat) : Hub :=
  h.laneSend n 8 3 (b4 ((h.sl.count + by_) % 2 ^ 32) ++ b1 (h.nextMark / 15360 % 64) ++ b1 0 ++ b2 h.tb.epoch ++ bT (cycT h.nextMark))
def Hub.sendTiming (h : Hub) (n : Nat) : Hub := h.timing n (h.passTime h.tb.toStrobe).strobeStep

/-- Mean of a list, rounded. -/
def meanI (l : List Int) : Int := roundDiv (l.foldl (· + ·) 0) (max 1 l.length)
/-- fs in whole ps. -/
def psOf (fs : Int) : Int := roundDiv fs 1000

/-- A DELAY_ECHO: line 9's stamps of the probe and of the echo, and TURN in 10 ps (R291, R388, R389). Where the FIFO discards a stamp
the echo gives no delay. -/
def slDelayEcho (n : Nat) (e : RoundTrip) (turn : Nat) (h : Hub) : Hub :=
  if h.tiu.calAll || h.tiu.lost.contains 9 then h.setLane n { h.lane n with unanswered := 0 }
  else if h.clk.held || h.tiu.line9.head? != some n then h else
  let trip := h.line9Trip n e
  let h := trip.1
  let x := h.lane n
  match trip.2 with
  | none => if x.st = .up then (h.setLane n { x with unanswered := 0 }).line9Next else h
  | some rtt =>
  if x.st = .up ∨ (x.st = .training ∧ x.step = 8) then
    let ps := if 2 ≤ x.level then 10 * turn else x.turnDecl
    let t10 := ps / 10
    if 600000 < ps ∨ (x.turn ≠ 0 ∧ 2000 < ((ps : Int) - (10 * x.turn : Nat)).natAbs) then h.laneViolation n 7 false
    else
      let d := (rtt - ps + x.use.asym) * 500
      let ds := (d :: x.delays).take 16
      let m := meanI ds
      let x := { x with delays := ds, turn := t10, unanswered := 0 }
      if x.st = .training then
        if ds.length < 16 then h.setLane n x
        else (h.setLane n { x with delta := m, placed := m, step := 9, stepAt := h.xoCycles }).line9Next.sendTiming n
      else if (m - x.delta).natAbs ≤ x.use.jump * 1000 then (h.setLane n { x with delta := m }).line9Next
      else
        ((h.setLane n { x with delta := m, jump := true }).line9Next.raise 112 []).landHealth 0x52 h.tb.epoch h.sampleT
          (b1 n ++ b1 0 ++ b4 (unsigned 32 (psOf x.delta)) ++ b4 (unsigned 32 (psOf m)))
  else h

/-- PROBE_INT expires: a probe leaves, or the third without an echo counts as LV_STROBE (R389). -/
def slProbeTimer (n : Nat) (h : Hub) : Hub :=
  let x := h.lane n
  if x.st = .up ∧ ¬ h.clk.held ∧ h.passed x.probeAt (x.use.probeInt * 49152) = true then
    if 3 ≤ x.unanswered then h.laneViolation n 7 false
    else (h.setLane n { x with probeAt := some h.xoCycles }).line9Ask n
  else h

/-- Placement follows the mean at a strobe (R389). -/
def Lane.place (x : Lane) : Lane :=
  if x.jump then { x with placed := x.delta, jump := false }
  else { x with placed := x.placed + clampI (x.delta - x.placed) (-5298) 5298 }

/-- A strobe of count `c`, `by_` after the one before, for a lane: whether it carries it, and where a new epoch begins (R384, R400, R401).
What lies further back than the map is forgotten. -/
def Lane.strobed (x : Lane) (c by_ : Nat) (discont : Bool) : Lane :=
  let sent := x.st == .up || (x.st == .training && x.step == 9)
  let near := fun (b : Option Nat) => b.all fun n => decide ((c + 2 ^ 32 - n) % 2 ^ 32 < 2 ^ 20)
  let quiet := if sent then x.quiet.map fun q => (q.1, some (q.2.getD c))
    else if x.quiet.any (·.2.isNone) then x.quiet else x.quiet ++ [((c + 2 ^ 32 - by_ % 2 ^ 32) % 2 ^ 32, none)]
  let disc := if discont && !x.disc.any (·.2.isNone) then x.disc ++ [(c, none)] else x.disc
  if x.st = .disabled && x.lastSerial = 0 then x
  else { x with quiet := quiet.filter fun q => near q.2, disc := disc.filter fun d => near d.2 }

/-- The lanes' strobe count advances by `by_`; lanes in steps 9 and 10 send a STROBE (R383, R384). -/
def Hub.slStrobe (h : Hub) (by_ cyc epoch idx : Nat) (discont noSample : Bool) (till : Option Nat) : Hub :=
  let c := (h.sl.count + by_) % 2 ^ 32
  let en : StrobeMap := { c := c, idx := idx % 64, cyc := cyc, epoch := epoch, discont := discont, noSample := noSample, till := none }
  let old := match h.sl.map with | e :: r => { e with till := if by_ = 1 then till else none } :: r | [] => []
  let h := { h with sl := { h.sl with count := c, map := (en :: old).take (2 ^ 20) } }
  (List.range 16).foldl (fun h n =>
    let x := (h.lane n).strobed c by_ discont
    if x.st = .up ∨ (x.st = .training ∧ x.step = 9) then
      let was := x.st
      let h := (h.setLane n x.place).send (.symbol n 0x3C (BitVec.ofNat 8 (idx % 64 + flag noSample 6 + flag discont 7)))
      let h := if was = .training ∧ ¬ noSample then
          let x := { h.lane n with st := .up, step := 10, attempts := 0, downRaised := false, probeAt := some h.xoCycles }
          let h := (h.setLane n { x with releaseAll := false }).laneSend n 9 0 (b4 256)
          if x.releaseAll then h.sendLanded n true else h
        else h
      if was = .up ∧ cyc % 122880000 = 0 then h.timing n 1 else h
    else if x = h.lane n then h else h.setLane n x) h

/-! ## Samples (R385, R393, R395, R396, R400, R401) -/

/-- A slot entry of a SAMPLE frame. -/
structure SlotEnt where
  slot : Nat
  vals : List Int
  quals : List Nat
deriving DecidableEq, Repr

/-- Slot entries in ascending order that fill the payload exactly; none when the layout is broken. -/
def slotEnts (mask : Nat) : Nat → Nat → List Byte → Option (List SlotEnt)
  | 0, _, b => if b.isEmpty then some [] else none
  | k + 1, lo, b =>
    let slot := at_ b 0 1
    let ns := at_ b 1 1
    let qn := (ns + 3) / 4 * 4
    let q := ((b.drop (4 + 4 * ns)).take qn).map BitVec.toNat
    if b.length < 4 + 4 * ns + qn ∨ ns < 1 ∨ 8 < ns ∨ 31 < slot ∨ slot < lo ∨ at_ b 2 2 ≠ 0 ∨ q.any (fun x => x &&& mask != x) ∨
        (q.drop ns).any (· != 0) then none
    else
      let e : SlotEnt := { slot := slot, vals := (List.range ns).map fun i => signed 32 (at_ b (4 + 4 * i) 4), quals := q.take ns }
      (slotEnts mask k (slot + 1) (b.drop (4 + 4 * ns + qn))).map (e :: ·)

/-- The entry of a strobe count. -/
def Hub.strobeMap (h : Hub) (c : Nat) : Option StrobeMap := h.sl.map.find? (·.c == c)
/-- Signed difference of two 32-bit counts. -/
def diff32 (a b : Nat) : Int := signed 32 (a + 2 ^ 32 - b % 2 ^ 32)
/-- A count was sent and lies within the map's span. -/
def Hub.countKnown (h : Hub) (c : Nat) : Bool := decide (0 ≤ diff32 h.sl.count c) && decide (diff32 h.sl.count c < 2 ^ 20)

/-- Samples per strobe of a rate, and the strobes between samples (R386). -/
def rateOk (level r : Nat) : Bool :=
  (r % 8000 == 0 && inR (r / 8000) 1 8) || (decide (3 ≤ level) && decide (0 < r) && 8000 % r == 0 && inR (8000 / r) 2 64 && (8000 / r ∈ [2, 4, 8, 16, 32, 64]))
/-- NS matches the rate at a strobe (R385, R405). -/
def nsOk (r ns : Nat) (m : Option StrobeMap) (idx : Nat) : Bool :=
  if r < 8000 then ns == 1 && idx % (8000 / max 1 r) == 0
  else ns == r / 8000 || (decide (ns < r / 8000) && m.any fun e => e.till.any fun t => decide (t < e.cyc + 15360))

/-- Inputs of a pod's channel, or missing ones, wait for its chain in the order of their arrival (R143). -/
def Hub.slFeed (h : Hub) (ch : Nat) (x : Inp) : Hub :=
  let k := h.chain ch
  if k.running then h.setChain ch { k with inq := k.inq ++ [x] } else h
/-- A count that cannot be mapped names no instants: what the mapped sample that comes next leaves open is clock loss (R400). An entry without
inputs says so. -/
def Hub.slUnmapped (h : Hub) (ch : Nat) : Hub := h.slFeed ch { epoch := 0, i := 0, n := 0, v := none, q := 256 }

/-- A sample is declined (R35, R400). -/
def Lane.declines (x : Lane) (m : Option StrobeMap) (c r j : Nat) (hold : Bool) : Bool :=
  match m with
  | none => true
  | some e => e.noSample || e.till.any (fun t => decide ((t - e.cyc) * r ≤ j * 122880000)) ||
      (hold && (x.slip || x.disc.any fun d => decide (0 ≤ diff32 c d.1) && d.2.all fun b => decide (diff32 c b < 0)))

/-- The samples of one slot of an accepted frame; the last that may land, for the landed mark. -/
def Hub.slSlot (h : Hub) (n c : Nat) (hold : Bool) (e : SlotEnt) : Hub × Option (Nat × Nat × T64) :=
  let x := h.lane n
  let ch := 128 + 32 * n + e.slot
  let r := (h.cfg.slots.get (32 * n + e.slot)).rate
  let m := h.strobeMap c
  let i0 := match m with | some s => s.cyc * r / 122880000 | none => 0
  let ep := match m with | some s => s.epoch | none => 0
  (List.range e.vals.length).foldl (fun (acc : Hub × Option (Nat × Nat × T64)) j =>
    let h := acc.1
    let i := i0 + j
    if x.declines m c r j hold then
      (if m.isSome then h.slFeed ch { epoch := ep, i := i, n := 1, v := none, q := 256 } else h.slUnmapped ch, acc.2)
    else
      let t := match h.geoOf ch with | some (_, g) => some (ch, ep, (g.pin i).toT) | none => none
      (h.slFeed ch { epoch := ep, i := i, n := 1, v := some (e.vals.getD j 0), q := e.quals.getD j 0 }, t.or acc.2)) (h, none)

/-- A run of HOLD samples ends and lands as LANE_HOLDOVER (R401). -/
def Hub.holdEnd (h : Hub) (n : Nat) : Hub :=
  let x := h.lane n
  match x.hold with
  | none => h
  | some r => (h.setLane n { x with hold := none }).landHealth 0x50 r.epoch r.first (b1 n ++ b1 0 ++ b4 r.bound ++ b8 x.serial ++ bT r.lastT)
/-- The count of the last STROBE that the lane carried before the count `c`. -/
def Lane.realBefore (x : Lane) (c : Nat) : Nat :=
  match x.quiet.find? fun q => decide (0 < diff32 c q.1) && q.2.all fun b => decide (diff32 c b ≤ 0) with
  | some q => q.1
  | none => (c + 2 ^ 32 - 1) % 2 ^ 32
/-- A HOLD frame joins the run. The bound counts from the last STROBE that the lane carried before the run (R401). -/
def Hub.holdFrame (h : Hub) (n : Nat) (m : StrobeMap) : Hub :=
  let h := if (h.lane n).hold.any (·.epoch != m.epoch) then h.holdEnd n else h
  let x := h.lane n
  let t := cycT m.cyc
  let first := match x.hold with | some r => r.first | none => t
  let real := match x.hold with | some r => r.real | none => match h.strobeMap (x.realBefore m.c) with | some e => cycT e.cyc | none => first
  let bound := ceilDiv (x.holdPpm * ((tDiff real t).toNat * 1000000000)) (100000000 * 2 ^ 32)
  h.setLane n { x with hold := some { first := first, real := real, epoch := m.epoch, lastT := t, bound := bound } }

/-- The checks of LV_RATE and LV_STROBE on a frame's content (R405). A frame before E is no second frame for its C: it is the same one. -/
def Hub.sampleFault (h : Hub) (n c idx : Nat) (replay : Bool) (es : List SlotEnt) : Option Nat :=
  let x := h.lane n
  let m := h.strobeMap c
  if !h.countKnown c || (!replay && x.lastC.any (fun l => decide (diff32 c l ≤ 0))) ||
      es.any (fun e => let s := h.cfg.slots.get (32 * n + e.slot); !s.enable || !nsOk s.rate e.vals.length m idx) then some 4
  else if m.any (·.idx != idx) then some 7 else none

/-- Step 10 completes with the first frame accepted, and with it every SL_RESET that waits (R381, R412). -/
def Hub.laneResetDone (h : Hub) (n : Nat) : Hub :=
  (h.lane n).reset.foldl (fun h r => h.complete r.1 DONE []) (h.setLane n { h.lane n with reset := [] })
/-- An accepted frame: E advances, its samples are taken (R32, R396, R400). -/
def Hub.sampleAccept (h : Hub) (n seq c : Nat) (hold : Bool) (es : List SlotEnt) : Hub :=
  let h := h.laneResetDone n
  let x := h.lane n
  let disc := if hold then x.disc else x.disc.map fun d => if d.2.isNone && decide (0 ≤ diff32 c d.1) then (d.1, some c) else d
  let h := h.setLane n { x with expect := some ((seq + 1) % 2 ^ 32), lastC := some c, disc := disc }
  let r := es.foldl (fun (acc : Hub × List (Nat × Nat × T64)) e =>
    let r := acc.1.slSlot n c hold e
    (r.1, acc.2 ++ r.2.toList)) (h, [])
  let h := r.1
  let h := match h.strobeMap c with
    | some m => if hold && !((h.lane n).declines (some m) c 8000 0 true) then h.holdFrame n m else if hold then h else h.holdEnd n
    | none => h
  let x := h.lane n
  (h.setLane n { x with open_ := x.open_ ++ [{ seq := seq, left := r.2, n := 1 }] }).slMarks

/-- A SAMPLE frame arrives (R392, R393, R395, R396, R405, R408). It leaves the lane's buffer at once and its credit is returned; one that is
dropped in a hold has its credit back with the CREDIT at the resume (DESIGN CHOICE, log entry 111). -/
def slSampleFrame (n : Nat) (intact : Bool) (f : List Byte) (h : Hub) : Hub :=
  let x := h.lane n
  let cost := ceilDiv (f.length + 2) 64
  if x.st ≠ .up then h
  else if h.clk.held then h.setLane n { x with used := x.used + cost, limit := x.limit + cost }
  else
    let ovr := decide (x.limit < x.used + cost)
    let x := { x with used := x.used + cost, limit := x.limit + cost }
    let h := (h.setLane n x).laneSend n 9 0 (b4 (x.limit % 2 ^ 32))
    match frameFault 1 0 x.level 3 intact f with
    | some cls => h.laneViolation n cls true
    | none =>
      let p := framePay f
      let seq := frameSeq f
      let hold := at_ f 9 1 / 2 % 2 == 1
      let c := at_ p 0 4
      let idx := at_ p 4 1
      match slotEnts (if 2 ≤ x.level then 12 else 4) (at_ p 5 1) 0 (p.drop 8) with
      | none => h.laneViolation n 1 true
      | some es =>
        if p.length < 8 ∨ 63 < idx ∨ at_ p 6 2 ≠ 0 ∨ es.isEmpty ∨ 32 < es.length then h.laneViolation n 1 true
        else if ovr then h.laneViolation n 4 true
        else
          let e := x.expect.getD seq
          match h.sampleFault n c idx (decide (diff32 seq e < 0)) es with
          | some cls => h.laneViolation n cls true
          | none =>
            if diff32 seq e < 0 then h.setLane n { h.lane n with counts := bump (h.lane n).counts 7 1 }
            else if 0 < diff32 seq e then h.laneViolation n 3 true
            else h.sampleAccept n seq c hold es

/-- An ABORT ends the frame in progress, which never reaches the hub's state; it is no violation (R380). -/
def slAbortSymbol (_n : Nat) (h : Hub) : Hub := h

/-- 10 ms without a LANDED frame: one goes out with the landed mark as it stands by then (R397). -/
def slLandedTimer (n : Nat) (h : Hub) : Hub :=
  if (h.lane n).st = .up ∧ ¬ h.clk.held ∧ (h.lane n).landedAt + 491520 ≤ h.xoCycles then
    let g := h.slMarks
    if (g.lane n).landedAt + 491520 ≤ g.xoCycles then g.sendLanded n false else g
  else h

/-! ## Other STATUS frames (R387, R394, R399, R410) -/

/-- TIME cycles at which the interval of a strobe ends. -/
def StrobeMap.fin (e : StrobeMap) : Nat := e.till.getD (e.cyc + 15360)
/-- Epoch, begin and end in TIME cycles of the intervals of the counts from `c0` to `c1`, those that adjoin together. -/
def Hub.countSpans (h : Hub) (c0 c1 : Nat) : List (Nat × Nat × Nat) :=
  let es := h.sl.map.filter fun e => !e.noSample && decide (0 ≤ diff32 e.c c0) && decide (diff32 e.c c1 ≤ 0)
  es.foldl (fun l e => match l with
    | (ep, a, b) :: r => if ep = e.epoch ∧ e.fin = a then (ep, e.cyc, b) :: r else (e.epoch, e.cyc, e.fin) :: l
    | [] => [(e.epoch, e.cyc, e.fin)]) []
/-- The inputs of a slot channel at the counts from `c0` to `c1` will not come: retention exceeded (R399). -/
def Hub.slLost (h : Hub) (ch r c0 c1 : Nat) : Hub :=
  (h.countSpans c0 c1).foldl (fun h s =>
    let i := ceilDiv (s.2.1 * r) 122880000
    let j := ceilDiv (s.2.2 * r) 122880000
    if i < j then h.slFeed ch { epoch := s.1, i := i, n := j - i, v := none, q := 768 } else h) h

/-- STATUS RELEASED: the frames reported will not come; their instants are covered (R396, R399). -/
def slReleasedReceive (n : Nat) (intact : Bool) (f : List Byte) (h : Hub) : Hub :=
  if (h.lane n).st ≠ .up then h
  else
    let r := h.laneStatus n 3 16 intact f
    match r.2 with
    | none => r.1
    | some p =>
      let h := r.1
      let last := at_ p 4 4
      let h := (List.range 32).foldl (fun h s =>
        let k := h.cfg.slots.get (32 * n + s)
        if k.enable then h.slLost (128 + 32 * n + s) k.rate (at_ p 8 4) (at_ p 12 4) else h) h
      let x := h.lane n
      if x.expect.all fun e => decide (0 ≤ diff32 last e) then
        (h.setLane n { x with expect := some ((last + 1) % 2 ^ 32), open_ := x.open_ ++ [{ seq := last, left := [], n := (last + 2 ^ 32 - at_ p 0 4) % 2 ^ 32 + 1 }] }).slMarks
      else h

/-- STATUS SLIP (R387, R400). -/
def slSlipReceive (n : Nat) (intact : Bool) (f : List Byte) (h : Hub) : Hub :=
  if (h.lane n).st = .up ∨ (h.lane n).st = .training then
    let r := h.laneStatus n 4 8 intact f
    if r.2.isSome then r.1.setLane n { r.1.lane n with slip := true } else r.1
  else h

/-- STATUS POD_HEALTH lands as a HEALTH record (R394); below level 3 its subtype is unknown (R404). -/
def slPodHealthReceive (n : Nat) (intact : Bool) (f : List Byte) (h : Hub) : Hub :=
  if (h.lane n).st ≠ .up ∨ h.clk.held then h
  else if (h.lane n).level < 3 then h.laneViolation n 1 true
  else
    let r := h.laneStatus n 5 16 intact f
    match r.2 with
    | some p => if at_ p 8 8 ≠ 0 then r.1.laneViolation n 1 true else r.1.landHealth 0x51 h.tb.epoch h.sampleT (b1 n ++ b1 0 ++ p)
    | none => r.1

/-- No SLOT_ACK within 10 ms (R410). -/
def slSlotSetTimeout (n slot : Nat) (h : Hub) : Hub :=
  let x := h.lane n
  let late := x.slotReqs.filter fun q => q.slot == slot && decide (q.since + 491520 ≤ h.xoCycles)
  late.foldl (fun h q => h.complete q.handle TIMED_OUT []) (h.setLane n { x with slotReqs := x.slotReqs.filter fun q => !late.contains q })

/-- 100 ms without step 10 (R412). -/
def slResetTimeout (n : Nat) (h : Hub) : Hub :=
  let x := h.lane n
  let late := x.reset.filter fun r => decide (r.2 + 4915200 ≤ h.xoCycles)
  late.foldl (fun h r => h.complete r.1 TIMED_OUT []) (h.setLane n { x with reset := x.reset.filter fun r => !late.contains r })

/-! ## Commands (R409 to R414) -/

/-- A slot of the lane belongs to an acquiring group. -/
def Hub.laneAcquires (h : Hub) (n : Nat) : Bool := (List.range 32).any fun s => h.acquiring (128 + 32 * n + s)

def slLaneSet : CmdSpec where
  opcode := 0x0A01
  len := lenIs 6
  bad := fun _ p =>
    let w := pw p 0
    let a := signed 32 (pw p 3).toNat
    badIf !(rsv w 0xF0FFF00F && decide (fld w 30 28 ≤ 6) && inR (fld w 23 20) 1 15 && inR (fld w 19 12) 1 255 &&
      decide (-100000 ≤ a) && decide (a ≤ 100000) && inR (fld (pw p 4) 31 16) 10 10000 && inR (fld (pw p 4) 15 0) 100 65535 &&
      inR (fld (pw p 5) 31 16) 1 65535 && inR (fld (pw p 5) 15 0) 1 65535)
  refuse := fun h c => refuseIf (!bit (pw c.pl 0) 31 && h.laneAcquires (fld (pw c.pl 0) 3 0)) BAD_STATE
  block := true
  run := fun h c =>
    let p := c.pl
    let w := pw p 0
    let n := fld w 3 0
    let k : LaneCfg := { enable := bit w 31, swing := fld w 30 28, quarN := fld w 23 20, nakMax := fld w 19 12,
                         serial := mask64 (pw p 1) (pw p 2), asym := signed 32 (pw p 3).toNat, probeInt := fld (pw p 4) 31 16,
                         jump := fld (pw p 4) 15 0, quarWin := fld (pw p 5) 31 16, violWin := fld (pw p 5) 15 0 }
    let h := { h with cfg := { h.cfg with lanes := h.cfg.lanes.put n k } }
    let x := h.lane n
    { hub := if k.enable then (if x.st = .disabled then (h.setLane n { x with attempts := 0 }).laneStart n else h)
             else if x.st = .quarantined then h else (h.setLane n { x with st := .disabled }).line9Free n }

def slSlotSet : CmdSpec where
  opcode := 0x0A02
  len := lenIs 2
  bad := fun h p =>
    let w := pw p 0
    badIf !(rsv w 0x80000F1F && rateOk (h.lane (fld w 11 8)).level (pw p 1).toNat)
  refuse := fun h c =>
    let w := pw c.pl 0
    refuseIf ((h.lane (fld w 11 8)).st != .up || h.acquiring (128 + 32 * fld w 11 8 + fld w 4 0)) BAD_STATE
  block := true
  long := fun _ _ => true
  run := fun h c =>
    let w := pw c.pl 0
    let n := fld w 11 8
    let x := h.lane n
    let en := bit w 31
    let h := h.setLane n { x with slotReqs := x.slotReqs ++ [{ slot := fld w 4 0, handle := c.handle, rate := (pw c.pl 1).toNat, enable := en, since := h.xoCycles }] }
    { hub := h.laneSend n 8 4 (b1 (fld w 4 0) ++ b1 (flag en 0) ++ b2 0 ++ b4 (pw c.pl 1).toNat) }

def slKeySet : CmdSpec where
  opcode := 0x0A03
  len := lenIs 5
  bad := fun _ p => badIf !(rsv (pw p 0) 0x300)
  run := fun h c =>
    let s := fld (pw c.pl 0) 8 8
    let act := bit (pw c.pl 0) 9
    let k : KeySlot := { id := 0, key := c.pl.drop 1, active := act || (h.sto.laneKeys.get s).active }
    let keys := h.sto.laneKeys.put s k
    let keys := if act then keys.upd (1 - s) fun x => { x with active := false } else keys
    { hub := { h with sto := { h.sto with laneKeys := keys } } }

def slReset : CmdSpec where
  opcode := 0x0A04
  len := lenIs 1
  bad := fun _ p => badIf !(rsv (pw p 0) 0x10F)
  block := true
  long := fun _ _ => true
  run := fun h c =>
    let n := fld (pw c.pl 0) 3 0
    let h := if bit (pw c.pl 0) 8 then
        let up := (h.lane n).st == .up
        let h := if up then h.sendLanded n true else h
        let h := h.setLane n { h.lane n with expect := none, landed := none, taken := 0, open_ := [], lastSerial := 0, lastC := none, releaseAll := !up }
        (List.range 32).foldl (fun h s => h.slFeed (128 + 32 * n + s) { epoch := 0, i := 0, n := 0, v := none, q := 513 }) h
      else h
    let x := h.lane n
    let h := h.setLane n { x with reset := x.reset ++ [(c.handle, h.xoCycles)] }
    { hub := if x.st = .disabled ∨ x.st = .quarantined then h else h.laneRetrain n }

def slQuarRelease : CmdSpec where
  opcode := 0x0A05
  len := lenIs 1
  bad := fun _ p => badIf !(rsv (pw p 0) 0xFFFF)
  refuse := fun h c => refuseIf ((bitsOf (pw c.pl 0).toNat 16).any fun n => (h.lane n).st != .quarantined) BAD_STATE
  block := true
  run := fun h c => { hub := (bitsOf (pw c.pl 0).toNat 16).foldl (fun h n =>
    if (h.laneCfg n).enable then (h.setLane n { h.lane n with attempts := 0 }).laneStart n else h.setLane n { h.lane n with st := .disabled }) h }

/-- State code of a lane or a port. -/
def LinkState.code : LinkState → Nat
  | .disabled => 0 | .training => 1 | .up => 2 | .down => 3 | .quarantined => 4 | .refused => 5

def slStatus : CmdSpec where
  opcode := 0x0A06
  len := lenIs 1
  bad := fun _ p => badIf !(rsv (pw p 0) 0x10F)
  run := fun h c =>
    let n := fld (pw c.pl 0) 3 0
    let x := h.lane n
    let ws := [wd (x.st.code + x.level % 4 * 16 + x.step % 16 * 256 + flag x.inverted 12 + (h.lvMin - 1) % 4 * 65536 + (h.lvMax - 1) % 4 * 262144),
               lo32 x.serial, hi32 x.serial, wd x.retain, wd (x.expect.getD 0), wd (x.landed.getD 0), wdInt (psOf x.delta), wd x.turn] ++
              (List.range 11).map fun i => wd (x.counts.get i)
    { hub := if bit (pw c.pl 0) 8 then h.setLane n { x with counts := [] } else h, words := ws }

end Sys2Proof.Machine
end

