-- ==== Sys2Proof/Machine/Landing.lean ====
section
/-!
DEFINITION. Landing: refusals, digests, parts and records of channel groups, LATE records, SEGMENT records, and the
upkeep of pages and index (R184, R301, R307 to R317, R320, R330 to R334).
-/
namespace Sys2Proof.Machine

/-! ## Refusals (R37, R331) -/

/-- An instant of a channel is refused at the entry to staging (R331). -/
def Hub.refuseInstant (h : Hub) (ch epoch : Nat) (t : T64) : Hub :=
  let g := h.groupOf ch
  let cause := if (h.grp g).thin then 2 else 1
  let detail := flag (h.chg g).digestRefused 0
  let same := fun (e : Episode) => e.chans == [ch] && e.epoch == epoch
  let h := if h.jrn.refusals.any same then
      { h with jrn := { h.jrn with refusals := h.jrn.refusals.map fun e => if same e then { e with last := t, detail := e.detail ||| detail } else e } }
    else
      let h := h.refusalEnd ch
      { h with jrn := { h.jrn with refusals := h.jrn.refusals ++
          [{ cause := cause, detail := detail, chans := [ch], epoch := epoch, first := t, last := t, unc := 0 }] } }
  h.chanDone ch epoch t false

/-! ## Digests (R312, R331) -/

/-- The digest record of a group closes and lands. -/
def Hub.digestClose (h : Hub) (g : Nat) : Hub :=
  let x := h.chg g
  match x.digest with
  | [] => h
  | (t, _) :: _ =>
    (h.setChg g { x with digest := [] }).land 3 0 g x.digestEpoch t
      (b2 x.digest.length ++ List.replicate 6 0 ++ x.digest.flatMap (·.2))

/-- A digest entry of a group: it joins the open record, or is refused with its group (R331). -/
def Hub.digestEntry (h : Hub) (g epoch : Nat) (t : T64) (entry : List Byte) : Hub :=
  let x := h.chg g
  if x.refusing ∧ ¬ ((h.grp g).thin ∧ 8 < h.freeOf Share.sys) then
    let cs := (h.grp g).chans
    let h := h.setChg g { x with digestRefused := true }
    let said := fun (e : Episode) => if e.chans.all (fun c => cs.contains c) then { e with detail := e.detail ||| 1 } else e
    { h with jrn := { h.jrn with refusals := h.jrn.refusals.map said } }
  else
    let h := if !x.digest.isEmpty && x.digestEpoch != epoch then h.digestClose g else h
    let x := h.chg g
    let h := h.setChg g { x with digest := x.digest ++ [(t, entry)], digestEpoch := epoch }
    if (h.chg g).digest.length ≥ 1024 then h.digestClose g else h

/-! ## Quality forms and parts (R308) -/

/-- (count, byte) pairs with counts up to 255. -/
def runsOf : List Byte → List (Nat × Byte)
  | [] => []
  | b :: r => match runsOf r with
    | (n, c) :: t => if c = b ∧ n < 255 then (n + 1, b) :: t else (1, b) :: (n, c) :: t
    | [] => [(1, b)]
/-- QMODE, QUAL and the QUALITY section: the shortest form. -/
def qualForm (qs : List Byte) : Nat × Byte × List Byte :=
  match qs with
  | [] => (0, 0, [])
  | b :: _ =>
    if qs.all (· == b) then (0, b, [])
    else
      let r := (runsOf qs).flatMap fun x => [BitVec.ofNat 8 x.1, x.2]
      if r.length ≤ qs.length then (1, 0, r) else (2, 0, qs)

/-- A part's bytes. -/
def partBytes (instants : Nat) (vals : List Byte) (qs : List Byte) (times : List Byte) : List Byte :=
  let q := qualForm qs
  padMul 8 (b2 vals.length ++ b2 instants ++ b2 q.2.2.length ++ b1 q.1 ++ [q.2.1] ++ vals ++ q.2.2 ++ times)

/-- RAW blocks of values on a stream of their own, and the stream's state after them (R311, R363). -/
def rawBlocks (p : Nat) : Nat → PrcSt → List Int → List Byte × PrcSt
  | 0, st, _ => ([], st)
  | n + 1, st, vals =>
    if vals.isEmpty then ([], st)
    else
      let o := encodeBlock 0 4096 false true false (List.replicate p (paramWord 1 63 0 8)) st vals
      let r := rawBlocks p n o.st o.rest
      (o.bytes ++ r.1, r.2)
/-- The parts of a LATE record from an instant on: up to 10,000 outputs each, whose blocks are numbered through the record (R308, R360). -/
def lateParts (order : Bool) (first : T64) : Nat → PrcSt → List StOut → List Byte
  | 0, _, _ => []
  | n + 1, st, outs =>
    if outs.isEmpty then []
    else
      let l := outs.take 10000
      let v := rawBlocks 1 (l.length + 1) st (l.map fun x => x.value.toInt)
      let times := if order then l.flatMap fun x => b4 (unsigned 32 (tDiff first x.t)) else []
      partBytes l.length v.1 (l.map (·.q)) times ++ lateParts order first n v.2 (outs.drop 10000)

/-! ## Instants of a group -/

/-- An instant of a group's grid: epoch, timestamp and index. -/
structure Inst where
  epoch : Nat
  t : T64
  k : Nat
deriving DecidableEq, Repr
def StOut.inst (o : StOut) : Inst := { epoch := o.epoch, t := o.t, k := o.k }
def Inst.key (i : Inst) : Nat × T64 := (i.epoch, i.t)

/-- Adds an instant in (epoch, T64) order. -/
def insInst (i : Inst) : List Inst → List Inst
  | [] => [i]
  | j :: r => if i = j then j :: r else if instLe i.key j.key then i :: j :: r else j :: insInst i r
/-- The instants of outputs, in order. -/
def instsOf (l : List StOut) : List Inst := l.foldr (fun o a => insInst o.inst a) []

/-- Whether a channel will still bring an output for an instant that it has not staged. -/
def Hub.expects (h : Hub) (ch : Nat) (i : Inst) : Bool :=
  let k := h.chain ch
  k.stage.any (fun o => o.inst == i) ||
  (k.running && !k.cut && k.tsEpoch == i.epoch && match h.geoOf ch with
    | some (_, g) =>
      if g.p.mode = 3 then k.order.placed.any (fun o => o.t == i.t)
      else decide (k.nextOut ≤ i.k) && decide (k.ts * 2 ^ 32 ≤ i.t.toNat * 122880000) && !k.lacks (frT i.t) g.wS
    | none => false)

/-- A running channel will still bring an output at or before an instant. -/
def Hub.owes (h : Hub) (ch : Nat) (u : Nat × T64) : Bool :=
  let k := h.chain ch
  k.stage.any (fun o => instLe (o.epoch, o.t) u) ||
  (k.running && !k.cut && match h.geoOf ch with
    | some (_, g) =>
      if k.tsEpoch != u.1 then instLe (k.tsEpoch, 0) u
      else if g.p.mode = 3 then k.order.placed.any fun o => tLe o.t u.2
      else
        let t := g.outT (max k.nextOut (g.firstOut k.tsF))
        tLe t.toT u.2 && !k.lacks t g.wS
    | none => false)

/-- The channels of a group that take part in its records now. -/
def Hub.live (h : Hub) (g : Nat) : List Nat := (h.grp g).chans.filter fun c => !(h.chg g).absent.contains c
/-- A channel has staged an output for an instant. -/
def ChgSt.has (x : ChgSt) (ch : Nat) (i : Inst) : Bool := x.staged.any fun o => o.ch == ch && o.inst == i
/-- Every channel among `cs` has its output for the instant, or will not bring one. -/
def Hub.instDone (h : Hub) (g : Nat) (cs : List Nat) (i : Inst) : Bool := cs.all fun c => (h.chg g).has c i || !h.expects c i

/-! ## SAMPLE BLOCK (R307, R309, R310) -/

/-- The group is on an ORDER grid. -/
def Hub.isOrder (h : Hub) (g : Nat) : Bool :=
  (h.grp g).chans.any fun c => (h.geoOf c).any fun q => q.2.p.mode == 3
/-- RATE_NUM and RATE_DEN of a group. -/
def Hub.groupRate (h : Hub) (g : Nat) : Nat × Nat :=
  match (h.grp g).chans with | c :: _ => h.rateWords c | [] => (0, 0)
/-- The RECORD_MS interval of an instant on a time grid. -/
def Hub.recWindow (h : Hub) (g k : Nat) : Nat :=
  let r := h.groupRate g
  k * r.2 * 1000 / max 1 (r.1 * (h.grp g).recordMs)

/-- The stream's record closes (R310): with its last part, or now when that has landed. -/
def Hub.blockClose (h : Hub) (g : Nat) : Hub :=
  let x := h.chg g
  if x.cur.isNone then h
  else
    let h := (h.setChg g { x with cur := none }).endStream g
    if h.jrn.parts.any (fun p => p.writer == g && !p.last) then
      let n := h.jrn.parts.length
      let at_ := (List.range n).foldl (fun a i => if (h.jrn.parts[i]?).any (·.writer == g) then i else a) n
      let mark := fun (i : Nat) => (h.jrn.parts[i]?).map fun p => if i = at_ then { p with last := true } else p
      { h with jrn := { h.jrn with parts := (List.range n).filterMap mark } }
    else match (h.jrn.writers.get g).openRec with
      | some t =>
        let recs := h.jrn.recs.map fun r =>
          if r.ticket = t ∧ r.isOpen then { r with isOpen := false, block := none, body := (match r.block with | some b => b.bytes h.tag | none => []) ++ r.body } else r
        { h with jrn := { h.jrn with recs := recs, writers := h.jrn.writers.upd g fun w => { w with openRec := none } } }.freePages
      | none => h

/-- The presence of each channel of a group at an instant. -/
def Hub.presence (h : Hub) (g : Nat) (i : Inst) : List (Nat × Bool) :=
  (h.grp g).chans.map fun c => (c, !(h.chg g).absent.contains c && (h.chg g).has c i)

/-- Instants that channels present in the group's records have staged. -/
def Hub.stagedInsts (h : Hub) (g : Nat) : List Inst :=
  instsOf ((h.chg g).staged.filter fun o => !(h.chg g).absent.contains o.ch)

/-- The instants, from the front, that one part can hold: one run, one epoch, one presence, consecutive, one record interval. -/
def Hub.partRun (h : Hub) (g : Nat) (pres : Inst → List (Nat × Bool)) (first : T64) (cs : List (Nat × Bool)) (order : Bool) :
    Nat → Nat → List Inst → List Inst × List Inst
  | _, _, [] => ([], [])
  | epoch, k, i :: r =>
    let late := if order then tLe (first + (fr (h.grp g).recordMs 1000).toT) i.t
      else k ≠ 0 && h.recWindow g i.k != h.recWindow g (k - 1)
    let late := late || (h.chg g).parted (epoch, first) i.key
    if i.epoch = epoch ∧ i.k = k ∧ pres i = cs ∧ ¬ late then
      let q := h.partRun g pres first cs order epoch (k + 1) r
      (i :: q.1, q.2)
    else ([], i :: r)

/-- Codes the instants named, the outputs of `cs` in entry order, into one part of the group's record. -/
def Hub.partMake (h : Hub) (g : Nat) (first : T64) (epoch : Nat) (cs : List (Nat × Bool)) (k0 : Nat) (fails : List Nat) (is : List Inst) : Hub :=
  let x := h.chg g
  let present := (cs.filter (·.2)).map (·.1)
  let outs := fun (l : List Inst) => l.flatMap fun i => present.filterMap fun c => x.staged.find? fun o => o.ch == c && o.inst == i
  let params := h.streamParams g present
  let vals := fun (l : List Inst) => (outs l).map fun o => o.value.toInt
  let order := h.isOrder g
  let pres := h.presence g
  let later := (h.stagedInsts g).filter fun i => !is.contains i && (is.getLast?).any fun z => instLe z.key i.key
  let later := (is ++ later).takeWhile (h.instDone g (h.live g))
  let code := fun (l : List Inst) =>
    let on := h.partRun g pres first cs order epoch (k0 + l.length) (later.drop l.length)
    h.encodePart g 0 (h.recTicket g) params fails (vals l) (vals on.1)
  let n := is.length
  let m := if blocksRoom (code is).2 ≤ 65535 then n
    else ((List.range n).reverse.find? fun m => decide (1 ≤ m) && decide (blocksRoom (code (is.take m)).2 ≤ 65535)).getD 1
  let l := is.take m
  let r := code l
  let times := if order then l.flatMap fun i => b4 (unsigned 32 (tDiff first i.t)) else []
  let body := partBytes m (blocksBytes r.2) ((outs l).map (·.q)) times
  let rate := h.groupRate g
  let d : BlockDesc := { order := order, n := m, rateNum := if order then 0 else rate.1, rateDen := if order then 0 else rate.2,
                         k0 := k0, parts := 1, chans := cs }
  let h := r.1
  let p : Part := { writer := g, group := g, block := d, epoch := epoch, t := first, body := body, last := false, firstT := (l.head?.map (·.t)).getD first,
                    lastT := (l.getLast?.map (·.t)).getD first }
  let x := h.chg g
  let used := fun (o : StOut) => present.contains o.ch && l.any fun i => o.inst == i
  let h := h.setChg g { x with staged := x.staged.filter (fun o => !used o), cur := some (first, epoch, cs, k0 + m) }
  { h with jrn := { h.jrn with parts := h.jrn.parts ++ [p] } }

/-! ## The landing of a part (R317, R330, R332) -/

/-- A writer from 0 to 64 needs a page and none is free outside the reserve (R330). -/
def Hub.enterFull (h : Hub) : Hub :=
  if h.jrn.state = 2 then h
  else
    let h := if h.jrn.state = 0 then h.raise 70 [] else h
    ({ h with jrn := { h.jrn with state := 2 } }).raise 71 []

/-- Appends for a writer from 0 to 63: from free pages, else the journal is FULL and the parts' share serves. -/
def Hub.appendPart (h : Hub) (w ticket n : Nat) (starts : Bool) : Option (List Nat × Hub) :=
  match h.append w [.normal] ticket n starts with
  | some r => some r
  | none => (h.enterFull).append w [.normal, .parts] ticket n starts

/-- The oldest closed part lands: its DRAM write completes and the index names it (R34, R317). -/
def Hub.partWrite (h : Hub) : Hub :=
  match h.jrn.parts with
  | [] => h
  | p :: rest =>
    if h.jrn.total = 0 then { h with jrn := { h.jrn with parts := rest } }
    else
      let fresh := (h.jrn.writers.get p.writer).openRec
      let t := match fresh with | some t => (t, h) | none => h.takeTicket
      let head := if fresh.isSome then 0 else 64 + 4 * p.block.chans.length
      match t.2.appendPart p.writer t.1 (head + p.body.length) fresh.isNone with
      | none => h.enterFull
      | some (ps, h) =>
        let r : Rec := match h.jrn.recs.find? (fun r => r.ticket == t.1 && r.isOpen) with
          | some r => { r with
              body := r.body ++ p.body, block := r.block.map fun b => { b with n := b.n + p.block.n, parts := b.parts + 1 },
              pages := r.pages ++ ps.filter fun q => !r.pages.contains q }
          | none => { ticket := t.1, type := 1, flags := if h.jrn.ticketUnsaved then 2 else 0, group := p.group, hub := h.sys.straps.hubId,
                      version := h.recVersion, epoch := p.epoch, t := p.t, body := p.body, block := some p.block, isOpen := true, pages := ps }
        let r := if p.last then { r with isOpen := false, block := none, body := (match r.block with | some b => b.bytes h.tag | none => []) ++ r.body } else r
        let h := { h with jrn := { h.jrn with
          parts := rest, recs := insertRec h.jrn.recs r,
          writers := h.jrn.writers.upd p.writer fun w => { w with openRec := if p.last then none else some t.1, fill := min 65536 ((w.fill + 7) / 8 * 8) } } }
        let h := ((p.block.chans.filter (·.2)).map (·.1)).foldl (fun h c => h.chanDone c p.epoch p.lastT true) h
        h.freePages.slMarks.jrnState

/-- The oldest closed part's DRAM write completes, unless the landing engine is held (R24, R33, R521). -/
def partLanded (h : Hub) : Hub := if h.clk.held then h else h.partWrite

/-- The DRAM writes of the parts in flight complete. -/
def Hub.partsLand (h : Hub) : Hub := (List.range h.jrn.parts.length).foldl (fun h _ => h.partWrite) h
/-- The closed parts that hold outputs of a channel land, with those before them. -/
def Hub.partsLandOf (h : Hub) (ch : Nat) : Hub :=
  let has := fun (h : Hub) => h.jrn.parts.any fun p => p.block.chans.any fun c => c.1 == ch && c.2
  (List.range h.jrn.parts.length).foldl (fun h _ => if has h then h.partWrite else h) h

/-! ## LATE records (R311) -/

/-- A LATE record over outputs of one channel in one record interval. The channel's parts in the group's records land before it. While
it waits for a page its outputs are not landed (R34, R332). -/
def Hub.landLate (h : Hub) (ch : Nat) (outs : List StOut) : Hub :=
  match outs with
  | [] => h
  | o :: _ =>
    let g := h.groupOf ch
    let order := h.isOrder g
    let rate := h.groupRate g
    let d : BlockDesc := { order := order, n := outs.length, rateNum := if order then 0 else rate.1, rateDen := if order then 0 else rate.2,
                           k0 := o.k, parts := (outs.length + 9999) / 10000, chans := [(ch, true)] }
    let r : Rec := { ticket := 0, type := 1, flags := 8, group := g, hub := h.sys.straps.hubId, version := h.recVersion, epoch := o.epoch,
                     t := o.t, body := d.bytes h.tag ++ lateParts order o.t outs.length { p := 1 } outs, block := some d, isOpen := false, pages := [] }
    let h := (h.partsLandOf ch).landWhole r
    let last := outs.getLastD o
    (h.chanDone ch last.epoch last.t true).slMarks

/-- The instant at which the record interval of an output ends: on an ORDER grid RECORD_MS after the record's first output. -/
def Hub.lateEnd (h : Hub) (g : Nat) (first o : StOut) : T64 :=
  if h.isOrder g then first.t + (fr (h.grp g).recordMs 1000).toT
  else (fr ((h.recWindow g o.k + 1) * (h.grp g).recordMs) 1000).toT
/-- Late outputs of a channel, cut where the record interval, the epoch or the run of indexes changes; `cur` is the run under way, newest
first. -/
def Hub.lateRuns (h : Hub) (g : Nat) : List StOut → List StOut → List (List StOut)
  | [], [] => []
  | [], o :: r => h.lateRuns g [o] r
  | p :: c, [] => [(p :: c).reverse]
  | p :: c, o :: r =>
    if o.epoch = p.epoch ∧ p.k + 1 = o.k ∧ tLt o.t (h.lateEnd g (c.getLastD p) p) then h.lateRuns g (o :: p :: c) r
    else (p :: c).reverse :: h.lateRuns g [o] r
/-- Lands the late outputs of a channel that `take` accepts. -/
def Hub.lateLand (h : Hub) (g ch : Nat) (take : StOut → Bool) : Hub :=
  let x := h.chg g
  let mine := x.staged.filter fun o => o.ch == ch && take o
  let h := h.setChg g { x with staged := x.staged.filter fun o => !(o.ch == ch && take o) }
  (h.lateRuns g [] mine).foldl (fun h l => h.landLate ch l) h
/-- Late outputs of record intervals that are over for their channel land (R311): the channel brings no further output for them. -/
def Hub.lateDue (h : Hub) (g : Nat) : Hub :=
  (h.chg g).absent.foldl (fun h c =>
    let runs := h.lateRuns g [] ((h.chg g).staged.filter (·.ch == c))
    match runs.getLast? with
    | some (o :: r) =>
      let l := r.getLastD o
      let whole := !h.owes c (l.epoch, h.lateEnd g o l - 1)
      h.lateLand g c fun q => whole || instLe (q.epoch, q.t) (o.epoch, o.t - 1)
    | _ => h) h

/-- At a record boundary absent channels whose outputs have caught up are present again (R311). -/
def Hub.lateReturn (h : Hub) (g : Nat) (i : Inst) : Hub :=
  (h.chg g).absent.foldl (fun h c =>
    let x := h.chg g
    if x.has c i then
      let h := h.lateLand g c fun o => !instLe i.key (o.epoch, o.t)
      h.setChg g { h.chg g with absent := (h.chg g).absent.filter (· != c) }
    else h) h

/-! ## Closing parts (R309 to R311, R331) -/

/-- Closes parts over the instants named, in order. -/
def Hub.closeInsts (h : Hub) (g : Nat) (fails : List Nat) : Nat → List Inst → Hub
  | 0, _ => h
  | _, [] => h
  | n + 1, i :: is =>
    let order := h.isOrder g
    let join := match (h.chg g).cur with
      | some (f, e, cs, k) => !(h.partRun g (h.presence g) f cs order e k (i :: is)).1.isEmpty
      | none => false
    let h := if join then h else
      let h := (h.blockClose g).digestClose g
      h.lateReturn g i
    let cs := h.presence g i
    if !cs.any (·.2) then h.closeInsts g fails n is
    else
      let st := match (h.chg g).cur with
        | some (f, e, cs, k) => (f, e, cs, k)
        | none => (i.t, i.epoch, cs, i.k)
      let run := (h.partRun g (h.presence g) st.1 st.2.2.1 order st.2.1 st.2.2.2 (i :: is)).1
      let run := if run.isEmpty then [i] else run
      let h := h.partMake g st.1 st.2.1 st.2.2.1 st.2.2.2 fails run
      let taken := match (h.chg g).cur with | some c => c.2.2.2 - st.2.2.2 | none => 1
      let last := (h.chg g).cur.map fun c => c.2.2.2
      let h := match last with
        | some k => if !order && h.recWindow g k != h.recWindow g (k - 1) then h.blockClose g else h
        | none => h
      h.closeInsts g fails n ((i :: is).drop (max 1 taken))

/-- S_g of R309. -/
def Hub.partStrobes (h : Hub) (g : Nat) : Nat :=
  let w := (h.grp g).chans.foldl (fun a c => a.max (h.stageWait c)) (fr 0 1)
  min 7 (((fr 950 1000000).sub w).mul (fr 8000 1)).floor.toNat

/-- The last instant that a part boundary concerns: the last that the present on-chip channels have completed; without any, the last whose
outputs can have left the longest path of the group's channels (DEDUCED, log entry 109). -/
def Hub.boundKey (h : Hub) (g : Nat) : Option (Nat × T64) :=
  let near := (h.live g).filter fun c => !isRemote c
  if near.isEmpty then
    let w := (h.live g).foldl (fun (a : Fr) c => match h.geoOf c with | some (_, q) => a.max (q.wS.add (h.stageWait c)) | none => a) (fr 0 1)
    some (h.tb.epoch, h.sampleT - w.toT)
  else (((h.stagedInsts g).takeWhile (h.instDone g near)).getLast?).map Inst.key
/-- A part boundary passes for a group. -/
def Hub.boundPass (h : Hub) (g : Nat) : Hub :=
  let x := h.chg g
  match h.boundKey g with
  | some u => if x.bounds.any (fun b => instLe u b.1) then h else h.setChg g { x with bounds := x.bounds ++ [(u, h.xoCycles)] }
  | none => h
/-- The present remote channels that lack outputs of a part that ends with `u`. -/
def Hub.lacking (h : Hub) (g : Nat) (u : Nat × T64) : List Nat :=
  let is := (h.stagedInsts g).filter fun i => instLe i.key u
  (h.live g).filter fun c => isRemote c && (is.any (fun i => !(h.chg g).has c i && h.expects c i) || h.owes c u)
/-- The parts whose boundaries have passed close, one after the other, as far as no remote channel is lacking; `fails` names blocks whose
verification fails. -/
def Hub.boundsClose (h : Hub) (g : Nat) (fails : List Nat) : List ((Nat × T64) × Nat) → Hub
  | [] => h.setChg g { h.chg g with bounds := [] }
  | b :: r =>
    if (h.lacking g b.1).isEmpty then
      let due := ((h.stagedInsts g).takeWhile fun i => instLe i.key b.1).takeWhile (h.instDone g (h.live g))
      (h.closeInsts g fails (2 * due.length + 2) due).boundsClose g fails r
    else h.setChg g { h.chg g with bounds := b :: r }
/-- The group's parts whose boundaries have passed close as far as they can. -/
def Hub.groupParts (h : Hub) (g : Nat) (fails : List Nat) : Hub := h.boundsClose g fails (h.chg g).bounds

/-- Parts close over everything that the present channels have completed up to where `f` fails: at a stop, or when staging lands. -/
def Hub.partsAll (h : Hub) (g : Nat) (f : Inst → Bool) : Hub :=
  let h := h.groupParts g []
  let due := ((h.stagedInsts g).takeWhile f).takeWhile (h.instDone g (h.live g))
  h.closeInsts g [] (2 * due.length + 2) due

/-- The open record has no further instant: on a time grid no channel of it brings the next one, so that all of them become absent there;
on an ORDER grid RECORD_MS has passed since its first one (R310). -/
def Hub.recordOver (h : Hub) (g : Nat) : Bool :=
  match (h.chg g).cur with
  | none => false
  | some (first, epoch, cs, k) =>
    let present := ((cs.filter (·.2)).map (·.1)).filter fun c => !(h.chg g).absent.contains c
    if h.isOrder g then
      let fin := first + (fr (h.grp g).recordMs 1000).toT
      let soon := fun (c : Nat) => (h.chg g).staged.any (fun o => o.ch == c && tLt o.t fin) || (h.chain c).order.placed.any (fun o => tLt o.t fin)
      epoch != h.tb.epoch || (tLe fin h.sampleT && !present.any soon)
    else
      let r := h.groupRate g
      let i : Inst := { epoch := epoch, t := (fr (k * r.2) (max 1 r.1)).toT, k := k }
      !present.any fun c => (h.chg g).has c i || h.expects c i
/-- The digest being filled is of an epoch in which no channel of the group has further outputs (R312). -/
def Hub.digestOver (h : Hub) (g : Nat) : Bool :=
  let x := h.chg g
  !x.digest.isEmpty && x.digestEpoch != h.tb.epoch && (h.grp g).chans.all fun c => !(h.chain c).running || (h.chain c).tsEpoch != x.digestEpoch
/-- Such a record closes at its last instant, and the digest with it or at its epoch's end. -/
def Hub.recordDue (h : Hub) (g : Nat) : Hub :=
  if h.recordOver g then (h.blockClose g).digestClose g else if h.digestOver g then h.digestClose g else h

/-- A part boundary passes for a group: a full journal begins or ends its refusal (R331). -/
def Hub.refuseTurn (h : Hub) (g : Nat) : Hub :=
  let x := h.chg g
  if h.jrn.state = 2 then (if x.refusing then h else h.setChg g { x with refusing := true, digestRefused := false })
  else if x.refusing then
    (h.grp g).chans.foldl (fun h c => h.refusalEnd c) (h.setChg g { x with refusing := false, digestRefused := false })
  else h

/-- A part boundary of the frame strobe's grid, or the arrival of outputs that a boundary waited for (R309 to R311). -/
def partClose (fails : List (Nat × Nat)) (h : Hub) : Hub :=
  if h.clk.held then h else
  let s := h.tb.cnt / 15360
  (List.range 64).foldl (fun h g =>
    let x := h.chg g
    if !x.lands then h
    else
      let sg := max 1 (h.partStrobes g)
      let due := decide (s % sg = 0)
      if !due && x.bounds.isEmpty && x.absent.isEmpty then h
      else
        let h := if due then h.boundPass g else h
        let h := h.groupParts g ((fails.filter (·.1 == g)).map (·.2))
        let h := (h.lateDue g).recordDue g
        let h := if due && decide (s % (8 * (h.grp g).recordMs) < sg) then h.digestClose g else h
        if due then h.refuseTurn g else h) h

/-- LATE_WAIT after the boundary: remote channels that lack outputs become absent (R311). -/
def lateWaitExpiry (g : Nat) (fails : List Nat) (h : Hub) : Hub :=
  let x := h.chg g
  match x.bounds with
  | [] => h
  | (u, since) :: r =>
    if h.clk.held || !h.passed (some since) ((h.grp g).lateWait * 49152) then h
    else
      let lack := h.lacking g u
      let early := ((h.stagedInsts g).takeWhile fun i => instLe i.key u).takeWhile fun i => lack.all fun c => (h.chg g).has c i || !h.expects c i
      let early := early.takeWhile (h.instDone g (h.live g))
      let h := h.closeInsts g fails (2 * early.length + 2) early
      let h := h.setChg g { h.chg g with absent := (h.chg g).absent ++ lack, bounds := (u, since) :: r }
      ((h.groupParts g fails).lateDue g).recordDue g

/-! ## SEGMENT records (R181, R184, R315) -/

/-- RATE_NUM and RATE_DEN of the path that a capture group takes. -/
def Hub.pathRate (h : Hub) (pepper : Bool) (ch : Nat) : Nat × Nat :=
  if pepper then
    match h.geoOf ch with
    | some (_, g) =>
      let r := g.fin.mul (fr 1 (max 1 g.p.m))
      let d := if isScan ch then 1 else max 1 (Nat.gcd r.num.toNat r.den)
      (r.num.toNat / d, r.den / d)
    | none => (0, 0)
  else h.rateWords ch
/-- An instant of a channel lies in [a, b]. -/
def Hub.hasInst (h : Hub) (ch : Nat) (a b : T64) : Bool :=
  match h.geoOf ch with
  | some (_, g) => if g.p.mode = 3 then tLe a b else tLe (g.outT (g.firstOut (frT a))).toT b
  | none => false
/-- A GAP record, or an episode that is to become one, covers an instant of a channel in a window (R184); an OPEN one covers those of a
lost channel from its first on (R313). -/
def Hub.gapIn (h : Hub) (ch epoch : Nat) (lo hi : T64) : Bool :=
  let open_ := (h.jrn.gaps.filter (·.chans.contains ch)).map fun e => (e.epoch, e.first, e.last)
  (h.trg.gaps.get ch ++ open_).any fun s =>
    if s.2.2 = BitVec.ofInt 64 (-1) then h.cal.lost.contains ch && instLe (s.1, s.2.1) (epoch, hi)
    else s.1 == epoch && h.hasInst ch (if tLt s.2.1 lo then lo else s.2.1) (if tLt hi s.2.2 then hi else s.2.2)

/-- The coded data of one channel of a segment. -/
def Hub.segChan (h : Hub) (g entry ticket : Nat) (pepper : Bool) (ch : Nat) (outs : List StOut) (fails : List Nat) : Hub × List Byte :=
  match outs with
  | [] => (h, [])
  | o :: _ =>
    let s := 64 + g
    let r := h.encodePart s entry (some ticket) (h.streamParams s [ch]) fails (outs.map fun x => x.value.toInt) []
    let vals := blocksBytes r.2
    let h := r.1.endStream s
    let order := !pepper && (h.geoOf ch).any fun q => q.2.p.mode == 3
    let times := if order then outs.flatMap fun x => b4 (unsigned 32 (tDiff o.t x.t)) else []
    let q := qualForm (outs.map (·.q))
    let rate := if order then (0, 0) else h.pathRate pepper ch
    (h, padMul 8 (b4 vals.length ++ b4 q.2.2.length ++ b4 times.length ++ b1 q.1 ++ [q.2.1] ++ b2 0 ++ b4 rate.1 ++ b4 rate.2 ++ vals ++ q.2.2 ++ times))

/-- A cause entry. -/
def Cause.bytes (c : Cause) : List Byte :=
  b1 c.unit ++ b1 c.kind ++ b1 c.hub ++ b1 (flag c.prov 0 + flag c.linear 1) ++ b4 (if c.kind = 0 then unsigned 32 c.value else 0) ++ bT c.cross
/-- PRIMARY: the lowest unit among the causes, else the cascade line, FORCED or AUTO. -/
def primaryOf (cs : List Cause) : Nat × T64 :=
  let us := cs.filter (·.kind == 0)
  match us.foldl (fun (a : Option Cause) c => match a with | some b => if c.unit < b.unit then some c else some b | none => some c) none with
  | some c => (c.unit, c.cross)
  | none => match cs.find? (·.kind == 1), cs.head? with
    | some c, _ => (128 + c.value.toNat, c.cross)
    | none, some c => (if c.kind = 3 then 0xFE else 0xFF, c.cross)
    | none, none => (0xFF, 0)

/-- The oldest segment in copy lands whole by writer 64, when it has pages (R181, R182, R303). -/
def segmentLanded (g : Nat) (fails : List Nat) (h : Hub) : Hub :=
  let x := h.cg g
  let k := h.cgCfg g
  match if h.clk.held then none else x.segs.find? (·.copying) with
  | none => h
  | some s =>
    let outs := fun (ch : Nat) => x.ring.filter fun o => o.ch == ch && s.holds k o
    let all := k.chans.map outs
    let ticket := h.jrn.nextTicket
    let r := (List.range k.chans.length).foldl (fun (acc : Hub × List Byte) j =>
      let c := acc.1.segChan g j ticket k.pepper (k.chans.getD j 0) (all.getD j []) fails
      (c.1, acc.2 ++ c.2)) (h, [])
    let lo := if s.status.testBit 6 then h.epochFirst s.epoch else s.anchor - usT k.pre
    let hi := s.closeAt.getD (s.anchor + usT k.post)
    let gap := fun (j : Nat) => h.gapIn (k.chans.getD j 0) s.epoch lo hi
    let times := all.flatten.map (·.t)
    let first := times.foldl (fun (a : Option T64) t => match a with | some b => if tLt t b then some t else some b | none => some t) none
    let last := times.foldl (fun (a : Option T64) t => match a with | some b => if tLt b t then some t else some b | none => some t) none
    let anyGap := (List.range k.chans.length).any gap
    let p := primaryOf s.causes
    let desc := b2 1 ++ b1 g ++ b1 (s.status % 256 ||| flag anyGap 5) ++ b4 x.seq ++
      b8 (maskOf ((s.causes.filter (·.kind == 0)).map (·.unit))) ++ b1 p.1 ++ b1 k.chans.length ++ b2 (min 1024 s.causes.length) ++ b1 s.endCause ++
      [0, 0, 0] ++ bT s.anchor ++ bT p.2 ++ b4 k.pre ++ b4 k.post ++ bT (first.getD s.anchor) ++ bT (last.getD s.anchor)
    let ents := (List.range k.chans.length).flatMap fun j =>
      let ch := k.chans.getD j 0
      let os := all.getD j []
      b2 (h.tag ch) ++ b1 (os.foldl (fun a o => a ||| o.q.toNat) 0) ++
        b1 (flag (gap j) 0 + flag (s.truncated.contains ch) 1 + flag (!h.acquiring ch) 2) ++ b4 os.length ++ bT ((os.head?.map (·.t)).getD 0)
    let body := desc ++ (s.causes.take 1024).flatMap Cause.bytes ++ ents ++ r.2
    let tk := r.1.takeTicket
    match tk.2.append 64 [.normal] tk.1 ((32 + body.length + 7) / 8 * 8) true with
    | none => h.enterFull
    | some (ps, h) =>
      let rec' : Rec := { ticket := tk.1, type := 2, flags := if h.jrn.ticketUnsaved then 2 else 0,
                          group := 0x80 + g, hub := h.sys.straps.hubId, version := h.recVersion, epoch := s.epoch, t := first.getD s.anchor,
                          body := body, block := none, isOpen := false, pages := ps }
      let h := { h with jrn := { h.jrn with recs := insertRec h.jrn.recs rec' } }
      let x := h.cg g
      let n := x.sinceArm + 1
      let off := decide (0 < k.segLimit) && decide (k.segLimit ≤ n)
      let h := h.setCg g { x with segs := x.segs.filter (·.id != s.id), seq := (x.seq + 1) % 2 ^ 32, landed := sat32 (x.landed + 1), sinceArm := n }
      let h := if off then h.cgDisarm g else h
      h.freePages.slMarks.descFreed.jrnState

/-! ## Index and pages (R320, R333, R334) -/

/-- An upset is even or odd in the number of its bits. -/
def oddBits (w : Word) : Bool := (List.range 32).foldl (fun a i => a != bit w i) false
/-- The index copies are compared (R320). Both hold the index but for the upsets named; the parity of a word shows an upset of an odd number
of bits (DEDUCED, log entry 108). A word in which exactly one copy shows one is repaired; other words that differ ask
for a rescan, and so for a datapath warm reset (R539). -/
def indexScrub (ups : List IndexUpset) (h : Hub) : Hub :=
  let differ := ups.filter fun u => u.sram != u.ferry
  let good := fun (u : IndexUpset) => oddBits u.sram != oddBits u.ferry
  let h := (differ.filter good).foldl (fun (h : Hub) _ => h.raise 69 (b4 0)) h
  if differ.all good then h
  else
    let h := h.raise 69 (b4 1)
    { h with jrn := { h.jrn with rescan := true } }

/-- A read or a daily scrub finds `n` correctable errors in a held page (R333). -/
def pageScrub (p n : Nat) (h : Hub) : Hub :=
  if (h.jrn.pages.get p).used then { h with jrn := { h.jrn with pages := h.jrn.pages.upd p fun q => { q with ce := q.ce + n } } } else h

/-- Contiguous runs of lost tickets, among the tickets of the hub's records. -/
def lostRuns : List Nat → List (Nat × Nat)
  | [] => []
  | t :: r => match lostRuns r with
    | (a, b) :: s => if t + 1 = a then (t, b) :: s else (t, t) :: (a, b) :: s
    | [] => [(t, t)]

/-- A page is retired and every record with bytes in it is lost (R334). -/
def Hub.losePage (h : Hub) (p : Nat) : Hub :=
  if !(h.jrn.pages.get p).used then h
  else
    let lost := h.jrn.recs.filter fun r => r.pages.contains p
    let keep := h.jrn.recs.filter fun r => !r.pages.contains p
    let retired : Page := { (default : Page) with retired := true }
    let writers := h.jrn.writers.mapAll fun _ w =>
      let w := if w.page = some p then { w with page := none, fill := 0 } else w
      if w.openRec.any fun t => lost.any (·.ticket == t) then { w with openRec := none } else w
    let h := { h with jrn := { h.jrn with pages := h.jrn.pages.put p retired, recs := keep, writers := writers } }
    let open_ := (List.range 64).filter fun g => lost.any fun r => r.isOpen && r.group == g
    let h := open_.foldl (fun h g => (h.setChg g { h.chg g with cur := none }).endStream g) h
    let h := (h.raise 67 (b4 p)).saveState none
    let h := (lostRuns (lost.map (·.ticket))).foldl (fun h r => h.journalLost r.1 r.2 false) h
    h.jrnDegrade.jrnState

/-- Closed records that fail their CRC are lost (R319, R45). -/
def Hub.loseRecs (h : Hub) (ts : List Nat) : Hub :=
  let bad := fun (r : Rec) => !r.isOpen && ts.contains r.ticket
  let lost := h.jrn.recs.filter bad
  let h := { h with jrn := { h.jrn with recs := h.jrn.recs.filter fun r => !bad r } }
  (lostRuns (lost.map (·.ticket))).foldl (fun h r => h.journalLost r.1 r.2 false) h

/-- An uncorrectable error on a read of a page (R334). -/
def dramUncorrectable (p : Nat) (h : Hub) : Hub := h.losePage p

/-- The background check of a held page ends (R540): its records are offered, or lost. -/
def journalPageCheckDone (p : Nat) (ok : Bool) (h : Hub) : Hub :=
  if ok then { h with jrn := { h.jrn with pages := h.jrn.pages.upd p fun q => { q with checked := true } } } else h.losePage p

end Sys2Proof.Machine
end

