-- ==== Sys2Proof/Machine/CalMath.lean ====
section
/-!
DEFINITION. The arithmetic of calibration: what a measurement says of a modulator, targets, residuals and limits
(R88, R89, R95 to R97, R102).
-/
namespace Sys2Proof.Machine

/-- Twice Vc in 10 nV (R96). -/
def twoVc (refin : Nat) : Nat := if refin ≤ 368600000 then 2 * refin else refin
/-- The modulator's gain: (+Vc mean − −Vc mean) over twice Vc, in Q1.31 of ±4.096 V. -/
def Meas.gainF (m : Meas) (refin : Nat) : Fr := fr ((m.plus - m.minus) * 409600000) (max 1 (twoVc refin * 2 ^ 31))
/-- A Q1.31 LSB count of one offset trim LSB: 20 mV ÷ 16,384 of ±4.096 V. -/
def offLsb : Int := 640
/-- 1 + b × LSB of the gain trim. -/
def gainTrim (b : Int) : Fr := fr (16384 * 50 + b) (16384 * 50)
/-- The target codes that cancel the offset and the gain (R96). -/
def Meas.targets (m : Meas) (refin : Nat) : Int × Int :=
  let g := m.gainF refin
  if g.num ≤ 0 then (0, 0)
  else
    let a := ((fr (-m.zero) offLsb.toNat).div g).round
    let b := (((fr 1 1).div g).sub (fr 1 1)).mul (fr (16384 * 50) 1)
    (clampI a (-8192) 8191, clampI b.round (-8192) 8191)
/-- The residual o_r and g_r that remain under trims (R89). -/
def Meas.resid (m : Meas) (refin : Nat) (off gain : Int) : Int × Int :=
  let g := m.gainF refin
  if g.num ≤ 0 then (0, 0)
  else
    let o := m.zero + (g.mul (fr (offLsb * off) 1)).round
    let r := (((fr 1 1).div (g.mul (gainTrim gain))).sub (fr 1 1)).mul (fr (2 ^ 31) 1)
    (clampI o (-(2 ^ 19)) (2 ^ 19), clampI r.round (-(2 ^ 21)) (2 ^ 21))
/-- The limits of R97. -/
def Meas.fails (m : Meas) (refin : Nat) : Bool :=
  let g := m.gainF refin
  decide (19 * 2 ^ 31 < m.zero.natAbs * 8192) || decide (95 * g.den < 10000 * (g.num - (g.den : Nat)).natAbs) ||
  decide (40000 < m.noise) || m.ovr

/-- Mean of modulator codes in Q1.31 of ±4.096 V. -/
def codeMean (l : List Int) : Int :=
  (sat31 (roundDiv (l.foldl (· + ·) 0 * 2 ^ 31) (max 1 Config.codeFs * max 1 l.length))).1
/-- The codes of a level that are averaged: 256 are discarded, then 2^(10 + CAL_AVG_SEL) taken, when so many have come (R96). -/
def levelCodes (avg : Nat) (l : List Int) : Option (List Int) :=
  let n := 2 ^ (10 + avg)
  if l.length < 256 + n then none else some ((l.drop 256).take n)
/-- A measurement phase from the codes of ZERO, +Vc and −Vc, and whether one of them overflowed. How the noise is computed from the codes of ZERO is free: the spec does
not say how the noise that a modulator shapes is taken out (log entry 57). -/
def measOf (avg : Nat) (z p m : List Int) (ovr : Bool) : Option Meas :=
  match levelCodes avg z, levelCodes avg p, levelCodes avg m with
  | some a, some b, some c =>
    some { zero := codeMean a, plus := codeMean b, minus := codeMean c, noise := Config.zeroNoise a, ovr := ovr }
  | _, _, _ => none

/-! ## The trim ramp (R99) -/

/-- One LSB towards a target. -/
def towards (x t : Int) : Int := if x < t then x + 1 else if t < x then x - 1 else x
/-- The trims after the next step of a ramp. The trim DACs act before the modulator and the residual after it, so the residual makes
up what a DAC's LSB lacks or has too much by the modulator's gain `g`: the net correction moves by one trim LSB (R99). -/
def Ramp.step (x : Ramp) (t : Trim) : Trim :=
  let m : Meas := { zero := 0, plus := x.res.means.getD 1 0, minus := x.res.means.getD 2 0, noise := 0, ovr := false }
  let g := m.gainF x.res.refin
  let off := towards t.off x.target.off
  let gain := towards t.gain x.target.gain
  if off = x.target.off ∧ gain = x.target.gain then x.target
  else if g.num ≤ 0 then { t with off := off, gain := gain }
  else
    let o := x.base.oR + ((g.sub (fr 1 1)).mul (fr (offLsb * (off - x.base.off)) 1)).round
    let net := ((gainTrim x.base.gain).mul (fr (2 ^ 31 + x.base.gR) (2 ^ 31))).add ((fr (gain - x.base.gain) (16384 * 50)).div g)
    let r := ((net.div (gainTrim gain)).sub (fr 1 1)).mul (fr (2 ^ 31) 1)
    { off := off, gain := gain, oR := clampI o (-(2 ^ 19)) (2 ^ 19), gR := clampI r.round (-(2 ^ 21)) (2 ^ 21) }

/-- Group, slot place and spare of a fast channel. -/
def spareMod (g : Nat) : Nat := 9 * g + 8
/-- The modulator that serves a channel (R52). -/
def Hub.modOf (h : Hub) (ch : Nat) : Nat := match h.cal.mod.get ch with | 0 => 9 * (ch / 8) + ch % 8 | n + 1 => n
/-- The step that a channel's slot has reached (R92). -/
def Hub.calStep (h : Hub) (ch : Nat) : Option Nat :=
  match h.cal.run with
  | some r => match r.phase with | .step n c => if c = ch then some n else none | _ => none
  | none => none
/-- Residual of the spare for a channel's present trims (R95). -/
def Hub.spareResid (h : Hub) (ch : Nat) : Int × Int :=
  match h.cal.run with
  | some r => match r.spareMeas with
    | some m => m.resid r.refin (h.cal.trim.get ch).off (h.cal.trim.get ch).gain
    | none => (0, 0)
  | none => (0, 0)
/-- I_set ÷ I_meas − 1 of the excitation output that a channel is bound to (R102). -/
def Hub.excFactor (h : Hub) (ch : Nat) : Int :=
  let x := h.boundExc ch
  if x < 8 then
    match (List.range 8).find? (fun m => (h.cal.scan.get m).corr.keys.contains (8 + x)) with
    | some m => ((h.cal.scan.get m).corr.get (8 + x)).gain
    | none => 0
  else 0
/-- The residual terms of a fast channel's chain, or of its shadow chain. -/
def Hub.resid (h : Hub) (ch : Nat) (shadow : Bool) : Int × Int × Int :=
  if !isFast ch then (0, 0, 0)
  else
    let own := ((h.cal.trim.get ch).oR, (h.cal.trim.get ch).gR)
    let spare : Bool := match h.calStep ch with
      | some n => if shadow then decide (n < 5) else decide (3 ≤ n) && h.cal.run.any (·.shadow.isSome)
      | none => false
    let r := if spare then h.spareResid ch else own
    (r.1, r.2, h.excFactor ch)

end Sys2Proof.Machine
end

