-- ==== Sys2Proof/Machine/Output.lean ====
section
/-!
DEFINITION. The outputs of the chains: Pepper and Saffron paths, digests, staging, synchronising resets and the
placement of ORDER outputs (R73, R120, R130, R131, R136 to R151).
-/
namespace Sys2Proof.Machine

/-! ## Calibration's part in a channel's outputs (R93, R94) -/

/-- Outputs carry S from step 2 to step 6 of the channel's slot (R94). -/
def Hub.carriesS (h : Hub) (ch : Nat) : Bool :=
  (h.calStep ch).any (fun n => decide (2 ≤ n) && decide (n ≤ 6)) && h.cal.run.any fun r => !(h.cal.grp.get r.group).noSpare
/-- The shadow chain of a channel's slot. -/
def Hub.shadow (h : Hub) (ch : Nat) : Option Chain := if (h.calStep ch).isSome then h.cal.run.bind (·.shadow) else none
def Hub.setShadow (h : Hub) (k : Chain) : Hub :=
  { h with cal := { h.cal with run := h.cal.run.map (fun (r : CalRun) => { r with shadow := some k }) } }

/-! ## Pepper (R112, R113, R120, R138, R141) -/

/-- A CIC output leaves on the Pepper path. -/
def Hub.pepperOut (h : Hub) (ch : Nat) (g : Geo) (x : Tap) : Hub :=
  let k := h.chain ch
  if x.i < (k.nextC : Int) ∨ k.tail.any (fun n => (frCyc n).le (g.cT x.i)) then h
  else
    let t := g.cT x.i
    let ep := k.tsEpoch
    let q := k.flags g (h.fault ch) t g.wC ||| qC ||| x.q ||| (if k.seenP = some ep then 0 else qE) ||| (if h.carriesS ch then qS else 0)
    let h := h.setChain ch { k with nextC := x.i.toNat + 1, seenP := some ep, xHold := k.xHold || hasQ q qX }
    let h := h.trigOutput ch true x.i.toNat t ep x.v q
    let h := h.liveOutput ch true (g.p.mode == 3) x.i.toNat t.toT ep (wdInt x.v) q
    h.ringPush true { ch := ch, k := x.i.toNat, t := t.toT, epoch := ep, value := wdInt x.v, q := BitVec.ofNat 8 q }

/-- Output `n` of a bank fade leaves the FIR of an acquiring channel at `t`: the latest faded output is kept, and from output XF on
the channel has passed (R122, R158). -/
def Hub.fadeSeen (h : Hub) (p ch n xf : Nat) (t : T64) : Hub :=
  let s := h.flt.swap.get p
  match s.cur with
  | some c =>
    let last := if n ≤ xf && tLt c.last t then t else c.last
    let passed := if n < xf || c.passed.contains ch then c.passed else c.passed ++ [ch]
    h.setSwap p { s with cur := some { c with passed := passed, last := last } }
  | none => h

/-- A CIC output of the channel's chain: it enters the FIR unless its window lacks an input (R142). A faded output behind the end of a
tail never leaves (R139, R154). -/
def Hub.mainTap (h : Hub) (ch : Nat) (c : ChanCfg) (g : Geo) (x : Tap) : Hub :=
  let k := h.chain ch
  if k.lacks (g.cT x.i) g.wC then h
  else
    let r := h.chainPush c.profile g k x
    let h := h.setChain ch r.1
    match r.2 with
    | some (q, n) => if h.acquiring ch && k.tail.all (fun e => (g.qT q).lt (frCyc e)) then h.fadeSeen c.profile ch n g.p.xf (g.qT q).toT else h
    | none => h

/-- One input enters a channel's chain; `pep` is the shadow's CIC output when it serves the Pepper path. -/
def Hub.feedInput (h : Hub) (ch : Nat) (c : ChanCfg) (g : Geo) (v : Int) (fl : Nat) (pep : Option Tap) : Hub × Bool :=
  let k := h.chain ch
  let e := h.resid ch false
  let k := if fl = 0 then k else { k with flagged := k.flagged ++ [(k.nextIn, fl)] }
  let r := k.feed g e.1 e.2.1 e.2.2 v
  let h := h.setChain ch r.1
  match r.2 with
  | some x =>
    let lost := (h.chain ch).lacks (g.cT x.i) g.wC
    let h := h.mainTap ch c g x
    (if lost then h else h.pepperOut ch g (match pep with | some y => if y.i = x.i then y else x | none => x), true)
  | none => (h, false)

/-- A fast channel's code in one of its chains after demodulation of a FRAME-chopped pair; each chain blanks its own codes (R65). -/
def Hub.demod (h : Hub) (ch : Nat) (k : Chain) (v : Int) : Chain × Int :=
  let x := h.boundExc ch / 2 * 2
  let e := h.fe.exc.get x
  if h.boundExc ch < 8 ∧ e.drive.chops ∧ e.drive.src = 8 then
    let d := if e.reversed then -v else v
    if 0 < k.blankLeft then ({ k with blankLeft := k.blankLeft - 1 }, k.blankCode) else ({ k with blankCode := d }, d)
  else (k, v)
/-- One code of a fast channel's modulator enters its chain. -/
def Hub.feedCode (h : Hub) (ch : Nat) (c : ChanCfg) (g : Geo) (v : Int) (fl : Nat) (pep : Option Tap) : Hub :=
  let d := h.demod ch (h.chain ch) v
  ((h.setChain ch d.1).feedInput ch c g d.2 fl pep).1

/-- One code of the shadow chain's modulator enters it. -/
def Hub.feedShadow (h : Hub) (ch : Nat) (c : ChanCfg) (g : Geo) (v : Int) (fl : Nat) : Hub × Option Tap :=
  match h.shadow ch with
  | none => (h, none)
  | some k =>
    let d := h.demod ch k v
    let k := d.1
    let v := d.2
    let e := h.resid ch true
    let k := if fl = 0 then k else { k with flagged := k.flagged ++ [(k.nextIn, fl)] }
    let r := k.feed g e.1 e.2.1 e.2.2 v
    match r.2 with
    | some x => (h.setShadow (h.chainPush c.profile g r.1 x).1, some x)
    | none => (h.setShadow r.1, none)

/-- Inputs up to input `i` are missing: the states restart from zero, which no output without them can tell (R142). -/
def Chain.jump (k : Chain) (g : Geo) (i : Nat) (cause detail : Nat) : Chain :=
  if i ≤ k.nextIn then k
  else
    let a := g.pin k.nextIn
    let b := g.pin ((i : Int) - 1)
    let known := k.missing.any fun s => s.a.le a && b.le s.b
    let span : Miss := { a := a, b := b, cause := cause, detail := detail, unc := 0 }
    { k with nextIn := i, integ := [], comb := [], lastIn := 0, missing := if known then k.missing else k.missing ++ [span] }

/-- The next synchronising reset of a remote channel is reached before an input (R143). -/
def Chain.syncDue (k : Chain) (g : Geo) (x : Inp) : Bool :=
  match k.syncs with
  | [] => false
  | s :: _ => x.n != 0 && (decide (0 < epochDiff k.tsEpoch x.epoch) || (s.end_.isNone && x.epoch == k.tsEpoch && decide (g.u0 (frCyc s.ts) ≤ x.i)))

/-- Inputs of a scan or remote channel that wait enter its chain until one CIC output leaves, or a synchronising reset is
reached (R118, R143). Inputs that no chain has seen and nothing has accounted for are retention exceeded. -/
def Hub.consume (h : Hub) (ch : Nat) (c : ChanCfg) (g : Geo) : Nat → Hub
  | 0 => h
  | n + 1 =>
    let k := h.chain ch
    match k.inq with
    | [] => h
    | x :: r =>
      if k.syncDue g x then h
      else
        let k := { k with inq := r }
        if x.n = 0 then (h.setChain ch { k with hole := some (x.q / 256, x.q % 256) }).consume ch c g n
        else if x.epoch ≠ k.tsEpoch ∨ x.i + x.n ≤ k.nextIn then (h.setChain ch k).consume ch c g n
        else
          let skip := k.hole.getD (3, 0)
          let k := { (k.jump g x.i skip.1 skip.2) with hole := none }
          match x.v with
          | none => (h.setChain ch (k.jump g (x.i + x.n) (x.q / 256) (x.q % 256))).consume ch c g n
          | some v =>
            let f := (h.setChain ch k).feedInput ch c g v x.q none
            if f.2 then f.1 else f.1.consume ch c g n

/-! ## Stages 5 to 7 (R146 to R151) -/

/-- Stages 5 and 6 of an output, and whether it saturated. A table that has never been committed passes values on unchanged: the
spec does not say what a channel that names one gives (DESIGN CHOICE, log entry 58). -/
def Hub.stage56 (h : Hub) (p : ChanPar) (x : Int) : Int × Bool :=
  let y := sat31 (roundDiv (x * p.gain) (2 ^ 28) + p.offset)
  let xy := if p.linEn then (h.cfg.fe.lin.get p.linTable).xy else []
  if xy.length < 2 then y
  else
    let z := linearise xy y.1
    (z.1, y.2 || z.2)

/-- The integer square root, bit by bit. -/
def isqrt (n : Nat) : Nat := (List.range 70).foldl (fun r i => let c := r + 2 ^ (69 - i); if c * c ≤ n then c else r) 0

/-- The 48 bytes of a digest entry (R151). -/
def Hub.digestBytes (h : Hub) (ch : Nat) (a : DigAcc) (order isPart : Bool) : List Byte :=
  let n := a.count
  let rms := if n = 0 then 0 else min 0xFFFFFFFF ((isqrt (16 * a.sumSq / n) + 1) / 2)
  let mean : Int := if n = 0 then 0 else roundDiv (a.sum * 2 ^ 32) n
  b2 (h.tag ch) ++ b1 a.flags ++ b1 (flag isPart 0 + flag a.gap 1 + flag order 2) ++ b4 n ++ b4 a.uCount ++
    b4 (if n = 0 then 0 else unsigned 32 a.min) ++ b4 (if n = 0 then 0 else unsigned 32 a.max) ++ b4 rms ++ b8 (unsigned 64 mean) ++
    bT a.first ++ b8 a.k
/-- The interval being accumulated closes and its entry is emitted (R149, R150). -/
def Hub.digestEmit (h : Hub) (ch : Nat) (isPart : Bool) : Hub :=
  let k := h.chain ch
  match k.digest with
  | none => h
  | some a =>
    let order := (h.geoOf ch).any fun g => g.2.p.mode == 3
    let h := h.setChain ch { k with digest := none }
    h.digestEntry (h.groupOf ch) k.tsEpoch a.first (h.digestBytes ch a order isPart)

/-- The accumulator of the interval of output `n`, the former interval closed. An interval that the chain enters after its first
instant, or of which an earlier instant was passed over, has instants without an output (R150). A stop of the group between two outputs closes the
interval with PARTIAL. -/
def Hub.digestAt (h : Hub) (ch redN n : Nat) (order : Bool) (t : T64) : Hub × DigAcc :=
  let k := h.chain ch
  let lo := n / redN * redN
  let gap := k.lastLack.any (fun l => decide (lo ≤ l)) || (!order && decide (lo < k.outFrom))
  let fresh : DigAcc := { k := n / redN, count := 0, uCount := 0, flags := 0, min := 0, max := 0, sum := 0, sumSq := 0, first := t, gap := gap
                          next := n }
  match k.digest with
  | some a =>
    let parted := (h.chg (h.groupOf ch)).parted (k.tsEpoch, a.first) (k.tsEpoch, t)
    if a.k = n / redN ∧ !parted then (h, a)
    else
      let short := !order && decide (a.next < (a.k + 1) * redN)
      ((h.setChain ch { k with digest := some { a with gap := a.gap || short } }).digestEmit ch parted, fresh)
  | none => (h, fresh)
/-- An output joins its digest interval; with the interval's last instant the entry is emitted. An instant without an output counts
too, so an interval of which no output was produced gives an entry with COUNT 0 and GAP as its last instant passes: the spec does not
say whether there is one (DESIGN CHOICE, log entry 99). -/
def Hub.digestAdd (h : Hub) (ch redN n : Nat) (order : Bool) (t : T64) (y : Option (Int × Nat)) : Hub :=
  if redN = 0 then h
  else
    let r := h.digestAt ch redN n order t
    let a := { r.2 with gap := r.2.gap || (!order && r.2.next != n), next := n + 1 }
    let a := match y with
      | none => { a with gap := true }
      | some (v, q) =>
        let a := { a with flags := a.flags ||| q, first := if a.count + a.uCount = 0 then t else a.first }
        if hasQ q qU then { a with uCount := a.uCount + 1 }
        else { a with count := a.count + 1, min := if a.count = 0 then v else min a.min v, max := if a.count = 0 then v else max a.max v,
                      sum := a.sum + v, sumSq := a.sumSq + v.natAbs * v.natAbs }
    let h := r.1.setChain ch { r.1.chain ch with digest := some a }
    if n % redN = redN - 1 then h.digestEmit ch false else h

/-! ## Staging (R32, R73, R331) -/

/-- An output leaves its staging wait for landing and the recent ring. -/
def Hub.release (h : Hub) (o : StOut) : Hub :=
  let g := h.groupOf o.ch
  let h := if o.land && h.covers o.ch o.epoch o.t then
      let h := h.gapEndBefore o.ch (o.epoch, o.t)
      let x := h.chg g
      h.setChg g { x with staged := x.staged ++ [o] }
    else h
  h.ringPush false o

/-- An output enters staging: it is accepted for landing unless its group refuses it there (R32, R41, R331). One that does not land reaches the
recent rings alone. -/
def Hub.stageOut (h : Hub) (o : StOut) : Hub :=
  let takes := o.land && h.covers o.ch o.epoch o.t
  let refused := takes && (h.chg (h.groupOf o.ch)).refusing
  let h := if refused then (h.gapEnd o.ch).refuseInstant o.ch o.epoch o.t
    else if takes then h.gapEndBefore o.ch (o.epoch, o.t) else h
  let o := { o with land := o.land && !refused, born := h.tb.cycles }
  if isFast o.ch then h.setChain o.ch { h.chain o.ch with stage := (h.chain o.ch).stage ++ [o] } else h.release o

/-- FAULT_DEB + FAULT_EXTEND modulator clocks have passed since an output's emission (R73). -/
def Hub.waited (h : Hub) (o : StOut) : Bool :=
  let c := h.fe.fast.get o.ch
  decide (o.born + 20 * (c.deb + c.extend) ≤ h.tb.cycles)
/-- The staging wait of a channel's oldest output ends (R73). -/
def stagingRelease (ch : Nat) (h : Hub) : Hub :=
  let k := h.chain ch
  match k.stage with
  | [] => h
  | o :: r => if h.clk.held || !h.waited o then h else (h.setChain ch { k with stage := r }).release o
/-- Everything that a channel holds in the staging of R73 leaves it. -/
def Hub.stageEmpty (h : Hub) (ch : Nat) : Hub :=
  let k := h.chain ch
  k.stage.foldl (fun h o => h.release o) (h.setChain ch { k with stage := [] })

/-! ## Saffron outputs (R93, R136, R140 to R145, R147) -/

/-- The shadow's value and flags for a fade of R93, with the fade's number and length. -/
def Hub.fadeWith (h : Hub) (ch : Nat) (g : Geo) (n : Nat) : Option ((Int × Bool) × Nat × Nat × Nat) :=
  match h.cal.run, h.calStep ch with
  | some r, some st =>
    if st = 2 ∨ st = 6 then
      match r.shadow with
      | some s =>
        let s := { s with nextOut := n, order := (h.chain ch).order }
        match s.stage4 g with
        | some o => o.v.map fun v => (v, s.flags g (h.fault ch) o.t g.wS, r.fade + 1, r.cfg.xfade)
        | none => none
      | none => none
    else none
  | _, _ => none

/-- An output passes in a fade's place in a slot of policy INTERRUPT, which has no shadow chain but the same timing (R104). -/
def Hub.fadeBare (h : Hub) (ch : Nat) : Hub :=
  match h.cal.run with
  | some r => if r.interrupt && (h.calStep ch).any (fun n => n == 2 || n == 6) then { h with cal := { h.cal with run := some { r with fade := r.fade + 1 } } } else h
  | none => h

/-- The parameter changes that an output at `t` is the first to reach, and those that are still to come (R147). -/
def parSplit (t : T64) : List (ChanPar × T64 × Bool) → List (ChanPar × T64 × Bool) × List (ChanPar × T64 × Bool)
  | [] => ([], [])
  | p :: r => if tLe p.2.1 t then let s := parSplit t r; (p :: s.1, s.2) else ([], p :: r)
/-- The channel's parameters become those of the changes reached; in ORDER mode the descriptors land with the output (R147). -/
def Hub.parReach (h : Hub) (ch : Nat) (t : T64) : Hub :=
  let k := h.chain ch
  let s := parSplit t k.parNext
  match s.1.getLast? with
  | none => h
  | some l =>
    let h := h.setChain ch { k with par := l.1, parNext := s.2 }
    (s.1.filter (·.2.2)).foldl (fun h p => h.landDescPar ch (h.descBank ch) t p.1 (h.cfg.jrn.desc.get ch)) h

/-- Every pulse of a channel's tachometer up to an angle instant has been stamped and placed (R131). Those of an epoch that has ended have
been placed at its end. -/
def Hub.tachPast (h : Hub) (ch : Nat) (c : ChanCfg) (s : Stage4) : Bool :=
  s.order.isNone || (h.chain ch).tsEpoch != h.tb.epoch ||
    (!(h.tiu.tach.any fun p => p.1 == c.tiSel && tLe p.2.1 s.t.toT) && tLe s.t.toT h.sampleT)
/-- The next output of stage 4 leaves stage 7, or is passed over because it lacks an input. -/
def Hub.chainStep (h : Hub) (ch : Nat) (c : ChanCfg) (g : Geo) (s : Stage4) : Hub :=
  let k := h.chain ch
  let t := s.t.toT
  let ep := k.tsEpoch
  let n := match s.order with | some (rev, step) => rev * c.spr + step | none => s.n
  let cov := h.covers ch ep t
  match s.v with
  | none =>
    let m := (k.lackOf s.t g.wS).getD { a := s.t, b := s.t, cause := 3, detail := 0, unc := 0 }
    let h := (h.setChain ch { (k.advance g s) with lastLack := some n }).trigMissed ch
    if cov then
      let h := h.gapInstant ch m.cause m.detail m.unc ep t
      (h.chanDone ch ep t false).digestAdd ch c.redN n s.order.isSome t none
    else h
  | some v =>
    let q := k.flags g (h.fault ch) s.t g.wS
    let fd := h.fadeWith ch g s.n
    let mix := match fd with
      | some (b, fq, i, xf) =>
        let y := fadeMix i xf v b
        (y.1, y.2 || v.2, q ||| (if hasQ fq qU then fq - qU else fq))
      | none => (v.1, v.2, q)
    let h := match fd with
      | some (_, _, i, _) => { h with cal := { h.cal with run := h.cal.run.map (fun (r : CalRun) => { r with fade := i }) } }
      | none => h.fadeBare ch
    let h := h.parReach ch t
    let k := h.chain ch
    let y := h.stage56 k.par mix.1
    let q := mix.2.2 ||| (if mix.2.1 || y.2 then qO else 0) ||| (if k.seenS = some ep then 0 else qE) ||| (if h.carriesS ch then qS else 0)
    let done := k.settle.any fun e => ((frT e.2).add g.wS).lt s.t
    let settle := if done then none else k.settle
    let hold := !done && (k.xHold || hasQ q qX)
    let tset := if k.tset.isNone && !hasQ q qU then some (s.t.sub k.tsF).t.toNat else k.tset
    let k := { k.advance g s with seenS := some ep, xHold := hold, settle := settle, tset := tset }
    let h := h.setChain ch k
    let h := h.trigOutput ch false s.n s.t ep y.1 q
    let h := h.liveOutput ch false s.order.isSome s.n t ep (wdInt y.1) q
    let h := if cov then h.digestAdd ch c.redN n s.order.isSome t (some (y.1, q)) else h
    let drop := cov && hasQ q qU && (h.grp (h.groupOf ch)).uDrop
    let h := if drop then (h.gapInstant ch 5 0 0 ep t).chanDone ch ep t false else h
    h.stageOut { ch := ch, k := n, t := t, epoch := ep, value := wdInt y.1, q := BitVec.ofNat 8 q, land := !drop }

/-- A Saffron or compact output leaves stage 7 once its latest input has arrived (R136). -/
def chainOutput (ch : Nat) (h : Hub) : Hub :=
  match h.geoOf ch with
  | none => h
  | some (c, g) =>
    let k := h.chain ch
    if !k.running || h.clk.held then h
    else match k.stage4 g with
      | some s =>
        if h.tachPast ch c s then
          let h := h.chainStep ch c g s
          if isRemote ch then h.slMarks else h
        else h
      | none => h

/-! ## Synchronising resets (R137 to R141) -/

/-- Every output that is ready leaves, up to the end of the tail and to a stamp that has not been placed (R131). -/
def Hub.drain (h : Hub) (ch : Nat) (c : ChanCfg) (g : Geo) : Nat → Hub
  | 0 => h
  | n + 1 =>
    let k := h.chain ch
    match k.stage4 g with
    | some s => if k.tail.any (fun e => (frCyc e).le s.t) || !h.tachPast ch c s then h else (h.chainStep ch c g s).drain ch c g n
    | none => h
/-- Zero inputs follow until no output before the tail's end is left: the spec does not say what stands in an output's window for the
inputs at and after t_s (DESIGN CHOICE, log entry 98). -/
def Hub.flushTail (h : Hub) (ch : Nat) (c : ChanCfg) (g : Geo) : Nat → Hub
  | 0 => h
  | n + 1 =>
    let h := h.drain ch c g 4
    let k := h.chain ch
    let end_ := k.tail.getD 0
    let t := g.pin k.nextIn
    if ((frCyc end_).add (g.wS.add g.wS)).lt t then h else ((h.feedInput ch c g 0 0 none).1).flushTail ch c g n

/-- Inputs that the tail may need: twice the window, in inputs. -/
def Geo.tailLen (g : Geo) : Nat := ((g.wS.mul (fr 4 1)).mul g.fin).ceil.toNat + 8

/-- The outputs that end at a synchronising reset at `ts` leave: the ready ones, then those whose windows reach it (R139). -/
def Hub.chainTail (h : Hub) (ch : Nat) (c : ChanCfg) (g : Geo) (ts : Nat) : Hub :=
  let k := h.chain ch
  let h := h.setChain ch { k with tail := some ts }
  let n := k.inq.length
  let h := (List.range (n + 1)).foldl (fun h _ => (h.consume ch c g (n + 1)).drain ch c g 65536) h
  let h := h.flushTail ch c g g.tailLen
  h.setChain ch { h.chain ch with tail := none }

/-- The slot of a channel that is reset restarts the step in progress, a fade from its first output and a measurement from ZERO; later
steps move back with it (R107). The sync instant lies `wait` TIME cycles ahead. -/
def Hub.calRestart (h : Hub) (ch : Nat) (g : Geo) (ts epoch wait : Nat) : Hub :=
  match h.cal.run, h.calStep ch with
  | some r, some n =>
    let sh := r.shadow.map fun s => s.zero g ts epoch
    let since := if n = 4 then h.tb.cycles else h.tb.cycles + wait
    { h with cal := { h.cal with run := some { r with shadow := sh, fade := 0, since := since, suspect := if n = 4 then none else r.suspect } } }
  | _, _ => h

/-- A synchronising reset at `ts` of a chain that has reached it, within its epoch (R137 to R139). -/
def Hub.syncNow (h : Hub) (ch : Nat) (c : ChanCfg) (g : Geo) (ts : Nat) : Hub :=
  let h := h.chainTail ch c g ts
  let k := h.chain ch
  let k := { (k.zero g ts k.tsEpoch) with tset := g.tset ts }
  ((h.setChain ch k).swapReset c.profile ch).calRestart ch g ts k.tsEpoch 0
/-- A synchronising reset of a running chain within its epoch; a remote channel takes it when its samples reach it (R143). -/
def Hub.chainSync (h : Hub) (ch ts : Nat) : Hub :=
  match h.geoOf ch with
  | none => h
  | some (c, g) =>
    let k := h.chain ch
    if !k.running then h
    else if isRemote ch then h.setChain ch { k with syncs := k.syncs ++ [{ end_ := none, ts := ts, epoch := h.tb.epoch, step := 0 }] }
    else h.syncNow ch c g ts

/-- A chain starts to run at `ts` (R137, R139). -/
def Hub.chainStart (h : Hub) (ch ts epoch : Nat) : Hub :=
  match h.geoOf ch with
  | none => h
  | some (c, g) =>
    let k := (h.chain ch).start g ts epoch
    (h.setChain ch { k with tset := g.tset ts, syncs := [], hole := none, resync := false }).swapReset c.profile ch
/-- A chain restarts at `ts` with its new profile, and with `was` until a further restart, once the outputs of the old one have left
(R137, R139). -/
def Hub.restartNow (h : Hub) (ch ts : Nat) (was : Option ChanCfg) : Hub :=
  let epoch := (h.chain ch).tsEpoch
  let h := match h.geoOf ch with
    | some (c, g) => h.chainTail ch c g ts
    | none => h
  (h.setChain ch { h.chain ch with was := was }).chainStart ch ts epoch
/-- The restart of a running chain at a strobe; a remote channel takes it when its samples reach it (R137, R143). -/
def Hub.chainRestart (h : Hub) (ch ts : Nat) : Hub :=
  let k := h.chain ch
  let h := h.setChain ch { k with restart := false }
  if isRemote ch then
    h.setChain ch { h.chain ch with syncs := k.syncs ++ [{ end_ := none, ts := ts, epoch := h.tb.epoch, step := 0, fresh := h.chanCfg ch }] }
  else h.restartNow ch ts none

/-- A chain lacks the inputs of a held span. -/
def Chain.missHeld (k : Chain) (g : Geo) (jumps : Bool) (old new unc : Nat) : Chain :=
  let i := g.u0 (frCyc old)
  let j := g.u0 (frCyc new)
  if jumps then (k.miss g (min i k.nextIn) j 1 0 unc).jump g j 1 0 else k.miss g i j 1 0 unc
/-- The held spans that lie in the epoch which the chain has reached. -/
def Chain.heldHere (k : Chain) (g : Geo) : Chain :=
  (k.heldLater.filter (·.1 == k.tsEpoch)).foldl (fun (k : Chain) s => k.missHeld g false s.2.1 s.2.2.1 s.2.2.2)
    { k with heldLater := k.heldLater.filter (·.1 != k.tsEpoch) }
/-- What a chain keeps across the change to a new epoch whose sync instant is `ts`; `step` moves its instants. -/
def Chain.rebase (k : Chain) (g : Geo) (f : FaultSt) (ts epoch : Nat) (step : T64) : Chain × FaultSt :=
  let z := k.zero g ts epoch
  let t := frCyc ts
  ({ z with nextC := g.firstC t, nextOut := g.firstOut t, outFrom := g.firstOut t, lastLack := none, missing := [], faulty := [], trimAt := [],
            flagged := [], tset := g.tset ts, hole := none, resync := false,
            settle := k.settle.map fun s => (s.1 + step, s.2 + step),
            parNext := k.parNext.map fun p => (p.1, p.2.1 + step, p.2.2),
            order := { k.order with placed := k.order.placed.filter (·.epoch == epoch) } },
   if f.from_.isSome && f.till.isNone then { f with from_ := some (cycT ts) } else { f with from_ := none, till := none })

/-- A chain that has reached the end of its epoch, at `p` TIME cycles of the old count, goes over to the new epoch, whose sync
instant is `ts` (R137, R139, R141, R154). -/
def Hub.epochNow (h : Hub) (ch : Nat) (c : ChanCfg) (g : Geo) (p ts epoch : Nat) (step : T64) : Hub :=
  let h := h.chainTail ch c g p
  let h := (h.digestEmit ch true).gapEnd ch
  let r := (h.chain ch).rebase g (h.fault ch) ts epoch step
  (((h.setChain ch (r.1.heldHere g)).setFault ch r.2).swapReset c.profile ch).calRestart ch g ts epoch (ts - cyclesOf (cycT p + step))
/-- An epoch ends at `p` TIME cycles of the old count; a remote channel first uses the samples of the old epoch (R143). -/
def Hub.chainEpoch (h : Hub) (ch p ts epoch : Nat) (step : T64) : Hub :=
  match h.geoOf ch with
  | none => h
  | some (c, g) =>
    let k := h.chain ch
    if !k.running then h
    else if isRemote ch then h.setChain ch { k with syncs := k.syncs ++ [{ end_ := some p, ts := ts, epoch := epoch, step := step }] }
    else h.epochNow ch c g p ts epoch step

/-- A remote channel takes the synchronising resets that its next sample reaches (R143). -/
def Hub.takeSyncs (h : Hub) (ch : Nat) : Nat → Hub
  | 0 => h
  | n + 1 =>
    let k := h.chain ch
    match h.geoOf ch, k.inq, k.syncs with
    | some (c, g), x :: _, s :: r =>
      if !k.syncDue g x then h
      else
        let was := if r.any (·.fresh.isSome) || k.restart then s.fresh else none
        let h := match s.end_, s.fresh with
          | some p, _ => h.epochNow ch c g p s.ts s.epoch s.step
          | none, some _ => h.restartNow ch s.ts was
          | none, none => h.syncNow ch c g s.ts
        (h.setChain ch { h.chain ch with syncs := r }).takeSyncs ch n
    | _, _, _ => h

/-! ## PEPPER_OUTPUT (R118 to R120) -/

/-- The codes of a fast channel's modulator up to its next Pepper output, each with its O flag, and those of the shadow
chain's modulator; a scan or remote channel takes its waiting inputs. -/
def pepperOutput (ch : Nat) (codes shadowCodes : List (Int × Bool)) (h : Hub) : Hub :=
  let k := h.chain ch
  let h := if !k.running || h.clk.held then h else h.takeSyncs ch k.syncs.length
  match h.geoOf ch with
  | none => h
  | some (c, g) =>
    let k := h.chain ch
    if !k.running || k.cut || h.clk.held then h
    else if isFast ch then
      let bad := if h.excFaulty ch then qF else 0
      let s := shadowCodes.foldl (fun (acc : Hub × Option Tap) x =>
        let r := acc.1.feedShadow ch c g x.1 (bad + flag x.2 2)
        (r.1, r.2.or acc.2)) (h, none)
      let pep := if h.calStep ch = some 2 then s.2 else none
      codes.foldl (fun h x => h.feedCode ch c g x.1 (bad + flag x.2 2) pep) s.1
    else h.consume ch c g (k.inq.length + 1)

/-! ## Tachometer pulses (R130 to R132) -/

/-- A pulse at `t` reaches an ORDER channel. -/
def Hub.tachChan (h : Hub) (ch : Nat) (c : ChanCfg) (g : Geo) (t : T64) : Hub :=
  let k := h.chain ch
  let o := k.order
  let cnt := o.pulses + 1
  let after := fun (p : Placed) => p.epoch == h.tb.epoch && tLe t p.t
  let drop := (o.placed.filter after).length
  let placed := o.placed.filter fun p => !after p
  let base : OrderSt := { o with last := some t, pulses := cnt, rev := cnt / max 1 c.ppr % 2 ^ 32, placed := placed }
  let slip := k.slip + drop
  match o.last with
  | none => h.setChain ch { k with order := { base with valid := false }, slip := slip }
  | some l =>
    let iv := fr (tDiff l t) (2 ^ 32)
    let kk := c.spr / max 1 c.ppr
    let d := (iv.mul (fr 1 (max 1 kk))).max (fr 1 (maxRate ch))
    let big := (fr 65536 1).le (d.mul g.fF)
    let long := (fr c.tachMax 1000000).lt iv
    if long || big then h.setChain ch { k with order := { base with valid := false }, slip := slip + if big then 1 else 0 }
    else
      let ratio := ((d.mul g.fF).mul (fr (2 ^ 32) 1)).round.toNat
      let pos := (posOf (((frT t).add g.sig).mul g.fF)).toNat
      let mk := fun (m : Nat) =>
        ({ pos := pos + m * ratio, t := t + ((fr (m * ratio : Nat) (2 ^ 32)).div g.fF).toT, epoch := h.tb.epoch, rev := base.rev,
           step := cnt % max 1 c.ppr * kk + m, pulse := cnt } : Placed)
      h.setChain ch { k with order := { base with valid := true, ratio := ratio, placed := placed ++ (List.range kk).map mk }, slip := slip }

/-- A tachometer stamp of input TI`i` reaches the filter engines (R130). -/
def tachPulse (i : Nat) (t : T64) (h : Hub) : Hub :=
  (List.range 640).foldl (fun h ch =>
    match h.chanCfg ch with
    | some c =>
      if c.tiSel = i then
        match h.geoOf ch with
        | some (_, g) => if g.p.mode = 3 ∧ (h.chain ch).running then h.tachChan ch c g t else h
        | none => h
      else h
    | none => h) h

end Sys2Proof.Machine
end

