-- ==== Sys2Proof/Machine/Cal.lean ====
section
/-!
DEFINITION. Calibration runs of the fast groups, trim ramps, results and the calibration commands (R85, R86, R90 to
R100, R103 to R111), die temperature (R589).
-/
namespace Sys2Proof.Machine

def Hub.calGrp (h : Hub) (g : Nat) : CalGrp := h.cal.grp.get g
def Hub.setCalGrp (h : Hub) (g : Nat) (x : CalGrp) : Hub := { h with cal := { h.cal with grp := h.cal.grp.put g x } }
def Hub.setRun (h : Hub) (r : Option CalRun) : Hub := { h with cal := { h.cal with run := r } }
def Hub.trimOf (h : Hub) (ch : Nat) : Trim := h.cal.trim.get ch

/-! ## Results (R106) -/

/-- Bytes of a CAL_RESULT payload after SUBTYPE. -/
def CalRec.bytes (r : CalRec) : List Byte :=
  let i2 := fun (z : Int) => b2 (unsigned 16 z)
  b2 r.tag ++ b1 r.modulator ++ b1 r.status ++ i2 r.temp ++ i2 r.old.off ++ i2 r.new.off ++ i2 r.old.gain ++ i2 r.new.gain ++
  b4 (unsigned 32 r.new.oR) ++ b4 (unsigned 32 r.new.gR) ++ (List.range 3).flatMap (fun i => b4 (unsigned 32 (r.means.getD i 0))) ++
  b4 r.noise ++ bT r.t ++ b2 r.epoch ++ b1 r.gainSel ++ b1 0 ++ b4 r.refin
/-- Where the latest record of a channel and gain selection is kept. -/
def calKey (ch gainSel : Nat) : Nat := if ch < 64 then 8 * ch else 8 * (ch / 8 * 8) + gainSel
/-- A CAL_RESULT record lands and becomes the channel's latest. -/
def Hub.calLand (h : Hub) (ch : Nat) (r : CalRec) : Hub :=
  (({ h with cal := { h.cal with result := h.cal.result.put (calKey ch r.gainSel) (some r) } }).landHealth 0x10 r.startEpoch r.start r.bytes)
/-- A record of a slot in which nothing changes, dated now. -/
def Hub.calRec (h : Hub) (ch status : Nat) : CalRec :=
  let t := h.trimOf ch
  let r := h.cal.run
  { tag := h.tag ch, modulator := h.modOf ch, status := status, temp := (r.map (·.slotTemp)).getD (h.cal.temp.get (ch / 8)), old := t, new := t,
    t := h.sampleT, epoch := h.tb.epoch, refin := ((r.map (·.refin)).orElse fun _ => h.cfg.cal.ref.map (·.1)).getD 0,
    start := (r.map (·.slotT)).getD h.sampleT, startEpoch := (r.map (·.slotEpoch)).getD h.tb.epoch }
/-- A measured result joins a record. -/
def CalRec.withMeas (r : CalRec) (m : Meas) : CalRec := { r with means := [m.zero, m.plus, m.minus], noise := m.noise }

/-! ## Becoming pending (R90, R91, R104) -/

/-- The policy of a group is SUSPEND after a modulator fault. -/
def Hub.calSuspended (h : Hub) (g : Nat) : Bool := (h.calGrp g).noSpare && (h.cfg.cal.groups.get g).suspend
/-- Channels of a group that take slots. -/
def Hub.calLive (h : Hub) (g : Nat) : List Nat :=
  ((List.range 8).map (8 * g + ·)).filter fun ch => (h.fe.fast.get ch).enable && !h.cal.lost.contains ch
/-- A suspended run: a record for each channel, and CAL_SUSPENDED once. The spec gives no instant for it: it is raised with the first
run that would have become pending, and again after RESET_N, which forgets it (DESIGN CHOICE, log entry 59). -/
def Hub.calSuspend (h : Hub) (g : Nat) : Hub :=
  let h := (h.calLive g).foldl (fun h ch =>
    h.calLand ch { h.calRec ch 6 with start := h.sampleT, startEpoch := h.tb.epoch, temp := h.cal.temp.get g }) h
  if (h.calGrp g).suspendedRaised then h else (h.setCalGrp g { h.calGrp g with suspendedRaised := true }).raise 39 (b1 g)
/-- A trigger may not start a run of the group yet (R86). -/
def CalGrp.blocks (x : CalGrp) (trig now : Nat) : Bool := x.block.any fun b => b.1 == trig && decide (now < b.2)
/-- A trigger asks for a run of a group. -/
def Hub.calWant (h : Hub) (g trig : Nat) : Hub :=
  let x := h.calGrp g
  if h.cfg.cal.ref.isNone || h.cal.pending.any (·.1 == g) then h
  else if x.blocks trig h.xoCycles then h
  else if h.calSuspended g then h.calSuspend g
  else { h with cal := { h.cal with pending := h.cal.pending ++ [(g, trig)] } }
/-- A run becomes pending for every group (R106, R107). -/
def Hub.calWantAll (h : Hub) : Hub := (List.range 8).foldl (fun h g => h.calWant g 3) h

/-- CAL_MAX_INT has elapsed on TB_LOCAL since the start of the group's last completed run (R90). For a group that has completed none
the spec does not say from when it counts: the model counts from TB_LOCAL 0 (DESIGN CHOICE, log entry 60). -/
def Hub.calOverdue (h : Hub) (g : Nat) : Bool :=
  let m := (h.cfg.cal.groups.get g).maxInt
  decide (0 < m) && decide ((h.calGrp g).lastStart + m * 49152000 ≤ h.xoCycles)
/-- The group's temperature differs by more than CAL_DT from that of its last completed run (R90). For a group that has completed none
there is no reading to differ from, and this cause never fires (DESIGN CHOICE, log entry 60). -/
def Hub.calWarm (h : Hub) (g : Nat) : Bool :=
  (h.calGrp g).lastTemp.any fun l => decide (4 * (h.cfg.cal.groups.get g).dt < (h.cal.temp.get g - l).natAbs)
/-- The interval of R90 has passed. -/
def calMaxIntExpiry (g : Nat) (h : Hub) : Hub := if h.calOverdue g && !h.cal.run.any (·.group == g) then h.calWant g 1 else h
/-- Pending groups are evaluated again after a control reset: those whose cause still holds stay, those of CAL_RUN go with their
command (R107, R491). -/
def Hub.calReview (h : Hub) : Hub :=
  let keep := fun (p : Nat × Nat) => p.2 == 3 || (p.2 == 0 && h.calWarm p.1) || (p.2 == 1 && h.calOverdue p.1)
  let h := { h with cal := { h.cal with pending := h.cal.pending.filter keep } }
  (List.range 8).foldl (fun h g =>
    if h.cal.run.any (·.group == g) then h else if h.calWarm g then h.calWant g 0 else if h.calOverdue g then h.calWant g 1 else h) h

/-- The nine sensors are sampled (R90, R589). While a group under SUSPEND stays past CAL_DT a run would become pending at every
sample, and each lands its records of R104 (DESIGN CHOICE, log entry 61). -/
def dieTempSample (t : List Int) (h : Hub) : Hub :=
  if h.clk.held then h else
  let h := { h with cal := { h.cal with temp := h.cal.temp.puts 0 (t.take 9) } }
  let h := (List.range 8).foldl (fun h g => if h.calWarm g && !h.cal.run.any (·.group == g) then h.calWant g 0 else h) h
  let v := fun s => h.cal.temp.get s
  let top := (List.range 9).foldl (fun a s => if v a < v s then s else a) 0
  let data := fun (s d : Nat) => b4 s ++ b4 (unsigned 32 (v s)) ++ b1 d
  if !h.sys.dieHot && decide (105 * 16 < v top) then ({ h with sys := { h.sys with dieHot := true } }).raise 19 (data top 1)
  else if h.sys.dieHot && decide (v top < 100 * 16) then ({ h with sys := { h.sys with dieHot := false } }).raise 19 (data top 0)
  else h

/-! ## The end of a group run (R90, R107, R110) -/

/-- CAL_RUN commands whose groups have all finished or been abandoned complete. -/
def Hub.calCmdsDone (h : Hub) : Hub :=
  let done := h.cal.cmds.filter (·.left.isEmpty)
  done.foldl (fun h c => h.complete c.handle (if c.aborted then ABORTED else DONE) ([wd (maskOf c.done), wd (maskOf c.abandoned)] ++ tWords h.sampleT ++ [wd h.tb.epoch]))
    { h with cal := { h.cal with cmds := h.cal.cmds.filter fun c => !c.left.isEmpty } }
/-- A group has finished, or has been abandoned, for the commands that wait for it. -/
def Hub.calCmdGroup (h : Hub) (g : Nat) (ok : Bool) : Hub :=
  let f := fun (c : CalCmd) =>
    if c.left.contains g && (!ok || c.started.contains g) then
      { c with left := c.left.filter (· != g), done := if ok then c.done ++ [g] else c.done, abandoned := if ok then c.abandoned else c.abandoned ++ [g] }
    else c
  ({ h with cal := { h.cal with cmds := h.cal.cmds.map f } }).calCmdsDone
/-- The run of a group completes. -/
def Hub.calFinish (h : Hub) (r : CalRun) : Hub :=
  let h := h.setCalGrp r.group { h.calGrp r.group with lastTemp := some r.temp, lastStart := r.startLocal }
  (h.setRun none).calCmdGroup r.group true

/-! ## Shadow chains (R92, R93) -/

/-- A chain with the filter states of another. -/
def Chain.takeStates (a b : Chain) : Chain :=
  { a with nextIn := b.nextIn, integ := b.integ, comb := b.comb, lastIn := b.lastIn, cic := b.cic, fir := b.fir, flagged := b.flagged }
/-- The shadow chain takes the channel's place, and the channel's former chain becomes the shadow. -/
def Hub.calExchange (h : Hub) (ch : Nat) (r : CalRun) : Hub :=
  match r.shadow with
  | some s =>
    let k := h.chain ch
    (h.setChain ch (k.takeStates s)).setRun (some { r with shadow := some (s.takeStates k) })
  | none => h
/-- TIME cycles of TB_SAMPLE at the frame strobe that comes now or next. -/
def Hub.strobeOn (h : Hub) : Nat := ceilDiv h.tb.total 15360 * 15360
/-- A shadow chain from zero history for a running channel; its sync instant is a frame strobe (R92, R137). -/
def Hub.calShadow (h : Hub) (ch : Nat) : Option Chain :=
  match h.geoOf ch with
  | some (_, g) =>
    let k := h.chain ch
    if k.running then some { (k.zero g h.strobeOn h.tb.epoch) with flagged := [], missing := [], blankLeft := 0 } else none
  | none => none
/-- TIME cycles, on the free count, at the frame strobe that comes now or next. -/
def Hub.stepFrom (h : Hub) : Nat := h.tb.cycles + (h.strobeOn - h.tb.total)
/-- The settling of step 1 or 5 has passed: an output without U can be had of a chain that starts from zero history at the frame
strobe of the step (R92, R138). A slot of policy INTERRUPT, which has no shadow chain, takes the same time (R104). -/
def Hub.calSettled (h : Hub) (ch : Nat) (r : CalRun) : Bool :=
  match (h.chain ch).running, h.geoOf ch with
  | true, some (_, g) => ((frCyc r.since).add g.wS).le (frCyc h.tb.cycles)
  | _, _ => true
/-- The fade has reached its last output; a slot of policy INTERRUPT passes as many outputs (R92, R104). -/
def Hub.calFaded (h : Hub) (ch : Nat) (r : CalRun) : Bool := !(h.chain ch).running || decide (r.cfg.xfade ≤ r.fade)
/-- The three levels of the measurement phase have taken their time: 256 modulator clocks each, then the codes averaged (R96). -/
def Hub.calLevels (h : Hub) (r : CalRun) : Bool := decide (r.since + 60 * (256 + 2 ^ (10 + r.cfg.avg)) ≤ h.tb.cycles)

/-! ## Steps of a slot (R92, R107) -/

/-- A channel carries X (R144, R145). -/
def Hub.carriesX (h : Hub) (ch : Nat) : Bool :=
  let k := h.chain ch
  k.xHold || k.settle.any fun s => tLe s.1 h.sampleT && tLe h.sampleT s.2

/-- A ramp starts, or its record lands at once when no trim moves (R99, R106). The spec does not say what happens when a channel's next
result comes while its ramp still runs: the earlier record lands with the trims reached, and the new ramp goes on from them. Nor does
it say at which step a new residual takes effect when both trims stand at their targets: it does at once, and no output carries T
(DESIGN CHOICE, log entry 96). -/
def Hub.calApply (h : Hub) (ch : Nat) (x : Ramp) : Hub :=
  let t := h.trimOf ch
  let x := { x with base := t, since := h.tb.cycles }
  let h := match h.cal.ramp.get ch with
    | some o => h.calLand ch { o.res with new := t, t := h.sampleT, epoch := h.tb.epoch }
    | none => h
  if x.target.off = t.off ∧ x.target.gain = t.gain then
    let h := { h with cal := { h.cal with trim := h.cal.trim.put ch x.target, ramp := h.cal.ramp.put ch none } }
    h.calLand ch { x.res with new := x.target, t := h.sampleT, epoch := h.tb.epoch }
  else { h with cal := { h.cal with ramp := h.cal.ramp.put ch (some x) } }

/-- A fault has been declared on the channel during its slot. -/
def Hub.calFaulted (h : Hub) (ch : Nat) (r : CalRun) : Bool := (h.fault ch).inFault || (h.fault ch).declared != r.faults

/-- The slot ends: its result is applied, or not under a fault; the next slot is due. -/
def Hub.calSlotEnd (h : Hub) (ch : Nat) (r : CalRun) : Hub :=
  let bad := h.calFaulted ch r
  let h := h.setRun (some { r with phase := .next, shadow := none, fade := 0, result := none, suspect := none })
  match r.result with
  | some x =>
    if bad then h.calLand ch { x.res with status := 3, new := x.res.old, t := h.sampleT, epoch := h.tb.epoch }
    else if x.res.status = 1 then h.calLand ch { x.res with t := h.sampleT, epoch := h.tb.epoch }
    else h.calApply ch x
  | none => if bad then h.calLand ch { h.calRec ch 3 with start := r.slotT, startEpoch := r.slotEpoch } else h

/-- The slot of a channel begins, is deferred, or is skipped. -/
def Hub.calSlotStart (h : Hub) (ch : Nat) (r : CalRun) (first : Bool) : Hub :=
  let r := { r with slotT := h.sampleT, slotEpoch := h.tb.epoch, slotTemp := h.cal.temp.get r.group, fade := 0, result := none,
                    since := h.stepFrom, faults := (h.fault ch).declared, suspect := none, interrupt := (h.calGrp r.group).noSpare }
  if (h.fault ch).inFault then (h.setRun (some r)).calLand ch ((h.setRun (some r)).calRec ch 3)
  else if h.carriesX ch then
    if first then h.setRun (some { r with deferred := r.deferred ++ [ch] })
    else (h.setRun (some r)).calLand ch ((h.setRun (some r)).calRec ch 2)
  else h.setRun (some { r with phase := .step 1 ch, shadow := if r.interrupt then none else h.calShadow ch })

/-- The next slot of the run, or the run's end. -/
def Hub.calNext (h : Hub) (r : CalRun) : Hub :=
  match r.todo, r.deferred with
  | ch :: t, _ => h.calSlotStart ch { r with todo := t } true
  | [], ch :: t => h.calSlotStart ch { r with deferred := t } false
  | [], [] => h.calFinish r

/-- The first pending group whose trigger may start a run. -/
def Hub.calHead (h : Hub) : Option (Nat × Nat) :=
  h.cal.pending.find? fun p => !(h.calGrp p.1).blocks p.2 h.xoCycles

/-- A group run starts; `refOk` is the comparison of REFIN with the bandgap (R86, R91, R92). -/
def Hub.calBegin (h : Hub) (refOk : Bool) : Hub :=
  match h.calHead, h.cfg.cal.ref with
  | some (g, trig), some (refin, _) =>
    let h := { h with cal := { h.cal with pending := h.cal.pending.filter (·.1 != g) } }
    if h.calSuspended g then (h.calSuspend g).calCmdGroup g false
    else if !refOk then
      let now := h.xoCycles
      let block := (trig, now + 60 * 49152000) :: (h.calGrp g).block.filter fun b => b.1 != trig && decide (now < b.2)
      ((h.setCalGrp g { h.calGrp g with block := block }).raise 37 []).calCmdGroup g false
    else
      let mark := fun (c : CalCmd) => if c.left.contains g && !c.started.contains g then { c with started := c.started ++ [g] } else c
      let none_ := (h.calGrp g).noSpare
      let r : CalRun :=
        { group := g, interrupt := none_, cfg := h.cfg.cal.groups.get g, refin := refin, phase := if none_ then .next else .spare, todo := h.calLive g,
          deferred := [], temp := h.cal.temp.get g, startLocal := h.xoCycles, spareMeas := none, suspect := none, shadow := none, fade := 0,
          result := none, slotT := h.sampleT, slotEpoch := h.tb.epoch, slotTemp := h.cal.temp.get g, since := h.tb.cycles, faults := 0 }
      { h with cal := { h.cal with run := some r, cmds := h.cal.cmds.map mark } }
  | _, _ => h

/-- The next timed step of calibration (R92). -/
def calSlotStep (refOk : Bool) (h : Hub) : Hub :=
  if h.clk.held then h
  else match h.cal.run with
  | none => h.calBegin refOk
  | some r => match r.phase with
    | .spare => h
    | .next => h.calNext r
    | .step n ch =>
      let r' := { r with fade := 0, since := h.tb.cycles }
      if n = 1 then (if h.calSettled ch r then h.setRun (some { r' with phase := .step 2 ch }) else h)
      else if n = 2 then
        if !h.calFaded ch r then h
        else if r.interrupt then (h.setRun (some { r' with phase := .step 4 ch })).setChain ch { h.chain ch with cut := true }
        else (h.setRun (some { r' with phase := .step 4 ch })).calExchange ch { r' with phase := .step 4 ch }
      else if n = 5 then (if h.calSettled ch r then h.setRun (some { r' with phase := .step 6 ch }) else h)
      else if n = 6 then
        if h.calFaded ch r then
          let h := h.calExchange ch r
          match h.cal.run with | some r => h.calSlotEnd ch r | none => h
        else h
      else h

/-! ## Measurement (R96 to R98, R103 to R105) -/

/-- The channel is connected again after its measurement: what it did not take meanwhile is missing, and its chain restarts from
zero history at the next frame strobe (R104, R137). -/
def Hub.calReconnect (h : Hub) (ch : Nat) : Hub :=
  let k := h.chain ch
  let h := h.setChain ch { k with cut := false, resync := k.cut && k.running }
  if !(k.cut && k.running) then h
  else match h.geoOf ch with
    | some (_, g) => h.setChain ch ((h.chain ch).jump g (max (g.u0 (frCyc h.tb.total)) (k.nextIn + 1)) 6 0)
    | none => h

/-- The outputs of a channel that its inputs allow leave, for the GAP that follows them. -/
def Hub.chainFlush (h : Hub) (ch : Nat) : Hub :=
  match h.geoOf ch with
  | some (c, g) => if (h.chain ch).running then h.drain ch c g 65536 else h
  | none => h
/-- Instant of a channel's first output that it has not produced. -/
def Hub.nextOutT (h : Hub) (ch : Nat) : T64 :=
  let k := h.chain ch
  match h.geoOf ch with
  | some (_, g) =>
    if g.p.mode = 3 then (match k.order.placed with | o :: _ => o.t | [] => h.sampleT)
    else (if g.p.mode = 0 then g.qT k.nextOut else if g.p.mode = 1 then (fr k.nextOut 1).div g.fF else fr k.nextOut (max 1 g.p.fOut)).toT
  | none => h.sampleT
/-- The GAP of a lost channel lands once, with OPEN, from an instant of an acquiring group on (R105, R313). -/
def Hub.lostGap (h : Hub) (ch : Nat) (t : T64) : Hub :=
  if h.acquiring ch && !h.cal.lostOpen.contains ch then
    let h := ((h.gapEnd ch).refusalEnd ch).landGapOpen (h.groupOf ch) [ch] t
    { h with cal := { h.cal with lostOpen := h.cal.lostOpen ++ [ch] } }
  else h
/-- A channel is lost with its modulator: it has been disconnected since its measurement began, and its GAP starts with the first
output that this leaves out (R105). -/
def Hub.calLose (h : Hub) (ch : Nat) : Hub :=
  let h := (h.raise 41 (b2 (h.tag ch))).chainFlush ch
  let t := h.nextOutT ch
  let h := { h with cal := { h.cal with lost := h.cal.lost ++ [ch] } }
  (h.setChain ch { h.chain ch with running := false, cut := false }).lostGap ch t

/-- The result of a channel's measurement that has passed. -/
def Hub.calResult (h : Hub) (ch : Nat) (r : CalRun) (m : Meas) : Hub :=
  let t := h.trimOf ch
  let g := m.targets r.refin
  let far := decide (r.cfg.stepLimit < (g.1 - t.off).natAbs) || decide (r.cfg.stepLimit < (g.2 - t.gain).natAbs)
  let base := (h.calRec ch (if r.interrupt then 7 else 0)).withMeas m
  let rs := m.resid r.refin g.1 g.2
  let x : Ramp := { target := { off := g.1, gain := g.2, oR := rs.1, gR := rs.2 }, res := base, every := r.cfg.stepInt }
  let kept : Ramp := { target := t, res := { base with status := 1 } }
  let go := fun (h : Hub) (x : Ramp) =>
    let next := { r with phase := .step 5 ch, fade := 0, since := h.stepFrom, result := some x, suspect := none }
    if r.interrupt then (h.calReconnect ch).setRun (some next) else h.setRun (some { next with shadow := h.calShadow ch })
  match r.suspect with
  | none => if far then h.setRun (some { r with suspect := some g, since := h.tb.cycles }) else go h x
  | some s =>
    if decide ((s.1 - g.1).natAbs ≤ 10) && decide ((s.2 - g.2).natAbs ≤ 10) then go h x
    else go (h.raise 38 (b2 (h.tag ch))) kept

/-- The channel's own modulator has failed: the spare stays, or the channel is lost (R103, R105). -/
def Hub.calModFail (h : Hub) (ch : Nat) (r : CalRun) (m : Meas) : Hub :=
  let rec_ := (h.calRec ch 4).withMeas m
  if r.interrupt then
    ((h.calLose ch).setRun (some { r with phase := .next, suspect := none })).calLand ch rec_
  else
    let s := h.spareResid ch
    let h := h.raise 41 (b1 (h.modOf ch))
    let h := { h with cal := { h.cal with mod := h.cal.mod.put ch (spareMod r.group + 1),
                                          trim := h.cal.trim.put ch { h.trimOf ch with oR := s.1, gR := s.2 } } }
    let h := h.setCalGrp r.group { h.calGrp r.group with noSpare := true }
    (h.setRun (some { r with phase := .next, shadow := none, fade := 0, suspect := none })).calLand ch { rec_ with new := h.trimOf ch }

/-- What a measurement of the run's present modulator leads to (R96 to R98, R103). -/
def Hub.calMeasured (h : Hub) (r : CalRun) (m : Meas) : Hub :=
  match r.phase with
  | .spare =>
    let n := spareMod r.group
    let h := { h with cal := { h.cal with meas := h.cal.meas.put n (some m) } }
    if m.fails r.refin then
      let h := h.setCalGrp r.group { h.calGrp r.group with noSpare := true }
      (h.raise 41 (b1 n)).setRun (some { r with phase := .next })
    else h.setRun (some { r with phase := .next, spareMeas := some m })
  | .step 4 ch =>
    let h := { h with cal := { h.cal with meas := h.cal.meas.put (h.modOf ch) (some m) } }
    if m.fails r.refin then h.calModFail ch r m else h.calResult ch r m
  | _ => h
/-- A measurement phase ends, no sooner than its levels take: the codes of ZERO, +Vc and −Vc since each level was applied, and whether a code of ZERO or of a Vc level
overflowed (R96). A level that a
hold interrupts is measured again, so its codes are those after the hold (R107). -/
def calMeasureDone (zero plus minus : List Int) (ovrZero ovrVc : Bool) (h : Hub) : Hub :=
  match if h.clk.held then none else h.cal.run with
  | none => h
  | some r => match measOf r.cfg.avg zero plus minus (ovrZero || ovrVc) with
    | some m => if h.calLevels r then h.calMeasured r m else h
    | none => h

/-! ## The trim ramp (R99, R100) -/

/-- TRIM_STEP_INTERVAL expires on a channel whose ramp is under way. -/
def trimStep (ch : Nat) (h : Hub) : Hub :=
  match h.cal.ramp.get ch with
  | none => h
  | some x =>
    if h.clk.held || h.carriesX ch || decide (h.tb.cycles < x.since + 40 * x.every) then h
    else
      let n := x.step (h.trimOf ch)
      let last := n.off == x.target.off && n.gain == x.target.gain
      let k := h.chain ch
      let h := h.setChain ch { k with trimAt := if k.running then k.trimAt ++ [h.sampleT] else k.trimAt }
      let ramp := if last then none else some { x with since := h.tb.cycles }
      let h := { h with cal := { h.cal with trim := h.cal.trim.put ch n, ramp := h.cal.ramp.put ch ramp } }
      if last then h.calLand ch { x.res with new := n, t := h.sampleT, epoch := h.tb.epoch } else h

/-! ## A run that is abandoned (R107) -/

/-- A datapath warm reset or RETAIN abandons the run; every group becomes pending when acquisition returns. -/
def Hub.calAbort (h : Hub) : Hub :=
  match h.cal.run with
  | none => h
  | some r =>
    let ch := match r.phase with | .step _ ch => some ch | _ => none
    let h := match ch with
      | some ch => (h.setChain ch { h.chain ch with cut := false }).calLand ch (h.calRec ch 5)
      | none => h
    ((h.setRun none).raise 40 (b1 r.group)).calCmdGroup r.group false

/-! ## Commands (R108 to R111) -/

def calRefSet : CmdSpec where
  opcode := 0x0401
  len := lenIs 3
  bad := fun _ p => badIf !(inR (pw p 0).toNat 100000000 450000000 && inR (pw p 1).toNat 100000000 4000000000)
  run := fun h c =>
    { hub := { h with cfg := { h.cfg with cal := { h.cfg.cal with ref := some ((pw c.pl 0).toNat, (pw c.pl 1).toNat), unc := (pw c.pl 2).toNat } } } }

def calPolicySet : CmdSpec where
  opcode := 0x0402
  len := lenIs 4
  bad := fun _ p =>
    let w := pw p 0
    badIf !(rsv w 0x3FFF000F && decide (fld w 29 28 ≤ 1) && decide (fld w 27 24 ≤ 8) && inR (fld w 23 16) 1 80 &&
      (decide (fld w 3 0 ≤ 7) || fld w 3 0 == 15) && (pw p 1 == 0 || inR (pw p 1).toNat 60 604800) &&
      inR (fld (pw p 2) 31 16) 1 65535 && inR (fld (pw p 2) 15 0) 1 65535 && rsv (pw p 3) 0x3FFF && inR (fld (pw p 3) 13 0) 1 8191)
  run := fun h c =>
    let w := pw c.pl 0
    let k : CalGroupCfg := { suspend := fld w 29 28 == 1, avg := fld w 27 24, dt := fld w 23 16, maxInt := (pw c.pl 1).toNat,
                             xfade := fld (pw c.pl 2) 31 16, stepInt := fld (pw c.pl 2) 15 0, stepLimit := fld (pw c.pl 3) 13 0 }
    let gs := if fld w 3 0 = 15 then List.range 8 else [fld w 3 0]
    { hub := { h with cfg := { h.cfg with cal := { h.cfg.cal with groups := gs.foldl (fun t g => t.put g k) h.cfg.cal.groups } } } }

/-- CAL_RUN (R91, R110): a group that is pending already goes to the head with the cause it has, to which a second one adds nothing (R90). -/
def calRun : CmdSpec where
  opcode := 0x0403
  len := lenIs 1
  bad := fun _ p => badIf !(rsv (pw p 0) 0xFF && pw p 0 != 0)
  refuse := fun h c => refuseIf (h.cfg.cal.ref.isNone || (bitsOf (pw c.pl 0).toNat 8).any h.calSuspended) BAD_STATE
  block := true
  long := fun _ _ => true
  run := fun h c =>
    let gs := bitsOf (pw c.pl 0).toNat 8
    let rest := h.cal.pending.filter fun p => !gs.contains p.1
    let head := gs.map fun g => (h.cal.pending.find? (·.1 == g)).getD (g, 2)
    let cmd : CalCmd := { handle := c.handle, left := gs, started := [], done := [], abandoned := [] }
    { hub := { h with cal := { h.cal with pending := head ++ rest, cmds := h.cal.cmds ++ [cmd] } } }

def calResultRead : CmdSpec where
  opcode := 0x0404
  len := lenIs 1
  bad := fun _ p => badIf !(rsv (pw p 0) 0x703FF && decide (fld (pw p 0) 9 0 < 128))
  refuse := fun h c => refuseIf (h.cal.result.get (calKey (fld (pw c.pl 0) 9 0) (fld (pw c.pl 0) 18 16))).isNone BAD_STATE
  run := fun h c =>
    match h.cal.result.get (calKey (fld (pw c.pl 0) 9 0) (fld (pw c.pl 0) 18 16)) with
    | some r => { hub := h, words := wordsOf 14 (b2 0x10 ++ r.bytes) }
    | none => { hub := h }

end Sys2Proof.Machine
end

