-- ==== Sys2Proof/Machine/Scan.lean ====
section
/-!
DEFINITION. Sensor faults (R69 to R75), scan visits and the calibration of the scan converters (R57 to R62, R101 to R104),
excitation faults (R67).
-/
namespace Sys2Proof.Machine

/-! ## Faults on fast inputs (R69, R72 to R74) -/

/-- CONV ÷ 4 cycles as a duration. -/
def modClocks (n : Nat) : T64 := (fr n 6144000).toT

/-- The data of FE_FAULT and FE_FAULT_CLEAR: channel, pin and direction (R74). -/
def Hub.faultData (h : Hub) (ch : Nat) (f : FaultSt) : List Byte := b2 (h.tag ch) ++ b1 f.pin ++ b1 (flag f.above 0)

/-- F joins every staged output of the channel whose window reaches an instant at or after `tf`, those of an epoch that has just
ended too (R72, R73). -/
def Hub.stageFault (h : Hub) (ch : Nat) (tf : T64) : Hub :=
  match h.geoOf ch with
  | none => h
  | some (_, g) =>
    let k := h.chain ch
    let f := fun (o : StOut) => if (frT tf).le ((frT (h.inPresent o.epoch o.t)).add g.wS) then { o with q := o.q ||| 8 } else o
    h.setChain ch { k with stage := k.stage.map f }

/-- FAULT_DEB evaluations out of the window (R69, R72, R74). -/
def feFaultDeclare (ch pin : Nat) (above : Bool) (h : Hub) : Hub :=
  let f := h.fault ch
  if f.inFault || h.clk.held || !isFast ch then h
  else
    let c := h.fe.fast.get ch
    let td := h.sampleT
    let tf := td - modClocks (c.deb + c.extend)
    let k := h.chain ch
    let h := match f.from_, f.till with
      | some a, some b => h.setChain ch { k with faulty := k.faulty ++ [(a, b)] }
      | _, _ => h
    let f := { f with inFault := true, pin := pin, above := above, t := td, epoch := h.tb.epoch, declared := f.declared + 1, from_ := some tf, till := none }
    let h := (h.setFault ch f).stageFault ch tf
    (h.raise 32 (h.faultData ch f)).trigFault ch

/-- FAULT_DEB evaluations within the window (R69, R74). The pin and the direction of FE_FAULT_DETAIL word 0 stay those of the last
declaration, as its T64 does: the spec does not say what they read once the fault has cleared (DESIGN CHOICE, log entry 94). -/
def feFaultClearDeclare (ch : Nat) (h : Hub) : Hub :=
  let f := h.fault ch
  if !f.inFault || h.clk.held || !isFast ch then h
  else (h.setFault ch { f with inFault := false, till := some h.sampleT }).raise 33 (h.faultData ch f)

/-- A run of evaluations out of the window ends early (R69). -/
def feExcursionEnd (ch : Nat) (h : Hub) : Hub :=
  let f := h.fault ch
  if f.inFault || h.clk.held || !isFast ch then h else h.setFault ch { f with excursions := f.excursions + 1 }

/-! ## Excitation faults (R63, R67) -/

/-- The data of both events: output number and flag. -/
def excData (x on : Nat) : List Byte := b4 x ++ b4 on
/-- EXC_OVERLOAD of a voltage output or EXC_COMPLIANCE of a current output begins. -/
def excFaultOnset (x : Nat) (h : Hub) : Hub :=
  let e := h.fe.exc.get x
  if e.drive.mode = 1 ∧ ¬ e.overload then (h.setExc x { e with overload := true }).raise 34 (excData x 1)
  else if e.drive.mode = 2 ∧ ¬ e.compliance then (h.setExc x { e with compliance := true }).raise 35 (excData x 1)
  else h
/-- The condition clears. -/
def excFaultEnd (x : Nat) (h : Hub) : Hub :=
  let e := h.fe.exc.get x
  if e.overload then (h.setExc x { e with overload := false }).raise 34 (excData x 0)
  else if e.compliance then (h.setExc x { e with compliance := false }).raise 35 (excData x 0)
  else h

/-! ## The rotation of reference points (R101, R102) -/

def Hub.calScan (h : Hub) (m : Nat) : CalScan := h.cal.scan.get m
def Hub.setCalScan (h : Hub) (m : Nat) (x : CalScan) : Hub := { h with cal := { h.cal with scan := h.cal.scan.put m x } }
/-- Gain selections used on a multiplexer. -/
def ScanCfg.gains (c : ScanCfg) : List Nat := (List.range 6).filter fun g => c.list.any (·.gain == g)
/-- Current-mode outputs bound to positions of a multiplexer. -/
def Hub.scanExc (h : Hub) (m : Nat) : List Nat :=
  (List.range 8).filter fun x => (h.scanCfg m).list.any (·.exc == x) && (h.excNow x).mode == 2
/-- The output's voltage on REFRES stays within 4.0 V; VALUE is in μA and REFRES in μΩ. -/
def Hub.refresOk (h : Hub) (x refres : Nat) : Bool := decide ((h.excNow x).value * refres ≤ 4000000000000)
/-- The points of a rotation: key and kind (0 ZERO, 1 +Vc, 2 −Vc, 3 REFRES). -/
def Hub.scanPoints (h : Hub) (m refres : Nat) : List (Nat × Nat) :=
  (h.scanCfg m).gains.flatMap (fun g => [(g, 0), (g, 1), (g, 2)]) ++
  ((h.scanExc m).filter fun x => h.refresOk x refres).map fun x => (8 + x, 3)
/-- Vc in 10 nV: REFIN ÷ 2^k for the smallest k with Vc ≤ 0.9 × 4.096 V ÷ G. -/
def scanVc (refin gain : Nat) : Fr :=
  let k := ((List.range 10).find? fun k => decide (refin * 2 ^ gain * 10 ≤ 9 * 409600000 * 2 ^ k)).getD 9
  fr refin (2 ^ k)
/-- Gain of the converter from its two levels. -/
def scanGain (refin g : Nat) (plus minus : Int) : Fr :=
  let vc := scanVc refin g
  (fr ((plus - minus) * 409600000) (2 ^ (32 + g))).div vc
def CalScan.value (x : CalScan) (key kind : Nat) : Option Int := (x.got.find? fun p => p.1 == key && p.2.1 == kind).map (·.2.2)
/-- A reference point fails the limits of R97. -/
def CalScan.pointFails (x : CalScan) (key kind : Nat) (v : Int) (noise : Nat) (ovr : Bool) : Bool :=
  if kind = 3 then false
  else ovr ||
    (if kind = 0 then decide (19 * 2 ^ 31 < v.natAbs * 8192) || decide (40000 < noise)
     else if kind = 2 then
       match x.value key 1 with
       | some p => let g := scanGain x.refin key p v
                   decide (95 * g.den < 10000 * (g.num - (g.den : Nat)).natAbs)
       | none => false
     else false)

/-- The correction that a gain's three points give: offset, and gain with 31 fraction bits. -/
def CalScan.corrOf (x : CalScan) (g : Nat) : Corr :=
  match x.value g 0, x.value g 1, x.value g 2 with
  | some z, some p, some n =>
    let f := scanGain x.refin g p n
    if f.num ≤ 0 then {} else { off := z, gain := ((((fr 1 1).div f).sub (fr 1 1)).mul (fr (2 ^ 31) 1)).round }
  | _, _, _ => {}
/-- I_set ÷ I_meas − 1 with 31 fraction bits, from the replica's voltage on REFRES at ±4.096 V. -/
def Hub.excCorr (h : Hub) (x refres : Nat) (v : Int) : Corr :=
  if v ≤ 0 then {}
  else { off := 0, gain := ((((fr ((h.excNow x).value * refres * 2 ^ 31 : Nat) (4096000000000 * v.toNat)).sub (fr 1 1))).mul (fr (2 ^ 31) 1)).round }

/-- The record of one gain, or of an output that is not calibrated. -/
def Hub.scanRec (h : Hub) (m : Nat) (x : CalScan) (status g : Nat) (new : Corr) : CalRec :=
  { tag := 0, modulator := 128 + m, status := status, temp := x.temp, new := { off := 0, gain := 0, oR := new.off, gR := new.gain },
    old := {}, means := (List.range 3).map fun k => (x.value g k).getD 0, noise := x.noise.get g, t := h.sampleT, epoch := h.tb.epoch, gainSel := g, refin := x.refin,
    start := x.start, startEpoch := x.startEpoch }
/-- Records of a rotation land, dated now. -/
def Hub.scanLand (h : Hub) (m : Nat) (recs : List CalRec) : Hub :=
  recs.foldl (fun h r => h.calLand (64 + 8 * m) { r with t := h.sampleT, epoch := h.tb.epoch }) h

/-- The sum of two corrections, and their difference. -/
def Corr.add (a b : Corr) : Corr := { off := a.off + b.off, gain := a.gain + b.gain }
def Corr.sub (a b : Corr) : Corr := { off := a.off - b.off, gain := a.gain - b.gain }
/-- What two tables of corrections give together. -/
def corrTab (f : Corr → Corr → Corr) (a b : Tab Corr) : Tab Corr :=
  (a.keys ++ b.keys).eraseDups.foldl (fun (t : Tab Corr) k => t.put k (f (a.get k) (b.get k))) []
/-- Step `n` of 16 equal steps to a value. -/
def sixteenth (d : Int) (n : Nat) : Int := roundDiv (d * (n : Nat)) 16 - roundDiv (d * ((n - 1 : Nat) : Int)) 16
/-- The next step of a correction. -/
def ScanRamp.step (r : ScanRamp) : Tab Corr :=
  r.delta.mapAll fun _ d => { off := sixteenth d.off (17 - r.left), gain := sixteenth d.gain (17 - r.left) }

/-- A rotation is complete (R101, R102, R104, R106). One that completes while the steps of an earlier one still run adds its own 16
steps to theirs: the spec does not say how they meet (DESIGN CHOICE, log entry 62). The record of an output that is not calibrated
carries GAIN_SEL 0, for which the spec gives no value (DESIGN CHOICE, log entry 63). -/
def Hub.scanRotation (h : Hub) (m : Nat) : Hub :=
  let x := h.calScan m
  let gains := (h.scanCfg m).gains
  let excs := h.scanExc m
  let idle := { x with got := [], failing := false, noise := [] }
  if x.failing then
    let h := h.setCalScan m idle
    gains.foldl (fun h g => h.calLand (64 + 8 * m) (h.scanRec m x 4 g (x.corr.get g))) h
  else
    let tgt := gains.foldl (fun (t : Tab Corr) g => t.put g (x.corrOf g)) []
    let tgt := excs.foldl (fun (t : Tab Corr) e => match x.value (8 + e) 3 with | some v => t.put (8 + e) (h.excCorr e x.refres v) | none => t) tgt
    let recs := gains.map (fun g => h.scanRec m x 0 g (tgt.get g)) ++
      (excs.filter fun e => !h.refresOk e x.refres).map fun _ => h.scanRec m x 8 0 {}
    let delta := corrTab Corr.sub tgt x.target
    let h := h.setCalScan m { idle with
      failed := false, target := tgt, ramps := if delta.isEmpty then x.ramps else x.ramps ++ [{ delta := delta, left := 16, recs := recs }] }
    if delta.isEmpty then h.scanLand m recs else h

/-- A scan period starts: each correction under way moves by one of its 16 steps (R101). -/
def Hub.scanPeriod (h : Hub) (m : Nat) : Hub :=
  let x := h.calScan m
  if x.ramps.isEmpty then (if x.moving then h.setCalScan m { x with moving := false } else h)
  else
    let corr := x.ramps.foldl (fun (t : Tab Corr) r => corrTab Corr.add t r.step) x.corr
    let on := (x.ramps.filter fun r => decide (1 < r.left)).map fun r => { r with left := r.left - 1 }
    let h := h.setCalScan m { x with corr := corr, ramps := on, moving := true }
    (x.ramps.filter fun r => decide (r.left ≤ 1)).foldl (fun h r => h.scanLand m r.recs) h

/-- One point of a rotation is measured at a reference visit (R86, R101, R102, R104). A rotation starts, for DIE_TEMP and the T64 of its
record, at the end of its first reference visit: the spec gives no instant (DESIGN CHOICE, log entry 97). -/
def Hub.refVisit (h : Hub) (m : Nat) (v : Int) (noise : Nat) (ovr refOk busy : Bool) : Hub :=
  let x := h.calScan m
  match h.cfg.cal.ref with
  | none => h
  | some (refin, refres) =>
    if h.xoCycles < x.notBefore then h
    else if x.got.isEmpty && !refOk then (h.setCalScan m { x with notBefore := h.xoCycles + 60 * 49152000 }).raise 37 []
    else
      let x := if x.got.isEmpty then { x with start := h.sampleT, startEpoch := h.tb.epoch, temp := h.cal.temp.get 8, refin := refin, refres := refres } else x
      let left := (h.scanPoints m x.refres).filter fun p => !(x.got.any fun q => q.1 == p.1 && q.2.1 == p.2)
      match left.find? fun p => !(busy && p.2 == 3) with
      | none => if left.isEmpty then (h.setCalScan m x).scanRotation m else h.setCalScan m x
      | some p =>
        let fail := x.pointFails p.1 p.2 v noise ovr
        let new := fail && !x.failing
        let x := { x with got := x.got ++ [(p.1, p.2, v)], noise := if p.2 = 0 then x.noise.put p.1 noise else x.noise, failing := x.failing || fail, failed := x.failed || fail }
        let h := h.setCalScan m x
        let h := if new then h.raise 41 (b1 (128 + m)) else h
        if left.length = 1 then h.scanRotation m else h

/-! ## Visits (R57 to R62, R75) -/

/-- The window check of a visit (R75). -/
def Hub.scanFault (h : Hub) (ch : Nat) (out above : Bool) (pin deb : Nat) : Hub :=
  let f := h.fault ch
  if out == f.inFault then h.setFault ch { f with run := 0 }
  else if f.run + 1 < deb then h.setFault ch { f with run := f.run + 1 }
  else if out then
    let f := { f with inFault := true, pin := pin, above := above, t := h.sampleT, epoch := h.tb.epoch, declared := f.declared + 1, run := 0 }
    ((h.setFault ch f).raise 32 (h.faultData ch f)).trigFault ch
  else (h.setFault ch { f with inFault := false, run := 0 }).raise 33 (h.faultData ch f)

/-- The mean of 18-bit conversions in Q1.31; for a chopped visit half the difference of the halves (R58). -/
def visitValue (a b : List Int) : Int :=
  let mean := fun (l : List Int) => l.foldl (fun (a b : Int) => a + b) 0 * 16384 / ((max 1 l.length : Nat) : Int)
  if b.isEmpty then mean a else (mean a - mean b) / 2

/-- RMS noise of 18-bit conversions of ±4.096 V, in nV. -/
def convNoise (l : List Int) : Nat :=
  let n := l.length
  let s := l.foldl (fun (a b : Int) => a + b) 0
  let sq := l.foldl (fun (a : Nat) (b : Int) => a + b.natAbs * b.natAbs) 0
  (isqrt (4 * ((n * sq - s.natAbs * s.natAbs) * 31250 * 31250 / max 1 (n * n))) + 1) / 2

/-- The scan period that the instant just before now lies in, counted from the T64 origin (R59). -/
def Hub.scanPeriodNo (h : Hub) (m : Nat) : Nat := (h.tb.total - 1) / 15360 / max 1 (h.scanCfg m).div

/-- A visit to a position ends: its value, corrected and flagged, enters the channel's chain (R62, R75, R101). -/
def Hub.posVisit (h : Hub) (m : Nat) (e : ScanEntry) (v : Int) (out above : Bool) (pin : Nat) (ovr : Bool) : Hub :=
  let p := h.scanPeriodNo m
  let ch := 64 + 8 * m + e.pos
  if p % 2 ^ e.divSel ≠ 0 ∨ p < h.fe.period.get m then h
  else
    let h := h.scanFault ch out above pin (h.scanCfg m).deb
    let x := h.calScan m
    let c := x.corr.get e.gain
    let y := residual c.off c.gain (h.excFactor ch) v
    let q := flag (ovr || y.2) 2 + flag (out || x.failed || h.excFaulty ch) 3 + flag x.moving 4
    let k := h.chain ch
    if k.running ∧ k.nextIn ≤ p / 2 ^ e.divSel then h.setChain ch { k with inq := k.inq ++ [{ epoch := h.tb.epoch, i := p / 2 ^ e.divSel, n := 1, v := some y.1, q := q }] } else h

/-- The conversions of a visit of multiplexer `m` to entry `e` of its list finish; entry 8 is the reference visit. `ovrFirst` and
`ovrSecond` say whether a conversion of the first or the second half of a chopped visit overflowed. -/
def scanVisitDone (m e : Nat) (first second : List Int) (out above : Bool) (pin : Nat) (ovrFirst ovrSecond refOk busy : Bool) (h : Hub) : Hub :=
  if h.clk.held || (h.scanCfg m).div == 0 then h
  else
    let v := visitValue first second
    let ovr := ovrFirst || ovrSecond
    if e = 8 then (if (h.scanCfg m).ref.en && decide (h.scanPeriodNo m % 2 ^ (h.scanCfg m).ref.divSel = 0) && decide (h.fe.period.get m ≤ h.scanPeriodNo m) then h.refVisit m v (convNoise first) ovr refOk busy else h)
    else match (h.scanCfg m).list[e]? with
      | some x => h.posVisit m x v out above pin ovr
      | none => h

/-- A visit bound to output `x`, to a position or to the reference, is in progress: now lies inside it (R66, R80). -/
def Hub.visitBound (h : Hub) (x : Nat) : Bool :=
  (List.range 8).any fun m =>
    let c := h.scanCfg m
    if c.div = 0 then false
    else
      let n := h.tb.total / 15360 / c.div
      let off := h.tb.total - n * c.div * 15360
      let chop := h.chopped m
      (scanStarts chop (c.list ++ if c.ref.en then [c.ref] else []) 0).any fun e =>
        n % 2 ^ e.1.divSel == 0 && h.excBinds x e.1.exc &&
        decide (e.2 * 5 < off) && decide (off < (e.2 + visitLen (chop e.1.exc) e.1) * 5)

end Sys2Proof.Machine
end

