-- ==== Sys2Proof/Machine/Tiu.lean ====
section
/-!
DEFINITION. The time-interval unit (chapter 10).
-/
namespace Sys2Proof.Machine

def Hub.tiuIn (h : Hub) (i : Nat) : TiuInCfg := h.cfg.tiu.inputs.get i
def Hub.tiuUnit (h : Hub) (u : Nat) : TiuUnitCfg := h.cfg.tiu.units.get u
/-! ## Results (R292) -/

/-- An entry of a result queue. -/
def tiuEntry (kind source flags : Nat) (s : Stamp) (interval seq : Nat) : List Byte :=
  b1 kind ++ b1 source ++ b1 flags ++ b1 0 ++ b2 s.epoch ++ b2 0 ++ bT s.t ++ b1 s.ext ++ leBytes 3 0 ++ leBytes 5 interval ++ leBytes 3 0 ++ b4 seq

/-- The entry lands as an EVENT record, at most 4,096 in a second from one source. -/
def Hub.tiuLand (h : Hub) (src : Nat) (s : Stamp) (e : List Byte) : Hub :=
  let sec := h.xoCycles / 49152000
  let l := h.tiu.landed.get src
  let n := if l.1 = sec then l.2 else 0
  if 4096 ≤ n then h.tiuCount src cSKIPPED
  else ({ h with tiu := { h.tiu with landed := h.tiu.landed.put src (sec, n + 1) } }).landEvent 0x30 s.epoch s.t (b2 0 ++ e)

/-- A result of source `src` enters queue `q`. -/
def Hub.tiuResult (h : Hub) (src q flags : Nat) (s : Stamp) (interval : Nat) (land : Bool) : Hub :=
  let seq := h.tiu.seq.get src
  let k := h.tiu.queues.get q
  let e := tiuEntry (src / 8) (src % 8) (flags + flag k.lostBefore 3) s interval seq
  let k := if k.entries.length < 1024 then { k with entries := k.entries ++ [wordsOf 8 e], lostBefore := false }
    else { k with lost := min 65535 (k.lost + 1), lostBefore := true }
  let h := { h with tiu := { h.tiu with seq := h.tiu.seq.put src ((seq + 1) % 2 ^ 32), queues := h.tiu.queues.put q k } }
  if land then h.tiuLand src s e else h

/-! ## Interval units (R287, R288) -/

def Hub.setHeld (h : Hub) (u : Nat) (s : Option Stamp) : Hub := { h with tiu := { h.tiu with held := h.tiu.held.put u s } }
def Hub.setStop (h : Hub) (u : Nat) (s : Option Stamp) : Hub := { h with tiu := { h.tiu with lastStop := h.tiu.lastStop.put u s } }
def Hub.setReplaced (h : Hub) (u : Nat) (s : Option Stamp) : Hub := { h with tiu := { h.tiu with replaced := h.tiu.replaced.put u s } }
/-- The start of unit `u` is gone, and with it the one that it replaced. -/
def Hub.iuForget (h : Hub) (u : Nat) : Hub := (h.setHeld u none).setReplaced u none
/-- A difference in units of 2^-40 s is below 10 ps. -/
def below10ps (d : Int) : Bool := decide (d * 1000000000000 < 10 * 2 ^ 40)
/-- The result of a start and a stop. -/
def Hub.iuResult (h : Hub) (u : Nat) (a b : Stamp) (d : Int) : Hub :=
  let c := h.tiuUnit u
  let un := below10ps d
  let iv := if un then 0 else (roundDiv (d * 100000000000) (2 ^ 40)).toNat
  (((h.setHeld u none).setStop u none).setReplaced u none).tiuResult (8 + u) c.rq (flag un 0 + flag (a.spare || b.spare) 1 + flag c.startEdge 2) a iv c.land

def Hub.tiuUncount (h : Hub) (s i : Nat) : Hub := { h with tiu := { h.tiu with counts := h.tiu.counts.upd (16 * s + i) (· - 1) } }
/-- A stop that does not precede the held start `a` of unit `u`. -/
def Hub.iuPair (h : Hub) (u : Nat) (a s : Stamp) : Hub :=
  let c := h.tiuUnit u
  let d := s.free - a.free
  if d * 1000000000 < c.winMin * 2 ^ 40 then h.tiuCount (8 + u) cEARLY
  else if c.winMax * 2 ^ 40 < d * 1000000000 then ((h.tiuCount (8 + u) cTIMEOUT).iuForget u).tiuCount (8 + u) cORPHAN
  else h.iuResult u a s d

/-- A start of unit `u`. A stop that preceded it by less than 10 ps is simultaneous, and one that follows it in stamp order pairs with it. -/
def Hub.iuStart (h : Hub) (u : Nat) (s : Stamp) : Hub :=
  match h.tiu.held.get u with
  | some a =>
    ((h.tiuCount (8 + u) cRESTART).setHeld u (some s)).setReplaced u (some a)
  | none => match h.tiu.lastStop.get u with
    | some p =>
      let held := (h.setStop u none).setHeld u (some s)
      let d := s.free - p.free
      if d < 0 then (held.tiuUncount (8 + u) cORPHAN).iuPair u s p
      else if below10ps d then (held.tiuUncount (8 + u) cORPHAN).iuResult u s p 0
      else held
    | none => h.setHeld u (some s)

/-- A stop of unit `u`. One that precedes the held start belongs to the start that the held one replaced. -/
def Hub.iuStop (h : Hub) (u : Nat) (s : Stamp) : Hub :=
  match h.tiu.held.get u with
  | none => (h.tiuCount (8 + u) cORPHAN).setStop u (some s)
  | some a =>
    let d := s.free - a.free
    if 0 ≤ d then h.iuPair u a s
    else if below10ps (-d) then h.iuResult u a s 0
    else match h.tiu.replaced.get u with
      | some b =>
        if s.free < b.free then h.tiuCount (8 + u) cORPHAN
        else
          let r := (h.tiuUncount (8 + u) cRESTART).setHeld u (some b)
          let r := r.iuPair u b s
          let early := (r.tiu.held.get u).isSome
          let r := if early then r.tiuCount (8 + u) cRESTART else r.setReplaced u none
          r.setHeld u (some a)
      | none => h.tiuCount (8 + u) cORPHAN

/-- An edge reaches the enabled interval units. -/
def Hub.iuEdge (h : Hub) (i : Nat) (falling : Bool) (s : Stamp) : Hub :=
  (List.range 8).foldl (fun h u =>
    let c := h.tiuUnit u
    if !c.enable then h
    else if c.startIn == i && c.startEdge == falling then h.iuStart u s
    else if c.stopIn == i && c.stopEdge == falling then h.iuStop u s
    else h) h

/-- The held start of a unit is dropped and counted in HELD (R288). -/
def Hub.iuDrop (h : Hub) (u : Nat) : Hub :=
  if (h.tiu.held.get u).isSome then (h.tiuCount (8 + u) cHELD).iuForget u else h

/-- The held start reaches WIN_MAX (R287). -/
def iuWinTimeout (u : Nat) (h : Hub) : Hub :=
  match h.tiu.held.get u with
  | some s =>
    if (h.tiuUnit u).winMax * 2 ^ 40 ≤ (cyc40 h.tb.cycles - s.free) * 1000000000 then (h.tiuCount (8 + u) cTIMEOUT).iuForget u else h
  | none => h

/-! ## Frequency gates (R289, R290) -/

/-- Ticks of a gate. -/
def Gate.ticks (g : Gate) : Nat := min (2 ^ 20) (g.ms * 1000)
/-- The tick that TIME cycle `c` of the gate is in. Tick k begins with cycle ⌊k G / M⌋, so that each is a whole number of cycles and the M of
them fill the gate (DEDUCED, log entry 103). -/
def Gate.tickOf (g : Gate) (c : Nat) : Nat := ((c + 1) * g.ticks - 1) / max 1 (g.ms * 122880)
/-- A counted edge of the input reaches its gates; a stamp makes a point when it is the first since a tick. -/
def Gate.edge (g : Gate) (s : Option Stamp) : Gate :=
  let g := { g with edges := g.edges + 1 }
  match s with
  | none => g
  | some s =>
    let t := s.free - g.start
    let k := g.tickOf (t * 122880000 / 2 ^ 40).toNat
    if t < 0 ∨ g.ms * 122880 ≤ (t * 122880000 / 2 ^ 40).toNat ∨ g.lastTick.any (fun l => k ≤ l) then g
    else { g with points := g.points ++ [(t, g.edges)], lastTick := some k }

/-- Slope in 2^-32 Hz and its standard error, from the points. -/
def Gate.fit (g : Gate) (p : Nat) : Nat × Nat :=
  let n : Int := (g.points.length : Nat)
  let f := fun (w : Int × Nat → Int) => g.points.foldl (fun (a : Int) x => a + w x) 0
  let st := f (·.1)
  let sn := f fun x => (x.2 : Int)
  let a := n * f (fun x => x.1 * x.1) - st * st
  let b := n * f (fun x => x.1 * (x.2 : Int)) - st * sn
  let c := n * f (fun x => (x.2 : Int) * (x.2 : Int)) - sn * sn
  if a ≤ 0 then (0, 0)
  else ((roundDiv ((p : Int) * b * 2 ^ 72) a.toNat).toNat, isqrt (((c * a - b * b).toNat * p * p * 2 ^ 144) / (a.toNat * a.toNat * (g.points.length - 2))))

/-- Completion result words of a gate (R295). -/
def Hub.gateWords (h : Hub) (g : Gate) : List Word :=
  let p := 4 ^ (h.tiuIn g.input).presc
  let r := g.fit p
  [lo32 r.1, hi32 r.1, lo32 r.2, hi32 r.2, wd g.points.length] ++ tWords g.t ++ [wd (g.epoch + flag g.broken 16), wdInt (roundDiv g.slewSum (max 1 (g.slewAt - g.slewFrom)))]

/-- The gate of an input has run its length and ends (R289, R292). -/
def tiuFreqGateEnd (i : Nat) (h : Hub) : Hub :=
  match h.tiu.gates.find? fun g => g.input == i && decide (g.cyc + g.ms * 122880 ≤ h.tb.cycles) with
  | none => h
  | some g =>
    let h := h.slewNote
    let g := (h.tiu.gates.find? (·.input == i)).getD g
    let h := { h with tiu := { h.tiu with gates := h.tiu.gates.filter (·.input != i) } }
    if g.points.length < 3 then h.complete g.handle BAD_STATE []
    else
      let ws := h.gateWords g
      let h := h.complete g.handle DONE ws
      if g.land then h.landEvent 0x31 g.epoch g.t (b2 0 ++ bytesOf ws) else h

/-- Every gate and every held start ends: a hold, a datapath warm reset or RETAIN (R288, R290). -/
def Hub.tiuHold (h : Hub) : Hub :=
  let gs := h.tiu.gates
  let h := gs.foldl (fun h g => h.complete g.handle ABORTED []) { h with tiu := { h.tiu with gates := [] } }
  (List.range 8).foldl (fun h u => h.iuDrop u) h

/-- The next pulse interval of the ORDER channels on an input is invalid. -/
def Hub.orderBreak (h : Hub) (i : Nat) : Hub :=
  (List.range 640).foldl (fun h ch =>
    if (h.chanCfg ch).any (·.tiSel == i) then
      let k := h.chain ch
      if k.order.last.isSome then h.setChain ch { k with order := { k.order with last := none } } else h
    else h) h
/-- The interval between the last stamp of an input and its next one is invalid (R285). -/
def Hub.tachBreak (h : Hub) (i : Nat) : Hub :=
  if h.tiu.tach.any (·.1 == i) then { h with tiu := { h.tiu with tachCut := if h.tiu.tachCut.contains i then h.tiu.tachCut else h.tiu.tachCut ++ [i] } }
  else h.orderBreak i
/-- A tachometer stamp reaches the filter engines (R130, R285). -/
def Hub.tachTake (h : Hub) (x : Nat × T64 × Bool) : Hub := tachPulse x.1 x.2.1 (if x.2.2 then h.orderBreak x.1 else h)
/-- Every tachometer stamp that is on its way reaches the filter engines. -/
def Hub.tachDrain (h : Hub) : Hub :=
  let l := h.tiu.tach
  let cut := h.tiu.tachCut
  let h := l.foldl (fun h x => h.tachTake x) { h with tiu := { h.tiu with tach := [], tachCut := [] } }
  cut.foldl (fun h i => h.orderBreak i) h

/-! ## Edges (R277, R280, R284) -/

/-- An edge on PPS_IN reaches tap `tap` of its line (R280, R291). -/
def ppsInEdge (falling : Bool) (e : LineEdge) (h : Hub) : Hub :=
  let h := h.fifoDrain e.drained
  if h.clk.held || h.tiu.calAll || h.tiu.lost.contains 8 || falling != h.cfg.tb.ppsFalling then h
  else
    let s := h.mkStamp 8 e.tap.val 0
    let dead := (h.tiu.lastEdge.get 8).any fun p => decide ((s.free - p.free) * 1000000000 < 8 * 2 ^ 40)
    let h := if dead then h else { h with tiu := { h.tiu with lastEdge := h.tiu.lastEdge.put 8 (some s) } }
    if dead then h.tiuCount 16 cDEAD
    else
      let a := h.fifoTake 16 512
      if a.2 then a.1.ppsStamp s.t else a.1

/-- An edge reaches the prescaler of an input: whether it gives an output, which one edge in 4^PRESC does (R286). The prescaler begins anew
at TIU_INPUT_SET (DESIGN CHOICE, log entry 104). -/
def Hub.prescale (h : Hub) (i : Nat) : Hub × Bool :=
  let p := 4 ^ (h.tiuIn i).presc
  let n := h.tiu.presc.get i + 1
  if p ≤ 1 then (h, true) else ({ h with tiu := { h.tiu with presc := h.tiu.presc.put i (n % p) } }, decide (n % p = 0))
/-- An edge counts in the gates of an input. -/
def Hub.gateCount (h : Hub) (i : Nat) (x : Option Stamp) : Hub :=
  { h with tiu := { h.tiu with gates := h.tiu.gates.map fun (g : Gate) => if g.input == i then g.edge x else g } }
/-- An edge follows `p` by less than `n` units of 1/`per` s. -/
def Stamp.within (s : Stamp) (p : Option Stamp) (n per : Nat) : Bool := p.any fun q => decide ((s.free - q.free) * per < n * 2 ^ 40)
/-- An edge on input TI`i` reaches tap `tap` of its line. -/
def tiuEdge (i : Nat) (falling : Bool) (tap drained : Nat) (h : Hub) : Hub :=
  let c := h.tiuIn i
  let h := h.fifoDrain drained
  if h.clk.held || h.tiu.calAll || c.mode == 0 || h.tiu.lost.contains i || !(c.edge == 2 || (c.edge == 1) == falling) then h
  else
    let a := h.prescale i
    let h := a.1
    let raw := h.mkStamp i tap 0
    if !a.2 then h
    else if c.mode == 3 && raw.within (h.tiu.lastPulse.get i) c.holdoff 1000000 then h.tiuCount i cDEAD
    else if raw.within (h.tiu.lastEdge.get i) 8 1000000000 then (h.tiuCount i cDEAD).gateCount i none
    else
      let s := h.mkStamp i tap c.dly
      let h := { h with tiu := { h.tiu with lastEdge := h.tiu.lastEdge.put i (some raw) } }
      let b := h.fifoTake i (if c.mode = 3 then 512 else 448)
      let h := b.1
      if !b.2 then
        let h := h.gateCount i none
        if c.mode = 3 then h.tachBreak i else h
      else
        let h := (h.gateCount i (some s)).iuEdge i falling s
        if c.mode = 2 then h.tiuResult i c.rq (flag s.spare 1 + flag falling 2) s 0 c.land
        else if c.mode = 3 then
          { h with tiu := { h.tiu with tach := h.tiu.tach ++ [(i, s.t, h.tiu.tachCut.contains i)], tachCut := h.tiu.tachCut.filter (· != i),
                                       lastPulse := h.tiu.lastPulse.put i (some raw) } }
        else h

/-- The oldest tachometer stamp of an input reaches the filter engines (R130, R285). -/
def tachPulseRow (i : Nat) (h : Hub) : Hub :=
  match h.tiu.tach.find? (·.1 == i) with
  | some x =>
    let h := ({ h with tiu := { h.tiu with tach := h.tiu.tach.erase x } }).tachTake x
    if h.tiu.tach.any (·.1 == i) || !h.tiu.tachCut.contains i then h
    else ({ h with tiu := { h.tiu with tachCut := h.tiu.tachCut.filter (· != i) } }).orderBreak i
  | none => h

/-! ## Calibration by code density (R281 to R283) -/

def Hub.setLine (h : Hub) (s n : Nat) : Hub := { h with tiu := { h.tiu with line := h.tiu.line.put s (if n = s then 0 else n + 1) } }

/-- A line fails: the spare replaces it for good, or the source that it serves is lost (R283). -/
def Hub.tiuLineFail (h : Hub) (l : Nat) : Hub :=
  let h := h.raise 51 []
  let h := { h with tiu := { h.tiu with failed := h.tiu.failed ++ [l] } }
  if l = 10 then { h with tiu := { h.tiu with noSpare := true, lost := h.tiu.lost ++ (List.range 10).filter fun s => h.tiuLine s == 10 } }
  else if h.tiu.noSpare then { h with tiu := { h.tiu with lost := h.tiu.lost ++ [l] } }
  else
    let h := (h.setLine l 10).tachBreak l
    { h with tiu := { h.tiu with noSpare := true } }

/-- The spare and a source's own line begin to stamp the same edges (R282). -/
def Hub.handoverStart (h : Hub) (s : Nat) (back : Bool) : Hub := { h with tiu := { h.tiu with handover := some (s, back), handoverAt := h.xoCycles } }
/-- A tenth of TIU_CAL_INT has passed, and the spare takes over the next of the ten lines; a handback that was abandoned is tried again
(R281, R298; DEDUCED, log entry 73). -/
def tiuCalTimer (h : Hub) : Hub :=
  if h.clk.held || h.tiu.calAll || h.tiu.noSpare || h.tiu.handover.isSome || h.tiu.calLine.isSome then h
  else match (List.range 10).find? (fun s => h.tiuLine s == 10) with
    | some s => h.handoverStart s true
    | none =>
      if h.passed h.tiu.calAt (h.tiu.calUse * 4915200) then
        { h.handoverStart (h.tiu.nextCal % 10) false with
            tiu := { (h.handoverStart (h.tiu.nextCal % 10) false).tiu with nextCal := (h.tiu.nextCal + 1) % 10, calAt := some h.xoCycles
                                                                           calUse := h.cfg.tiu.calInt } }
      else h

/-- Paired stamps of one edge, by line `l` in service and by line `m`, agree within 30 ps (R282). -/
def Hub.pairAgrees (h : Hub) (l m : Nat) (p : PairedStamp) : Bool :=
  let d := ((h.tiu.taps.get m).getD p.other.val 0 : Int) - (h.tiu.taps.get l).getD p.mine.val 0 - roundDiv (p.later * 2 ^ 40) 122880000
  decide (d.natAbs * 1000000000000 ≤ 30 * 2 ^ 40)
/-- After 1,024 edges or 1 ms the line that took the stamps beside the one in service takes over, where every pair agrees; else the handover is
abandoned (R282). -/
def tiuHandoverDone (pairs : List PairedStamp) (h : Hub) : Hub :=
  match if h.clk.held then none else h.tiu.handover with
  | none => h
  | some (s, back) =>
    if pairs.length < 1024 ∧ h.xoCycles < h.tiu.handoverAt + 49152 then h
    else
      let next := if back then s else 10
      let agree := pairs.all (h.pairAgrees (h.tiuLine s) next)
      let h := { h with tiu := { h.tiu with handover := none } }
      if !agree then h
      else if back then h.setLine s s
      else { (h.setLine s 10) with tiu := { (h.setLine s 10).tiu with calLine := some s } }

/-- The hits of 2^20 edges in a line's taps give a calibration: no tap is without hits, and the widths do not sum to less than one TIME
period (R281, R283). -/
def lineGood (hits : List Nat) : Bool :=
  hits.length == 512 && hits.all (fun n => decide (0 < n)) && decide (2 ^ 20 ≤ hits.foldl (· + ·) 0)
/-- The taps' positions, the running sum of their widths, each the tap's share of one TIME period (R281). -/
def tapSums (hits : List Nat) : List Nat :=
  let rec go : List Nat → Nat → List Nat
    | [], _ => []
    | n :: r, a => (((a + n) * 2 ^ 20 + 61440000) / 122880000) :: go r (a + n)
  go hits 0
/-- A line has been calibrated, or fails. -/
def Hub.tiuLineCal (h : Hub) (l : Nat) (hits : List Nat) : Hub :=
  if lineGood hits then { h with tiu := { h.tiu with taps := h.tiu.taps.put l (tapSums hits) } } else h.tiuLineFail l
/-- Every line in service has been calibrated, with the hits of each (R281). -/
def Hub.tiuCalAll (h : Hub) (hits : List (List Nat)) : Hub :=
  (List.range 11).foldl (fun h l => if h.tiu.failed.contains l then h else h.tiuLineCal l (hits.getD l []))
    { h with tiu := { h.tiu with calAll := false } }

/-- The calibration of the released line, or of every line together, ends with the hits of their taps (R281, R283). -/
def tiuCalDone (hits : List (List Nat)) (h : Hub) : Hub :=
  if h.clk.held then h
  else if h.tiu.calAll then h.tiuCalAll hits
  else match h.tiu.calLine with
  | none => h
  | some s =>
    let h := { h with tiu := { h.tiu with calLine := none } }
    let x := hits.headD []
    if lineGood x then (h.tiuLineCal s x).handoverStart s true else h.tiuLineFail s

/-! ## Commands (R293 to R298) -/

/-- The setting that TIU_INPUT_SET describes. -/
def pwTiuIn (p : List Word) : TiuInCfg :=
  let w := pw p 0
  { mode := fld w 31 29, edge := fld w 28 27, presc := fld w 26 24, rq := fld w 19 16, land := bit w 15,
    dly := signed 32 (pw p 1).toNat, holdoff := (pw p 2).toNat }

def tiuInputSet : CmdSpec where
  opcode := 0x0D01
  len := lenIs 3
  bad := fun _ p =>
    let c := pwTiuIn p
    badIf !(rsv (pw p 0) 0xFF0F8007 && decide (c.mode ≤ 3) && decide (c.edge ≤ 2) && !(c.mode == 3 && c.edge == 2) && decide (c.presc ≤ 4) &&
      (c.presc == 0 || (c.mode == 1 && decide (fld (pw p 0) 2 0 ≤ 1))) && decide (c.rq ≤ 7) && decide (c.holdoff ≤ 1000000))
  refuse := fun h x =>
    let c := pwTiuIn x.pl
    let i := fld (pw x.pl 0) 2 0
    let used := (List.range 8).any fun u => (h.tiuUnit u).enable && ((h.tiuUnit u).startIn == i || (h.tiuUnit u).stopIn == i)
    refuseIf ((used && (c.mode == 0 || c.presc != 0)) || (c.mode == 0 && h.tiu.gates.any (·.input == i))) BAD_STATE
  block := true
  run := fun h x =>
    let i := fld (pw x.pl 0) 2 0
    let h := if (h.tiuIn i).mode = 3 ∧ (pwTiuIn x.pl).mode ≠ 3 then h.tachBreak i else h
    let h := { h with tiu := { h.tiu with presc := h.tiu.presc.put i 0 } }
    { hub := { h with cfg := { h.cfg with tiu := { h.cfg.tiu with inputs := h.cfg.tiu.inputs.put i (pwTiuIn x.pl) } } } }

/-- The setting that TIU_INTERVAL_SET describes. -/
def pwTiuUnit (p : List Word) : TiuUnitCfg :=
  let w := pw p 0
  { enable := bit w 31, land := bit w 30, startIn := fld w 26 24, startEdge := bit w 23, stopIn := fld w 22 20, stopEdge := bit w 19,
    rq := fld w 18 16, winMin := (pw p 1).toNat, winMax := (pw p 2).toNat }

def tiuIntervalSet : CmdSpec where
  opcode := 0x0D02
  len := lenIs 3
  bad := fun h p =>
    let c := pwTiuUnit p
    badIf !(rsv (pw p 0) 0xC7FF0007 && !(c.startIn == c.stopIn && c.startEdge == c.stopEdge) && inR c.winMax 1 1000000000 &&
      decide (c.winMin < c.winMax) && (h.tiuIn c.startIn).presc == 0 && (h.tiuIn c.stopIn).presc == 0)
  refuse := fun h x =>
    let c := pwTiuUnit x.pl
    refuseIf ((h.tiuIn c.startIn).mode == 0 || (h.tiuIn c.stopIn).mode == 0) BAD_STATE
  block := true
  run := fun h x =>
    let u := fld (pw x.pl 0) 2 0
    let h := ((h.iuDrop u).setStop u none).setReplaced u none
    { hub := { h with cfg := { h.cfg with tiu := { h.cfg.tiu with units := h.cfg.tiu.units.put u (pwTiuUnit x.pl) } } } }

def tiuFreq : CmdSpec where
  opcode := 0x0D03
  len := lenIs 2
  bad := fun _ p => badIf !(rsv (pw p 0) 0x8007 && inR (pw p 1).toNat 1 1000000)
  refuse := fun h x =>
    let i := fld (pw x.pl 0) 2 0
    refuseIf ((h.tiuIn i).mode == 0 || h.tiu.gates.any (·.input == i)) BAD_STATE
  block := true
  long := fun _ _ => true
  run := fun h x =>
    let g : Gate := { input := fld (pw x.pl 0) 2 0, handle := x.handle, land := bit (pw x.pl 0) 15, ms := (pw x.pl 1).toNat,
                      cyc := h.tb.cycles + 1, start := cyc40 (h.tb.cycles + 1), t := cycT (h.tb.total + 1), epoch := h.tb.epoch, points := [], lastTick := none,
                      edges := 0, broken := false, slewSum := 0, slewFrom := h.xoCycles, slewAt := h.xoCycles }
    { hub := { h with tiu := { h.tiu with gates := h.tiu.gates ++ [g] } } }

def tiuRead : CmdSpec where
  opcode := 0x0D04
  len := lenIs 1
  bad := fun _ p => badIf !(rsv (pw p 0) 7)
  run := fun h x =>
    let q := fld (pw x.pl 0) 2 0
    let k := h.tiu.queues.get q
    let es := k.entries.take 15
    { hub := { h with tiu := { h.tiu with queues := h.tiu.queues.put q { k with entries := k.entries.drop 15, lost := 0 } } }
      words := wd (es.length + k.lost * 65536) :: es.flatten }

def tiuStatus : CmdSpec where
  opcode := 0x0D05
  len := lenIs 1
  bad := fun _ p => badIf !(rsv (pw p 0) 0x307)
  run := fun h x =>
    let w := pw x.pl 0
    let n := fld w 2 0
    let s := if bit w 8 then 8 + n else n
    let i := if bit w 8 then (h.tiuUnit n).startIn else n
    let ws := (List.range 8).map fun k => wd (h.tiu.counts.get (16 * s + k))
    let counts := if bit w 9 then (List.range 8).foldl (fun (t : Tab Nat) k => t.put (16 * s + k) 0) h.tiu.counts else h.tiu.counts
    { hub := { h with tiu := { h.tiu with counts := counts } }
      words := wd (h.tiuLine i + flag (h.tiuLine i == 10) 4 + flag h.tiu.noSpare 5 + flag (h.tiu.lost.contains i) 6) :: ws }

def tiuCalSet : CmdSpec where
  opcode := 0x0D06
  len := lenIs 1
  bad := fun _ p => badIf !(rsv (pw p 0) 0xFFF && inR (fld (pw p 0) 11 0) 1 3600)
  run := fun h x => { hub := { h with cfg := { h.cfg with tiu := { h.cfg.tiu with calInt := fld (pw x.pl 0) 11 0 } } } }

end Sys2Proof.Machine
end

