-- ==== Sys2Proof/Machine/NetOps.lean ====
section
/-!
DEFINITION. What the network chapters share: ports and their health records, servo states, ferry datagrams, wire times
and PTP messages sent (R248, R251, R252, R257, R262, R328, R441 to R444, R456).
-/
namespace Sys2Proof.Machine

def Hub.port (h : Hub) (p : Nat) : Port := h.net.ports.get p
def Hub.portCfg (h : Hub) (p : Nat) : PortCfg := h.cfg.net.ports.get p
def Hub.setPort (h : Hub) (p : Nat) (x : Port) : Hub := { h with net := { h.net with ports := h.net.ports.put p x } }
def Hub.setPtp (h : Hub) (p : Nat) (x : Ptp) : Hub := h.setPort p { h.port p with ptp := x }
def Hub.isActive (h : Hub) (p : Nat) : Bool := h.net.active == some p
/-- The port of the two that is not `p`. -/
def otherPort (p : Nat) : Nat := 1 - p

/-! ## Health (R443, R456) -/

def PortState.code : PortState → Nat | .off => 0 | .active => 1 | .testing => 2 | .standby => 3 | .faulted => 4
/-- Milliseconds since the current snapshot. -/
def Hub.snapAge (h : Hub) : Nat := match h.net.snap with | some s => (h.xoCycles - s.at_) / 49152 | none => 0xFFFFFFFF

/-- The causes of R443 that hold on the active port; `errs` is that more than ERR_MAX frames failed in the last second. -/
def Hub.causesNow (h : Hub) (errs : Bool) : Nat :=
  match h.net.active with
  | none => 0
  | some p =>
    let x := h.port p
    let c := h.portCfg p
    flag (!x.link) 0 + flag (x.ptp.servo == .holdover && c.ptp.enable) 1 + flag ((h.cons 1).enable && decide (2 ≤ h.net.resends)) 2 +
      flag errs 3 + flag (decide (2 ≤ x.echoMiss)) 4
/-- The causes that hold are now those of `n`. -/
def Hub.setCauses (h : Hub) (n : Nat) : Hub :=
  let was := h.net.causes
  let since := (List.range 5).foldl (fun (t : Tab Nat) i => if n.testBit i && !was.testBit i then t.put i h.xoCycles else t) h.net.causeAt
  let ended := decide (was &&& h.cfg.net.suspMask ≠ 0) && decide (n &&& h.cfg.net.suspMask = 0)
  { h with net := { h.net with causes := n, causeAt := since, clearAt := if ended then h.xoCycles else h.net.clearAt } }
/-- The causes held follow the port; ERRORS keeps its last reading. -/
def Hub.noteCauses (h : Hub) : Hub := h.setCauses (h.causesNow (h.net.causes.testBit 3))

/-- A PATH_HEALTH record of an enabled port (R456). -/
def Hub.portHealth (h : Hub) (p : Nat) : Hub :=
  let x := h.port p
  let act := h.isActive p
  if !(h.portCfg p).enable then h
  else h.landHealth 0x61 h.tb.epoch h.sampleT (b1 p ++ b1 x.st.code ++
    b1 (flag (act && h.net.suspect) 0 + flag x.link 1 + flag x.prbsOk 2 + flag x.echoOk 3) ++ b1 (if act then h.net.causes else 0) ++ b2 0 ++
    b4 (sat32 x.tests) ++ b4 (sat32 x.testFails) ++ b4 x.prbsErr ++ b4 x.rtt ++ b4 (sat32 x.linkLoss) ++ b4 (sat32 x.fcsErr) ++ bT x.testT ++
    b4 (if act then h.snapAge else 0) ++ b4 0)
/-- The port's state changes, and its health lands. -/
def Hub.portTo (h : Hub) (p : Nat) (s : PortState) : Hub :=
  if (h.port p).st = s then h else (h.setPort p { h.port p with st := s }).portHealth p

/-! ## Servo states (R224, R253) -/

/-- NET is qualified in LOCKED and in SUSPECT on the active port. -/
def Servo.qualified (s : Servo) : Bool := s == .locked || s == .suspect
/-- The servo of a port changes state; NET's qualification and the path mark follow (R224, R236). In ACQUIRING the first update steps. -/
def Hub.servoTo (h : Hub) (p : Nat) (s : Servo) : Hub :=
  let x := (h.port p).ptp
  let acq := s == .acquiring
  let h := h.setPtp p { x with servo := s, lockRun := 0, outRun := 0, stepped := x.stepped && !acq, syncAt := if acq then h.xoCycles else x.syncAt }
  if h.isActive p then
    let h := { h with tb := { h.tb with asymUnverified := (h.port p).ptp.asymUnverified } }
    let h := if h.tb.qNet = s.qualified then h else h.setQual .net s.qualified
    h.noteCauses
  else h

/-- The number of a re-route's result in NET_RR_DONE; the spec names the results and gives no numbers (R254 to R256, R266). -/
inductive RrResult where
  | restored | verified | unverified | abandoned | host
deriving DecidableEq, Repr
def RrResult.code : RrResult → Nat
  | .restored => (Config.rrResult 0).toNat | .verified => (Config.rrResult 1).toNat | .unverified => (Config.rrResult 2).toNat
  | .abandoned => (Config.rrResult 3).toNat | .host => (Config.rrResult 4).toNat
def Hub.rrDone (h : Hub) (r : RrResult) : Hub := h.raise 100 (b4 r.code)

/-- A master change, a change of path or NET_PTP_SET: ACQUIRING with a baseline to retake; a hold ends (R253, R254, R266). -/
def Hub.servoRestart (h : Hub) (p : Nat) (s : Servo) (r : RrResult) : Hub :=
  let x := (h.port p).ptp
  let held := x.servo == .suspect || x.servo == .qualHold
  let h := h.setPtp p { x with dHist := [], baseline := none, oHist := [], bad := [], back := 0, stepped := false, winSecs := 0, deltas := [],
                               secO := [], secQ := [], noWindow := false, sync := none }
  let h := h.servoTo p s
  if held then h.rrDone r else h

/-! ## Ferry datagrams (R328) -/

/-- The key slot that encrypts. -/
def Hub.ferryKey (h : Hub) : Option KeySlot := (List.range 2).map (fun s => h.sto.ferryKeys.get s) |>.find? (·.active)
/-- The ferry header. -/
def ferryHeader (kind hub keyId flags session seq : Nat) : List Byte :=
  b2 0x4653 ++ b1 1 ++ b1 kind ++ b1 hub ++ b1 keyId ++ b2 flags ++ b4 session ++ b8 seq
/-- GCM of a datagram: the nonce is SESSION and SEQ, the additional data the header. -/
def ferrySeal (key : List Word) (header plain : List Byte) : List Byte := Config.gcm (bytesOf key) (header.drop 8) header plain
/-- A received datagram authenticates: its ciphertext is that of the plaintext under either key slot. -/
def Hub.ferryAuth (h : Hub) (header plain cipher : List Byte) : Bool :=
  (List.range 2).any fun s =>
    let k := h.sto.ferryKeys.get s
    !k.key.isEmpty && leNat ((header.drop 5).take 1) == k.id && ferrySeal k.key header plain == cipher

/-! ## Wire times (R261, R262) -/

/-- Nanoseconds of a byte at a port's mode. -/
def nsPerByte (mode : Nat) : Nat := if mode ≤ 1 then 8 else if mode = 2 then 80 else 800
/-- Wire time of a frame without FCS, with preamble and gap, as a T64. -/
def wireT (mode len : Nat) : T64 := (fr ((8 + len + 4 + 12) * nsPerByte mode) 1000000000).toT
/-- Picoseconds in units of 2^-32 s. -/
def psToT (p : Int) : Int := roundDiv (p * 2 ^ 32) 1000000000000
/-- Units of 2^-32 s in picoseconds. -/
def tToPs (t : Int) : Int := roundDiv (t * 1000000000000) (2 ^ 32)
/-- Reading of a launch entry's timebase. -/
def Hub.launchNow (h : Hub) (l : Launch) : T64 := if l.onSample then h.sampleT else h.netT
/-- Time left until a launch entry's target. -/
def Hub.launchLeft (h : Hub) (l : Launch) : Int := tDiff (h.launchNow l) l.target

/-! ## PTP messages (R248, R251, R252, R257, R262) -/

/-- EGRESS_LAT, INGRESS_LAT and PATH_ASYM in force on a port, in ps (R252, R268). -/
def Hub.comp (h : Hub) (p : Nat) : Int × Int × Int := (h.port p).held.getD ((h.portCfg p).egress, (h.portCfg p).ingress, (h.portCfg p).asym)
def Hub.egressLat (h : Hub) (p : Nat) : Int := psToT (h.comp p).1
/-- An egress stamp now, and an ingress stamp, in units of 2^-32 s. -/
def Hub.egress (h : Hub) (p : Nat) : Int := (h.netT.toNat : Int) + h.egressLat p
def Hub.ingress (h : Hub) (p : Nat) : Int := (h.netT.toNat : Int) - psToT (h.comp p).2.1
/-- The key slot that signs on a port. -/
def Hub.ptpTxKey (h : Hub) (p : Nat) : Option KeySlot := (List.range 2).map (fun s => h.sto.ptpKeys.get (2 * p + s)) |>.find? (·.active)
/-- Key bytes of a PTP key slot: LEN of them, kept above SPP and KEY_ID. -/
def KeySlot.bytes (k : KeySlot) : List Byte := (bytesOf k.key).take (k.id / 65536)
/-- Bytes of a PTP message of a port in its frame without FCS: the headers of the transport, the message, and the AUTHENTICATION TLV
(PRESUMED from IEEE 1588 and IEEE 802.3, log entry 72). -/
def Hub.ptpLen (h : Hub) (p type : Nat) : Nat :=
  let c := (h.portCfg p).ptp
  let hd := if c.transport = 0 then 14 else if c.transport = 1 then 42 else 62
  max 60 (hd + (if type = 1 then 44 else 54) + (if c.authEn && (h.ptpTxKey p).isSome then 26 else 0))
/-- Sends a message: type, domain, sequenceId and a stamp, in the byte order of IEEE 1588 (R5); with AUTH_EN the AUTHENTICATION TLV follows.
Event messages go to UDP port 319 and others to 320, or all by the Ethertype (R248). -/
def Hub.ptpSend (h : Hub) (p type seq : Nat) (stamp : Int) : Hub :=
  let c := (h.portCfg p).ptp
  let body := b1 type ++ b1 c.domain ++ beBytes 2 seq ++ beBytes 8 (unsigned 64 stamp)
  let tlv := match h.ptpTxKey p with
    | some k => if c.authEn then b1 (k.id / 256 % 256) ++ b1 (k.id % 256) ++ (Config.hmac k.bytes body).take 16 else []
    | none => []
  h.send (.ptp p (if c.transport = 0 then 0x88F7 else if type < 8 then 319 else 320) type (body ++ tlv))

/-! ## What goes out on a port, and when (R260, R262) -/

/-- The launch entry whose target comes next; a timebase that steps can change the order (R261, R266). -/
def Hub.launchNext (h : Hub) (p : Nat) : Option Launch :=
  (h.port p).launch.foldl (fun (b : Option Launch) l =>
    match b with | some m => if h.launchLeft l < h.launchLeft m then some l else b | none => some l) none
/-- From 12.304 μs before the next target, a frame of `len` bytes that starts `lead` from now would not end with its gap by that target
(R262). -/
def Hub.guardBlocks (h : Hub) (p len : Nat) (lead : Int := 0) : Bool :=
  match h.launchNext p with
  | some l => ((h.port p).guarded || decide (h.launchLeft l - lead ≤ (fr 12304 1000000000).t)) &&
      decide (h.launchLeft l - lead < (wireT (h.portCfg p).mode len).toInt)
  | none => false
/-- Bytes of a message in its frame without FCS (PRESUMED from the protocols' own headers, log entry 72). -/
def Hub.msgLen (h : Hub) (p : Nat) (m : PortMsg) : Nat :=
  match m with
  | .request => h.ptpLen p (if (h.portCfg p).ptp.p2p then 2 else 1)
  | .pdelayResp _ _ => h.ptpLen p 3
  | .followUp _ _ => h.ptpLen p 10
  | .ferry _ n d _ _ => (if d.ipv6 then 98 else 78) + n
  | .net kind v6 body => if kind = 4 then max 60 ((if v6 then 62 else 42) + body.length) else if v6 then 86 else 60
/-- A PTP event message. -/
def PortMsg.event : PortMsg → Bool | .request => true | .pdelayResp _ _ => true | _ => false
def PortMsg.isFerry : PortMsg → Bool | .ferry _ _ _ _ _ => true | _ => false
/-- A message waits: for a launch, or a ferry datagram for host frames and for datagrams before it. -/
def Hub.msgWaits (h : Hub) (p : Nat) (m : PortMsg) (lead : Int := 0) : Bool :=
  (h.port p).link && (h.guardBlocks p (h.msgLen p m) lead ||
    (m.isFerry && ((h.isActive p && !h.net.queue.isEmpty) || (h.port p).defer.any PortMsg.isFerry)))
/-- The next Delay_Req or Pdelay_Req leaves, `lead` from now. -/
def Hub.ptpRequest (h : Hub) (p : Nat) (lead : Int) : Hub :=
  let x := (h.port p).ptp
  if (h.portCfg p).ptp.p2p then
    let s := (x.pdreqSeq + 1) % 65536
    (h.setPtp p { x with pdreqSeq := s, req := some { seq := s, t3 := h.egress p + lead }, pResp := none }).ptpSend p 2 s 0
  else
    let s := (x.dreqSeq + 1) % 65536
    (h.setPtp p { x with dreqSeq := s, req := some { seq := s, t3 := h.egress p + lead } }).ptpSend p 1 s 0
def Hub.msgWait (h : Hub) (p : Nat) (m : PortMsg) : Hub := h.setPort p { h.port p with defer := (h.port p).defer ++ [m] }
/-- A message leaves the port `lead` from now, behind what is on the wire, or waits. A message that waited is stamped when it leaves
(R262). -/
def Hub.msgOut (h : Hub) (p : Nat) (m : PortMsg) (lead : Int := 0) : Hub :=
  if h.msgWaits p m lead then h.msgWait p m
  else match m with
    | .request => h.ptpRequest p lead
    | .pdelayResp seq t2 =>
      let t3 := h.egress p + lead
      if (h.portCfg p).ptp.oneStep then h.ptpSend p 3 seq (t3 - t2)
      else
        let h := h.ptpSend p 3 seq t2
        if h.msgWaits p (.followUp seq t3) lead then h.msgWait p (.followUp seq t3) else h.ptpSend p 10 seq t3
    | .followUp seq t3 => h.ptpSend p 10 seq t3
    | .ferry kind _ dest header body => h.send (.ferry p kind dest header body)
    | .net kind _ body => h.send (.net p kind body)
/-- What waited on a port goes out where it may, PTP event messages first, each behind the one before it; `lead` is the wire time of the
frame that has just started (R260, R262). -/
def Hub.portDrain (h : Hub) (p : Nat) (lead : Int := 0) : Hub :=
  let l := (h.port p).defer
  ((l.filter (·.event) ++ l.filter fun m => !m.event).foldl (fun (a : Hub × Int) m =>
    (a.1.msgOut p m a.2, if a.1.msgWaits p m a.2 then a.2 else a.2 + (wireT (h.portCfg p).mode (h.msgLen p m)).toInt))
    (h.setPort p { h.port p with defer := [] }, lead)).1

/-- Where the ferry's datagrams go (R342); those of KIND 3 too (DEDUCED: R444 sends them as datagrams of the ferry, log entry 71). -/
def Hub.ferryDest (h : Hub) : UdpDest :=
  { ipv6 := (h.cons 1).ipv6, addr := (h.cons 1).dst, port := (h.cons 1).dstPort, src := (h.cons 1).srcPort }
/-- Sends a datagram of the ferry's session on the active port. -/
def Hub.ferrySend (h : Hub) (kind flags : Nat) (plain : List Byte) : Hub :=
  match h.ferryKey, h.net.active with
  | some k, some p =>
    let f := h.jrn.ferry
    let hd := ferryHeader kind h.sys.straps.hubId k.id flags f.session f.seq
    ({ h with jrn := { h.jrn with ferry := { f with seq := f.seq + 1 } } }).msgOut p (.ferry kind plain.length h.ferryDest hd (ferrySeal k.key hd plain))
  | _, _ => h

end Sys2Proof.Machine
end

