-- ==== Sys2Proof/Machine/Ptp.lean ====
section
/-!
DEFINITION. The PTP engines and their servos (R248 to R258, R266 to R270, R275, R276).
-/
namespace Sys2Proof.Machine

/-! ## Acceptance (R249, R250, R257, R258) -/

/-- A sender fails authentication (R257, R258). -/
def Hub.ptpAuthFail (h : Hub) (p sender : Nat) : Hub :=
  let x := (h.port p).ptp
  let c := (h.portCfg p).ptp
  let now := h.xoCycles
  let fails := (x.fails.filter fun f => decide (now ≤ f.2 + c.authWin * 49152000)) ++ [(sender, now)]
  let h := (h.setPtp p { x with authFail := sat32 (x.authFail + 1), fails := fails }).raiseLimited 101 []
  if c.authMax ≤ (fails.filter (·.1 == sender)).length then
    let x := (h.port p).ptp
    (h.setPtp p { x with quar := x.quar ++ [sender], fails := x.fails.filter (·.1 != sender) }).raise 102 []
  else h
/-- The ICV verifies under one of the port's key slots. -/
def Hub.icvOk (h : Hub) (p : Nat) (a : Option (List Byte × List Byte)) : Bool :=
  match a with
  | none => false
  | some (m, icv) => (List.range 2).any fun s =>
      let k := h.sto.ptpKeys.get (2 * p + s)
      !k.key.isEmpty && (Config.hmac k.bytes m).take 16 == icv
/-- A message that the hub discards and counts in IGNORED. -/
def Hub.ptpIgnore (h : Hub) (p : Nat) : Hub := h.setPtp p { (h.port p).ptp with ignored := sat32 ((h.port p).ptp.ignored + 1) }
/-- The checks before a message reaches the servo or the BMCA, and whether it does. -/
def Hub.ptpAccept (h : Hub) (p : Nat) (m : PtpHead) : Hub × Bool :=
  let c := (h.portCfg p).ptp
  let x := (h.port p).ptp
  if !h.isActive p || !c.enable || !(h.port p).link then (h, false)
  else if m.domain ≠ c.domain then (h.ptpIgnore p, false)
  else if x.quar.contains m.sender then (h, false)
  else if c.authEn && !h.icvOk p m.auth then (h.ptpAuthFail p m.sender, false)
  else (h, true)

/-- The same for a message that the hub stamps: while ROOT's domains are held its stamp is discarded (R253). -/
def Hub.ptpStamped (h : Hub) (p : Nat) (m : PtpHead) : Hub × Bool :=
  let a := h.ptpAccept p m
  (a.1, a.2 && !h.clk.held)
/-- XO cycles of `n` intervals of 2^log s. -/
def intervalXo (n : Nat) (log : Int) : Nat := n * 49152000 * 2 ^ (log + 128).toNat / 2 ^ 128

/-- Management, Signaling, unicast negotiation or delayed-processing messages (R249). -/
def ptpMessageIgnored (p : Nat) (h : Hub) : Hub := if h.isActive p && (h.portCfg p).ptp.enable then h.ptpIgnore p else h

/-! ## Steering (R253) -/

/-- Mean of a list. -/
def meanOf (l : List Int) : Int := if l.isEmpty then 0 else roundDiv (l.foldl (fun (a b : Int) => a + b) 0) l.length
/-- A number of units of 2^-32 s is above a limit in ns. -/
def overNs (x : Int) (ns : Nat) : Bool := decide (ns * 2 ^ 32 < x.natAbs * 1000000000)
/-- Root mean square of offsets in ns, rounded up (R236). -/
def rmsNs (l : List Int) : Nat :=
  if l.isEmpty then 0
  else
    let s := l.foldl (fun (a : Nat) x => a + x.natAbs * x.natAbs) 0
    let r := isqrt (s * 1000000000 * 1000000000 / (l.length * 2 ^ 64))
    if r * r * (l.length * 2 ^ 64) < s * 1000000000 * 1000000000 then r + 1 else r

/-- TB_NET steps by −o at once; stamps taken before move with it. -/
def Hub.netStep (h : Hub) (p : Nat) (o : Int) : Hub :=
  let net := (((h.tb.net : Int) - o * 2 ^ 32) % ((2 ^ 96 : Nat) : Int)).toNat
  let x := (h.port p).ptp
  let h := { h with tb := { h.tb with net := net } }
  let h := { h with tb := h.tb.refreshCmp (· == 0) }
  h.setPtp p { x with req := x.req.map fun r => { r with t3 := r.t3 - o }
                      lastSync := x.lastSync.map fun s => (s.1, s.2.1 - o, s.2.2)
                      pResp := x.pResp.map fun r => (r.1, r.2.1 - o, r.2.2) }
/-- NET_INC is set so that TB_NET follows the master; the spec gives no formula for it. -/
def Hub.netSteer (h : Hub) : Hub := { h with tb := { h.tb with netInc := (Config.freeValue h.free).toNat, netValid := true }, free := h.free + 1 }

/-- An update of the servo with offset `o` (R253, R268). -/
def Hub.servoUpdate (h : Hub) (p : Nat) (o : Int) : Hub :=
  let c := (h.portCfg p).ptp
  let x := (h.port p).ptp
  let first := !x.stepped
  let step := first || overNs o (c.netStep * 1000)
  let hist := (o :: x.oHist).take 64
  let lock := if overNs o c.lockThr then 0 else min 8 (x.lockRun + 1)
  let out := if !step && overNs o (4 * c.lockThr) then x.outRun + 1 else 0
  let h := h.setPtp p { x with o := o, oHist := hist, lockRun := lock, outRun := out, stepped := true, rms := rmsNs hist }
  let h := h.netSteer
  let h := if step then h.netStep p o else h
  let h := { h with tb := { h.tb with netRms := rmsNs hist } }
  if x.servo = .acquiring ∧ lock = 8 then h.servoTo p .locked
  else if x.servo = .locked ∧ out = 3 then h.servoTo p .acquiring
  else if x.servo = .locked then
    let y := h.freeInt
    y.2.measure .net (tDiff y.2.sampleT y.2.netT) y.1 none
  else h

/-- The offset of a Sync (R252). -/
def Hub.ptpOffset (h : Hub) (p : Nat) (s : Int × Int × Int) (d : Int) : Int :=
  let x := (h.port p).ptp
  (s.2.1 - s.1) - d - s.2.2 - roundDiv (psToT ((h.comp p).2.2 + x.rrAsym)) 2

/-- A Sync is complete: t1, t2 and c_ms (R252 to R255). -/
def Hub.ptpSync (h : Hub) (p : Nat) (s : Int × Int × Int) : Hub :=
  let x := (h.port p).ptp
  let h := h.setPtp p { x with lastSync := some s }
  let h := if x.servo = .holdover then h.servoTo p .acquiring else h
  let x := (h.port p).ptp
  match x.servo with
  | .disabled | .holdover => h
  | .suspect => h
  | .qualHold => match x.bad.head? with
    | some d => h.setPtp p { x with secO := x.secO ++ [h.ptpOffset p s d] }
    | none => h
  | _ => match x.d with
    | some d =>
      let h := h.setPort p { h.port p with held := none }
      h.servoUpdate p (h.ptpOffset p s d)
    | none => h

/-- A Sync from the selected master; t1 and the correction are in units of 2^-32 s. -/
def ptpSyncReceive (p : Nat) (m : PtpHead) (seq : Nat) (twoStep : Bool) (t1 corr : Int) (h : Hub) : Hub :=
  let a := h.ptpStamped p m
  let h := a.1
  if a.2 && (h.port p).ptp.master == some (m.sender, m.portNo) then
    let t2 := h.ingress p
    let h := h.setPtp p { (h.port p).ptp with syncAt := h.xoCycles, syncLog := m.logInt }
    if twoStep then h.setPtp p { (h.port p).ptp with sync := some (seq, t2, corr) } else h.ptpSync p (t1, t2, corr)
  else h
/-- The Follow_Up of a two-step Sync. -/
def ptpFollowUpReceive (p : Nat) (m : PtpHead) (seq : Nat) (t1 corr : Int) (h : Hub) : Hub :=
  let a := h.ptpStamped p m
  let h := a.1
  match (h.port p).ptp.sync with
  | some (q, t2, c) =>
    if a.2 && q == seq && (h.port p).ptp.master == some (m.sender, m.portNo) then
      (h.setPtp p { (h.port p).ptp with sync := none }).ptpSync p (t1, t2, c + corr)
    else h
  | none => h

/-! ## Delay measurement and the re-route detector (R252, R254) -/

/-- A measurement is accepted: it joins the last 16, whose mean is d_b. -/
def Hub.delayAccept (h : Hub) (p : Nat) (d : Int) : Hub :=
  let x := (h.port p).ptp
  let l := (d :: x.dHist).take 16
  h.setPtp p { x with d := some d, dHist := l, baseline := if l.length = 16 then some (meanOf l) else x.baseline }
/-- The mean of q of PPS, or of CASCADE, over the 16 s before an XO count, where it measured then (R255). -/
def Ptp.qBefore (x : Ptp) (casc : Bool) (at_ : Nat) : Option Int :=
  let l := (x.qHist.filter fun e => e.1 == casc && decide (at_ ≤ e.2.1 + 16 * 49152000) && decide (e.2.1 < at_)).map (·.2.2)
  if l.isEmpty then none else some (meanOf l)

/-- A measurement of the mean path delay. -/
def Hub.delayMeas (h : Hub) (p : Nat) (d : Int) : Hub :=
  let c := (h.portCfg p).ptp
  let x := (h.port p).ptp
  let off := match x.baseline with | some b => overNs (d - b) c.rrThresh | none => false
  match x.servo with
  | .locked =>
    if off then
      let x := { x with bad := [d], back := 0, oPre := meanOf (x.oHist.take 16), qPre := (x.qBefore false h.xoCycles, x.qBefore true h.xoCycles) }
      (h.setPtp p x).servoTo p .suspect
    else h.delayAccept p d
  | .suspect =>
    if off then
      let x := { x with bad := d :: x.bad }
      let h := h.setPtp p x
      if x.bad.length < c.rrN then h
      else
        let h := h.setPtp p { x with back := 0, holdSince := h.xoCycles, winAt := h.xoCycles, winSecs := 0, deltas := [], secO := [], secQ := [], noWindow := false }
        (h.servoTo p .qualHold).raise 99 []
    else ((h.setPtp p { x with outliers := sat32 (x.outliers + x.bad.length), bad := [] }).servoTo p .locked).delayAccept p d
  | .qualHold =>
    if off then h.setPtp p { x with bad := [d], back := 0 }
    else if x.back + 1 < c.rrN then h.setPtp p { x with back := x.back + 1 }
    else (((h.setPtp p { x with bad := [], back := 0 }).servoTo p .locked).rrDone .restored).delayAccept p d
  | _ => h.delayAccept p d

/-- A Delay_Resp from the selected master: its receive time t4 and correction. -/
def ptpDelayRespReceive (p : Nat) (m : PtpHead) (seq : Nat) (t4 corr : Int) (h : Hub) : Hub :=
  let a := h.ptpStamped p m
  let h := a.1
  let x := (h.port p).ptp
  match x.req, x.lastSync with
  | some r, some s =>
    if a.2 && r.seq == seq && x.master == some (m.sender, m.portNo) && !(h.portCfg p).ptp.p2p then
      (h.setPtp p { x with req := none }).delayMeas p (roundDiv ((s.2.1 - r.t3) + (t4 - s.1) - s.2.2 - corr) 2)
    else h
  | _, _ => h

/-- A Pdelay_Resp, or its Follow_Up; `t` is t2 in the response and t3 in the Follow_Up; a one-step response has none. -/
def ptpPdelayRespReceive (p : Nat) (m : PtpHead) (seq : Nat) (followUp twoStep : Bool) (t corr : Int) (h : Hub) : Hub :=
  let a := h.ptpStamped p m
  let h := a.1
  let x := (h.port p).ptp
  let t4 := h.ingress p
  if !a.2 || !(h.portCfg p).ptp.p2p then h
  else if followUp then
    match x.pResp, x.req with
    | some (q, t4, t2, c), some r =>
      if q = seq ∧ r.seq = seq then
        (h.setPtp p { x with pResp := none, req := none }).delayMeas p (roundDiv ((t4 - r.t3) - (t - t2) - c - corr) 2)
      else h
    | _, _ => h
  else match x.req with
    | some r =>
      if r.seq ≠ seq then h
      else if twoStep then h.setPtp p { x with pResp := some (seq, t4, t, corr) }
      else (h.setPtp p { x with req := none }).delayMeas p (roundDiv ((t4 - r.t3) - corr) 2)
    | none => h

/-- A Pdelay_Req is answered one-step or two-step (R248). -/
def ptpPdelayReqReceive (p : Nat) (m : PtpHead) (seq : Nat) (h : Hub) : Hub :=
  let a := h.ptpStamped p m
  let h := a.1
  if !a.2 || !(h.portCfg p).ptp.p2p then h
  else h.msgOut p (.pdelayResp seq (h.ingress p))

/-- The delay request interval passes (R252). -/
def ptpDelayReqTimer (p : Nat) (h : Hub) : Hub :=
  let c := (h.portCfg p).ptp
  let x := (h.port p).ptp
  let due := match x.reqAt with | some t => decide (t + intervalXo 1 c.logDelay ≤ h.xoCycles) | none => true
  if !due || !h.isActive p || !c.enable || !(h.port p).link || h.clk.held || (!c.p2p && x.master.isNone) then h
  else (h.setPtp p { x with reqAt := some h.xoCycles }).msgOut p .request

/-! ## Masters (R248, R253) -/

/-- The fields that the BMCA compares, in order (log entry 14). -/
def Announce.rank (a : Announce) : List Nat :=
  [a.prio1, a.clockClass, a.accuracy, a.variance, a.prio2, a.gmId, a.steps, a.id, a.port]
def lexLt : List Nat → List Nat → Bool
  | a :: r, b :: s => decide (a < b) || (a == b && lexLt r s)
  | _, _ => false
/-- The best master announced. -/
def bestMaster : List Announce → Option Announce
  | [] => none
  | a :: r => match bestMaster r with | some b => if lexLt b.rank a.rank then some b else some a | none => some a

/-- The Announce interval of a master on a port: with the IEC/IEEE 61850-9-3 profile the profile's own 1 s, else the one its messages
give (R248; PRESUMED from that standard, log entry 79). -/
def Hub.annLog (h : Hub) (p : Nat) (m : Heard) : Int := if (h.portCfg p).ptp.profile = 1 then 0 else m.logInt
/-- A master has been silent for the Announce timeout of a port. -/
def Hub.silent (h : Hub) (p : Nat) (m : Heard) : Bool := decide (m.at_ + intervalXo (h.portCfg p).ptp.annTo (h.annLog p m) ≤ h.xoCycles)
/-- A master qualifies for the BMCA of IEEE 1588: two Announces within 4 intervals, and fewer than 255 steps removed (R248; PRESUMED from
that standard, log entry 14). -/
def Hub.qualifies (h : Hub) (p : Nat) (m : Heard) : Bool :=
  decide (m.ann.steps < 255) && (match m.prev with
    | some t => decide (m.at_ ≤ t + intervalXo 4 (h.annLog p m))
    | none => false)
/-- An Announce is received and the BMCA runs over the masters that qualify and are not silent (R248, R253). -/
def ptpAnnounceReceive (p : Nat) (m : PtpHead) (ann : Announce) (h : Hub) : Hub :=
  let a := h.ptpAccept p m
  let h := a.1
  if !a.2 then h
  else
    let x := (h.port p).ptp
    let ann := { ann with id := m.sender, port := m.portNo }
    let prev := (x.masters.find? fun o => o.ann.id == ann.id && o.ann.port == ann.port).map (·.at_)
    let new : Heard := { ann := ann, at_ := h.xoCycles, prev := prev, logInt := m.logInt }
    let ms := x.masters.filter (fun o => !(o.ann.id == ann.id && o.ann.port == ann.port) && !h.silent p o) ++ [new]
    let h := h.setPtp p { x with masters := ms }
    match bestMaster ((ms.filter (h.qualifies p)).map (·.ann)) with
    | some b =>
      if x.master = some (b.id, b.port) then h
      else (h.setPtp p { (h.port p).ptp with master := some (b.id, b.port), d := none, req := none, lastSync := none }).servoRestart p .acquiring .abandoned
    | none => h

/-- The selected master has been silent for the Announce timeout, or none was heard since the port took it from a snapshot. -/
def Hub.announceOut (h : Hub) (p : Nat) : Bool :=
  let x := (h.port p).ptp
  match x.masters.find? fun o => x.master == some (o.ann.id, o.ann.port) with
  | some o => h.silent p o
  | none => x.master.isSome
/-- No Sync for four intervals, or the Announce timeout (R253). -/
def servoSyncTimeout (p : Nat) (announce : Bool) (h : Hub) : Hub :=
  let x := (h.port p).ptp
  let due := if announce then h.announceOut p else decide (x.syncAt + intervalXo 4 x.syncLog ≤ h.xoCycles)
  if !due || !h.isActive p || !(h.portCfg p).ptp.enable || h.clk.held then h
  else
    let h := if announce then h.setPtp p { x with masters := x.masters.filter fun o => x.master != some (o.ann.id, o.ann.port), master := none } else h
    if x.servo = .disabled ∨ x.servo = .holdover then h
    else
      let held := x.servo == .suspect || x.servo == .qualHold
      let h := (h.setPtp p { (h.port p).ptp with bad := [], back := 0 }).servoTo p .holdover
      if held then h.rrDone .abandoned else h

/-! ## Confirmation of a re-route (R255, R256) -/

/-- The new path is taken: a new baseline, the servo in `s`, and whether the asymmetry is unverified. -/
def Hub.newPath (h : Hub) (p : Nat) (s : Servo) (unver : Bool) (r : RrResult) : Hub :=
  let x := (h.port p).ptp
  let h := h.setPtp p { x with d := x.bad.head?.or x.d, bad := [], back := 0, dHist := [], baseline := none, asymUnverified := unver, noWindow := false }
  (h.servoTo p s).rrDone r

/-- The second source of R255 and its q_pre: TB_REF when PPS is qualified, or else CASCADE when it is. -/
def Hub.secondSrc (h : Hub) (x : Ptp) : Option (Bool × Int) :=
  if h.tb.qPps then x.qPre.1.map fun q => (false, q) else if h.tb.qCasc then x.qPre.2.map fun q => (true, q) else none
/-- The confirmation window starts anew. -/
def Ptp.winRestart (x : Ptp) : Ptp := { x with winSecs := 0, deltas := [] }
/-- The window has run its length: its spread decides (R255). -/
def Hub.windowEnd (h : Hub) (p : Nat) (x : Ptp) : Hub :=
  match x.deltas with
  | [] => h.setPtp p x.winRestart
  | d :: ds =>
    if overNs (2 * (ds.foldl max d - ds.foldl min d)) (h.portCfg p).ptp.rrThresh then h.setPtp p x.winRestart
    else (h.setPtp p { x with rrAsym := x.rrAsym + tToPs ((d :: ds).getLastD d) }).newPath p .locked false .verified

/-- A second of the confirmation window ends; one without a measurement of o or of q gives no delta_a. -/
def rrConfirmSecond (h : Hub) : Hub :=
  match h.net.active with
  | none => h
  | some p =>
    let c := (h.portCfg p).ptp
    let x := (h.port p).ptp
    if x.servo ≠ .qualHold ∨ x.noWindow ∨ h.clk.held ∨ h.xoCycles < x.winAt + 49152000 then h
    else
      let o := x.secO
      let x := { x with winAt := x.winAt + 49152000, secO := [], secQ := [] }
      match h.secondSrc x with
      | none => h.setPtp p x.winRestart
      | some (casc, pre) =>
        let q := ((h.port p).ptp.secQ.filter (·.1 == casc)).map (·.2)
        let dq := meanOf q - pre
        if !q.isEmpty && overNs dq c.rrAgree then h.setPtp p { x with noWindow := true }
        else
          let ds := if q.isEmpty || o.isEmpty then x.deltas else x.deltas ++ [2 * (meanOf o - (x.oPre + dq))]
          let x := { x with deltas := ds, winSecs := x.winSecs + 1 }
          if x.winSecs < c.rrConfirm then h.setPtp p x else h.windowEnd p x

/-- RR_HOLD seconds have passed since entry to QUAL_HOLD without an agreeing second source (R256). -/
def rrHoldExpiry (h : Hub) : Hub :=
  match h.net.active with
  | none => h
  | some p =>
    let x := (h.port p).ptp
    if x.servo = .qualHold ∧ x.holdSince + (h.portCfg p).ptp.rrHold * 49152000 ≤ h.xoCycles ∧ (x.noWindow ∨ (h.secondSrc x).isNone) then
      h.newPath p .acquiring true .unverified
    else h

/-! ## Commands (R267 to R270, R275, R276) -/

def Hub.setPortCfg (h : Hub) (p : Nat) (c : PortCfg) : Hub := { h with cfg := { h.cfg with net := { h.cfg.net with ports := h.cfg.net.ports.put p c } } }

def netPtpSet : CmdSpec where
  opcode := 0x0906
  len := lenIs 5
  bad := fun _ p =>
    let w := pw p 0
    badIf !(rsv w 0xFFFFFF01 && decide (fld w 30 29 ≤ 1) && decide (fld w 28 27 ≤ 2) && decide ((signed 4 (fld w 15 12)).natAbs ≤ 4) &&
      inR (fld w 11 8) 2 10 && inR (fld (pw p 1) 31 16) 10 65535 && inR (fld (pw p 1) 15 0) 1 65535 &&
      inR (fld (pw p 2) 31 16) 20 65535 && inR (fld (pw p 2) 15 12) 2 15 && inR (fld (pw p 2) 11 0) 1 4095 &&
      inR (fld (pw p 3) 31 16) 10 3600 && inR (fld (pw p 3) 15 0) 60 65535 && inR (fld (pw p 4) 31 24) 1 255 &&
      inR (fld (pw p 4) 23 16) 1 255 && rsv (pw p 4) 0xFFFF0000)
  run := fun h x =>
    let p := x.pl
    let w := pw p 0
    let n := fld w 0 0
    let c : PtpCfg :=
      { enable := bit w 31, profile := fld w 30 29, transport := fld w 28 27, p2p := bit w 26, oneStep := bit w 25, authEn := bit w 24,
        domain := fld w 23 16, logDelay := signed 4 (fld w 15 12), annTo := fld w 11 8, lockThr := fld (pw p 1) 31 16,
        netStep := fld (pw p 1) 15 0, rrThresh := fld (pw p 2) 31 16, rrN := fld (pw p 2) 15 12, rrAgree := fld (pw p 2) 11 0,
        rrConfirm := fld (pw p 3) 31 16, rrHold := fld (pw p 3) 15 0, authMax := fld (pw p 4) 31 24, authWin := fld (pw p 4) 23 16 }
    let old := (h.portCfg n).ptp
    let x := (h.port n).ptp
    let same := c.enable && old.enable && c.domain == old.domain && c.transport == old.transport && c.p2p == old.p2p
    let x := if same then x else { x with masters := [], master := none, d := none, req := none, pResp := none, lastSync := none, reqAt := none }
    let h := (h.setPortCfg n { h.portCfg n with ptp := c }).setPtp n x
    { hub := h.servoRestart n (if c.enable && h.isActive n then .acquiring else .disabled) .abandoned }

def netPortCompSet : CmdSpec where
  opcode := 0x0907
  len := lenIs 4
  bad := fun _ p => badIf !(rsv (pw p 0) 1)
  run := fun h x =>
    let n := fld (pw x.pl 0) 0 0
    let g := fun i => signed 32 (pw x.pl i).toNat
    let was := (h.port n).ptp.servo
    let now := was == .disabled || was == .qualHold
    let h := h.setPort n { h.port n with held := if now then none else some (h.comp n) }
    let h := h.setPortCfg n { h.portCfg n with egress := g 1, ingress := g 2, asym := g 3 }
    let h := h.setPtp n { (h.port n).ptp with rrAsym := 0, asymUnverified := false }
    { hub := if was = .qualHold then h.servoRestart n .acquiring .host
             else if h.isActive n then { h with tb := { h.tb with asymUnverified := false } } else h }

def netRrConfirm : CmdSpec where
  opcode := 0x0909
  len := lenIs 2
  bad := fun _ p => badIf !(rsv (pw p 0) 7 && decide (fld (pw p 0) 2 1 ≤ 2))
  refuse := fun h x => refuseIf (decide (fld (pw x.pl 0) 2 1 ≤ 1) && (h.port (fld (pw x.pl 0) 0 0)).ptp.servo != .qualHold) BAD_STATE
  run := fun h x =>
    let n := fld (pw x.pl 0) 0 0
    let a := fld (pw x.pl 0) 2 1
    let t := (h.port n).ptp
    if a = 0 then { hub := h.newPath n .acquiring true .host }
    else if a = 1 then { hub := (h.setPtp n { t with rrAsym := t.rrAsym + signed 32 (pw x.pl 1).toNat }).newPath n .acquiring false .host }
    else
      let h := h.setPtp n { t with asymUnverified := false }
      { hub := if h.isActive n then { h with tb := { h.tb with asymUnverified := false } } else h }

def netAuthKeySet : CmdSpec where
  opcode := 0x090A
  len := lenIs 9
  bad := fun _ p => badIf !(rsv (pw p 0) 0xFFFFFF01 && inR (fld (pw p 0) 15 10) 16 32)
  run := fun h x =>
    let w := pw x.pl 0
    let n := fld w 0 0
    let s := fld w 8 8
    let tx := bit w 9
    let k : KeySlot := { id := fld w 23 16 + fld w 31 24 * 256 + fld w 15 10 * 65536, key := x.pl.drop 1, active := tx }
    let keys := h.sto.ptpKeys.put (2 * n + s) k
    let keys := if tx then keys.upd (2 * n + (1 - s)) fun y => { y with active := false } else keys
    { hub := { h with sto := { h.sto with ptpKeys := keys } } }

/-- A clockIdentity in its standard byte order as two words. -/
def idWords (id : Nat) : List Word := wordsOf 2 (beBytes 8 id)

def Servo.code : Servo → Nat
  | .disabled => 0 | .acquiring => 1 | .locked => 2 | .suspect => 3 | .qualHold => 4 | .holdover => 5

def netPtpStatus : CmdSpec where
  opcode := 0x090F
  len := lenIs 1
  bad := fun _ p => badIf !(rsv (pw p 0) 1)
  run := fun h x =>
    let t := (h.port (fld (pw x.pl 0) 0 0)).ptp
    let o := unsigned 64 t.o
    let d := unsigned 64 (t.baseline.getD 0)
    { hub := h
      words := [wd (t.servo.code + flag t.asymUnverified 3)] ++ idWords ((t.master.map (·.1)).getD 0) ++
        [wd ((t.master.map (·.2)).getD 0), lo32 o, hi32 o, lo32 d, hi32 d, wd t.rms, wdInt t.rrAsym,
         wd (if t.servo = .qualHold then (h.xoCycles - t.holdSince) / 49152000 else 0),
         wd (sat32 t.outliers), wd t.authFail, wd t.ignored, wd t.quar.length] }

def netQuarRelease : CmdSpec where
  opcode := 0x0910
  len := lenIs 3
  bad := fun h p =>
    let id := beNat (bytesOf ((p.drop 1).take 2))
    badIf !(rsv (pw p 0) 1 && (h.port (fld (pw p 0) 0 0)).ptp.quar.contains id)
  run := fun h x =>
    let n := fld (pw x.pl 0) 0 0
    let id := beNat (bytesOf ((x.pl.drop 1).take 2))
    { hub := h.setPtp n { (h.port n).ptp with quar := (h.port n).ptp.quar.filter (· != id) } }

end Sys2Proof.Machine
end

