-- ==== Sys2Proof/Machine/Paths.lean ====
section
/-!
DEFINITION. Host-originated frames and launches (R259 to R266, R271 to R274), path states, suspicion, verdicts, failover,
self-test and the path commands (R440 to R462).
-/
namespace Sys2Proof.Machine

/-! ## Frame buffers (R259, R260) -/

/-- The bytes of a frame buffer. -/
def Hub.frameOf (h : Hub) (buf len : Nat) : List Byte := (bytesOf (h.net.frames.gets (384 * buf) (ceilDiv len 4))).take len
def Hub.freeBuf (h : Hub) (b : Nat) : Hub := { h with net := { h.net with busy := h.net.busy.erase b } }
def Hub.bufBusy (h : Hub) (b : Nat) : Bool := h.net.busy.contains b

def netFrameWrite : CmdSpec where
  opcode := 0x090B
  len := fun p => p.length == fld (pw p 0) 31 24 + 1
  bad := fun _ p => badIf !(rsv (pw p 0) 0xFFFF001F && inR (fld (pw p 0) 31 24) 1 120 && decide (fld (pw p 0) 23 16 + fld (pw p 0) 31 24 ≤ 384))
  refuse := fun h x => refuseIf (h.bufBusy (fld (pw x.pl 0) 4 0)) BAD_STATE
  run := fun h x =>
    let w := pw x.pl 0
    { hub := { h with net := { h.net with frames := h.net.frames.puts (384 * fld w 4 0 + fld w 23 16) (x.pl.drop 1) } } }

def netFrameSend : CmdSpec where
  opcode := 0x090C
  len := lenIs 2
  bad := fun _ p => badIf !(rsv (pw p 0) 0xFFFF801F && rsv (pw p 1) 0x7FF && inR (fld (pw p 1) 10 0) 60 1514)
  refuse := fun h x => refuseIf (h.bufBusy (fld (pw x.pl 0) 4 0) || h.net.active.isNone) BAD_STATE
  run := fun h x =>
    let w := pw x.pl 0
    let f : OutFrame := { buf := fld w 4 0, len := fld (pw x.pl 1) 10 0, tsId := fld w 31 16, ts := bit w 15 }
    { hub := { h with net := { h.net with queue := h.net.queue ++ [f], busy := h.net.busy ++ [f.buf] } } }

/-- A stamp joins the port's TX timestamp queue (R260). -/
def Hub.txStamp (h : Hub) (p tsId : Nat) (net sample : T64) : Hub :=
  let x := h.port p
  if x.txts.length < 16 then h.setPort p { x with txts := x.txts ++ [{ tsId := tsId, net := net, sample := sample, epoch := h.tb.epoch }] }
  else
    let h := h.setPort p { x with txLost := min 65535 (x.txLost + 1), txRaised := true }
    if x.txRaised then h else h.raise 103 []

/-- A frame whose timestamp point crossed `ago` before and that ends now would have broken the guard of the next launch: it started in the
guard, and its gap does not end by the target (R262). -/
def Hub.guardBroken (h : Hub) (p : Nat) (ago : T64) : Bool :=
  let ns := nsPerByte (h.portCfg p).mode
  match h.launchNext p with
  | some l =>
    let left := h.launchLeft l
    decide (left + ago.toNat + (fr (8 * ns) 1000000000).t ≤ (fr 12304 1000000000).t) && decide (left < (fr (12 * ns) 1000000000).t)
  | none => false
/-- The oldest queued frame has left; its timestamp point crossed `ago` before (R251, R252, R260). PTP event messages that wait go first. -/
def frameTransmitDone (ago : T64) (h : Hub) : Hub :=
  match h.net.queue, h.net.active with
  | f :: r, some p =>
    if !(h.port p).link || h.clk.held || h.guardBroken p ago || (h.port p).defer.any (·.event) then h
    else
      let lat := BitVec.ofInt 64 (h.egressLat p)
      let h := ({ h with net := { h.net with queue := r } }).send (.frame p (h.frameOf f.buf f.len))
      let h := h.freeBuf f.buf
      (if f.ts then h.txStamp p f.tsId (h.netT - ago + lat) (h.sampleT - ago + lat) else h).portDrain p
  | _, _ => h

/-! ## Launches (R261 to R266, R273) -/

/-- An entry's target as time from now. -/
def Hub.launchBad (h : Hub) (p : Nat) (l : Launch) : Bool :=
  let m := (h.portCfg p).mode
  let at_ := h.launchLeft l
  decide (60 * 2 ^ 32 < at_) ||
  (h.port p).launch.any fun e => let a := h.launchLeft e; decide (a ≤ at_) && decide (at_ < a + (wireT m e.len).toInt)
/-- The queue with a new entry, in target order. -/
def Hub.launchInsert (h : Hub) (l : Launch) (q : List Launch) : List Launch :=
  q.filter (fun e => decide (h.launchLeft e ≤ h.launchLeft l)) ++ l :: q.filter fun e => decide (h.launchLeft l < h.launchLeft e)
/-- The entry that NET_LAUNCH describes. -/
def pwLaunch (p : List Word) (handle : Nat) : Launch :=
  let w := pw p 0
  { buf := fld w 4 0, len := fld (pw p 1) 10 0, onSample := bit w 31, send := bit w 30, target := BitVec.ofNat 64 (mask64 (pw p 2) (pw p 3)),
    epoch := fld (pw p 4) 15 0, tol := (pw p 5).toNat, handle := handle }

/-- Completion result words of a launch (R273). -/
def Hub.launchWords (h : Hub) (p : Nat) (l : Launch) (sent late : Bool) : List Word :=
  let lat := BitVec.ofInt 64 (h.egressLat p)
  let n := if sent then h.netT + lat else 0
  let s := if sent then h.sampleT + lat else 0
  let d := roundDiv (tDiff l.target (if l.onSample then h.sampleT + lat else h.netT + lat) * 1000000000) (2 ^ 32)
  tWords n ++ tWords s ++ [wd (h.tb.epoch + flag late 16 + p * 2 ^ 17), wdInt d]

/-- The port whose launch queue takes an entry: the active one, or that of a failover under way. -/
def Hub.launchPort (h : Hub) : Option Nat := h.net.active.or (h.net.failover.map (·.dest))
/-- Every pending entry completes with ABORTED: the active path is lost with no standby (R266). -/
def Hub.launchAbort (h : Hub) (p : Nat) : Hub :=
  let x := h.port p
  (x.launch.foldl (fun h l => (h.complete l.handle ABORTED (h.launchWords p l false false)).freeBuf l.buf)
    (h.setPort p { x with launch := [], guarded := false })).portDrain p
/-- The active port has no link while the other one is OFF or FAULTED: launches end (R266, R457). -/
def Hub.pathCheck (h : Hub) : Hub :=
  match h.net.active with
  | some p =>
    let o := (h.port (otherPort p)).st
    if !(h.port p).link && (o == .off || o == .faulted) && !(h.port p).launch.isEmpty then h.launchAbort p else h
  | none => h

def netLaunch : CmdSpec where
  opcode := 0x090D
  len := lenIs 6
  bad := fun h p => badIf (!(rsv (pw p 0) 0xC000001F && rsv (pw p 1) 0x7FF && inR (fld (pw p 1) 10 0) 60 1514 && rsv (pw p 4) 0xFFFF &&
    decide ((pw p 5).toNat ≤ 1000000000)) || h.launchBad (h.launchPort.getD 0) (pwLaunch p 0))
  refuse := fun h x =>
    if h.net.active.isNone || h.bufBusy (pwLaunch x.pl 0).buf then some (BAD_STATE, [])
    else refuseIf (h.launchPort.any fun p => decide (32 ≤ (h.port p).launch.length)) BUSY_RETRY
  long := fun _ _ => true
  block := true
  run := fun h x =>
    match h.net.active with
    | none => { hub := h }
    | some p =>
      let l := pwLaunch x.pl x.handle
      let k := h.port p
      let h := h.setPort p { k with launch := h.launchInsert l k.launch, guarded := false }
      { hub := { h with net := { h.net with busy := h.net.busy ++ [l.buf] } }.pathCheck }

/-- 12.304 μs before the next target no other frame may start that would not end by it (R262). -/
def launchGuardStart (h : Hub) : Hub :=
  match h.net.active with
  | none => h
  | some p =>
    match h.launchNext p with
    | some l => if h.launchLeft l ≤ (fr 12304 1000000000).t ∧ ¬ h.clk.held then h.setPort p { h.port p with guarded := true } else h
    | none => h

/-- The next entry's frame starts so that its timestamp point, after EGRESS_LAT, crosses the reference plane at the target; or the port can
start an entry whose target has passed (R263, R264). What waited goes out after it (R262). -/
def launchTransmit (h : Hub) : Hub :=
  match h.net.active with
  | none => h
  | some p =>
    match h.launchNext p with
    | none => h
    | some l =>
      let left := h.launchLeft l - h.egressLat p
      if h.clk.held || !(h.port p).link || decide (0 < left) then h
      else
        let late := decide (l.tol * 2 ^ 32 < -left * 1000000000)
        let h := (h.setPort p { h.port p with launch := (h.port p).launch.erase l, guarded := false }).freeBuf l.buf
        if late && !l.send then ((h.complete l.handle TIMED_OUT (h.launchWords p l false true)).raise 104 []).portDrain p
        else ((h.send (.frame p (h.frameOf l.buf l.len))).complete l.handle DONE (h.launchWords p l true late)).portDrain p
          (wireT (h.portCfg p).mode l.len).toInt

def netTxtsRead : CmdSpec where
  opcode := 0x090E
  len := lenIs 1
  bad := fun _ p => badIf !(rsv (pw p 0) 1)
  run := fun h c =>
    let p := fld (pw c.pl 0) 0 0
    let x := h.port p
    let es := x.txts.take 16
    { hub := h.setPort p { x with txts := x.txts.drop 16, txLost := 0, txRaised := false }
      words := wd (es.length + x.txLost * 65536) :: es.flatMap fun e => wd e.tsId :: tWords e.net ++ tWords e.sample ++ [wd e.epoch] }

/-! ## Echoes, addresses and replies (R442, R453, R460) -/

/-- The hub's address and ECHO_ADDR as a message carries them. -/
def Hub.echoAddrs (h : Hub) (p : Nat) : List Byte :=
  let n := h.cfg.net
  (h.portCfg p).mac ++ (if n.echoV6 then bytesOf n.ipv6 ++ bytesOf n.echoAddr else leBytes 4 n.ipv4.toNat ++ bytesOf (n.echoAddr.take 1))
/-- An echo request leaves, or the resolution of ECHO_ADDR. -/
def Hub.echoSend (h : Hub) (p : Nat) : Hub :=
  let x := h.port p
  let v6 := h.cfg.net.echoV6
  let seq := (x.echoSeq + 1) % 65536
  if !x.link then h
  else if x.resolved then
    (h.setPort p { x with echoAt := some h.xoCycles, echoSeq := seq, resolve := none }).msgOut p (.net 3 v6 (h.echoAddrs p ++ beBytes 2 seq))
  else (h.setPort p { x with resolve := some h.xoCycles }).msgOut p (.net 2 v6 (h.echoAddrs p))

/-- ECHO_ADDR has answered ARP or NDP (R442, R453). -/
def addressResolutionReply (p : Nat) (h : Hub) : Hub :=
  let x := h.port p
  if x.resolve.isSome && x.link && x.st != .off then (h.setPort p { x with resolved := true }).echoSend p else h

/-- An ARP, NDP or echo request for one of the hub's addresses on the active port (R442); `data` is what the reply repeats. -/
def netAddrRequest (p : Nat) (v6 : Bool) (addr : List Word) (data : List Byte) (h : Hub) : Hub :=
  let n := h.cfg.net
  let mine := if v6 then n.ipv6En && addr == n.ipv6 else addr == [n.ipv4]
  if h.isActive p && (h.port p).link && mine then h.msgOut p (.net 4 v6 ((h.portCfg p).mac ++ bytesOf addr ++ data)) else h

/-- A router advertisement on the active port (R460). -/
def routerAdvertisementReceive (p : Nat) (router : List Byte) (h : Hub) : Hub :=
  if h.isActive p && h.cfg.net.ipv6En && !h.net.routers.contains router then { h with net := { h.net with routers := h.net.routers ++ [router] } } else h

/-! ## Self-test (R453, R454) -/

/-- The next self-test of a port, or the active port's echo. -/
def Hub.testStart (h : Hub) (p : Nat) : Hub :=
  let x := h.port p
  if !(h.portCfg p).enable || !x.link || x.st == .off then h
  else if h.isActive p then h.echoSend p
  else h.setPort p { x with prbs := true, prbsOk := false, echoOk := false, echoAt := none, resolve := none, tests := x.tests + 1, testT := h.sampleT }
/-- SELFTEST_INT passes (R453). -/
def selftestTimer (p : Nat) (h : Hub) : Hub :=
  if h.passed (h.port p).testAt (h.cfg.net.selfInt * 49152000) then (h.setPort p { h.port p with testAt := some h.xoCycles }).testStart p else h

/-- A self-test ends (R454). -/
def Hub.testEnd (h : Hub) (p : Nat) : Hub :=
  let x := h.port p
  let pass := x.linkSince && x.prbsOk && x.echoOk
  let x := { x with linkSince := true, echoAt := none, resolve := none, failRun := if pass then 0 else x.failRun + 1,
                    testFails := if pass then x.testFails else x.testFails + 1 }
  let h := h.setPort p x
  if pass then (if x.st = .testing ∨ x.st = .faulted then (h.portTo p .standby).raise 109 [] else h)
  else if 2 ≤ x.failRun ∧ (x.st = .testing ∨ x.st = .standby) then ((h.portTo p .faulted).raise 110 []).pathCheck else h

/-- The PRBS loopback ends with its bit errors; the echo follows. -/
def prbsTestDone (p errors : Nat) (h : Hub) : Hub :=
  let x := h.port p
  if x.prbs && !h.isActive p then (h.setPort p { x with prbs := false, prbsErr := errors, prbsOk := errors == 0 }).echoSend p else h

/-- The reply to the outstanding echo arrives (R453, R454). -/
def echoReplyReceive (p seq : Nat) (h : Hub) : Hub :=
  let x := h.port p
  match x.echoAt with
  | none => h
  | some t =>
    let us := (h.xoCycles - t) * 1000000 / 49152000
    if seq ≠ x.echoSeq ∨ h.cfg.net.echoTo * 1000 < us then h
    else
      let h := h.setPort p { x with echoAt := none, echoOk := true, rtt := us, echoMiss := 0 }
      if h.isActive p then h.noteCauses else h.testEnd p

/-- ECHO_TIMEOUT passes without a reply (R443, R454). -/
def echoTimeout (p : Nat) (h : Hub) : Hub :=
  let x := h.port p
  match x.echoAt.or x.resolve with
  | none => h
  | some t =>
    if h.xoCycles < t + h.cfg.net.echoTo * 49152 then h
    else
      let h := h.setPort p { x with echoAt := none, resolve := none, echoOk := false, rtt := 0xFFFFFFFF, echoMiss := x.echoMiss + 1 }
      if h.isActive p then h.noteCauses else h.testEnd p

/-! ## Suspicion (R443, R444) -/

/-- An enabled cause holds. -/
def Hub.causeHeld (h : Hub) : Bool := decide (h.net.causes &&& h.cfg.net.suspMask ≠ 0)
def Hub.setSuspect (h : Hub) (b : Bool) : Hub :=
  match h.net.active with
  | none => h
  | some p =>
    if h.net.suspect = b then h
    else
      let h := { h with net := { h.net with suspect := b, suspects := if b then sat32 (h.net.suspects + 1) else h.net.suspects, suspectAt := none } }
      (if b then h.raise 105 (b1 h.net.causes) else h.raise 106 []).portHealth p
/-- ERRORS of R443 from the frames of the last second that failed their FCS. -/
def Hub.noteErrors (h : Hub) (fcs : Nat) : Hub :=
  match h.net.active with
  | none => h
  | some p => h.setCauses (h.causesNow (decide ((h.portCfg p).errMax < fcs)))
/-- SUSPECT_DEB in XO cycles. -/
def Hub.suspectDeb (h : Hub) : Nat := h.cfg.net.suspDeb * 49152
/-- An enabled cause has held for SUSPECT_DEB (R444). -/
def suspectDebounce (fcs : Nat) (h : Hub) : Hub :=
  let h := h.noteErrors fcs
  let long := fun i => (h.net.causes &&& h.cfg.net.suspMask).testBit i && decide (h.net.causeAt.get i + h.suspectDeb ≤ h.xoCycles)
  if (List.range 5).any long then h.setSuspect true else h
/-- No enabled cause has held for SUSPECT_DEB: the port has been without one for that long. -/
def suspectClear (fcs : Nat) (h : Hub) : Hub :=
  let h := h.noteErrors fcs
  if h.causeHeld || decide (h.xoCycles < h.net.clearAt + h.suspectDeb) then h else h.setSuspect false
/-- A second has passed while SUSPECT in PEER mode. -/
def suspectDatagramTimer (h : Hub) : Hub :=
  if h.net.suspect && h.cfg.net.arbMode == 2 && h.passed h.net.suspectAt 49152000 then
    ({ h with net := { h.net with suspectAt := some h.xoCycles } }).ferrySend 3 0 (b1 h.sys.straps.hubId ++ b1 h.net.causes ++ List.replicate 14 0)
  else h

/-- ARB_SUSPECT (R444). -/
def Hub.arbSuspect (h : Hub) : Bool := h.net.suspect && h.sys.power == .run

/-! ## The servo snapshot (R448 to R450) -/

def snapshotTimer (h : Hub) : Hub :=
  match h.net.active with
  | none => h
  | some p =>
    let t := (h.port p).ptp
    if t.servo = .locked ∧ ¬ h.net.suspect ∧ (h.net.snap.all fun s => decide (h.xoCycles < s.at_) || h.passed (some s.at_) 49152000) = true then
      let s : Snapshot :=
        { seq := h.net.snapSeq + 1, port := p, asymUnverified := t.asymUnverified, p2p := (h.portCfg p).ptp.p2p, domain := (h.portCfg p).ptp.domain,
          master := t.master.getD (0, 0), inc := h.tb.netInc, steer := h.tb.y, rms := t.rms, dB := t.baseline.getD 0,
          asym := (h.comp p).2.2 + t.rrAsym, dreqSeq := t.dreqSeq, pdreqSeq := t.pdreqSeq, loc := h.localT, net := h.netT, at_ := h.xoCycles }
      { h with net := { h.net with snap := some s, snapSeq := h.net.snapSeq + 1 } }
    else h

/-- A servo starts from the snapshot (R450); `seqs` are the sequence counters it continues. -/
def Hub.servoLoad (h : Hub) (p : Nat) (s : Snapshot) (seqs : Nat × Nat) : Hub :=
  let inc := (roundDiv ((s.inc : Int) * (2 ^ 40 + s.steer)) (2 ^ 40 + h.tb.y).toNat).toNat
  let h := { h with tb := { h.tb with netInc := inc } }
  let t := (h.port p).ptp
  let h := h.setPtp p { t with master := some s.master, masters := [], d := some s.dB, dHist := [], baseline := none, oHist := [], bad := [], back := 0,
                               req := none, lastSync := none, sync := none, pResp := none, stepped := true, dreqSeq := seqs.1, pdreqSeq := seqs.2 }
  if (h.portCfg p).ptp.enable then h.servoTo p .holdover else h.servoTo p .disabled
/-- A servo starts without a snapshot (R450, R253). -/
def Hub.servoFresh (h : Hub) (p : Nat) : Hub :=
  let h := { h with tb := { h.tb with netInc := ({} : TbSt).netInc } }
  let t := (h.port p).ptp
  let h := h.setPtp p { ({} : Ptp) with rrAsym := t.rrAsym, asymUnverified := t.asymUnverified, outliers := t.outliers, authFail := t.authFail,
                                        ignored := t.ignored, fails := t.fails, quar := t.quar }
  h.servoTo p (if (h.portCfg p).ptp.enable then .acquiring else .disabled)

/-! ## Failover (R447, R451) -/

/-- Steps 1 to 3: the old port stops, the launch queue moves, the servo loads the snapshot. -/
def Hub.failStart (h : Hub) (b source : Nat) (handle : Option Nat) (pending : Bool) : Hub :=
  let a := h.net.active.getD (otherPort b)
  let x := h.port a
  let y := h.port b
  let held := x.ptp.servo == .suspect || x.ptp.servo == .qualHold
  let f : Failover := { from_ := a, dest := b, source := source, causes := h.net.causes, verdictT := h.sampleT, handle := handle,
                        snap := if h.net.snap.isSome then some h.snapAge else none, wasFaulted := y.st == .faulted, noLink := !y.link,
                        wasPending := pending, active := false }
  let launch := x.launch
  let h := if h.isActive a then
      let h := (h.setPtp a { x.ptp with bad := [], back := 0 }).servoTo a .disabled
      let h := if held then h.rrDone .abandoned else h
      let h := h.setPort a { h.port a with launch := [], guarded := false, defer := [], link := false, linkSince := x.tests == 0, resolved := false,
                                           echoAt := none, resolve := none, failRun := 0 }
      let h := h.setCauses 0
      { h with net := { h.net with active := none, suspect := false } }
    else h
  let h := if (h.portCfg a).enable && a != b then h.portTo a .testing else h
  let h := h.setPort b { h.port b with prbs := false, echoAt := none, resolve := none, launch := launch, echoMiss := 0 }
  let h := match h.net.snap with
    | some s => h.servoLoad b s (x.ptp.dreqSeq, x.ptp.pdreqSeq)
    | none => h.servoFresh b
  { h with net := { h.net with failover := some f, failovers := sat32 (h.net.failovers + 1) } }

/-- Step 4: the new port becomes ACTIVE. -/
def failoverActivate (h : Hub) : Hub :=
  match h.net.failover with
  | some f =>
    if f.active then h
    else
      let b := f.dest
      let h := { h with net := { h.net with active := some b, failover := some { f with active := true, traffic := if (h.port b).link then some h.sampleT else none } } }
      let h := h.portTo b .active
      let h := h.servoTo b (h.port b).ptp.servo
      let n := h.cfg.net
      if (h.port b).link then
        let h := h.msgOut b (.net 0 false ((h.portCfg b).mac ++ leBytes 4 n.ipv4.toNat))
        if n.ipv6En then h.msgOut b (.net 1 true ((h.portCfg b).mac ++ bytesOf n.ipv6)) else h
      else (h.noteCauses.setSuspect true).pathCheck
  | none => h

/-- A verdict that is discarded (R445). -/
def Hub.ignoreVerdict (h : Hub) : Hub := ({ h with net := { h.net with ignored := sat32 (h.net.ignored + 1) } }).raise 107 []

/-- A verdict that is obeyed (R447); sources 0 HOST, 1 PIN, 2 PEER. -/
def Hub.obey (h : Hub) (p source : Nat) (handle : Option Nat) : Hub :=
  let done := fun (h : Hub) (st : Nat) => match handle with | some hd => h.complete hd st [] | none => h
  if h.net.failover.isSome then
    let h := match h.net.verdict with | some (_, _, some hd) => h.complete hd ABORTED [] | _ => h
    { h with net := { h.net with verdict := some (p, source, handle) } }
  else if h.isActive p then done h DONE
  else if !(h.portCfg p).enable then done h.ignoreVerdict BAD_STATE
  else h.failStart p source handle false
/-- A verdict is executed at resume when taken during a hold; a later one replaces it (R447, R457). -/
def Hub.verdictTake (h : Hub) (p source : Nat) (handle : Option Nat) : Hub :=
  if h.clk.held then
    let h := match h.net.heldVerdict with | some (_, _, some hd) => h.complete hd ABORTED [] | _ => h
    { h with net := { h.net with heldVerdict := some (p, source, handle) } }
  else h.obey p source handle
/-- A verdict from the pin or a peer. -/
def Hub.verdictFrom (h : Hub) (p source : Nat) : Hub := h.verdictTake p source none

/-- ARB_SEL has been stable for ARB_DEB after a change (R445). -/
def arbSelStable (level : Bool) (h : Hub) : Hub :=
  let h := { h with net := { h.net with arbSel := level } }
  if h.cfg.net.arbMode = 1 then h.verdictFrom (flag level 0) 1 else h.ignoreVerdict

/-- A verdict datagram: its UDP port and header, plaintext and ciphertext (R328, R446). -/
def verdictDatagramReceive (p : Nat) (head : UdpHead) (plain cipher : List Byte) (h : Hub) : Hub :=
  let header := head.bytes
  let v := leNat ((plain.drop 4).take 4)
  let ok := header.take 4 == [0x53, 0x46, 1, 2] && header.length == 20 && plain.length == 16 && h.ferryAuth header plain cipher &&
    leNat ((header.drop 4).take 1) == 255 && leNat (plain.take 1) == h.sys.straps.hubId && decide (0 < diff32 v h.net.vseq)
  if (h.port p).st = .off ∨ ¬ (h.port p).link ∨ head.port ≠ h.cfg.net.verdictPort then h
  else if !ok then ({ h with net := { h.net with rejects := sat32 (h.net.rejects + 1) } }).raiseLimited 108 []
  else
    let h := { h with net := { h.net with vseq := v } }
    if h.cfg.net.arbMode = 2 then h.verdictFrom (leNat ((plain.drop 1).take 1) % 2) 2 else h.ignoreVerdict

/-- FLAGS of a PATH_CHANGE record. -/
def Failover.flags (f : Failover) : Nat := flag f.noLink 0 + flag f.snap.isSome 1 + flag f.wasPending 2 + flag f.wasFaulted 3

/-- Step 5: the new port carries traffic; the record lands; a verdict that waited is obeyed (R447, R451, R455, R461). -/
def failoverComplete (h : Hub) : Hub :=
  match h.net.failover with
  | some f =>
    if !f.active then h
    else
      let t := f.traffic.getD h.sampleT
      let h := { h with net := { h.net with failover := none, resends := 0 } }
      let h := h.ferryStart
      let h := h.landEvent 0x60 h.tb.epoch t (b1 f.from_ ++ b1 f.dest ++ b1 f.source ++ b1 f.causes ++ b1 f.flags ++ b1 0 ++ bT f.verdictT ++ bT t ++
        b4 (f.snap.getD 0xFFFFFFFF) ++ b4 0)
      let h := match f.handle with
        | some hd => h.complete hd DONE (tWords f.verdictT ++ tWords t ++ [wd (h.tb.epoch + f.flags * 65536)])
        | none => h
      match h.net.verdict with
      | some (p, s, hd) =>
        let h := { h with net := { h.net with verdict := none } }
        if h.isActive p || !(h.portCfg p).enable then h.obey p s hd else h.failStart p s hd true
      | none => h
  | none => h

/-- The verdict taken during a hold is executed at resume (R457). -/
def Hub.resumeVerdict (h : Hub) : Hub :=
  match h.net.heldVerdict with
  | some (p, s, hd) => ({ h with net := { h.net with heldVerdict := none } }).obey p s hd
  | none => h

/-! ## Links (R441, R443, R453, R454) -/

/-- A port's link comes up, which it cannot while REFCLK_NET fails (R518), or drops. A port that was FAULTED for its link alone has not passed self-test since: it is TESTING (R441). -/
def netLinkChange (p : Nat) (up : Bool) (h : Hub) : Hub :=
  let x := h.port p
  if x.link = up ∨ x.st = .off ∨ up && (h.clk.mon.get 4).failed then h
  else if up then
    let h := h.setPort p { x with link := true }
    if h.isActive p then (h.noteCauses).portHealth p
    else if x.st = .testing then h.testStart p
    else if x.st = .faulted && decide (x.failRun < 2) then (h.portTo p .testing).testStart p
    else h
  else
    let h := h.setPort p { x with link := false, linkSince := x.tests == 0, resolved := false, linkLoss := x.linkLoss + 1, prbs := false, echoAt := none, resolve := none }
    if h.isActive p then
      h.noteCauses.pathCheck
    else if x.st = .standby ∨ x.st = .testing then ((h.portTo p .faulted).raise 110 []).pathCheck else h

/-- HEALTH_INT passes (R456); `fcs` frames with a bad FCS have arrived since the last record. -/
def pathHealthTimer (p fcs : Nat) (h : Hub) : Hub :=
  let x := h.port p
  if x.st = .off ∨ !h.passed x.healthAt (h.cfg.net.healthInt * 49152000) then h
  else (h.setPort p { x with fcsErr := x.fcsErr + fcs, healthAt := some h.xoCycles }).portHealth p

/-! ## Commands (R458 to R462) -/

def netPortSet : CmdSpec where
  opcode := 0x0908
  len := lenIs 4
  bad := fun _ p => badIf !(rsv (pw p 0) 0xF0000001 && decide (fld (pw p 0) 30 28 ≤ 3) && rsv (pw p 2) 0xFFFF && rsv (pw p 3) 0xFFFF0000 &&
    inR (fld (pw p 3) 31 16) 1 65535)
  refuse := fun h x =>
    let w := pw x.pl 0
    let n := fld w 0 0
    refuseIf ((h.launchPort == some n) && (!bit w 31 || fld w 30 28 != (h.portCfg n).mode)) BAD_STATE
  run := fun h x =>
    let w := pw x.pl 0
    let n := fld w 0 0
    let was := (h.portCfg n).enable
    let c := { h.portCfg n with enable := bit w 31, mode := fld w 30 28, mac := bytesOf [pw x.pl 1] ++ leBytes 2 (pw x.pl 2).toNat, errMax := fld (pw x.pl 3) 31 16 }
    let h := h.setPortCfg n c
    if c.enable && !was then
      if h.net.active.isNone && h.net.failover.isNone then
        let h := { h with net := { h.net with active := some n } }
        { hub := ((h.portTo n .active).servoTo n (if c.ptp.enable then .acquiring else .disabled)).noteCauses }
      else { hub := (h.portTo n .testing).testStart n }
    else if !c.enable && was then
      { hub := (h.setPort n { h.port n with st := .off, link := false, linkSince := (h.port n).tests == 0, prbs := false, echoAt := none, resolve := none, resolved := false, failRun := 0 }).pathCheck }
    else { hub := h }

def netPathSet : CmdSpec where
  opcode := 0x0911
  len := lenIs 4
  bad := fun _ p => badIf !(rsv (pw p 0) 0xF01FFFFF && decide (fld (pw p 0) 31 30 ≤ 2) && inR (fld (pw p 0) 15 0) 1 10000 &&
    inR (fld (pw p 1) 31 16) 10 10000 && inR (fld (pw p 1) 15 0) 2 3600 && inR (fld (pw p 2) 31 16) 1 1000 && inR (fld (pw p 2) 15 0) 10 3600 &&
    rsv (pw p 3) 0xFFFF)
  run := fun h x =>
    let p := x.pl
    let w := pw p 0
    let was := h.cfg.net.arbMode
    let n : NetCfg := { h.cfg.net with
      arbMode := fld w 31 30, preferred := fld w 29 29, suspMask := fld w 20 16, suspDeb := fld w 15 0,
      arbDeb := fld (pw p 1) 31 16, selfInt := fld (pw p 1) 15 0, echoTo := fld (pw p 2) 31 16,
      healthInt := fld (pw p 2) 15 0, verdictPort := fld (pw p 3) 15 0 }
    let held := h.causeHeld
    let h := { h with cfg := { h.cfg with net := n } }
    let h := if held && !h.causeHeld then { h with net := { h.net with clearAt := h.xoCycles } } else h
    let h := if bit w 28 then { h with net := { h.net with vseq := 0 } } else h
    { hub := if n.arbMode = 1 ∧ was ≠ 1 then h.verdictFrom (flag h.net.arbSel 0) 1 else h }

def netAddrSet : CmdSpec where
  opcode := 0x0912
  len := lenIs 11
  bad := fun _ p => badIf !(rsv (pw p 0) 0xC000003F && decide (fld (pw p 0) 5 0 ≤ 32))
  run := fun h x =>
    let p := x.pl
    let w := pw p 0
    let n : NetCfg := { h.cfg.net with
      ipv6En := bit w 31, echoV6 := bit w 30, prefix4 := fld w 5 0, ipv4 := pw p 1, gateway4 := pw p 2,
      ipv6 := (p.drop 3).take 4, echoAddr := (p.drop 7).take 4 }
    let h := { h with cfg := { h.cfg with net := n } }
    { hub := (List.range 2).foldl (fun h i => h.setPort i { h.port i with resolved := false }) h }

/-- A NET_VERDICT that starts or awaits a failover. -/
def Hub.verdictWaits (h : Hub) (p : Nat) : Bool :=
  h.cfg.net.arbMode == 0 && (h.portCfg p).enable && (h.net.failover.isSome || !h.isActive p)

def netVerdict : CmdSpec where
  opcode := 0x0913
  len := lenIs 1
  bad := fun _ p => badIf !(rsv (pw p 0) 1)
  long := fun h p => h.verdictWaits (fld (pw p 0) 0 0)
  run := fun h x =>
    let p := fld (pw x.pl 0) 0 0
    if h.cfg.net.arbMode ≠ 0 then { hub := h.ignoreVerdict, status := NOT_PERMITTED }
    else if !(h.portCfg p).enable then { hub := h.ignoreVerdict, status := BAD_STATE }
    else if h.verdictWaits p then { hub := h.verdictTake p 0 (some x.handle) }
    else { hub := h }

def netPathStatus : CmdSpec where
  opcode := 0x0914
  len := lenIs 0
  run := fun h _ =>
    let n := h.net
    let s := fun p => (h.port p).st.code
    { hub := h
      words := [wd (s 0 + s 1 * 16 + flag (n.active == some 1) 8 + flag n.suspect 9 + n.causes * 65536 + flag n.arbSel 24 +
                  flag (n.verdict.or n.heldVerdict).isSome 25 + h.cfg.net.arbMode * 2 ^ 26),
                wd h.snapAge, wd n.vseq, wd n.failovers, wd n.ignored, wd n.rejects, wd n.suspects,
                wd (sat32 (h.port 0).tests), wd (sat32 (h.port 0).testFails), wd (sat32 (h.port 1).tests), wd (sat32 (h.port 1).testFails)] }

end Sys2Proof.Machine
end

