-- ==== Sys2Proof/Machine/Cascade.lean ====
section
/-!
DEFINITION. The cascade (chapter 14): bring-up of a hop, topology, frames, credit, time marks, trigger forwarding,
aggregation, violations and commands.
-/
namespace Sys2Proof.Machine

/-! ## Ends and frames (R27, R420, R421) -/

/-- LV_MIN and LV_MAX of the cascade (R431, R496). -/
def Hub.cascMin (h : Hub) : Nat := fld (h.slot h.sys.slotB).levels 11 8
def Hub.cascMax (h : Hub) : Nat := fld (h.slot h.sys.slotB).levels 15 12

/-- The port is the downstream end of its hop: port U of a hub that is not the master. -/
def Hub.downEnd (h : Hub) (p : Nat) : Bool := p == 0 && !h.isMaster
/-- Roster entries of the hubs beyond the ports (R419). -/
def Hub.rosterAll (h : Hub) : List (Nat × Nat × Nat) := (List.range 2).flatMap fun p => (h.cPort p).roster
/-- The port whose roster names an origin. -/
def Hub.portOf (h : Hub) (o : Nat) : Option Nat := (List.range 2).find? fun p => (h.cPort p).roster.any (·.1 == o)

/-- ROSTER on port U: this hub and every hub in the ROSTER frames received (R419, R420). -/
def Hub.sendRoster (h : Hub) : Hub :=
  if h.isMaster || (h.cPort 0).st != .up then h
  else
    let es := (h.sys.straps.hubId, h.casc.hops, h.cascMax) :: h.rosterAll
    h.cascSend 0 9 (b1 es.length ++ [0, 0, 0] ++ es.flatMap fun e => b1 e.1 ++ b1 e.2.1 ++ b1 e.2.2 ++ [0])

/-- Units that the record stream of `n` bytes takes in RECORD frames (R395, R420). -/
def recordUnits (n : Nat) : Nat := n / 508 * creditCost 512 + (if n % 508 = 0 then 0 else creditCost (n % 508 + 4))
/-- Units of received RECORD frames that this hub still holds for the port's hop (R428, log entry 15). -/
def Hub.heldUnits (h : Hub) (p : Nat) : Nat :=
  if h.isMaster then
    (h.jrn.relay.filter fun r => (h.cPort p).roster.any (·.1 == r.origin)).foldl (fun a r => a + recordUnits r.bytes.length) 0
  else if p = 1 then
    (((h.cPort 0).sent ++ (h.cPort 0).waiting).filter fun f => f.type == 5 && f.origin != h.sys.straps.hubId).foldl
      (fun a f => a + creditCost f.body.length) 0
  else 0
/-- LIMIT of a port: what has been received, and the buffer less what is held (R421). -/
def Hub.cascRoom (h : Hub) (p : Nat) : Nat := max (h.cPort p).rxLimit (32768 + (h.cPort p).rxUsed - h.heldUnits p)
/-- CREDIT with the cumulative LIMIT and the highest SEQ received in order (R420, R421). -/
def Hub.cascCredit (h : Hub) (p : Nat) : Hub :=
  let k := h.cPort p
  let lim := h.cascRoom p
  (h.setCPort p { k with rxLimit := lim, creditAt := h.xoCycles }).cascSend p 7 (b4 lim ++ b4 ((k.rxSeq + 2 ^ 32 - 1) % 2 ^ 32))

/-- CREDIT leaves a port that is up when its LIMIT has changed: relayed frames have left the buffers (R421, R428). -/
def Hub.cascRecredit (h : Hub) (p : Nat) : Hub := if (h.cPort p).st = .up ∧ h.cascRoom p ≠ (h.cPort p).rxLimit then h.cascCredit p else h

/-! ## Loss and bring-up (R381, R382, R418, R434) -/

/-- A hop is lost: the buffers of both directions and what was known beyond it go; CASCADE loses qualification on
port U (R224, R434). -/
def Hub.cascLost (h : Hub) (p : Nat) : Hub :=
  let h := if p = 0 then h.line9Free 16 else h
  let k := h.cPort p
  let h := h.setCPort p { k with sent := [], waiting := [], partials := [], roster := [], txUsed := 0, rxUsed := 0, txLimit := 32768,
                                 rxLimit := 32768, helloOk := false, delays := [], unanswered := 0, level := 0 }
  let h := if p = 0 then h.cascRecredit 1 else h
  let h := if h.downEnd p then ({ h with casc := { h.casc with hops := 255, mSource := 4, epochReq := none } }).setQual .cascade false else h
  if k.roster.isEmpty then h else h.sendRoster

/-- A hop that is up breaks: CASC_DOWN, which three failed attempts then raise no second time (R382, R434). -/
def Hub.cascBreak (h : Hub) (p : Nat) : Hub :=
  if (h.cPort p).st = .up then ((h.setCPort p { h.cPort p with downRaised := true }).raise 115 []).cascLost p else h.cascLost p

/-- Bring-up begins at step 1 with the settings of CASC_PORT_SET (R418, R436). -/
def Hub.cascStart (h : Hub) (p : Nat) : Hub :=
  let h := h.cascBreak p
  let k := h.cPort p
  h.setCPort p { k with st := .training, step := 1, stepAt := h.xoCycles, swapped := false, inverted := 0, markers := 0, lastCount := none, txSeq := 0, rxSeq := 0,
                        hello := [], peerHello := [], nonce := [], use := h.cPortCfg p }
/-- A retrain from step 1 (R406, R433). -/
def Hub.cascRetrain (h : Hub) (p : Nat) : Hub :=
  let k := h.cPort p
  (h.setCPort p { k with attempts := 0, counts := bump k.counts 8 1 }).cascStart p

/-- The retrain that a violation causes, or the quarantine it leads to (R406, R433). -/
def Hub.cascReset (h : Hub) (p : Nat) : Hub :=
  let k := h.cPort p
  let g := h.cPortCfg p
  let now := h.xoCycles
  let rs := now :: k.resets.filter fun t => decide (now ≤ t + g.quarWin * 49152000)
  if g.quarN ≤ rs.length then
    let h := h.cascBreak p
    (h.setCPort p { h.cPort p with st := .quarantined, resets := [], naks := [] }).raise 119 []
  else (h.setCPort p { k with resets := rs, naks := [] }).cascRetrain p

/-- NAK with EXPECT_SEQ; NAK_MAX of them within VIOL_WIN retrain the hop (R406, R420, R433). -/
def Hub.cascNak (h : Hub) (p cls : Nat) : Hub :=
  let k := h.cPort p
  let now := h.xoCycles
  let ns := now :: k.naks.filter fun t => decide (now ≤ t + (h.cPortCfg p).violWin * 49152)
  let h := (h.setCPort p { k with naks := ns, counts := bump k.counts 9 1 }).cascSend p 8 (b4 k.rxSeq ++ b1 cls ++ [0, 0, 0])
  if (h.cPortCfg p).nakMax ≤ ns.length then h.cascReset p else h

/-- A violation is counted and has its first response (R406, R433). -/
def Hub.cascViolation (h : Hub) (p cls : Nat) : Hub :=
  let k := h.cPort p
  let h := (h.setCPort p { k with counts := bump k.counts (cls - 1) 1 }).raiseEach (3000 + p) 118 []
  if cls = 8 then
    let h := h.cascLost p
    (h.setCPort p { h.cPort p with st := .refused, stepAt := h.xoCycles }).raise 120 []
  else if 5 ≤ cls then h.cascReset p else h.cascNak p cls

/-- The first frame of step 10 has been accepted: the hop is up (R418, R419, R434, R437). -/
def Hub.cascUpNow (h : Hub) (p : Nat) : Hub :=
  let k := h.cPort p
  if k.st = .training ∧ k.step = 10 then
    let h := (h.setCPort p { k with st := .up, attempts := 0, downRaised := false, reset := [], probeAt := some h.xoCycles }).raise 116 []
    let h := k.reset.foldl (fun h r => h.complete r.1 DONE []) h
    if h.downEnd p then (h.restartConsumer 2).sendRoster else h
  else h
/-- Step 10: CREDIT leaves; a frame accepted before it counts as the first (R418). -/
def Hub.cascStep10 (h : Hub) (p : Nat) : Hub :=
  let h := (h.setCPort p { h.cPort p with step := 10 }).cascCredit p
  if 2 < (h.cPort p).rxSeq then h.cascUpNow p else h

/-- A cascade hop loses lock (R418). -/
def cascLossOfLock (p : Nat) (h : Hub) : Hub :=
  let k := h.cPort p
  if k.st = .up ∨ k.st = .training then h.cascRetrain p else h

/-- Steps 1 to 4 complete (R418). -/
def cascCommaAlignment (p inverted : Nat) (h : Hub) : Hub :=
  let k := h.cPort p
  if k.st = .training ∧ k.step < 5 then h.setCPort p { k with step := 5, stepAt := h.xoCycles, inverted := inverted % 4 } else h

/-- XO cycles of the limit of a hop's step without its round trip, in steps 1 to 4 of the one that its receivers have reached; steps 9 and 10
have none (R381, R418). -/
def cascLimit (step : Nat) (phy : Fin 4) : Option Nat :=
  if step < 5 then some (phyLimit phy) else if step = 5 then some 984 else if step = 6 then some 1023 else if step = 7 then some 24576
  else if step = 8 then some 3441 else none
/-- A step exceeds its limit (R382, R418). In step 8, three probes in succession without an echo are CV_ALIGN (R433). -/
def cascStepTimeout (p : Nat) (phy : Fin 4) (h : Hub) : Hub :=
  let k : CascPort := { h.cPort p with step := phyStep (h.cPort p).step phy 5 }
  let due := (cascLimit k.step phy).any fun n => decide (k.stepAt + n ≤ h.xoCycles)
  let waits := k.step == 8 && h.tiu.line9.contains 16 && h.tiu.line9.head? != some 16
  if k.st ≠ .training ∨ waits ∨ ¬ due then h
  else if k.step = 8 ∧ k.delays.length + 3 ≤ 16 then h.cascViolation p 7
  else
    let h := h.setCPort p { k with attempts := k.attempts + 1 }
    if 3 ≤ k.attempts + 1 then
      let h := h.cascLost p
      let h := h.setCPort p { h.cPort p with st := .down, stepAt := h.xoCycles, downRaised := true }
      if k.downRaised then h else h.raise 115 []
    else h.cascStart p

/-- A DOWN hop tries again every 10 ms (R382, R418). -/
def cascRetryTimer (p : Nat) (h : Hub) : Hub :=
  if (h.cPort p).st = .down ∧ (h.cPort p).stepAt + 491520 ≤ h.xoCycles then (h.setCPort p { h.cPort p with attempts := 2 }).cascStart p else h
/-- A refused hop is tried again every second (R419). -/
def cascRefusedRetry (p : Nat) (h : Hub) : Hub :=
  if (h.cPort p).st = .refused ∧ (h.cPort p).stepAt + 49152000 ≤ h.xoCycles then (h.setCPort p { h.cPort p with attempts := 0 }).cascStart p else h

/-- The payload of the hub's HELLO (R420). -/
def Hub.cascHello (h : Hub) (p : Nat) (nonce : List Byte) : List Byte :=
  b1 h.sys.straps.hubId ++ b1 (flag h.isMaster 0 + flag (p == 1) 1) ++ b1 h.cascMin ++ b1 h.cascMax ++
  b1 (if h.isMaster then 0 else h.casc.hops) ++ [0, 0, 0] ++ b8 Config.serial.toNat ++ padTo 16 (nonce.take 16)

/-- An ALIGN marker on physical lane `lane`; `skew` is its distance in code groups from the other lane's marker of the
same COUNT (R417). -/
def cascAlignMarker (p lane g1 g2 skew : Nat) (h : Hub) : Hub :=
  let k := h.cPort p
  let l := g1 % 2
  if k.st = .training ∧ k.step = 5 then
    h.setCPort p { k with swapped := l != lane % 2, step := 6, stepAt := h.xoCycles, lastCount := some (g2 % 256), markers := 2 ^ l }
  else if k.st = .training ∧ k.step = 6 then
    if k.lastCount = some (g2 % 256) ∧ k.markers ≠ 2 ^ l ∧ skew ≤ 64 then
      let d := h.draw
      let p' := d.2.cascHello p d.1
      (d.2.setCPort p { k with step := 7, stepAt := h.xoCycles, markers := 3, nonce := d.1, hello := p' }).cascSend p 1 p'
    else h.setCPort p { k with lastCount := some (g2 % 256), markers := 2 ^ l }
  else if k.st = .up ∨ k.st = .training ∧ 7 ≤ k.step then
    let hubOk := k.peerHello.isEmpty || g1 / 2 % 16 == k.partner
    let last := k.lastCount.getD 0
    let fresh := k.markers.testBit l
    let want := if fresh then (last + 1) % 256 else last
    if l = (if k.swapped then 1 - lane % 2 else lane % 2) ∧ hubOk ∧ g2 % 256 = want then
      h.setCPort p { k with lastCount := some want, markers := if fresh then 2 ^ l else k.markers ||| 2 ^ l }
    else h.cascViolation p 7
  else h

/-! ## Frames received (R420, R421, R433) -/

/-- The class of R433 that a received frame violates. -/
def cascFault (type level : Nat) (intact : Bool) (f : List Byte) : Option Nat :=
  if 512 < leNat ((f.drop 2).take 2) then some 1 else frameFault type 0 level 0 intact f

/-- What a receiver does with a frame of a type: at which stage it is taken, its payload lengths, the class it violates,
and its effect. -/
structure CascRx where
  type : Nat
  stage : CascPort → Bool
  len : Nat → Bool
  check : Hub → Nat → List Byte → Option Nat := fun _ _ _ => none
  use : Hub → Nat → List Byte → Hub

/-- The hop carries frames: it is up, or AUTH is done. -/
def CascPort.carries (k : CascPort) : Bool := k.st == .up || (k.st == .training && decide (8 ≤ k.step))

/-- A frame arrives: checks, SEQ order, acceptance, its effect, and CREDIT for the change (R421, R433). During a hold it is dropped, as on a
sensor lane (R408; DEDUCED, log entry 75). -/
def Hub.cascRx (h : Hub) (c : CascRx) (p : Nat) (intact : Bool) (f : List Byte) : Hub :=
  let k := h.cPort p
  if !c.stage k || h.clk.held then h
  else match cascFault c.type (if c.type = 1 then 0 else k.level) intact f with
    | some cls => h.cascViolation p cls
    | none =>
      let s := frameSeq f
      let b := framePay f
      if diff32 s k.rxSeq < 0 then h
      else if 0 < diff32 s k.rxSeq then h.cascViolation p 3
      else if !c.len b.length then h.cascViolation p 1
      else match c.check h p b with
        | some cls => h.cascViolation p cls
        | none =>
          let h := h.setCPort p { k with rxSeq := (k.rxSeq + 1) % 2 ^ 32 }
          let h := if k.step = 10 then h.cascUpNow p else h
          let h := c.use h p b
          if (h.cPort p).st = .up then h.cascCredit p else h

/-- The installation key marked ACTIVE by SL_KEY_SET (R411, R420). -/
def Hub.installKey (h : Hub) : KeySlot := if (h.sto.laneKeys.get 1).active then h.sto.laneKeys.get 1 else h.sto.laneKeys.get 0
/-- The MAC of AUTH from one end: the downstream end's HELLO payload stands first (R420). -/
def Hub.cascMac (h : Hub) (p : Nat) (fromDown : Bool) : List Byte :=
  let k := h.cPort p
  let hs := if h.downEnd p then k.hello ++ k.peerHello else k.peerHello ++ k.hello
  mac16 (bytesOf h.installKey.key) ([0x43, 0x53, 0x43, 0x31] ++ b1 (if fromDown then 3 else 4) ++ hs)

/-- The topology rule that a HELLO breaks (R419). -/
def Hub.topologyBad (h : Hub) (p : Nat) (b : List Byte) : Bool :=
  let peerM := (at_ b 1 1).testBit 0
  let peerD := (at_ b 1 1).testBit 1
  (h.isMaster && peerM) || (h.downEnd p && !peerD && !peerM) || (p == 1 && peerD) || (h.downEnd p && decide (15 ≤ at_ b 4 1))

/-- HELLO: topology, level and partner; AUTH answers it (R419, R420, R431, R433). -/
def rxHello : CascRx where
  type := 1
  stage := fun k => k.st == .training && k.step == 7 && k.peerHello.isEmpty
  len := (· == 32)
  check := fun h p b =>
    let k := h.cPort p
    let lv := min h.cascMax (at_ b 3 1)
    if at_ b 5 3 ≠ 0 then some 1
    else if h.topologyBad p b then some 8
    else if lv < h.cascMin ∨ lv < at_ b 2 1 then some 6
    else if k.partnerSerial ≠ 0 ∧ k.partnerSerial ≠ at_ b 8 8 then some 5 else none
  use := fun h p b =>
    let k := h.cPort p
    let lv := min h.cascMax (at_ b 3 1)
    let h := if h.downEnd p then { h with casc := { h.casc with hops := min 255 (at_ b 4 1 + 1) } } else h
    let h := h.setCPort p { k with peerHello := b, partner := at_ b 0 1, partnerMaster := (at_ b 1 1).testBit 0, partnerSerial := at_ b 8 8,
                                   level := lv }
    h.cascSend p 2 (b1 lv ++ [0, 0, 0] ++ h.cascMac p (h.downEnd p))
def cascHelloReceive (p : Nat) (intact : Bool) (f : List Byte) (h : Hub) : Hub := h.cascRx rxHello p intact f

/-- AUTH: the partner's MAC; the downstream end then measures the delay, the upstream end goes on (R418, R420). -/
def rxAuth : CascRx where
  type := 2
  stage := fun k => k.st == .training && k.step == 7 && !k.peerHello.isEmpty
  len := (· == 20)
  check := fun h p b =>
    if at_ b 1 3 ≠ 0 then some 1
    else if h.installKey.key.isEmpty ∨ h.cascMac p (!h.downEnd p) ≠ b.drop 4 then some 5
    else if at_ b 0 1 ≠ (h.cPort p).level then some 6 else none
  use := fun h p _ =>
    if h.downEnd p then
      (h.setCPort p { h.cPort p with helloOk := true, step := 8, stepAt := h.xoCycles }).line9Ask 16
    else (h.setCPort p { h.cPort p with helloOk := true, step := 9 }).cascStep10 p
def cascAuthReceive (p : Nat) (intact : Bool) (f : List Byte) (h : Hub) : Hub := h.cascRx rxAuth p intact f

/-- A HUB_ID stands twice in the master's combined list (R419). -/
def Hub.rosterTwice (h : Hub) (p : Nat) (ids : List Nat) : Bool :=
  decide (¬ ids.Nodup) || ids.any fun i => i == h.sys.straps.hubId || ((h.cPort (1 - p)).roster.any fun e => e.1 == i)

/-- ROSTER (R419). -/
def rxRoster : CascRx where
  type := 9
  stage := CascPort.carries
  len := fun n => decide (4 ≤ n) && n % 4 == 0
  check := fun h p b =>
    let n := at_ b 0 1
    if b.length ≠ 4 + 4 * n ∨ at_ b 1 3 ≠ 0 ∨ ((List.range n).any fun i => at_ b (7 + 4 * i) 1 != 0) ∨ h.downEnd p then some 1
    else if h.isMaster && h.rosterTwice p ((List.range n).map fun i => at_ b (4 + 4 * i) 1) then some 8 else none
  use := fun h p b =>
    let es := (List.range (at_ b 0 1)).map fun i => (at_ b (4 + 4 * i) 1, at_ b (5 + 4 * i) 1, at_ b (6 + 4 * i) 1)
    if (h.cPort p).roster = es then h else (h.setCPort p { h.cPort p with roster := es }).sendRoster
def cascRosterReceive (p : Nat) (intact : Bool) (f : List Byte) (h : Hub) : Hub := h.cascRx rxRoster p intact f

/-- CREDIT: frames up to ACK_SEQ leave the buffer and LIMIT moves on (R421). -/
def rxCredit : CascRx where
  type := 7
  stage := CascPort.carries
  len := (· == 8)
  use := fun h p b =>
    let k := h.cPort p
    let lim := k.txLimit + (diff32 (at_ b 0 4) k.txLimit).toNat
    let h := h.setCPort p { k with txLimit := lim, sent := k.sent.filter fun f => decide (0 < diff32 f.seq (at_ b 4 4)) }
    let h := h.cascDrain p k.waiting.length
    if p = 0 then h.cascRecredit 1 else h
def cascCreditReceive (p : Nat) (intact : Bool) (f : List Byte) (h : Hub) : Hub := h.cascRx rxCredit p intact f

/-- NAK: the frames from EXPECT_SEQ on leave again (R421). -/
def rxNak : CascRx where
  type := 8
  stage := CascPort.carries
  len := (· == 8)
  check := fun _ _ b => if at_ b 5 3 = 0 then none else some 1
  use := fun h p b =>
    ((h.cPort p).sent.filter fun f => decide (0 ≤ diff32 f.seq (at_ b 0 4))).foldl (fun h f => h.send (.casc p f.type f.seq (frameBytes f.type 0 f.seq (h.cPort p).level 0 f.body))) h
def cascNakReceive (p : Nat) (intact : Bool) (f : List Byte) (h : Hub) : Hub := h.cascRx rxNak p intact f

/-- 100 us without a CREDIT (R421). -/
def cascCreditTimer (p : Nat) (h : Hub) : Hub :=
  let k := h.cPort p
  if (k.st = .up ∨ (k.st = .training ∧ k.step = 10)) ∧ ¬ h.clk.held ∧ k.creditAt + 4916 ≤ h.xoCycles then h.cascCredit p else h

/-! ## Time distribution (R422 to R424, R234) -/

/-- The ports that send time marks: those that face away from the master and have passed step 8. -/
def Hub.markPorts (h : Hub) : List Nat :=
  (List.range 2).filter fun p => !h.downEnd p && ((h.cPort p).st == .up || ((h.cPort p).st == .training && decide (9 ≤ (h.cPort p).step)))

/-- The ALIGN markers of the 125 μs up to a frame strobe, 18 on each lane of a port that is training or up: 73,728 code groups, one marker in
4,096 (R417, log entry 105). -/
def Hub.cascAligns (h : Hub) : Hub :=
  (List.range 2).foldl (fun h p =>
    let k := h.cPort p
    if k.st = .training ∨ k.st = .up then
      let g := fun (l : Nat) => BitVec.ofNat 8 (flag h.isMaster 5 + h.sys.straps.hubId % 16 * 2 + l)
      ((h.setCPort p { k with txCount := (k.txCount + 18) % 256 }).send (.align p 0 (g 0) k.txCount 18)).send (.align p 1 (g 1) k.txCount 18)
    else h) h
/-- The time marks and TIME frames of a frame strobe (R422). -/
def Hub.cascMarks (h : Hub) (idx : Nat) : Hub :=
  if idx % 1000 ≠ 0 then h
  else
    let i := idx / 1000 % 8
    let q := if h.isMaster then h.quality else h.casc.mQuality
    let src := if h.isMaster then h.tb.source.code else h.casc.mSource
    let ps := h.markPorts
    let d := h.casc.discont
    let h := { h with casc := { h.casc with discont := false } }
    ps.foldl (fun h p =>
      let g := BitVec.ofNat 8 (i + flag d 7)
      let body := b1 i ++ b1 src ++ b1 q ++ b1 (if h.isMaster then 0 else h.casc.hops) ++ b4 h.uncWord ++ bT h.sampleT ++
        b2 h.tb.epoch ++ b1 (if h.isMaster then h.sys.straps.hubId else h.tb.cascMaster) ++ [0]
      ((h.send (.csymbol p 0 0x3C g)).send (.csymbol p 1 0x3C g)).cascSend p 3 body) h

/-- fs in units of 2^-32 s. -/
def fsToT (fs : Int) : Int := roundDiv (fs * 2 ^ 32) 1000000000000000
/-- The hop value of R424 in ns. -/
def CascPort.hopNs (k : CascPort) : Nat := 1 + ceilDiv k.use.asymUnc 2000

/-- The epoch of a hub on CASCADE follows the master's. A hub that `takes` CASCADE as its source breaks in any case: into the master's epoch
when that is later, or else into its own plus 1 (R234). -/
def Hub.matchEpoch (h : Hub) (takes : Bool) (e : Int) (em : Nat) : Hub :=
  if h.tb.source ≠ .cascade ∨ h.tb.awaiting ∨ !h.tb.pendBreak.isEmpty then h
  else if epochDiff h.tb.epoch em = 0 ∧ !takes then { h with casc := { h.casc with epochReq := none } }
  else if epochDiff h.tb.epoch em ≤ 0 ∧ h.casc.epochReq = some h.tb.epoch then h
  else
    let s := 20 * roundDiv (e * 6144000) (2 ^ 32)
    { h with tb := { h.tb with pendBreak := [{ e := e, s := s, epoch := some em, kind := if s = 0 then 6 else 1, since := h.tb.strobes }] } }

/-- A time mark whose first bit arrived at `arr` on TB_SAMPLE, with its data code group, and the TIME frame that names
it (R423, R424). -/
def cascTimeMark (g : Nat) (arr : T64) (intact : Bool) (f : List Byte) (h : Hub) : Hub :=
  let k := h.cPort 0
  if !h.downEnd 0 || k.st != .up then h
  else match cascFault 3 k.level intact f with
    | some 2 => h
    | some cls => h.cascViolation 0 cls
    | none =>
      let b := framePay f
      if b.length ≠ 20 ∨ at_ b 19 1 ≠ 0 then h.cascViolation 0 1
      else if at_ b 0 1 ≠ g % 8 ∨ h.clk.held then h
      else
        let src := at_ b 1 1
        let unc := at_ b 4 4
        let e := tDiff arr (BitVec.ofNat 64 (at_ b 8 8)) + fsToT k.delta
        let moved := h.casc.hops != min 255 (at_ b 3 1 + 1)
        let h := { h with
          casc := { h.casc with hops := min 255 (at_ b 3 1 + 1), mSource := src, mQuality := at_ b 2 1, lastE := roundDiv (e * 1000000000000) (2 ^ 32) },
          tb := { h.tb with cascMaster := at_ b 18 1, cascUnc := if unc = 0xFFFFFFFF then none else some (unc + k.hopNs) } }
        let h := (if moved then h.sendRoster else h).setQual .cascade (src != 4)
        if src = 4 then h
        else
          let h := h.noteQ true (tDiff h.sampleT h.netT - e)
          let y := if (g / 128) % 2 = 1 then (h.tb.ySrc, h) else h.freeInt
          let takes := h.tb.source != .cascade || h.tb.awaiting
          (y.2.measure .cascade e y.1 (some (at_ b 16 2))).matchEpoch takes e (at_ b 16 2)

/-- A DELAY_ECHO on port U: line 9's stamps of the probe and of the echo, and TURN in 10 ps (R291, R389, R423). -/
def cascDelayEcho (e : RoundTrip) (turn : Nat) (h : Hub) : Hub :=
  if h.tiu.calAll || h.tiu.lost.contains 9 then h.setCPort 0 { h.cPort 0 with unanswered := 0 }
  else if h.clk.held || h.tiu.line9.head? != some 16 then h else
  let trip := h.line9Trip 16 e
  let h := trip.1
  let k := h.cPort 0
  match trip.2 with
  | none => if k.st == .up then (h.setCPort 0 { k with unanswered := 0 }).line9Next else h
  | some rtt =>
  if h.downEnd 0 && (k.st == .up || (k.st == .training && k.step == 8)) then
    let ds := ((rtt - (10 * turn : Nat) + k.use.asym) * 500 :: k.delays).take 16
    let m := meanI ds
    let k := { k with delays := ds, unanswered := 0 }
    if k.st = .training then
      if ds.length < 16 then h.setCPort 0 k else (h.setCPort 0 { k with delta := m, step := 9, stepAt := h.xoCycles }).line9Next.cascStep10 0
    else
      let h := (h.setCPort 0 { k with delta := m }).line9Next
      if (m - k.delta).natAbs ≤ k.use.jump * 1000 then h
      else (h.raise 117 []).landHealth 0x52 h.tb.epoch h.sampleT
        (b1 0 ++ b1 0 ++ b4 (unsigned 32 (psOf k.delta)) ++ b4 (unsigned 32 (psOf m)))
  else h

/-- PROBE_INT expires on port U; three probes without an echo are CV_ALIGN (R423, R433). -/
def cascProbeTimer (h : Hub) : Hub :=
  let k := h.cPort 0
  if h.downEnd 0 && k.st == .up && !h.clk.held && h.passed k.probeAt (k.use.probeInt * 49152) then
    if 3 ≤ k.unanswered then h.cascViolation 0 7
    else (h.setCPort 0 { k with probeAt := some h.xoCycles }).line9Ask 16
  else h

/-- EPOCH_REQ upstream (R234, R425). -/
def Hub.sendEpochReq (h : Hub) (epoch : Nat) : Hub :=
  let h := { h with casc := { h.casc with epochReq := some epoch } }
  if h.downEnd 0 && (h.cPort 0).st == .up then h.cascSend 0 10 (b2 epoch ++ b1 h.sys.straps.hubId ++ [0]) else h

/-- EPOCH_REQ is passed on; the master renumbers with s = 0 when the number is later than its own (R234, R425). -/
def rxEpochReq : CascRx where
  type := 10
  stage := CascPort.carries
  len := (· == 4)
  check := fun h p b => if at_ b 3 1 = 0 ∧ !h.downEnd p then none else some 1
  use := fun h _ b =>
    let n := at_ b 0 2
    if h.isMaster then
      let last := h.tb.pendBreak.foldl (fun e b => ({ h with tb := { h.tb with epoch := e } }.breakEpoch b).1) h.tb.epoch
      if 0 < epochDiff last n then
        { h with tb := { h.tb with pendBreak := h.tb.pendBreak ++ [{ e := 0, s := 0, epoch := some n, kind := 6, since := h.tb.strobes }] } }
      else h
    else if (h.cPort 0).st = .up then h.cascSend 0 10 b else h
def cascEpochReqReceive (p : Nat) (intact : Bool) (f : List Byte) (h : Hub) : Hub := h.cascRx rxEpochReq p intact f

/-- HOP_HEALTH every 10 s at level 2 (R420). -/
def cascHopHealthTimer (h : Hub) : Hub :=
  let k := h.cPort 0
  if h.downEnd 0 && k.st == .up && decide (2 ≤ k.level) && !h.clk.held && h.passed k.healthAt 491520000 then
    (h.setCPort 0 { k with healthAt := some h.xoCycles }).cascSend 0 11 (b4 (unsigned 32 (psOf k.delta)) ++ b4 (sat32 ((List.range 8).foldl (fun a i => a + k.counts.get i) 0)) ++
      b4 (k.counts.get 8) ++ b4 0)
  else h

/-- HOP_HEALTH; its TYPE is unknown at level 1 (R420, R431). -/
def rxHopHealth : CascRx where
  type := 11
  stage := CascPort.carries
  len := (· == 16)
  check := fun h p b => if 2 ≤ (h.cPort p).level ∧ at_ b 12 4 = 0 ∧ !h.downEnd p then none else some 1
  use := fun h p b => h.setCPort p { h.cPort p with health := (at_ b 0 4, at_ b 4 4, at_ b 8 4) }
def cascHopHealthReceive (p : Nat) (intact : Bool) (f : List Byte) (h : Hub) : Hub := h.cascRx rxHopHealth p intact f

/-! ## Triggers (R190, R426, R427) -/

/-- TRIGGER: applied, and forwarded with HOPS + 1, unless seen within the last second or at its end. -/
def rxTrigger : CascRx where
  type := 4
  stage := CascPort.carries
  len := (· == 20)
  check := fun _ _ b => if at_ b 6 2 = 0 ∧ at_ b 0 1 < 16 then none else some 1
  use := fun h p b =>
    let hub := at_ b 1 1
    let seq := at_ b 16 4
    let now := h.xoCycles
    let seen := h.casc.seen.filter fun s => decide (now ≤ 49152000 + s.2.2)
    if hub = h.sys.straps.hubId ∨ 15 ≤ at_ b 3 1 ∨ seen.any fun s => s.1 == hub && s.2.1 == seq then
      { h with casc := { h.casc with seen := seen } }
    else
      let h := { h with casc := { h.casc with seen := (hub, seq, now) :: seen } }
      let h := (h.cascUp.filter (· != p)).foldl (fun h q => h.cascSend q 4 (b.take 3 ++ b1 (at_ b 3 1 + 1) ++ b.drop 4)) h
      let cross : T64 := BitVec.ofNat 64 (at_ b 8 8)
      let late := at_ b 4 2 == h.tb.epoch && tLt (cross + (fr h.cfg.casc.ctLat 1000000).toT) h.sampleT
      let h := if late then ({ h with casc := { h.casc with ctLate := sat32 (h.casc.ctLate + 1) } }).raise 47 [] else h
      h.ctApply (at_ b 0 1) hub (at_ b 2 1) (at_ b 4 2) cross
def cascTriggerReceive (p : Nat) (intact : Bool) (f : List Byte) (h : Hub) : Hub := h.cascRx rxTrigger p intact f

/-! ## Aggregation (R428, R429) -/

/-- The consumers of a RELAY field: bits for consumers 0, 1 and 3 (R435). -/
def relayOf (n : Nat) : List Nat := [(0, 0), (1, 1), (2, 3)].filterMap fun b => if n.testBit b.1 then some b.2 else none
/-- The lowest acknowledgement of an origin among the consumers in RELAY_REQ, plus 1; none without such a consumer. -/
def Hub.relayLow (h : Hub) (o : Nat) : Option Nat :=
  (relayOf h.cfg.casc.relayReq).foldl (fun (a : Option Nat) c =>
    let x := (h.jrn.consumers.get c).ackTo.get o
    some (match a with | some y => min x y | none => x)) none

/-- A relayed record is still due to a consumer (R429). -/
def Hub.relayDue (h : Hub) (r : RelayRec) : Bool :=
  ((relayOf h.cfg.casc.relayReq).any fun c => (h.cons c).selects r.type 255 && decide ((h.jrn.consumers.get c).ackTo.get r.origin ≤ r.ticket)) ||
  ((relayOf h.cfg.casc.relayCons).any fun c =>
    (h.cons c).enable && (h.cons c).selects r.type 255 && decide ((h.jrn.consumers.get c).next.get r.origin ≤ r.ticket))
/-- Relayed records due to no consumer leave the buffers; CREDIT follows the change (R421, R429). -/
def Hub.relayPurge (h : Hub) : Hub :=
  let keep := h.jrn.relay.filter h.relayDue
  if keep.length = h.jrn.relay.length then h
  else h.cascUp.foldl (fun h p => h.cascCredit p) { h with jrn := { h.jrn with relay := keep } }

/-- The ACK entry for an origin goes down when its lowest acknowledgement is no longer `before` (R429). -/
def Hub.ackDown (h : Hub) (o : Nat) (before : Option Nat) : Hub :=
  match h.relayLow o, h.portOf o with
  | some x, some p =>
    if (before != some x) && ((h.cPort p).st == LinkState.up) then
      h.cascSend p 6 (b1 1 ++ [0, 0, 0] ++ b1 o ++ List.replicate 7 0 ++ b8 (x - 1)) else h
  | _, _ => h

/-- An acknowledgement from a consumer; on the master an advance for another origin goes down as an ACK entry
(R323, R429). -/
def Hub.ackFrom (h : Hub) (c o t : Nat) : Hub :=
  let before := h.relayLow o
  let h := (h.acknowledge c o t).slMarks
  if o = h.sys.straps.hubId ∨ !h.isMaster then h
  else (h.ackDown o before).relayPurge

/-- A frame's data joins the record of its origin that is being put together on the master; a whole record is kept for
the relay consumers (R429). -/
def Hub.relayTake (h : Hub) (p o : Nat) (start : Bool) (data : List Byte) : Hub :=
  let k := h.cPort p
  let others := k.partials.filter (·.1 != o)
  let cur := if start then some data else (k.partials.find? (·.1 == o)).map (·.2 ++ data)
  match cur with
  | none => h
  | some b =>
    let n := (at_ b 4 4 + 7) / 8 * 8
    if b.length < 32 ∨ b.length < n then h.setCPort p { k with partials := others ++ [(o, b)] }
    else
      let h := h.setCPort p { k with partials := others }
      let r : RelayRec := { origin := o, ticket := at_ b 8 8, type := at_ b 0 1, group := at_ b 16 1, bytes := b.take (max 32 n) }
      if h.relayDue r && !(h.jrn.relay.any fun x => x.origin == o && x.ticket == r.ticket) then
        { h with jrn := { h.jrn with relay := h.jrn.relay ++ [r] } }
      else h

/-- RECORD: relayed to port U frame by frame, or taken for the relay consumers on the master (R428, R429, R433). -/
def rxRecord : CascRx where
  type := 5
  stage := CascPort.carries
  len := fun n => decide (4 < n)
  check := fun h p b =>
    let k := h.cPort p
    if at_ b 2 2 ≠ 0 ∨ 1 < at_ b 1 1 then some 1
    else if k.rxLimit < k.rxUsed + creditCost b.length ∨ !(k.roster.any (·.1 == at_ b 0 1)) then some 4 else none
  use := fun h p b =>
    let k := h.cPort p
    let h := h.setCPort p { k with rxUsed := k.rxUsed + creditCost b.length }
    if h.isMaster then h.relayTake p (at_ b 0 1) ((at_ b 1 1).testBit 0) (b.drop 4)
    else ({ h with casc := { h.casc with relayed := h.casc.relayed + (b.length - 4) } }).cascSend 0 5 b
def cascRecordReceive (p : Nat) (intact : Bool) (f : List Byte) (h : Hub) : Hub := h.cascRx rxRecord p intact f

/-- ACK entries for other origins go on down port D, one or up to 16 in a frame (R428, R431). -/
def Hub.forwardAcks (h : Hub) (es : List (Nat × Nat)) : Hub :=
  if (h.cPort 1).st != .up || es.isEmpty then h
  else
    let ent := fun (e : Nat × Nat) => b1 e.1 ++ List.replicate 7 0 ++ b8 e.2
    if 2 ≤ (h.cPort 1).level then h.cascSend 1 6 (b1 es.length ++ [0, 0, 0] ++ es.flatMap ent)
    else es.foldl (fun h e => h.cascSend 1 6 (b1 1 ++ [0, 0, 0] ++ ent e)) h

/-- ACK: consumer 2's acknowledgement, or forwarded (R323, R428). -/
def rxAck : CascRx where
  type := 6
  stage := CascPort.carries
  len := fun n => decide (20 ≤ n)
  check := fun h p b =>
    let n := at_ b 0 1
    if b.length = 4 + 16 * n ∧ n ≤ (if 2 ≤ (h.cPort p).level then 16 else 1) ∧ at_ b 1 3 = 0 ∧ ((List.range n).all fun i => at_ b (5 + 16 * i) 7 == 0) ∧ h.downEnd p then none else some 1
  use := fun h _ b =>
    let es := (List.range (at_ b 0 1)).map fun i => (at_ b (4 + 16 * i) 1, at_ b (12 + 16 * i) 8)
    let own := h.sys.straps.hubId
    let h := (es.filter (·.1 == own)).foldl (fun h e => h.acknowledge 2 own e.2) h |>.slMarks
    h.forwardAcks (es.filter (·.1 != own))
def cascAckReceive (p : Nat) (intact : Bool) (f : List Byte) (h : Hub) : Hub := h.cascRx rxAck p intact f

/-! ## Commands (R435 to R439) -/

def cascSet : CmdSpec where
  opcode := 0x0B01
  len := lenIs 1
  bad := fun _ p =>
    let w := pw p 0
    badIf !(rsv w 0x0707FFFF && inR (fld w 15 0) 1 65535 && (fld w 26 24 &&& fld w 18 16) == fld w 26 24)
  block := true
  run := fun h c =>
    let w := pw c.pl 0
    let k := { h.cfg.casc with relayReq := fld w 26 24, relayCons := fld w 18 16, ctLat := fld w 15 0 }
    let n : Hub := { h with cfg := { h.cfg with casc := k } }
    { hub := (if h.isMaster then h.rosterAll.foldl (fun g e => g.ackDown e.1 (h.relayLow e.1)) n else n).relayPurge }

def cascPortSet : CmdSpec where
  opcode := 0x0B02
  len := lenIs 5
  bad := fun _ p =>
    let w := pw p 0
    let a := signed 32 (pw p 1).toNat
    badIf !(rsv w 0xF0FFF001 && decide (fld w 30 28 ≤ 6) && inR (fld w 23 20) 1 15 && inR (fld w 19 12) 1 255 &&
      decide (-1000000 ≤ a) && decide (a ≤ 1000000) && inR (fld (pw p 2) 15 0) 10 10000 && inR (fld (pw p 3) 31 16) 1 65535 &&
      inR (fld (pw p 3) 15 0) 1 65535 && rsv (pw p 4) 0xFFFF && inR (fld (pw p 4) 15 0) 100 65535)
  refuse := fun h c => refuseIf (!bit (pw c.pl 0) 31 && !bit (pw c.pl 0) 0 && h.tb.source == .cascade) BAD_STATE
  block := true
  run := fun h c =>
    let p := c.pl
    let w := pw p 0
    let n := fld w 0 0
    let k : CascPortCfg := { enable := bit w 31, swing := fld w 30 28, quarN := fld w 23 20, nakMax := fld w 19 12,
                             asym := signed 32 (pw p 1).toNat, asymUnc := fld (pw p 2) 31 16, probeInt := fld (pw p 2) 15 0,
                             quarWin := fld (pw p 3) 31 16, violWin := fld (pw p 3) 15 0, jump := fld (pw p 4) 15 0 }
    let h := { h with cfg := { h.cfg with casc := { h.cfg.casc with ports := h.cfg.casc.ports.put n k } } }
    let h := { h with jrn := { h.jrn with ringPages := h.ringTotal } }
    let x := h.cPort n
    { hub := if k.enable then (if x.st = .disabled then (h.setCPort n { x with attempts := 0 }).cascStart n else h)
             else if x.st = .quarantined then h
             else
               let h := h.cascLost n
               h.setCPort n { h.cPort n with st := .disabled } }

def cascLinkReset : CmdSpec where
  opcode := 0x0B03
  len := lenIs 1
  bad := fun _ p => badIf !(rsv (pw p 0) 1)
  block := true
  long := fun _ _ => true
  run := fun h c =>
    let n := fld (pw c.pl 0) 0 0
    let x := h.cPort n
    let h := h.setCPort n { x with reset := x.reset ++ [(c.handle, h.xoCycles)], partnerSerial := 0 }
    { hub := if x.st = .disabled ∨ x.st = .quarantined then h else h.cascRetrain n }

/-- 100 ms without step 10 (R437). -/
def cascLinkResetTimeout (p : Nat) (h : Hub) : Hub :=
  let k := h.cPort p
  let late := k.reset.filter fun r => decide (r.2 + 4915200 ≤ h.xoCycles)
  late.foldl (fun h r => h.complete r.1 TIMED_OUT []) (h.setCPort p { k with reset := k.reset.filter fun r => !late.contains r })

def cascQuarRelease : CmdSpec where
  opcode := 0x0B04
  len := lenIs 1
  bad := fun _ p => badIf !(rsv (pw p 0) 3)
  refuse := fun h c => refuseIf ((bitsOf (pw c.pl 0).toNat 2).any fun n => (h.cPort n).st != .quarantined) BAD_STATE
  block := true
  run := fun h c => { hub := (bitsOf (pw c.pl 0).toNat 2).foldl (fun h n =>
    if (h.cPortCfg n).enable then (h.setCPort n { h.cPort n with attempts := 0 }).cascStart n else h.setCPort n { h.cPort n with st := .disabled }) h }

def cascStatus : CmdSpec where
  opcode := 0x0B05
  len := lenIs 1
  bad := fun _ p => badIf !(rsv (pw p 0) 0x101)
  run := fun h c =>
    let n := fld (pw c.pl 0) 0 0
    let x := h.cPort n
    let u := n == 0
    let ids := if h.isMaster then maskOf (h.sys.straps.hubId :: h.rosterAll.map fun e => e.1) else 0
    let ws := [wd (x.st.code + x.level % 4 * 16 + x.step % 16 * 256 + flag x.swapped 12 + x.inverted % 4 * 8192),
               wd (x.partner % 256 + (if h.isMaster then 0 else h.casc.hops) % 256 * 256 + flag x.partnerMaster 16),
               lo32 x.partnerSerial, hi32 x.partnerSerial, if u then wdInt (psOf x.delta) else 0, if u then wdInt h.casc.lastE else 0,
               wd (ids % 65536)] ++
              (List.range 10).map (fun i => wd (x.counts.get i)) ++ [wd h.casc.ctLate, wd (sat32 (h.casc.relayed / 1048576))]
    { hub := if bit (pw c.pl 0) 8 then
               { (h.setCPort n { x with counts := [] }) with casc := { (h.setCPort n { x with counts := [] }).casc with ctLate := 0, relayed := 0 } }
             else h
      words := ws }

end Sys2Proof.Machine
end

