-- ==== Sys2Proof/Machine/Ferry.lean ====
section
/-!
DEFINITION. Delivery of closed records to the consumers: host rings, the network ferry and the cascade (R322 to R329,
R428 to R430, R466, R471).
-/
namespace Sys2Proof.Machine

def Hub.setCons (h : Hub) (c : Nat) (x : Consumer) : Hub := { h with jrn := { h.jrn with consumers := h.jrn.consumers.put c x } }

/-! ## Host rings (R326, R466, R471) -/

/-- The span lies in the SPI delivery window. -/
def inSpiWindow (addr len : Nat) : Bool := decide (0x140000 ≤ addr) && decide (addr + len ≤ 0x180000)
/-- A write by a ferry ring: on the bus, or into the SPI delivery window. -/
def Hub.ringWrite (h : Hub) (addr : Nat) (bytes : List Byte) : Hub :=
  if h.sys.straps.hostSel then
    { h with host := { h.host with spiWin := h.host.spiWin.puts ((addr - 0x140000) / 4) (wordsOf (bytes.length / 4) bytes) } }
  else h.send (.dma addr bytes)

/-- Descriptors of a ring. -/
def Consumer.ringSize (x : Consumer) : Nat := 2 ^ fld x.ctrl 20 16
/-- Descriptors posted and not yet filled. -/
def Consumer.posted (x : Consumer) : Nat := (x.tail + x.ringSize - x.head % x.ringSize) % x.ringSize

/-- The ring's buffer completes: STATUS, HEAD and BUF_DONE (R326). -/
def Hub.bufDone (h : Hub) (c : Nat) (flushed : Bool) : Hub :=
  let x := h.jrn.consumers.get c
  match x.buf with
  | none => h
  | some b =>
    let h := h.ringWrite (x.ringBase.toNat + 16 * x.head + 12) (b4 (2 ^ 31 + flag flushed 30 + b.used % 2 ^ 23))
    let h := h.setCons c { x with buf := none, head := (x.head + 1) % x.ringSize, status := setBit x.status 0 }
    h.edge (bit x.status 0) true (fld x.ctrl 11 8)

/-- Stream bytes go into the buffer at HEAD as far as it has room. -/
def Hub.bufPlace (h : Hub) (c : Nat) : Hub :=
  let x := h.jrn.consumers.get c
  match x.buf with
  | none => h
  | some b =>
    let n := min (b.len - b.used) x.stream.length
    let h := if n = 0 then h else h.ringWrite (b.addr + b.used) (x.stream.take n)
    let h := h.setCons c { x with
      stream := x.stream.drop n, buf := some { b with used := b.used + n, since := if b.used = 0 then h.xoCycles else b.since } }
    if b.len ≤ b.used + n then h.bufDone c false else h

/-- SYS.SPI_ERR.RING_ADDR (R471). -/
def Hub.ringBad (h : Hub) : Hub := { h with sys := { h.sys with spiErr := setBit h.sys.spiErr 3 } }

/-- The stream goes into the posted buffers, whose descriptors are read from HEAD on. -/
def Hub.ringFill (h : Hub) (c : Nat) : List (Nat × Nat) → Hub
  | [] => h.bufPlace c
  | d :: ds =>
    let h := h.bufPlace c
    let x := h.jrn.consumers.get c
    if x.stream.isEmpty || x.buf.isSome || x.posted == 0 then h
    else if h.sys.straps.hostSel && !inSpiWindow d.1 d.2 then h.ringBad
    else (h.setCons c { x with buf := some { addr := d.1, len := d.2, used := 0, since := h.xoCycles } }).ringFill c ds

/-- The descriptors from HEAD on, after the one whose buffer is being filled: those that the bus read returns, or those in the SPI delivery
window. -/
def Hub.ringDescs (h : Hub) (c : Nat) (descs : List (Nat × Nat)) : List (Nat × Nat) :=
  let x := h.jrn.consumers.get c
  let busy := if x.buf.isSome then 1 else 0
  if h.sys.straps.hostSel then
    ((List.range x.posted).drop busy).map fun i =>
      let w := (x.ringBase.toNat + 16 * ((x.head + i) % x.ringSize) - 0x140000) / 4
      (mask64 (h.host.spiWin.get w) (h.host.spiWin.get (w + 1)), (h.host.spiWin.get (w + 2)).toNat)
  else (descs.take x.posted).drop busy

/-- Delivery of what is in the stream to a host ring. -/
def Hub.ringGo (h : Hub) (c : Nat) (descs : List (Nat × Nat)) : Hub :=
  let x := h.jrn.consumers.get c
  if h.clk.held then h
  else if h.sys.straps.hostSel && !inSpiWindow x.ringBase.toNat (16 * x.ringSize) then (if x.stream.isEmpty then h else h.ringBad)
  else h.ringFill c (h.ringDescs c descs)

/-- FLUSH × 100 us, in XO cycles rounded up. -/
def Consumer.flushXo (x : Consumer) : Nat := ceilDiv (fld x.ctrl 7 0 * 49152) 10
/-- FLUSH × 100 us after a buffer's first byte, unless the ferry is held (R24, R326). -/
def ringFlushTimeout (c : Nat) (h : Hub) : Hub :=
  let x := h.jrn.consumers.get c
  if !h.clk.held && x.buf.any fun b => decide (0 < b.used) && h.passed (some b.since) x.flushXo then h.bufDone c true else h

/-! ## The network ferry (R328, R329) -/

/-- Stream bytes in flight. -/
def Hub.inFlight (h : Hub) : Nat := h.jrn.ferry.flight.foldl (fun a f => a + f.2.2) 0
/-- Bytes of the stream that a datagram carries. -/
def Hub.ferryMax (h : Hub) : Nat := if (h.cons 1).ipv6 then 1416 else 1436
/-- The ferry can send: it has a key and an active port, and its clock runs (R24, R521). -/
def Hub.ferryUp (h : Hub) : Bool := h.ferryKey.isSome && h.net.active.isSome && !h.clk.held

/-- Datagrams leave while WINDOW has room; `start` says that the next byte begins a record. -/
def Hub.ferryGo (h : Hub) (start : Bool) : Nat → Hub
  | 0 => h
  | k + 1 =>
    let x := h.jrn.consumers.get 1
    let n := min (min h.ferryMax x.stream.length) ((h.cons 1).window * 1024 - h.inFlight)
    if n = 0 ∨ !h.ferryUp then h
    else
      let f := h.jrn.ferry
      let fl := match f.flight.reverse with
        | (o, t, b) :: r => ((o, t, b + n) :: r).reverse
        | [] => []
      let flags := flag start 0 + flag f.restart 1
      let h := (h.setCons 1 { x with stream := x.stream.drop n })
      let h := { h with jrn := { h.jrn with ferry := { f with flight := fl, restart := false } } }
      (h.ferrySend 0 flags (x.stream.take n)).ferryGo false k

/-- Fuel enough for the stream. -/
def Hub.ferryFuel (h : Hub) : Nat := (h.jrn.consumers.get 1).stream.length

/-! ## The cascade stream (R420, R428) -/

/-- A record cut into the data of RECORD frames. -/
def chunks508 : Nat → List Byte → List (List Byte)
  | 0, _ => []
  | k + 1, b => if b.isEmpty then [] else b.take 508 :: chunks508 k (b.drop 508)
/-- RECORD frames of one record of this hub on port U. -/
def Hub.cascRecord (h : Hub) (b : List Byte) : Hub :=
  let cs := chunks508 (b.length / 508 + 1) b
  (cs.foldl (fun (a : Hub × Bool) c =>
    (a.1.cascSend 0 5 (b1 h.sys.straps.hubId ++ b1 (flag a.2 0) ++ [0, 0] ++ c), false)) (h, true)).1

/-! ## Offering (R322, R429, R430) -/

/-- The consumer takes records: enabled, with its ring, path or hop ready; the master's consumer 2 is not used. -/
def Hub.consReady (h : Hub) (c : Nat) : Bool :=
  (h.cons c).enable && !h.clk.held &&
  (if c = 1 then h.ferryUp && decide (h.inFlight < (h.cons 1).window * 1024)
   else if c = 2 then !h.isMaster && (h.cPort 0).st == .up && ((h.cPort 0).waiting.all fun f => f.origin != h.sys.straps.hubId)
   else bit (h.jrn.consumers.get c).ctrl 31 && (h.sys.straps.hostSel || (h.host.bme && !h.host.d3hot)))

/-- The next record of an origin for a consumer, with its ticket and its bytes in the stream. -/
def Hub.nextRecord (h : Hub) (c o : Nat) : Option (Nat × List Byte) :=
  let x := h.jrn.consumers.get c
  if o = h.sys.straps.hubId then
    match h.jrn.recs.find? (fun r => decide (x.next.get o ≤ r.ticket) && (h.cons c).selects r.type r.group) with
    | some r => if h.jrn.recs.any (fun q => q.isOpen && decide (q.ticket ≤ r.ticket)) then none else some (r.ticket, padMul 8 r.bytes)
    | none => none
  else if h.isMaster && (relayOf h.cfg.casc.relayCons).contains c then
    let rs := h.jrn.relay.filter fun r => r.origin == o && decide (x.next.get o ≤ r.ticket) && (h.cons c).selects r.type 255
    match rs with
    | [] => none
    | r :: t =>
      let m := t.foldl (fun (a b : RelayRec) => if b.ticket < a.ticket then b else a) r
      let pad : Rec := { ticket := 0, type := 0, flags := 0, group := 255, hub := o, version := 2, epoch := 0, t := 0, body := [],
                         block := none, isOpen := false, pages := [] }
      some (m.ticket, (if at_ m.bytes 1 1 = 1 then pad.bytes else []) ++ m.bytes)
  else none

/-- A closed record of origin `o` is offered to consumer `c` in ticket order when it has room; `descs` are the
descriptors (ADDR, LEN) that the hub reads from HEAD on in PCIe mode (R322). -/
def recordOffer (c o : Nat) (descs : List (Nat × Nat)) (h : Hub) : Hub :=
  let h := if c = 0 ∨ c = 3 then h.ringGo c descs else if c = 1 then h.ferryGo false h.ferryFuel else h
  let x := h.jrn.consumers.get c
  if h.consReady c && x.stream.isEmpty then
    match h.nextRecord c o with
    | none => h
    | some (t, b) =>
      let x := { x with next := x.next.put o (t + 1), offered := x.offered.put o (max (x.offered.get o) (t + 1)) }
      if c = 2 then ((h.setCons 2 x).cascRecord b)
      else
        let h := h.setCons c { x with stream := b }
        let h := if c = 1 then
            let f := h.jrn.ferry
            let h := { h with jrn := { h.jrn with ferry := { f with flight := f.flight ++ [(o, t, 0)], since := if f.flight.isEmpty then h.xoCycles else f.since } } }
            h.ferryGo true h.ferryFuel
          else h.ringGo c descs
        if o = h.sys.straps.hubId then h else h.relayPurge
  else h

/-! ## Acknowledgements (R323, R327, R329) -/

/-- An acknowledgement of consumer 1 frees the window. -/
def Hub.flightTrim (h : Hub) : Hub :=
  let x := h.jrn.consumers.get 1
  let f := h.jrn.ferry
  let fl := f.flight.filter fun e => decide (x.ackTo.get e.1 ≤ e.2.1)
  { h with jrn := { h.jrn with ferry := { f with flight := fl } } }

/-- FERRY_AUTH_FAIL (R329). -/
def Hub.ferryFail (h : Hub) : Hub :=
  ({ h with jrn := { h.jrn with ferry := { h.jrn.ferry with authFail := sat32 (h.jrn.ferry.authFail + 1) } } }).raiseLimited 76 []

/-- A datagram of KIND 1 arrives: the header, the plaintext that its ciphertext holds, and the ciphertext with its tag
(R328, R329). -/
def ferryAckReceive (header plain cipher : List Byte) (h : Hub) : Hub :=
  let ses := at_ header 8 4
  let seq := at_ header 12 8
  let f := h.jrn.ferry
  if h.clk.held ∨ header.length ≠ 20 ∨ at_ header 0 2 ≠ 0x4653 ∨ at_ header 2 1 ≠ 1 ∨ at_ header 3 1 ≠ 1 then h
  else if !h.ferryAuth header plain cipher || decide (seq < f.rxSeq.get ses) then h.ferryFail
  else
    let h := { h with jrn := { h.jrn with ferry := { f with rxSeq := f.rxSeq.put ses (seq + 1) } } }
    let before : Tab Nat := (h.jrn.consumers.get 1).ackTo
    let h := (List.range (plain.length / 16)).foldl (fun h i => h.ackFrom 1 (at_ plain (16 * i) 1) (at_ plain (16 * i + 8) 8)) h
    let h := if (h.jrn.consumers.get 1).ackTo == before then h
      else ({ h with net := { h.net with resends := 0 }, jrn := { h.jrn with ferry := { h.jrn.ferry with since := h.xoCycles } } }).noteCauses
    h.flightTrim.ferryGo false h.ferryFuel

/-- ACK_TIMEOUT with data outstanding and no advance: the ferry sends again from its reach plus 1 (R329, R443). -/
def ferryAckTimeout (h : Hub) : Hub :=
  if h.jrn.ferry.flight.isEmpty || h.clk.held || !h.passed (some h.jrn.ferry.since) ((h.cons 1).ackTimeout * 49152) then h
  else
    let h := h.restartConsumer 1
    ({ h with net := { h.net with resends := h.net.resends + 1 } }).noteCauses

/-- A write to a consumer's CTRL (R327). -/
def Hub.ferryCtrl (h : Hub) (c : Nat) (w : Word) : Hub :=
  let x := h.jrn.consumers.get c
  let v := w &&& 0x801F0FFF
  let h := h.setCons c { x with ctrl := v }
  if bit v 31 && !bit x.ctrl 31 && (c == 0 || c == 3) then h.restartConsumer c else h
/-- A write to TAIL (R326). -/
def Hub.ferryTail (h : Hub) (c : Nat) (w : Word) : Hub := h.setCons c { h.jrn.consumers.get c with tail := fld w 15 0 }
/-- A write to ACKh_LO and to ACKh_HI, which takes effect with it; RO for consumers 1 and 2 (R327). -/
def Hub.ferryAckLo (h : Hub) (c o : Nat) (w : Word) : Hub :=
  let x := h.jrn.consumers.get c
  if c = 0 ∨ c = 3 then h.setCons c { x with ackLo := x.ackLo.put o w } else h
def Hub.ferryAckHi (h : Hub) (c o : Nat) (w : Word) : Hub :=
  if c = 0 ∨ c = 3 then h.ackFrom c o (mask64 ((h.jrn.consumers.get c).ackLo.get o) w) else h

/-! ## CONSUMER_SET (R323, R342) -/

def consumerSet : CmdSpec where
  opcode := 0x0703
  len := lenIs 10
  bad := fun _ p =>
    let w := pw p 0
    let net := fld w 1 0 == 1
    badIf !(rsv w 0xC1FF0003 &&
      (if net then rsv (pw p 3) 0x8000FFFF && rsv (pw p 4) 0xFFFF && inR (fld (pw p 9) 31 16) 64 65535 && inR (fld (pw p 9) 15 0) 10 65535
       else (p.drop 3).all (· == 0)))
  run := fun h c =>
    let p := c.pl
    let n := fld (pw p 0) 1 0
    let old := h.cons n
    let k : ConsCfg := { enable := bit (pw p 0) 31, required := bit (pw p 0) 30, typeMask := fld (pw p 0) 24 16,
                         groupMask := mask64 (pw p 1) (pw p 2), ipv6 := bit (pw p 3) 31, dstPort := fld (pw p 3) 15 0,
                         srcPort := fld (pw p 4) 15 0, dst := (p.drop 5).take 4,
                         window := if n = 1 then fld (pw p 9) 31 16 else old.window,
                         ackTimeout := if n = 1 then fld (pw p 9) 15 0 else old.ackTimeout }
    let h := { h with cfg := { h.cfg with jrn := { h.cfg.jrn with consumers := h.cfg.jrn.consumers.put n k } } }
    let h := if (h.cons n).required && !old.required then h.requireMove n else h
    let h := if (h.cons n).enable && !old.enable then
        let h := h.restartConsumer n
        if n = 1 then h.newSession else h
      else h
    { hub := h.freePages.slMarks }

end Sys2Proof.Machine
end

