-- ==== Sys2Proof/Machine/Strobe.lean ====
section
/-!
DEFINITION. The frame strobe and what takes effect at it (R23, R221, R229 to R231, R245, R301, R556).
Changes that fall on one strobe apply in the order of `strobeBody` (log entry 17).
-/
namespace Sys2Proof.Machine

/-! ## The end of a group's acquisition (R301, R310) -/

/-- The channel brings no more output before the stop `s`. -/
def Hub.passedStop (h : Hub) (ch : Nat) (s : Nat × T64) : Bool :=
  let k := h.chain ch
  let before := fun (e : Nat) (t : T64) => !instLe s (e, t)
  !(k.stage.any fun o => before o.epoch o.t) &&
  (!k.running || decide (0 < epochDiff s.1 k.tsEpoch) || (isRemote ch && (h.lane ((ch - 128) / 32)).st != .up) || match h.geoOf ch with
    | some (_, g) =>
      k.tsEpoch == s.1 && if g.p.mode = 3 then k.order.placed.all fun o => !before o.epoch o.t else (frT s.2).le (g.outT k.nextOut)
    | none => true)

/-- The outputs that a channel on a time grid, whose next output is `n` of epoch `e`, has not brought up to the stop `s`: of each epoch
the first and the number after the last. -/
def Geo.unbrought (g : Geo) (s : Nat × T64) : List SyncPt → Nat → Nat → List (Nat × Nat × Nat)
  | [], e, n => if e = s.1 then [(e, n, g.firstOut (frT s.2))] else []
  | x :: r, e, n =>
    if e = s.1 then [(e, n, g.firstOut (frT s.2))]
    else match x.end_ with
      | some p => (e, n, g.firstOut (frCyc p)) :: g.unbrought s r x.epoch (g.firstOut (frCyc x.ts))
      | none => g.unbrought s r e n
/-- What a channel has not yet brought up to its group's stop is a GAP: its lane is still down (R408), or the group starts
again with other channels. Its cause is that of a per-lane reset or of counts that could not be mapped, retention exceeded otherwise. -/
def Hub.stopGap (h : Hub) (ch : Nat) (s : Nat × T64) : Hub :=
  match h.geoOf ch with
  | some (_, g) =>
    let k := h.chain ch
    let marked := k.inq.foldl (fun (a : Option (Nat × Nat)) x => if x.n = 0 then some (x.q / 256, x.q % 256) else a) k.hole
    let c := marked.getD (3, 0)
    if !k.running then h
    else if g.p.mode = 3 then
      (k.order.placed.filter fun o => !instLe s (o.epoch, o.t)).foldl (fun h o => h.gapInstant ch c.1 c.2 0 o.epoch o.t) h
    else (g.unbrought s k.syncs k.tsEpoch k.nextOut).foldl (fun h x =>
      if x.2.1 < x.2.2 then (h.gapInstant ch c.1 c.2 0 x.1 (g.outT x.2.1).toT).gapInstant ch c.1 c.2 0 x.1 (g.outT (x.2.2 - 1)).toT else h) h
  | none => h

/-- A digest interval of a channel that began before the stop `s` closes. -/
def Hub.digestStop (h : Hub) (ch : Nat) (s : Nat × T64) : Hub :=
  if (h.chain ch).digest.any fun a => instLe s ((h.chain ch).tsEpoch, a.first) then h else h.digestEmit ch true
/-- The oldest stopped run of a group closes: its last part, record, digests and episodes. -/
def Hub.runClose (h : Hub) (g : Nat) : Hub :=
  match (h.chg g).past with
  | [] => h
  | (_, s) :: r =>
    let cs := (h.grp g).chans
    let h := cs.foldl (fun (h : Hub) c => (h.stopGap c s).digestStop c s) h
    let h := h.partsAll g fun i => !instLe s i.key
    let h := (h.chg g).absent.foldl (fun h c => h.lateLand g c fun o => !instLe s (o.epoch, o.t)) h
    let h := if (h.chg g).cur.any fun c => instLe s (c.2.1, c.1) then h else h.blockClose g
    let h := cs.foldl (fun h c => (h.gapEnd c).refusalEnd c) (h.digestClose g)
    let x := h.chg g
    if r.isEmpty && !x.acquiring then h.setChg g { (default : ChgSt) with startReq := x.startReq, reqSince := x.reqSince }
    else h.setChg g { x with past := r, kept := if r.isEmpty then none else x.kept }

/-- A group's stopped runs that all its channels have passed close, oldest first. -/
def Hub.chgFinish (h : Hub) (g : Nat) : Hub :=
  (h.chg g).past.foldl (fun (h : Hub) p => if (h.grp g).chans.all fun c => h.passedStop c p.2 then h.runClose g else h) h
/-- Every stopped run of a group closes, with what has come of it. -/
def Hub.runsClose (h : Hub) (g : Nat) : Hub :=
  let h := (h.grp g).chans.foldl (fun (h : Hub) c => h.stageEmpty c) h
  (h.chg g).past.foldl (fun (h : Hub) _ => h.runClose g) h

/-- A slot's rate changes, or the slot is switched on or off: runs of its group that have stopped close with what has come, under the
settings that their counts had (R399; DEDUCED, log entry 112). -/
def Hub.slotTurn (h : Hub) (ch : Nat) : Hub :=
  if h.groupOf ch < 64 then h.runsClose (h.groupOf ch) else h
/-- STATUS SLOT_ACK answers SLOT_CFG (R391, R410). -/
def slSlotAckReceive (n : Nat) (intact : Bool) (f : List Byte) (h : Hub) : Hub :=
  if (h.lane n).st ≠ .up then h
  else
    let r := h.laneStatus n 2 12 intact f
    match r.2 with
    | none => r.1
    | some p =>
      let h := r.1
      let slot := at_ p 0 1
      let x := h.lane n
      if at_ p 2 2 ≠ 0 then h.laneViolation n 1 true
      else match x.slotReqs.find? (·.slot == slot) with
      | none => h
      | some q =>
        let h := h.setLane n { x with slotReqs := x.slotReqs.erase q }
        let ok := at_ p 1 1 == 0
        let h := if ok then
            let ch := 128 + 32 * n + slot
            let h := if h.cfg.slots.get (32 * n + slot) = { enable := q.enable, rate := q.rate } then h else h.slotTurn ch
            let h := { h with cfg := { h.cfg with slots := h.cfg.slots.put (32 * n + slot) { enable := q.enable, rate := q.rate } } }
            h.setChain ch { h.chain ch with d := signed 32 (at_ p 8 4) }
          else h
        h.complete q.handle (if ok then DONE else BAD_PARAM) [wd (at_ p 8 4), wd (at_ p 1 1)]

/-- The angle indexes of the outputs already placed at or after the start of acquisition: the pulses count from there (R132). -/
def Hub.orderStart (h : Hub) (ch : Nat) : Hub :=
  match h.chanCfg ch with
  | none => h
  | some c =>
    let k := h.chain ch
    let now := (h.tb.epoch, h.sampleT)
    let f := fun (o : Placed) => if instLe now (o.epoch, o.t) then { o with rev := 0, step := o.step % max 1 (c.spr / max 1 c.ppr) } else o
    h.setChain ch { k with order := { k.order with pulses := 0, rev := 0, placed := k.order.placed.map f } }
/-- A group starts at this strobe (R301, R314). The outputs of an earlier run still come and land. When CHG_SET has changed that run's
group, or it shares a channel with this one, it closes with what has come: the spec does not say how two groups share a channel's
outputs (DESIGN CHOICE, log entry 102). -/
def Hub.chgStart (h : Hub) (g : Nat) : Hub :=
  let cs := (h.cfg.jrn.groups.get g).chans
  if (h.chg g).acquiring then h.setChg g { h.chg g with startReq := false }
  else
    let h := (List.range 64).foldl (fun (h : Hub) q =>
      if (h.chg q).kept.any fun k => q == g || k.chans.any fun c => cs.contains c then h.runsClose q else h) h.tachDrain
    let x := if (h.chg g).past.isEmpty then default else h.chg g
    let h := h.setChg g { x with acquiring := true, start := h.sampleT, startEpoch := h.tb.epoch, startReq := false }
    let h := cs.foldl (fun (h : Hub) c => h.orderStart c) h
    let h := (cs.filter h.cal.lost.contains).foldl (fun (h : Hub) c => h.lostGap c h.sampleT) h
    h.landDescs [g] h.sampleT
/-- A group stops at this strobe. Every stamp before it has then been placed (R131). -/
def Hub.chgStop (h : Hub) (g : Nat) : Hub :=
  let h := h.tachDrain
  let x := { h.chg g with stopReq := false }
  if x.acquiring then
    (h.setChg g { x with acquiring := false, past := x.past ++ [((x.startEpoch, x.start), (h.tb.epoch, h.sampleT))] }).segsStopped (h.sampleT - 1)
  else h.setChg g x

/-- Every CHG_RUN that waits takes effect; a saved state follows (R301, R341, R553). -/
def Hub.chgStrobe (h : Hub) : Hub :=
  let all := List.range 64
  let h := all.foldl (fun h g => h.chgFinish g) h
  if !(all.any fun g => (h.chg g).startReq || (h.chg g).stopReq) then h
  else
    let h := all.foldl (fun h g => if (h.chg g).stopReq then h.chgStop g else h) h
    let h := all.foldl (fun h g => if (h.chg g).startReq then h.chgStart g else h) h
    (all.foldl (fun h g => h.chgFinish g) h).saveState none

/-! ## Chains at a strobe (R137, R147, R160) -/

/-- A channel is able to run its chain. -/
def Hub.ableChan (h : Hub) (ch : Nat) : Bool := h.chanEnabled ch && h.configured ch && !h.cal.lost.contains ch

/-- Chains start, stop and restart. -/
def Hub.chainStrobe (h : Hub) : Hub :=
  let ts := h.tb.total
  h.cfg.flt.chans.keys.foldl (fun h ch =>
    let k := h.chain ch
    let able := h.ableChan ch
    if able && !k.running then (h.setChain ch { k with was := none }).chainStart ch ts h.tb.epoch
    else if k.running && !able then h.setChain ch { k with running := false, was := none, restart := false }
    else if k.running && k.restart && !h.acquiring ch then h.tachDrain.chainRestart ch ts
    else if k.running && k.resync then (h.setChain ch { k with resync := false }).tachDrain.chainSync ch ts
    else h) h

/-- GAIN, OFFSET and table changes take effect from the first output at or after this strobe (R147). -/
def Hub.parStrobe (h : Hub) : Hub :=
  let now := h.sampleT
  h.cfg.flt.chans.keys.foldl (fun h ch =>
    let k := h.chain ch
    match k.parReq, h.chanCfg ch with
    | some _, some c =>
      let par : ChanPar := { gain := c.gain, offset := c.offset, linEn := c.linEn, linTable := c.linTable }
      let moved := k.syncs.foldl (fun (a : T64) s => a + s.step) 0
      let order := (h.geoOf ch).any fun x => x.2.p.mode == 3
      let h := h.setChain ch { k with parReq := none, parNext := k.parNext ++ [(par, now - moved, order)] }
      if order then h
      else
        let t := match h.geoOf ch with
          | some (_, g) => (g.outT (g.firstOut (frT now))).toT
          | none => now
        h.landDescPar ch (h.descBank ch) t par (h.cfg.jrn.desc.get ch)
    | _, _ => h) h

/-- Every FLT_SYNC that waits resets the named groups that are acquiring (R160). -/
def Hub.syncStrobe (h : Hub) : Hub :=
  let reqs := h.flt.sync
  reqs.foldl (fun h r =>
    let gs := (bitsOf r.mask 64).filter fun g => (h.chg g).acquiring
    let h := gs.foldl (fun h g => (h.cfg.jrn.groups.get g).chans.foldl (fun h ch => h.chainSync ch h.tb.total) h) h
    let m := maskOf gs
    h.complete r.handle DONE (tWords h.sampleT ++ [wd h.tb.epoch, lo32 m, hi32 m]))
    (if reqs.isEmpty then h else { h.tachDrain with flt := { h.tachDrain.flt with sync := [] } })

/-- Every current bank swap that has not begun reaches its swap instant (R122). -/
def Hub.swapStrobe (h : Hub) : Hub := (List.range 32).foldl (fun h p => h.swapStart p) h

/-- CHAN_DESC_SET lands its descriptors, one for each command (R347). -/
def Hub.descStrobe (h : Hub) : Hub :=
  let reqs := h.jrn.descReq
  reqs.foldl (fun h r => h.landDescPar r.1 (h.descBank r.1) h.sampleT (h.chain r.1).newPar r.2.2) { h with jrn := { h.jrn with descReq := [] } }

/-- Excitation changes take effect unless a visit to a bound position is in progress (R66). -/
def Hub.excStrobe (h : Hub) : Hub :=
  (List.range 8).foldl (fun h x => if (h.fe.exc.get x).pending.isEmpty || h.visitBound x then h else h.excApply x h.sampleT) h.excBlankOnly

/-- Scan periods that begin at this strobe (R59, R101). -/
def Hub.scanStrobe (h : Hub) : Hub :=
  (List.range 8).foldl (fun h m =>
    let d := (h.scanCfg m).div
    if d ≠ 0 ∧ h.tb.total / 15360 % d = 0 then h.scanPeriod m else h) h

/-! ## Per-block reset (R556) -/

/-- Inputs of a fast group are missing for 125 us and 64 modulator clocks. -/
def Hub.resetGroup (h : Hub) (g : Nat) : Hub :=
  let now := frCyc h.tb.total
  let end_ := now.add ((fr 1 8000).add (fr 64 6144000))
  (List.range 8).foldl (fun h i =>
    let ch := 8 * g + i
    match h.geoOf ch with
    | some (_, q) => h.missInputs ch (q.u0 now) (q.u0 end_) 2 1 0
    | none => h) h
/-- No visit is made up to the next scan period: the inputs of positions not yet visited are missing. -/
def Hub.resetScan (h : Hub) (m : Nat) : Hub :=
  let c := h.scanCfg m
  if c.div = 0 then h
  else
    let n := h.tb.total / 15360 / c.div
    let off := h.tb.total - n * c.div * 15360
    let chop := h.chopped m
    let h := { h with fe := { h.fe with period := h.fe.period.put m (n + 1) } }
    (scanStarts chop c.list 0).foldl (fun h e =>
      if n % 2 ^ e.1.divSel = 0 ∧ off ≤ (e.2 + visitLen (chop e.1.exc) e.1) * 5 then
        let i := n / 2 ^ e.1.divSel
        h.missInputs (64 + 8 * m + e.1.pos) i (i + 1) 2 1 0
      else h) h
/-- Every line is calibrated again and no stamp is taken meanwhile. -/
def Hub.resetTiu (h : Hub) : Hub :=
  (List.range 8).foldl (fun h i => h.tachBreak i) { h with tiu := { h.tiu with calAll := true, calLine := none, handover := none } }

/-- The block has restarted. -/
def Hub.blockDone (h : Hub) (b : BlockReset) (began : Nat) : Bool :=
  if b.block < 8 then decide (began + 2 ≤ h.tb.strobes)
  else if b.block < 16 then
    let m := b.block - 8
    (h.scanCfg m).div == 0 || decide (h.fe.period.get m ≤ h.tb.total / 15360 / (h.scanCfg m).div)
  else !h.tiu.calAll

/-- The per-block reset begins at its strobe and is answered at the first strobe by which the block has restarted. -/
def Hub.blockStrobe (h : Hub) : Hub :=
  match h.sys.blockReset with
  | none => h
  | some b =>
    match b.began with
    | none =>
      let h := { h with sys := { h.sys with blockReset := some { b with began := some h.tb.strobes } } }
      if b.block < 8 then h.resetGroup b.block else if b.block < 16 then h.resetScan (b.block - 8) else h.resetTiu
    | some s =>
      if h.blockDone b s then
        let h := { h with sys := { h.sys with blockReset := none } }
        if (h.host.mbs.get b.mb).state = .busy then
          (h.noteTag b.mb DONE b.tag).respond b.mb DONE 0 b.tag [] (bit ((h.host.mbs.get b.mb).cmd.get 0) 16)
        else h
      else h

/-! ## The strobe -/

/-- What takes effect at a frame strobe, TB_SAMPLE reading its instant. -/
def Hub.strobeBody (h : Hub) : Hub :=
  let tb := { h.tb with strobeXo := h.tb.xo, afterHold := false, loaded := false, dead := false }
  let h := { h with tb := { tb with strobes := h.tb.strobes + 1 },
                    fe := { h.fe with fast := h.cfg.fe.fast } }
  let h := h.frameChop.excStrobe
  let h := h.swapStrobe.parStrobe
  let h := h.chainStrobe.chgStrobe
  let h := h.syncStrobe.blockStrobe
  let h := h.segDue.armApply.segStrobe
  let h := h.scanStrobe.descStrobe
  h.cascAligns.cascMarks (h.tb.cnt / 15360)

/-! ## Changes of epoch (R192, R229 to R234, R240, R245) -/

/-- TIME cycles in units of 2^-32 s, rounded to nearest. -/
def cycToT (n : Int) : Int := roundDiv (n * 2 ^ 32) 122880000
/-- TIME cycles in ns, rounded to nearest. -/
def cycToNs (n : Nat) : Nat := (n * 1000000000 * 2 + 122880000) / (2 * 122880000)

/-- At P TB_SAMPLE is loaded with `total` and the epoch becomes `epoch`. `mark` lands the TIME MAP record from the old epoch and the
reading at P. With a dead span P itself is a strobe of the lanes alone, and the new epoch's first strobe is still to come (R229, R230). -/
def Hub.epochTurn (h : Hub) (total epoch : Nat) (origin : Bool) (mark : Hub → Nat → T64 → Hub) : Hub :=
  let h := h.tachDrain
  let old := h.tb.total
  let oldT := h.sampleT
  let oldEpoch := h.tb.epoch
  let by_ := if h.tb.dead then 1 else h.strobeStep
  let ts := ceilDiv total 15360 * 15360
  let step := cycT total - oldT
  let e := epoch % 65536
  let h := h.trigEpoch
  let h := (h.flt.ch.filter (·.2.running)).foldl (fun h c => h.chainEpoch c.1 old ts e step) h
  let h := (h.newEpoch epoch step origin).trigTurn oldEpoch oldT (cycT ts)
  let gates := h.tiu.gates.map fun (g : Gate) => { g with broken := true }
  let chains := h.flt.ch.mapAll fun _ (k : Chain) => { k with order := { k.order with last := k.order.last.map (· + step) } }
  let h := { h with tb := { (h.tb.load total) with refOff := h.tb.refOff - step, loaded := true, dead := true },
                    tiu := { h.tiu with gates := gates }, flt := { h.flt with ch := chains }, fe := { h.fe with period := [] },
                    casc := { h.casc with discont := true } }
  let h := ({ h with tb := h.tb.refreshCmp (· == 1) }).cmpPolicies
  let h := (mark h oldEpoch oldT).saveState none
  if ts = total then h.slStrobe by_ ts e (ts / 15360) true false (some old)
  else h.slStrobe by_ old oldEpoch (old / 15360) h.tb.afterHold true (some old)

/-- An epoch break at P (R229 to R231, R234). -/
def Hub.breakAt (h : Hub) (b : PendBreak) : Hub :=
  let e := h.breakEpoch b
  let h := h.epochTurn (Hub.breakTotal h.tb.total b) e.1 false fun h oldEpoch oldT =>
    let h := { h with tb := { h.tb with breaks := sat32 (h.tb.breaks + 1), lastBreak := h.sampleT } }
    (h.landTimeMap b.kind oldEpoch oldT h.sampleT h.tb.deadNs b.e (b.e - cycToT b.s)).raise 97 []
  if b.epoch.isSome && !e.2 then h.sendEpochReq e.1 else h
/-- The breaks that P executes: the first one decided, and while no dead span follows, the next (R241). -/
def Hub.breaksAt (h : Hub) : List PendBreak → Hub
  | [] => h
  | b :: r =>
    let h := { h with tb := { h.tb with pendBreak := r } }
    let h := if h.renumbered b then h else h.breakAt b
    if h.tb.cnt % 15360 = 0 then h.breaksAt r else h

/-- A TIME_SET reaches its P: an origin with any step (R232, R245). -/
def Hub.timeSetAt (h : Hub) (q : PendSet) : Hub :=
  let old := h.sampleT
  let was := h.tb.source
  let known := decide (q.unc ≠ 0xFFFFFFFF)
  let tb := if known then { h.tb with source := .holdover, awaiting := false, u0 := some q.unc, holdSince := h.xoCycles, taiUnknown := false }
            else { h.tb with u0 := none, taiUnknown := true }
  let total := q.seconds * 122880000 + q.strobe * 15360
  let h := { h with tb := { tb with pendSet := none, pendBreak := h.tb.pendBreak.filter fun b => h.isMaster && b.kind == 6, breakCnt := 0 } }
  let h := h.epochTurn total (h.tb.epoch + 1) true fun h oldEpoch oldT => h.landTimeMap 0 oldEpoch oldT h.sampleT h.tb.deadNs 0 0
  let h := if h.tb.source = was then h else h.sourceChanged
  let h := h.complete q.handle DONE (tWords old ++ tWords h.sampleT ++ [wd h.tb.epoch])
  h.landDescs ((List.range 64).filter fun g => (h.chg g).acquiring) h.sampleT

/-- The next frame strobe of the running epoch, or P where a new epoch begins: everything that acts at a frame strobe takes place
unless a dead span follows P (R221, R229, R230, R245). -/
def Hub.strobeOrTurn (h : Hub) : Hub :=
  if h.clk.held || !h.tb.started then h
  else
    let h := h.passTime h.tb.toStrobe
    let h := match h.tb.pendSet, h.tb.pendBreak with
      | some q, _ => h.timeSetAt q
      | none, b :: r => h.breaksAt (b :: r)
      | none, [] =>
        if h.tb.dead then h.slStrobe 1 h.tb.total h.tb.epoch (h.tb.total / 15360) true false none
        else h.slStrobe h.strobeStep h.tb.total h.tb.epoch (h.tb.total / 15360) h.tb.afterHold false (some h.tb.total)
    if h.tb.cnt % 15360 = 0 then h.strobeBody else h
/-- The next frame strobe: of the running epoch, or the first one of a new epoch (R221, R230). -/
def Hub.frameStrobe (h : Hub) : Hub :=
  let h := h.strobeOrTurn
  if h.tb.dead && h.tb.started && !h.clk.held then h.strobeOrTurn else h

/-! ## The rows -/

/-- The next strobe comes when something waits for it. -/
def Hub.strobeIf (h : Hub) (b : Bool) : Hub := if b then h.frameStrobe else h

def frameStrobeRow (h : Hub) : Hub := h.frameStrobe
/-- EPOCH_BREAK: P is reached; with a dead span the first strobe of the new epoch is still to come (R229, R230). -/
def epochBreak (h : Hub) : Hub := if !h.tb.pendBreak.isEmpty && h.tb.pendSet.isNone then h.strobeOrTurn else h
/-- TIME_SET_ORIGIN (R245). -/
def timeSetOrigin (h : Hub) : Hub := h.strobeIf h.tb.pendSet.isSome
/-- SYNC_APPLY (R160). -/
def syncApply (h : Hub) : Hub := h.strobeIf (!h.flt.sync.isEmpty)
/-- CHG_RUN_APPLY (R301). -/
def chgRunApply (h : Hub) : Hub := h.strobeIf (h.jrn.groups.any fun g => g.2.startReq || g.2.stopReq)
/-- TRG_ARM_APPLY (R196). -/
def trgArmApply (h : Hub) : Hub := h.strobeIf (!h.trg.arm.isEmpty)
/-- BANK_FADE_COMPLETE (R123). -/
def bankFadeComplete (p : Nat) (h : Hub) : Hub := h.swapComplete p
/-- BANK_SWAP_START (R122). -/
def bankSwapStart (h : Hub) : Hub := h.strobeIf (h.flt.swap.any fun s => s.2.cur.any fun c => !c.started)
/-- CHAN_PARAM_APPLY (R147). -/
def chanParamApply (h : Hub) : Hub := h.strobeIf (h.flt.ch.any fun c => c.2.parReq.isSome)
/-- CHAN_DESC_LAND (R347). -/
def chanDescLand (h : Hub) : Hub := h.strobeIf (!h.jrn.descReq.isEmpty)
/-- PER_BLOCK_RESET (R556). -/
def perBlockReset (h : Hub) : Hub := h.strobeIf h.sys.blockReset.isSome
/-- EXC_SWITCH: a change held back by a scan visit takes effect when the visit ends; another at its strobe (R66). -/
def excSwitch (x : Nat) (h : Hub) : Hub :=
  let e := h.fe.exc.get x
  if e.pending.isEmpty then h
  else if e.pending.any (fun p => decide (p.2.2 < h.tb.strobes)) && !h.clk.held && !h.visitBound x then h.excApply x h.sampleT
  else h.frameStrobe

end Sys2Proof.Machine
end

