-- ==== Sys2Proof/Machine/Control.lean ====
section
/-!
DEFINITION. Clock gates (R525, R526, R532), SYS_ABORT (R490, R498), supply warnings (R536) and the end of FOLLOW_MIN (R204).
-/
namespace Sys2Proof.Machine

/-! ## Clock gates (R525, R526, R532) -/

/-- The block behind a gate is in use. -/
def Hub.gateUsed (h : Hub) (n : Nat) : Bool :=
  if n < 16 then (h.laneCfg n).enable
  else if n < 18 then (h.cPortCfg (n - 16)).enable
  else if n < 20 then decide ((h.port (n - 18)).st ≠ .off)
  else if n < 28 then (List.range 8).any fun i => (h.fe.fast.get (8 * (n - 20) + i)).enable || (h.cfg.fe.fast.get (8 * (n - 20) + i)).enable
  else if n < 36 then !(h.scanCfg (n - 28)).list.isEmpty
  else (List.range 8).any (fun i => (h.tiuIn i).mode != 0) || (List.range 8).any fun u => (h.tiuUnit u).enable

/-- A command that enables a gated block opens its gate first. -/
def Hub.openUsed (h : Hub) : Hub := { h with clk := { h.clk with gates := h.clk.gates.filter fun n => !h.gateUsed n } }

/-- Adds a gate in ascending order. -/
def addGate (n : Nat) (l : List Nat) : List Nat := (l.filter fun m => decide (m < n)) ++ n :: l.filter fun m => decide (n < m)

/-- Response words of the gates that stayed open. -/
def stayedOpen (failed : List Nat) : List Word := let m := maskOf failed; [lo32 m, hi32 m]

def clkGateSet : CmdSpec where
  opcode := 0x0203
  len := lenIs 4
  bad := fun _ p =>
    let a := mask64 (pw p 0) (pw p 1)
    let b := mask64 (pw p 2) (pw p 3)
    badIf ((a &&& b) != 0 || decide (2 ^ 37 ≤ a) || decide (2 ^ 37 ≤ b))
  refuse := fun h c => refuseIf ((bitsOf (mask64 (pw c.pl 0) (pw c.pl 1)) 37).any h.gateUsed) BAD_STATE
  run := fun h c =>
    let close := (bitsOf (mask64 (pw c.pl 0) (pw c.pl 1)) 37).filter fun n => !h.clk.gates.contains n
    let open_ := bitsOf (mask64 (pw c.pl 2) (pw c.pl 3)) 37
    let h := { h with clk := { h.clk with gates := h.clk.gates.filter fun n => !open_.contains n } }
    if close.isEmpty then { hub := h, words := stayedOpen [] }
    else { hub := { h with clk := { h.clk with gateCmd := some { waiting := close, failed := [], mb := c.mb, tag := c.tag, since := h.xoCycles, sinceCyc := h.tb.cycles } } }, wait := true }

/-- A gate's handshake ends; the command is answered with the last one. -/
def Hub.gateSettle (h : Hub) (n : Nat) (failed : Bool) : Hub :=
  match h.clk.gateCmd with
  | none => h
  | some c =>
    let c := { c with waiting := c.waiting.filter (· != n), failed := if failed then addGate n c.failed else c.failed }
    if !c.waiting.isEmpty then { h with clk := { h.clk with gateCmd := some c } }
    else
      let h := { h with clk := { h.clk with gateCmd := none } }
      if (h.host.mbs.get c.mb).state = .busy then
        let st := if c.failed.isEmpty then DONE else HW_FAULT
        (h.noteTag c.mb st c.tag).respond c.mb st 0 c.tag (stayedOpen c.failed) (bit ((h.host.mbs.get c.mb).cmd.get 0) 16)
      else h
/-- The gate `n` is asked for quiescence, and its domain runs: the handshake of a held domain pauses (R525, R528). -/
def Hub.gateWaits (h : Hub) (n : Nat) : Bool := (h.clk.gateCmd.any fun c => c.waiting.contains n) && !(decide (20 ≤ n) && h.clk.held)
/-- 1,024 cycles of the gate's domain have passed since it was asked: of a lane's, a cascade port's or a network port's clock in XO
cycles, rounded up, and of CONV, SLOW or TIME in TIME cycles (R514, R525, R526). -/
def Hub.gateLate (h : Hub) (n : Nat) : Bool :=
  h.clk.gateCmd.any fun c =>
    if n < 20 then decide (c.since + (if n < 16 then 342 else if n < 18 then 171 else 403) ≤ h.xoCycles)
    else decide (c.sinceCyc + 1024 * (if n < 28 then 5 else if n < 36 then 40 else 1) ≤ h.tb.cycles)

/-- The block's bus is idle and the gate closes. -/
def gateQuiesceAccept (n : Nat) (h : Hub) : Hub :=
  if h.gateWaits n then ({ h with clk := { h.clk with gates := addGate n h.clk.gates } }).openUsed.gateSettle n false else h
/-- 1,024 cycles pass without quiescence: the gate stays open. -/
def gateQuiesceTimeout (n : Nat) (h : Hub) : Hub :=
  if h.gateWaits n && h.gateLate n then ((h.clkFault 7).raise 6 (b4 n)).gateSettle n true else h

/-! ## SYS_ABORT (R490, R498) -/

/-- What an abort does: none when the command has passed its point. -/
def Hub.abortFe (h : Hub) (hd : Nat) : Option Hub :=
  match (List.range 8).find? fun x => (h.fe.exc.get x).pending.any (·.2.1 == hd) with
  | none => none
  | some x =>
    let e := h.fe.exc.get x
    let left := e.pending.filter (·.2.1 != hd)
    let now := (left.getLast?.map (·.1)).getD e.drive
    let h := h.setExc x { e with pending := left }
    some ({ h with cfg := { h.cfg with fe := { h.cfg.fe with exc := h.cfg.fe.exc.put x now } } }.complete hd ABORTED [])

/-- The group that runs completes; the command's groups that have not started are dropped. -/
def Hub.abortCal (h : Hub) (hd : Nat) : Option Hub :=
  match h.cal.cmds.find? (·.handle == hd) with
  | none => none
  | some c =>
    let drop := c.left.filter fun g => !c.started.contains g
    let others := h.cal.cmds.filter (·.handle != hd)
    let gone := drop.filter fun g => !(others.any fun o => o.left.contains g)
    let f := fun (k : CalCmd) => if k.handle == hd then { k with left := k.left.filter k.started.contains, aborted := true } else k
    some ({ h with cal := { h.cal with cmds := h.cal.cmds.map f, pending := h.cal.pending.filter fun p => !(gone.contains p.1 && p.2 == 2) } }).calCmdsDone

/-- The pending swap request is removed. -/
def Hub.abortSwap (h : Hub) (hd : Nat) : Option Hub :=
  match (List.range 32).find? fun p => (h.flt.swap.get p).pend.any (·.2 == hd) with
  | none => none
  | some p => some ((h.setSwap p { h.flt.swap.get p with pend := none }).complete hd ABORTED [])

/-- No edge is labelled. -/
def Hub.abortRef (h : Hub) (hd : Nat) : Option Hub :=
  if h.tb.pendRef.any (·.handle == hd) then
    some ({ h with tb := { h.tb with pendRef := h.tb.pendRef.filter (·.handle != hd) } }.complete hd ABORTED [])
  else none

/-- The frame is not sent and its buffer is freed, until the guard of its launch starts (R262, R490). -/
def Hub.abortLaunch (h : Hub) (hd : Nat) : Option Hub :=
  match (List.range 2).find? fun p => (h.port p).launch.any (·.handle == hd) with
  | none => none
  | some p =>
    let x := h.port p
    match x.launch.find? (·.handle == hd) with
    | none => none
    | some l =>
      if (x.guarded || decide (h.launchLeft l ≤ (fr 12304 1000000000).t)) && (h.launchNext p).any (·.handle == hd) then none
      else
        let h := h.setPort p { x with launch := x.launch.filter (·.handle != hd) }
        some (((h.complete hd ABORTED (h.launchWords p l false false)).freeBuf l.buf).portDrain p)

/-- The gate stops. -/
def Hub.abortFreq (h : Hub) (hd : Nat) : Option Hub :=
  if h.tiu.gates.any (·.handle == hd) then
    some ({ h with tiu := { h.tiu with gates := h.tiu.gates.filter (·.handle != hd) } }.complete hd ABORTED [])
  else none

/-- The save slot is unchanged. -/
def Hub.abortSave (h : Hub) (hd : Nat) : Option Hub :=
  match (List.range 96).find? fun s => (h.stream s).saves.any (·.1 == hd) with
  | none => none
  | some s => some ((h.setStream s { h.stream s with saves := (h.stream s).saves.filter (·.1 != hd) }).complete hd ABORTED [])

/-- Result word 3 gives the values decoded so far, a free value up to the whole (log entry 18). -/
def Hub.abortCheck (h : Hub) (hd : Nat) : Option Hub :=
  match h.cod.checks.find? (·.handle == hd) with
  | none => none
  | some k =>
    let all := ((h.checkResult k).getD 3 0).toNat
    let n := (Config.freeValue h.free).toNat % (all + 1)
    some ({ h with free := h.free + 1, cod := { h.cod with checks := h.cod.checks.filter (·.handle != hd) } }.complete hd ABORTED [0, 0, 0, wd n])

/-- The measurement stops. -/
def Hub.abortFmc (h : Hub) (hd : Nat) : Option Hub := if h.clk.fmc.busy && h.clk.fmc.handle == hd then some h.fmcStop else none

/-- The effect of an abort on a command, by its opcode. -/
def Hub.abort (h : Hub) (hd opcode : Nat) : Option Hub :=
  if opcode = 0x0303 then h.abortFe hd
  else if opcode = 0x0403 then h.abortCal hd
  else if opcode = 0x0504 then h.abortSwap hd
  else if opcode = 0x0902 then h.abortRef hd
  else if opcode = netLaunch.opcode then h.abortLaunch hd
  else if opcode = tiuFreq.opcode then h.abortFreq hd
  else if opcode = 0x0804 then h.abortSave hd
  else if opcode = 0x0807 then h.abortCheck hd
  else if opcode = 0x0202 then h.abortFmc hd
  else none

def sysAbort : CmdSpec where
  opcode := 0x0104
  len := lenIs 1
  bad := fun _ p => badIf !(rsv (pw p 0) 0xFFFF)
  refuse := fun h c =>
    let hd := fld (pw c.pl 0) 15 0
    match h.slotOf hd with
    | none => some (HANDLE_UNKNOWN, [])
    | some x => refuseIf (x.done || (h.abort hd x.opcode).isNone) BAD_STATE
  run := fun h c =>
    let hd := fld (pw c.pl 0) 15 0
    match h.slotOf hd with
    | none => { hub := h }
    | some x => { hub := (h.abort hd x.opcode).getD h }

/-! ## Supplies and FOLLOW rules -/

/-- A supply has been outside its limits for 10 us (R536). -/
def supplyWarn (supply : Nat) (h : Hub) : Hub := h.raise 20 (b4 supply)

/-- FOLLOW_MIN has passed and every unit's comparison is 0 (R204). -/
def followMinExpiry (h : Hub) : Hub := if h.clk.held then h else h.actFollow h.unitHolds

end Sys2Proof.Machine
end

