-- ==== Sys2Proof/Machine/Restart.lean ====
section
/-!
DEFINITION. Resets that keep the journal in DRAM: the control reset and its firmware (R467, R491, R538, R545), the datapath
warm reset (R539), and entry to RETAIN (R546, R547).
-/
namespace Sys2Proof.Machine

/-! ## What is accepted lands (R33) -/

/-- Outputs that wait in the staging of R73 are released. -/
def Hub.stagesRelease (h : Hub) : Hub := h.flt.ch.keys.foldl (fun h ch => h.stageEmpty ch) h

/-- The chains of the channels that `f` selects stop. -/
def Hub.chainsStop (h : Hub) (f : Nat → Bool) : Hub :=
  { h with flt := { h.flt with ch := h.flt.ch.mapAll fun c k => if f c then { k with running := false } else k } }

/-- Everything that a group has accepted lands; channels that lag come LATE; `shut` closes the record too. -/
def Hub.groupShut (h : Hub) (g : Nat) (shut : Bool) : Hub :=
  let cs := (h.grp g).chans
  let h := cs.foldl (fun (h : Hub) c => h.digestEmit c true) h
  let h := h.partsAll g fun _ => true
  let x := h.chg g
  let is := h.stagedInsts g
  let lack := (h.live g).filter fun c => isRemote c && is.any fun i => !x.has c i && h.expects c i
  let h := (h.setChg g { x with absent := x.absent ++ lack, bounds := [] }).partsAll g fun _ => true
  let h := (h.chg g).absent.foldl (fun h c => h.lateLand g c fun _ => true) h
  (if shut then h.blockClose g else h).digestClose g

/-- Staging lands (R33): of the on-chip channels, or of every channel with `all`. -/
def Hub.landStaging (h : Hub) (all : Bool) : Hub :=
  let h := h.tachDrain.stagesRelease.chainsStop fun c => all || !isRemote c
  let h := (List.range 64).foldl (fun (h : Hub) g => if (h.chg g).lands then h.groupShut g all else h) h
  h.partsLand

/-- With ROOT stopped nothing more lands on entry to RETAIN but the parts that the DRAM controller has: the on-chip outputs in staging are
lost with the SRAM. Those before the place from which the GAP over the outage counts have one of their own (R39, R45, R546). -/
def Hub.stagingLost (h : Hub) : Hub :=
  h.partsLand.flt.ch.keys.foldl (fun (h : Hub) ch =>
    if isRemote ch then h
    else
      let k := h.chain ch
      let g := h.groupOf ch
      let mine := (h.chg g).staged.filter (·.ch == ch) ++ k.stage.filter (·.land)
      let h := (h.setChain ch { k with stage := [] }).setChg g { h.chg g with staged := (h.chg g).staged.filter (·.ch != ch) }
      mine.foldl (fun (h : Hub) o =>
        if o.epoch != h.tb.epoch || k.doneAt.any (fun d => instLe (o.epoch, o.t) d) then h.gapInstant ch 4 0 0 o.epoch o.t else h) h) h.partsLand

/-- An open record is cut to its committed length and closed (R319). -/
def Hub.truncated (h : Hub) (r : Rec) : Rec :=
  if r.isOpen then
    let head := match r.block with | some b => b.bytes h.tag | none => []
    { r with isOpen := false, block := none, flags := r.flags ||| 1, body := head ++ r.body }
  else r
/-- The index is rebuilt from the page headers and records, when that was asked for: what it holds is what they hold, and every open record
is cut and closed (R319, R320, R539). -/
def Hub.rebuild (h : Hub) : Hub :=
  if !h.jrn.rescan then h
  else
    let writers := h.jrn.writers.mapAll fun _ (w : Writer) => { w with openRec := none, fill := min 65536 ((w.fill + 7) / 8 * 8) }
    let open_ := (List.range 64).filter fun g => (h.chg g).cur.isSome
    let h := { h with jrn := { h.jrn with recs := h.jrn.recs.map h.truncated, writers := writers, rescan := false } }
    open_.foldl (fun (h : Hub) g => (h.setChg g { h.chg g with cur := none }).endStream g) h

/-! ## The GAP over an outage (R45, R313) -/

/-- The first output instant of a channel after what has landed or been declined, as T64; none without a running epoch. -/
def Hub.nextInst (h : Hub) (ch : Nat) : Option T64 :=
  let x := h.chg (h.groupOf ch)
  let k := h.chain ch
  let from_ := if x.startEpoch = h.tb.epoch then x.start else h.trg.epochStart
  let from_ := match k.doneAt with
    | some d => if d.1 = h.tb.epoch && tLt from_ (d.2 + 4) then d.2 + 4 else from_
    | none => from_
  match h.geoOf ch with
  | some (_, g) => if g.p.mode = 3 then some from_ else some (g.outT (g.firstOut (frT from_))).toT
  | none => none
/-- The last output instant of a channel before `t`. -/
def Hub.lastInst (h : Hub) (ch : Nat) (t : T64) : Option T64 :=
  match h.geoOf ch with
  | some (_, g) =>
    if g.p.mode = 3 then some (t - 1)
    else match g.firstOut (frT t) with
      | 0 => none
      | n + 1 => some (g.outT n).toT
  | none => none

/-- Outputs of earlier epochs that a remote channel has not brought: of each epoch the first and the last instant. -/
def Hub.oldSpans (h : Hub) (ch : Nat) (t : T64) : List (Nat × T64 × T64) :=
  match h.geoOf ch with
  | some (_, g) =>
    let k := h.chain ch
    let n := match k.doneAt with | some d => if d.1 = k.tsEpoch then g.firstOut (frT (d.2 + 4)) else k.outFrom | none => k.outFrom
    if !k.running || k.syncs.isEmpty || g.p.mode = 3 then []
    else (g.unbrought (h.tb.epoch, t) k.syncs k.tsEpoch n).filterMap fun x =>
      if x.1 ≠ h.tb.epoch ∧ x.2.1 < x.2.2 then some (x.1, (g.outT x.2.1).toT, (g.outT (x.2.2 - 1)).toT) else none
  | none => []
/-- The channels of a group that an outage leaves without outputs; a lost channel's OPEN GAP covers it already. -/
def Hub.outageChans (h : Hub) (f : Nat → Bool) (g : Nat) : List Nat :=
  (h.grp g).chans.filter fun c => f c && !h.cal.lost.contains c
/-- A GAP over the outputs of the channels that `f` selects before `t` of the current epoch: for each acquiring group one record for
each first instant, and one for each channel that lags in an earlier epoch. -/
def Hub.gapOutage (h : Hub) (f : Nat → Bool) (cause unc : Nat) (t : T64) : Hub :=
  (List.range 64).foldl (fun (h : Hub) g =>
    if !(h.chg g).acquiring then h
    else
      let cs := h.outageChans f g
      let h := cs.foldl (fun (h : Hub) c => (h.gapEnd c).refusalEnd c) h
      let h := cs.foldl (fun (h : Hub) c => (h.oldSpans c t).foldl (fun (h : Hub) s =>
        (h.landGap 6 cause 0 g unc s.1 s.2.1 s.2.2 [c]).chanDone c s.1 s.2.2 false) h) h
      let spans := cs.filterMap fun c => match h.nextInst c, h.lastInst c t with
        | some a, some b => if tLe a b then some (c, a, b) else none
        | _, _ => none
      let firsts := spans.foldl (fun (l : List T64) s => if l.contains s.2.1 then l else l ++ [s.2.1]) []
      let epoch := h.tb.epoch
      let h := firsts.foldl (fun (h : Hub) a =>
        let mine := spans.filter fun s => s.2.1 == a
        let last := mine.foldl (fun b s => if tLt b s.2.2 then s.2.2 else b) a
        h.landGap 6 cause 0 g unc epoch a last (mine.map (·.1))) h
      spans.foldl (fun (h : Hub) s => h.chanDone s.1 epoch s.2.2 false) h) h

/-! ## Datapath warm reset (R539) -/

/-- The blocks of the datapath are reset: what they hold beyond their configuration and their counters is lost. A declared sensor fault
goes too, with the T64 and epoch of the last declaration: the spec says only that the front end is reset (DESIGN CHOICE, log entry 66). -/
def Hub.datapathClear (h : Hub) (all : Bool) : Hub :=
  let clear := fun (k : Chain) =>
    ({ ({} : Chain) with par := k.par, parNext := k.parNext, parReq := k.parReq, doneAt := k.doneAt, fates := k.fates, d := k.d, slip := k.slip,
                         seenP := k.seenP, seenS := k.seenS, order := { ({} : OrderSt) with pulses := k.order.pulses, rev := k.order.rev } })
  let faults := h.fe.fault.mapAll fun _ f => ({ ({} : FaultSt) with excursions := f.excursions, declared := f.declared })
  let groups := h.jrn.groups.mapAll fun _ x =>
    let x := { x with staged := if all then [] else x.staged, absent := if all then [] else x.absent }
    { x with bounds := [], digest := [], digestRefused := false }
  { h with flt := { h.flt with ch := h.flt.ch.mapAll fun c k => if all || !isRemote c then clear k else k }
           fe := { h.fe with fault := faults, period := [] }
           jrn := { h.jrn with groups := groups } }

/-- Every started swap counts as passed by every channel; the target bank is active (R154). -/
def Hub.swapsPass (h : Hub) : Hub :=
  (List.range 32).foldl (fun (h : Hub) p =>
    if (h.flt.swap.get p).cur.any (·.started) then ((h.acquiringOf p).foldl (fun (h : Hub) ch => h.swapReset p ch) h).swapComplete p else h) h

/-- Acceptance stops at the next frame strobe and staging lands, then the datapath is reset (R539 steps 1 and 2). -/
def Hub.datapathStop (h : Hub) : Hub :=
  let h := h.frameStrobe.landStaging true
  let h := h.trigReset.calAbort
  let h := (List.range 8).foldl (fun (h : Hub) i => h.tachBreak i) h.tiuHold
  h.excOff.datapathClear true

/-- The chains of the channels able to run start at the present strobe (R137). -/
def Hub.chainsStart (h : Hub) (f : Nat → Bool) : Hub :=
  let ts := h.tb.total
  h.cfg.flt.chans.keys.foldl (fun (h : Hub) ch => if f ch && h.ableChan ch then h.chainStart ch ts h.tb.epoch else h) h

/-- What a restart does at its strobe t_s: excitation, chains, descriptors, triggers, calibration (R68, R107, R137, R192, R314). At a
recovery from STOPPED, through which the excitation stays on, it is restored all the same, as a switch: R523 has acquisition restart as
after a datapath warm reset and names no difference (DESIGN CHOICE, log entry 67). -/
def Hub.datapathStart (h : Hub) (f : Nat → Bool) : Hub :=
  let h := (h.excRestore h.sampleT).chainsStart f
  let h := h.swapsPass
  let h := h.landDescs ((List.range 64).filter fun g => (h.chg g).acquiring) h.sampleT
  let h := { h with trg := { h.trg with groups := h.trg.groups.mapAll fun _ x => { x with autoFrom := h.sampleT, autoDue := false } } }
  h.trigRestart.calWantAll

/-- A datapath warm reset is asked for: by RESET_CTRL, by SYS_RESET 1 ms ago, or by a rescan of the index (R320, R539, R556). -/
def Hub.warmAsked (h : Hub) : Bool :=
  h.sys.acq == .warmReset || (h.sys.acq == .running &&
    (h.jrn.rescan || (h.sys.pendingReset == some PendReset.datapath && decide (h.sys.resetDue ≤ h.xoCycles))))
/-- DATAPATH_WARM_RESET: carried out when it has been asked for while ACQ is RUNNING (R539). -/
def datapathWarmReset (h : Hub) : Hub :=
  if !h.warmAsked || h.clk.held || h.clk.stopped || !h.tb.started then h
  else
    let pend := if h.sys.pendingReset = some PendReset.datapath then none else h.sys.pendingReset
    let h := { h with sys := { h.sys with pendingReset := pend, resetCause := setBit h.sys.resetCause 6, acq := .warmReset } }
    let h := (h.raise 11 []).datapathStop.rebuild
    let h := h.frameStrobe
    let h := h.gapOutage (fun _ => true) 2 0 h.sampleT
    let h := (h.datapathStart fun _ => true).slMarks
    { h with sys := { h.sys with acq := .running } }

/-! ## The host link and the control reset (R467, R491, R538) -/

/-- The mailbox that waited for a job has been reset: the job runs on and answers nobody. -/
def OtpJob.unasked : OtpJob → OtpJob
  | .failSafe code _ tag => .failSafe code none tag
  | j => j
/-- Mailboxes to a state, their registers at their reset values; what a job's mailbox waited for ends unanswered (R467, R538). -/
def Hub.mailboxesTo (h : Hub) (f : Nat → MbState) : Hub :=
  let mb := fun (m : Nat) => let x := h.host.mbs.get m; ({ ({} : Mailbox) with cmd := x.cmd, resp := x.resp, state := f m })
  { h with host := { h.host with mbs := (List.range 8).foldl (fun t m => t.put m (mb m)) h.host.mbs, posted := [] }
           sto := { h.sto with otpJobs := h.sto.otpJobs.map OtpJob.unasked } }
/-- Mailboxes come to a state, their registers as they stand. -/
def Hub.mailboxesUp (h : Hub) (f : Nat → MbState) : Hub :=
  { h with host := { h.host with mbs := (List.range 8).foldl (fun t m => t.upd m fun (x : Mailbox) => { x with state := f m }) h.host.mbs } }
/-- Consumers 0 and 3 stop; delivery restarts from their acknowledgements (R325, R467). -/
def Hub.hostConsumersOff (h : Hub) : Hub :=
  [0, 3].foldl (fun (h : Hub) c =>
    let x := h.jrn.consumers.get c
    (h.setCons c { x with ctrl := w1c x.ctrl (wd (2 ^ 31)) }).restartConsumer c) h
/-- What R467 does beyond the mailboxes. -/
def Hub.hostLinkReset (h : Hub) : Hub :=
  let h := h.hostConsumersOff
  { h with host := { h.host with msix := [], pba := 0 } }

/-- A host link restart (R467). -/
def Hub.linkRestart (h : Hub) : Hub :=
  let st := fun (m : Nat) => if (h.host.mbs.get m).state = .offline then MbState.offline else .idle
  let h := (h.mailboxesTo st).hostLinkReset
  { h with sys := { h.sys with resetCause := setBit h.sys.resetCause 7 } }

/-- Commands that run on in hardware through a control reset (R491). -/
def runsOn (op : Nat) : Bool := op ∈ [0x0303, 0x0504, 0x0506, 0x0902, 0x0903, 0x090D, 0x0913, 0x0D03, 0x0202]

/-- The control reset, with its bit of RESET_CAUSE; ctrlResets counts since power-on (R491, R538, R593). In recovery no slot runs, and the
boot ROM comes up again (R541, R563). -/
def Hub.controlReset (h : Hub) (cause : Nat) : Hub :=
  let held := (List.range 256).filter fun s => let x := h.host.slots.get s; x.held && !x.done
  let block := h.sys.blockReset.map fun (b : BlockReset) => { b with mb := 8 }
  let gate := h.clk.gateCmd.map fun (c : GateCmd) => { c with mb := 8 }
  let sys := { h.sys with resetCause := setBit h.sys.resetCause cause, ctrlResets := sat32 (h.sys.ctrlResets + 1), blockReset := block }
  let pend := if h.sys.pendingReset = some PendReset.datapath ∨ h.sys.pendingReset = some PendReset.bootRestart then h.sys.pendingReset else none
  let sys := { sys with fwReady := false, pendingReset := pend }
  let slots := held.foldl (fun (t : Tab HSlot) s => t.upd s fun (x : HSlot) => { x with crossed := true }) h.host.slots
  let h := { h with sys := sys, host := { h.host with slots := slots }, clk := { h.clk with gateCmd := gate } }
  let h := (h.mailboxesTo fun _ => .offline).hostLinkReset
  let h := held.foldl (fun (h : Hub) s => if runsOn (h.host.slots.get s).opcode then h else h.complete (h.handleOf s) ABORTED []) h
  h.raise 10 []

/-- A slot switch by control reset: into the slot, with the trial it starts (R544, R563). -/
def Hub.slotSwitch (h : Hub) (b : Bool) (trialS : Option Nat) : Hub :=
  let since := trialS.map fun _ => h.xoCycles
  let sto := { h.sto with trial := trialS.isSome, trialArmed := trialS.isSome, trialAt := since, trialS := trialS.getD 0 }
  let h := { h with sys := { h.sys with slotB := b }, sto := sto }
  h.controlReset 5
/-- The hub reverts to the default slot (R545). -/
def Hub.trialRevert (h : Hub) : Hub :=
  let h := ({ h with sto := { h.sto with trialFailed := true } }).raise 17 []
  { h with sys := { h.sys with slotB := h.sto.defaultB }, sto := { h.sto with trial := false, trialArmed := false } }

/-- A lockstep mismatch or a watchdog expiry: its event, the control reset, and the end of an armed trial (R538, R545). -/
def Hub.controlFault (h : Hub) (ev cause : Nat) : Hub :=
  let h := h.raise ev []
  let h := if h.sto.trialArmed then h.trialRevert else h
  h.controlReset cause
def lockstepMismatch (h : Hub) : Hub := h.controlFault 3 2
def watchdogExpiry (h : Hub) : Hub := h.controlFault 4 3

/-- CONTROL_RESET: the reset that a command has asked for, 1 ms after it (R556, R563). -/
def controlResetRow (h : Hub) : Hub :=
  if h.xoCycles < h.sys.resetDue then h
  else match h.sys.pendingReset with
  | some (.control c) => h.controlReset c
  | some (.slotSwitch b t) => h.slotSwitch b t
  | _ => h

/-- TRIAL_REVERT: the trial firmware has not set FW_READY within 150 ms of its switch (R545). -/
def trialRevertRow (h : Hub) : Hub := if h.sto.trialArmed && !h.sys.fwReady && h.passed h.sto.trialAt 7372800 then h.trialRevert.controlReset 5 else h
/-- TRIAL_S passes (R545). -/
def trialSExpiry (h : Hub) : Hub :=
  if h.passed h.sto.trialAt (h.sto.trialS * 49152000) then { h with sto := { h.sto with trialArmed := false } } else h

/-- Recovery: the boot ROM brings MB7 alone to IDLE (R541). -/
def Hub.enterRecovery (h : Hub) : Hub :=
  let h := h.mailboxesUp fun m => if m = 7 then .idle else .offline
  { h with sys := { h.sys with recovery := true, fwReady := false } }

/-- Completions decided while FW_READY was 0 are written (R491). -/
def Hub.writeDeferred (h : Hub) : Hub :=
  let l := h.host.deferred
  l.foldl (fun (h : Hub) d => h.cqWrite d) { h with host := { h.host with deferred := [] } }

/-- The slot holds an image that may run: it is valid and its SEC_VER is at or above the counter (R542). -/
def Hub.fwFit (h : Hub) (b : Bool) : Bool := (h.slot b).valid && decide (h.sto.otp.rollback ≤ (h.slot b).secVer)
/-- The slot that runs after a reload: the running one when it passes the fast path or the full check, or the other (R542). -/
def Hub.fwPick (h : Hub) (c : FwCheck) : Option Bool :=
  if c.fast || (c.this && h.fwFit h.sys.slotB) then some h.sys.slotB else if c.other && h.fwFit !h.sys.slotB then some !h.sys.slotB else none
/-- The firmware reloads; a running slot that fails raises EV17, and a trial in it has reverted (R538, R542, R545). -/
def Hub.fwLoad (h : Hub) (c : FwCheck) : Hub :=
  let p := h.fwPick c
  let h := if p = some h.sys.slotB then h
    else ({ h with sto := { h.sto with trialFailed := h.sto.trialFailed || h.sto.trialArmed, trial := false, trialArmed := false } }).raise 17 []
  match p with
  | some b => ({ h with sys := { h.sys with slotB := b, fwReady := true } }).mailboxesUp fun _ => .idle
  | none => h.enterRecovery

/-- FIRMWARE_READY: the reloaded image passes the fast path, or the full check, or the other slot is tried (R538, R542); in recovery the boot
ROM brings MB7 alone to IDLE again (R541). -/
def firmwareReady (fastOk okThis okOther : Bool) (h : Hub) : Hub :=
  if h.sys.recovery then (if (h.host.mbs.get 7).state = .offline then h.enterRecovery else h)
  else if h.sys.fwReady || h.sys.bootStep8 || h.sys.acq == .boot then h
  else
    let h := h.fwLoad { fast := fastOk, this := okThis, other := okOther }
    if h.sys.fwReady then h.writeDeferred.calReview else h

/-! ## Entry to RETAIN (R546, R547, R555) -/

/-- Flash and self-test work in progress is lost with its handle: a slot under programming stays invalid (R489, R555). -/
def Hub.jobsLost (h : Hub) : Hub :=
  { h with sto := { h.sto with jobs := [], otpJobs := [], selftests := [] } }

/-- The 80 bytes of a servo snapshot; MASTER_ID in its standard byte order (R449). -/
def Snapshot.bytes (s : Snapshot) : List Byte :=
  let b := b4 0x4E505331 ++ b4 s.seq ++ b1 s.port ++ b1 (flag s.asymUnverified 0 + flag s.p2p 1) ++ b1 s.domain ++ b1 0 ++ b2 s.master.2 ++ b2 0 ++
    beBytes 8 s.master.1 ++ b8 s.inc ++ b4 (unsigned 32 s.steer) ++ b4 s.rms ++ b8 (unsigned 64 s.dB) ++ b4 (unsigned 32 s.asym) ++
    b2 s.dreqSeq ++ b2 s.pdreqSeq ++ bT s.loc ++ bT s.net ++ b4 0
  b ++ b4 (crc32c b).toNat
/-- The 256 bytes of the PFW record's flash page (R547); CONSUMED is programmed after the CRC, which
covers it as written; without a snapshot its field is zeros (DESIGN CHOICE, log entry 76). -/
def Pfw.bytes (p : Pfw) : List Byte :=
  let snap := match p.snap with | some s => s.bytes | none => List.replicate 80 0
  let b := fun (consumed : Nat) => b4 0x50465731 ++ b4 p.seq ++ b8 p.nextTicket ++ b8 (p.reach - 1) ++ b2 p.epoch ++ b1 (flag p.complete 0) ++
    b1 consumed ++ b4 0 ++ bT p.sample ++ bT p.loc ++ p.landed.flatMap b4 ++ snap ++ List.replicate 60 0
  b (if p.consumed then 0 else 255) ++ b4 (crc32c (b 255)).toNat
/-- The PFW record (R547). -/
def Hub.pfwRecord (h : Hub) (t0 : T64) (loc : T64) (complete : Bool) : Pfw :=
  { seq := h.sto.pfwCount + 1, nextTicket := h.jrn.nextTicket, reach := h.lowReach, epoch := h.tb.epoch, sample := t0, loc := loc,
    complete := complete, consumed := false, savedSeq := h.sto.saveSeq,
    landed := (List.range 16).map fun n => let x := h.lane n; x.landed.getD x.taken, snap := h.net.snap }

/-- PFW_WARNING: entry to RETAIN is committed; `complete` when the page program of the PFW record ends in time. -/
def pfwWarning (complete : Bool) (h : Hub) : Hub :=
  let t0 := h.sampleT
  let loc := h.localT
  let h := (h.raise 2 []).failSafeAll 6
  let h := if h.clk.held then h else h.frameStrobe
  let lands := h.clk.rootLock && h.tb.started
  let h := if lands then h.landStaging false else h.stagingLost.chainsStop fun c => !isRemote c
  let h := (List.range 16).foldl (fun (h : Hub) n => if (h.lane n).st = .up then h.sendLanded n false else h) h
  let h := (List.range 8).foldl (fun (h : Hub) i => h.tachBreak i) h.trigReset.calAbort.tiuHold
  let p := h.pfwRecord t0 loc complete
  let img := h.sto.jobs.any fun j => match j with | .image _ _ _ => true | _ => false
  let h := { h.jobsLost with sto := { h.jobsLost.sto with pfw := some p, pfwCount := p.seq, imageLost := img } }
  let h := h.excOff.datapathClear false
  { h with sys := { h.sys with power := .retain } }

end Sys2Proof.Machine
end

