-- ==== Sys2Proof/Machine/Hold.lean ====
section
/-!
DEFINITION. Loss and return of clocks: source monitors (R516 to R520), holds (R235, R521, R522, R524), STOPPED and the
recovery from it (R232, R523).
-/
namespace Sys2Proof.Machine

/-- TB_NET's modulus, its 96 bits (R230). -/
def netWrap : Nat := 79228162514264337593543950336

/-! ## Entry to STOPPED (R523) -/

/-- A lane that drops in STOPPED or RETAIN resumes after its landed mark: at the frame after it, or, where nothing has landed, at the first
that waits (R408). -/
def Hub.laneResume (h : Hub) (n : Nat) : Hub :=
  let x := h.lane n
  let e := match x.landed, x.open_ with
    | some m, _ => some ((m + 1) % 2 ^ 32)
    | none, f :: _ => some f.seq
    | none, [] => x.expect
  h.setLane n { x with open_ := [], expect := e, lastC := none }
/-- Sensor and cascade lanes drop. -/
def Hub.lanesDrop (h : Hub) : Hub :=
  let h := (List.range 16).foldl (fun (h : Hub) n =>
    let x := h.lane n
    if x.st = .up ∨ x.st = .training then (h.setLane n { x with st := .down }).laneResume n else h) h
  (List.range 2).foldl (fun (h : Hub) p =>
    let k := h.cPort p
    if k.st = .up ∨ k.st = .training then
      let h := h.cascBreak p
      h.setCPort p { h.cPort p with st := .down }
    else h) h
/-- Enabled lanes begin their bring-up. -/
def Hub.lanesStart (h : Hub) : Hub :=
  let h := (List.range 16).foldl (fun (h : Hub) n =>
    if (h.laneCfg n).enable && (h.lane n).st != .quarantined then
      (h.setLane n { h.lane n with attempts := 0 }).laneStart n else h) h
  (List.range 2).foldl (fun (h : Hub) p =>
    if (h.cPortCfg p).enable && (h.cPort p).st != .quarantined && (h.cPort p).st != .refused then
      (h.setCPort p { h.cPort p with attempts := 0 }).cascStart p else h) h

/-- Acquisition enters STOPPED: what was captured is taken on RC, outputs fail safe, lanes drop, triggers are cancelled. -/
def Hub.enterStopped (h : Hub) : Hub :=
  let h := { h with clk := { h.clk with stopped := true, held := true, relockAt := none, stops := sat32 (h.clk.stops + 1), muxCpu := 1 },
                    sys := { h.sys with acq := .stopped } }
  ((h.drainLatched.raise 8 []).failSafeAll 6).lanesDrop.trigReset

/-! ## Holds (R521) -/

/-- ROOT loses lock: with the gate open the hold begins, and the third loss within 1 s enters STOPPED at once. -/
def rootPllUnlock (h : Hub) : Hub :=
  if !h.clk.rootLock then h
  else if h.clk.held || h.clk.stopped || !h.clk.rootEver then { h with clk := { h.clk with rootLock := false } }
  else
    let now := h.xoCycles
    let h := (h.raise 1 []).clkFault 8
    let losses := now :: h.clk.unlocks.filter fun t => decide (now < 49152000 + t)
    let clk := { h.clk with rootLock := false, held := true, holds := sat32 (h.clk.holds + 1), unlocks := losses,
                            xoFailSpan := (h.clk.mon.get 0).failed }
    let tb := { h.tb with holdSample := (h.tb.sec, h.tb.cnt), holdNet := h.tb.net, holdLocal := h.tb.xo }
    let h := ({ h with clk := clk, tb := tb }).fmcCheck.tiuHold
    let h := (List.range 8).foldl (fun (h : Hub) i => h.tachBreak i) h
    if 3 ≤ losses.length then ({ h with clk := { h.clk with unlocks := [] } }).enterStopped else h

/-- The held span up to now in whole XO cycles (R223, R235). -/
def Hub.heldXo (h : Hub) : Nat := h.xoCycles - h.tb.holdLocal / 2 ^ 40
/-- TIME cycles that a held duration of `d` XO cycles stands for: scaled by 20 (1 + y) over ROOT's nominal ratio, in whole modulator
periods (R235). -/
def heldCycles (y : Int) (d : Nat) : Nat := 20 * (roundDiv ((d : Int) * 5 * (2 ^ 40 + y)) (2 * 2 ^ 40 * 20)).toNat

/-- UNC_NS of a span of `d` XO cycles measured on TB_LOCAL: 41 ns and the XO tolerance times its length, rounded up (R40, R522). -/
def Hub.heldUnc (h : Hub) (d : Nat) : Nat :=
  let tol := if h.clk.xoFailSpan || (h.clk.mon.get 0).failed then 20000 else h.cfg.clk.xoDecl
  41 + ceilDiv (d * tol * 100) 49152000

/-- Inputs of every chain are missing over a held span (R142); a remote chain that is still in an earlier epoch finds the span when it gets
there (R40). -/
def Hub.missHeld (h : Hub) (old new unc : Nat) : Hub :=
  h.cfg.flt.chans.keys.foldl (fun (h : Hub) ch =>
    match h.geoOf ch with
    | some (_, g) =>
      let k := h.chain ch
      if !k.running then h
      else if k.tsEpoch != h.tb.epoch then h.setChain ch { k with heldLater := k.heldLater ++ [(h.tb.epoch, old, new, unc)] }
      else
        let h := h.setChain ch (k.missHeld g (isFast ch) old new unc)
        match h.shadow ch with
        | some s => h.setShadow (s.missHeld g true old new unc)
        | none => h
    | none => h) h

/-- The held span is noted: LAST_HOLD and LAST_HOLD_NS (R522). -/
def Hub.noteHold (h : Hub) (d : Nat) : Hub :=
  let ns := (2 * d * 1000000000 + 49152000) / (2 * 49152000)
  { h with clk := { h.clk with lastHold := localT64 (h.tb.holdLocal / 2 ^ 40), lastHoldNs := sat32 ns } }

/-- The gate opens: the timebases are reloaded, inputs of the span are missing, and what waited goes on. The queued register
writes follow (R524). -/
def Hub.gateOpen (h : Hub) : Hub :=
  let d := h.heldXo
  let n := heldCycles h.tb.y d
  let unc := h.heldUnc d
  let old := h.tb.total
  let oldT := h.sampleT
  let tb := { h.tb.load (old + n) with net := (h.tb.net + n * h.tb.netInc) % netWrap, afterHold := true, loaded := true }
  let h := ({ h with tb := tb.refreshCmp (· != 2), clk := { h.clk with held := false, resumeEpoch := h.tb.epoch },
                     casc := { h.casc with discont := true } }).noteHold d
  let h := h.drainLatched.raise 7 []
  let h := if h.tb.started then (h.landTimeMap 5 h.tb.epoch oldT h.sampleT h.tb.deadNs 0 0).missHeld old (old + n) unc else h
  let h := (List.range 16).foldl (fun (h : Hub) n =>
    if (h.lane n).st = .up then ((h.sendTiming n).laneSend n 9 0 (b4 ((h.lane n).limit % 2 ^ 32))).laneNak n 0
    else if (h.lane n).st = .training ∧ (h.lane n).step = 9 then h.sendTiming n else h) h
  (h.provHeld (cycT n)).landUnlanded.resumeVerdict

/-- No relock within 200 us of the loss (R521, R523). -/
def holdTimeoutStop (h : Hub) : Hub :=
  let late := decide (h.tb.holdLocal * 5 + 49152 * 2 ^ 40 ≤ h.tb.xo * 5)
  if h.clk.held && !h.clk.stopped && !h.clk.rootLock && late then h.enterStopped else h

/-- In STOPPED a relock is attempted every 1 ms while XO is OK (R523); whether ROOT then locks is ROOT_PLL_LOCK's. -/
def stoppedRelockAttempt (h : Hub) : Hub :=
  let due := h.clk.relockAt.all fun t => decide (t + 49152 ≤ h.xoCycles)
  if h.clk.stopped && !h.clk.rootLock && (h.clk.mon.get 0).ok && due then { h with clk := { h.clk with relockAt := some h.xoCycles } } else h

/-! ## The restart after an outage (R45, R232) -/

/-- Acquisition runs, which carries out a datapath reset that was asked for (R45). -/
def SysSt.acquires (x : SysSt) : SysSt :=
  match x.pendingReset with
  | some .datapath => { x with acq := .running, pendingReset := none }
  | _ => { x with acq := .running }

/-- The end of an outage restart: the datapath starts at the first strobe and acquisition runs (R45, R523). -/
def Hub.outageDone (ts : Nat) (h : Hub) : Hub :=
  let h := { h with trg := { h.trg with epochStart := cycT ts } }
  let h := h.rebuild.frameStrobe.datapathStart fun c => !isRemote c
  { h with sys := h.sys.acquires }

/-- What an outage of `n` TB_SAMPLE cycles whose origin steps the time by `step` leaves broken (R229, R237). -/
def Hub.outageMarks (n : Nat) (step : T64) (h : Hub) : Hub :=
  let gates := h.tiu.gates.map fun (g : Gate) => { g with broken := true }
  let net := (h.tb.net + n * h.tb.netInc) % netWrap
  let off := h.tb.refOff + cycT n - step
  let tb := { h.tb with afterHold := true, refOff := off, net := net }
  let casc := { h.casc with discont := true }
  let fe := { h.fe with period := [] }
  { h with tiu := { h.tiu with gates := gates }, fe := fe, casc := casc, tb := tb }

/-- After RETAIN or STOPPED: a GAP over the outage of `out` XO cycles in the old epoch, an origin, and the restart at the first
strobe after it. Remote channels keep their chains, and their old-epoch samples still come (R408). -/
def Hub.outageRestart (h : Hub) (cause unc : Nat) (src : Option SrcReading) (out extra : Nat) (lost : Bool) : Hub :=
  let old := h.tb.total
  let oldT := h.sampleT
  let n := (out * 5 + 1) / 2
  let h := h.gapOutage (fun c => !isRemote c) cause unc (cycT (old + n))
  let h := h.outageOrigin src out extra lost
  let ts := h.nextMark
  let step := h.sampleT - oldT
  let far := (h.flt.ch.filter fun c => isRemote c.1 && c.2.running).map (·.1)
  let h := far.foldl (fun (h : Hub) c => h.chainEpoch c old ts h.tb.epoch step) h
  (h.outageMarks n step).cmpPolicies.outageDone ts

/-- Boot step 8's groups start with the strobe that comes next (R540). -/
def Hub.autostartGroups (h : Hub) : Hub :=
  let h := h.sys.autostart.foldl (fun (h : Hub) g =>
    if (h.chg g).acquiring then h else h.setChg g { h.chg g with startReq := true }) h
  { h with sys := { h.sys with autostart := [] } }

/-- The origin of a cold boot: a second after the saved one, without a source (R232). -/
def Hub.bootOrigin (h : Hub) : Hub :=
  let sec := match h.sto.saved with | some s => (s.sec + 1) % 2 ^ 32 | none => 0
  let ended := h.flt.endedAt
  let oldT := if h.tb.started then h.sampleT else cycT ended
  let h := { h with tb := { h.tb with source := .none, awaiting := false, y := 0, yMoves := [], yHist := [], slewing := false, u0 := none, taiUnknown := true } }
  let h := (h.noteY 0).startOrigin (sec * 122880000) oldT
  let ts := h.nextMark
  let far := (h.flt.ch.filter fun c => isRemote c.1 && c.2.running).map (·.1)
  let h := far.foldl (fun (h : Hub) c => h.chainEpoch c ended ts h.tb.epoch (h.sampleT - oldT)) h
  let h := { h with tb := { h.tb with afterHold := true, strobeXo := h.tb.xo }, trg := { h.trg with epochStart := cycT ts },
                    casc := { h.casc with discont := true } }
  let h := h.autostartGroups.frameStrobe.datapathStart fun c => !isRemote c
  { h with sys := { h.sys with acq := .running } }

/-- STOPPED_RECOVERY: ROOT has held lock for 10 ms (R523). -/
def stoppedRecovery (src : Option SrcReading) (h : Hub) : Hub :=
  if !h.clk.stopped || !h.clk.rootLock || h.sys.bootStep8 || h.xoCycles < h.clk.rootSince + 491520 then h
  else
    let d := h.heldXo
    let unc := h.heldUnc d
    let o := h.clk.outage.getD { cause := 1, extra := 0, lost := false }
    let h := { h with clk := { h.clk with stopped := false, held := false, muxCpu := 0, outage := none } }
    let h := if h.tb.started then
        let h := ((h.noteHold d).landStaging false).datapathClear false
        h.outageRestart o.cause (unc + o.extra) src d o.extra o.lost
      else h.bootOrigin
    let h := { h with clk := { h.clk with resumeEpoch := h.tb.epoch } }
    (h.landUnlanded.drainLatched.raise 9 []).lanesStart.resumeVerdict

/-! ## Source monitors (R516 to R518) -/

/-- The HOST mux is forced: FORCED_HOST, CLK_FORCED and a host link restart (R520). -/
def Hub.forceHost (h : Hub) (dest : Nat) : Hub :=
  let h := ({ h with clk := { h.clk with muxHost := dest } }).clkFault 6
  (h.raise 5 []).linkRestart

/-- A source has failed (R518). -/
def Hub.srcFail (h : Hub) (s : Nat) : Hub :=
  let h := h.clkFault s
  let data := b4 s ++ b4 (h.clk.mon.get s).count
  let spi := h.sys.straps.hostSel
  let h := if s = 0 then
      let h := (h.raise 0 data).failSafeAll 5
      let h := { h with clk := { h.clk with onRc := true, memLock := false, oscSeen := false } }
      let h := if spi then h.forceHost 2 else h
      rootPllUnlock h
    else if s = 1 ∨ s = 2 then (h.raise 0 data).failSafeAll 5
    else if s = 3 then h.forceHost 1
    else netLinkChange 1 false (netLinkChange 0 false h)
  h.fmcCheck

/-- A source is OK: the muxes that it allows (R516). -/
def Hub.srcOkNow (h : Hub) (s : Nat) : Hub :=
  let spi := h.sys.straps.hostSel
  if s = 0 then { h with clk := { h.clk with onRc := false, oscSeen := false, muxHost := if spi then 1 else h.clk.muxHost } }
  else if s = 3 ∧ !spi then { h with clk := { h.clk with muxHost := 0 } }
  else h

/-- CLK_MON_WINDOW: the window of source `s` ends with `count` edges. -/
def clkMonWindow (s count : Nat) (h : Hub) : Hub :=
  let m := h.clk.mon.get s
  if (s = 3 ∧ h.sys.straps.hostSel) ∨ (s = 0 ∧ h.clk.oscWait) then h
  else if s = 0 ∧ m.failed ∧ ¬ h.clk.oscSeen then
    let clk := { h.clk with mon := h.clk.mon.put 0 { m with count := count, oks := 0 } }
    if count = 0 then { h with clk := clk } else { h with clk := { clk with oscSeen := true, oscWait := true } }
  else
    let r := h.monWindow s count
    let was := m.ok
    let h := { h with clk := { h.clk with mon := h.clk.mon.put s r.1 } }
    if r.2.1 then h.srcFail s else if r.1.ok && !was then h.srcOkNow s else h

/-- CLK_STOP_DETECT: no edge of source `s` within its stop window. -/
def clkStopDetect (s : Nat) (h : Hub) : Hub :=
  let m := h.clk.mon.get s
  if (s = 3 ∧ h.sys.straps.hostSel) ∨ m.failed ∨ (s = 0 ∧ h.clk.oscWait) then h
  else ({ h with clk := { h.clk with mon := h.clk.mon.put s { m with ok := false, failed := true, oks := 0 } } }).srcFail s

/-- OSC_DELAY_EXPIRY: XO qualification begins (R516 step 3). -/
def oscDelayExpiry (h : Hub) : Hub := { h with clk := { h.clk with oscWait := false } }

/-- XO_START_TIMEOUT: 100 ms after the delay XO has not qualified; the boot ends on RC with acquisition STOPPED (R516). -/
def xoStartTimeout (h : Hub) : Hub :=
  let m := h.clk.mon.get 0
  if h.clk.rootEver || m.ok || h.clk.oscWait || h.clk.stopped then h
  else
    let h := ({ h with clk := { h.clk with mon := h.clk.mon.put 0 { m with failed := true, oks := 0 }, onRc := true, oscSeen := true } }).clkFault 0
    (h.raise 0 (b4 0 ++ b4 m.count)).enterStopped

/-- ROOT_PLL_LOCK: lock is declared (R513); the first one starts the divider chain and hands the processor to FAB (R514, R516). -/
def rootPllLock (h : Hub) : Hub :=
  if h.clk.rootLock || !(h.clk.mon.get 0).ok || h.clk.oscWait || (h.clk.stopped && h.clk.relockAt.isNone) then h
  else
    let cpu := if h.clk.stopped || h.clk.held then h.clk.muxCpu else 0
    { h with clk := { h.clk with rootLock := true, rootSince := h.xoCycles, memLock := true, rootEver := true, muxCpu := cpu } }

/-- MUX_FORCED_SWITCH: a mux forces its switch and its domain takes a local reset (R520); `host` for MX_HOST.
MX_CPU leaves RC for FAB only while ROOT is locked; what was captured while RC had failed is taken then (R528). -/
def muxForcedSwitch (host : Bool) (h : Hub) : Hub :=
  if host then h.forceHost (if h.clk.muxHost = 0 then 1 else if h.clk.muxHost = 1 then 2 else if h.sys.straps.hostSel then 1 else 0)
  else if h.clk.muxCpu = 1 ∧ ¬ h.clk.rootLock then h
  else
    let h := ({ h with clk := { h.clk with muxCpu := 1 - h.clk.muxCpu } }).clkFault 5
    (h.drainLatched.raise 5 []).controlReset 9

end Sys2Proof.Machine
end

