-- ==== Sys2Proof/Machine/Boot.lean ====
section
/-!
DEFINITION. Power-on reset and RESET_N (R223, R319, R505, R509, R537), the cold boot (R321, R540, R541, R551, R553) and the
resume from RETAIN (R549, R550).
-/
namespace Sys2Proof.Machine

/-! ## Resets (R537) -/

/-- What flash, OTP and the key store keep; what is lost with the processor's memory. -/
def StoSt.powerOff (s : StoSt) : StoSt :=
  { s with jobs := [], otpJobs := [], selftests := [], trial := false, trialArmed := false, trialFailed := false, nonce := none,
           unlocked := false, bootOverride := false, recVerified := none, imageLost := false, trialAt := none, trialS := 0, saveAt := 0, jtagFails := 0 }

/-- POWER_ON_RESET: the retention domain and the journal are lost. -/
def powerOnReset (h : Hub) : Hub :=
  { ({} : Hub) with sto := { h.sto.powerOff with fwStage := [] }, tx := h.tx, free := h.free }

/-- The restored configuration of remote channels is the one they run with, so that their chains go on (R319, R408). -/
def Hub.keepsRemote (h : Hub) : Bool :=
  h.sto.saved.any fun s => s.cfg.autostart && s.cfg.flt == h.cfg.flt && s.cfg.slots == h.cfg.slots && s.cfg.jrn.groups == h.cfg.jrn.groups

/-- A remote channel goes on over a reset, from the samples that its pod replays, with its group; not in ORDER mode, whose instants are lost
(R319). -/
def Hub.keepsChan (h : Hub) (ch : Nat) : Bool :=
  let g := h.groupOf ch
  h.keepsRemote && isRemote ch && (h.geoOf ch).any (fun q => q.2.p.mode != 3) &&
    (decide (64 ≤ g) || h.sto.saved.any fun s => s.acquiring.contains g)

/-- Consecutive outputs as spans: epoch, first and last instant; `cur` is the one under way. -/
def spansOf : Option (Nat × T64 × T64 × Nat) → List StOut → List (Nat × T64 × T64)
  | none, [] => []
  | some (e, a, b, _), [] => [(e, a, b)]
  | none, o :: r => spansOf (some (o.epoch, o.t, o.t, o.k)) r
  | some (e, a, b, k), o :: r =>
    if o.epoch = e ∧ o.k = k + 1 then spansOf (some (e, a, o.t, o.k)) r else (e, a, b) :: spansOf (some (o.epoch, o.t, o.t, o.k)) r
/-- What a channel has accepted that has not landed, oldest first: parts whose write has not completed, LATE records that wait, and outputs in
staging (R33). -/
def Hub.unlanded (h : Hub) (ch : Nat) : List (Nat × T64 × T64) :=
  let parts := (h.jrn.parts.filter fun p => p.block.chans.any fun c => c.1 == ch && c.2).map fun p => (p.epoch, p.firstT, p.lastT)
  let waits := (h.jrn.waiting.filter fun r => r.block.any fun b => b.chans.any (·.1 == ch)).map fun r =>
    (r.epoch, r.t, match (h.chain ch).doneAt with | some d => if d.1 = r.epoch then d.2 else r.t | none => r.t)
  let outs := (h.chg (h.groupOf ch)).staged.filter (·.ch == ch) ++ (h.chain ch).stage.filter (·.land)
  parts ++ waits ++ spansOf none outs
/-- The spans among those not landed that lie before the instant up to which the channel counts as done: a GAP has moved it past them. -/
def Hub.passedOver (h : Hub) (ch : Nat) : List (Nat × T64 × T64) :=
  match (h.chain ch).doneAt with
  | none => []
  | some d => (h.unlanded ch).filterMap fun s =>
      if !instLe (s.1, s.2.1) d then none else some (s.1, s.2.1, if s.1 = d.1 && tLt d.2 s.2.2 then d.2 else s.2.2)
/-- A remote channel that goes on replays what it has not landed, unless instants after that have been declined: those samples are then
recorded as never taken (R39, R41). -/
def Hub.replaysAll (h : Hub) (ch : Nat) : Bool :=
  match (h.unlanded ch).head? with
  | some u => !((h.chain ch).fates.any fun f => !f.landed && instLe (u.1, u.2.1) f.inst)
  | none => true
/-- Episodes over what a reset takes from the channels that it stops, and over what those that go on do not bring again: they are open in the
index and land at the recovery (R45, R313, R318). A lost channel has its OPEN record. -/
def Hub.resetEpisodes (h : Hub) (cause : Nat) : List Episode :=
  let cs := h.cfg.flt.chans.keys.filter fun c => !h.cal.lost.contains c && decide (h.groupOf c < 64)
  cs.flatMap fun c =>
    let ep := fun (s : Nat × T64 × T64) =>
      ({ cause := cause, detail := 0, chans := [c], epoch := s.1, first := s.2.1, last := s.2.2, unc := 0 } : Episode)
    if h.keepsChan c then (if h.replaysAll c then [] else (h.passedOver c).map ep)
    else if !(h.chg (h.groupOf c)).lands then []
    else
      let rest := if (h.chg (h.groupOf c)).acquiring then
          h.oldSpans c h.sampleT ++ match h.nextInst c, h.lastInst c h.sampleT with
            | some a, some b => if tLe a b then [(h.tb.epoch, a, b)] else []
            | _, _ => []
        else match (h.chg (h.groupOf c)).past.getLast? with
          | some (_, e, t) => (match h.nextInst c, h.lastInst c t with
            | some a, some b => if e = h.tb.epoch && tLe a b then [(e, a, b)] else []
            | _, _ => [])
          | none => []
      ((h.passedOver c) ++ rest).map ep

/-- The index, the journal and the acknowledgements as RESET_N leaves them (R318, R325). -/
def Hub.jrnKept (h : Hub) (cause : Nat) : JrnSt :=
  let j := h.jrn
  let keep := fun (g : Nat) (x : ChgSt) =>
    if h.keepsRemote && x.acquiring && h.sto.saved.any (·.acquiring.contains g) then
      ({ (default : ChgSt) with acquiring := true, start := x.start, startEpoch := x.startEpoch }) else default
  let writers := j.writers.mapAll fun _ (w : Writer) => { w with openRec := none, fill := min 65536 ((w.fill + 7) / 8 * 8) }
  { ({} : JrnSt) with
      total := j.total, pages := j.pages, writers := writers, recs := j.recs.map h.truncated, nextTicket := j.nextTicket, bound := j.bound
      ticketUnsaved := j.ticketUnsaved, state := j.state, degraded := j.degraded, dropped := j.dropped
      waiting := j.waiting.filter fun r => r.type = 5 || r.type = 6 || r.type = 7
      gaps := j.gaps ++ (if h.tb.started then h.resetEpisodes cause else []), refusals := j.refusals, groups := j.groups.mapAll keep
      consumers := j.consumers.mapAll fun _ (x : Consumer) => { x with next := x.ackTo, stream := [], buf := none }
      ferry := { j.ferry with flight := [], restart := true } }

/-- A remote channel's chain over RESET_N: it starts anew after the last instant that it has landed or declined, with the samples that the pod
replays, and the changes of epoch since then lie ahead of it (R319, R384, R408). -/
def Hub.chainKept (h : Hub) (ch : Nat) (k : Chain) : Chain :=
  match h.geoOf ch with
  | none => {}
  | some (_, g) =>
    let done := match (h.unlanded ch).head? with
      | some u => if h.replaysAll ch then some (u.1, u.2.1 - 1) else k.doneAt
      | none => k.doneAt
    let s := match done with
      | some d => if instLe (k.tsEpoch, cycT k.ts) d || d.1 ≠ k.tsEpoch && (h.unlanded ch).any (·.1 == d.1) then (d.1, cyclesOf d.2 + 1) else (k.tsEpoch, k.ts)
      | none => (k.tsEpoch, k.ts)
    let fresh : Chain := { par := k.par, parNext := k.parNext, doneAt := done, d := k.d, slip := k.slip, seenP := k.seenP, seenS := k.seenS }
    let later := h.tb.steps.filter fun e => decide (0 < epochDiff s.1 e.epoch)
    let syncs := later.map fun e => ({ end_ := some (cyclesOf e.ended), ts := cyclesOf (h.epochFirst e.epoch), epoch := e.epoch, step := e.step } : SyncPt)
    if k.running then { fresh.start g s.2 s.1 with syncs := syncs } else fresh
/-- The filter chain over RESET_N: the remote channels that go on, and the banks that are active after the swaps that were current (R154). -/
def Hub.fltKept (h : Hub) : FltSt :=
  let swapped := h.flt.swap.filterMap fun s => s.2.cur.map fun c => (s.1, if c.started then c.target else c.source)
  let ch := (h.flt.ch.filter fun c => h.keepsChan c.1).map fun c => (c.1, h.chainKept c.1 c.2)
  { ({} : FltSt) with ch := ch, swapped := swapped, endedAt := h.tb.total }
/-- Landed marks and what they rest on, and the serial they belong to (R397, R398, R403). A quarantined lane stays quarantined (R406). -/
def Lane.kept (x : Lane) : Lane :=
  { ({} : Lane) with landed := x.landed, taken := x.taken, expect := x.landed.map fun n => (n + 1) % 2 ^ 32, lastSerial := x.lastSerial
                     st := if x.st = .quarantined then .quarantined else .disabled }

/-- The partner serial that CASC_LINK_RESET alone clears (R433, R437). A quarantined port stays quarantined (R433). -/
def CascPort.kept (x : CascPort) : CascPort :=
  { ({} : CascPort) with partnerSerial := x.partnerSerial, st := if x.st = .quarantined then .quarantined else .disabled }

/-- The action outputs at RESET_N: provisional triggers end unlanded, assertions whose crossing instant is awaited take the linear one,
and every pin enters FAIL-SAFE (R210, R213). -/
def Hub.actReset (h : Hub) : Hub :=
  let early := (List.range 32).flatMap fun r => (h.actRule r).early.flatMap (·.waiting)
  let late := h.act.await.map fun (w : Nat × T64 × PinChange) => ({ w.2.2 with cross := h.crossNow w.1 } : PinChange)
  let h := early.foldl (fun (h : Hub) c => h.logChange c) { h with act := { h.act with unlanded := h.act.unlanded ++ late } }
  h.failSafeAll 6

/-- RESET_N_ASSERT: the retention domain is kept, the pins fail safe (R210, R537, R555). -/
def resetNAssert (h : Hub) : Hub :=
  let retain := h.sys.power == .retain || h.sys.power == .retainResetN
  let h := { h with sys := { h.sys with power := .reset } }
  let h := if h.tb.started then h.actReset else h
  let before := match h.net.active with | some p => p + 1 | none => h.net.before
  let lost := h.cal.grp.mapAll fun _ (g : CalGrp) => { (default : CalGrp) with noSpare := g.noSpare }
  let evt := { ({} : EvtSt) with log := h.evt.log, logNext := h.evt.logNext, logWritten := h.evt.logWritten, logMerged := h.evt.logMerged,
                                 lastLocal := h.evt.lastLocal }
  let g : Hub :=
    { sys := { ({} : SysSt) with straps := h.sys.straps, resetCause := 2, retentionLost := h.sys.retentionLost,
                                 power := if retain then .retainResetN else .reset }
      evt := evt
      tb := { ({} : TbSt) with epoch := h.tb.epoch }
      jrn := h.jrnKept (if retain then 4 else 2)
      sto := h.sto.powerOff
      act := { ({} : ActSt) with unlanded := h.act.unlanded }
      flt := h.fltKept
      cal := { ({} : CalSt) with lost := h.cal.lost, lostOpen := h.cal.lostOpen, mod := h.cal.mod, grp := lost }
      cod := { ({} : CodSt) with lost := h.cod.lost }
      tiu := { ({} : TiuSt) with line := h.tiu.line, lost := h.tiu.lost, noSpare := h.tiu.noSpare, failed := h.tiu.failed }
      net := { ({} : NetSt) with before := before, snap := h.net.snap, vseq := h.net.vseq }
      sl := { lanes := h.sl.lanes.mapAll fun _ x => x.kept, count := h.sl.count, map := h.sl.map }
      casc := { ports := h.casc.ports.mapAll fun _ x => x.kept }
      tx := h.tx
      free := h.free }
  (g.hostConsumersOff.skipOn 1).skipOn 2

/-! ## Cold boot (R540) -/

/-- Steps 1 to 3: straps are sampled, the RESET entry is written, and the clocks come up unless XO still has to qualify. -/
def Hub.bootClocks (h : Hub) (b : BootIn) : Hub :=
  let last := h.evt.lastLocal
  let codes := (List.range 16).foldl (fun (t : Tab Nat) k => t.put k (h.sto.otp.code k)) []
  let h := { h with sys := { h.sys with straps := b.straps, power := .run }, act := { h.act with codes := codes } }
  let h := h.logNow 0xF1 3 (b4 h.sys.resetCause.toNat ++ bT last)
  if b.xoOk then
    let xo : ClkMon := { ok := true, oks := 16 }
    let clk := { h.clk with mon := h.clk.mon.put 0 xo, rootLock := true, rootSince := h.xoCycles, memLock := true, rootEver := true, muxCpu := 0 }
    { h with clk := { clk with muxHost := if b.straps.hostSel then 1 else 2 } }
  else { h with clk := { h.clk with oscWait := true } }

/-- Step 4: the slot that boots and whether another had to be tried; none is recovery (R541, R542). -/
def Hub.bootSlot (h : Hub) (b : BootIn) : Option Bool × Bool :=
  let ok := fun (s : Bool) => (h.slot s).valid && decide (h.sto.otp.rollback ≤ (h.slot s).secVer) && (if s then b.okB else b.okA)
  let sel := if h.sto.bootOverride then 0 else h.sys.straps.bootSel
  let d := h.sto.defaultB
  if sel = 0 then
    if ok d then (some d, false) else if ok !d && !h.sto.bootOverride then (some !d, true) else (none, true)
  else if sel = 3 then (none, false)
  else if ok (sel == 2) then (some (sel == 2), false) else (none, false)

/-- The newest saved state, or what a hub without one has. -/
def Hub.savedOr (h : Hub) : Saved := h.sto.saved.getD {}

/-- Configuration, trims, asymmetry and retired pages of the saved state (R106, R256, R333, R553). The banks that swaps had made active at
RESET_N are active, the rings of the capture groups take their pages again, and streams configured at a level of 1 or more hold their
window slots (R154, R178, R350). -/
def Hub.restoreSaved (h : Hub) : Hub :=
  match h.sto.saved with
  | none => h
  | some s =>
    let active := h.flt.swapped.foldl (fun (t : Tab Nat) p => t.put p.1 p.2) s.cfg.flt.active
    let ports := s.rrAsym.foldl (fun (t : Tab Port) p => t.upd p.1 fun x => { x with ptp := { x.ptp with rrAsym := p.2 } }) h.net.ports
    let pages := s.retired.foldl (fun (t : Tab Page) p => t.upd p fun x => { x with retired := true }) h.jrn.pages
    let lost := h.sys.retentionLost
    let cfg := { s.cfg with flt := { s.cfg.flt with active := active } }
    let h := { h with cfg := cfg, flt := { h.flt with swapped := [] } }
    { h with cal := { h.cal with trim := s.trims }, jrn := { h.jrn with pages := pages, ringPages := h.ringTotal }
             tb := { h.tb with use := s.cfg.tb.src, epoch := if lost then s.epoch else h.tb.epoch }
             net := { h.net with ports := ports, vseq := if lost then s.vseq else h.net.vseq }
             cod := { h.cod with streams := (s.cfg.cod.streams.filter fun x => x.2.level != 0).foldl (fun (t : Tab CodStream) x => t.upd x.1 fun y => { y with window := true }) h.cod.streams }
             sys := { h.sys with autostart := if s.cfg.autostart then s.acquiring else [] } }

/-- The boot's write of a saved state: it is in flash before the boot goes on, after `fails` sectors that failed (R321, R554). -/
def Hub.bootSave (h : Hub) (s : Saved) (fails : Nat) : Hub :=
  let h := { h with sto := { h.sto with jobs := [.save s none] } }
  flashOperationDone true ((List.range fails).foldl (fun (h : Hub) _ => flashOperationDone false h) h)
/-- The next ticket and the reservation bound at a cold boot; the new bound is written first (R321). -/
def Hub.bootTickets (h : Hub) (fails : Nat) : Hub :=
  let s := h.savedOr
  let lost := h.sys.retentionLost
  let b := if lost then s.bound else max s.bound h.jrn.nextTicket
  let h := if h.sto.saveDisabled then h else h.bootSave { s with bound := b + 2 ^ 32 } fails
  if !h.sto.saveDisabled then { h with jrn := { h.jrn with nextTicket := b, bound := b + 2 ^ 32 } }
  else if lost then { h with jrn := { h.jrn with nextTicket := s.bound, bound := s.bound, ticketUnsaved := true } } else h

/-- The PFW record that R551 may use: unconsumed, complete and later than the saved state `s`. -/
def Hub.goodPfw (h : Hub) (s : Saved) : Option Pfw :=
  h.sto.pfw.filter fun p => p.complete && !p.consumed && decide (s.seq ≤ p.savedSeq)

/-- What is reported of a journal lost with the retention domain, by the saved state that the boot found (R551), and the GAP over the
outage (R45). Nothing that is left tells where in the old epoch the outage ended: the record starts and ends at the last instant known,
with an unknown uncertainty (DESIGN CHOICE, log entry 69). -/
def Hub.reportLost (h : Hub) (saved : Option Saved) : Hub :=
  let s := saved.getD {}
  let gs := s.acquiring
  match h.goodPfw s with
  | some p =>
    let h := { h with sto := { h.sto with pfw := some { p with consumed := true } } }
    let h := if p.reach < p.nextTicket then h.journalLost p.reach (p.nextTicket - 1) false else h
    gs.foldl (fun (h : Hub) g => h.landGap 6 4 0 g 0xFFFFFFFF p.epoch p.sample p.sample (h.grp g).chans) h
  | none =>
    let h := match saved with
      | some s => if s.reach < s.bound then h.journalLost s.reach (s.bound - 1) true else h
      | none => if h.sto.saveDisabled then h.journalLost 0 (2 ^ 63 - 1) true else h
    gs.foldl (fun (h : Hub) g => h.landGap 6 4 0 g 0xFFFFFFFF s.epoch s.t s.t (h.grp g).chans) h

/-- Pages held are checked: those that fail are lost, the others wait for the background check (R540, R550). -/
def Hub.checkPages (h : Hub) (bad : List Nat) : Hub :=
  let bad := if h.jrn.total = 0 then h.jrn.pages.keys else bad
  let h := bad.foldl (fun (h : Hub) p => h.losePage p) h
  { h with jrn := { h.jrn with pages := h.jrn.pages.mapAll fun _ p => { p with checked := p.checked && !p.used } } }

/-- Episodes that were open in the index land at the recovery (R313). -/
def Hub.episodesLand (h : Hub) : Hub :=
  let cs := (h.jrn.gaps ++ h.jrn.refusals).flatMap fun e => e.chans
  cs.foldl (fun (h : Hub) c => (h.gapEnd c).refusalEnd c) h

/-- Steps 5 to 7. Of the DRAM, 32 MiB are the system area and the rest is journal pages of 64 KiB (R302); JOURNAL_FLOOR is half the capacity
at first boot, before any saved state exists (R343). -/
def Hub.bootJournal (h : Hub) (b : BootIn) : Hub :=
  let saved := h.sto.saved
  let total := b.dram * 16 - 512
  let h := { h with jrn := { h.jrn with total := total } }
  let h := if saved.isNone then { h with cfg := { h.cfg with jrn := { h.cfg.jrn with floor := total / 2 } } } else h
  let h := h.restoreSaved.bootTickets b.saveFails
  let h := if h.sys.retentionLost then h.reportLost saved else ((h.checkPages b.badPages).loseRecs b.badRecs).episodesLand
  let h := h.tiuCalAll b.lineHits
  let h := b.badEngines.foldl (fun (h : Hub) e =>
    ({ h with cod := { h.cod with lost := if h.cod.lost.contains e then h.cod.lost else h.cod.lost ++ [e] } }).raise 66 (b1 e)) h
  { h with sys := { h.sys with bootStep8 := true, retentionLost := false } }

/-- Step 4 and what follows it. -/
def Hub.bootFirmware (h : Hub) (b : BootIn) : Hub :=
  let r := h.bootSlot b
  let h := { h with sys := { h.sys with recovery := false, pendingReset := none } }
  let h := if r.2 then h.raise 17 [] else h
  match r.1 with
  | some s =>
    let h := { h with sys := { h.sys with slotB := s } }
    if h.sys.acq = .boot then h.bootJournal b
    else (({ h with sys := { h.sys with fwReady := true } }).mailboxesUp fun _ => .idle).writeDeferred
  | none => ({ h with sto := { h.sto with recVerified := none } }).enterRecovery

/-- COLD_BOOT: from the release of reset, or from step 4 after a COMMIT in recovery (R540, R563). -/
def coldBoot (b : BootIn) (h : Hub) : Hub :=
  if h.sys.power = .reset ∨ h.sys.power = .retainResetN then (h.bootClocks b).bootFirmware b
  else if h.sys.power = .run ∧ h.sys.recovery ∧ h.sys.pendingReset = some .bootRestart then
    ({ h with sto := { h.sto with bootOverride := true } }).bootFirmware b
  else h

/-- The port that the ACTIVE role names at a start (R441). -/
def Hub.namedPort (h : Hub) : Nat :=
  if h.cfg.net.arbMode = 1 then flag h.net.arbSel 0 else if 0 < h.net.before then h.net.before - 1 else h.cfg.net.preferred

/-- Ports take their roles and the servo of the active one its start (R441, R450). -/
def Hub.portsStart (h : Hub) (snap : Bool) : Hub :=
  let n := h.namedPort
  let act := if (h.portCfg n).enable then some n else if (h.portCfg (otherPort n)).enable then some (otherPort n) else none
  let h := { h with net := { h.net with active := act, before := 0 } }
  (List.range 2).foldl (fun (h : Hub) p =>
    let h := h.setPort p { h.port p with held := none }
    if !(h.portCfg p).enable then h
    else if h.isActive p then
      let h := h.portTo p .active
      match h.net.snap with
      | some s => if snap && decide (h.snapAge ≤ 3600000) then h.servoLoad p s ((s.dreqSeq + 1) % 65536, (s.pdreqSeq + 1) % 65536) else h.servoFresh p
      | none => h.servoFresh p
    else (h.servoTo p .disabled).portTo p .testing) h

/-- BOOT_COMPLETE: step 8. FW_READY is set, ports and lanes come up, and TB_SAMPLE starts with the saved groups. -/
def bootComplete (arbSel : Bool) (h : Hub) : Hub :=
  if !h.sys.bootStep8 || !(h.clk.rootLock || h.clk.stopped) then h
  else
    let h := { h with sys := { h.sys with bootStep8 := false, fwReady := true }, net := { h.net with arbSel := arbSel } }
    let h := ((h.mailboxesUp fun _ => .idle).portsStart (!bit h.sys.resetCause 0)).ferryStart
    let h := if h.cfg.cal.ref.isNone then h.raise 36 [] else h
    if h.clk.stopped then { h with sys := { h.sys with acq := .stopped } }
    else if h.jrn.total = 0 then
      let h := ({ h with sys := { h.sys with autostart := [] } }).bootOrigin
      ({ h with sys := { h.sys with acq := .stopped } }).raise 8 []
    else h.lanesStart.bootOrigin.landUnlanded

/-! ## Resume from RETAIN (R549) -/

/-- Handles are lost with the commands that waited (R154, R489, R491); LAST_TAG is kept. -/
def Hub.handlesLost (h : Hub) : Hub :=
  let swap := h.flt.swap.mapAll fun _ s => ({ s with pend := none, cur := s.cur.filter (·.started) })
  let lanes := h.sl.lanes.mapAll fun _ (x : Lane) => ({ x with reset := [], slotReqs := [] })
  let cports := h.casc.ports.mapAll fun _ (x : CascPort) => ({ x with reset := [] })
  let ports := h.net.ports.mapAll fun _ (x : Port) => ({ x with launch := [], guarded := false, defer := [] })
  let tb := { h.tb with pendBreak := [], pendSet := none, pendRef := [] }
  let cod := { h.cod with checks := [], streams := h.cod.streams.mapAll fun _ s => { s with saves := [] } }
  { h with host := {}, tb := tb, flt := { h.flt with swap := swap, sync := [] }, cal := { h.cal with cmds := [] }
           sl := { h.sl with lanes := lanes }, casc := { h.casc with ports := cports }, trg := { h.trg with arm := [] }, cod := cod
           net := { h.net with ports := ports, verdict := none, heldVerdict := none, failover := none, queue := [], busy := [] } }

/-- The TIME registers return to their reset values at a resume (R242). -/
def TbSt.regsReset (t : TbSt) : TbSt :=
  { t with cmp := [], snap := {}, qPps := false, ppsGood := 0, ppsPin := none }

/-- Records that entry to RETAIN left open close before any new record opens (R310). -/
def Hub.recordsClose (h : Hub) : Hub := (List.range 64).foldl (fun (h : Hub) g => h.blockClose g) h

/-- Links are down until they train again; the port that was ACTIVE is named (R441). -/
def Hub.portsDrop (h : Hub) : Hub :=
  let ports := h.net.ports.mapAll fun _ (x : Port) =>
    { x with st := .off, link := false, linkSince := x.tests == 0, resolved := false, prbs := false, echoAt := none, resolve := none }
  { h with net := { h.net with ports := ports, before := (match h.net.active with | some p => p + 1 | none => 0), active := none, suspect := false, causes := 0 } }

/-- RETAIN_RESUME. What the resume drops costs no source its place: the origin starts from the source and the uncertainty of before the
outage (R232). -/
def retainResume (b : ResumeIn) (h : Hub) : Hub :=
  if h.sys.power ≠ .retain then h
  else
    let began := if h.clk.held then h.tb.holdLocal / 2 ^ 40 else h.xoCycles
    let stood := h.xoCycles - began
    let unc := if h.clk.held then h.heldUnc stood else 41
    let xo := h.tb.xo + b.aon * 1500 * 2 ^ 40
    let lost := (h.clk.mon.get 2).failed || h.clk.outage.any (·.lost)
    let ns := b.aon * 1000000000 / 32768
    let extra := ceilDiv (ns * 100) 1000000 + 30518 + (h.clk.outage.map (·.extra)).getD 0
    let sys := { h.sys with power := .run, resetCause := 256, fwReady := false, recovery := false, pendingReset := none, blockReset := none }
    let clk := { h.clk with held := false, stopped := false, rootLock := true, rootSince := xo / 2 ^ 40, memLock := true, rootEver := true, muxCpu := 0,
                            gateCmd := none, heldWrites := [], unlocks := [], outage := none, fmc := { h.clk.fmc with busy := false } }
    let h := { h with sys := sys, clk := clk, tb := { h.tb.regsReset with xo := xo, holdLocal := began * 2 ^ 40 } }
    let was := h.tb
    let h := { h with tb := { h.tb with source := .none } }
    let h := ((h.handlesLost.mailboxesTo fun _ => .offline).fwLoad b.fw).hostConsumersOff
    let h := b.badPages.foldl (fun (h : Hub) p => h.losePage p) h.recordsClose
    let h := { h.portsDrop with net := { h.portsDrop.net with arbSel := b.arbSel } }
    let h := (h.portsStart true).ferryStart
    let h := h.lanesDrop
    let h := { h with tb := { h.tb with source := was.source, netRms := was.netRms, cascUnc := was.cascUnc } }
    let h := if h.sto.imageLost then ({ h with sto := { h.sto with imageLost := false } }).raise 16 [] else h
    if !b.xoOk then
      let m := h.clk.mon.get 0
      let h := ({ h with clk := { h.clk with rootLock := false, memLock := false, onRc := true, mon := h.clk.mon.put 0 { m with ok := false, failed := true, oks := 0 } } }).clkFault 0
      let h := { h with clk := { h.clk with outage := some { cause := 4, extra := extra, lost := lost } } }
      ((h.raise 0 (b4 0 ++ b4 m.count)).raise 12 []).enterStopped
    else
      let h := if h.tb.started then h.outageRestart 4 (unc + extra) b.src (stood + b.aon * 1500) extra lost else h.bootOrigin
      let h := { h with clk := { h.clk with resumeEpoch := h.tb.epoch } }
      ((h.raise 12 []).lanesStart).landUnlanded

end Sys2Proof.Machine
end

