-- ==== Sys2Proof/Machine/Regs.lean ====
section
/-!
DEFINITION. The register space as the host sees it (R6 to R10, R242, R327, R338, R471 to R476, R487, R488, R504, R506, R524,
R529): what each address reads, and what a write of a whole word does.
-/
namespace Sys2Proof.Machine

/-! ## Reads -/

/-- ACQ of SYS.STATE (R475). -/
def Acq.code : Acq → Nat | .boot => 0 | .running => 1 | .stopped => 2 | .warmReset => 3
/-- STRAPS (R475). -/
def Straps.word (s : Straps) : Word := wd (s.hubId % 16 + flag s.cascMaster 4 + flag s.hostSel 5 + s.oscDly % 8 * 64 + s.bootSel % 4 * 512)
/-- SYS.STATE (R475). -/
def Hub.stateWord (h : Hub) : Word :=
  wd (h.sys.acq.code + flag h.sys.fwReady 8 + flag h.sys.recovery 9 + flag (h.sys.slotB && h.sys.fwReady) 10)
/-- MSI-X table words: message address, data, vector control (R472). -/
def MsixVec.word (v : MsixVec) (i : Nat) : Word :=
  if i = 0 then v.addrLo else if i = 1 then v.addrHi else if i = 2 then v.data else wd (flag v.masked 0)

/-- The SYS block, the MSI-X table and the PBA. -/
def Hub.readSys (h : Hub) (o : Nat) : Word :=
  if o = 0x00 then 0x53A10640 else if o = 0x04 then 0x00001FA7 else if o = 0x08 then Config.revision
  else if o = 0x0C then h.sys.straps.word else if o = 0x10 then h.stateWord else if o = 0x14 then h.sys.resetCause
  else if o = 0x1C then wd h.sys.ctrlResets else if o = 0x20 then h.sys.spiErr
  else if 0xE000 ≤ o ∧ o < 0xE100 then (h.host.msix.get ((o - 0xE000) / 16)).word (o / 4 % 4)
  else if o = 0xF000 then h.host.pba else 0

/-- The CLKS block (R529). -/
def Hub.readClks (h : Hub) (o : Nat) : Word :=
  if o = 0x00 then h.clkStatusWord else if o = 0x04 then h.clk.fault else if o = 0x08 then h.muxState
  else if o = 0x0C then h.gatesWord false else if o = 0x10 then h.gatesWord true
  else if 0x20 ≤ o ∧ o ≤ 0x30 then wd (h.clk.mon.get ((o - 0x20) / 4)).count
  else if o = 0x40 then wd h.clk.holds else if o = 0x44 then wd h.clk.stops
  else if o = 0x48 then lo32 h.clk.lastHold.toNat else if o = 0x4C then hi32 h.clk.lastHold.toNat else if o = 0x50 then wd h.clk.lastHoldNs
  else if o = 0x60 then lo32 h.clk.fmc.n else if o = 0x64 then hi32 h.clk.fmc.n else if o = 0x68 then h.fmcSel else 0

/-- The EVT block (R504). -/
def Hub.readEvt (h : Hub) (o : Nat) : Word :=
  if o < 0x400 then
    let b := o / 256
    let r := o % 256
    if r = 0 then h.evt.status.get b else if r = 4 then h.evEnable b else if r = 8 then h.evPending b
    else if 0x20 ≤ r ∧ r < 0x40 then
      let e := 32 * b + (r - 0x20)
      wd (h.evRoute e + h.evRoute (e + 1) * 2 ^ 8 + h.evRoute (e + 2) * 2 ^ 16 + h.evRoute (e + 3) * 2 ^ 24)
    else 0
  else if o = 0x400 then
    wd (flag (h.evPending 0 != 0) 0 + flag (h.evPending 1 != 0) 1 + flag (h.evPending 2 != 0) 2 + flag (h.evPending 3 != 0) 3 + flag h.alert 8)
  else if o = 0x800 then wd h.evt.logNext else if o = 0x804 then h.logOldest else if o = 0x808 then wd h.evt.logMerged
  else if 0x1000 ≤ o ∧ o < 0x1200 then h.evt.count.get ((o - 0x1000) / 4) else 0

/-- The words of a compare unit. -/
def Cmp.word (c : Cmp) (i : Nat) : Word :=
  if i = 0 then c.ctrl else if i = 1 then c.status else if i = 2 then lo32 c.target.toNat else if i = 3 then hi32 c.target.toNat
  else if i = 4 then lo32 c.period.toNat else if i = 5 then hi32 c.period.toNat else if i = 6 then lo32 c.fired.toNat else hi32 c.fired.toNat

/-- The TIME block (R242). -/
def Hub.readTime (h : Hub) (o : Nat) : Word :=
  let s := h.tb.snap
  if o = 0x04 then h.timeStatus else if o = 0x08 then wd h.tb.epoch
  else if o = 0x10 then lo32 s.net.toNat else if o = 0x14 then hi32 s.net.toNat
  else if o = 0x18 then lo32 s.sample.toNat else if o = 0x1C then hi32 s.sample.toNat
  else if o = 0x20 then lo32 s.loc.toNat else if o = 0x24 then hi32 s.loc.toNat
  else if o = 0x28 then lo32 s.ref.toNat else if o = 0x2C then hi32 s.ref.toNat
  else if o = 0x30 then s.word else if o = 0x34 then wdInt h.tb.y else if o = 0x38 then wd h.uncWord
  else if 0x100 ≤ o ∧ o < 0x200 then (h.tb.cmp.get ((o - 0x100) / 32)).word (o / 4 % 8) else 0

/-- MB_STATE's STATE (R476). -/
def MbState.code : MbState → Nat | .idle => 0 | .posted => 1 | .busy => 2 | .ready => 3 | .offline => 4
/-- A mailbox's window (R476). -/
def Hub.readMbx (h : Hub) (o : Nat) : Word :=
  let x := h.host.mbs.get (o / 4096)
  let r := o % 4096
  if r < 0x200 then x.cmd.get (r / 4) else if r < 0x400 then x.resp.get ((r - 0x200) / 4)
  else if r = 0x408 then wd (x.state.code + x.taken * 256) else if r = 0x40C then x.ctrl else if r = 0x410 then x.status else 0

/-- The CQ block (R487, R488). -/
def Hub.readCq (h : Hub) (o : Nat) : Word :=
  if o < 0x2000 then h.host.cq.get (o / 4)
  else if 0x4000 ≤ o ∧ o < 0x8000 then pw (h.host.slots.get ((o - 0x4000) / 64)).result (o / 4 % 16)
  else if o = 0x8000 then wd h.host.cqWr else if o = 0x8004 then wd h.host.cqRd else if o = 0x8008 then h.host.cqCtrl
  else if o = 0x800C then h.host.cqStatus else if o = 0x8010 then wd (h.slotsFree 7 + h.slotsFree 0 * 65536) else 0

/-- The FERRY block and the SPI delivery window (R327, R471). -/
def Hub.readFerry (h : Hub) (o : Nat) : Word :=
  if o < 0x400 then
    let c := o / 256
    let x := h.jrn.consumers.get c
    let r := o % 256
    let off := x.offered.get h.sys.straps.hubId - 1
    if r = 0 then x.ctrl else if r = 4 then x.status else if r = 8 then lo32 x.ringBase.toNat else if r = 0xC then hi32 x.ringBase.toNat
    else if r = 0x10 then wd x.tail else if r = 0x14 then wd x.head else if r = 0x18 then lo32 off else if r = 0x1C then hi32 off
    else if r = 0x20 then wd x.skipped else if r = 0x24 then wd (h.lagPages c)
    else if 0x80 ≤ r then
      let a := x.ackTo.get ((r - 0x80) / 8) - 1
      if r / 4 % 2 = 0 then lo32 a else hi32 a
    else 0
  else if o = 0x1000 then wd h.capacity else if o = 0x1004 then wd h.jFree else if o = 0x1008 then wd h.retiredPages.length
  else if o = 0x100C then h.jState else if o = 0x1010 then lo32 h.jrn.nextTicket else if o = 0x1014 then hi32 h.jrn.nextTicket
  else if o = 0x1018 then lo32 h.jReach else if o = 0x101C then hi32 h.jReach
  else if 0x40000 ≤ o ∧ h.sys.straps.hostSel then h.host.spiWin.get ((o - 0x40000) / 4) else 0

/-- A live queue's window (R338). -/
def Hub.readLive (h : Hub) (o : Nat) : Word :=
  let q := h.jrn.live.get (o / 0x8000)
  let r := o % 0x8000
  if r < 0x7000 then q.words.get (r / 4) else if r = 0x7000 then wd q.wr else if r = 0x7004 then wd q.oldest else if r = 0x7008 then q.rd
  else if r = 0x700C then wd q.lost else if r = 0x7014 then q.status else 0

/-- The 32 bytes of a log entry (R506). -/
def LogEntry.bytes (e : LogEntry) : List Byte := bT e.t ++ b2 e.epoch ++ b1 e.event ++ b1 e.severity ++ b4 e.seq ++ padTo 16 e.data
/-- The LOG window. -/
def Hub.readLog (h : Hub) (o : Nat) : Word :=
  if h.evt.logWritten ≤ o / 32 then 0 else (wordsOf 8 (h.evt.log.get (o / 32)).bytes).getD (o / 4 % 8) 0

/-- The register or memory word at a word-aligned address of BAR0; an address that no block defines reads 0 (R7). -/
def Hub.regRead (h : Hub) (a : Nat) : Word :=
  let b := a / 65536
  let o := a % 65536
  if b = 0 then h.readSys o else if b = 1 then h.readClks o else if b = 2 then h.readEvt o else if b = 3 then h.readTime o
  else if b = 4 ∧ o < 0x8000 then h.readMbx o else if b = 8 then h.readCq o
  else if 0x10 ≤ b ∧ b < 0x18 then h.readFerry (a - 0x100000) else if 0x18 ≤ b ∧ b < 0x20 then h.readLive (a - 0x180000)
  else if 0x20 ≤ b ∧ b < 0x22 then h.readLog (a - 0x200000) else 0

/-- The hub as its held blocks show it: at the gate; SYS, CLKS and TIME_STATUS.HELD are live (R524). -/
def Hub.atGate (h : Hub) : Hub := if h.clk.held && h.tb.started then { h with tb := { h.tb with xo := h.tb.holdLocal } } else h
/-- A host read of a word with its effect: an RC field clears (R8, R10). -/
def Hub.hostRead (h : Hub) (a : Nat) : Word × Hub :=
  let w := if a / 65536 < 2 then h.regRead a else h.atGate.regRead a
  let o := a - 0x180000
  if 0x180000 ≤ a ∧ a < 0x200000 ∧ o % 0x8000 = 0x700C then
    let q := o / 0x8000
    (w, h.setLive q { h.jrn.live.get q with lost := 0 })
  else (w, h)

/-! ## Writes -/

/-- Requests by RESET_CTRL (R475, R539). -/
def Hub.resetCtrl (h : Hub) (w : Word) : Hub :=
  if fld w 31 16 ≠ 0xA5C3 then h
  else if fld w 1 0 = 1 then h.controlReset 4
  else if fld w 1 0 = 2 ∧ h.sys.acq = .running then { h with sys := { h.sys with acq := .warmReset } }
  else h

/-- A write to the MSI-X table; unmasking sends what is pending (R472). -/
def Hub.msixWrite (h : Hub) (v i : Nat) (w : Word) : Hub :=
  let x := h.host.msix.get v
  let x := if i = 0 then { x with addrLo := w } else if i = 1 then { x with addrHi := w } else if i = 2 then { x with data := w }
           else { x with masked := bit w 0 }
  ({ h with host := { h.host with msix := h.host.msix.put v x } }).flushPending

def Hub.writeSys (h : Hub) (o : Nat) (w : Word) : Hub :=
  if o = 0x14 then { h with sys := { h.sys with resetCause := w1c h.sys.resetCause w } }
  else if o = 0x18 then h.resetCtrl w
  else if o = 0x20 then { h with sys := { h.sys with spiErr := w1c h.sys.spiErr w } }
  else if 0xE000 ≤ o ∧ o < 0xE100 then h.msixWrite ((o - 0xE000) / 16) (o / 4 % 4) w
  else h

def Hub.writeClks (h : Hub) (o : Nat) (w : Word) : Hub :=
  if o = 0x04 then { h with clk := { h.clk with fault := w1c h.clk.fault w } } else h

/-- Bits of a bank that stand for listed events (R503). -/
def bankMask (b : Nat) : Word := wd (maskOf ((List.range 32).filter fun j => (evClass (32 * b + j)).isSome))

/-- A write to ENABLE; a newly enabled event that is set sends a message (R499). -/
def Hub.writeEnable (h : Hub) (b : Nat) (w : Word) : Hub :=
  let was := h.evEnable b
  let h := { h with evt := { h.evt with enable := h.evt.enable.put b (some (w &&& bankMask b)) } }
  (List.range 32).foldl (fun (h : Hub) j => if !bit was j && bit (h.evEnable b) j && h.evStatus (32 * b + j) then h.msix (h.evRoute (32 * b + j) % 16) else h) h
/-- A write to a ROUTE register: the bytes of listed events (R504). -/
def Hub.writeRoute (h : Hub) (e : Nat) (w : Word) : Hub :=
  (List.range 4).foldl (fun (h : Hub) k =>
    if (evClass (e + k)).isNone then h
    else { h with evt := { h.evt with route := h.evt.route.put (e + k) (some (w.toNat / 2 ^ (8 * k) % 32)) } }) h

def Hub.writeEvt (h : Hub) (o : Nat) (w : Word) : Hub :=
  if 0x400 ≤ o then h
  else
    let b := o / 256
    let r := o % 256
    if r = 0 then { h with evt := { h.evt with status := h.evt.status.put b (w1c (h.evt.status.get b) w) } }
    else if r = 4 then h.writeEnable b w
    else if 0x20 ≤ r ∧ r < 0x40 then h.writeRoute (32 * b + (r - 0x20)) w
    else h

/-- A T64 with one half written. -/
def putHalf (t : T64) (hi : Bool) (w : Word) : T64 :=
  BitVec.ofNat 64 (if hi then t.toNat % 2 ^ 32 + w.toNat * 2 ^ 32 else t.toNat / 2 ^ 32 * 2 ^ 32 + w.toNat)

/-- A write to a compare unit other than its CTRL: TARGET and PERIOD are fixed while ARM is 1 (R242). -/
def Hub.writeCmp (h : Hub) (n i : Nat) (w : Word) : Hub :=
  let c := h.tb.cmp.get n
  let c := if i = 1 then { c with status := w1c c.status w }
    else if bit c.ctrl 0 then c
    else if i = 2 ∨ i = 3 then { c with target := putHalf c.target (i == 3) w }
    else if i = 4 ∨ i = 5 then { c with period := putHalf c.period (i == 5) w }
    else c
  { h with tb := { h.tb with cmp := h.tb.cmp.put n c } }

def Hub.writeTime (h : Hub) (o : Nat) (w : Word) : Hub :=
  if o = 0 then (if bit w 0 then snapCtrlSnap h else h)
  else if 0x100 ≤ o ∧ o < 0x200 then
    let n := (o - 0x100) / 32
    if o / 4 % 8 = 0 then cmpCtrlWrite n w h else h.writeCmp n (o / 4 % 8) w
  else h

/-- A reset that waits for this mailbox's RELEASE begins (R556). -/
def Hub.pendingNow (h : Hub) (m : Nat) : Hub :=
  if h.sys.pendingMb ≠ m then h
  else match h.sys.pendingReset with
    | some (.control c) => h.controlReset c
    | some .datapath => datapathWarmReset { h with sys := { h.sys with resetDue := 0 } }
    | _ => h

/-- DOORBELL (R480). -/
def Hub.doorbell (h : Hub) (m : Nat) : Hub :=
  if (h.host.mbs.get m).state = .idle then h.ring m else h.updMb m fun x => { x with status := setBit x.status 1 }
/-- RELEASE (R481). -/
def Hub.releaseMb (h : Hub) (m : Nat) : Hub :=
  if (h.host.mbs.get m).state = .ready then (h.updMb m fun x => { x with state := .idle }).pendingNow m else h
/-- The command area (R480). -/
def Hub.cmdWrite (h : Hub) (m i : Nat) (w : Word) : Hub :=
  if (h.host.mbs.get m).state = .idle then h.updMb m fun x => { x with cmd := x.cmd.put i w }
  else h.updMb m fun x => { x with status := setBit x.status 2 }

def Hub.writeMbx (h : Hub) (o : Nat) (w : Word) : Hub :=
  let m := o / 4096
  let r := o % 4096
  if r < 0x200 then h.cmdWrite m (r / 4) w
  else if r = 0x400 then (if bit w 0 then h.doorbell m else h)
  else if r = 0x404 then (if bit w 0 then h.releaseMb m else h)
  else if r = 0x40C then h.updMb m fun x => { x with ctrl := w &&& 0x10F }
  else if r = 0x410 then h.updMb m fun x => { x with status := w1c x.status w }
  else h

/-- CQ_RD: the slots of every entry passed are freed (R489). -/
def Hub.cqRdWrite (h : Hub) (w : Word) : Hub :=
  let d := diff32 w.toNat h.host.cqRd
  if 0 ≤ d ∧ diff32 w.toNat h.host.cqWr ≤ 0 then
    let free := (List.range d.toNat).map fun j => fld (h.host.cq.get (8 * ((h.host.cqRd + j) % 256))) 11 0
    let slots := free.foldl (fun (t : Tab HSlot) s => t.upd s fun x => { (default : HSlot) with gen := x.gen }) h.host.slots
    { h with host := { h.host with cqRd := w.toNat, slots := slots } }
  else { h with host := { h.host with cqStatus := setBit h.host.cqStatus 1 } }

def Hub.writeCq (h : Hub) (o : Nat) (w : Word) : Hub :=
  if o = 0x8004 then h.cqRdWrite w
  else if o = 0x8008 then { h with host := { h.host with cqCtrl := w &&& 0x10F } }
  else if o = 0x800C then { h with host := { h.host with cqStatus := w1c h.host.cqStatus w } }
  else h

def Hub.writeFerry (h : Hub) (o : Nat) (w : Word) : Hub :=
  if o < 0x400 then
    let c := o / 256
    let x := h.jrn.consumers.get c
    let r := o % 256
    if r = 0 then h.ferryCtrl c w
    else if r = 4 then h.setCons c { x with status := w1c x.status w }
    else if r = 8 ∨ r = 0xC then h.setCons c { x with ringBase := putHalf x.ringBase (r == 0xC) (if r = 8 then w &&& 0xFFFFFF00 else w) }
    else if r = 0x10 then h.ferryTail c w
    else if 0x80 ≤ r then (if r / 4 % 2 = 0 then h.ferryAckLo c ((r - 0x80) / 8) w else h.ferryAckHi c ((r - 0x80) / 8) w)
    else h
  else if 0x40000 ≤ o ∧ h.sys.straps.hostSel then { h with host := { h.host with spiWin := h.host.spiWin.put ((o - 0x40000) / 4) w } }
  else h

def Hub.writeLive (h : Hub) (o : Nat) (w : Word) : Hub :=
  let q := o / 0x8000
  let x := h.jrn.live.get q
  let r := o % 0x8000
  if r = 0x7008 then h.setLive q { x with rd := w }
  else if r = 0x7010 then (if bit w 0 then lqFlush q h else h)
  else if r = 0x7014 then h.setLive q { x with status := w1c x.status w }
  else h

/-- A write of a whole word at a word-aligned address takes effect (R7, R8). -/
def Hub.regWrite (h : Hub) (a : Nat) (w : Word) : Hub :=
  let b := a / 65536
  let o := a % 65536
  if b = 0 then h.writeSys o w else if b = 1 then h.writeClks o w else if b = 2 then h.writeEvt o w else if b = 3 then h.writeTime o w
  else if b = 4 ∧ o < 0x8000 then h.writeMbx o w else if b = 8 then h.writeCq o w
  else if 0x10 ≤ b ∧ b < 0x18 then h.writeFerry (a - 0x100000) w else if 0x18 ≤ b ∧ b < 0x20 then h.writeLive (a - 0x180000) w
  else h

/-- An address of a held block: TIME, FERRY with the SPI window and LIVE, and EVT until the processor's clock is RC (R524). -/
def Hub.heldAddr (h : Hub) (a : Nat) : Bool :=
  let b := a / 65536
  h.clk.held && (b == 3 || (decide (0x10 ≤ b) && decide (b < 0x20)) || (b == 2 && !h.clk.stopped))

/-- A host write (R524): during a hold a write to a held block is queued, in STOPPED it is discarded. -/
def Hub.hostWrite (h : Hub) (a : Nat) (w : Word) : Hub :=
  if h.heldAddr a then
    if !h.clk.stopped && decide (h.clk.heldWrites.length < 64) then
      { h with clk := { h.clk with heldWrites := h.clk.heldWrites ++ [{ addr := a, data := w }] } }
    else h.clkFault 9
  else h.regWrite a w

/-- ROOT_GATE_OPEN: the gate opens after a relock, and the writes queued are applied in order (R521, R524). -/
def rootGateOpen (h : Hub) : Hub :=
  if !h.clk.held || h.clk.stopped || !h.clk.rootLock then h
  else
    let h := h.gateOpen
    let ws := h.clk.heldWrites
    ws.foldl (fun (h : Hub) x => h.regWrite x.addr x.data) { h with clk := { h.clk with heldWrites := [] } }

/-! ## Quad-SPI frames (R469, R470) -/

/-- The address after `a` in a frame: it wraps within its 4 KiB page. -/
def spiNext (a : Nat) : Nat := a / 4096 * 4096 + (a + 4) % 4096
/-- Bits of SPI_ERR are set. -/
def Hub.spiFault (h : Hub) (b : Bool) (i : Nat) : Hub := if b then { h with sys := { h.sys with spiErr := setBit h.sys.spiErr i } } else h
/-- `n` words from `a` on pass a page boundary. -/
def spiWraps (a n : Nat) : Bool := decide (4096 < a % 4096 + 4 * n)

/-- Words are committed at the addresses of a frame. -/
def Hub.spiCommit (h : Hub) (a : Nat) : List Word → Hub
  | [] => h
  | w :: ws => (h.hostWrite a w).spiCommit (spiNext a) ws
/-- Words are read at the addresses of a frame. -/
def Hub.spiFetch (h : Hub) (a : Nat) : Nat → List Word → List Word × Hub
  | 0, acc => (acc, h)
  | n + 1, acc =>
    let r := h.hostRead a
    r.2.spiFetch (spiNext a) n (acc ++ [r.1])

/-- The CRC of a frame: over its address bytes and its data bytes. -/
def spiCrc (a : Nat) (ws : List Word) : Word := crc32c (leBytes 3 a ++ bytesOf ws)

/-- SPI_WRITE_FRAME; `part` when an incomplete word is clocked in last. -/
def spiWriteFrame (a : Nat) (ws : List Word) (part : Bool) (h : Hub) : Hub :=
  if !h.sys.straps.hostSel then h
  else
    let h := h.spiFault part 1
    if a % 4 ≠ 0 then h.spiFault true 4
    else (h.spiFault (spiWraps a ws.length) 2).spiCommit a ws

/-- SPI_WRITE_CRC_FRAME. -/
def spiWriteCrcFrame (a : Nat) (ws : List Word) (crc : Word) (part : Bool) (h : Hub) : Hub :=
  if !h.sys.straps.hostSel then h
  else
    let h := h.spiFault part 1
    if a % 4 ≠ 0 then h.spiFault true 4
    else
      let h := h.spiFault (spiWraps a ws.length) 2
      if part || spiCrc a ws != crc then h.spiFault true 0 else h.spiCommit a ws

/-- SPI_READ_FRAME of `n` words; `crc` when the host keeps clocking. -/
def spiReadFrame (a n : Nat) (crc part : Bool) (h : Hub) : Hub :=
  if !h.sys.straps.hostSel then h
  else
    let h := h.spiFault part 1
    if a % 4 ≠ 0 then (h.spiFault true 4).send (.spi (List.replicate n 0) (if crc then some 0 else none))
    else
      let r := (h.spiFault (spiWraps a n) 2).spiFetch a n []
      r.2.send (.spi r.1 (if crc then some (spiCrc a r.1) else none))

/-! ## Rows of the host interface -/

def mbCmdWrite (m i : Nat) (w : Word) (h : Hub) : Hub := h.cmdWrite m i w
def mbDoorbellRing (m : Nat) (h : Hub) : Hub := h.doorbell m
def mbRelease (m : Nat) (h : Hub) : Hub := h.releaseMb m
def cqRdWrite (w : Word) (h : Hub) : Hub := h.cqRdWrite w
/-- RESET_CTRL_CONTROL and RESET_CTRL_DATAPATH: keyed writes (R475). -/
def resetCtrlControl (h : Hub) : Hub := h.hostWrite 0x18 0xA5C30001
def resetCtrlDatapath (h : Hub) : Hub := h.hostWrite 0x18 0xA5C30002
def snapWrite (h : Hub) : Hub := h.hostWrite 0x30000 1
def cmpCtrlHost (n : Nat) (w : Word) (h : Hub) : Hub := h.hostWrite (0x30100 + 32 * n) w
def evtEnableWrite (b : Nat) (w : Word) (h : Hub) : Hub := h.hostWrite (0x20004 + 256 * b) w
/-- ACKh_LO, then ACKh_HI (R327). -/
def ferryAckWrite (c o : Nat) (lo hi : Word) (h : Hub) : Hub :=
  (h.hostWrite (0x100080 + 256 * c + 8 * o) lo).hostWrite (0x100084 + 256 * c + 8 * o) hi
def ferryCtrlWrite (c : Nat) (w : Word) (h : Hub) : Hub := h.hostWrite (0x100000 + 256 * c) w
/-- TAIL posts the descriptors that host memory holds (R326). -/
def ferryTailWrite (c : Nat) (w : Word) (descs : List (Nat × Nat)) (h : Hub) : Hub :=
  let h := h.hostWrite (0x100010 + 256 * c) w
  if h.clk.held then h else h.ringGo c descs
def lqFlushWrite (q : Nat) (h : Hub) : Hub := h.hostWrite (0x187010 + 0x8000 * q) 1
def msixUnmask (v : Nat) (h : Hub) : Hub := h.hostWrite (0xE00C + 16 * v) 0
/-- Addresses of the words that `n` bytes from `a` on touch. -/
def wordsTouched (a n : Nat) : List Nat := (List.range ((a % 4 + n + 3) / 4)).map fun j => (a / 4 + j) * 4
/-- A host read of any size and alignment returns every word it touches, with the effect of a full read on each (R6, R10). -/
def Hub.busRead (h : Hub) (a n : Nat) : Hub :=
  (wordsTouched a n).foldl (fun (h : Hub) w => let r := h.hostRead w; r.2.send (.read w r.1)) h
/-- The word at `w` when a write of bytes from `a` on enables all its four bytes; a byte that is not enabled is none (R6). -/
def wordEnabled (a : Nat) (bytes : List (Option Byte)) (w : Nat) : Option Word :=
  match (bytes.drop (w - a)).take 4 with
  | [some b0, some b1, some b2, some b3] => if a ≤ w then some (wd (leNat [b0, b1, b2, b3])) else none
  | _ => none
/-- A host write of any size and alignment takes effect on each word whose four bytes it enables, and on no other (R6). -/
def Hub.busWrite (h : Hub) (a : Nat) (bytes : List (Option Byte)) : Hub :=
  (wordsTouched a bytes.length).foldl (fun (h : Hub) w => match wordEnabled a bytes w with | some x => h.hostWrite w x | none => h) h
/-- LQ_LOST_READ: a read that touches LOST clears it (R10, R337). -/
def lqLostRead (r : BusRead) (h : Hub) : Hub := h.busRead r.addr r.len
/-- REGISTER_WRITE (R6, R8). -/
def registerWrite (a : Nat) (bytes : List (Option Byte)) (h : Hub) : Hub := h.busWrite a bytes

/-- HOST_LINK_RESTART (R467); Bus Master Enable and the readiness of the PCIe core follow the PCIe standard. -/
def hostLinkRestart (c : LinkCause) (h : Hub) : Hub :=
  if h.sys.straps.hostSel then h else
  let h := h.linkRestart
  if c = .d3hot then { h with host := { h.host with d3hot := true } }
  else { h with host := { h.host with bme := false, d3hot := false, pcieReady := h.host.pcieReady && c != .perst } }
/-- PCIE_READY (R465). -/
def pcieReady (h : Hub) : Hub := if h.sys.straps.hostSel then h else { h with host := { h.host with pcieReady := true } }
/-- PCIE_CONFIGURATION_WRITE: Bus Master Enable, or the return to D0 (R466), once the core no longer answers with Retry Status (R465). -/
def pcieConfigurationWrite (bme d0 : Bool) (h : Hub) : Hub :=
  if h.sys.straps.hostSel || !h.host.pcieReady then h
  else ({ h with host := { h.host with bme := bme, d3hot := h.host.d3hot && !d0 } }).flushPending

end Sys2Proof.Machine
end

