-- ==== Sys2Proof/Machine/Commands.lean ====
section
/-!
DEFINITION. The command index (R494): every Kelnen command, and MB_COMMAND_TAKE (R482).
-/
namespace Sys2Proof.Machine

/-- The commands of the family SYS. -/
def sysCmds : List CmdSpec := [sysNop, sysInfo, sysHandleQuery, sysAbort, sysReset, sysStateSave]
/-- The commands of the family LOG. -/
def logCmds : List CmdSpec := [logMark]
/-- The commands of the family CLK. -/
def clkCmds : List CmdSpec := [clkStatus, clkFmc, clkGateSet, clkMonSet]
/-- The commands of the family FE. -/
def feCmds : List CmdSpec := [feFastSet, feScanSet, feExcSet, feLinWrite, feLinCommit, feLinRead, feFaultStatus, feFaultDetail]
/-- The commands of the family CAL. -/
def calCmds : List CmdSpec := [calRefSet, calPolicySet, calRun, calResultRead]
/-- The commands of the family FLT. -/
def fltCmds : List CmdSpec := [fltProfileSet, fltCoefWrite, fltCoefCommit, fltBankSwap, fltChanSet, fltSync, fltDelayRead]
/-- The commands of the family TRG. -/
def trgCmds : List CmdSpec := [trgUnitSet, trgQualSet, trgArm, trgSoft, trgStatus, trgIoSet]
/-- The commands of the family CAP. -/
def capCmds : List CmdSpec := [capGroupSet]
/-- The commands of the family ACT. -/
def actCmds : List CmdSpec := [actRuleSet, actPinSet, actArm, actClear, actStatus, actFailsafeProgram]
/-- The commands of the family TIME. -/
def timeCmds : List CmdSpec := [timeSrcSet, timeRefSet, timeSet, timePpsOutSet, timeStatusRead]
/-- The commands of the family NET. -/
def netCmds : List CmdSpec := [netPtpSet, netPortCompSet, netPortSet, netRrConfirm, netAuthKeySet, netFrameWrite, netFrameSend, netLaunch, netTxtsRead, netPtpStatus, netQuarRelease, netPathSet, netAddrSet, netVerdict, netPathStatus]
/-- The commands of the family TIU. -/
def tiuCmds : List CmdSpec := [tiuInputSet, tiuIntervalSet, tiuFreq, tiuRead, tiuStatus, tiuCalSet]
/-- The commands of the family CHG. -/
def chgCmds : List CmdSpec := [chgSet, chgRun]
/-- The commands of the family CONSUMER. -/
def consumerCmds : List CmdSpec := [consumerSet]
/-- The commands of the family JOURNAL. -/
def journalCmds : List CmdSpec := [journalSet, journalStatus]
/-- The commands of the family FERRY. -/
def ferryCmds : List CmdSpec := [ferryKeySet]
/-- The commands of the family LIVE. -/
def liveCmds : List CmdSpec := [liveSet]
/-- The commands of the family CHAN. -/
def chanCmds : List CmdSpec := [chanDescSet]
/-- The commands of the family CODEC. -/
def codecCmds : List CmdSpec := [codecSet, codecChanSet, codecStatus, codecStateSave, codecStateRead, codecStateWrite, codecCheck]
/-- The commands of the family SL. -/
def slCmds : List CmdSpec := [slLaneSet, slSlotSet, slKeySet, slReset, slQuarRelease, slStatus]
/-- The commands of the family CASC. -/
def cascCmds : List CmdSpec := [cascSet, cascPortSet, cascLinkReset, cascQuarRelease, cascStatus]
/-- The commands of the family SEC. -/
def secCmds : List CmdSpec := [secStatus, secJtagChallenge, secJtagUnlock, secOtpProgram]
/-- The commands of the family FW. -/
def fwCmds : List CmdSpec := [fwWrite, fwVerify, fwSwitch]
/-- The commands of the family FLASH. -/
def flashCmds : List CmdSpec := [flashStatus]
/-- The commands of the family DRAM. -/
def dramCmds : List CmdSpec := [dramRetiredRead]
/-- The commands of the family SELFTEST. -/
def selftestCmds : List CmdSpec := [selftest]

/-- The commands of the index. -/
def cmdIndex : List CmdSpec :=
  sysCmds ++ logCmds ++ clkCmds ++ feCmds ++ calCmds ++ fltCmds ++ trgCmds ++ capCmds ++ actCmds ++ timeCmds ++ netCmds ++ tiuCmds ++ chgCmds ++ consumerCmds ++ journalCmds ++ ferryCmds ++ liveCmds ++ chanCmds ++ codecCmds ++ slCmds ++ cascCmds ++ secCmds ++ fwCmds ++ flashCmds ++ dramCmds ++ selftestCmds
/-- The command of an opcode (R483, R494). -/
def cmdOf (op : Nat) : Option CmdSpec := cmdIndex.find? fun c => c.opcode == op

/-- MB_COMMAND_TAKE: the firmware takes the next posted command as the command area holds it (R480, R482). -/
def mbCommandTake (h : Hub) : Hub :=
  match h.nextPosted with
  | some m =>
    if h.canTake then
      let x := (h.host.mbs.get m).cmd
      let w0 := x.get 0
      (h.perform (cmdOf (fld w0 15 0)) m w0 (x.get 1) (x.get 2) (x.get 3) (x.gets 4 (min 124 (fld w0 31 24)))).openUsed
    else h
  | none => h

end Sys2Proof.Machine
end

