-- ==== Sys2Proof/Machine/State.lean ====
section
/-!
DEFINITION. The machine: the hub and the queue of the commands that wait for it.
-/
namespace Sys2Proof.Machine

/-- The hub's state and the commands that wait, the first in front. -/
structure State where
  hub : Hub
  pending : List Instr
deriving DecidableEq, Repr

/-- Why a step stops. -/
inductive Fault where
  /-- An operand that no host, pin or line can spell (Instr.wellFormed is false). Raised by the meanings of the rows with such
  an operand. Safe: no such command exists on the hardware. -/
  | badOperand
deriving DecidableEq, Repr

/-- Why a step answers nothing. -/
inductive Refusal where
  /-- A command without a meaning. Raised by an arm of exec only; no arm does. Safe. -/
  | notModelled (mnemonic : String)
deriving DecidableEq, Repr

/-- After power-on: the hub is in reset until COLD_BOOT, every register at its reset value, and no command waits (R537, R540). -/
def State.reset : State := { hub := {}, pending := [] }

end Sys2Proof.Machine
end

