-- ==== Sys2Proof/WellFormed.lean ====
section
/-!
DEFINITION. Which commands the outside world can send: operands that no host, pin or line can spell are ill-formed, and every
meaning that has such an operand stops on it with Fault.badOperand.
-/
namespace Sys2Proof

/-- LEN_WORDS has 8 bits, so no header names a longer payload (R477). -/
def payloadOk (pl : List Word) : Bool := decide (pl.length ≤ 255)
/-- The die has nine temperature sensors (R90). -/
def nineSensors (l : List Int) : Bool := l.length == 9
/-- The straps have 4, 3 and 2 pins for HUB_ID, OSC_DLY and BOOT_SEL (R569). -/
def strapsOk (s : Machine.Straps) : Bool := decide (s.hubId < 16) && decide (s.oscDly < 8) && decide (s.bootSel < 4)
/-- An IPv4 address has one word, an IPv6 address four (R460). -/
def addrOk (v6 : Bool) (a : List Word) : Bool := a.length == if v6 then 4 else 1
/-- A router's address has 16 bytes (R460). -/
def routerOk (r : List Byte) : Bool := r.length == 16
/-- A conversion of a scan converter has 18 bits (R19). -/
def conversionOk (x : Int) : Bool := decide (-131072 ≤ x) && decide (x < 131072)
/-- A visit has at least one conversion, and the halves of a chopped visit are equally long (R58). -/
def halvesOk (a b : List Int) : Bool := !a.isEmpty && (b.isEmpty || a.length == b.length) && a.all conversionOk && b.all conversionOk
/-- A modulator's code has 4 bits (R19), taken as signed (DESIGN CHOICE, log entry 54). -/
def codeOk (c : Int) : Bool := decide (-8 ≤ c) && decide (c < 8)
/-- The bytes read touch the LOST register of one of the 16 live queues (R6, R337). -/
def touchesLost (r : Machine.BusRead) : Bool :=
  (List.range 16).any fun q => decide (r.addr < 0x187010 + 0x8000 * q) && decide (0x18700C + 0x8000 * q < r.addr + r.len)

/-- The command can be sent. -/
def Instr.wellFormed (i : Instr) : Bool :=
  match i with
  | .sysNop _ _ pl => payloadOk pl
  | .sysInfo _ _ pl => payloadOk pl
  | .sysHandleQuery _ _ pl => payloadOk pl
  | .sysAbort _ _ pl => payloadOk pl
  | .sysReset _ _ pl => payloadOk pl
  | .sysStateSave _ _ pl => payloadOk pl
  | .logMark _ _ pl => payloadOk pl
  | .clkStatus _ _ pl => payloadOk pl
  | .clkFmc _ _ pl => payloadOk pl
  | .clkGateSet _ _ pl => payloadOk pl
  | .clkMonSet _ _ pl => payloadOk pl
  | .feFastSet _ _ pl => payloadOk pl
  | .feScanSet _ _ pl => payloadOk pl
  | .feExcSet _ _ pl => payloadOk pl
  | .feLinWrite _ _ pl => payloadOk pl
  | .feLinCommit _ _ pl => payloadOk pl
  | .feLinRead _ _ pl => payloadOk pl
  | .feFaultStatus _ _ pl => payloadOk pl
  | .feFaultDetail _ _ pl => payloadOk pl
  | .calRefSet _ _ pl => payloadOk pl
  | .calPolicySet _ _ pl => payloadOk pl
  | .calRun _ _ pl => payloadOk pl
  | .calResultRead _ _ pl => payloadOk pl
  | .fltProfileSet _ _ pl => payloadOk pl
  | .fltCoefWrite _ _ pl => payloadOk pl
  | .fltCoefCommit _ _ pl => payloadOk pl
  | .fltBankSwap _ _ pl => payloadOk pl
  | .fltChanSet _ _ pl => payloadOk pl
  | .fltSync _ _ pl => payloadOk pl
  | .fltDelayRead _ _ pl => payloadOk pl
  | .trgUnitSet _ _ pl => payloadOk pl
  | .trgQualSet _ _ pl => payloadOk pl
  | .capGroupSet _ _ pl => payloadOk pl
  | .trgArm _ _ pl => payloadOk pl
  | .trgSoft _ _ pl => payloadOk pl
  | .trgStatus _ _ pl => payloadOk pl
  | .trgIoSet _ _ pl => payloadOk pl
  | .actRuleSet _ _ pl => payloadOk pl
  | .actPinSet _ _ pl => payloadOk pl
  | .actArm _ _ pl => payloadOk pl
  | .actClear _ _ pl => payloadOk pl
  | .actStatus _ _ pl => payloadOk pl
  | .actFailsafeProgram _ _ pl => payloadOk pl
  | .timeSrcSet _ _ pl => payloadOk pl
  | .timeRefSet _ _ pl => payloadOk pl
  | .timeSet _ _ pl => payloadOk pl
  | .timePpsOutSet _ _ pl => payloadOk pl
  | .timeStatusRead _ _ pl => payloadOk pl
  | .netPtpSet _ _ pl => payloadOk pl
  | .netPortCompSet _ _ pl => payloadOk pl
  | .netPortSet _ _ pl => payloadOk pl
  | .netRrConfirm _ _ pl => payloadOk pl
  | .netAuthKeySet _ _ pl => payloadOk pl
  | .netFrameWrite _ _ pl => payloadOk pl
  | .netFrameSend _ _ pl => payloadOk pl
  | .netLaunch _ _ pl => payloadOk pl
  | .netTxtsRead _ _ pl => payloadOk pl
  | .netPtpStatus _ _ pl => payloadOk pl
  | .netQuarRelease _ _ pl => payloadOk pl
  | .netPathSet _ _ pl => payloadOk pl
  | .netAddrSet _ _ pl => payloadOk pl
  | .netVerdict _ _ pl => payloadOk pl
  | .netPathStatus _ _ pl => payloadOk pl
  | .tiuInputSet _ _ pl => payloadOk pl
  | .tiuIntervalSet _ _ pl => payloadOk pl
  | .tiuFreq _ _ pl => payloadOk pl
  | .tiuRead _ _ pl => payloadOk pl
  | .tiuStatus _ _ pl => payloadOk pl
  | .tiuCalSet _ _ pl => payloadOk pl
  | .chgSet _ _ pl => payloadOk pl
  | .chgRun _ _ pl => payloadOk pl
  | .consumerSet _ _ pl => payloadOk pl
  | .journalSet _ _ pl => payloadOk pl
  | .journalStatus _ _ pl => payloadOk pl
  | .ferryKeySet _ _ pl => payloadOk pl
  | .liveSet _ _ pl => payloadOk pl
  | .chanDescSet _ _ pl => payloadOk pl
  | .codecSet _ _ pl => payloadOk pl
  | .codecChanSet _ _ pl => payloadOk pl
  | .codecStatus _ _ pl => payloadOk pl
  | .codecStateSave _ _ pl => payloadOk pl
  | .codecStateRead _ _ pl => payloadOk pl
  | .codecStateWrite _ _ pl => payloadOk pl
  | .codecCheck _ _ pl => payloadOk pl
  | .slLaneSet _ _ pl => payloadOk pl
  | .slSlotSet _ _ pl => payloadOk pl
  | .slKeySet _ _ pl => payloadOk pl
  | .slReset _ _ pl => payloadOk pl
  | .slQuarRelease _ _ pl => payloadOk pl
  | .slStatus _ _ pl => payloadOk pl
  | .cascSet _ _ pl => payloadOk pl
  | .cascPortSet _ _ pl => payloadOk pl
  | .cascLinkReset _ _ pl => payloadOk pl
  | .cascQuarRelease _ _ pl => payloadOk pl
  | .cascStatus _ _ pl => payloadOk pl
  | .secStatus _ _ pl => payloadOk pl
  | .secJtagChallenge _ _ pl => payloadOk pl
  | .secJtagUnlock _ _ pl => payloadOk pl
  | .secOtpProgram _ _ pl => payloadOk pl
  | .fwWrite _ _ pl => payloadOk pl
  | .fwVerify _ _ pl => payloadOk pl
  | .fwSwitch _ _ pl => payloadOk pl
  | .flashStatus _ _ pl => payloadOk pl
  | .dramRetiredRead _ _ pl => payloadOk pl
  | .selftest _ _ pl => payloadOk pl
  | .mbCmdWrite _ _ _ => true
  | .mbDoorbellRing _ => true
  | .mbRelease _ => true
  | .mbCommandTake => true
  | .cqRdWrite _ => true
  | .resetCtrlControl => true
  | .resetCtrlDatapath => true
  | .snapCtrlSnap => true
  | .cmpCtrlWrite _ _ => true
  | .evtEnableWrite _ _ => true
  | .ferryAckWrite _ _ _ _ => true
  | .ferryCtrlWrite _ _ => true
  | .ferryTailWrite _ _ _ => true
  | .lqFlush _ => true
  | .lqLostRead r => touchesLost r
  | .msixUnmask _ => true
  | .registerWrite _ _ => true
  | .spiWriteFrame _ _ _ => true
  | .spiWriteCrcFrame _ _ _ _ => true
  | .spiReadFrame _ _ _ _ => true
  | .hostLinkRestart _ => true
  | .pcieReady => true
  | .powerOnReset => true
  | .resetNAssert => true
  | .coldBoot b => strapsOk b.straps
  | .bootComplete _ => true
  | .controlReset => true
  | .firmwareReady _ _ _ => true
  | .lockstepMismatch => true
  | .watchdogExpiry => true
  | .trialRevert => true
  | .datapathWarmReset => true
  | .perBlockReset => true
  | .pfwWarning _ => true
  | .retainResume _ => true
  | .supplyWarn _ => true
  | .stateSaveTimer => true
  | .rootPllLock => true
  | .rootPllUnlock => true
  | .rootGateOpen => true
  | .holdTimeoutStop => true
  | .stoppedRelockAttempt => true
  | .stoppedRecovery _ => true
  | .clkMonWindow _ _ => true
  | .clkStopDetect _ => true
  | .oscDelayExpiry => true
  | .xoStartTimeout => true
  | .muxForcedSwitch _ => true
  | .gateQuiesceAccept _ => true
  | .gateQuiesceTimeout _ => true
  | .fmcComplete _ => true
  | .frameStrobe => true
  | .epochBreak => true
  | .timeSetOrigin => true
  | .sourceHoldoffExpiry => true
  | .timeMapPeriodic => true
  | .uncertaintyRecord => true
  | .cmpFire _ => true
  | .ppsOutPulse => true
  | .ppsInEdge _ _ => true
  | .timeRefTimeout => true
  | .ptpSyncReceive _ _ _ _ _ _ => true
  | .ptpFollowUpReceive _ _ _ _ _ => true
  | .ptpDelayRespReceive _ _ _ _ _ => true
  | .ptpAnnounceReceive _ _ _ => true
  | .ptpPdelayReqReceive _ _ _ => true
  | .ptpPdelayRespReceive _ _ _ _ _ _ _ => true
  | .ptpDelayReqTimer _ => true
  | .servoSyncTimeout _ _ => true
  | .rrConfirmSecond => true
  | .rrHoldExpiry => true
  | .frameTransmitDone _ => true
  | .launchGuardStart => true
  | .launchTransmit => true
  | .ferryAckReceive _ _ _ => true
  | .ferryAckTimeout => true
  | .verdictDatagramReceive _ _ _ _ => true
  | .suspectDatagramTimer => true
  | .netLinkChange _ _ => true
  | .netAddrRequest _ v6 addr _ => addrOk v6 addr
  | .suspectDebounce _ => true
  | .suspectClear _ => true
  | .arbSelStable _ => true
  | .failoverActivate => true
  | .failoverComplete => true
  | .selftestTimer _ => true
  | .prbsTestDone _ _ => true
  | .echoReplyReceive _ _ => true
  | .echoTimeout _ => true
  | .snapshotTimer => true
  | .pathHealthTimer _ _ => true
  | .tiuEdge _ _ _ _ => true
  | .iuWinTimeout _ => true
  | .tiuFreqGateEnd _ => true
  | .tiuCalTimer => true
  | .tiuHandoverDone _ => true
  | .tiuCalDone _ => true
  | .tachPulse _ => true
  | .feFaultDeclare _ _ _ => true
  | .feFaultClearDeclare _ => true
  | .scanVisitDone _ _ first second _ _ _ _ _ _ _ => halvesOk first second
  | .excFaultOnset _ => true
  | .excFaultEnd _ => true
  | .excSwitch _ => true
  | .dieTempSample temps => nineSensors temps
  | .calMaxIntExpiry _ => true
  | .calSlotStep _ => true
  | .calMeasureDone zero plus minus _ _ => (zero ++ plus ++ minus).all codeOk
  | .trimStep _ => true
  | .pepperOutput _ codes shadow => (codes ++ shadow).all fun c => codeOk c.1
  | .chainOutput _ => true
  | .stagingRelease _ => true
  | .partClose _ => true
  | .partLanded => true
  | .lateWaitExpiry _ _ => true
  | .recordOffer _ _ _ => true
  | .ringFlushTimeout _ => true
  | .indexScrub _ => true
  | .pageScrub _ _ => true
  | .dramUncorrectable _ => true
  | .segmentComplete _ => true
  | .segmentLanded _ _ => true
  | .autoSegment _ => true
  | .codecDemote _ => true
  | .codecPromote _ => true
  | .syncApply => true
  | .chgRunApply => true
  | .trgArmApply => true
  | .bankSwapStart => true
  | .bankFadeComplete _ => true
  | .chanParamApply => true
  | .chanDescLand => true
  | .trigInputChange _ _ => true
  | .trigPulseEnd _ => true
  | .ctHoldExpiry _ => true
  | .actPulseEnd _ => true
  | .actDeadmanExpiry => true
  | .slLossOfLock _ => true
  | .slStepTimeout _ => true
  | .slRetryTimer _ => true
  | .slHelloReceive _ _ _ => true
  | .slSampleFrame _ _ _ => true
  | .slSlotAckReceive _ _ _ => true
  | .slSlotSetTimeout _ _ => true
  | .slReleasedReceive _ _ _ => true
  | .slSlipReceive _ _ _ => true
  | .slPodHealthReceive _ _ _ => true
  | .slDelayEcho _ _ _ => true
  | .slProbeTimer _ => true
  | .slLandedTimer _ => true
  | .slAbortSymbol _ => true
  | .cascLossOfLock _ => true
  | .cascAlignMarker _ _ _ _ _ => true
  | .cascHelloReceive _ _ _ => true
  | .cascAuthReceive _ _ _ => true
  | .cascRosterReceive _ _ _ => true
  | .cascRefusedRetry _ => true
  | .cascTimeMark _ _ _ _ => true
  | .cascDelayEcho _ _ => true
  | .cascTriggerReceive _ _ _ => true
  | .cascRecordReceive _ _ _ => true
  | .cascAckReceive _ _ _ => true
  | .cascCreditReceive _ _ _ => true
  | .cascNakReceive _ _ _ => true
  | .cascEpochReqReceive _ _ _ => true
  | .cascHopHealthReceive _ _ _ => true
  | .cascCreditTimer _ => true
  | .slCommaAlignment _ _ => true
  | .cascCommaAlignment _ _ => true
  | .cascStepTimeout _ => true
  | .cascRetryTimer _ => true
  | .cascProbeTimer => true
  | .cascHopHealthTimer => true
  | .ptpMessageIgnored _ => true
  | .routerAdvertisementReceive _ router => routerOk router
  | .addressResolutionReply _ => true
  | .feExcursionEnd _ => true
  | .followMinExpiry => true
  | .ppsOutPulseEnd => true
  | .pcieConfigurationWrite _ _ => true
  | .journalPageCheckDone _ _ => true
  | .trialSExpiry => true
  | .slResetTimeout _ => true
  | .cascLinkResetTimeout _ => true
  | .flashOperationDone _ => true
  | .otpProgramDone _ => true
  | .selftestDone _ => true
  | .codecCheckDone => true

end Sys2Proof
end

