-- ==== Sys2Proof/Machine/Rows.lean ====
section
/-!
DEFINITION. How a command of the table acts on the machine: it changes the hub and leaves the queue alone.
-/
namespace Sys2Proof.Machine

/-- Supplies are valid, RESET_N is high and the hub is not in RETAIN (R537, R546). -/
def Hub.powered (h : Hub) : Bool := h.sys.power == .run

/-- An operation of the hub. -/
def State.powerRow (s : State) (f : Hub → Hub) : Host.Outcome State Fault Refusal := .next { s with hub := f s.hub }

/-- An operation of a powered hub; the event cannot reach another. -/
def State.row (s : State) (f : Hub → Hub) : Host.Outcome State Fault Refusal :=
  s.powerRow fun h => if h.powered then f h else h

/-- An operation with an operand that is checked. -/
def checked (ok : Bool) (o : Host.Outcome State Fault Refusal) : Host.Outcome State Fault Refusal :=
  if ok then o else .fault .badOperand

/-- A Kelnen command through mailbox `mb` (R480 to R483, log entry 13); a gate whose block becomes used opens (R526). -/
def State.mailRow (s : State) (c : CmdSpec) (mb : Fin 8) (tag : Word) (pl : List Word) : Host.Outcome State Fault Refusal :=
  checked (payloadOk pl) (s.row fun h => (h.mail c mb tag pl).openUsed)

/-- One TIME cycle passes. The one that brings TB_SAMPLE to its next frame strobe, or to P, is that strobe (R221). -/
def Hub.tick (h : Hub) : Hub :=
  if h.tb.started && !h.clk.held && decide (h.tb.toStrobe ≤ 1) then h.strobeOrTurn else (h.passTime 1).segDue
/-- One TIME cycle passes on a powered hub when no command waits (log entry 2). -/
def State.idle (s : State) : State := { s with hub := if s.hub.powered then s.hub.tick else s.hub }

end Sys2Proof.Machine
end

