-- ==== Sys2Proof/Machine/RowsAnalog.lean ====
section
/-!
DEFINITION. The meanings of the rows for the FE, CAL and FLT commands: each applies the hub operation of its rule.
-/
namespace Sys2Proof.Machine

/-- FE_FAST_SET (R79). -/
def execFeFastSet (mb : Fin 8) (tag : Word) (pl : List Word) (s : State) : Host.Outcome State Fault Refusal := s.mailRow Machine.feFastSet mb tag pl

/-- FE_SCAN_SET (R80). -/
def execFeScanSet (mb : Fin 8) (tag : Word) (pl : List Word) (s : State) : Host.Outcome State Fault Refusal := s.mailRow Machine.feScanSet mb tag pl

/-- FE_EXC_SET (R81). -/
def execFeExcSet (mb : Fin 8) (tag : Word) (pl : List Word) (s : State) : Host.Outcome State Fault Refusal := s.mailRow Machine.feExcSet mb tag pl

/-- FE_LIN_WRITE (R82). -/
def execFeLinWrite (mb : Fin 8) (tag : Word) (pl : List Word) (s : State) : Host.Outcome State Fault Refusal := s.mailRow Machine.feLinWrite mb tag pl

/-- FE_LIN_COMMIT (R83). -/
def execFeLinCommit (mb : Fin 8) (tag : Word) (pl : List Word) (s : State) : Host.Outcome State Fault Refusal :=
  s.mailRow Machine.feLinCommit mb tag pl

/-- FE_LIN_READ (R83). -/
def execFeLinRead (mb : Fin 8) (tag : Word) (pl : List Word) (s : State) : Host.Outcome State Fault Refusal := s.mailRow Machine.feLinRead mb tag pl

/-- FE_FAULT_STATUS (R84). -/
def execFeFaultStatus (mb : Fin 8) (tag : Word) (pl : List Word) (s : State) : Host.Outcome State Fault Refusal :=
  s.mailRow Machine.feFaultStatus mb tag pl

/-- FE_FAULT_DETAIL (R84). -/
def execFeFaultDetail (mb : Fin 8) (tag : Word) (pl : List Word) (s : State) : Host.Outcome State Fault Refusal :=
  s.mailRow Machine.feFaultDetail mb tag pl

/-- CAL_REF_SET (R108). -/
def execCalRefSet (mb : Fin 8) (tag : Word) (pl : List Word) (s : State) : Host.Outcome State Fault Refusal := s.mailRow Machine.calRefSet mb tag pl

/-- CAL_POLICY_SET (R109). -/
def execCalPolicySet (mb : Fin 8) (tag : Word) (pl : List Word) (s : State) : Host.Outcome State Fault Refusal :=
  s.mailRow Machine.calPolicySet mb tag pl

/-- CAL_RUN (R110). -/
def execCalRun (mb : Fin 8) (tag : Word) (pl : List Word) (s : State) : Host.Outcome State Fault Refusal := s.mailRow Machine.calRun mb tag pl

/-- CAL_RESULT_READ (R111). -/
def execCalResultRead (mb : Fin 8) (tag : Word) (pl : List Word) (s : State) : Host.Outcome State Fault Refusal :=
  s.mailRow Machine.calResultRead mb tag pl

/-- FLT_PROFILE_SET (R155). -/
def execFltProfileSet (mb : Fin 8) (tag : Word) (pl : List Word) (s : State) : Host.Outcome State Fault Refusal :=
  s.mailRow Machine.fltProfileSet mb tag pl

/-- FLT_COEF_WRITE (R156). -/
def execFltCoefWrite (mb : Fin 8) (tag : Word) (pl : List Word) (s : State) : Host.Outcome State Fault Refusal :=
  s.mailRow Machine.fltCoefWrite mb tag pl

/-- FLT_COEF_COMMIT (R157). -/
def execFltCoefCommit (mb : Fin 8) (tag : Word) (pl : List Word) (s : State) : Host.Outcome State Fault Refusal :=
  s.mailRow Machine.fltCoefCommit mb tag pl

/-- FLT_BANK_SWAP (R158). -/
def execFltBankSwap (mb : Fin 8) (tag : Word) (pl : List Word) (s : State) : Host.Outcome State Fault Refusal :=
  s.mailRow Machine.fltBankSwap mb tag pl

/-- FLT_CHAN_SET (R159). -/
def execFltChanSet (mb : Fin 8) (tag : Word) (pl : List Word) (s : State) : Host.Outcome State Fault Refusal := s.mailRow Machine.fltChanSet mb tag pl

/-- FLT_SYNC (R160). -/
def execFltSync (mb : Fin 8) (tag : Word) (pl : List Word) (s : State) : Host.Outcome State Fault Refusal := s.mailRow Machine.fltSync mb tag pl

/-- FLT_DELAY_READ (R161). -/
def execFltDelayRead (mb : Fin 8) (tag : Word) (pl : List Word) (s : State) : Host.Outcome State Fault Refusal :=
  s.mailRow Machine.fltDelayRead mb tag pl

end Sys2Proof.Machine
end

