-- ==== Sys2Proof/Machine/RowsClocking.lean ====
section
/-!
DEFINITION. The meanings of the rows for strobes, timebases and network time: each applies the hub operation of its rule.
-/
namespace Sys2Proof.Machine

/-- FRAME_STROBE (R23). -/
def execFrameStrobe (s : State) : Host.Outcome State Fault Refusal := s.row Machine.frameStrobeRow

/-- EPOCH_BREAK (R229). -/
def execEpochBreak (s : State) : Host.Outcome State Fault Refusal := s.row Machine.epochBreak

/-- TIME_SET_ORIGIN (R245). -/
def execTimeSetOrigin (s : State) : Host.Outcome State Fault Refusal := s.row Machine.timeSetOrigin

/-- SOURCE_HOLDOFF_EXPIRY (R225). -/
def execSourceHoldoffExpiry (s : State) : Host.Outcome State Fault Refusal := s.row Machine.sourceHoldoffExpiry

/-- TIME_MAP_PERIODIC (R237). -/
def execTimeMapPeriodic (s : State) : Host.Outcome State Fault Refusal := s.row Machine.timeMapPeriodic

/-- UNCERTAINTY_RECORD (R237). -/
def execUncertaintyRecord (s : State) : Host.Outcome State Fault Refusal := s.row Machine.uncertaintyRecord

/-- CMP_FIRE (R239). -/
def execCmpFire (n : Fin 8) (s : State) : Host.Outcome State Fault Refusal := s.row (Machine.cmpFire n.val)

/-- PPS_OUT_PULSE (R246). -/
def execPpsOutPulse (s : State) : Host.Outcome State Fault Refusal := s.row Machine.ppsOutPulse

/-- PPS_IN_EDGE (R291). -/
def execPpsInEdge (falling : Bool) (e : Machine.LineEdge) (s : State) : Host.Outcome State Fault Refusal := s.row (Machine.ppsInEdge falling e)

/-- TIME_REF_TIMEOUT (R244). -/
def execTimeRefTimeout (s : State) : Host.Outcome State Fault Refusal := s.row Machine.timeRefTimeout

/-- PTP_SYNC_RECEIVE (R253). -/
def execPtpSyncReceive (p : Fin 2) (head : Machine.PtpHead) (seq : Nat) (twoStep : Bool) (t1 : Int) (corr : Int) (s : State) : Host.Outcome State Fault Refusal :=
  s.row (Machine.ptpSyncReceive p.val head seq twoStep t1 corr)

/-- PTP_FOLLOW_UP_RECEIVE (R253). -/
def execPtpFollowUpReceive (p : Fin 2) (head : Machine.PtpHead) (seq : Nat) (t1 : Int) (corr : Int) (s : State) : Host.Outcome State Fault Refusal :=
  s.row (Machine.ptpFollowUpReceive p.val head seq t1 corr)

/-- PTP_DELAY_RESP_RECEIVE (R252). -/
def execPtpDelayRespReceive (p : Fin 2) (head : Machine.PtpHead) (seq : Nat) (t4 : Int) (corr : Int) (s : State) : Host.Outcome State Fault Refusal :=
  s.row (Machine.ptpDelayRespReceive p.val head seq t4 corr)

/-- PTP_ANNOUNCE_RECEIVE (R248). -/
def execPtpAnnounceReceive (p : Fin 2) (head : Machine.PtpHead) (ann : Machine.Announce) (s : State) : Host.Outcome State Fault Refusal :=
  s.row (Machine.ptpAnnounceReceive p.val head ann)

/-- PTP_PDELAY_REQ_RECEIVE (R248). -/
def execPtpPdelayReqReceive (p : Fin 2) (head : Machine.PtpHead) (seq : Nat) (s : State) : Host.Outcome State Fault Refusal :=
  s.row (Machine.ptpPdelayReqReceive p.val head seq)

/-- PTP_PDELAY_RESP_RECEIVE (R252). -/
def execPtpPdelayRespReceive (p : Fin 2) (head : Machine.PtpHead) (seq : Nat) (followUp : Bool) (twoStep : Bool) (t : Int) (corr : Int) (s : State) : Host.Outcome State Fault Refusal :=
  s.row (Machine.ptpPdelayRespReceive p.val head seq followUp twoStep t corr)

/-- PTP_DELAY_REQ_TIMER (R252). -/
def execPtpDelayReqTimer (p : Fin 2) (s : State) : Host.Outcome State Fault Refusal := s.row (Machine.ptpDelayReqTimer p.val)

/-- SERVO_SYNC_TIMEOUT (R253). -/
def execServoSyncTimeout (p : Fin 2) (announce : Bool) (s : State) : Host.Outcome State Fault Refusal :=
  s.row (Machine.servoSyncTimeout p.val announce)

/-- RR_CONFIRM_SECOND (R255). -/
def execRrConfirmSecond (s : State) : Host.Outcome State Fault Refusal := s.row Machine.rrConfirmSecond

/-- RR_HOLD_EXPIRY (R256). -/
def execRrHoldExpiry (s : State) : Host.Outcome State Fault Refusal := s.row Machine.rrHoldExpiry

/-- FRAME_TRANSMIT_DONE (R260). -/
def execFrameTransmitDone (ago : T64) (s : State) : Host.Outcome State Fault Refusal := s.row (Machine.frameTransmitDone ago)

/-- LAUNCH_GUARD_START (R262). -/
def execLaunchGuardStart (s : State) : Host.Outcome State Fault Refusal := s.row Machine.launchGuardStart

/-- LAUNCH_TRANSMIT (R263). -/
def execLaunchTransmit (s : State) : Host.Outcome State Fault Refusal := s.row Machine.launchTransmit

/-- FERRY_ACK_RECEIVE (R329). -/
def execFerryAckReceive (header : List Byte) (plain : List Byte) (cipher : List Byte) (s : State) : Host.Outcome State Fault Refusal :=
  s.row (Machine.ferryAckReceive header plain cipher)

/-- FERRY_ACK_TIMEOUT (R329). -/
def execFerryAckTimeout (s : State) : Host.Outcome State Fault Refusal := s.row Machine.ferryAckTimeout

/-- VERDICT_DATAGRAM_RECEIVE (R446). -/
def execVerdictDatagramReceive (p : Fin 2) (head : Machine.UdpHead) (plain : List Byte) (cipher : List Byte) (s : State) : Host.Outcome State Fault Refusal :=
  s.row (Machine.verdictDatagramReceive p.val head plain cipher)

/-- SUSPECT_DATAGRAM_TIMER (R444). -/
def execSuspectDatagramTimer (s : State) : Host.Outcome State Fault Refusal := s.row Machine.suspectDatagramTimer

/-- NET_LINK_CHANGE (R443). -/
def execNetLinkChange (p : Fin 2) (up : Bool) (s : State) : Host.Outcome State Fault Refusal := s.row (Machine.netLinkChange p.val up)

/-- NET_ADDR_REQUEST (R442). -/
def execNetAddrRequest (p : Fin 2) (v6 : Bool) (addr : List Word) (data : List Byte) (s : State) : Host.Outcome State Fault Refusal :=
  checked (addrOk v6 addr) (s.row (Machine.netAddrRequest p.val v6 addr data))

/-- SUSPECT_DEBOUNCE (R444). -/
def execSuspectDebounce (fcs : Nat) (s : State) : Host.Outcome State Fault Refusal := s.row (Machine.suspectDebounce fcs)

/-- SUSPECT_CLEAR (R444). -/
def execSuspectClear (fcs : Nat) (s : State) : Host.Outcome State Fault Refusal := s.row (Machine.suspectClear fcs)

/-- ARB_SEL_STABLE (R445). -/
def execArbSelStable (level : Bool) (s : State) : Host.Outcome State Fault Refusal := s.row (Machine.arbSelStable level)

/-- FAILOVER_ACTIVATE (R451). -/
def execFailoverActivate (s : State) : Host.Outcome State Fault Refusal := s.row Machine.failoverActivate

/-- FAILOVER_COMPLETE (R451). -/
def execFailoverComplete (s : State) : Host.Outcome State Fault Refusal := s.row Machine.failoverComplete

/-- SELFTEST_TIMER (R453). -/
def execSelftestTimer (p : Fin 2) (s : State) : Host.Outcome State Fault Refusal := s.row (Machine.selftestTimer p.val)

/-- PRBS_TEST_DONE (R454). -/
def execPrbsTestDone (p : Fin 2) (errors : Nat) (s : State) : Host.Outcome State Fault Refusal := s.row (Machine.prbsTestDone p.val errors)

/-- ECHO_REPLY_RECEIVE (R454). -/
def execEchoReplyReceive (p : Fin 2) (seq : Nat) (s : State) : Host.Outcome State Fault Refusal := s.row (Machine.echoReplyReceive p.val seq)

/-- ECHO_TIMEOUT (R454). -/
def execEchoTimeout (p : Fin 2) (s : State) : Host.Outcome State Fault Refusal := s.row (Machine.echoTimeout p.val)

/-- SNAPSHOT_TIMER (R448). -/
def execSnapshotTimer (s : State) : Host.Outcome State Fault Refusal := s.row Machine.snapshotTimer

/-- PATH_HEALTH_TIMER (R456). -/
def execPathHealthTimer (p : Fin 2) (fcs : Nat) (s : State) : Host.Outcome State Fault Refusal := s.row (Machine.pathHealthTimer p.val fcs)

end Sys2Proof.Machine
end

