-- ==== Sys2Proof/Machine/RowsHost.lean ====
section
/-!
DEFINITION. The meanings of the rows for host accesses: each applies the hub operation of its rule.
-/
namespace Sys2Proof.Machine

/-- MB_CMD_WRITE (R480). -/
def execMbCmdWrite (mb : Fin 8) (i : Fin 128) (w : Word) (s : State) : Host.Outcome State Fault Refusal := s.row (Machine.mbCmdWrite mb.val i.val w)

/-- MB_DOORBELL_RING (R480). -/
def execMbDoorbellRing (mb : Fin 8) (s : State) : Host.Outcome State Fault Refusal := s.row (Machine.mbDoorbellRing mb.val)

/-- MB_RELEASE (R481). -/
def execMbRelease (mb : Fin 8) (s : State) : Host.Outcome State Fault Refusal := s.row (Machine.mbRelease mb.val)

/-- MB_COMMAND_TAKE (R482). -/
def execMbCommandTake (s : State) : Host.Outcome State Fault Refusal := s.row Machine.mbCommandTake

/-- CQ_RD_WRITE (R489). -/
def execCqRdWrite (w : Word) (s : State) : Host.Outcome State Fault Refusal := s.row (Machine.cqRdWrite w)

/-- RESET_CTRL_CONTROL (R475). -/
def execResetCtrlControl (s : State) : Host.Outcome State Fault Refusal := s.row Machine.resetCtrlControl

/-- RESET_CTRL_DATAPATH (R475). -/
def execResetCtrlDatapath (s : State) : Host.Outcome State Fault Refusal := s.row Machine.resetCtrlDatapath

/-- SNAP_CTRL_SNAP (R242). -/
def execSnapCtrlSnap (s : State) : Host.Outcome State Fault Refusal := s.row Machine.snapWrite

/-- CMP_CTRL_WRITE (R242). -/
def execCmpCtrlWrite (n : Fin 8) (w : Word) (s : State) : Host.Outcome State Fault Refusal := s.row (Machine.cmpCtrlHost n.val w)

/-- EVT_ENABLE_WRITE (R499). -/
def execEvtEnableWrite (bank : Fin 4) (w : Word) (s : State) : Host.Outcome State Fault Refusal := s.row (Machine.evtEnableWrite bank.val w)

/-- FERRY_ACK_WRITE (R327). -/
def execFerryAckWrite (c : Fin 4) (origin : Fin 16) (lo : Word) (hi : Word) (s : State) : Host.Outcome State Fault Refusal :=
  s.row (Machine.ferryAckWrite c.val origin.val lo hi)

/-- FERRY_CTRL_WRITE (R327). -/
def execFerryCtrlWrite (c : Fin 4) (w : Word) (s : State) : Host.Outcome State Fault Refusal := s.row (Machine.ferryCtrlWrite c.val w)

/-- FERRY_TAIL_WRITE (R326). -/
def execFerryTailWrite (c : Fin 4) (w : Word) (descs : List (Nat × Nat)) (s : State) : Host.Outcome State Fault Refusal :=
  s.row (Machine.ferryTailWrite c.val w descs)

/-- LQ_FLUSH (R338). -/
def execLqFlush (q : Fin 16) (s : State) : Host.Outcome State Fault Refusal := s.row (Machine.lqFlushWrite q.val)

/-- LQ_LOST_READ (R337). -/
def execLqLostRead (r : Machine.BusRead) (s : State) : Host.Outcome State Fault Refusal := checked (touchesLost r) (s.row (Machine.lqLostRead r))

/-- MSIX_UNMASK (R472). -/
def execMsixUnmask (v : Fin 16) (s : State) : Host.Outcome State Fault Refusal := s.row (Machine.msixUnmask v.val)

/-- REGISTER_WRITE (R8). -/
def execRegisterWrite (addr : Nat) (bytes : List (Option Byte)) (s : State) : Host.Outcome State Fault Refusal :=
  s.row (Machine.registerWrite addr bytes)

/-- SPI_WRITE_FRAME (R470). -/
def execSpiWriteFrame (addr : BitVec 24) (ws : List Word) (part : Bool) (s : State) : Host.Outcome State Fault Refusal :=
  s.row (Machine.spiWriteFrame addr.toNat ws part)

/-- SPI_WRITE_CRC_FRAME (R470). -/
def execSpiWriteCrcFrame (addr : BitVec 24) (ws : List Word) (crc : Word) (part : Bool) (s : State) : Host.Outcome State Fault Refusal :=
  s.row (Machine.spiWriteCrcFrame addr.toNat ws crc part)

/-- SPI_READ_FRAME (R469). -/
def execSpiReadFrame (addr : BitVec 24) (n : Nat) (crc : Bool) (part : Bool) (s : State) : Host.Outcome State Fault Refusal :=
  s.row (Machine.spiReadFrame addr.toNat n crc part)

/-- HOST_LINK_RESTART (R467). -/
def execHostLinkRestart (cause : Machine.LinkCause) (s : State) : Host.Outcome State Fault Refusal := s.row (Machine.hostLinkRestart cause)

/-- PCIE_READY (R465). -/
def execPcieReady (s : State) : Host.Outcome State Fault Refusal := s.row Machine.pcieReady

end Sys2Proof.Machine
end

