-- ==== Sys2Proof/Machine/RowsLink.lean ====
section
/-!
DEFINITION. The meanings of the rows for the SL, CASC, SEC, FW and remaining commands: each applies the hub operation of its rule.
-/
namespace Sys2Proof.Machine

/-- SL_LANE_SET (R409). -/
def execSlLaneSet (mb : Fin 8) (tag : Word) (pl : List Word) (s : State) : Host.Outcome State Fault Refusal := s.mailRow Machine.slLaneSet mb tag pl

/-- SL_SLOT_SET (R410). -/
def execSlSlotSet (mb : Fin 8) (tag : Word) (pl : List Word) (s : State) : Host.Outcome State Fault Refusal := s.mailRow Machine.slSlotSet mb tag pl

/-- SL_KEY_SET (R411). -/
def execSlKeySet (mb : Fin 8) (tag : Word) (pl : List Word) (s : State) : Host.Outcome State Fault Refusal := s.mailRow Machine.slKeySet mb tag pl

/-- SL_RESET (R412). -/
def execSlReset (mb : Fin 8) (tag : Word) (pl : List Word) (s : State) : Host.Outcome State Fault Refusal := s.mailRow Machine.slReset mb tag pl

/-- SL_QUAR_RELEASE (R413). -/
def execSlQuarRelease (mb : Fin 8) (tag : Word) (pl : List Word) (s : State) : Host.Outcome State Fault Refusal :=
  s.mailRow Machine.slQuarRelease mb tag pl

/-- SL_STATUS (R414). -/
def execSlStatus (mb : Fin 8) (tag : Word) (pl : List Word) (s : State) : Host.Outcome State Fault Refusal := s.mailRow Machine.slStatus mb tag pl

/-- CASC_SET (R435). -/
def execCascSet (mb : Fin 8) (tag : Word) (pl : List Word) (s : State) : Host.Outcome State Fault Refusal := s.mailRow Machine.cascSet mb tag pl

/-- CASC_PORT_SET (R436). -/
def execCascPortSet (mb : Fin 8) (tag : Word) (pl : List Word) (s : State) : Host.Outcome State Fault Refusal :=
  s.mailRow Machine.cascPortSet mb tag pl

/-- CASC_LINK_RESET (R437). -/
def execCascLinkReset (mb : Fin 8) (tag : Word) (pl : List Word) (s : State) : Host.Outcome State Fault Refusal :=
  s.mailRow Machine.cascLinkReset mb tag pl

/-- CASC_QUAR_RELEASE (R438). -/
def execCascQuarRelease (mb : Fin 8) (tag : Word) (pl : List Word) (s : State) : Host.Outcome State Fault Refusal :=
  s.mailRow Machine.cascQuarRelease mb tag pl

/-- CASC_STATUS (R439). -/
def execCascStatus (mb : Fin 8) (tag : Word) (pl : List Word) (s : State) : Host.Outcome State Fault Refusal := s.mailRow Machine.cascStatus mb tag pl

/-- SEC_STATUS (R558). -/
def execSecStatus (mb : Fin 8) (tag : Word) (pl : List Word) (s : State) : Host.Outcome State Fault Refusal := s.mailRow Machine.secStatus mb tag pl

/-- SEC_JTAG_CHALLENGE (R559). -/
def execSecJtagChallenge (mb : Fin 8) (tag : Word) (pl : List Word) (s : State) : Host.Outcome State Fault Refusal :=
  s.mailRow Machine.secJtagChallenge mb tag pl

/-- SEC_JTAG_UNLOCK (R559). -/
def execSecJtagUnlock (mb : Fin 8) (tag : Word) (pl : List Word) (s : State) : Host.Outcome State Fault Refusal :=
  s.mailRow Machine.secJtagUnlock mb tag pl

/-- SEC_OTP_PROGRAM (R560). -/
def execSecOtpProgram (mb : Fin 8) (tag : Word) (pl : List Word) (s : State) : Host.Outcome State Fault Refusal :=
  s.mailRow Machine.secOtpProgram mb tag pl

/-- FW_WRITE (R561). -/
def execFwWrite (mb : Fin 8) (tag : Word) (pl : List Word) (s : State) : Host.Outcome State Fault Refusal := s.mailRow Machine.fwWrite mb tag pl

/-- FW_VERIFY (R562). -/
def execFwVerify (mb : Fin 8) (tag : Word) (pl : List Word) (s : State) : Host.Outcome State Fault Refusal := s.mailRow Machine.fwVerify mb tag pl

/-- FW_SWITCH (R563). -/
def execFwSwitch (mb : Fin 8) (tag : Word) (pl : List Word) (s : State) : Host.Outcome State Fault Refusal := s.mailRow Machine.fwSwitch mb tag pl

/-- FLASH_STATUS (R564). -/
def execFlashStatus (mb : Fin 8) (tag : Word) (pl : List Word) (s : State) : Host.Outcome State Fault Refusal :=
  s.mailRow Machine.flashStatus mb tag pl

/-- DRAM_RETIRED_READ (R565). -/
def execDramRetiredRead (mb : Fin 8) (tag : Word) (pl : List Word) (s : State) : Host.Outcome State Fault Refusal :=
  s.mailRow Machine.dramRetiredRead mb tag pl

/-- SELFTEST (R566). -/
def execSelftest (mb : Fin 8) (tag : Word) (pl : List Word) (s : State) : Host.Outcome State Fault Refusal := s.mailRow Machine.selftest mb tag pl

end Sys2Proof.Machine
end

