-- ==== Sys2Proof/Machine/RowsMeasure.lean ====
section
/-!
DEFINITION. The meanings of the rows for the TIU, journal and codec commands: each applies the hub operation of its rule.
-/
namespace Sys2Proof.Machine

/-- TIU_INPUT_SET (R293). -/
def execTiuInputSet (mb : Fin 8) (tag : Word) (pl : List Word) (s : State) : Host.Outcome State Fault Refusal :=
  s.mailRow Machine.tiuInputSet mb tag pl

/-- TIU_INTERVAL_SET (R294). -/
def execTiuIntervalSet (mb : Fin 8) (tag : Word) (pl : List Word) (s : State) : Host.Outcome State Fault Refusal :=
  s.mailRow Machine.tiuIntervalSet mb tag pl

/-- TIU_FREQ (R295). -/
def execTiuFreq (mb : Fin 8) (tag : Word) (pl : List Word) (s : State) : Host.Outcome State Fault Refusal := s.mailRow Machine.tiuFreq mb tag pl

/-- TIU_READ (R296). -/
def execTiuRead (mb : Fin 8) (tag : Word) (pl : List Word) (s : State) : Host.Outcome State Fault Refusal := s.mailRow Machine.tiuRead mb tag pl

/-- TIU_STATUS (R297). -/
def execTiuStatus (mb : Fin 8) (tag : Word) (pl : List Word) (s : State) : Host.Outcome State Fault Refusal := s.mailRow Machine.tiuStatus mb tag pl

/-- TIU_CAL_SET (R298). -/
def execTiuCalSet (mb : Fin 8) (tag : Word) (pl : List Word) (s : State) : Host.Outcome State Fault Refusal := s.mailRow Machine.tiuCalSet mb tag pl

/-- CHG_SET (R340). -/
def execChgSet (mb : Fin 8) (tag : Word) (pl : List Word) (s : State) : Host.Outcome State Fault Refusal := s.mailRow Machine.chgSet mb tag pl

/-- CHG_RUN (R341). -/
def execChgRun (mb : Fin 8) (tag : Word) (pl : List Word) (s : State) : Host.Outcome State Fault Refusal := s.mailRow Machine.chgRun mb tag pl

/-- CONSUMER_SET (R342). -/
def execConsumerSet (mb : Fin 8) (tag : Word) (pl : List Word) (s : State) : Host.Outcome State Fault Refusal :=
  s.mailRow Machine.consumerSet mb tag pl

/-- JOURNAL_SET (R343). -/
def execJournalSet (mb : Fin 8) (tag : Word) (pl : List Word) (s : State) : Host.Outcome State Fault Refusal := s.mailRow Machine.journalSet mb tag pl

/-- JOURNAL_STATUS (R344). -/
def execJournalStatus (mb : Fin 8) (tag : Word) (pl : List Word) (s : State) : Host.Outcome State Fault Refusal :=
  s.mailRow Machine.journalStatus mb tag pl

/-- FERRY_KEY_SET (R345). -/
def execFerryKeySet (mb : Fin 8) (tag : Word) (pl : List Word) (s : State) : Host.Outcome State Fault Refusal :=
  s.mailRow Machine.ferryKeySet mb tag pl

/-- LIVE_SET (R346). -/
def execLiveSet (mb : Fin 8) (tag : Word) (pl : List Word) (s : State) : Host.Outcome State Fault Refusal := s.mailRow Machine.liveSet mb tag pl

/-- CHAN_DESC_SET (R347). -/
def execChanDescSet (mb : Fin 8) (tag : Word) (pl : List Word) (s : State) : Host.Outcome State Fault Refusal :=
  s.mailRow Machine.chanDescSet mb tag pl

/-- CODEC_SET (R372). -/
def execCodecSet (mb : Fin 8) (tag : Word) (pl : List Word) (s : State) : Host.Outcome State Fault Refusal := s.mailRow Machine.codecSet mb tag pl

/-- CODEC_CHAN_SET (R373). -/
def execCodecChanSet (mb : Fin 8) (tag : Word) (pl : List Word) (s : State) : Host.Outcome State Fault Refusal :=
  s.mailRow Machine.codecChanSet mb tag pl

/-- CODEC_STATUS (R374). -/
def execCodecStatus (mb : Fin 8) (tag : Word) (pl : List Word) (s : State) : Host.Outcome State Fault Refusal :=
  s.mailRow Machine.codecStatus mb tag pl

/-- CODEC_STATE_SAVE (R375). -/
def execCodecStateSave (mb : Fin 8) (tag : Word) (pl : List Word) (s : State) : Host.Outcome State Fault Refusal :=
  s.mailRow Machine.codecStateSave mb tag pl

/-- CODEC_STATE_READ (R376). -/
def execCodecStateRead (mb : Fin 8) (tag : Word) (pl : List Word) (s : State) : Host.Outcome State Fault Refusal :=
  s.mailRow Machine.codecStateRead mb tag pl

/-- CODEC_STATE_WRITE (R376). -/
def execCodecStateWrite (mb : Fin 8) (tag : Word) (pl : List Word) (s : State) : Host.Outcome State Fault Refusal :=
  s.mailRow Machine.codecStateWrite mb tag pl

/-- CODEC_CHECK (R377). -/
def execCodecCheck (mb : Fin 8) (tag : Word) (pl : List Word) (s : State) : Host.Outcome State Fault Refusal := s.mailRow Machine.codecCheck mb tag pl

end Sys2Proof.Machine
end

