-- ==== Sys2Proof/Machine/RowsMisc.lean ====
section
/-!
DEFINITION. The meanings of the rows for the remaining events: each applies the hub operation of its rule.
-/
namespace Sys2Proof.Machine

/-- PTP_MESSAGE_IGNORED (R249). -/
def execPtpMessageIgnored (p : Fin 2) (s : State) : Host.Outcome State Fault Refusal := s.row (Machine.ptpMessageIgnored p.val)

/-- ROUTER_ADVERTISEMENT_RECEIVE (R460). -/
def execRouterAdvertisementReceive (p : Fin 2) (router : List Byte) (s : State) : Host.Outcome State Fault Refusal :=
  checked (routerOk router) (s.row (Machine.routerAdvertisementReceive p.val router))

/-- ADDRESS_RESOLUTION_REPLY (R453). -/
def execAddressResolutionReply (p : Fin 2) (s : State) : Host.Outcome State Fault Refusal := s.row (Machine.addressResolutionReply p.val)

/-- FE_EXCURSION_END (R69). -/
def execFeExcursionEnd (ch : Fin 64) (s : State) : Host.Outcome State Fault Refusal := s.row (Machine.feExcursionEnd ch.val)

/-- FOLLOW_MIN_EXPIRY (R204). -/
def execFollowMinExpiry (s : State) : Host.Outcome State Fault Refusal := s.row Machine.followMinExpiry

/-- PPS_OUT_PULSE_END (R246). -/
def execPpsOutPulseEnd (s : State) : Host.Outcome State Fault Refusal := s.row Machine.ppsOutPulseEnd

/-- PCIE_CONFIGURATION_WRITE (R466). -/
def execPcieConfigurationWrite (bme : Bool) (d0 : Bool) (s : State) : Host.Outcome State Fault Refusal :=
  s.row (Machine.pcieConfigurationWrite bme d0)

/-- JOURNAL_PAGE_CHECK_DONE (R540). -/
def execJournalPageCheckDone (page : Nat) (ok : Bool) (s : State) : Host.Outcome State Fault Refusal := s.row (Machine.journalPageCheckDone page ok)

/-- TRIAL_S_EXPIRY (R545). -/
def execTrialSExpiry (s : State) : Host.Outcome State Fault Refusal := s.row Machine.trialSExpiry

/-- SL_RESET_TIMEOUT (R412). -/
def execSlResetTimeout (lane : Fin 16) (s : State) : Host.Outcome State Fault Refusal := s.row (Machine.slResetTimeout lane.val)

/-- CASC_LINK_RESET_TIMEOUT (R437). -/
def execCascLinkResetTimeout (p : Fin 2) (s : State) : Host.Outcome State Fault Refusal := s.row (Machine.cascLinkResetTimeout p.val)

/-- FLASH_OPERATION_DONE (R553). -/
def execFlashOperationDone (ok : Bool) (s : State) : Host.Outcome State Fault Refusal := s.row (Machine.flashOperationDone ok)

/-- OTP_PROGRAM_DONE (R560). -/
def execOtpProgramDone (ok : Bool) (s : State) : Host.Outcome State Fault Refusal := s.row (Machine.otpProgramDone ok)

/-- SELFTEST_DONE (R566). -/
def execSelftestDone (failed : Nat) (s : State) : Host.Outcome State Fault Refusal := s.row (Machine.selftestDone failed)

/-- CODEC_CHECK_DONE (R377). -/
def execCodecCheckDone (s : State) : Host.Outcome State Fault Refusal := s.row Machine.codecCheckDone

end Sys2Proof.Machine
end

