-- ==== Sys2Proof/Machine/RowsPower.lean ====
section
/-!
DEFINITION. The meanings of the rows for reset, power, clocks and gates: each applies the hub operation of its rule.
-/
namespace Sys2Proof.Machine

/-- POWER_ON_RESET (R537). -/
def execPowerOnReset (s : State) : Host.Outcome State Fault Refusal := s.powerRow Machine.powerOnReset

/-- RESET_N_ASSERT (R537). -/
def execResetNAssert (s : State) : Host.Outcome State Fault Refusal := s.powerRow Machine.resetNAssert

/-- COLD_BOOT (R540). -/
def execColdBoot (b : Machine.BootIn) (s : State) : Host.Outcome State Fault Refusal := checked (strapsOk b.straps) (s.powerRow (Machine.coldBoot b))

/-- BOOT_COMPLETE (R540). -/
def execBootComplete (arbSel : Bool) (s : State) : Host.Outcome State Fault Refusal := s.row (Machine.bootComplete arbSel)

/-- CONTROL_RESET (R538). -/
def execControlReset (s : State) : Host.Outcome State Fault Refusal := s.row Machine.controlResetRow

/-- FIRMWARE_READY (R538). -/
def execFirmwareReady (fastOk : Bool) (okThis : Bool) (okOther : Bool) (s : State) : Host.Outcome State Fault Refusal :=
  s.row (Machine.firmwareReady fastOk okThis okOther)

/-- LOCKSTEP_MISMATCH (R538). -/
def execLockstepMismatch (s : State) : Host.Outcome State Fault Refusal := s.row Machine.lockstepMismatch

/-- WATCHDOG_EXPIRY (R538). -/
def execWatchdogExpiry (s : State) : Host.Outcome State Fault Refusal := s.row Machine.watchdogExpiry

/-- TRIAL_REVERT (R545). -/
def execTrialRevert (s : State) : Host.Outcome State Fault Refusal := s.row Machine.trialRevertRow

/-- DATAPATH_WARM_RESET (R539). -/
def execDatapathWarmReset (s : State) : Host.Outcome State Fault Refusal := s.row Machine.datapathWarmReset

/-- PER_BLOCK_RESET (R556). -/
def execPerBlockReset (s : State) : Host.Outcome State Fault Refusal := s.row Machine.perBlockReset

/-- PFW_WARNING (R546). -/
def execPfwWarning (complete : Bool) (s : State) : Host.Outcome State Fault Refusal := s.row (Machine.pfwWarning complete)

/-- RETAIN_RESUME (R549). -/
def execRetainResume (b : Machine.ResumeIn) (s : State) : Host.Outcome State Fault Refusal := s.powerRow (Machine.retainResume b)

/-- SUPPLY_WARN (R536). -/
def execSupplyWarn (supply : Fin 16) (s : State) : Host.Outcome State Fault Refusal := s.row (Machine.supplyWarn supply.val)

/-- STATE_SAVE_TIMER (R553). -/
def execStateSaveTimer (s : State) : Host.Outcome State Fault Refusal := s.row Machine.stateSaveTimer

/-- ROOT_PLL_LOCK (R513). -/
def execRootPllLock (s : State) : Host.Outcome State Fault Refusal := s.row Machine.rootPllLock

/-- ROOT_PLL_UNLOCK (R521). -/
def execRootPllUnlock (s : State) : Host.Outcome State Fault Refusal := s.row Machine.rootPllUnlock

/-- ROOT_GATE_OPEN (R521). -/
def execRootGateOpen (s : State) : Host.Outcome State Fault Refusal := s.row Machine.rootGateOpen

/-- HOLD_TIMEOUT_STOP (R523). -/
def execHoldTimeoutStop (s : State) : Host.Outcome State Fault Refusal := s.row Machine.holdTimeoutStop

/-- STOPPED_RELOCK_ATTEMPT (R523). -/
def execStoppedRelockAttempt (s : State) : Host.Outcome State Fault Refusal := s.row Machine.stoppedRelockAttempt

/-- STOPPED_RECOVERY (R523). -/
def execStoppedRecovery (src : Option Machine.SrcReading) (s : State) : Host.Outcome State Fault Refusal := s.row (Machine.stoppedRecovery src)

/-- CLK_MON_WINDOW (R517). -/
def execClkMonWindow (src : Fin 5) (count : Nat) (s : State) : Host.Outcome State Fault Refusal := s.row (Machine.clkMonWindow src.val count)

/-- CLK_STOP_DETECT (R517). -/
def execClkStopDetect (src : Fin 5) (s : State) : Host.Outcome State Fault Refusal := s.row (Machine.clkStopDetect src.val)

/-- OSC_DELAY_EXPIRY (R516). -/
def execOscDelayExpiry (s : State) : Host.Outcome State Fault Refusal := s.row Machine.oscDelayExpiry

/-- XO_START_TIMEOUT (R516). -/
def execXoStartTimeout (s : State) : Host.Outcome State Fault Refusal := s.row Machine.xoStartTimeout

/-- MUX_FORCED_SWITCH (R520). -/
def execMuxForcedSwitch (host : Bool) (s : State) : Host.Outcome State Fault Refusal := s.row (Machine.muxForcedSwitch host)

/-- GATE_QUIESCE_ACCEPT (R526). -/
def execGateQuiesceAccept (gate : Fin 64) (s : State) : Host.Outcome State Fault Refusal := s.row (Machine.gateQuiesceAccept gate.val)

/-- GATE_QUIESCE_TIMEOUT (R526). -/
def execGateQuiesceTimeout (gate : Fin 64) (s : State) : Host.Outcome State Fault Refusal := s.row (Machine.gateQuiesceTimeout gate.val)

/-- FMC_COMPLETE (R527). -/
def execFmcComplete (edges : Nat) (s : State) : Host.Outcome State Fault Refusal := s.row (Machine.fmcComplete edges)

end Sys2Proof.Machine
end

