-- ==== Sys2Proof/Machine/RowsSignal.lean ====
section
/-!
DEFINITION. The meanings of the rows for time-interval, analogue and calibration events: each applies the hub operation of its rule.
-/
namespace Sys2Proof.Machine

/-- TIU_EDGE (R277). -/
def execTiuEdge (i : Fin 8) (falling : Bool) (tap : Fin 512) (drained : Nat) (s : State) : Host.Outcome State Fault Refusal :=
  s.row (Machine.tiuEdge i.val falling tap.val drained)

/-- IU_WIN_TIMEOUT (R287). -/
def execIuWinTimeout (u : Fin 8) (s : State) : Host.Outcome State Fault Refusal := s.row (Machine.iuWinTimeout u.val)

/-- TIU_FREQ_GATE_END (R289). -/
def execTiuFreqGateEnd (i : Fin 8) (s : State) : Host.Outcome State Fault Refusal := s.row (Machine.tiuFreqGateEnd i.val)

/-- TIU_CAL_TIMER (R281). -/
def execTiuCalTimer (s : State) : Host.Outcome State Fault Refusal := s.row Machine.tiuCalTimer

/-- TIU_HANDOVER_DONE (R282). -/
def execTiuHandoverDone (pairs : List Machine.PairedStamp) (s : State) : Host.Outcome State Fault Refusal := s.row (Machine.tiuHandoverDone pairs)

/-- TIU_CAL_DONE (R283). -/
def execTiuCalDone (hits : List (List Nat)) (s : State) : Host.Outcome State Fault Refusal := s.row (Machine.tiuCalDone hits)

/-- TACH_PULSE (R130). -/
def execTachPulse (i : Fin 8) (s : State) : Host.Outcome State Fault Refusal := s.row (Machine.tachPulseRow i.val)

/-- FE_FAULT_DECLARE (R72). -/
def execFeFaultDeclare (ch : Fin 64) (pin : Fin 4) (above : Bool) (s : State) : Host.Outcome State Fault Refusal :=
  s.row (Machine.feFaultDeclare ch.val pin.val above)

/-- FE_FAULT_CLEAR_DECLARE (R69). -/
def execFeFaultClearDeclare (ch : Fin 64) (s : State) : Host.Outcome State Fault Refusal := s.row (Machine.feFaultClearDeclare ch.val)

/-- SCAN_VISIT_DONE (R58). -/
def execScanVisitDone (m : Fin 8) (e : Fin 9) (first : List Int) (second : List Int) (out : Bool) (above : Bool) (pin : Fin 4) (ovrFirst : Bool) (ovrSecond : Bool) (refOk : Bool) (busy : Bool) (s : State) : Host.Outcome State Fault Refusal :=
  checked (halvesOk first second) (s.row (Machine.scanVisitDone m.val e.val first second out above pin.val ovrFirst ovrSecond refOk busy))

/-- EXC_FAULT_ONSET (R67). -/
def execExcFaultOnset (x : Fin 8) (s : State) : Host.Outcome State Fault Refusal := s.row (Machine.excFaultOnset x.val)

/-- EXC_FAULT_END (R67). -/
def execExcFaultEnd (x : Fin 8) (s : State) : Host.Outcome State Fault Refusal := s.row (Machine.excFaultEnd x.val)

/-- EXC_SWITCH (R66). -/
def execExcSwitch (x : Fin 8) (s : State) : Host.Outcome State Fault Refusal := s.row (Machine.excSwitch x.val)

/-- DIE_TEMP_SAMPLE (R90). -/
def execDieTempSample (temps : List Int) (s : State) : Host.Outcome State Fault Refusal :=
  checked (nineSensors temps) (s.row (Machine.dieTempSample temps))

/-- CAL_MAX_INT_EXPIRY (R90). -/
def execCalMaxIntExpiry (g : Fin 8) (s : State) : Host.Outcome State Fault Refusal := s.row (Machine.calMaxIntExpiry g.val)

/-- CAL_SLOT_STEP (R92). -/
def execCalSlotStep (refOk : Bool) (s : State) : Host.Outcome State Fault Refusal := s.row (Machine.calSlotStep refOk)

/-- CAL_MEASURE_DONE (R96). -/
def execCalMeasureDone (zero : List Int) (plus : List Int) (minus : List Int) (ovrZero : Bool) (ovrVc : Bool) (s : State) : Host.Outcome State Fault Refusal :=
  checked ((zero ++ plus ++ minus).all codeOk) (s.row (Machine.calMeasureDone zero plus minus ovrZero ovrVc))

/-- TRIM_STEP (R99). -/
def execTrimStep (ch : Fin 64) (s : State) : Host.Outcome State Fault Refusal := s.row (Machine.trimStep ch.val)

/-- PEPPER_OUTPUT (R120). -/
def execPepperOutput (ch : Fin 640) (codes : List (Int × Bool)) (shadow : List (Int × Bool)) (s : State) : Host.Outcome State Fault Refusal :=
  checked ((codes ++ shadow).all fun c => codeOk c.1) (s.row (Machine.pepperOutput ch.val codes shadow))

/-- CHAIN_OUTPUT (R136). -/
def execChainOutput (ch : Fin 640) (s : State) : Host.Outcome State Fault Refusal := s.row (Machine.chainOutput ch.val)

end Sys2Proof.Machine
end

