-- ==== Sys2Proof/Machine/RowsStore.lean ====
section
/-!
DEFINITION. The meanings of the rows for landing, journal, triggers and actions: each applies the hub operation of its rule.
-/
namespace Sys2Proof.Machine

/-- STAGING_RELEASE (R73). -/
def execStagingRelease (ch : Fin 640) (s : State) : Host.Outcome State Fault Refusal := s.row (Machine.stagingRelease ch.val)

/-- PART_CLOSE (R309). -/
def execPartClose (fails : List (Nat × Nat)) (s : State) : Host.Outcome State Fault Refusal := s.row (Machine.partClose fails)

/-- PART_LANDED (R317). -/
def execPartLanded (s : State) : Host.Outcome State Fault Refusal := s.row Machine.partLanded

/-- LATE_WAIT_EXPIRY (R311). -/
def execLateWaitExpiry (g : Fin 64) (fails : List Nat) (s : State) : Host.Outcome State Fault Refusal := s.row (Machine.lateWaitExpiry g.val fails)

/-- RECORD_OFFER (R322). -/
def execRecordOffer (c : Fin 4) (origin : Fin 16) (descs : List (Nat × Nat)) (s : State) : Host.Outcome State Fault Refusal :=
  s.row (Machine.recordOffer c.val origin.val descs)

/-- RING_FLUSH_TIMEOUT (R326). -/
def execRingFlushTimeout (c : Fin 4) (s : State) : Host.Outcome State Fault Refusal := s.row (Machine.ringFlushTimeout c.val)

/-- INDEX_SCRUB (R320). -/
def execIndexScrub (ups : List Machine.IndexUpset) (s : State) : Host.Outcome State Fault Refusal := s.row (Machine.indexScrub ups)

/-- PAGE_SCRUB (R333). -/
def execPageScrub (page : Nat) (n : Nat) (s : State) : Host.Outcome State Fault Refusal := s.row (Machine.pageScrub page n)

/-- DRAM_UNCORRECTABLE (R334). -/
def execDramUncorrectable (page : Nat) (s : State) : Host.Outcome State Fault Refusal := s.row (Machine.dramUncorrectable page)

/-- SEGMENT_COMPLETE (R181). -/
def execSegmentComplete (g : Fin 32) (s : State) : Host.Outcome State Fault Refusal := s.row (Machine.segmentComplete g.val)

/-- SEGMENT_LANDED (R181). -/
def execSegmentLanded (g : Fin 32) (fails : List Nat) (s : State) : Host.Outcome State Fault Refusal := s.row (Machine.segmentLanded g.val fails)

/-- AUTO_SEGMENT (R188). -/
def execAutoSegment (g : Fin 32) (s : State) : Host.Outcome State Fault Refusal := s.row (Machine.autoSegment g.val)

/-- CODEC_DEMOTE (R367). -/
def execCodecDemote (stream : Fin 96) (s : State) : Host.Outcome State Fault Refusal := s.row (Machine.codecDemote stream.val)

/-- CODEC_PROMOTE (R367). -/
def execCodecPromote (stream : Fin 96) (s : State) : Host.Outcome State Fault Refusal := s.row (Machine.codecPromote stream.val)

/-- SYNC_APPLY (R160). -/
def execSyncApply (s : State) : Host.Outcome State Fault Refusal := s.row Machine.syncApply

/-- CHG_RUN_APPLY (R301). -/
def execChgRunApply (s : State) : Host.Outcome State Fault Refusal := s.row Machine.chgRunApply

/-- TRG_ARM_APPLY (R196). -/
def execTrgArmApply (s : State) : Host.Outcome State Fault Refusal := s.row Machine.trgArmApply

/-- BANK_SWAP_START (R122). -/
def execBankSwapStart (s : State) : Host.Outcome State Fault Refusal := s.row Machine.bankSwapStart

/-- BANK_FADE_COMPLETE (R123). -/
def execBankFadeComplete (profile : Fin 32) (s : State) : Host.Outcome State Fault Refusal := s.row (Machine.bankFadeComplete profile.val)

/-- CHAN_PARAM_APPLY (R147). -/
def execChanParamApply (s : State) : Host.Outcome State Fault Refusal := s.row Machine.chanParamApply

/-- CHAN_DESC_LAND (R347). -/
def execChanDescLand (s : State) : Host.Outcome State Fault Refusal := s.row Machine.chanDescLand

/-- TRIG_INPUT_CHANGE (R168). -/
def execTrigInputChange (k : Fin 8) (level : Bool) (s : State) : Host.Outcome State Fault Refusal := s.row (Machine.trigInputChange k.val level)

/-- TRIG_PULSE_END (R191). -/
def execTrigPulseEnd (k : Fin 8) (s : State) : Host.Outcome State Fault Refusal := s.row (Machine.trigPulseEnd k.val)

/-- CT_HOLD_EXPIRY (R190). -/
def execCtHoldExpiry (line : Fin 16) (s : State) : Host.Outcome State Fault Refusal := s.row (Machine.ctHoldExpiry line.val)

/-- ACT_PULSE_END (R204). -/
def execActPulseEnd (rule : Fin 32) (s : State) : Host.Outcome State Fault Refusal := s.row (Machine.actPulseEnd rule.val)

/-- ACT_DEADMAN_EXPIRY (R208). -/
def execActDeadmanExpiry (s : State) : Host.Outcome State Fault Refusal := s.row Machine.actDeadmanExpiry

end Sys2Proof.Machine
end

