-- ==== Sys2Proof/Machine/RowsSys.lean ====
section
/-!
DEFINITION. The meanings of the rows for the SYS, LOG and CLK commands: each applies the hub operation of its rule.
-/
namespace Sys2Proof.Machine

/-- SYS_NOP (R495). -/
def execSysNop (mb : Fin 8) (tag : Word) (pl : List Word) (s : State) : Host.Outcome State Fault Refusal := s.mailRow Machine.sysNop mb tag pl

/-- SYS_INFO (R496). -/
def execSysInfo (mb : Fin 8) (tag : Word) (pl : List Word) (s : State) : Host.Outcome State Fault Refusal := s.mailRow Machine.sysInfo mb tag pl

/-- SYS_HANDLE_QUERY (R497). -/
def execSysHandleQuery (mb : Fin 8) (tag : Word) (pl : List Word) (s : State) : Host.Outcome State Fault Refusal :=
  s.mailRow Machine.sysHandleQuery mb tag pl

/-- SYS_ABORT (R498). -/
def execSysAbort (mb : Fin 8) (tag : Word) (pl : List Word) (s : State) : Host.Outcome State Fault Refusal := s.mailRow Machine.sysAbort mb tag pl

/-- SYS_RESET (R556). -/
def execSysReset (mb : Fin 8) (tag : Word) (pl : List Word) (s : State) : Host.Outcome State Fault Refusal := s.mailRow Machine.sysReset mb tag pl

/-- SYS_STATE_SAVE (R557). -/
def execSysStateSave (mb : Fin 8) (tag : Word) (pl : List Word) (s : State) : Host.Outcome State Fault Refusal :=
  s.mailRow Machine.sysStateSave mb tag pl

/-- LOG_MARK (R512). -/
def execLogMark (mb : Fin 8) (tag : Word) (pl : List Word) (s : State) : Host.Outcome State Fault Refusal := s.mailRow Machine.logMark mb tag pl

/-- CLK_STATUS (R530). -/
def execClkStatus (mb : Fin 8) (tag : Word) (pl : List Word) (s : State) : Host.Outcome State Fault Refusal := s.mailRow Machine.clkStatus mb tag pl

/-- CLK_FMC (R531). -/
def execClkFmc (mb : Fin 8) (tag : Word) (pl : List Word) (s : State) : Host.Outcome State Fault Refusal := s.mailRow Machine.clkFmc mb tag pl

/-- CLK_GATE_SET (R532). -/
def execClkGateSet (mb : Fin 8) (tag : Word) (pl : List Word) (s : State) : Host.Outcome State Fault Refusal := s.mailRow Machine.clkGateSet mb tag pl

/-- CLK_MON_SET (R533). -/
def execClkMonSet (mb : Fin 8) (tag : Word) (pl : List Word) (s : State) : Host.Outcome State Fault Refusal := s.mailRow Machine.clkMonSet mb tag pl

end Sys2Proof.Machine
end

