-- ==== Sys2Proof/Machine/RowsTime.lean ====
section
/-!
DEFINITION. The meanings of the rows for the TIME and NET commands: each applies the hub operation of its rule.
-/
namespace Sys2Proof.Machine

/-- TIME_SRC_SET (R243). -/
def execTimeSrcSet (mb : Fin 8) (tag : Word) (pl : List Word) (s : State) : Host.Outcome State Fault Refusal := s.mailRow Machine.timeSrcSet mb tag pl

/-- TIME_REF_SET (R244). -/
def execTimeRefSet (mb : Fin 8) (tag : Word) (pl : List Word) (s : State) : Host.Outcome State Fault Refusal := s.mailRow Machine.timeRefSet mb tag pl

/-- TIME_SET (R245). -/
def execTimeSet (mb : Fin 8) (tag : Word) (pl : List Word) (s : State) : Host.Outcome State Fault Refusal := s.mailRow Machine.timeSet mb tag pl

/-- TIME_PPS_OUT_SET (R246). -/
def execTimePpsOutSet (mb : Fin 8) (tag : Word) (pl : List Word) (s : State) : Host.Outcome State Fault Refusal :=
  s.mailRow Machine.timePpsOutSet mb tag pl

/-- TIME_STATUS_READ (R247). -/
def execTimeStatusRead (mb : Fin 8) (tag : Word) (pl : List Word) (s : State) : Host.Outcome State Fault Refusal :=
  s.mailRow Machine.timeStatusRead mb tag pl

/-- NET_PTP_SET (R267). -/
def execNetPtpSet (mb : Fin 8) (tag : Word) (pl : List Word) (s : State) : Host.Outcome State Fault Refusal := s.mailRow Machine.netPtpSet mb tag pl

/-- NET_PORT_COMP_SET (R268). -/
def execNetPortCompSet (mb : Fin 8) (tag : Word) (pl : List Word) (s : State) : Host.Outcome State Fault Refusal :=
  s.mailRow Machine.netPortCompSet mb tag pl

/-- NET_PORT_SET (R458). -/
def execNetPortSet (mb : Fin 8) (tag : Word) (pl : List Word) (s : State) : Host.Outcome State Fault Refusal := s.mailRow Machine.netPortSet mb tag pl

/-- NET_RR_CONFIRM (R269). -/
def execNetRrConfirm (mb : Fin 8) (tag : Word) (pl : List Word) (s : State) : Host.Outcome State Fault Refusal :=
  s.mailRow Machine.netRrConfirm mb tag pl

/-- NET_AUTH_KEY_SET (R270). -/
def execNetAuthKeySet (mb : Fin 8) (tag : Word) (pl : List Word) (s : State) : Host.Outcome State Fault Refusal :=
  s.mailRow Machine.netAuthKeySet mb tag pl

/-- NET_FRAME_WRITE (R271). -/
def execNetFrameWrite (mb : Fin 8) (tag : Word) (pl : List Word) (s : State) : Host.Outcome State Fault Refusal :=
  s.mailRow Machine.netFrameWrite mb tag pl

/-- NET_FRAME_SEND (R272). -/
def execNetFrameSend (mb : Fin 8) (tag : Word) (pl : List Word) (s : State) : Host.Outcome State Fault Refusal :=
  s.mailRow Machine.netFrameSend mb tag pl

/-- NET_LAUNCH (R273). -/
def execNetLaunch (mb : Fin 8) (tag : Word) (pl : List Word) (s : State) : Host.Outcome State Fault Refusal := s.mailRow Machine.netLaunch mb tag pl

/-- NET_TXTS_READ (R274). -/
def execNetTxtsRead (mb : Fin 8) (tag : Word) (pl : List Word) (s : State) : Host.Outcome State Fault Refusal :=
  s.mailRow Machine.netTxtsRead mb tag pl

/-- NET_PTP_STATUS (R275). -/
def execNetPtpStatus (mb : Fin 8) (tag : Word) (pl : List Word) (s : State) : Host.Outcome State Fault Refusal :=
  s.mailRow Machine.netPtpStatus mb tag pl

/-- NET_QUAR_RELEASE (R276). -/
def execNetQuarRelease (mb : Fin 8) (tag : Word) (pl : List Word) (s : State) : Host.Outcome State Fault Refusal :=
  s.mailRow Machine.netQuarRelease mb tag pl

/-- NET_PATH_SET (R459). -/
def execNetPathSet (mb : Fin 8) (tag : Word) (pl : List Word) (s : State) : Host.Outcome State Fault Refusal := s.mailRow Machine.netPathSet mb tag pl

/-- NET_ADDR_SET (R460). -/
def execNetAddrSet (mb : Fin 8) (tag : Word) (pl : List Word) (s : State) : Host.Outcome State Fault Refusal := s.mailRow Machine.netAddrSet mb tag pl

/-- NET_VERDICT (R461). -/
def execNetVerdict (mb : Fin 8) (tag : Word) (pl : List Word) (s : State) : Host.Outcome State Fault Refusal := s.mailRow Machine.netVerdict mb tag pl

/-- NET_PATH_STATUS (R462). -/
def execNetPathStatus (mb : Fin 8) (tag : Word) (pl : List Word) (s : State) : Host.Outcome State Fault Refusal :=
  s.mailRow Machine.netPathStatus mb tag pl

end Sys2Proof.Machine
end

