-- ==== Sys2Proof/Machine/RowsTrigger.lean ====
section
/-!
DEFINITION. The meanings of the rows for the TRG, CAP and ACT commands: each applies the hub operation of its rule.
-/
namespace Sys2Proof.Machine

/-- TRG_UNIT_SET (R193). -/
def execTrgUnitSet (mb : Fin 8) (tag : Word) (pl : List Word) (s : State) : Host.Outcome State Fault Refusal := s.mailRow Machine.trgUnitSet mb tag pl

/-- TRG_QUAL_SET (R194). -/
def execTrgQualSet (mb : Fin 8) (tag : Word) (pl : List Word) (s : State) : Host.Outcome State Fault Refusal := s.mailRow Machine.trgQualSet mb tag pl

/-- CAP_GROUP_SET (R195). -/
def execCapGroupSet (mb : Fin 8) (tag : Word) (pl : List Word) (s : State) : Host.Outcome State Fault Refusal :=
  s.mailRow Machine.capGroupSet mb tag pl

/-- TRG_ARM (R196). -/
def execTrgArm (mb : Fin 8) (tag : Word) (pl : List Word) (s : State) : Host.Outcome State Fault Refusal := s.mailRow Machine.trgArm mb tag pl

/-- TRG_SOFT (R197). -/
def execTrgSoft (mb : Fin 8) (tag : Word) (pl : List Word) (s : State) : Host.Outcome State Fault Refusal := s.mailRow Machine.trgSoft mb tag pl

/-- TRG_STATUS (R198). -/
def execTrgStatus (mb : Fin 8) (tag : Word) (pl : List Word) (s : State) : Host.Outcome State Fault Refusal := s.mailRow Machine.trgStatus mb tag pl

/-- TRG_IO_SET (R199). -/
def execTrgIoSet (mb : Fin 8) (tag : Word) (pl : List Word) (s : State) : Host.Outcome State Fault Refusal := s.mailRow Machine.trgIoSet mb tag pl

/-- ACT_RULE_SET (R214). -/
def execActRuleSet (mb : Fin 8) (tag : Word) (pl : List Word) (s : State) : Host.Outcome State Fault Refusal := s.mailRow Machine.actRuleSet mb tag pl

/-- ACT_PIN_SET (R215). -/
def execActPinSet (mb : Fin 8) (tag : Word) (pl : List Word) (s : State) : Host.Outcome State Fault Refusal := s.mailRow Machine.actPinSet mb tag pl

/-- ACT_ARM (R216). -/
def execActArm (mb : Fin 8) (tag : Word) (pl : List Word) (s : State) : Host.Outcome State Fault Refusal := s.mailRow Machine.actArm mb tag pl

/-- ACT_CLEAR (R217). -/
def execActClear (mb : Fin 8) (tag : Word) (pl : List Word) (s : State) : Host.Outcome State Fault Refusal := s.mailRow Machine.actClear mb tag pl

/-- ACT_STATUS (R218). -/
def execActStatus (mb : Fin 8) (tag : Word) (pl : List Word) (s : State) : Host.Outcome State Fault Refusal := s.mailRow Machine.actStatus mb tag pl

/-- ACT_FAILSAFE_PROGRAM (R219). -/
def execActFailsafeProgram (mb : Fin 8) (tag : Word) (pl : List Word) (s : State) : Host.Outcome State Fault Refusal :=
  s.mailRow Machine.actFailsafeProgram mb tag pl

end Sys2Proof.Machine
end

