-- ==== Sys2Proof/Machine/RowsWire.lean ====
section
/-!
DEFINITION. The meanings of the rows for sensor lanes and cascade: each applies the hub operation of its rule.
-/
namespace Sys2Proof.Machine

/-- SL_LOSS_OF_LOCK (R381). -/
def execSlLossOfLock (lane : Fin 16) (s : State) : Host.Outcome State Fault Refusal := s.row (Machine.slLossOfLock lane.val)

/-- SL_STEP_TIMEOUT (R382). -/
def execSlStepTimeout (x : Machine.LaneStep) (s : State) : Host.Outcome State Fault Refusal := s.row (Machine.slStepTimeout x.lane x.phy)

/-- SL_RETRY_TIMER (R382). -/
def execSlRetryTimer (lane : Fin 16) (s : State) : Host.Outcome State Fault Refusal := s.row (Machine.slRetryTimer lane.val)

/-- SL_HELLO_RECEIVE (R403). -/
def execSlHelloReceive (lane : Fin 16) (intact : Bool) (frame : List Byte) (s : State) : Host.Outcome State Fault Refusal :=
  s.row (Machine.slHelloReceive lane.val intact frame)

/-- SL_SAMPLE_FRAME (R396). -/
def execSlSampleFrame (lane : Fin 16) (intact : Bool) (frame : List Byte) (s : State) : Host.Outcome State Fault Refusal :=
  s.row (Machine.slSampleFrame lane.val intact frame)

/-- SL_SLOT_ACK_RECEIVE (R410). -/
def execSlSlotAckReceive (lane : Fin 16) (intact : Bool) (frame : List Byte) (s : State) : Host.Outcome State Fault Refusal :=
  s.row (Machine.slSlotAckReceive lane.val intact frame)

/-- SL_SLOT_SET_TIMEOUT (R410). -/
def execSlSlotSetTimeout (lane : Fin 16) (slot : Fin 32) (s : State) : Host.Outcome State Fault Refusal :=
  s.row (Machine.slSlotSetTimeout lane.val slot.val)

/-- SL_RELEASED_RECEIVE (R399). -/
def execSlReleasedReceive (lane : Fin 16) (intact : Bool) (frame : List Byte) (s : State) : Host.Outcome State Fault Refusal :=
  s.row (Machine.slReleasedReceive lane.val intact frame)

/-- SL_SLIP_RECEIVE (R387). -/
def execSlSlipReceive (lane : Fin 16) (intact : Bool) (frame : List Byte) (s : State) : Host.Outcome State Fault Refusal :=
  s.row (Machine.slSlipReceive lane.val intact frame)

/-- SL_POD_HEALTH_RECEIVE (R394). -/
def execSlPodHealthReceive (lane : Fin 16) (intact : Bool) (frame : List Byte) (s : State) : Host.Outcome State Fault Refusal :=
  s.row (Machine.slPodHealthReceive lane.val intact frame)

/-- SL_DELAY_ECHO (R389). -/
def execSlDelayEcho (lane : Fin 16) (trip : Machine.RoundTrip) (turn : Nat) (s : State) : Host.Outcome State Fault Refusal :=
  s.row (Machine.slDelayEcho lane.val trip turn)

/-- SL_PROBE_TIMER (R389). -/
def execSlProbeTimer (lane : Fin 16) (s : State) : Host.Outcome State Fault Refusal := s.row (Machine.slProbeTimer lane.val)

/-- SL_LANDED_TIMER (R397). -/
def execSlLandedTimer (lane : Fin 16) (s : State) : Host.Outcome State Fault Refusal := s.row (Machine.slLandedTimer lane.val)

/-- SL_ABORT_SYMBOL (R380). -/
def execSlAbortSymbol (lane : Fin 16) (s : State) : Host.Outcome State Fault Refusal := s.row (Machine.slAbortSymbol lane.val)

/-- CASC_LOSS_OF_LOCK (R418). -/
def execCascLossOfLock (p : Fin 2) (s : State) : Host.Outcome State Fault Refusal := s.row (Machine.cascLossOfLock p.val)

/-- CASC_ALIGN_MARKER (R417). -/
def execCascAlignMarker (p : Fin 2) (lane : Fin 2) (g1 : Nat) (g2 : Nat) (skew : Nat) (s : State) : Host.Outcome State Fault Refusal :=
  s.row (Machine.cascAlignMarker p.val lane.val g1 g2 skew)

/-- CASC_HELLO_RECEIVE (R419). -/
def execCascHelloReceive (p : Fin 2) (intact : Bool) (frame : List Byte) (s : State) : Host.Outcome State Fault Refusal :=
  s.row (Machine.cascHelloReceive p.val intact frame)

/-- CASC_AUTH_RECEIVE (R420). -/
def execCascAuthReceive (p : Fin 2) (intact : Bool) (frame : List Byte) (s : State) : Host.Outcome State Fault Refusal :=
  s.row (Machine.cascAuthReceive p.val intact frame)

/-- CASC_ROSTER_RECEIVE (R419). -/
def execCascRosterReceive (p : Fin 2) (intact : Bool) (frame : List Byte) (s : State) : Host.Outcome State Fault Refusal :=
  s.row (Machine.cascRosterReceive p.val intact frame)

/-- CASC_REFUSED_RETRY (R419). -/
def execCascRefusedRetry (p : Fin 2) (s : State) : Host.Outcome State Fault Refusal := s.row (Machine.cascRefusedRetry p.val)

/-- CASC_TIME_MARK (R423). -/
def execCascTimeMark (group : Nat) (arrival : T64) (intact : Bool) (frame : List Byte) (s : State) : Host.Outcome State Fault Refusal :=
  s.row (Machine.cascTimeMark group arrival intact frame)

/-- CASC_DELAY_ECHO (R423). -/
def execCascDelayEcho (trip : Machine.RoundTrip) (turn : Nat) (s : State) : Host.Outcome State Fault Refusal :=
  s.row (Machine.cascDelayEcho trip turn)

/-- CASC_TRIGGER_RECEIVE (R426). -/
def execCascTriggerReceive (p : Fin 2) (intact : Bool) (frame : List Byte) (s : State) : Host.Outcome State Fault Refusal :=
  s.row (Machine.cascTriggerReceive p.val intact frame)

/-- CASC_RECORD_RECEIVE (R428). -/
def execCascRecordReceive (p : Fin 2) (intact : Bool) (frame : List Byte) (s : State) : Host.Outcome State Fault Refusal :=
  s.row (Machine.cascRecordReceive p.val intact frame)

/-- CASC_ACK_RECEIVE (R428). -/
def execCascAckReceive (p : Fin 2) (intact : Bool) (frame : List Byte) (s : State) : Host.Outcome State Fault Refusal :=
  s.row (Machine.cascAckReceive p.val intact frame)

/-- CASC_CREDIT_RECEIVE (R421). -/
def execCascCreditReceive (p : Fin 2) (intact : Bool) (frame : List Byte) (s : State) : Host.Outcome State Fault Refusal :=
  s.row (Machine.cascCreditReceive p.val intact frame)

/-- CASC_NAK_RECEIVE (R421). -/
def execCascNakReceive (p : Fin 2) (intact : Bool) (frame : List Byte) (s : State) : Host.Outcome State Fault Refusal :=
  s.row (Machine.cascNakReceive p.val intact frame)

/-- CASC_EPOCH_REQ_RECEIVE (R425). -/
def execCascEpochReqReceive (p : Fin 2) (intact : Bool) (frame : List Byte) (s : State) : Host.Outcome State Fault Refusal :=
  s.row (Machine.cascEpochReqReceive p.val intact frame)

/-- CASC_HOP_HEALTH_RECEIVE (R420). -/
def execCascHopHealthReceive (p : Fin 2) (intact : Bool) (frame : List Byte) (s : State) : Host.Outcome State Fault Refusal :=
  s.row (Machine.cascHopHealthReceive p.val intact frame)

/-- CASC_CREDIT_TIMER (R421). -/
def execCascCreditTimer (p : Fin 2) (s : State) : Host.Outcome State Fault Refusal := s.row (Machine.cascCreditTimer p.val)

/-- SL_COMMA_ALIGNMENT (R381). -/
def execSlCommaAlignment (lane : Fin 16) (inverted : Bool) (s : State) : Host.Outcome State Fault Refusal :=
  s.row (Machine.slCommaAlignment lane.val inverted)

/-- CASC_COMMA_ALIGNMENT (R418). -/
def execCascCommaAlignment (p : Fin 2) (inverted : Fin 4) (s : State) : Host.Outcome State Fault Refusal :=
  s.row (Machine.cascCommaAlignment p.val inverted.val)

/-- CASC_STEP_TIMEOUT (R418). -/
def execCascStepTimeout (x : Machine.HopStep) (s : State) : Host.Outcome State Fault Refusal := s.row (Machine.cascStepTimeout x.p x.phy)

/-- CASC_RETRY_TIMER (R418). -/
def execCascRetryTimer (p : Fin 2) (s : State) : Host.Outcome State Fault Refusal := s.row (Machine.cascRetryTimer p.val)

/-- CASC_PROBE_TIMER (R423). -/
def execCascProbeTimer (s : State) : Host.Outcome State Fault Refusal := s.row Machine.cascProbeTimer

/-- CASC_HOP_HEALTH_TIMER (R420). -/
def execCascHopHealthTimer (s : State) : Host.Outcome State Fault Refusal := s.row Machine.cascHopHealthTimer

end Sys2Proof.Machine
end

