-- ==== Sys2Proof/Machine/Dispatch.lean ====
section
/-!
DEFINITION. One arm for each command.
-/
namespace Sys2Proof.Machine

def exec (i : Instr) (s : State) : Host.Outcome State Fault Refusal :=
  match i with
  | .sysNop mb tag pl => Sys2Proof.Machine.execSysNop mb tag pl s
  | .sysInfo mb tag pl => Sys2Proof.Machine.execSysInfo mb tag pl s
  | .sysHandleQuery mb tag pl => Sys2Proof.Machine.execSysHandleQuery mb tag pl s
  | .sysAbort mb tag pl => Sys2Proof.Machine.execSysAbort mb tag pl s
  | .sysReset mb tag pl => Sys2Proof.Machine.execSysReset mb tag pl s
  | .sysStateSave mb tag pl => Sys2Proof.Machine.execSysStateSave mb tag pl s
  | .logMark mb tag pl => Sys2Proof.Machine.execLogMark mb tag pl s
  | .clkStatus mb tag pl => Sys2Proof.Machine.execClkStatus mb tag pl s
  | .clkFmc mb tag pl => Sys2Proof.Machine.execClkFmc mb tag pl s
  | .clkGateSet mb tag pl => Sys2Proof.Machine.execClkGateSet mb tag pl s
  | .clkMonSet mb tag pl => Sys2Proof.Machine.execClkMonSet mb tag pl s
  | .feFastSet mb tag pl => Sys2Proof.Machine.execFeFastSet mb tag pl s
  | .feScanSet mb tag pl => Sys2Proof.Machine.execFeScanSet mb tag pl s
  | .feExcSet mb tag pl => Sys2Proof.Machine.execFeExcSet mb tag pl s
  | .feLinWrite mb tag pl => Sys2Proof.Machine.execFeLinWrite mb tag pl s
  | .feLinCommit mb tag pl => Sys2Proof.Machine.execFeLinCommit mb tag pl s
  | .feLinRead mb tag pl => Sys2Proof.Machine.execFeLinRead mb tag pl s
  | .feFaultStatus mb tag pl => Sys2Proof.Machine.execFeFaultStatus mb tag pl s
  | .feFaultDetail mb tag pl => Sys2Proof.Machine.execFeFaultDetail mb tag pl s
  | .calRefSet mb tag pl => Sys2Proof.Machine.execCalRefSet mb tag pl s
  | .calPolicySet mb tag pl => Sys2Proof.Machine.execCalPolicySet mb tag pl s
  | .calRun mb tag pl => Sys2Proof.Machine.execCalRun mb tag pl s
  | .calResultRead mb tag pl => Sys2Proof.Machine.execCalResultRead mb tag pl s
  | .fltProfileSet mb tag pl => Sys2Proof.Machine.execFltProfileSet mb tag pl s
  | .fltCoefWrite mb tag pl => Sys2Proof.Machine.execFltCoefWrite mb tag pl s
  | .fltCoefCommit mb tag pl => Sys2Proof.Machine.execFltCoefCommit mb tag pl s
  | .fltBankSwap mb tag pl => Sys2Proof.Machine.execFltBankSwap mb tag pl s
  | .fltChanSet mb tag pl => Sys2Proof.Machine.execFltChanSet mb tag pl s
  | .fltSync mb tag pl => Sys2Proof.Machine.execFltSync mb tag pl s
  | .fltDelayRead mb tag pl => Sys2Proof.Machine.execFltDelayRead mb tag pl s
  | .trgUnitSet mb tag pl => Sys2Proof.Machine.execTrgUnitSet mb tag pl s
  | .trgQualSet mb tag pl => Sys2Proof.Machine.execTrgQualSet mb tag pl s
  | .capGroupSet mb tag pl => Sys2Proof.Machine.execCapGroupSet mb tag pl s
  | .trgArm mb tag pl => Sys2Proof.Machine.execTrgArm mb tag pl s
  | .trgSoft mb tag pl => Sys2Proof.Machine.execTrgSoft mb tag pl s
  | .trgStatus mb tag pl => Sys2Proof.Machine.execTrgStatus mb tag pl s
  | .trgIoSet mb tag pl => Sys2Proof.Machine.execTrgIoSet mb tag pl s
  | .actRuleSet mb tag pl => Sys2Proof.Machine.execActRuleSet mb tag pl s
  | .actPinSet mb tag pl => Sys2Proof.Machine.execActPinSet mb tag pl s
  | .actArm mb tag pl => Sys2Proof.Machine.execActArm mb tag pl s
  | .actClear mb tag pl => Sys2Proof.Machine.execActClear mb tag pl s
  | .actStatus mb tag pl => Sys2Proof.Machine.execActStatus mb tag pl s
  | .actFailsafeProgram mb tag pl => Sys2Proof.Machine.execActFailsafeProgram mb tag pl s
  | .timeSrcSet mb tag pl => Sys2Proof.Machine.execTimeSrcSet mb tag pl s
  | .timeRefSet mb tag pl => Sys2Proof.Machine.execTimeRefSet mb tag pl s
  | .timeSet mb tag pl => Sys2Proof.Machine.execTimeSet mb tag pl s
  | .timePpsOutSet mb tag pl => Sys2Proof.Machine.execTimePpsOutSet mb tag pl s
  | .timeStatusRead mb tag pl => Sys2Proof.Machine.execTimeStatusRead mb tag pl s
  | .netPtpSet mb tag pl => Sys2Proof.Machine.execNetPtpSet mb tag pl s
  | .netPortCompSet mb tag pl => Sys2Proof.Machine.execNetPortCompSet mb tag pl s
  | .netPortSet mb tag pl => Sys2Proof.Machine.execNetPortSet mb tag pl s
  | .netRrConfirm mb tag pl => Sys2Proof.Machine.execNetRrConfirm mb tag pl s
  | .netAuthKeySet mb tag pl => Sys2Proof.Machine.execNetAuthKeySet mb tag pl s
  | .netFrameWrite mb tag pl => Sys2Proof.Machine.execNetFrameWrite mb tag pl s
  | .netFrameSend mb tag pl => Sys2Proof.Machine.execNetFrameSend mb tag pl s
  | .netLaunch mb tag pl => Sys2Proof.Machine.execNetLaunch mb tag pl s
  | .netTxtsRead mb tag pl => Sys2Proof.Machine.execNetTxtsRead mb tag pl s
  | .netPtpStatus mb tag pl => Sys2Proof.Machine.execNetPtpStatus mb tag pl s
  | .netQuarRelease mb tag pl => Sys2Proof.Machine.execNetQuarRelease mb tag pl s
  | .netPathSet mb tag pl => Sys2Proof.Machine.execNetPathSet mb tag pl s
  | .netAddrSet mb tag pl => Sys2Proof.Machine.execNetAddrSet mb tag pl s
  | .netVerdict mb tag pl => Sys2Proof.Machine.execNetVerdict mb tag pl s
  | .netPathStatus mb tag pl => Sys2Proof.Machine.execNetPathStatus mb tag pl s
  | .tiuInputSet mb tag pl => Sys2Proof.Machine.execTiuInputSet mb tag pl s
  | .tiuIntervalSet mb tag pl => Sys2Proof.Machine.execTiuIntervalSet mb tag pl s
  | .tiuFreq mb tag pl => Sys2Proof.Machine.execTiuFreq mb tag pl s
  | .tiuRead mb tag pl => Sys2Proof.Machine.execTiuRead mb tag pl s
  | .tiuStatus mb tag pl => Sys2Proof.Machine.execTiuStatus mb tag pl s
  | .tiuCalSet mb tag pl => Sys2Proof.Machine.execTiuCalSet mb tag pl s
  | .chgSet mb tag pl => Sys2Proof.Machine.execChgSet mb tag pl s
  | .chgRun mb tag pl => Sys2Proof.Machine.execChgRun mb tag pl s
  | .consumerSet mb tag pl => Sys2Proof.Machine.execConsumerSet mb tag pl s
  | .journalSet mb tag pl => Sys2Proof.Machine.execJournalSet mb tag pl s
  | .journalStatus mb tag pl => Sys2Proof.Machine.execJournalStatus mb tag pl s
  | .ferryKeySet mb tag pl => Sys2Proof.Machine.execFerryKeySet mb tag pl s
  | .liveSet mb tag pl => Sys2Proof.Machine.execLiveSet mb tag pl s
  | .chanDescSet mb tag pl => Sys2Proof.Machine.execChanDescSet mb tag pl s
  | .codecSet mb tag pl => Sys2Proof.Machine.execCodecSet mb tag pl s
  | .codecChanSet mb tag pl => Sys2Proof.Machine.execCodecChanSet mb tag pl s
  | .codecStatus mb tag pl => Sys2Proof.Machine.execCodecStatus mb tag pl s
  | .codecStateSave mb tag pl => Sys2Proof.Machine.execCodecStateSave mb tag pl s
  | .codecStateRead mb tag pl => Sys2Proof.Machine.execCodecStateRead mb tag pl s
  | .codecStateWrite mb tag pl => Sys2Proof.Machine.execCodecStateWrite mb tag pl s
  | .codecCheck mb tag pl => Sys2Proof.Machine.execCodecCheck mb tag pl s
  | .slLaneSet mb tag pl => Sys2Proof.Machine.execSlLaneSet mb tag pl s
  | .slSlotSet mb tag pl => Sys2Proof.Machine.execSlSlotSet mb tag pl s
  | .slKeySet mb tag pl => Sys2Proof.Machine.execSlKeySet mb tag pl s
  | .slReset mb tag pl => Sys2Proof.Machine.execSlReset mb tag pl s
  | .slQuarRelease mb tag pl => Sys2Proof.Machine.execSlQuarRelease mb tag pl s
  | .slStatus mb tag pl => Sys2Proof.Machine.execSlStatus mb tag pl s
  | .cascSet mb tag pl => Sys2Proof.Machine.execCascSet mb tag pl s
  | .cascPortSet mb tag pl => Sys2Proof.Machine.execCascPortSet mb tag pl s
  | .cascLinkReset mb tag pl => Sys2Proof.Machine.execCascLinkReset mb tag pl s
  | .cascQuarRelease mb tag pl => Sys2Proof.Machine.execCascQuarRelease mb tag pl s
  | .cascStatus mb tag pl => Sys2Proof.Machine.execCascStatus mb tag pl s
  | .secStatus mb tag pl => Sys2Proof.Machine.execSecStatus mb tag pl s
  | .secJtagChallenge mb tag pl => Sys2Proof.Machine.execSecJtagChallenge mb tag pl s
  | .secJtagUnlock mb tag pl => Sys2Proof.Machine.execSecJtagUnlock mb tag pl s
  | .secOtpProgram mb tag pl => Sys2Proof.Machine.execSecOtpProgram mb tag pl s
  | .fwWrite mb tag pl => Sys2Proof.Machine.execFwWrite mb tag pl s
  | .fwVerify mb tag pl => Sys2Proof.Machine.execFwVerify mb tag pl s
  | .fwSwitch mb tag pl => Sys2Proof.Machine.execFwSwitch mb tag pl s
  | .flashStatus mb tag pl => Sys2Proof.Machine.execFlashStatus mb tag pl s
  | .dramRetiredRead mb tag pl => Sys2Proof.Machine.execDramRetiredRead mb tag pl s
  | .selftest mb tag pl => Sys2Proof.Machine.execSelftest mb tag pl s
  | .mbCmdWrite mb idx w => Sys2Proof.Machine.execMbCmdWrite mb idx w s
  | .mbDoorbellRing mb => Sys2Proof.Machine.execMbDoorbellRing mb s
  | .mbRelease mb => Sys2Proof.Machine.execMbRelease mb s
  | .mbCommandTake => Sys2Proof.Machine.execMbCommandTake s
  | .cqRdWrite w => Sys2Proof.Machine.execCqRdWrite w s
  | .resetCtrlControl => Sys2Proof.Machine.execResetCtrlControl s
  | .resetCtrlDatapath => Sys2Proof.Machine.execResetCtrlDatapath s
  | .snapCtrlSnap => Sys2Proof.Machine.execSnapCtrlSnap s
  | .cmpCtrlWrite n w => Sys2Proof.Machine.execCmpCtrlWrite n w s
  | .evtEnableWrite bank w => Sys2Proof.Machine.execEvtEnableWrite bank w s
  | .ferryAckWrite c origin lo hi => Sys2Proof.Machine.execFerryAckWrite c origin lo hi s
  | .ferryCtrlWrite c w => Sys2Proof.Machine.execFerryCtrlWrite c w s
  | .ferryTailWrite c w descs => Sys2Proof.Machine.execFerryTailWrite c w descs s
  | .lqFlush q => Sys2Proof.Machine.execLqFlush q s
  | .lqLostRead r => Sys2Proof.Machine.execLqLostRead r s
  | .msixUnmask v => Sys2Proof.Machine.execMsixUnmask v s
  | .registerWrite addr bytes => Sys2Proof.Machine.execRegisterWrite addr bytes s
  | .spiWriteFrame addr ws part => Sys2Proof.Machine.execSpiWriteFrame addr ws part s
  | .spiWriteCrcFrame addr ws crc part => Sys2Proof.Machine.execSpiWriteCrcFrame addr ws crc part s
  | .spiReadFrame addr n crc part => Sys2Proof.Machine.execSpiReadFrame addr n crc part s
  | .hostLinkRestart cause => Sys2Proof.Machine.execHostLinkRestart cause s
  | .pcieReady => Sys2Proof.Machine.execPcieReady s
  | .powerOnReset => Sys2Proof.Machine.execPowerOnReset s
  | .resetNAssert => Sys2Proof.Machine.execResetNAssert s
  | .coldBoot b => Sys2Proof.Machine.execColdBoot b s
  | .bootComplete arbSel => Sys2Proof.Machine.execBootComplete arbSel s
  | .controlReset => Sys2Proof.Machine.execControlReset s
  | .firmwareReady fastOk okThis okOther => Sys2Proof.Machine.execFirmwareReady fastOk okThis okOther s
  | .lockstepMismatch => Sys2Proof.Machine.execLockstepMismatch s
  | .watchdogExpiry => Sys2Proof.Machine.execWatchdogExpiry s
  | .trialRevert => Sys2Proof.Machine.execTrialRevert s
  | .datapathWarmReset => Sys2Proof.Machine.execDatapathWarmReset s
  | .perBlockReset => Sys2Proof.Machine.execPerBlockReset s
  | .pfwWarning complete => Sys2Proof.Machine.execPfwWarning complete s
  | .retainResume b => Sys2Proof.Machine.execRetainResume b s
  | .supplyWarn supply => Sys2Proof.Machine.execSupplyWarn supply s
  | .stateSaveTimer => Sys2Proof.Machine.execStateSaveTimer s
  | .rootPllLock => Sys2Proof.Machine.execRootPllLock s
  | .rootPllUnlock => Sys2Proof.Machine.execRootPllUnlock s
  | .rootGateOpen => Sys2Proof.Machine.execRootGateOpen s
  | .holdTimeoutStop => Sys2Proof.Machine.execHoldTimeoutStop s
  | .stoppedRelockAttempt => Sys2Proof.Machine.execStoppedRelockAttempt s
  | .stoppedRecovery src => Sys2Proof.Machine.execStoppedRecovery src s
  | .clkMonWindow src count => Sys2Proof.Machine.execClkMonWindow src count s
  | .clkStopDetect src => Sys2Proof.Machine.execClkStopDetect src s
  | .oscDelayExpiry => Sys2Proof.Machine.execOscDelayExpiry s
  | .xoStartTimeout => Sys2Proof.Machine.execXoStartTimeout s
  | .muxForcedSwitch host => Sys2Proof.Machine.execMuxForcedSwitch host s
  | .gateQuiesceAccept gate => Sys2Proof.Machine.execGateQuiesceAccept gate s
  | .gateQuiesceTimeout gate => Sys2Proof.Machine.execGateQuiesceTimeout gate s
  | .fmcComplete edges => Sys2Proof.Machine.execFmcComplete edges s
  | .frameStrobe => Sys2Proof.Machine.execFrameStrobe s
  | .epochBreak => Sys2Proof.Machine.execEpochBreak s
  | .timeSetOrigin => Sys2Proof.Machine.execTimeSetOrigin s
  | .sourceHoldoffExpiry => Sys2Proof.Machine.execSourceHoldoffExpiry s
  | .timeMapPeriodic => Sys2Proof.Machine.execTimeMapPeriodic s
  | .uncertaintyRecord => Sys2Proof.Machine.execUncertaintyRecord s
  | .cmpFire n => Sys2Proof.Machine.execCmpFire n s
  | .ppsOutPulse => Sys2Proof.Machine.execPpsOutPulse s
  | .ppsInEdge falling e => Sys2Proof.Machine.execPpsInEdge falling e s
  | .timeRefTimeout => Sys2Proof.Machine.execTimeRefTimeout s
  | .ptpSyncReceive p head seq twoStep t1 corr => Sys2Proof.Machine.execPtpSyncReceive p head seq twoStep t1 corr s
  | .ptpFollowUpReceive p head seq t1 corr => Sys2Proof.Machine.execPtpFollowUpReceive p head seq t1 corr s
  | .ptpDelayRespReceive p head seq t4 corr => Sys2Proof.Machine.execPtpDelayRespReceive p head seq t4 corr s
  | .ptpAnnounceReceive p head ann => Sys2Proof.Machine.execPtpAnnounceReceive p head ann s
  | .ptpPdelayReqReceive p head seq => Sys2Proof.Machine.execPtpPdelayReqReceive p head seq s
  | .ptpPdelayRespReceive p head seq followUp twoStep t corr => Sys2Proof.Machine.execPtpPdelayRespReceive p head seq followUp twoStep t corr s
  | .ptpDelayReqTimer p => Sys2Proof.Machine.execPtpDelayReqTimer p s
  | .servoSyncTimeout p announce => Sys2Proof.Machine.execServoSyncTimeout p announce s
  | .rrConfirmSecond => Sys2Proof.Machine.execRrConfirmSecond s
  | .rrHoldExpiry => Sys2Proof.Machine.execRrHoldExpiry s
  | .frameTransmitDone ago => Sys2Proof.Machine.execFrameTransmitDone ago s
  | .launchGuardStart => Sys2Proof.Machine.execLaunchGuardStart s
  | .launchTransmit => Sys2Proof.Machine.execLaunchTransmit s
  | .ferryAckReceive header plain cipher => Sys2Proof.Machine.execFerryAckReceive header plain cipher s
  | .ferryAckTimeout => Sys2Proof.Machine.execFerryAckTimeout s
  | .verdictDatagramReceive p head plain cipher => Sys2Proof.Machine.execVerdictDatagramReceive p head plain cipher s
  | .suspectDatagramTimer => Sys2Proof.Machine.execSuspectDatagramTimer s
  | .netLinkChange p up => Sys2Proof.Machine.execNetLinkChange p up s
  | .netAddrRequest p v6 addr data => Sys2Proof.Machine.execNetAddrRequest p v6 addr data s
  | .suspectDebounce fcs => Sys2Proof.Machine.execSuspectDebounce fcs s
  | .suspectClear fcs => Sys2Proof.Machine.execSuspectClear fcs s
  | .arbSelStable level => Sys2Proof.Machine.execArbSelStable level s
  | .failoverActivate => Sys2Proof.Machine.execFailoverActivate s
  | .failoverComplete => Sys2Proof.Machine.execFailoverComplete s
  | .selftestTimer p => Sys2Proof.Machine.execSelftestTimer p s
  | .prbsTestDone p errors => Sys2Proof.Machine.execPrbsTestDone p errors s
  | .echoReplyReceive p seq => Sys2Proof.Machine.execEchoReplyReceive p seq s
  | .echoTimeout p => Sys2Proof.Machine.execEchoTimeout p s
  | .snapshotTimer => Sys2Proof.Machine.execSnapshotTimer s
  | .pathHealthTimer p fcs => Sys2Proof.Machine.execPathHealthTimer p fcs s
  | .tiuEdge idx falling tap drained => Sys2Proof.Machine.execTiuEdge idx falling tap drained s
  | .iuWinTimeout u => Sys2Proof.Machine.execIuWinTimeout u s
  | .tiuFreqGateEnd idx => Sys2Proof.Machine.execTiuFreqGateEnd idx s
  | .tiuCalTimer => Sys2Proof.Machine.execTiuCalTimer s
  | .tiuHandoverDone pairs => Sys2Proof.Machine.execTiuHandoverDone pairs s
  | .tiuCalDone hits => Sys2Proof.Machine.execTiuCalDone hits s
  | .tachPulse idx => Sys2Proof.Machine.execTachPulse idx s
  | .feFaultDeclare ch pin above => Sys2Proof.Machine.execFeFaultDeclare ch pin above s
  | .feFaultClearDeclare ch => Sys2Proof.Machine.execFeFaultClearDeclare ch s
  | .scanVisitDone m e first second out above pin ovrFirst ovrSecond refOk busy => Sys2Proof.Machine.execScanVisitDone m e first second out above pin ovrFirst ovrSecond refOk busy s
  | .excFaultOnset x => Sys2Proof.Machine.execExcFaultOnset x s
  | .excFaultEnd x => Sys2Proof.Machine.execExcFaultEnd x s
  | .excSwitch x => Sys2Proof.Machine.execExcSwitch x s
  | .dieTempSample temps => Sys2Proof.Machine.execDieTempSample temps s
  | .calMaxIntExpiry g => Sys2Proof.Machine.execCalMaxIntExpiry g s
  | .calSlotStep refOk => Sys2Proof.Machine.execCalSlotStep refOk s
  | .calMeasureDone zero plus minus ovrZero ovrVc => Sys2Proof.Machine.execCalMeasureDone zero plus minus ovrZero ovrVc s
  | .trimStep ch => Sys2Proof.Machine.execTrimStep ch s
  | .pepperOutput ch codes shadow => Sys2Proof.Machine.execPepperOutput ch codes shadow s
  | .chainOutput ch => Sys2Proof.Machine.execChainOutput ch s
  | .stagingRelease ch => Sys2Proof.Machine.execStagingRelease ch s
  | .partClose fails => Sys2Proof.Machine.execPartClose fails s
  | .partLanded => Sys2Proof.Machine.execPartLanded s
  | .lateWaitExpiry g fails => Sys2Proof.Machine.execLateWaitExpiry g fails s
  | .recordOffer c origin descs => Sys2Proof.Machine.execRecordOffer c origin descs s
  | .ringFlushTimeout c => Sys2Proof.Machine.execRingFlushTimeout c s
  | .indexScrub ups => Sys2Proof.Machine.execIndexScrub ups s
  | .pageScrub page n => Sys2Proof.Machine.execPageScrub page n s
  | .dramUncorrectable page => Sys2Proof.Machine.execDramUncorrectable page s
  | .segmentComplete g => Sys2Proof.Machine.execSegmentComplete g s
  | .segmentLanded g fails => Sys2Proof.Machine.execSegmentLanded g fails s
  | .autoSegment g => Sys2Proof.Machine.execAutoSegment g s
  | .codecDemote stream => Sys2Proof.Machine.execCodecDemote stream s
  | .codecPromote stream => Sys2Proof.Machine.execCodecPromote stream s
  | .syncApply => Sys2Proof.Machine.execSyncApply s
  | .chgRunApply => Sys2Proof.Machine.execChgRunApply s
  | .trgArmApply => Sys2Proof.Machine.execTrgArmApply s
  | .bankSwapStart => Sys2Proof.Machine.execBankSwapStart s
  | .bankFadeComplete profile => Sys2Proof.Machine.execBankFadeComplete profile s
  | .chanParamApply => Sys2Proof.Machine.execChanParamApply s
  | .chanDescLand => Sys2Proof.Machine.execChanDescLand s
  | .trigInputChange k level => Sys2Proof.Machine.execTrigInputChange k level s
  | .trigPulseEnd k => Sys2Proof.Machine.execTrigPulseEnd k s
  | .ctHoldExpiry line => Sys2Proof.Machine.execCtHoldExpiry line s
  | .actPulseEnd rule => Sys2Proof.Machine.execActPulseEnd rule s
  | .actDeadmanExpiry => Sys2Proof.Machine.execActDeadmanExpiry s
  | .slLossOfLock lane => Sys2Proof.Machine.execSlLossOfLock lane s
  | .slStepTimeout x => Sys2Proof.Machine.execSlStepTimeout x s
  | .slRetryTimer lane => Sys2Proof.Machine.execSlRetryTimer lane s
  | .slHelloReceive lane intact frame => Sys2Proof.Machine.execSlHelloReceive lane intact frame s
  | .slSampleFrame lane intact frame => Sys2Proof.Machine.execSlSampleFrame lane intact frame s
  | .slSlotAckReceive lane intact frame => Sys2Proof.Machine.execSlSlotAckReceive lane intact frame s
  | .slSlotSetTimeout lane slot => Sys2Proof.Machine.execSlSlotSetTimeout lane slot s
  | .slReleasedReceive lane intact frame => Sys2Proof.Machine.execSlReleasedReceive lane intact frame s
  | .slSlipReceive lane intact frame => Sys2Proof.Machine.execSlSlipReceive lane intact frame s
  | .slPodHealthReceive lane intact frame => Sys2Proof.Machine.execSlPodHealthReceive lane intact frame s
  | .slDelayEcho lane trip turn => Sys2Proof.Machine.execSlDelayEcho lane trip turn s
  | .slProbeTimer lane => Sys2Proof.Machine.execSlProbeTimer lane s
  | .slLandedTimer lane => Sys2Proof.Machine.execSlLandedTimer lane s
  | .slAbortSymbol lane => Sys2Proof.Machine.execSlAbortSymbol lane s
  | .cascLossOfLock p => Sys2Proof.Machine.execCascLossOfLock p s
  | .cascAlignMarker p lane g1 g2 skew => Sys2Proof.Machine.execCascAlignMarker p lane g1 g2 skew s
  | .cascHelloReceive p intact frame => Sys2Proof.Machine.execCascHelloReceive p intact frame s
  | .cascAuthReceive p intact frame => Sys2Proof.Machine.execCascAuthReceive p intact frame s
  | .cascRosterReceive p intact frame => Sys2Proof.Machine.execCascRosterReceive p intact frame s
  | .cascRefusedRetry p => Sys2Proof.Machine.execCascRefusedRetry p s
  | .cascTimeMark group arrival intact frame => Sys2Proof.Machine.execCascTimeMark group arrival intact frame s
  | .cascDelayEcho trip turn => Sys2Proof.Machine.execCascDelayEcho trip turn s
  | .cascTriggerReceive p intact frame => Sys2Proof.Machine.execCascTriggerReceive p intact frame s
  | .cascRecordReceive p intact frame => Sys2Proof.Machine.execCascRecordReceive p intact frame s
  | .cascAckReceive p intact frame => Sys2Proof.Machine.execCascAckReceive p intact frame s
  | .cascCreditReceive p intact frame => Sys2Proof.Machine.execCascCreditReceive p intact frame s
  | .cascNakReceive p intact frame => Sys2Proof.Machine.execCascNakReceive p intact frame s
  | .cascEpochReqReceive p intact frame => Sys2Proof.Machine.execCascEpochReqReceive p intact frame s
  | .cascHopHealthReceive p intact frame => Sys2Proof.Machine.execCascHopHealthReceive p intact frame s
  | .cascCreditTimer p => Sys2Proof.Machine.execCascCreditTimer p s
  | .slCommaAlignment lane inverted => Sys2Proof.Machine.execSlCommaAlignment lane inverted s
  | .cascCommaAlignment p inverted => Sys2Proof.Machine.execCascCommaAlignment p inverted s
  | .cascStepTimeout x => Sys2Proof.Machine.execCascStepTimeout x s
  | .cascRetryTimer p => Sys2Proof.Machine.execCascRetryTimer p s
  | .cascProbeTimer => Sys2Proof.Machine.execCascProbeTimer s
  | .cascHopHealthTimer => Sys2Proof.Machine.execCascHopHealthTimer s
  | .ptpMessageIgnored p => Sys2Proof.Machine.execPtpMessageIgnored p s
  | .routerAdvertisementReceive p router => Sys2Proof.Machine.execRouterAdvertisementReceive p router s
  | .addressResolutionReply p => Sys2Proof.Machine.execAddressResolutionReply p s
  | .feExcursionEnd ch => Sys2Proof.Machine.execFeExcursionEnd ch s
  | .followMinExpiry => Sys2Proof.Machine.execFollowMinExpiry s
  | .ppsOutPulseEnd => Sys2Proof.Machine.execPpsOutPulseEnd s
  | .pcieConfigurationWrite bme d0 => Sys2Proof.Machine.execPcieConfigurationWrite bme d0 s
  | .journalPageCheckDone page ok => Sys2Proof.Machine.execJournalPageCheckDone page ok s
  | .trialSExpiry => Sys2Proof.Machine.execTrialSExpiry s
  | .slResetTimeout lane => Sys2Proof.Machine.execSlResetTimeout lane s
  | .cascLinkResetTimeout p => Sys2Proof.Machine.execCascLinkResetTimeout p s
  | .flashOperationDone ok => Sys2Proof.Machine.execFlashOperationDone ok s
  | .otpProgramDone ok => Sys2Proof.Machine.execOtpProgramDone ok s
  | .selftestDone failed => Sys2Proof.Machine.execSelftestDone failed s
  | .codecCheckDone => Sys2Proof.Machine.execCodecCheckDone s

end Sys2Proof.Machine
end

