-- ==== Sys2Proof/Safety.lean ====
section
/-!
DEFINITION. The terms that statements use: what a command may change, when the firmware takes a Kelnen command, and what its
response, its acceptance and its event look like.
-/
namespace Sys2Proof.Machine

/-- Every command that waits can be sent. -/
def State.sendable (s : State) : Bool := s.pending.all Instr.wellFormed

/-- The step neither faults nor refuses. -/
def State.runs (s : State) : Prop := ∃ t, step s = .next t

/-! ## Frames -/

/-- The chapters of the hub's state. -/
inductive Chapter where
  | cfg | sys | host | evt | clk | tb | jrn | sto | act | fe | flt | cal | trg | cod | tiu | net | sl | casc | tx | free
deriving DecidableEq, Repr

/-- A chapter of the state is the same in two hubs. -/
def Hub.same (h t : Hub) : Chapter → Prop
  | .cfg => t.cfg = h.cfg
  | .sys => t.sys = h.sys
  | .host => t.host = h.host
  | .evt => t.evt = h.evt
  | .clk => t.clk = h.clk
  | .tb => t.tb = h.tb
  | .jrn => t.jrn = h.jrn
  | .sto => t.sto = h.sto
  | .act => t.act = h.act
  | .fe => t.fe = h.fe
  | .flt => t.flt = h.flt
  | .cal => t.cal = h.cal
  | .trg => t.trg = h.trg
  | .cod => t.cod = h.cod
  | .tiu => t.tiu = h.tiu
  | .net => t.net = h.net
  | .sl => t.sl = h.sl
  | .casc => t.casc = h.casc
  | .tx => t.tx = h.tx
  | .free => t.free = h.free

/-- Every chapter but those named is unchanged. -/
def Hub.onlyIn (h : Hub) (cs : List Chapter) (t : Hub) : Prop := ∀ c, c ∉ cs → h.same t c

/-- The command answers a next state, leaves the queue alone, changes no chapter but those named, and `P` holds of the hub. -/
def Does (i : Instr) (s : State) (cs : List Chapter) (P : Hub → Prop) : Prop :=
  ∃ t, exec i s = .next t ∧ t.pending = s.pending ∧ s.hub.onlyIn cs t.hub ∧ P t.hub

/-- The command answers a next state and leaves the queue alone, and `P` holds of the hub. -/
def Runs (i : Instr) (s : State) (P : Hub → Prop) : Prop := ∃ t, exec i s = .next t ∧ t.pending = s.pending ∧ P t.hub

/-- The command answers the state whose hub is `g`, with the queue left alone. -/
def Gives (i : Instr) (s : State) (g : Hub) : Prop := exec i s = .next { s with hub := g }

/-- Of the host interface only mailbox `m` differs, and it is `x`. -/
def Hub.onlyMb (h : Hub) (m : Nat) (x : Mailbox) (t : Hub) : Prop :=
  t.host.mbs.get m = x ∧ (∀ k, k ≠ m → t.host.mbs.get k = h.host.mbs.get k) ∧ t.host = { h.host with mbs := t.host.mbs }

/-- The hub when the firmware has taken the command of mailbox `m` (R480, R482). -/
def Hub.taken (h : Hub) (m : Nat) : Hub :=
  let h := h.updMb m fun x => { x with state := .busy, taken := (x.taken + 1) % 256 }
  { h with host := { h.host with posted := h.host.posted.filter (· != m) } }

/-! ## Kelnen commands -/

/-- The hub while the firmware executes a command that the host has just posted in an idle mailbox (R480, R482). -/
def Hub.executing (h : Hub) (c : CmdSpec) (m : Nat) (tag : Word) (pl : List Word) : Hub := (h.mailed c m tag pl).taken m

/-- A command with this payload reaches a firmware that can take it at once: the hub is powered, the mailbox is idle and
nothing waits in another. -/
def State.reaches (s : State) (mb : Fin 8) (pl : List Word) : Bool :=
  s.hub.powered && payloadOk pl && (s.hub.host.mbs.get mb).state == .idle && s.hub.host.posted.isEmpty && s.hub.canTake

/-- The command reaches the firmware, and no check of R483 refuses it. -/
def State.takes (s : State) (c : CmdSpec) (mb : Fin 8) (tag : Word) (pl : List Word) : Bool :=
  s.reaches mb pl && ((s.hub.executing c mb tag pl).checkCmd (some c) mb (cmdHeader c.opcode pl.length) tag 0 0 pl).isNone

/-- The response area and the state of a mailbox after a response (R478, R481). -/
def Hub.response (h : Hub) (m status hd : Nat) (tag : Word) (ws : List Word) : Prop :=
  (h.host.mbs.get m).state = .ready ∧ bit (h.host.mbs.get m).status 0 = true ∧
  (h.host.mbs.get m).resp.gets 0 3 = [wd (status + hd * 2 ^ 16), tag, wd ws.length] ∧
  (h.host.mbs.get m).resp.gets 4 (min ws.length 124) = ws.take 124

/-- What a command through mailbox `m` leaves unchanged: every chapter but those named and four more; of these, SYS but for
LAST_TAG of the mailbox, the clocks but for gates that open, the other mailboxes and the completion queue, and what was sent. -/
def Hub.mailFrame (h : Hub) (cs : List Chapter) (m : Nat) (tag : Word) (t : Hub) : Prop :=
  h.onlyIn ([.host, .sys, .clk, .tx] ++ cs) t ∧
  (.sys ∉ cs → t.sys = { h.sys with lastTag := h.sys.lastTag.put m tag }) ∧
  (.clk ∉ cs → { t.clk with gates := h.clk.gates } = h.clk ∧ ∀ n ∈ t.clk.gates, n ∈ h.clk.gates) ∧
  (.host ∉ cs → (∀ k, k ≠ m → t.host.mbs.get k = h.host.mbs.get k) ∧ t.host.cq = h.host.cq ∧ t.host.cqWr = h.host.cqWr) ∧
  (.tx ∉ cs → h.tx <+: t.tx)

/-- The command is answered in its mailbox, and `P` holds of the payload and the hub. -/
def Answers (i : Instr) (s : State) (m : Nat) (tag : Word) (status : Nat) (cs : List Chapter)
    (P : List Word → Hub → Prop) : Prop :=
  ∃ t ws, exec i s = .next t ∧ t.pending = s.pending ∧ t.hub.response m status 0 tag ws ∧ s.hub.mailFrame cs m tag t.hub ∧
    (.host ∉ cs → t.hub.host.slots = s.hub.host.slots) ∧ P ws t.hub

/-- The handle that the next long-running command of mailbox `m` gets: the lowest free slot in its next generation (R485). -/
def Hub.nextHandle (h : Hub) (m : Nat) : Option Nat :=
  (h.freeSlot m).map fun k => nextGen (h.host.slots.get k).gen * 4096 + k

/-- The command is accepted with that handle, and `P` holds of the handle and the hub. -/
def Accepts (i : Instr) (s : State) (m : Nat) (tag : Word) (cs : List Chapter) (P : Nat → Hub → Prop) : Prop :=
  ∃ t hd, exec i s = .next t ∧ t.pending = s.pending ∧ s.hub.nextHandle m = some hd ∧ t.hub.response m ACCEPTED hd tag [] ∧
    s.hub.mailFrame cs m tag t.hub ∧ P hd t.hub

/-- The checks of R483 answer the command with this status and these words, at once. -/
def State.refuses (s : State) (c : CmdSpec) (mb : Fin 8) (tag : Word) (pl : List Word) (st : Nat) (ws : List Word) : Prop :=
  s.reaches mb pl = true ∧
  (s.hub.executing c mb tag pl).checkCmd (some c) mb (cmdHeader c.opcode pl.length) tag 0 0 pl = some (st, ws)

/-- A Kelnen command: what is its own, its mailbox, tag and payload. -/
structure Kelnen where
  spec : CmdSpec
  mb : Fin 8
  tag : Word
  pl : List Word

/-- The Kelnen command that a row of the table is, if it is one. -/
def kelnenOf (i : Instr) : Option Kelnen :=
  match i with
  | .sysNop mb tag pl => some ⟨Machine.sysNop, mb, tag, pl⟩
  | .sysInfo mb tag pl => some ⟨Machine.sysInfo, mb, tag, pl⟩
  | .sysHandleQuery mb tag pl => some ⟨Machine.sysHandleQuery, mb, tag, pl⟩
  | .sysAbort mb tag pl => some ⟨Machine.sysAbort, mb, tag, pl⟩
  | .sysReset mb tag pl => some ⟨Machine.sysReset, mb, tag, pl⟩
  | .sysStateSave mb tag pl => some ⟨Machine.sysStateSave, mb, tag, pl⟩
  | .logMark mb tag pl => some ⟨Machine.logMark, mb, tag, pl⟩
  | .clkStatus mb tag pl => some ⟨Machine.clkStatus, mb, tag, pl⟩
  | .clkFmc mb tag pl => some ⟨Machine.clkFmc, mb, tag, pl⟩
  | .clkGateSet mb tag pl => some ⟨Machine.clkGateSet, mb, tag, pl⟩
  | .clkMonSet mb tag pl => some ⟨Machine.clkMonSet, mb, tag, pl⟩
  | .feFastSet mb tag pl => some ⟨Machine.feFastSet, mb, tag, pl⟩
  | .feScanSet mb tag pl => some ⟨Machine.feScanSet, mb, tag, pl⟩
  | .feExcSet mb tag pl => some ⟨Machine.feExcSet, mb, tag, pl⟩
  | .feLinWrite mb tag pl => some ⟨Machine.feLinWrite, mb, tag, pl⟩
  | .feLinCommit mb tag pl => some ⟨Machine.feLinCommit, mb, tag, pl⟩
  | .feLinRead mb tag pl => some ⟨Machine.feLinRead, mb, tag, pl⟩
  | .feFaultStatus mb tag pl => some ⟨Machine.feFaultStatus, mb, tag, pl⟩
  | .feFaultDetail mb tag pl => some ⟨Machine.feFaultDetail, mb, tag, pl⟩
  | .calRefSet mb tag pl => some ⟨Machine.calRefSet, mb, tag, pl⟩
  | .calPolicySet mb tag pl => some ⟨Machine.calPolicySet, mb, tag, pl⟩
  | .calRun mb tag pl => some ⟨Machine.calRun, mb, tag, pl⟩
  | .calResultRead mb tag pl => some ⟨Machine.calResultRead, mb, tag, pl⟩
  | .fltProfileSet mb tag pl => some ⟨Machine.fltProfileSet, mb, tag, pl⟩
  | .fltCoefWrite mb tag pl => some ⟨Machine.fltCoefWrite, mb, tag, pl⟩
  | .fltCoefCommit mb tag pl => some ⟨Machine.fltCoefCommit, mb, tag, pl⟩
  | .fltBankSwap mb tag pl => some ⟨Machine.fltBankSwap, mb, tag, pl⟩
  | .fltChanSet mb tag pl => some ⟨Machine.fltChanSet, mb, tag, pl⟩
  | .fltSync mb tag pl => some ⟨Machine.fltSync, mb, tag, pl⟩
  | .fltDelayRead mb tag pl => some ⟨Machine.fltDelayRead, mb, tag, pl⟩
  | .trgUnitSet mb tag pl => some ⟨Machine.trgUnitSet, mb, tag, pl⟩
  | .trgQualSet mb tag pl => some ⟨Machine.trgQualSet, mb, tag, pl⟩
  | .capGroupSet mb tag pl => some ⟨Machine.capGroupSet, mb, tag, pl⟩
  | .trgArm mb tag pl => some ⟨Machine.trgArm, mb, tag, pl⟩
  | .trgSoft mb tag pl => some ⟨Machine.trgSoft, mb, tag, pl⟩
  | .trgStatus mb tag pl => some ⟨Machine.trgStatus, mb, tag, pl⟩
  | .trgIoSet mb tag pl => some ⟨Machine.trgIoSet, mb, tag, pl⟩
  | .actRuleSet mb tag pl => some ⟨Machine.actRuleSet, mb, tag, pl⟩
  | .actPinSet mb tag pl => some ⟨Machine.actPinSet, mb, tag, pl⟩
  | .actArm mb tag pl => some ⟨Machine.actArm, mb, tag, pl⟩
  | .actClear mb tag pl => some ⟨Machine.actClear, mb, tag, pl⟩
  | .actStatus mb tag pl => some ⟨Machine.actStatus, mb, tag, pl⟩
  | .actFailsafeProgram mb tag pl => some ⟨Machine.actFailsafeProgram, mb, tag, pl⟩
  | .timeSrcSet mb tag pl => some ⟨Machine.timeSrcSet, mb, tag, pl⟩
  | .timeRefSet mb tag pl => some ⟨Machine.timeRefSet, mb, tag, pl⟩
  | .timeSet mb tag pl => some ⟨Machine.timeSet, mb, tag, pl⟩
  | .timePpsOutSet mb tag pl => some ⟨Machine.timePpsOutSet, mb, tag, pl⟩
  | .timeStatusRead mb tag pl => some ⟨Machine.timeStatusRead, mb, tag, pl⟩
  | .netPtpSet mb tag pl => some ⟨Machine.netPtpSet, mb, tag, pl⟩
  | .netPortCompSet mb tag pl => some ⟨Machine.netPortCompSet, mb, tag, pl⟩
  | .netPortSet mb tag pl => some ⟨Machine.netPortSet, mb, tag, pl⟩
  | .netRrConfirm mb tag pl => some ⟨Machine.netRrConfirm, mb, tag, pl⟩
  | .netAuthKeySet mb tag pl => some ⟨Machine.netAuthKeySet, mb, tag, pl⟩
  | .netFrameWrite mb tag pl => some ⟨Machine.netFrameWrite, mb, tag, pl⟩
  | .netFrameSend mb tag pl => some ⟨Machine.netFrameSend, mb, tag, pl⟩
  | .netLaunch mb tag pl => some ⟨Machine.netLaunch, mb, tag, pl⟩
  | .netTxtsRead mb tag pl => some ⟨Machine.netTxtsRead, mb, tag, pl⟩
  | .netPtpStatus mb tag pl => some ⟨Machine.netPtpStatus, mb, tag, pl⟩
  | .netQuarRelease mb tag pl => some ⟨Machine.netQuarRelease, mb, tag, pl⟩
  | .netPathSet mb tag pl => some ⟨Machine.netPathSet, mb, tag, pl⟩
  | .netAddrSet mb tag pl => some ⟨Machine.netAddrSet, mb, tag, pl⟩
  | .netVerdict mb tag pl => some ⟨Machine.netVerdict, mb, tag, pl⟩
  | .netPathStatus mb tag pl => some ⟨Machine.netPathStatus, mb, tag, pl⟩
  | .tiuInputSet mb tag pl => some ⟨Machine.tiuInputSet, mb, tag, pl⟩
  | .tiuIntervalSet mb tag pl => some ⟨Machine.tiuIntervalSet, mb, tag, pl⟩
  | .tiuFreq mb tag pl => some ⟨Machine.tiuFreq, mb, tag, pl⟩
  | .tiuRead mb tag pl => some ⟨Machine.tiuRead, mb, tag, pl⟩
  | .tiuStatus mb tag pl => some ⟨Machine.tiuStatus, mb, tag, pl⟩
  | .tiuCalSet mb tag pl => some ⟨Machine.tiuCalSet, mb, tag, pl⟩
  | .chgSet mb tag pl => some ⟨Machine.chgSet, mb, tag, pl⟩
  | .chgRun mb tag pl => some ⟨Machine.chgRun, mb, tag, pl⟩
  | .consumerSet mb tag pl => some ⟨Machine.consumerSet, mb, tag, pl⟩
  | .journalSet mb tag pl => some ⟨Machine.journalSet, mb, tag, pl⟩
  | .journalStatus mb tag pl => some ⟨Machine.journalStatus, mb, tag, pl⟩
  | .ferryKeySet mb tag pl => some ⟨Machine.ferryKeySet, mb, tag, pl⟩
  | .liveSet mb tag pl => some ⟨Machine.liveSet, mb, tag, pl⟩
  | .chanDescSet mb tag pl => some ⟨Machine.chanDescSet, mb, tag, pl⟩
  | .codecSet mb tag pl => some ⟨Machine.codecSet, mb, tag, pl⟩
  | .codecChanSet mb tag pl => some ⟨Machine.codecChanSet, mb, tag, pl⟩
  | .codecStatus mb tag pl => some ⟨Machine.codecStatus, mb, tag, pl⟩
  | .codecStateSave mb tag pl => some ⟨Machine.codecStateSave, mb, tag, pl⟩
  | .codecStateRead mb tag pl => some ⟨Machine.codecStateRead, mb, tag, pl⟩
  | .codecStateWrite mb tag pl => some ⟨Machine.codecStateWrite, mb, tag, pl⟩
  | .codecCheck mb tag pl => some ⟨Machine.codecCheck, mb, tag, pl⟩
  | .slLaneSet mb tag pl => some ⟨Machine.slLaneSet, mb, tag, pl⟩
  | .slSlotSet mb tag pl => some ⟨Machine.slSlotSet, mb, tag, pl⟩
  | .slKeySet mb tag pl => some ⟨Machine.slKeySet, mb, tag, pl⟩
  | .slReset mb tag pl => some ⟨Machine.slReset, mb, tag, pl⟩
  | .slQuarRelease mb tag pl => some ⟨Machine.slQuarRelease, mb, tag, pl⟩
  | .slStatus mb tag pl => some ⟨Machine.slStatus, mb, tag, pl⟩
  | .cascSet mb tag pl => some ⟨Machine.cascSet, mb, tag, pl⟩
  | .cascPortSet mb tag pl => some ⟨Machine.cascPortSet, mb, tag, pl⟩
  | .cascLinkReset mb tag pl => some ⟨Machine.cascLinkReset, mb, tag, pl⟩
  | .cascQuarRelease mb tag pl => some ⟨Machine.cascQuarRelease, mb, tag, pl⟩
  | .cascStatus mb tag pl => some ⟨Machine.cascStatus, mb, tag, pl⟩
  | .secStatus mb tag pl => some ⟨Machine.secStatus, mb, tag, pl⟩
  | .secJtagChallenge mb tag pl => some ⟨Machine.secJtagChallenge, mb, tag, pl⟩
  | .secJtagUnlock mb tag pl => some ⟨Machine.secJtagUnlock, mb, tag, pl⟩
  | .secOtpProgram mb tag pl => some ⟨Machine.secOtpProgram, mb, tag, pl⟩
  | .fwWrite mb tag pl => some ⟨Machine.fwWrite, mb, tag, pl⟩
  | .fwVerify mb tag pl => some ⟨Machine.fwVerify, mb, tag, pl⟩
  | .fwSwitch mb tag pl => some ⟨Machine.fwSwitch, mb, tag, pl⟩
  | .flashStatus mb tag pl => some ⟨Machine.flashStatus, mb, tag, pl⟩
  | .dramRetiredRead mb tag pl => some ⟨Machine.dramRetiredRead, mb, tag, pl⟩
  | .selftest mb tag pl => some ⟨Machine.selftest, mb, tag, pl⟩
  | _ => none

end Sys2Proof.Machine
end

