-- ==== Sys2Proof/Certificates/Slice0/Obligations.lean ====
section
/-!
DEFINITION. The statements for the provers. Terms of Safety.lean: `Does`, `Runs` and `Gives` say what the table's rows do,
`Answers` and `Accepts` what Kelnen commands do; each also says which chapters of the state may change.
-/
open Sys2Proof Sys2Proof.Machine

/-- A step takes the command at the front of the queue and runs it on the state with the rest (R482; log entry 1 declares the queue). -/
def Obligations.StepRunsTheFront : Prop :=
  ∀ (c : Instr) (s : State), step { s with pending := c :: s.pending } = exec c s

/-- With an empty queue one TIME cycle passes (log entry 2, a design choice; the counts follow R220 and R235). -/
def Obligations.IdleTick : Prop :=
  ∀ s : State, s.pending = [] →
    (s.hub.powered = false → step s = .next s) ∧
    (s.hub.powered = true → ∃ t, step s = .next t ∧ t.pending = [] ∧
      ((s.hub.tb.started = false ∨ s.hub.clk.held = true ∨ 1 < s.hub.tb.toStrobe) →
        (∀ g, g < 32 → (s.hub.cg g).due = []) → s.hub.onlyIn [.tb] t.hub) ∧
      ((s.hub.tb.started = false ∨ s.hub.clk.held = true ∨ 1 < s.hub.tb.toStrobe) →
        t.hub.tb.xo = s.hub.tb.xo + xoPerTime s.hub.tb.y ∧
        (s.hub.clk.held = true → t.hub.tb.sec = s.hub.tb.sec ∧ t.hub.tb.cnt = s.hub.tb.cnt ∧ t.hub.tb.net = s.hub.tb.net) ∧
        (s.hub.clk.held = false → s.hub.tb.sec < 2 ^ 32 → s.hub.tb.cnt < 122880000 →
          t.hub.tb.cnt = (s.hub.tb.cnt + 1) % 122880000 ∧
          t.hub.tb.sec = (if s.hub.tb.cnt + 1 = 122880000 then (s.hub.tb.sec + 1) % 2 ^ 32 else s.hub.tb.sec))) ∧
      (s.hub.tb.started = true → s.hub.clk.held = false → s.hub.tb.toStrobe ≤ 1 → t.hub.tb.dead = false → exec .frameStrobe s = .next t))

/-- What State.reset holds (R243, R294, R491, R533, R537, R557). -/
def Obligations.ResetValues : Prop :=
  State.reset.pending = [] ∧ State.reset.hub.powered = false ∧
  (∀ m, m < 8 → (State.reset.hub.host.mbs.get m).state = .offline) ∧
  State.reset.hub.cfg.clk = { xoTol := 120, failWin := 2, okWin := 16, refTol := 1000, xoDecl := 500 } ∧
  State.reset.hub.cfg.tb.src = { srcEn := 7, slewMax := 100, breakLimit := 2000, breakQual := 3, holdoff := 10, holdStab := 1000,
                                 mapPeriod := 60, netUnc := 100 } ∧
  State.reset.hub.cfg.autostart = true ∧ State.reset.hub.cfg.saveInt = 60 ∧ State.reset.hub.cfg.tiu.calInt = 60 ∧
  (∀ n, n < 16 → (State.reset.hub.lane n).st = .disabled) ∧ (∀ p, p < 2 → (State.reset.hub.cPort p).st = .disabled)

/-- At State.reset every command that waits can be sent (R537). -/
def Obligations.ResetIsSendable : Prop :=
  State.reset.sendable = true

/-- A queue of commands that can be sent never stops the block (R477, R483, R569). -/
def Obligations.SendableKept : Prop :=
  ∀ s : State, s.sendable = true → s.runs ∧ ∀ t, step s = .next t → t.sendable = true

/-- A queue of commands that can be sent drains (R482). -/
def Obligations.QueueDrains : Prop :=
  ∀ s : State, s.sendable = true →
    ∃ t : State, Host.Core.run core s.pending.length s = .next t ∧ t.pending = []

/-- The one stop is an operand that nothing can spell (R477, R569). -/
def Obligations.OnlyIllFormedStops : Prop :=
  ∀ (i : Instr) (s : State),
    (i.wellFormed = false → exec i s = .fault .badOperand) ∧ (i.wellFormed = true → ∃ t, exec i s = .next t)

/-- A command leaves the queue alone (R482). -/
def Obligations.QueueLeftAlone : Prop :=
  ∀ (i : Instr) (s t : State), exec i s = .next t → t.pending = s.pending

/-- A hub without power changes on power rows alone (R537, R546, R549). -/
def Obligations.UnpoweredHubIgnores : Prop :=
  ∀ (i : Instr) (s : State), s.hub.powered = false → i.wellFormed = true → i ≠ .powerOnReset → i ≠ .resetNAssert →
    (∀ b, i ≠ .coldBoot b) → (∀ b, i ≠ .retainResume b) → exec i s = .next s

/-- A refused Kelnen command takes no effect beyond its answer (R478, R483, R492). -/
def Obligations.RefusedCommandOnlyAnswers : Prop :=
  ∀ (i : Instr) (k : Kelnen) (s : State) (st : Nat) (ws : List Word), kelnenOf i = some k →
    s.refuses k.spec k.mb k.tag k.pl st ws →
    ∃ t, exec i s = .next t ∧ t.pending = s.pending ∧ t.hub.response k.mb st 0 k.tag ws ∧ s.hub.onlyIn [.host, .clk, .tx] t.hub ∧
      (∀ m, m ≠ k.mb.val → t.hub.host.mbs.get m = s.hub.host.mbs.get m) ∧ t.hub.host.posted = [] ∧
      t.hub.host.slots = s.hub.host.slots ∧ t.hub.host.cq = s.hub.host.cq ∧ t.hub.host.cqWr = s.hub.host.cqWr ∧
      { t.hub.clk with gates := s.hub.clk.gates } = s.hub.clk ∧ ∀ n ∈ t.hub.clk.gates, n ∈ s.hub.clk.gates

/-- A command to a mailbox that is not IDLE is ignored (R480). -/
def Obligations.MailboxNotIdle : Prop :=
  ∀ (i : Instr) (k : Kelnen) (s : State), kelnenOf i = some k → s.hub.powered = true → payloadOk k.pl = true →
    (s.hub.host.mbs.get k.mb).state ≠ .idle →
    ∃ t, exec i s = .next t ∧ t.pending = s.pending ∧ s.hub.onlyIn [.host, .clk] t.hub ∧
      s.hub.onlyMb k.mb { s.hub.host.mbs.get k.mb with status := (s.hub.host.mbs.get k.mb).status ||| 6 } t.hub ∧
      { t.hub.clk with gates := s.hub.clk.gates } = s.hub.clk

/-- A command that the firmware cannot take stays POSTED (R480, R482, R524). -/
def Obligations.PostedCommandWaits : Prop :=
  ∀ (i : Instr) (k : Kelnen) (s : State), kelnenOf i = some k → s.hub.powered = true → payloadOk k.pl = true →
    (s.hub.host.mbs.get k.mb).state = .idle →
    (s.hub.canTake = false ∨ (k.mb.val ≠ 7 ∧ k.mb.val ∉ s.hub.host.posted ∧ s.hub.host.posted ≠ [])) →
    ∃ t, exec i s = .next t ∧ t.pending = s.pending ∧ s.hub.onlyIn [.host, .clk] t.hub ∧
      (t.hub.host.mbs.get k.mb).state = .posted ∧ t.hub.host.posted = s.hub.host.posted ++ [k.mb.val] ∧
      (t.hub.host.mbs.get k.mb).cmd.gets 0 2 = [cmdHeader k.spec.opcode k.pl.length, k.tag] ∧
      (t.hub.host.mbs.get k.mb).cmd.gets 4 (min k.pl.length 124) = k.pl.take 124 ∧
      (t.hub.host.mbs.get k.mb).resp = (s.hub.host.mbs.get k.mb).resp ∧
      (∀ m, m ≠ k.mb.val → t.hub.host.mbs.get m = s.hub.host.mbs.get m) ∧ t.hub.host.slots = s.hub.host.slots

/-- The firmware runs a posted command as its own row does (R480, R482). -/
def Obligations.TakeRunsThePostedCommand : Prop :=
  ∀ (i : Instr) (k : Kelnen) (s : State), kelnenOf i = some k → s.reaches k.mb k.pl = true →
    ∃ t, exec .mbCommandTake { s with hub := s.hub.mailed k.spec k.mb k.tag k.pl } = .next t ∧ exec i s = .next t

/-- SYS_NOP returns its payload and changes nothing (R495). -/
def Obligations.NopReturnsItsPayload : Prop :=
  (∀ pl : List Word, sysNop.len pl = true ↔ pl.length ≤ 124) ∧ sysNop.opcode = 0x0101 ∧
  (∀ (s : State) (mb : Fin 8) (tag : Word) (pl : List Word), s.takes sysNop mb tag pl = true →
    Answers (.sysNop mb tag pl) s mb tag DONE [] fun ws t => ws = pl ∧ pl.length ≤ 124 ∧
      (t.host.mbs.get mb).resp.gets 4 pl.length = pl)

/-- SL_QUAR_RELEASE and CASC_QUAR_RELEASE (R413, R438). -/
def Obligations.QuarantineRelease : Prop :=
  slQuarRelease.opcode = 0x0A05 ∧ cascQuarRelease.opcode = 0x0B04 ∧
  (∀ (s : State) (mb : Fin 8) (tag w : Word), s.reaches mb [w] = true → s.hub.sys.recovery = false → mb.val ≠ 7 →
    s.hub.clk.stopped = false → w.toNat < 2 ^ 16 →
    ((∀ n, n < 16 → bit w n = true → (s.hub.lane n).st = .quarantined) →
      Answers (.slQuarRelease mb tag [w]) s mb tag DONE [.sl, .casc, .tiu] fun _ t =>
        ∀ n, n < 16 → bit w n = true →
          if (s.hub.laneCfg n).enable then (t.lane n).st = .training ∧ (t.lane n).step = 1 else (t.lane n).st = .disabled) ∧
    ((∃ n, n < 16 ∧ bit w n = true ∧ (s.hub.lane n).st ≠ .quarantined) →
      ∃ t, exec (.slQuarRelease mb tag [w]) s = .next t ∧ t.hub.response mb BAD_STATE 0 tag [] ∧ t.hub.sl = s.hub.sl)) ∧
  (∀ (s : State) (mb : Fin 8) (tag w : Word), s.reaches mb [w] = true → s.hub.sys.recovery = false → mb.val ≠ 7 →
    s.hub.clk.stopped = false → w.toNat < 2 ^ 2 →
    ((∀ n, n < 2 → bit w n = true → (s.hub.cPort n).st = .quarantined) →
      Answers (.cascQuarRelease mb tag [w]) s mb tag DONE [.casc, .evt, .tb, .jrn, .sto, .tiu, .sl] fun _ t =>
        ∀ n, n < 2 → bit w n = true →
          if (s.hub.cPortCfg n).enable then (t.cPort n).st = .training ∧ (t.cPort n).step = 1 else (t.cPort n).st = .disabled) ∧
    ((∃ n, n < 2 ∧ bit w n = true ∧ (s.hub.cPort n).st ≠ .quarantined) →
      ∃ t, exec (.cascQuarRelease mb tag [w]) s = .next t ∧ t.hub.response mb BAD_STATE 0 tag [] ∧ t.hub.casc = s.hub.casc))

/-- Comparison of T64 values and of epochs (R12, R13). -/
def Obligations.TimeComparison : Prop :=
  (∀ a b : T64, tDiff a b = (b - a).toInt) ∧
  (∀ x y : Nat, ((y : Int) - x).natAbs < 2 ^ 63 →
    tDiff (BitVec.ofNat 64 x) (BitVec.ofNat 64 y) = (y : Int) - x ∧
    (tLt (BitVec.ofNat 64 x) (BitVec.ofNat 64 y) = true ↔ x < y) ∧ (tLe (BitVec.ofNat 64 x) (BitVec.ofNat 64 y) = true ↔ x ≤ y)) ∧
  (∀ a b : Nat, epochDiff a b = (BitVec.ofNat 16 b - BitVec.ofNat 16 a).toInt) ∧
  (∀ a b : Nat, ((b : Int) - a).natAbs < 32768 → epochDiff (a % 65536) (b % 65536) = (b : Int) - a)

/-- The map of residues to unsigned values (R353). -/
def Obligations.ResidueMap : Prop :=
  (∀ e : BitVec 32, zig e.toInt = ((e <<< 1) ^^^ (e.sshiftRight 31)).toNat) ∧
  (∀ e : BitVec 32, unzig (zig e.toInt) = e.toInt) ∧
  [0, -1, 1, -2, 2].map zig = [0, 1, 2, 3, 4]

/-- The slot rates of a sensor lane (R386). -/
def Obligations.SlotRates : Prop :=
  (∀ level r : Nat, level ≤ 3 →
    (rateOk level r = true ↔ (∃ m, 1 ≤ m ∧ m ≤ 8 ∧ r = 8000 * m) ∨ (level = 3 ∧ ∃ e, 1 ≤ e ∧ e ≤ 6 ∧ r * 2 ^ e = 8000))) ∧
  (∀ (h : Hub) (p : List Word), slSlotSet.bad h p = none → rateOk (h.lane (fld (pw p 0) 11 8)).level (pw p 1).toNat = true)

/-- OTP fields stay programmed (R209, R543, R560). -/
def Obligations.OtpNeverUnprograms : Prop :=
  ∀ s t : State, step s = .next t →
    (s.hub.sto.otp.keyHash0.isSome = true → t.hub.sto.otp.keyHash0.isSome = true) ∧
    (s.hub.sto.otp.keyHash1.isSome = true → t.hub.sto.otp.keyHash1.isSome = true) ∧
    (s.hub.sto.otp.jtagKey.isSome = true → t.hub.sto.otp.jtagKey.isSome = true) ∧
    (s.hub.sto.otp.subsys.isSome = true → t.hub.sto.otp.subsys.isSome = true) ∧
    (s.hub.sto.otp.revoked0 = true → t.hub.sto.otp.revoked0 = true)

/-- System, log and clock commands (R495, R496, R497, R498, R556, R557, R512, R530, R531, R532, R533). -/
def Obligations.SystemCommands : Prop :=
  (∀ (s : State) (mb : Fin 8) (tag : Word) (pl : List Word),
    s.takes Machine.sysNop mb tag pl = true →
    Answers (.sysNop mb tag pl) s mb tag DONE [] fun ws _ => ws = pl) ∧
  (∀ (s : State) (mb : Fin 8) (tag : Word) (pl : List Word),
    s.takes Machine.sysInfo mb tag pl = true →
    Answers (.sysInfo mb tag pl) s mb tag DONE [] fun ws _ => ws.drop 3 = 1 :: ((List.range 8).map fun m => s.hub.sys.lastTag.get m) ++ [wd
      s.hub.sys.ctrlResets, Config.revision, lo32 Config.serial.toNat, hi32 Config.serial.toNat] ∧
      ws.getD 1 0 = wd (flag s.hub.sys.slotB 0 + flag s.hub.sto.trialFailed 1 + s.hub.sto.otp.rollback * 256)) ∧
  (∀ (s : State) (mb : Fin 8) (tag : Word) (pl : List Word),
    s.takes Machine.sysHandleQuery mb tag pl = true →
    Answers (.sysHandleQuery mb tag pl) s mb tag DONE [] fun ws _ => ∀ x, s.hub.slotOf (fld (pw pl 0) 15 0) = some x →
      ws = [wd ((if x.done then 2 else 1) + x.opcode * 65536), x.tag, wd (x.mb + if x.done then x.seq * 65536 else 0)]) ∧
  (∀ (s : State) (mb : Fin 8) (tag : Word) (pl : List Word),
    s.takes Machine.sysAbort mb tag pl = true →
    Answers (.sysAbort mb tag pl) s mb tag DONE [.host, .cfg, .clk, .fe, .cal, .flt, .tb, .net, .tiu, .cod, .free, .evt] fun _ t => ∀ x,
      s.hub.slotOf (fld (pw pl 0) 15 0) = some x → x.opcode = 0x0202 → t.clk.fmc.busy = false ∧
      (t.slotOf (fld (pw pl 0) 15 0)).all (fun y => y.done)) ∧
  (∀ (s : State) (mb : Fin 8) (tag : Word) (pl : List Word),
    s.takes Machine.sysReset mb tag pl = true → fld (pw pl 0) 1 0 ≠ 3 →
    Answers (.sysReset mb tag pl) s mb tag DONE [.sys] fun _ t => (fld (pw pl 0) 1 0 = 1 → t.sys.pendingReset = some (.control 4) ∧
      t.sys.pendingMb = mb.val) ∧ (fld (pw pl 0) 1 0 = 2 → t.sys.pendingReset = some .datapath ∧ t.sys.pendingMb = mb.val) ∧
      t.sys.resetDue = s.hub.xoCycles + 49152) ∧
  (∀ (s : State) (mb : Fin 8) (tag : Word) (pl : List Word),
    s.takes Machine.sysReset mb tag pl = true → fld (pw pl 0) 1 0 = 3 →
    ∃ t, exec (.sysReset mb tag pl) s = .next t ∧ t.pending = s.pending ∧ (t.hub.host.mbs.get mb).state = .busy ∧
      t.hub.sys = { s.hub.sys with blockReset := some { block := fld (pw pl 0) 12 8, mb := mb.val, tag := tag, since := s.hub.tb.strobes } }
      ∧ s.hub.onlyIn [.host, .sys, .clk, .tx] t.hub) ∧
  (∀ (s : State) (mb : Fin 8) (tag : Word) (pl : List Word),
    s.takes Machine.sysStateSave mb tag pl = true →
    Accepts (.sysStateSave mb tag pl) s mb tag [.cfg, .sto] fun _ t => t.cfg = { s.hub.cfg with autostart := bit (pw pl 0) 31,
                                                                                                saveInt := fld (pw pl 0) 15 0 } ∧
      t.sto.jobs.length = s.hub.sto.jobs.length + 1) ∧
  (∀ (s : State) (mb : Fin 8) (tag : Word) (pl : List Word),
    s.takes Machine.logMark mb tag pl = true →
    Answers (.logMark mb tag pl) s mb tag DONE [.evt] fun ws t => ws = [wd s.hub.evt.logNext] ∧
      t.evt.logNext = (s.hub.evt.logNext + 1) % 2 ^ 32 ∧ (t.evt.log.get (s.hub.evt.logNext % 4096)).event = 0xF0 ∧
      (t.evt.log.get (s.hub.evt.logNext % 4096)).data = (bytesOf (pl.drop 1)).take 16) ∧
  (∀ (s : State) (mb : Fin 8) (tag : Word) (pl : List Word),
    s.takes Machine.clkStatus mb tag pl = true →
    Answers (.clkStatus mb tag pl) s mb tag DONE [] fun ws _ => ws.take 5 = [s.hub.clkStatusWord, s.hub.clk.fault, s.hub.muxState,
      s.hub.gatesWord false, s.hub.gatesWord true] ∧ (ws.drop 5).take 5 = (List.range 5).map fun k => wd (s.hub.clk.mon.get k).count) ∧
  (∀ (s : State) (mb : Fin 8) (tag : Word) (pl : List Word),
    s.takes Machine.clkFmc mb tag pl = true →
    Accepts (.clkFmc mb tag pl) s mb tag [.clk] fun hd t => t.clk.fmc = { s.hub.clk.fmc with busy := true, meas := fld (pw pl 0) 5 0,
                                                                                             ref := fld (pw pl 0) 13 8,
                                                                                             log2 := fld (pw pl 0) 20 16, handle := hd,
                                                                                             start := s.hub.localT }) ∧
  (∀ (s : State) (mb : Fin 8) (tag : Word) (pl : List Word),
    s.takes Machine.clkGateSet mb tag pl = true → bitsOf (mask64 (pw pl 0) (pw pl 1)) 37 = [] →
    Answers (.clkGateSet mb tag pl) s mb tag DONE [.clk] fun ws t => ws = [0, 0] ∧ (∀ n, n ∈ bitsOf (mask64 (pw pl 2) (pw pl 3)) 37 →
      n ∉ t.clk.gates)) ∧
  (∀ (s : State) (mb : Fin 8) (tag : Word) (pl : List Word),
    s.takes Machine.clkMonSet mb tag pl = true →
    Answers (.clkMonSet mb tag pl) s mb tag DONE [.cfg] fun _ t => t.cfg = { s.hub.cfg with clk := { xoTol := fld (pw pl 0) 31 24,
                                                                                                     failWin := fld (pw pl 0) 23 20,
                                                                                                     okWin := fld (pw pl 0) 19 12,
                                                                                                     refTol := fld (pw pl 1) 31 16,
                                                                                                     xoDecl := fld (pw pl 1) 15 0 } })

/-- Front-end commands (R79, R80, R81, R82, R83, R84). -/
def Obligations.FrontEndCommands : Prop :=
  (∀ (s : State) (mb : Fin 8) (tag : Word) (pl : List Word),
    s.takes Machine.feFastSet mb tag pl = true →
    Answers (.feFastSet mb tag pl) s mb tag DONE [.cfg] fun _ t => t.cfg =
      { s.hub.cfg with fe := { s.hub.cfg.fe with fast := s.hub.cfg.fe.fast.put (fld (pw pl 0) 5 0) { enable := bit (pw pl 0) 31,
                                                                                                     exc := fld (pw pl 0) 27 24,
                                                                                                     pull := fld (pw pl 0) 21 20,
                                                                                                     gain := fld (pw pl 0) 18 16,
                                                                                                     deb := fld (pw pl 1) 28 16,
                                                                                                     hi := fld (pw pl 1) 15 8,
                                                                                                     lo := fld (pw pl 1) 7 0,
                                                                                                     extend := fld (pw pl 2) 11 0 } } }) ∧
  (∀ (s : State) (mb : Fin 8) (tag : Word) (pl : List Word),
    s.takes Machine.feScanSet mb tag pl = true →
    Answers (.feScanSet mb tag pl) s mb tag DONE [.cfg] fun ws t => t.cfg =
      { s.hub.cfg with fe := { s.hub.cfg.fe with scan := s.hub.cfg.fe.scan.put (fld (pw pl 0) 2 0) { div := fld (pw pl 0) 31 16,
                                                                                                     deb := fld (pw pl 1) 19 16,
                                                                                                     hi := fld (pw pl 1) 15 8,
                                                                                                     lo := fld (pw pl 1) 7 0,
                                                                                                     ref := pwEntry (pw pl 2),
                                                                                                     list := ((pl.drop 3).take 8 |>.map pwEntry).takeWhile fun e => e.en } } }
      ∧ ws.take 2 = [wd (s.hub.pwNeed pl), wd (fld (pw pl 0) 31 16 * 3072 - s.hub.pwNeed pl)]) ∧
  (∀ (s : State) (mb : Fin 8) (tag : Word) (pl : List Word),
    s.takes Machine.feExcSet mb tag pl = true →
    Accepts (.feExcSet mb tag pl) s mb tag [.cfg, .fe] fun hd t => t.cfg =
      { s.hub.cfg with fe := { s.hub.cfg.fe with exc := s.hub.cfg.fe.exc.put (fld (pw pl 0) 2 0) { mode := fld (pw pl 0) 5 4,
                                                                                                   value := fld (pw pl 0) 31 16,
                                                                                                   chop := bit (pw pl 0) 8,
                                                                                                   src := fld (pw pl 0) 15 12,
                                                                                                   n := fld (pw pl 0) 11 9,
                                                                                                   blank := fld (pw pl 1) 7 0 } } } ∧
      (t.fe.exc.get (fld (pw pl 0) 2 0)).drive = (s.hub.fe.exc.get (fld (pw pl 0) 2 0)).drive ∧
      (t.fe.exc.get (fld (pw pl 0) 2 0)).pending.getLast? = some (pwExc pl, hd, s.hub.tb.strobes)) ∧
  (∀ (s : State) (mb : Fin 8) (tag : Word) (pl : List Word),
    s.takes Machine.feLinWrite mb tag pl = true →
    Answers (.feLinWrite mb tag pl) s mb tag DONE [.fe] fun _ t => t.fe =
      { s.hub.fe with stage := s.hub.fe.stage.puts (64 * fld (pw pl 0) 4 0 + fld (pw pl 0) 13 8) ((List.range (fld (pw pl 0) 22 16)).map fun j => some (signed 32 (pw pl (1 + 2 * j)).toNat, signed 32 (pw pl (2 + 2 * j)).toNat)) }) ∧
  (∀ (s : State) (mb : Fin 8) (tag : Word) (pl : List Word),
    s.takes Machine.feLinCommit mb tag pl = true →
    Answers (.feLinCommit mb tag pl) s mb tag DONE [.cfg, .fe] fun _ t => (t.cfg.fe.lin.get (fld (pw pl 0) 4 0)).xy = (s.hub.fe.stage.gets
      (64 * fld (pw pl 0) 4 0) (fld (pw pl 0) 14 8)).filterMap id ∧ t.fe.stage.gets (64 * fld (pw pl 0) 4 0) 64 = List.replicate 64 none) ∧
  (∀ (s : State) (mb : Fin 8) (tag : Word) (pl : List Word),
    s.takes Machine.feLinRead mb tag pl = true →
    Answers (.feLinRead mb tag pl) s mb tag DONE [.free] fun ws _ => ws.getD 0 0 = wd (s.hub.cfg.fe.lin.get (fld (pw pl 0) 4 0)).xy.length ∧
      ∀ j p, j < fld (pw pl 0) 22 16 → (s.hub.cfg.fe.lin.get (fld (pw pl 0) 4 0)).xy[fld (pw pl 0) 13 8 + j]? = some p →
      ws.getD (1 + 2 * j) 0 = wdInt p.1 ∧ ws.getD (2 + 2 * j) 0 = wdInt p.2) ∧
  (∀ (s : State) (mb : Fin 8) (tag : Word) (pl : List Word),
    s.takes Machine.feFaultStatus mb tag pl = true →
    Answers (.feFaultStatus mb tag pl) s mb tag DONE [] fun ws _ => ws.length = 5 ∧ ∀ ch : Nat, ch < 128 →
      (bit (ws.getD (ch / 32) 0) (ch % 32) = true ↔ (s.hub.fault ch).inFault = true)) ∧
  (∀ (s : State) (mb : Fin 8) (tag : Word) (pl : List Word),
    s.takes Machine.feFaultDetail mb tag pl = true →
    Answers (.feFaultDetail mb tag pl) s mb tag DONE [] fun ws _ => ws = [wd (flag (s.hub.fault (fld (pw pl 0) 9 0)).inFault 0 +
      (s.hub.fault (fld (pw pl 0) 9 0)).pin * 2 + flag (s.hub.fault (fld (pw pl 0) 9 0)).above 3)] ++ tWords (s.hub.fault (fld (pw pl 0) 9
      0)).t ++ [wd (s.hub.fault (fld (pw pl 0) 9 0)).epoch, wd (sat32 (s.hub.fault (fld (pw pl 0) 9 0)).excursions), wd (s.hub.fault (fld
      (pw pl 0) 9 0)).declared])

/-- Calibration commands (R108, R109, R110, R111). -/
def Obligations.CalibrationCommands : Prop :=
  (∀ (s : State) (mb : Fin 8) (tag : Word) (pl : List Word),
    s.takes Machine.calRefSet mb tag pl = true →
    Answers (.calRefSet mb tag pl) s mb tag DONE [.cfg] fun _ t => t.cfg =
      { s.hub.cfg with cal := { s.hub.cfg.cal with ref := some ((pw pl 0).toNat, (pw pl 1).toNat), unc := (pw pl 2).toNat } }) ∧
  (∀ (s : State) (mb : Fin 8) (tag : Word) (pl : List Word),
    s.takes Machine.calPolicySet mb tag pl = true →
    Answers (.calPolicySet mb tag pl) s mb tag DONE [.cfg] fun _ t => ∀ g : Nat, g < 8 → (t.cfg.cal.groups.get g = if fld (pw pl 0) 3 0 = 15
      ∨ fld (pw pl 0) 3 0 = g then { suspend := fld (pw pl 0) 29 28 == 1, avg := fld (pw pl 0) 27 24, dt := fld (pw pl 0) 23 16,
                                     maxInt := (pw pl 1).toNat, xfade := fld (pw pl 2) 31 16, stepInt := fld (pw pl 2) 15 0,
                                     stepLimit := fld (pw pl 3) 13 0 } else s.hub.cfg.cal.groups.get g)) ∧
  (∀ (s : State) (mb : Fin 8) (tag : Word) (pl : List Word),
    s.takes Machine.calRun mb tag pl = true →
    Accepts (.calRun mb tag pl) s mb tag [.cal] fun hd t => t.cal =
      { s.hub.cal with pending := (bitsOf (pw pl 0).toNat 8).map (fun g => (s.hub.cal.pending.find? (·.1 == g)).getD (g, 2)) ++ s.hub.cal.pending.filter (fun p => !(bitsOf (pw pl 0).toNat 8).contains p.1),
                       cmds := s.hub.cal.cmds ++ [{ handle := hd, left := bitsOf (pw pl 0).toNat 8, started := [], done := [],
                                                    abandoned := [] }] }) ∧
  (∀ (s : State) (mb : Fin 8) (tag : Word) (pl : List Word),
    s.takes Machine.calResultRead mb tag pl = true →
    Answers (.calResultRead mb tag pl) s mb tag DONE [] fun ws _ => ∀ r, s.hub.cal.result.get (calKey (fld (pw pl 0) 9 0) (fld (pw pl 0) 18
      16)) = some r → ws = wordsOf 14 (b2 0x10 ++ r.bytes))

/-- Filter commands (R155, R156, R157, R158, R159, R160, R161). -/
def Obligations.FilterCommands : Prop :=
  (∀ (s : State) (mb : Fin 8) (tag : Word) (pl : List Word),
    s.takes Machine.fltProfileSet mb tag pl = true →
    Answers (.fltProfileSet mb tag pl) s mb tag DONE [.cfg] fun _ t => t.cfg.flt.profiles = s.hub.cfg.flt.profiles.put (fld (pw pl 0) 4 0)
      (some { full := bit (pw pl 0) 31, other := bit (pw pl 0) 30, mode := fld (pw pl 0) 29 28, n := fld (pw pl 0) 27 25,
              d := if bit (pw pl 0) 24 then 2 else 1, l := fld (pw pl 0) 23 16, m := fld (pw pl 0) 13 5, xf := fld (pw pl 1) 31 16,
              fOut := (pw pl 2).toNat }) ∧ t.cfg = { s.hub.cfg with flt := { s.hub.cfg.flt with profiles := t.cfg.flt.profiles,
                                                                                                banks := t.cfg.flt.banks } }) ∧
  (∀ (s : State) (mb : Fin 8) (tag : Word) (pl : List Word),
    s.takes Machine.fltCoefWrite mb tag pl = true →
    Answers (.fltCoefWrite mb tag pl) s mb tag DONE [.cfg] fun _ t => t.cfg.flt.banks = s.hub.cfg.flt.banks.put (4 * fld (pw pl 0) 4 0 + fld
      (pw pl 0) 6 5) { image := (s.hub.bank (fld (pw pl 0) 4 0) (fld (pw pl 0) 6 5)).image.puts (fld (pw pl 0) 23 16) (pl.drop 1),
                       committed := false }) ∧
  (∀ (s : State) (mb : Fin 8) (tag : Word) (pl : List Word),
    s.takes Machine.fltCoefCommit mb tag pl = true →
    Answers (.fltCoefCommit mb tag pl) s mb tag DONE [.cfg] fun _ t => (t.bank (fld (pw pl 0) 4 0) (fld (pw pl 0) 6 5)).committed = true ∧
      (t.bank (fld (pw pl 0) 4 0) (fld (pw pl 0) 6 5)).image = (s.hub.bank (fld (pw pl 0) 4 0) (fld (pw pl 0) 6 5)).image) ∧
  (∀ (s : State) (mb : Fin 8) (tag : Word) (pl : List Word),
    s.takes Machine.fltBankSwap mb tag pl = true → s.hub.swapNow (fld (pw pl 0) 4 0) (fld (pw pl 0) 6 5) = false →
      (s.hub.flt.swap.get (fld (pw pl 0) 4 0)).cur = none →
    Accepts (.fltBankSwap mb tag pl) s mb tag [.flt] fun hd t => (t.flt.swap.get (fld (pw pl 0) 4 0)).cur = (s.hub.swapBegin (fld (pw pl 0)
      4 0) (fld (pw pl 0) 6 5) hd).cur) ∧
  (∀ (s : State) (mb : Fin 8) (tag : Word) (pl : List Word),
    s.takes Machine.fltChanSet mb tag pl = true →
    Answers (.fltChanSet mb tag pl) s mb tag DONE [.cfg, .flt] fun _ t => (t.cfg.flt.chans.get (fld (pw pl 0) 9 0) = some
      { profile := fld (pw pl 0) 14 10, linEn := bit (pw pl 0) 21, linTable := fld (pw pl 0) 20 16, gain := signed 32 (pw pl 1).toNat,
        offset := signed 32 (pw pl 2).toNat, redN := fld (pw pl 3) 20 0, excSettle := fld (pw pl 4) 31 16, tiSel := fld (pw pl 5) 31 29,
        spr := fld (pw pl 5) 28 16, ppr := fld (pw pl 5) 10 0, tachMax := (pw pl 6).toNat }) ∧ ∀ ch : Nat, ch ≠ fld (pw pl 0) 9 0 →
      t.cfg.flt.chans.get ch = s.hub.cfg.flt.chans.get ch ∧ t.chain ch = s.hub.chain ch) ∧
  (∀ (s : State) (mb : Fin 8) (tag : Word) (pl : List Word),
    s.takes Machine.fltSync mb tag pl = true →
    Accepts (.fltSync mb tag pl) s mb tag [.flt] fun hd t => t.flt =
      { s.hub.flt with sync := s.hub.flt.sync ++ [{ mask := mask64 (pw pl 0) (pw pl 1), handle := hd, since := s.hub.tb.strobes }] }) ∧
  (∀ (s : State) (mb : Fin 8) (tag : Word) (pl : List Word),
    s.takes Machine.fltDelayRead mb tag pl = true →
    Answers (.fltDelayRead mb tag pl) s mb tag DONE [.free] fun ws _ => ws.length = 14 ∧ ∀ g, s.hub.geo (fld (pw pl 0) 9 0) = some g →
      ws.take 4 = durWords (g.2.1.tauC g.2.2) ++ durWords (g.2.1.w g.2.2))

/-- Trigger and capture commands (R193, R194, R195, R196, R197, R198, R199). -/
def Obligations.TriggerCommands : Prop :=
  (∀ (s : State) (mb : Fin 8) (tag : Word) (pl : List Word),
    s.takes Machine.trgUnitSet mb tag pl = true →
    Answers (.trgUnitSet mb tag pl) s mb tag DONE [.cfg, .trg] fun _ t => (t.unitCfg (fld (pw pl 0) 15 10) =
      { s.hub.unitCfg (fld (pw pl 0) 15 10) with cond := fld (pw pl 0) 31 30, dir := fld (pw pl 0) 29 28, pepper := bit (pw pl 0) 27,
                                                 holdMode := fld (pw pl 0) 25 24, k := fld (pw pl 0) 23 16, ch := fld (pw pl 0) 9 0,
                                                 a := signed 32 (pw pl 1).toNat, b := signed 32 (pw pl 2).toNat, hyst := (pw pl 3).toNat,
                                                 pa := signed 32 (pw pl 4).toNat, pb := signed 32 (pw pl 5).toNat, pHyst := (pw pl 6).toNat,
                                                 holdT := (pw pl 7).toNat, ctOut := fld (pw pl 8) 28 24, confWin := fld (pw pl 8) 23 16,
                                                 holdN := fld (pw pl 8) 15 0, groups := (pw pl 9).toNat,
                                                 live := if bit (pw pl 10) 4 then some (fld (pw pl 10) 3 0) else none, set := true }) ∧
      ∀ u : Nat, u ≠ fld (pw pl 0) 15 10 → t.unitCfg u = s.hub.unitCfg u) ∧
  (∀ (s : State) (mb : Fin 8) (tag : Word) (pl : List Word),
    s.takes Machine.trgQualSet mb tag pl = true →
    Answers (.trgQualSet mb tag pl) s mb tag DONE [.cfg] fun _ t => (t.unitCfg (fld (pw pl 0) 5 0) =
      { s.hub.unitCfg (fld (pw pl 0) 5 0) with mask := pw128 pl 1, value := pw128 pl 5 }) ∧ ∀ u : Nat, u ≠ fld (pw pl 0) 5 0 →
      t.unitCfg u = s.hub.unitCfg u) ∧
  (∀ (s : State) (mb : Fin 8) (tag : Word) (pl : List Word),
    s.takes Machine.capGroupSet mb tag pl = true →
    Answers (.capGroupSet mb tag pl) s mb tag DONE [.cfg, .trg, .jrn, .evt, .sto] fun _ t => (t.cgCfg (fld (pw pl 0) 4 0) =
      { chans := pwChans (pl.drop 7) (fld (pw pl 0) 22 16), autoEn := bit (pw pl 0) 7, pepper := bit (pw pl 0) 6, pre := (pw pl 1).toNat,
        post := (pw pl 2).toNat, ringMs := fld (pw pl 3) 31 16, descMax := fld (pw pl 3) 14 0, autoT := (pw pl 4).toNat,
        coalesce := (pw pl 5).toNat, segLimit := fld (pw pl 6) 31 16, ctMask := fld (pw pl 6) 15 0 })) ∧
  (∀ (s : State) (mb : Fin 8) (tag : Word) (pl : List Word),
    s.takes Machine.trgArm mb tag pl = true →
    Answers (.trgArm mb tag pl) s mb tag DONE [.trg] fun ws t => t.trg =
      { s.hub.trg with arm := s.hub.trg.arm ++ [{ armU := mask64 (pw pl 0) (pw pl 1), disU := mask64 (pw pl 2) (pw pl 3),
                                                  armG := (pw pl 4).toNat, disG := (pw pl 5).toNat, since := s.hub.tb.strobes }] } ∧
      ws = tWords s.hub.nextStrobe.1 ++ [wd s.hub.nextStrobe.2, 0]) ∧
  (∀ (s : State) (mb : Fin 8) (tag : Word) (pl : List Word),
    s.takes Machine.trgSoft mb tag pl = true →
    Answers (.trgSoft mb tag pl) s mb tag DONE [.trg] fun _ t => ∀ k : Nat, k < 16 → t.trg.soft.testBit k = ((s.hub.trg.soft.testBit k ||
      bit (pw pl 0) k) && !bit (pw pl 0) (16 + k))) ∧
  (∀ (s : State) (mb : Fin 8) (tag : Word) (pl : List Word),
    s.takes Machine.trgStatus mb tag pl = true →
    Answers (.trgStatus mb tag pl) s mb tag DONE [.trg] fun ws _ => (bit (pw pl 0) 8 = false → ws.length = 12 ∧
      (ws.drop 1).take 8 = (List.range 8).map fun j => wd ((s.hub.unit (fld (pw pl 0) 5 0)).counts.get j)) ∧ (bit (pw pl 0) 8 = true →
      ws.getD 1 0 = wd (s.hub.cg (fld (pw pl 0) 5 0)).seq ∧ ws.length = 7)) ∧
  (∀ (s : State) (mb : Fin 8) (tag : Word) (pl : List Word),
    s.takes Machine.trgIoSet mb tag pl = true →
    Answers (.trgIoSet mb tag pl) s mb tag DONE [.cfg, .trg] fun _ t => (bit (pw pl 0) 31 = true →
      t.cfg.trg.hold = s.hub.cfg.trg.hold.put (fld (pw pl 0) 3 0) (pw pl 1).toNat ∧ t.cfg.trg.pins = s.hub.cfg.trg.pins ∧
      t.trg = s.hub.trg) ∧ (bit (pw pl 0) 31 = false → t.cfg.trg.pins = s.hub.cfg.trg.pins.put (fld (pw pl 0) 3 0)
      { activeLow := bit (pw pl 0) 7, early := bit (pw pl 0) 6, out := bit (pw pl 0) 5, width := (pw pl 1).toNat,
        mask := mask64 (pw pl 2) (pw pl 3) } ∧ t.cfg.trg.hold = s.hub.cfg.trg.hold))

/-- Action commands (R214, R215, R216, R217, R218, R219). -/
def Obligations.ActionCommands : Prop :=
  (∀ (s : State) (mb : Fin 8) (tag : Word) (pl : List Word),
    s.takes Machine.actRuleSet mb tag pl = true →
    Answers (.actRuleSet mb tag pl) s mb tag DONE [.cfg] fun _ t => t.cfg =
      { s.hub.cfg with act := { s.hub.cfg.act with rules := s.hub.cfg.act.rules.put (fld (pw pl 0) 4 0) { early := bit (pw pl 0) 31,
                                                                                                          deadman := bit (pw pl 0) 30,
                                                                                                          mode := fld (pw pl 0) 29 28,
                                                                                                          pin := fld (pw pl 0) 11 8,
                                                                                                          mask := mask64 (pw pl 1) (pw pl 2),
                                                                                                          width := (pw pl 3).toNat } } }) ∧
  (∀ (s : State) (mb : Fin 8) (tag : Word) (pl : List Word),
    s.takes Machine.actPinSet mb tag pl = true →
    Answers (.actPinSet mb tag pl) s mb tag DONE [.cfg] fun _ t => t.cfg =
      { s.hub.cfg with act := { s.hub.cfg.act with pins := s.hub.cfg.act.pins.put (fld (pw pl 0) 3 0) { drive := bit (pw pl 0) 5,
                                                                                                        pol := bit (pw pl 0) 4 } } }) ∧
  (∀ (s : State) (mb : Fin 8) (tag : Word) (pl : List Word),
    s.takes Machine.actArm mb tag pl = true →
    Answers (.actArm mb tag pl) s mb tag DONE [.act, .jrn, .evt, .sto] fun _ t => (∀ r : Nat, r < 32 → bit (pw pl 0) r = true →
      (t.actRule r).armed = true) ∧ (∀ r : Nat, r < 32 → bit (pw pl 1) r = true → (t.actRule r).armed = false) ∧
      t.act.deadmanT = s.hub.newDeadman pl ∧ t.act.deadmanAt = s.hub.xoCycles) ∧
  (∀ (s : State) (mb : Fin 8) (tag : Word) (pl : List Word),
    s.takes Machine.actClear mb tag pl = true →
    Answers (.actClear mb tag pl) s mb tag DONE [.act, .jrn, .evt, .sto] fun _ t => ∀ r : Nat, r < 32 →
      (t.actRule r).armed = (s.hub.actRule r).armed) ∧
  (∀ (s : State) (mb : Fin 8) (tag : Word) (pl : List Word),
    s.takes Machine.actStatus mb tag pl = true →
    Answers (.actStatus mb tag pl) s mb tag DONE [] fun ws _ => ws.length = 36 ∧ ws.getD 1 0 = wd (maskOf ((List.range 32).filter fun r =>
      (s.hub.actRule r).armed)) ∧ ws.getD 35 0 = s.hub.sto.otp.actCodes) ∧
  (∀ (s : State) (mb : Fin 8) (tag : Word) (pl : List Word),
    s.takes Machine.actFailsafeProgram mb tag pl = true →
    ∃ t, exec (.actFailsafeProgram mb tag pl) s = .next t ∧ t.pending = s.pending ∧ (t.hub.host.mbs.get mb).state = .busy ∧
      t.hub.sto = { s.hub.sto with otpJobs := s.hub.sto.otpJobs ++ [.failSafe (pw pl 0).toNat mb.val tag] } ∧
      s.hub.onlyIn [.host, .sto, .clk, .tx] t.hub)

/-- Time commands (R243, R244, R245, R246, R247). -/
def Obligations.TimeCommands : Prop :=
  (∀ (s : State) (mb : Fin 8) (tag : Word) (pl : List Word),
    s.takes Machine.timeSrcSet mb tag pl = true →
    Answers (.timeSrcSet mb tag pl) s mb tag DONE [.cfg] fun _ t => t.cfg =
      { s.hub.cfg with tb := { s.hub.cfg.tb with src := { srcEn := fld (pw pl 0) 18 16, slewMax := fld (pw pl 0) 15 0,
                                                          breakLimit := (pw pl 1).toNat, breakQual := fld (pw pl 2) 27 24,
                                                          holdoff := fld (pw pl 2) 15 0, holdStab := (pw pl 3).toNat,
                                                          mapPeriod := fld (pw pl 4) 31 16, netUnc := fld (pw pl 4) 15 0 } } }) ∧
  (∀ (s : State) (mb : Fin 8) (tag : Word) (pl : List Word),
    s.takes Machine.timeRefSet mb tag pl = true →
    Accepts (.timeRefSet mb tag pl) s mb tag [.cfg, .tb] fun hd t => t.cfg =
      { s.hub.cfg with tb := { s.hub.cfg.tb with ppsUnc := fld (pw pl 1) 31 16, ppsFalling := bit (pw pl 1) 15,
                                                 cableDly := signed 32 (pw pl 2).toNat } } ∧
      t.tb = { s.hub.tb with pendRef := s.hub.tb.pendRef ++ [{ seconds := (pw pl 0).toNat, handle := hd, since := s.hub.localT }] }) ∧
  (∀ (s : State) (mb : Fin 8) (tag : Word) (pl : List Word),
    s.takes Machine.timeSet mb tag pl = true →
    Accepts (.timeSet mb tag pl) s mb tag [.tb] fun hd t => t.tb = { s.hub.tb with pendSet := some { seconds := (pw pl 0).toNat,
                                                                                                     strobe := fld (pw pl 1) 12 0,
                                                                                                     unc := (pw pl 2).toNat, handle := hd,
                                                                                                     since := s.hub.tb.strobes } }) ∧
  (∀ (s : State) (mb : Fin 8) (tag : Word) (pl : List Word),
    s.takes Machine.timePpsOutSet mb tag pl = true →
    Answers (.timePpsOutSet mb tag pl) s mb tag DONE [.cfg, .tb] fun _ t => t.cfg =
      { s.hub.cfg with tb := { s.hub.cfg.tb with ppsOut := { tb := fld (pw pl 0) 31 30, enable := bit (pw pl 0) 29, pol := bit (pw pl 0) 28,
                                                             width := (pw pl 1).toNat, offset := signed 32 (pw pl 2).toNat } } } ∧
      t.tb = { s.hub.tb with ppsPin := none, ppsLast := none }) ∧
  (∀ (s : State) (mb : Fin 8) (tag : Word) (pl : List Word),
    s.takes Machine.timeStatusRead mb tag pl = true →
    Answers (.timeStatusRead mb tag pl) s mb tag DONE [] fun ws _ => ws.length = 10 ∧ ws.take 4 = [s.hub.timeStatus, wd s.hub.tb.epoch, wd
      s.hub.uncWord, wdInt s.hub.tb.y] ∧ ws.getD 7 0 = wd s.hub.tb.breaks)

/-- PTP commands (R267, R268, R458, R269, R270, R274, R275, R276). -/
def Obligations.PtpCommands : Prop :=
  (∀ (s : State) (mb : Fin 8) (tag : Word) (pl : List Word),
    s.takes Machine.netPtpSet mb tag pl = true →
    Answers (.netPtpSet mb tag pl) s mb tag DONE [.cfg, .net, .tb, .evt, .jrn, .sto, .tiu] fun _ t => ((t.portCfg (fld (pw pl 0) 0 0)).ptp =
      { enable := bit (pw pl 0) 31, profile := fld (pw pl 0) 30 29, transport := fld (pw pl 0) 28 27, p2p := bit (pw pl 0) 26,
        oneStep := bit (pw pl 0) 25, authEn := bit (pw pl 0) 24, domain := fld (pw pl 0) 23 16, logDelay := signed 4 (fld (pw pl 0) 15 12),
        annTo := fld (pw pl 0) 11 8, lockThr := fld (pw pl 1) 31 16, netStep := fld (pw pl 1) 15 0, rrThresh := fld (pw pl 2) 31 16,
        rrN := fld (pw pl 2) 15 12, rrAgree := fld (pw pl 2) 11 0, rrConfirm := fld (pw pl 3) 31 16, rrHold := fld (pw pl 3) 15 0,
        authMax := fld (pw pl 4) 31 24, authWin := fld (pw pl 4) 23 16 }) ∧ (t.port (fld (pw pl 0) 0 0)).ptp.servo = if bit (pw pl 0) 31 &&
      s.hub.isActive (fld (pw pl 0) 0 0) then .acquiring else .disabled) ∧
  (∀ (s : State) (mb : Fin 8) (tag : Word) (pl : List Word),
    s.takes Machine.netPortCompSet mb tag pl = true →
    Answers (.netPortCompSet mb tag pl) s mb tag DONE [.cfg, .net, .tb, .evt, .jrn, .sto, .tiu] fun _ t => (t.portCfg (fld (pw pl 0) 0
      0)).egress = signed 32 (pw pl 1).toNat ∧ (t.portCfg (fld (pw pl 0) 0 0)).ingress = signed 32 (pw pl 2).toNat ∧
      (t.portCfg (fld (pw pl 0) 0 0)).asym = signed 32 (pw pl 3).toNat ∧ (t.port (fld (pw pl 0) 0 0)).ptp.rrAsym = 0 ∧
      (t.port (fld (pw pl 0) 0 0)).ptp.asymUnverified = false) ∧
  (∀ (s : State) (mb : Fin 8) (tag : Word) (pl : List Word),
    s.takes Machine.netPortSet mb tag pl = true →
    Answers (.netPortSet mb tag pl) s mb tag DONE [.cfg, .net, .tb, .evt, .jrn, .sto, .tiu] fun _ t => (t.portCfg (fld (pw pl 0) 0
      0)).enable = bit (pw pl 0) 31 ∧ (t.portCfg (fld (pw pl 0) 0 0)).mode = fld (pw pl 0) 30 28 ∧
      (t.portCfg (fld (pw pl 0) 0 0)).mac = bytesOf [pw pl 1] ++ leBytes 2 (pw pl 2).toNat ∧
      (t.portCfg (fld (pw pl 0) 0 0)).errMax = fld (pw pl 3) 31 16) ∧
  (∀ (s : State) (mb : Fin 8) (tag : Word) (pl : List Word),
    s.takes Machine.netRrConfirm mb tag pl = true →
    Answers (.netRrConfirm mb tag pl) s mb tag DONE [.net, .tb, .evt, .jrn, .sto, .tiu] fun _ t => fld (pw pl 0) 2 1 = 2 →
      (t.port (fld (pw pl 0) 0 0)).ptp.asymUnverified = false ∧ (t.port (fld (pw pl 0) 0 0)).ptp.rrAsym = (s.hub.port (fld (pw pl 0) 0
      0)).ptp.rrAsym) ∧
  (∀ (s : State) (mb : Fin 8) (tag : Word) (pl : List Word),
    s.takes Machine.netAuthKeySet mb tag pl = true →
    Answers (.netAuthKeySet mb tag pl) s mb tag DONE [.sto] fun _ t => t.sto.ptpKeys.get (2 * fld (pw pl 0) 0 0 + fld (pw pl 0) 8 8) =
      { id := fld (pw pl 0) 23 16 + fld (pw pl 0) 31 24 * 256 + fld (pw pl 0) 15 10 * 65536, key := pl.drop 1, active := bit (pw pl 0) 9 } ∧
      t.sto = { s.hub.sto with ptpKeys := t.sto.ptpKeys }) ∧
  (∀ (s : State) (mb : Fin 8) (tag : Word) (pl : List Word),
    s.takes Machine.netTxtsRead mb tag pl = true →
    Answers (.netTxtsRead mb tag pl) s mb tag DONE [.net] fun ws t => ws.getD 0 0 = wd (((s.hub.port (fld (pw pl 0) 0 0)).txts.take
      16).length + (s.hub.port (fld (pw pl 0) 0 0)).txLost * 65536) ∧ (t.port (fld (pw pl 0) 0 0)).txts = (s.hub.port (fld (pw pl 0) 0
      0)).txts.drop 16 ∧ (t.port (fld (pw pl 0) 0 0)).txLost = 0) ∧
  (∀ (s : State) (mb : Fin 8) (tag : Word) (pl : List Word),
    s.takes Machine.netPtpStatus mb tag pl = true →
    Answers (.netPtpStatus mb tag pl) s mb tag DONE [] fun ws _ => ws.length = 15 ∧ ws.getD 0 0 = wd ((s.hub.port (fld (pw pl 0) 0
      0)).ptp.servo.code + flag (s.hub.port (fld (pw pl 0) 0 0)).ptp.asymUnverified 3) ∧ ws.getD 9 0 = wdInt (s.hub.port (fld (pw pl 0) 0
      0)).ptp.rrAsym) ∧
  (∀ (s : State) (mb : Fin 8) (tag : Word) (pl : List Word),
    s.takes Machine.netQuarRelease mb tag pl = true →
    Answers (.netQuarRelease mb tag pl) s mb tag DONE [.net] fun _ t => (t.port (fld (pw pl 0) 0 0)).ptp.quar = (s.hub.port (fld (pw pl 0) 0
      0)).ptp.quar.filter (fun x => x != beNat (bytesOf ((pl.drop 1).take 2))))

/-- Frame, launch, path and address commands (R271, R272, R273, R459, R460, R461, R462). -/
def Obligations.NetworkCommands : Prop :=
  (∀ (s : State) (mb : Fin 8) (tag : Word) (pl : List Word),
    s.takes Machine.netFrameWrite mb tag pl = true →
    Answers (.netFrameWrite mb tag pl) s mb tag DONE [.net] fun _ t => t.net =
      { s.hub.net with frames := s.hub.net.frames.puts (384 * fld (pw pl 0) 4 0 + fld (pw pl 0) 23 16) (pl.drop 1) }) ∧
  (∀ (s : State) (mb : Fin 8) (tag : Word) (pl : List Word),
    s.takes Machine.netFrameSend mb tag pl = true →
    Answers (.netFrameSend mb tag pl) s mb tag DONE [.net] fun _ t => t.net =
      { s.hub.net with queue := s.hub.net.queue ++ [{ buf := fld (pw pl 0) 4 0, len := fld (pw pl 1) 10 0, tsId := fld (pw pl 0) 31 16,
                                                      ts := bit (pw pl 0) 15 }], busy := s.hub.net.busy ++ [fld (pw pl 0) 4 0] }) ∧
  (∀ (s : State) (mb : Fin 8) (tag : Word) (pl : List Word),
    s.takes Machine.netLaunch mb tag pl = true → (∀ p, s.hub.net.active = some p → (s.hub.port p).link = true) →
    Accepts (.netLaunch mb tag pl) s mb tag [.net] fun hd t => ∃ p, s.hub.net.active = some p ∧
      (t.port p).launch = s.hub.launchInsert (pwLaunch pl hd) (s.hub.port p).launch ∧ t.net.busy = s.hub.net.busy ++ [fld (pw pl 0) 4 0]) ∧
  (∀ (s : State) (mb : Fin 8) (tag : Word) (pl : List Word),
    s.takes Machine.netPathSet mb tag pl = true →
    Answers (.netPathSet mb tag pl) s mb tag DONE [.cfg, .net, .evt, .jrn, .sto, .tb, .tiu, .host] fun _ t => t.cfg =
      { s.hub.cfg with net := { s.hub.cfg.net with arbMode := fld (pw pl 0) 31 30, preferred := fld (pw pl 0) 29 29,
                                                   suspMask := fld (pw pl 0) 20 16, suspDeb := fld (pw pl 0) 15 0,
                                                   arbDeb := fld (pw pl 1) 31 16, selfInt := fld (pw pl 1) 15 0,
                                                   echoTo := fld (pw pl 2) 31 16, healthInt := fld (pw pl 2) 15 0,
                                                   verdictPort := fld (pw pl 3) 15 0 } } ∧ (bit (pw pl 0) 28 = true → t.net.vseq = 0)) ∧
  (∀ (s : State) (mb : Fin 8) (tag : Word) (pl : List Word),
    s.takes Machine.netAddrSet mb tag pl = true →
    Answers (.netAddrSet mb tag pl) s mb tag DONE [.cfg, .net] fun _ t => t.cfg =
      { s.hub.cfg with net := { s.hub.cfg.net with ipv6En := bit (pw pl 0) 31, echoV6 := bit (pw pl 0) 30, prefix4 := fld (pw pl 0) 5 0,
                                                   ipv4 := pw pl 1, gateway4 := pw pl 2, ipv6 := (pl.drop 3).take 4,
                                                   echoAddr := (pl.drop 7).take 4 } }) ∧
  (∀ (s : State) (mb : Fin 8) (tag : Word) (pl : List Word),
    s.takes Machine.netVerdict mb tag pl = true → s.hub.cfg.net.arbMode = 0 → (s.hub.portCfg (fld (pw pl 0) 0 0)).enable = true →
      s.hub.verdictWaits (fld (pw pl 0) 0 0) = false →
    Answers (.netVerdict mb tag pl) s mb tag DONE [] fun _ t => t.net = s.hub.net) ∧
  (∀ (s : State) (mb : Fin 8) (tag : Word) (pl : List Word),
    s.takes Machine.netVerdict mb tag pl = true → s.hub.clk.held = false → s.hub.verdictWaits (fld (pw pl 0) 0 0) = true →
      s.hub.net.failover.isSome = true → s.hub.net.verdict = none →
    Accepts (.netVerdict mb tag pl) s mb tag [.net] fun hd t => t.net = { s.hub.net with verdict := some (fld (pw pl 0) 0 0, 0, some hd) }) ∧
  (∀ (s : State) (mb : Fin 8) (tag : Word) (pl : List Word),
    s.takes Machine.netVerdict mb tag pl = true → s.hub.clk.held = false → s.hub.verdictWaits (fld (pw pl 0) 0 0) = true →
      s.hub.net.failover = none →
    Accepts (.netVerdict mb tag pl) s mb tag [.net, .tb, .tiu, .evt, .jrn, .sto] fun hd t => ∃ f, t.net.failover = some f ∧
      f.dest = fld (pw pl 0) 0 0 ∧ f.source = 0 ∧ f.handle = some hd ∧ t.net.failovers = sat32 (s.hub.net.failovers + 1)) ∧
  (∀ (s : State) (mb : Fin 8) (tag : Word) (pl : List Word),
    s.takes Machine.netPathStatus mb tag pl = true →
    Answers (.netPathStatus mb tag pl) s mb tag DONE [] fun ws _ => ws.length = 11 ∧ ws.getD 2 0 = wd s.hub.net.vseq ∧
      (ws.drop 3).take 4 = [wd s.hub.net.failovers, wd s.hub.net.ignored, wd s.hub.net.rejects, wd s.hub.net.suspects])

/-- Time-interval commands (R293, R294, R295, R296, R297, R298). -/
def Obligations.TimeIntervalCommands : Prop :=
  (∀ (s : State) (mb : Fin 8) (tag : Word) (pl : List Word),
    s.takes Machine.tiuInputSet mb tag pl = true →
    Answers (.tiuInputSet mb tag pl) s mb tag DONE [.cfg, .flt, .tiu] fun _ t => t.cfg =
      { s.hub.cfg with tiu := { s.hub.cfg.tiu with inputs := s.hub.cfg.tiu.inputs.put (fld (pw pl 0) 2 0) { mode := fld (pw pl 0) 31 29,
                                                                                                            edge := fld (pw pl 0) 28 27,
                                                                                                            presc := fld (pw pl 0) 26 24,
                                                                                                            rq := fld (pw pl 0) 19 16,
                                                                                                            land := bit (pw pl 0) 15,
                                                                                                            dly := signed 32 (pw pl 1).toNat,
                                                                                                            holdoff := (pw pl 2).toNat } } }) ∧
  (∀ (s : State) (mb : Fin 8) (tag : Word) (pl : List Word),
    s.takes Machine.tiuIntervalSet mb tag pl = true →
    Answers (.tiuIntervalSet mb tag pl) s mb tag DONE [.cfg, .tiu] fun _ t => t.cfg =
      { s.hub.cfg with tiu := { s.hub.cfg.tiu with units := s.hub.cfg.tiu.units.put (fld (pw pl 0) 2 0) { enable := bit (pw pl 0) 31,
                                                                                                          land := bit (pw pl 0) 30,
                                                                                                          startIn := fld (pw pl 0) 26 24,
                                                                                                          startEdge := bit (pw pl 0) 23,
                                                                                                          stopIn := fld (pw pl 0) 22 20,
                                                                                                          stopEdge := bit (pw pl 0) 19,
                                                                                                          rq := fld (pw pl 0) 18 16,
                                                                                                          winMin := (pw pl 1).toNat,
                                                                                                          winMax := (pw pl 2).toNat } } }) ∧
  (∀ (s : State) (mb : Fin 8) (tag : Word) (pl : List Word),
    s.takes Machine.tiuFreq mb tag pl = true →
    Accepts (.tiuFreq mb tag pl) s mb tag [.tiu] fun hd t => ∃ g, t.tiu.gates = s.hub.tiu.gates ++ [g] ∧ g.input = fld (pw pl 0) 2 0 ∧
      g.handle = hd ∧ g.land = bit (pw pl 0) 15 ∧ g.ms = (pw pl 1).toNat ∧ g.points = []) ∧
  (∀ (s : State) (mb : Fin 8) (tag : Word) (pl : List Word),
    s.takes Machine.tiuRead mb tag pl = true →
    Answers (.tiuRead mb tag pl) s mb tag DONE [.tiu] fun ws t => ws = wd (((s.hub.tiu.queues.get (fld (pw pl 0) 2 0)).entries.take
      15).length + (s.hub.tiu.queues.get (fld (pw pl 0) 2 0)).lost * 65536) :: ((s.hub.tiu.queues.get (fld (pw pl 0) 2 0)).entries.take
      15).flatten ∧ (t.tiu.queues.get (fld (pw pl 0) 2 0)).lost = 0 ∧ (t.tiu.queues.get (fld (pw pl 0) 2 0)).entries = (s.hub.tiu.queues.get
      (fld (pw pl 0) 2 0)).entries.drop 15) ∧
  (∀ (s : State) (mb : Fin 8) (tag : Word) (pl : List Word),
    s.takes Machine.tiuStatus mb tag pl = true →
    Answers (.tiuStatus mb tag pl) s mb tag DONE [.tiu] fun ws t => ws.length = 9 ∧ (bit (pw pl 0) 8 = false →
      ws.drop 1 = (List.range 8).map fun k => wd (s.hub.tiu.counts.get (16 * fld (pw pl 0) 2 0 + k))) ∧ (bit (pw pl 0) 9 = false →
      t.tiu.counts = s.hub.tiu.counts)) ∧
  (∀ (s : State) (mb : Fin 8) (tag : Word) (pl : List Word),
    s.takes Machine.tiuCalSet mb tag pl = true →
    Answers (.tiuCalSet mb tag pl) s mb tag DONE [.cfg] fun _ t => t.cfg =
      { s.hub.cfg with tiu := { s.hub.cfg.tiu with calInt := fld (pw pl 0) 11 0 } })

/-- Journal, delivery and live-queue commands (R340, R341, R342, R343, R344, R345, R346, R347). -/
def Obligations.JournalCommands : Prop :=
  (∀ (s : State) (mb : Fin 8) (tag : Word) (pl : List Word),
    s.takes Machine.chgSet mb tag pl = true →
    Answers (.chgSet mb tag pl) s mb tag DONE [.cfg, .jrn] fun _ t => t.cfg =
      { s.hub.cfg with jrn := { s.hub.cfg.jrn with groups := s.hub.cfg.jrn.groups.put (fld (pw pl 0) 5 0) { thin := bit (pw pl 0) 31,
                                                                                                            uDrop := bit (pw pl 0) 30,
                                                                                                            lateWait := fld (pw pl 0) 29 26,
                                                                                                            recordMs := fld (pw pl 0) 25 16,
                                                                                                            chans := pwChans (pl.drop 1) (fld (pw pl 0) 13 7) } } }) ∧
  (∀ (s : State) (mb : Fin 8) (tag : Word) (pl : List Word),
    s.takes Machine.chgRun mb tag pl = true →
    Answers (.chgRun mb tag pl) s mb tag DONE [.jrn] fun ws t => (∀ g : Nat, g < 64 → (mask64 (pw pl 0) (pw pl 1)).testBit g = true →
      (t.chg g).startReq = true ∧ (t.chg g).stopReq = false) ∧ (∀ g : Nat, g < 64 → (mask64 (pw pl 2) (pw pl 3)).testBit g = true →
      (t.chg g).stopReq = true ∧ (t.chg g).startReq = false) ∧ ws = tWords s.hub.nextStrobe.1 ++ [wd s.hub.nextStrobe.2]) ∧
  (∀ (s : State) (mb : Fin 8) (tag : Word) (pl : List Word),
    s.takes Machine.consumerSet mb tag pl = true →
    Answers (.consumerSet mb tag pl) s mb tag DONE [.cfg, .jrn, .evt, .sto, .free, .flt, .sl] fun _ t => (t.cfg.jrn.consumers.get (fld (pw
      pl 0) 1 0)).enable = bit (pw pl 0) 31 ∧ (t.cfg.jrn.consumers.get (fld (pw pl 0) 1 0)).required = bit (pw pl 0) 30 ∧
      (t.cfg.jrn.consumers.get (fld (pw pl 0) 1 0)).typeMask = fld (pw pl 0) 24 16 ∧ (t.cfg.jrn.consumers.get (fld (pw pl 0) 1 0)).groupMask
      = mask64 (pw pl 1) (pw pl 2) ∧ (s.hub.isMaster = true → (t.cons 2).enable = false ∧ (t.cons 2).required = false)) ∧
  (∀ (s : State) (mb : Fin 8) (tag : Word) (pl : List Word),
    s.takes Machine.journalSet mb tag pl = true →
    Answers (.journalSet mb tag pl) s mb tag DONE [.cfg, .jrn, .evt] fun _ t => t.cfg =
      { s.hub.cfg with jrn := { s.hub.cfg.jrn with hwPct := fld (pw pl 0) 31 24, resumePages := fld (pw pl 0) 15 0,
                                                   floor := (pw pl 1).toNat, versionCompat := bit (pw pl 2) 8,
                                                   retireCe := fld (pw pl 2) 7 0 } }) ∧
  (∀ (s : State) (mb : Fin 8) (tag : Word) (pl : List Word),
    s.takes Machine.journalStatus mb tag pl = true →
    Answers (.journalStatus mb tag pl) s mb tag DONE [] fun ws _ => ws.length = 12 ∧ ws.take 3 = [wd s.hub.capacity, wd s.hub.jFree, wd
      s.hub.retiredPages.length] ∧ (ws.drop 5).take 2 = [lo32 s.hub.jrn.nextTicket, hi32 s.hub.jrn.nextTicket]) ∧
  (∀ (s : State) (mb : Fin 8) (tag : Word) (pl : List Word),
    s.takes Machine.ferryKeySet mb tag pl = true →
    Answers (.ferryKeySet mb tag pl) s mb tag DONE [.sto, .jrn, .free] fun _ t => (t.sto.ferryKeys.get (fld (pw pl 0) 8 8)).key = pl.drop 1
      ∧ (t.sto.ferryKeys.get (fld (pw pl 0) 8 8)).id = fld (pw pl 0) 23 16 ∧ (bit (pw pl 0) 9 = true →
      (t.sto.ferryKeys.get (fld (pw pl 0) 8 8)).active = true ∧ (t.sto.ferryKeys.get (1 - fld (pw pl 0) 8 8)).active = false)) ∧
  (∀ (s : State) (mb : Fin 8) (tag : Word) (pl : List Word),
    s.takes Machine.liveSet mb tag pl = true →
    Answers (.liveSet mb tag pl) s mb tag DONE [.cfg, .jrn] fun _ t => t.cfg =
      { s.hub.cfg with jrn := { s.hub.cfg.jrn with live := s.hub.cfg.jrn.live.put (fld (pw pl 0) 29 24) { enable := bit (pw pl 0) 31,
                                                                                                          pepper := bit (pw pl 0) 30,
                                                                                                          queue := fld (pw pl 0) 23 20,
                                                                                                          ch := fld (pw pl 0) 9 0,
                                                                                                          batch := fld (pw pl 1) 23 16,
                                                                                                          decim := fld (pw pl 1) 15 0 } } }) ∧
  (∀ (s : State) (mb : Fin 8) (tag : Word) (pl : List Word),
    s.takes Machine.chanDescSet mb tag pl = true →
    Answers (.chanDescSet mb tag pl) s mb tag DONE [.cfg, .jrn] fun _ t => t.cfg =
      { s.hub.cfg with jrn := { s.hub.cfg.jrn with desc := s.hub.cfg.jrn.desc.put (fld (pw pl 0) 9 0) { fullScale := BitVec.ofNat 64 (mask64 (pw pl 1) (pw pl 2)),
                                                                                                        units := pl.drop 3 } } } ∧
      t.jrn =
      { s.hub.jrn with descReq := s.hub.jrn.descReq ++ [(fld (pw pl 0) 9 0, s.hub.tb.strobes, { fullScale := BitVec.ofNat 64 (mask64 (pw pl 1) (pw pl 2)),
                                                                                                units := pl.drop 3 })] })

/-- Codec commands (R372, R373, R374, R375, R376, R377). -/
def Obligations.CodecCommands : Prop :=
  (∀ (s : State) (mb : Fin 8) (tag : Word) (pl : List Word),
    s.takes Machine.codecSet mb tag pl = true →
    Answers (.codecSet mb tag pl) s mb tag DONE [.cfg, .cod] fun _ t => t.cfg =
      { s.hub.cfg with cod := { s.hub.cfg.cod with streams := s.hub.cfg.cod.streams.put (fld (pw pl 0) 6 0) { level := fld (pw pl 0) 26 24,
                                                                                                              kInit := fld (pw pl 0) 20 16,
                                                                                                              order := fld (pw pl 0) 15 14,
                                                                                                              blockBytes := fld (pw pl 1) 31 16,
                                                                                                              demoteUs := fld (pw pl 1) 15 0,
                                                                                                              promoteMs := fld (pw pl 2) 31 16 } } }
      ∧ ((t.stream (fld (pw pl 0) 6 0)).window = true ↔ fld (pw pl 0) 26 24 ≠ 0)) ∧
  (∀ (s : State) (mb : Fin 8) (tag : Word) (pl : List Word),
    s.takes Machine.codecChanSet mb tag pl = true →
    Answers (.codecChanSet mb tag pl) s mb tag DONE [.cfg] fun _ t => t.cfg =
      { s.hub.cfg with cod := { s.hub.cfg.cod with chans := s.hub.cfg.cod.chans.put (fld (pw pl 0) 9 0) (some { order := fld (pw pl 0) 25 24,
                                                                                                                beta := fld (pw pl 0) 23 16,
                                                                                                                kInit := fld (pw pl 0) 15 11,
                                                                                                                nb := if bit (pw pl 0) 10 then some (fld (pw pl 1) 9 0) else none }) } }) ∧
  (∀ (s : State) (mb : Fin 8) (tag : Word) (pl : List Word),
    s.takes Machine.codecStatus mb tag pl = true →
    Answers (.codecStatus mb tag pl) s mb tag DONE [.cod] fun ws t => (ws.drop 2).take 5 = (List.range 5).map (fun k => wd ((s.hub.stream
      (fld (pw pl 0) 6 0)).counts.get k)) ∧ (ws.drop 7).take 2 = [lo32 (s.hub.stream (fld (pw pl 0) 6 0)).values, hi32 (s.hub.stream (fld
      (pw pl 0) 6 0)).values] ∧ (bit (pw pl 0) 8 = true → (t.stream (fld (pw pl 0) 6 0)).counts = [] ∧
      (t.stream (fld (pw pl 0) 6 0)).values = 0)) ∧
  (∀ (s : State) (mb : Fin 8) (tag : Word) (pl : List Word),
    s.takes Machine.codecStateSave mb tag pl = true →
    Accepts (.codecStateSave mb tag pl) s mb tag [.cod] fun hd t => (t.stream (fld (pw pl 0) 6 0)).saves = (s.hub.stream (fld (pw pl 0) 6
      0)).saves ++ [(hd, fld (pw pl 0) 9 8)] ∧ t.cod.save = s.hub.cod.save) ∧
  (∀ (s : State) (mb : Fin 8) (tag : Word) (pl : List Word),
    s.takes Machine.codecStateRead mb tag pl = true →
    Answers (.codecStateRead mb tag pl) s mb tag DONE [] fun ws _ => ws = s.hub.cod.save.gets (1024 * fld (pw pl 0) 1 0 + fld (pw pl 0) 17
      8) (fld (pw pl 0) 31 24)) ∧
  (∀ (s : State) (mb : Fin 8) (tag : Word) (pl : List Word),
    s.takes Machine.codecStateWrite mb tag pl = true →
    Answers (.codecStateWrite mb tag pl) s mb tag DONE [.cod] fun _ t => t.cod =
      { s.hub.cod with save := s.hub.cod.save.puts (1024 * fld (pw pl 0) 1 0 + fld (pw pl 0) 17 8) (pl.drop 1) }) ∧
  (∀ (s : State) (mb : Fin 8) (tag : Word) (pl : List Word),
    s.takes Machine.codecCheck mb tag pl = true →
    Accepts (.codecCheck mb tag pl) s mb tag [.cod] fun hd t => t.cod = { s.hub.cod with checks := s.hub.cod.checks ++ [{ handle := hd,
                                                                                                                          slot := if bit (pw pl 0) 31 then some (fld (pw pl 0) 1 0) else none,
                                                                                                                          entry := fld (pw pl 0) 23 16,
                                                                                                                          ticket := mask64 (pw pl 1) (pw pl 2),
                                                                                                                          startSeq := fld (pw pl 3) 15 0 }] })

/-- Sensor lane commands (R409, R410, R411, R412, R413, R414). -/
def Obligations.SensorLaneCommands : Prop :=
  (∀ (s : State) (mb : Fin 8) (tag : Word) (pl : List Word),
    s.takes Machine.slLaneSet mb tag pl = true →
    Answers (.slLaneSet mb tag pl) s mb tag DONE [.cfg, .sl, .casc, .tiu] fun _ t => t.cfg =
      { s.hub.cfg with lanes := s.hub.cfg.lanes.put (fld (pw pl 0) 3 0) { enable := bit (pw pl 0) 31, swing := fld (pw pl 0) 30 28,
                                                                          quarN := fld (pw pl 0) 23 20, nakMax := fld (pw pl 0) 19 12,
                                                                          serial := mask64 (pw pl 1) (pw pl 2),
                                                                          asym := signed 32 (pw pl 3).toNat,
                                                                          probeInt := fld (pw pl 4) 31 16, jump := fld (pw pl 4) 15 0,
                                                                          quarWin := fld (pw pl 5) 31 16, violWin := fld (pw pl 5) 15 0 } }
      ∧ (bit (pw pl 0) 31 = false → (t.lane (fld (pw pl 0) 3 0)).st = if (s.hub.lane (fld (pw pl 0) 3 0)).st = .quarantined then
      .quarantined else .disabled) ∧ (bit (pw pl 0) 31 = true → (s.hub.lane (fld (pw pl 0) 3 0)).st = .disabled →
      (t.lane (fld (pw pl 0) 3 0)).st = .training)) ∧
  (∀ (s : State) (mb : Fin 8) (tag : Word) (pl : List Word),
    s.takes Machine.slSlotSet mb tag pl = true →
    Accepts (.slSlotSet mb tag pl) s mb tag [.sl] fun hd t => (t.lane (fld (pw pl 0) 11 8)).slotReqs = (s.hub.lane (fld (pw pl 0) 11
      8)).slotReqs ++ [{ slot := fld (pw pl 0) 4 0, handle := hd, rate := (pw pl 1).toNat, enable := bit (pw pl 0) 31,
                         since := s.hub.xoCycles }]) ∧
  (∀ (s : State) (mb : Fin 8) (tag : Word) (pl : List Word),
    s.takes Machine.slKeySet mb tag pl = true →
    Answers (.slKeySet mb tag pl) s mb tag DONE [.sto] fun _ t => (t.sto.laneKeys.get (fld (pw pl 0) 8 8)).key = pl.drop 1 ∧
      (bit (pw pl 0) 9 = true → (t.sto.laneKeys.get (fld (pw pl 0) 8 8)).active = true ∧ (t.sto.laneKeys.get (1 - fld (pw pl 0) 8 8)).active
      = false) ∧ t.sto = { s.hub.sto with laneKeys := t.sto.laneKeys }) ∧
  (∀ (s : State) (mb : Fin 8) (tag : Word) (pl : List Word),
    s.takes Machine.slReset mb tag pl = true →
    Accepts (.slReset mb tag pl) s mb tag [.sl, .casc, .flt, .tiu] fun hd t => (hd, s.hub.xoCycles) ∈ (t.lane (fld (pw pl 0) 3 0)).reset ∧
      ((s.hub.lane (fld (pw pl 0) 3 0)).st = .up → (t.lane (fld (pw pl 0) 3 0)).st = .training)) ∧
  (∀ (s : State) (mb : Fin 8) (tag : Word) (pl : List Word),
    s.takes Machine.slQuarRelease mb tag pl = true →
    Answers (.slQuarRelease mb tag pl) s mb tag DONE [.sl, .casc, .tiu] fun _ t => ∀ n : Nat, n < 16 → bit (pw pl 0) n = true →
      if (s.hub.laneCfg n).enable then (t.lane n).st = .training ∧ (t.lane n).step = 1 else (t.lane n).st = .disabled) ∧
  (∀ (s : State) (mb : Fin 8) (tag : Word) (pl : List Word),
    s.takes Machine.slStatus mb tag pl = true →
    Answers (.slStatus mb tag pl) s mb tag DONE [.sl] fun ws t => ws.length = 19 ∧ (ws.drop 1).take 2 = [lo32 (s.hub.lane (fld (pw pl 0) 3
      0)).serial, hi32 (s.hub.lane (fld (pw pl 0) 3 0)).serial] ∧ ws.drop 8 = (List.range 11).map (fun k => wd ((s.hub.lane (fld (pw pl 0) 3
      0)).counts.get k)) ∧ (bit (pw pl 0) 8 = true → (t.lane (fld (pw pl 0) 3 0)).counts = []))

/-- Cascade commands (R435, R436, R437, R438, R439). -/
def Obligations.CascadeCommands : Prop :=
  (∀ (s : State) (mb : Fin 8) (tag : Word) (pl : List Word),
    s.takes Machine.cascSet mb tag pl = true →
    Answers (.cascSet mb tag pl) s mb tag DONE [.cfg, .casc, .jrn] fun _ t => t.cfg =
      { s.hub.cfg with casc := { s.hub.cfg.casc with relayReq := fld (pw pl 0) 26 24, relayCons := fld (pw pl 0) 18 16,
                                                     ctLat := fld (pw pl 0) 15 0 } }) ∧
  (∀ (s : State) (mb : Fin 8) (tag : Word) (pl : List Word),
    s.takes Machine.cascPortSet mb tag pl = true →
    Answers (.cascPortSet mb tag pl) s mb tag DONE [.cfg, .casc, .jrn, .tb, .evt, .sto, .tiu, .sl] fun _ t => t.cfg =
      { s.hub.cfg with casc := { s.hub.cfg.casc with ports := s.hub.cfg.casc.ports.put (fld (pw pl 0) 0 0) { enable := bit (pw pl 0) 31,
                                                                                                             swing := fld (pw pl 0) 30 28,
                                                                                                             quarN := fld (pw pl 0) 23 20,
                                                                                                             nakMax := fld (pw pl 0) 19 12,
                                                                                                             asym := signed 32 (pw pl 1).toNat,
                                                                                                             asymUnc := fld (pw pl 2) 31 16,
                                                                                                             probeInt := fld (pw pl 2) 15 0,
                                                                                                             quarWin := fld (pw pl 3) 31 16,
                                                                                                             violWin := fld (pw pl 3) 15 0,
                                                                                                             jump := fld (pw pl 4) 15 0 } } }
      ∧ (bit (pw pl 0) 31 = false → (t.cPort (fld (pw pl 0) 0 0)).st = if (s.hub.cPort (fld (pw pl 0) 0 0)).st = .quarantined then
      .quarantined else .disabled)) ∧
  (∀ (s : State) (mb : Fin 8) (tag : Word) (pl : List Word),
    s.takes Machine.cascLinkReset mb tag pl = true →
    Accepts (.cascLinkReset mb tag pl) s mb tag [.casc, .tb, .evt, .jrn, .sto, .tiu, .sl] fun hd t => (hd, s.hub.xoCycles) ∈ (t.cPort (fld
      (pw pl 0) 0 0)).reset ∧ (t.cPort (fld (pw pl 0) 0 0)).partnerSerial = 0) ∧
  (∀ (s : State) (mb : Fin 8) (tag : Word) (pl : List Word),
    s.takes Machine.cascQuarRelease mb tag pl = true →
    Answers (.cascQuarRelease mb tag pl) s mb tag DONE [.casc, .tb, .evt, .jrn, .sto, .tiu, .sl] fun _ t => ∀ n : Nat, n < 2 →
      bit (pw pl 0) n = true → if (s.hub.cPortCfg n).enable then (t.cPort n).st = .training ∧
      (t.cPort n).step = 1 else (t.cPort n).st = .disabled) ∧
  (∀ (s : State) (mb : Fin 8) (tag : Word) (pl : List Word),
    s.takes Machine.cascStatus mb tag pl = true →
    Answers (.cascStatus mb tag pl) s mb tag DONE [.casc] fun ws t => ws.length = 19 ∧ (ws.drop 2).take 2 = [lo32 (s.hub.cPort (fld (pw pl
      0) 0 0)).partnerSerial, hi32 (s.hub.cPort (fld (pw pl 0) 0 0)).partnerSerial] ∧ (ws.drop 7).take 10 = (List.range 10).map (fun k => wd
      ((s.hub.cPort (fld (pw pl 0) 0 0)).counts.get k)) ∧ (bit (pw pl 0) 8 = true → (t.cPort (fld (pw pl 0) 0 0)).counts = []))

/-- Security, firmware and self-test commands (R558, R559, R560, R561, R562, R563, R564, R565, R566). -/
def Obligations.SecurityCommands : Prop :=
  (∀ (s : State) (mb : Fin 8) (tag : Word) (pl : List Word),
    s.takes Machine.secStatus mb tag pl = true →
    Answers (.secStatus mb tag pl) s mb tag DONE [] fun ws _ => ws.drop 1 = [wd s.hub.sto.otp.rollback, wd s.hub.sto.jtagFails]) ∧
  (∀ (s : State) (mb : Fin 8) (tag : Word) (pl : List Word),
    s.takes Machine.secJtagChallenge mb tag pl = true →
    Answers (.secJtagChallenge mb tag pl) s mb tag DONE [.sto, .free] fun ws t => t.sto =
      { s.hub.sto with nonce := some (Config.random s.hub.free, s.hub.xoCycles) } ∧ ws = wordsOf 4 (Config.random s.hub.free) ++ [lo32
      Config.serial.toNat, hi32 Config.serial.toNat] ∧ t.free = s.hub.free + 1) ∧
  (∀ (s : State) (mb : Fin 8) (tag : Word) (pl : List Word),
    s.takes Machine.secJtagUnlock mb tag pl = true →
    ∃ t ws, exec (.secJtagUnlock mb tag pl) s = .next t ∧ t.pending = s.pending ∧ t.hub.response mb.val (if s.hub.jtagState ≠ 3 ∧
      s.hub.sto.jtagFails < 3 ∧ s.hub.jtagMac = some (bytesOf pl) then DONE else NOT_PERMITTED) 0 tag ws ∧
      (t.hub.sto = if s.hub.jtagState ≠ 3 ∧ s.hub.sto.jtagFails < 3 ∧
      s.hub.jtagMac = some (bytesOf pl) then { s.hub.sto with unlocked := true } else
      { s.hub.sto with jtagFails := s.hub.sto.jtagFails + 1 }) ∧ s.hub.onlyIn [.host, .sys, .clk, .tx, .sto, .evt] t.hub) ∧
  (∀ (s : State) (mb : Fin 8) (tag : Word) (pl : List Word),
    s.takes Machine.secOtpProgram mb tag pl = true → pw pl 1 = 0x0A5C0E04 → s.hub.sto.otp.refuses (fld (pw pl 0) 2 0) (pl.drop 2) = false →
    Accepts (.secOtpProgram mb tag pl) s mb tag [.sto] fun hd t => t.sto =
      { s.hub.sto with otpJobs := s.hub.sto.otpJobs ++ [.field (fld (pw pl 0) 2 0) (pl.drop 2) hd] }) ∧
  (∀ (s : State) (mb : Fin 8) (tag : Word) (pl : List Word),
    s.takes Machine.fwWrite mb tag pl = true →
    Answers (.fwWrite mb tag pl) s mb tag DONE [.sto] fun _ t => t.sto =
      { s.hub.sto with fwStage := s.hub.sto.fwStage.puts (pw pl 1).toNat (pl.drop 2) }) ∧
  (∀ (s : State) (mb : Fin 8) (tag : Word) (pl : List Word),
    s.takes Machine.fwVerify mb tag pl = true →
    Accepts (.fwVerify mb tag pl) s mb tag [.sto, .evt, .host] fun hd t => (s.hub.verifyReason = 0 →
      t.sto.jobs = s.hub.sto.jobs ++ [.image (if s.hub.sys.recovery then bit (pw pl 0) 0 else !s.hub.sys.slotB) s.hub.stageSlot hd]) ∧
      (s.hub.verifyReason ≠ 0 → t.sto = s.hub.sto ∧ (t.slotOf hd).all fun y => y.done && y.result.getD 0 0 == wd s.hub.verifyReason)) ∧
  (∀ (s : State) (mb : Fin 8) (tag : Word) (pl : List Word),
    s.takes Machine.fwSwitch mb tag pl = true →
    Accepts (.fwSwitch mb tag pl) s mb tag [.sto, .evt, .host, .sys] fun hd t => (fld (pw pl 0) 1 0 = 1 →
      t.sto.jobs = s.hub.sto.jobs ++ [.bootCtl 1 (if s.hub.sys.recovery then s.hub.sto.recVerified.getD false else s.hub.sys.slotB) 0 hd] ∧
      t.sys.pendingReset = s.hub.sys.pendingReset) ∧ (fld (pw pl 0) 1 0 = 0 → t.sys.pendingReset = some (.slotSwitch (!s.hub.sys.slotB)
      (some (pw pl 1).toNat))) ∧ (fld (pw pl 0) 1 0 = 2 → t.sys.pendingReset = some (.slotSwitch s.hub.sto.defaultB none))) ∧
  (∀ (s : State) (mb : Fin 8) (tag : Word) (pl : List Word),
    s.takes Machine.flashStatus mb tag pl = true →
    Answers (.flashStatus mb tag pl) s mb tag DONE [] fun ws _ => ws.length = 8 ∧ ws.getD 0 0 = wd (flag s.hub.sto.saveDisabled 0 +
      s.hub.sto.spares * 256 + flag s.hub.sto.slotA.valid 16 + flag s.hub.sto.slotB.valid 17 + flag s.hub.sto.defaultB 18)) ∧
  (∀ (s : State) (mb : Fin 8) (tag : Word) (pl : List Word),
    s.takes Machine.dramRetiredRead mb tag pl = true →
    Answers (.dramRetiredRead mb tag pl) s mb tag DONE [] fun ws _ => ws = wd s.hub.retiredPages.length :: ((s.hub.retiredPages.drop (fld
      (pw pl 0) 19 0)).take (fld (pw pl 0) 31 24)).map wd) ∧
  (∀ (s : State) (mb : Fin 8) (tag : Word) (pl : List Word),
    s.takes Machine.selftest mb tag pl = true →
    Accepts (.selftest mb tag pl) s mb tag [.sto] fun hd t => t.sto =
      { s.hub.sto with selftests := s.hub.sto.selftests ++ [(hd, fld (pw pl 0) 4 0)] })

/-- Mailbox writes of the host (R480, R481, R482). -/
def Obligations.HostMailboxRows : Prop :=
  (∀ (s : State) (mb : Fin 8) (i : Fin 128) (w : Word),
    s.hub.powered = true →
    Does (.mbCmdWrite mb i w) s [.host] fun t => s.hub.onlyMb mb (if (s.hub.host.mbs.get mb).state = .idle then
      { s.hub.host.mbs.get mb with cmd := (s.hub.host.mbs.get mb).cmd.put i w } else
      { s.hub.host.mbs.get mb with status := setBit (s.hub.host.mbs.get mb).status 2 }) t) ∧
  (∀ (s : State) (mb : Fin 8),
    s.hub.powered = true →
    Does (.mbDoorbellRing mb) s [.host] fun t => (∀ k : Nat, k ≠ mb.val → t.host.mbs.get k = s.hub.host.mbs.get k) ∧
      t.host.mbs.get mb = (if (s.hub.host.mbs.get mb).state = .idle then { s.hub.host.mbs.get mb with state := .posted } else
      { s.hub.host.mbs.get mb with status := setBit (s.hub.host.mbs.get mb).status 1 }) ∧ t.host = { s.hub.host with mbs := t.host.mbs,
                                                                                                                     posted := if (s.hub.host.mbs.get mb).state = .idle then s.hub.host.posted ++ [mb.val] else s.hub.host.posted }) ∧
  (∀ (s : State) (mb : Fin 8),
    s.hub.powered = true → s.hub.sys.pendingMb ≠ mb.val →
    Does (.mbRelease mb) s [.host] fun t => s.hub.onlyMb mb (if (s.hub.host.mbs.get mb).state = .ready then
      { s.hub.host.mbs.get mb with state := .idle } else s.hub.host.mbs.get mb) t) ∧
  (∀ (s : State) (m : Nat),
    s.hub.powered = true → s.hub.canTake = true → s.hub.nextPosted = some m → m < 8 →
      (s.hub.taken m).checkCmd (cmdOf (fld ((s.hub.host.mbs.get m).cmd.get 0) 15 0)) m ((s.hub.host.mbs.get m).cmd.get 0)
      ((s.hub.host.mbs.get m).cmd.get 1) ((s.hub.host.mbs.get m).cmd.get 2) ((s.hub.host.mbs.get m).cmd.get 3) ((s.hub.host.mbs.get
      m).cmd.gets 4 (min 124 (fld ((s.hub.host.mbs.get m).cmd.get 0) 31 24))) = none → fld ((s.hub.host.mbs.get m).cmd.get 0) 15 0 = 0x0101
      →
    Does (.mbCommandTake) s [.host, .sys, .clk, .tx] fun t => t.response m DONE 0 ((s.hub.host.mbs.get m).cmd.get 1) ((s.hub.host.mbs.get
      m).cmd.gets 4 (min 124 (fld ((s.hub.host.mbs.get m).cmd.get 0) 31 24))) ∧
      t.sys = { s.hub.sys with lastTag := s.hub.sys.lastTag.put m ((s.hub.host.mbs.get m).cmd.get 1) } ∧
      (t.host.mbs.get m).taken = ((s.hub.host.mbs.get m).taken + 1) % 256 ∧ m ∉ t.host.posted ∧ (∀ k : Nat, k ≠ m →
      t.host.mbs.get k = s.hub.host.mbs.get k) ∧ t.host.slots = s.hub.host.slots) ∧
  (∀ (s : State) (m : Nat) (st : Nat) (ws : List Word),
    s.hub.powered = true → s.hub.canTake = true → s.hub.nextPosted = some m → m < 8 →
      (s.hub.taken m).checkCmd (cmdOf (fld ((s.hub.host.mbs.get m).cmd.get 0) 15 0)) m ((s.hub.host.mbs.get m).cmd.get 0)
      ((s.hub.host.mbs.get m).cmd.get 1) ((s.hub.host.mbs.get m).cmd.get 2) ((s.hub.host.mbs.get m).cmd.get 3) ((s.hub.host.mbs.get
      m).cmd.gets 4 (min 124 (fld ((s.hub.host.mbs.get m).cmd.get 0) 31 24))) = some (st, ws) →
    Does (.mbCommandTake) s [.host, .clk, .tx] fun t => (ws.length ≤ 124 → t.response m st 0 ((s.hub.host.mbs.get m).cmd.get 1) ws) ∧
      (t.host.mbs.get m).taken = ((s.hub.host.mbs.get m).taken + 1) % 256 ∧ m ∉ t.host.posted ∧ (∀ k : Nat, k ≠ m →
      t.host.mbs.get k = s.hub.host.mbs.get k) ∧ t.host.slots = s.hub.host.slots) ∧
  (∀ (s : State),
    s.hub.powered = true → (s.hub.canTake = false ∨ s.hub.host.posted = []) →
    Does (.mbCommandTake) s [] fun _ => True)

/-- Completion queue reads, reset requests and time registers (R475, R489, R491, R242, R499). -/
def Obligations.HostQueueAndResetRows : Prop :=
  (∀ (s : State) (w : Word),
    s.hub.powered = true →
    Does (.cqRdWrite w) s [.host] fun t => (0 ≤ diff32 w.toNat s.hub.host.cqRd ∧ diff32 w.toNat s.hub.host.cqWr ≤ 0 →
      t.host.cqRd = w.toNat ∧ (∀ j : Nat, (j : Int) < diff32 w.toNat s.hub.host.cqRd → t.host.slots.get (fld (s.hub.host.cq.get (8 *
      ((s.hub.host.cqRd + j) % 256))) 11 0) =
      { (default : HSlot) with gen := (s.hub.host.slots.get (fld (s.hub.host.cq.get (8 * ((s.hub.host.cqRd + j) % 256))) 11 0)).gen }) ∧
      t.host = { s.hub.host with cqRd := t.host.cqRd, slots := t.host.slots }) ∧ (¬ (0 ≤ diff32 w.toNat s.hub.host.cqRd ∧
      diff32 w.toNat s.hub.host.cqWr ≤ 0) → t.host = { s.hub.host with cqStatus := setBit s.hub.host.cqStatus 1 })) ∧
  (∀ (s : State),
    s.hub.powered = true →
    Does (.resetCtrlControl) s [.sys, .host, .evt, .clk, .jrn, .sto, .tx] fun t => t.sto =
      { s.hub.sto with otpJobs := s.hub.sto.otpJobs.map OtpJob.unasked } ∧ t.sys.resetCause = setBit s.hub.sys.resetCause 4 ∧
      t.sys.fwReady = false ∧ t.sys.recovery = s.hub.sys.recovery ∧ t.sys.ctrlResets = sat32 (s.hub.sys.ctrlResets + 1) ∧
      (∀ m : Nat, m < 8 → (t.host.mbs.get m).state = .offline) ∧ t.host.posted = [] ∧ t.sys.straps = s.hub.sys.straps ∧
      t.sys.acq = s.hub.sys.acq) ∧
  (∀ (s : State),
    s.hub.powered = true →
    Does (.resetCtrlDatapath) s [.sys] fun t => t.sys =
      { s.hub.sys with acq := if s.hub.sys.acq = .running then .warmReset else s.hub.sys.acq }) ∧
  (∀ (s : State),
    s.hub.powered = true → s.hub.clk.held = false →
    Does (.snapCtrlSnap) s [.tb] fun t => t.tb = { s.hub.tb with snap := t.tb.snap } ∧ t.tb.snap.net = s.hub.netT ∧
      t.tb.snap.sample = s.hub.sampleT ∧ t.tb.snap.loc = s.hub.localT ∧ t.tb.snap.ref = s.hub.refT ∧ (s.hub.tb.epoch < 65536 →
      fld t.tb.snap.word 15 0 = s.hub.tb.epoch ∧ bit t.tb.snap.word 16 = s.hub.tb.qNet ∧ bit t.tb.snap.word 17 = s.hub.tb.refValid)) ∧
  (∀ (s : State) (n : Fin 8) (w : Word),
    s.hub.powered = true → s.hub.clk.held = false →
    Does (.cmpCtrlWrite n w) s [.tb] fun t => (∀ k : Nat, k ≠ n.val → t.tb.cmp.get k = s.hub.tb.cmp.get k) ∧
      t.tb = { s.hub.tb with cmp := t.tb.cmp } ∧ (bit (s.hub.tb.cmp.get n).ctrl 0 = true →
      t.tb.cmp.get n = { s.hub.tb.cmp.get n with ctrl := if bit w 0 then (s.hub.tb.cmp.get n).ctrl else w1c (s.hub.tb.cmp.get n).ctrl 1 }) ∧
      (bit (s.hub.tb.cmp.get n).ctrl 0 = false → (bit w 0 && fld w 3 2 == 1) = false →
      t.tb.cmp.get n = { s.hub.tb.cmp.get n with ctrl := w &&& 0xFFFF00ED, fresh := true })) ∧
  (∀ (s : State) (bank : Fin 4) (w : Word),
    s.hub.powered = true → s.hub.clk.held = false →
    Does (.evtEnableWrite bank w) s [.evt, .host, .tx] fun t => (∀ j : Nat, j < 32 → bit (t.evEnable bank) j = ((bit w j && (evClass (32 *
      bank.val + j)).isSome) || decide (bank.val = 0 ∧ j < 4))) ∧ t.evt = { s.hub.evt with enable := t.evt.enable } ∧
      (∀ k : Nat, k ≠ bank.val → t.evt.enable.get k = s.hub.evt.enable.get k))

/-- Ferry rings and live queues as the host drives them (R10, R323, R326, R327, R337, R338). -/
def Obligations.HostRingAndLiveRows : Prop :=
  (∀ (s : State) (c : Fin 4) (origin : Fin 16) (lo : Word) (hi : Word),
    s.hub.powered = true → s.hub.clk.held = false → (c.val = 0 ∨ c.val = 3) → origin.val = s.hub.sys.straps.hubId →
      mask64 lo hi + 1 > ((s.hub.jrn.consumers.get c).ackTo.get origin) → ((s.hub.jrn.consumers.get c).offered.get origin) < mask64 lo hi +
      1 →
    Does (.ferryAckWrite c origin lo hi) s [.jrn, .evt, .host, .sto, .flt, .sl, .tx] fun t => (t.jrn.consumers.get c).status = setBit
      (s.hub.jrn.consumers.get c).status 2 ∧ (t.jrn.consumers.get c).ackTo = (s.hub.jrn.consumers.get c).ackTo ∧
      t.jrn.pages = s.hub.jrn.pages ∧ t.jrn.recs = s.hub.jrn.recs) ∧
  (∀ (s : State) (c : Fin 4) (origin : Fin 16) (lo : Word) (hi : Word),
    s.hub.powered = true → s.hub.clk.held = false → (c.val = 0 ∨ c.val = 3) → origin.val = s.hub.sys.straps.hubId →
      mask64 lo hi + 1 > ((s.hub.jrn.consumers.get c).ackTo.get origin) → mask64 lo hi + 1 ≤ ((s.hub.jrn.consumers.get c).offered.get
      origin) →
    Does (.ferryAckWrite c origin lo hi) s [.jrn, .evt, .host, .sto, .flt, .sl, .tx] fun t => (t.jrn.consumers.get c).ackTo.get origin =
      mask64 lo hi + 1) ∧
  (∀ (s : State) (c : Fin 4) (origin : Fin 16) (lo : Word) (hi : Word),
    s.hub.powered = true → (c.val = 1 ∨ c.val = 2) → s.hub.clk.held = false →
    Does (.ferryAckWrite c origin lo hi) s [] fun _ => True) ∧
  (∀ (s : State) (c : Fin 4) (w : Word),
    s.hub.powered = true → s.hub.clk.held = false →
    Does (.ferryCtrlWrite c w) s [.jrn, .evt, .host, .tx] fun t => (t.jrn.consumers.get c).ctrl = w &&& 0x801F0FFF ∧ (∀ k : Nat, k ≠ c.val →
      t.jrn.consumers.get k = s.hub.jrn.consumers.get k) ∧ (bit w 31 = true → bit (s.hub.jrn.consumers.get c).ctrl 31 = false → (c.val = 0 ∨
      c.val = 3) → (t.jrn.consumers.get c).next = (s.hub.jrn.consumers.get c).ackTo ∧ (t.jrn.consumers.get c).buf = none) ∧
      (bit w 31 = false → t.jrn.consumers.get c = { s.hub.jrn.consumers.get c with ctrl := w &&& 0x801F0FFF })) ∧
  (∀ (s : State) (c : Fin 4) (w : Word) (descs : List (Nat × Nat)),
    s.hub.powered = true → s.hub.clk.held = false →
    Does (.ferryTailWrite c w descs) s [.jrn, .sys, .host, .tx] fun t => (t.jrn.consumers.get c).tail = fld w 15 0 ∧ (∀ k : Nat, k ≠ c.val →
      t.jrn.consumers.get k = s.hub.jrn.consumers.get k) ∧ ((s.hub.jrn.consumers.get c).stream = [] →
      (s.hub.jrn.consumers.get c).buf = none → t.jrn = { s.hub.jrn with consumers := t.jrn.consumers } ∧ t.tx = s.hub.tx)) ∧
  (∀ (s : State) (q : Fin 16),
    s.hub.powered = true → s.hub.clk.held = false →
    Does (.lqFlush q) s [.jrn] fun t => (t.jrn.live.get q).items = [] ∧ (t.jrn.live.get q).oldest = (s.hub.jrn.live.get q).wr ∧
      (t.jrn.live.get q).status = setBit (s.hub.jrn.live.get q).status 0 ∧ (t.jrn.live.get q).rd = (s.hub.jrn.live.get q).rd ∧
      (∀ k : Nat, k ≠ q.val → t.jrn.live.get k = s.hub.jrn.live.get k)) ∧
  (∀ (s : State) (r : Machine.BusRead) (q : Nat),
    s.hub.powered = true → q < 16 → r.addr = 0x18700C + 0x8000 * q → r.len = 4 → s.hub.clk.held = false →
    Does (.lqLostRead r) s [.jrn, .tx] fun t => t.tx = s.hub.tx ++ [.read r.addr (wd (s.hub.jrn.live.get q).lost)] ∧
      t.jrn.live.get q = { s.hub.jrn.live.get q with lost := 0 } ∧ (∀ k : Nat, k ≠ q → t.jrn.live.get k = s.hub.jrn.live.get k) ∧
      t.jrn = { s.hub.jrn with live := t.jrn.live }) ∧
  (∀ (s : State) (r : Machine.BusRead) (q : Nat),
    s.hub.powered = true → q < 16 → touchesLost r = true → r.addr < 0x187010 + 0x8000 * q → 0x18700C + 0x8000 * q < r.addr + r.len →
      s.hub.clk.held = false →
    Does (.lqLostRead r) s [.jrn, .tx] fun t => (t.jrn.live.get q).lost = 0)

/-- Register writes, SPI frames and the PCIe function (R8, R465, R466, R467, R469, R470, R472). -/
def Obligations.HostBusRows : Prop :=
  (∀ (s : State) (v : Fin 16),
    s.hub.powered = true →
    Does (.msixUnmask v) s [.host, .tx] fun t => t.host =
      { s.hub.host with msix := s.hub.host.msix.put v { s.hub.host.msix.get v with masked := false }, pba := t.host.pba } ∧
      (bit s.hub.host.pba v = true → s.hub.host.bme = true → s.hub.host.d3hot = false → bit t.host.pba v = false ∧
      (s.hub.vectorSet v = true → .msix v.val ∈ t.tx)) ∧ (s.hub.host.pba = 0 → t.tx = s.hub.tx ∧ t.host.pba = 0)) ∧
  (∀ (s : State) (addr : Nat) (bytes : List (Option Byte)) (b0 : Byte) (b1 : Byte) (b2 : Byte) (b3 : Byte),
    s.hub.powered = true → addr % 4 = 0 → bytes = [some b0, some b1, some b2, some b3] → 0x40000 ≤ addr → addr < 0x48000 →
      addr % 4096 < 0x200 →
    Does (.registerWrite addr bytes) s [.host] fun t => s.hub.onlyMb ((addr - 0x40000) / 4096) (if (s.hub.host.mbs.get ((addr - 0x40000) /
      4096)).state = .idle then
      { s.hub.host.mbs.get ((addr - 0x40000) / 4096) with cmd := (s.hub.host.mbs.get ((addr - 0x40000) / 4096)).cmd.put (addr % 4096 / 4) (wd (leNat [b0, b1, b2, b3])) }
      else { s.hub.host.mbs.get ((addr - 0x40000) / 4096) with status := setBit (s.hub.host.mbs.get ((addr - 0x40000) / 4096)).status 2 })
      t) ∧
  (∀ (s : State) (addr : Nat) (bytes : List (Option Byte)) (b0 : Byte) (b1 : Byte) (b2 : Byte) (b3 : Byte),
    s.hub.powered = true → addr = 0x14 → bytes = [some b0, some b1, some b2, some b3] →
    Does (.registerWrite addr bytes) s [.sys] fun t => t.sys =
      { s.hub.sys with resetCause := w1c s.hub.sys.resetCause (wd (leNat [b0, b1, b2, b3])) }) ∧
  (∀ (s : State) (addr : Nat) (bytes : List (Option Byte)) (b0 : Byte) (b1 : Byte) (b2 : Byte) (b3 : Byte) (pre : List (Option Byte)) (post
    : List (Option Byte)),
    s.hub.powered = true → bytes = pre ++ [some b0, some b1, some b2, some b3] ++ post → addr + pre.length = 0x14 → (∀ x ∈ pre, x = none) →
      (∀ x ∈ post, x = none) →
    Does (.registerWrite addr bytes) s [.sys] fun t => t.sys =
      { s.hub.sys with resetCause := w1c s.hub.sys.resetCause (wd (leNat [b0, b1, b2, b3])) }) ∧
  (∀ (s : State) (addr : Nat) (bytes : List (Option Byte)),
    s.hub.powered = true → (∀ w, w % 4 = 0 → wordEnabled addr bytes w ≠ none → w ∈ [0x00, 0x04, 0x08, 0x0C, 0x10, 0x1C]) →
    Does (.registerWrite addr bytes) s [] fun _ => True) ∧
  (∀ (s : State) (addr : BitVec 24) (ws : List Word) (part : Bool),
    s.hub.powered = true → s.hub.sys.straps.hostSel = true → addr.toNat % 4 = 0 → 0x40000 ≤ addr.toNat → addr.toNat < 0x48000 →
      addr.toNat % 4096 < 0x200 → ws.length = 1 → (s.hub.host.mbs.get ((addr.toNat - 0x40000) / 4096)).state = .idle →
    Does (.spiWriteFrame addr ws part) s [.sys, .host] fun t => t.sys.spiErr = (if part then setBit s.hub.sys.spiErr 1 else
      s.hub.sys.spiErr) ∧ (t.host.mbs.get ((addr.toNat - 0x40000) / 4096)).cmd.get (addr.toNat % 4096 / 4) = pw ws 0) ∧
  (∀ (s : State) (addr : BitVec 24) (ws : List Word) (part : Bool),
    s.hub.powered = true → s.hub.sys.straps.hostSel = true → addr.toNat % 4 ≠ 0 →
    Does (.spiWriteFrame addr ws part) s [.sys] fun t => t.sys =
      { s.hub.sys with spiErr := setBit (if part then setBit s.hub.sys.spiErr 1 else s.hub.sys.spiErr) 4 }) ∧
  (∀ (s : State) (addr : BitVec 24) (ws : List Word) (crc : Word) (part : Bool),
    s.hub.powered = true → s.hub.sys.straps.hostSel = true → addr.toNat % 4 = 0 → crc ≠ crc32c (leBytes 3 addr.toNat ++ bytesOf ws) →
    Does (.spiWriteCrcFrame addr ws crc part) s [.sys] fun t => t.sys = { s.hub.sys with spiErr := t.sys.spiErr } ∧
      bit t.sys.spiErr 0 = true) ∧
  (∀ (s : State) (addr : BitVec 24) (ws : List Word) (crc : Word) (part : Bool),
    s.hub.powered = true → s.hub.sys.straps.hostSel = true → addr.toNat % 4 = 0 → 0x40000 ≤ addr.toNat → addr.toNat < 0x48000 →
      addr.toNat % 4096 < 0x200 → ws.length = 1 → part = false → (s.hub.host.mbs.get ((addr.toNat - 0x40000) / 4096)).state = .idle →
      crc = crc32c (leBytes 3 addr.toNat ++ bytesOf ws) →
    Does (.spiWriteCrcFrame addr ws crc part) s [.sys, .host] fun t => t.sys = s.hub.sys ∧
      (t.host.mbs.get ((addr.toNat - 0x40000) / 4096)).cmd.get (addr.toNat % 4096 / 4) = pw ws 0) ∧
  (∀ (s : State) (addr : BitVec 24) (n : Nat) (crc : Bool) (part : Bool),
    s.hub.powered = true → s.hub.sys.straps.hostSel = true → addr.toNat = 0 → n = 1 → part = false →
    Does (.spiReadFrame addr n crc part) s [.tx] fun t => t.tx = s.hub.tx ++ [.spi [0x53A10640] (if crc then some (crc32c [0, 0, 0, 0x40,
      0x06, 0xA1, 0x53]) else none)]) ∧
  (∀ (s : State) (addr : BitVec 24) (n : Nat) (crc : Bool) (part : Bool),
    s.hub.powered = true → s.hub.sys.straps.hostSel = true → addr.toNat % 4 ≠ 0 →
    Does (.spiReadFrame addr n crc part) s [.sys, .tx] fun t => bit t.sys.spiErr 4 = true ∧ t.tx = s.hub.tx ++ [.spi (List.replicate n 0)
      (if crc then some 0 else none)]) ∧
  (∀ (s : State) (cause : Machine.LinkCause),
    s.hub.powered = true → s.hub.sys.straps.hostSel = false →
    Does (.hostLinkRestart cause) s [.sys, .host, .evt, .jrn, .sto, .tx] fun t => t.sto =
      { s.hub.sto with otpJobs := s.hub.sto.otpJobs.map OtpJob.unasked } ∧
      t.sys = { s.hub.sys with resetCause := setBit s.hub.sys.resetCause 7 } ∧ (∀ m : Nat, m < 8 →
      (t.host.mbs.get m).state = if (s.hub.host.mbs.get m).state = .offline then .offline else .idle) ∧ (∀ c : Nat, c = 0 ∨ c = 3 →
      bit (t.jrn.consumers.get c).ctrl 31 = false ∧ (t.jrn.consumers.get c).ackTo = (s.hub.jrn.consumers.get c).ackTo) ∧ t.host.msix = [] ∧
      t.host.pba = 0 ∧ t.host.slots = s.hub.host.slots ∧ t.host.cq = s.hub.host.cq ∧ t.host.cqWr = s.hub.host.cqWr ∧
      t.host.cqRd = s.hub.host.cqRd) ∧
  (∀ (s : State),
    s.hub.powered = true → s.hub.sys.straps.hostSel = false →
    Does (.pcieReady) s [.host] fun t => t.host = { s.hub.host with pcieReady := true }) ∧
  (∀ (s : State) (bme : Bool) (d0 : Bool),
    s.hub.powered = true → s.hub.sys.straps.hostSel = false → s.hub.host.pcieReady = true →
    Does (.pcieConfigurationWrite bme d0) s [.host, .tx] fun t => t.host = { s.hub.host with bme := bme, d3hot := s.hub.host.d3hot && !d0,
                                                                                             pba := t.host.pba } ∧ (bme = false →
      t.tx = s.hub.tx ∧ t.host.pba = s.hub.host.pba)) ∧
  (∀ (s : State) (bme : Bool) (d0 : Bool),
    s.hub.powered = true → (s.hub.sys.straps.hostSel = true ∨ s.hub.host.pcieReady = false) →
    Does (.pcieConfigurationWrite bme d0) s [] fun _ => True)

/-- Power-on reset, RESET_N and cold boot (R537, R539, R540, R541, R553). -/
def Obligations.ResetRows : Prop :=
  (∀ (s : State),
    Does (.powerOnReset) s [.cfg, .sys, .host, .evt, .clk, .tb, .jrn, .sto, .act, .fe, .flt, .cal, .trg, .cod, .tiu, .net, .sl, .casc] fun t
      => t.cfg = {} ∧ t.sys = {} ∧ t.sys.resetCause = 1 ∧ t.host = {} ∧ t.evt = {} ∧ t.clk = {} ∧ t.tb = {} ∧ t.jrn = {} ∧ t.act = {} ∧
      t.fe = {} ∧ t.flt = {} ∧ t.cal = {} ∧ t.trg = {} ∧ t.cod = {} ∧ t.tiu = {} ∧ t.net = {} ∧ t.sl = {} ∧ t.casc = {} ∧
      t.sto.otp = s.hub.sto.otp ∧ t.sto.saved = s.hub.sto.saved ∧ t.sto.slotA = s.hub.sto.slotA ∧ t.sto.slotB = s.hub.sto.slotB ∧
      t.sto.jobs = [] ∧ (∀ k : Nat, k < 16 → t.actPin k = .failSafe)) ∧
  (∀ (s : State),
    Does (.resetNAssert) s [.cfg, .sys, .host, .evt, .clk, .tb, .jrn, .sto, .act, .fe, .flt, .cal, .trg, .cod, .tiu, .net, .sl, .casc, .tx]
      fun t => t.sys.resetCause = 2 ∧ t.sys.straps = s.hub.sys.straps ∧ t.sys.fwReady = false ∧ t.sys.acq = .boot ∧ t.cfg = {} ∧
      t.host = {} ∧ t.clk = {} ∧ t.fe = {} ∧ t.trg = {} ∧ t.casc = { ports := s.hub.casc.ports.mapAll fun _ x => x.kept } ∧
      t.tb = { ({} : TbSt) with epoch := s.hub.tb.epoch } ∧ t.cal.lost = s.hub.cal.lost ∧ t.net.snap = s.hub.net.snap ∧
      t.net.vseq = s.hub.net.vseq ∧ t.sl.count = s.hub.sl.count ∧ (∀ k : Nat, k < 16 → t.actPin k = .failSafe) ∧ (s.hub.tb.started = false →
      t.sto = s.hub.sto.powerOff ∧ t.evt.log = s.hub.evt.log ∧ t.evt.logNext = s.hub.evt.logNext ∧ t.tx = s.hub.tx)) ∧
  (∀ (s : State) (b : Machine.BootIn),
    strapsOk b.straps = true → s.hub.sys.power = .reset → s.hub.sys.acq = .boot → s.hub.sto.bootOverride = false → b.straps.bootSel = 0 →
      s.hub.sto.defaultB = false → s.hub.sto.slotA.valid = true → s.hub.sto.otp.rollback ≤ s.hub.sto.slotA.secVer → b.okA = true →
    Does (.coldBoot b) s [.cfg, .sys, .host, .evt, .clk, .tb, .jrn, .sto, .act, .flt, .cal, .trg, .cod, .tiu, .net, .tx] fun t =>
      t.sys.power = .run ∧ t.sys.straps = b.straps ∧ t.sys.recovery = false ∧ t.sys.slotB = false ∧ t.sys.bootStep8 = true ∧
      t.sys.retentionLost = false ∧ t.sys.acq = .boot ∧ t.jrn.total = b.dram * 16 - 512 ∧ (b.xoOk = true → t.clk.rootLock = true) ∧
      (b.xoOk = false → t.clk.oscWait = true)) ∧
  (∀ (s : State) (b : Machine.BootIn),
    strapsOk b.straps = true → s.hub.sys.power = .reset → b.okA = false → b.okB = false →
    Does (.coldBoot b) s [.cfg, .sys, .host, .evt, .clk, .tb, .jrn, .sto, .act, .flt, .cal, .trg, .cod, .tiu, .net, .tx] fun t =>
      t.sys.straps = b.straps ∧ t.sys.power = .run ∧ t.sys.recovery = true ∧ t.sys.fwReady = false ∧ (t.host.mbs.get 7).state = .idle ∧
      (∀ m : Nat, m < 7 → (t.host.mbs.get m).state = .offline) ∧ t.clk.rootLock = (b.xoOk || s.hub.clk.rootLock) ∧
      t.evt.logWritten ≥ s.hub.evt.logWritten + 1 ∧ t.cfg = s.hub.cfg ∧ t.jrn = s.hub.jrn) ∧
  (∀ (s : State) (arbSel : Bool),
    s.hub.powered = true → s.hub.sys.bootStep8 = true → s.hub.clk.stopped = true →
    Does (.bootComplete arbSel) s [.cfg, .sys, .host, .evt, .tb, .jrn, .sto, .act, .fe, .flt, .cal, .trg, .cod, .tiu, .net, .sl, .casc, .tx,
      .free] fun t => t.sys.fwReady = true ∧ t.sys.bootStep8 = false ∧ t.sys.acq = .stopped ∧ (∀ m : Nat, m < 8 →
      (t.host.mbs.get m).state = .idle) ∧ t.cfg = s.hub.cfg) ∧
  (∀ (s : State) (arbSel : Bool),
    s.hub.powered = true → s.hub.sys.bootStep8 = true → s.hub.clk.stopped = false → s.hub.clk.held = false → s.hub.clk.rootLock = true →
      s.hub.jrn.total ≠ 0 → s.hub.tb.pendSet = none →
    Does (.bootComplete arbSel) s [.cfg, .sys, .host, .evt, .tb, .jrn, .sto, .act, .fe, .flt, .cal, .trg, .cod, .tiu, .net, .sl, .casc, .tx,
      .free] fun t => t.sys.fwReady = true ∧ t.sys.bootStep8 = false ∧ t.sys.acq = .running ∧ (∀ m : Nat, m < 8 →
      (t.host.mbs.get m).state = .idle) ∧ t.net.arbSel = arbSel ∧ t.tb.started = true ∧ t.tb.epoch = (s.hub.tb.epoch + 1) % 65536 ∧
      t.tb.strobes = s.hub.tb.strobes + 1 ∧ t.sys.autostart = [])

/-- Control resets and what brings them (R475, R491, R538, R544, R545). -/
def Obligations.ControlResetRows : Prop :=
  (∀ (s : State) (c : Nat),
    s.hub.powered = true → s.hub.sys.pendingReset = some (.control c) → s.hub.sys.resetDue ≤ s.hub.xoCycles →
    Does (.controlReset) s [.sys, .host, .evt, .clk, .jrn, .sto, .tx] fun t => t.sys.fwReady = false ∧ (∀ m : Nat, m < 8 →
      (t.host.mbs.get m).state = .offline) ∧ t.sys.ctrlResets = sat32 (s.hub.sys.ctrlResets + 1) ∧ t.sys.acq = s.hub.sys.acq ∧
      t.sto = { s.hub.sto with otpJobs := s.hub.sto.otpJobs.map OtpJob.unasked } ∧ t.sys.resetCause = setBit s.hub.sys.resetCause c) ∧
  (∀ (s : State) (b : Bool) (r : Option Nat),
    s.hub.powered = true → s.hub.sys.pendingReset = some (.slotSwitch b r) → s.hub.sys.resetDue ≤ s.hub.xoCycles →
    Does (.controlReset) s [.sys, .host, .evt, .clk, .jrn, .sto, .tx] fun t => t.sys.fwReady = false ∧ (∀ m : Nat, m < 8 →
      (t.host.mbs.get m).state = .offline) ∧ t.sys.ctrlResets = sat32 (s.hub.sys.ctrlResets + 1) ∧ t.sys.acq = s.hub.sys.acq ∧
      t.sys.resetCause = setBit s.hub.sys.resetCause 5 ∧ t.sys.slotB = b ∧
      t.sto = { s.hub.sto with otpJobs := s.hub.sto.otpJobs.map OtpJob.unasked, trial := r.isSome, trialArmed := r.isSome,
                               trialAt := r.map fun _ => s.hub.xoCycles, trialS := r.getD 0 }) ∧
  (∀ (s : State),
    s.hub.powered = true → s.hub.sto.trialArmed = false → s.hub.clk.held = false →
    Does (.lockstepMismatch) s [.sys, .host, .evt, .clk, .jrn, .sto, .tx] fun t => t.sys.fwReady = false ∧ (∀ m : Nat, m < 8 →
      (t.host.mbs.get m).state = .offline) ∧ t.sys.ctrlResets = sat32 (s.hub.sys.ctrlResets + 1) ∧ t.sys.acq = s.hub.sys.acq ∧
      t.sto = { s.hub.sto with otpJobs := s.hub.sto.otpJobs.map OtpJob.unasked } ∧ t.sys.resetCause = setBit s.hub.sys.resetCause 2 ∧
      t.evt.count.get 3 = s.hub.evt.count.get 3 + 1 ∧ t.evt.count.get 10 = s.hub.evt.count.get 10 + 1) ∧
  (∀ (s : State),
    s.hub.powered = true → s.hub.sto.trialArmed = false → s.hub.clk.held = false →
    Does (.watchdogExpiry) s [.sys, .host, .evt, .clk, .jrn, .sto, .tx] fun t => t.sys.fwReady = false ∧ (∀ m : Nat, m < 8 →
      (t.host.mbs.get m).state = .offline) ∧ t.sys.ctrlResets = sat32 (s.hub.sys.ctrlResets + 1) ∧ t.sys.acq = s.hub.sys.acq ∧
      t.sto = { s.hub.sto with otpJobs := s.hub.sto.otpJobs.map OtpJob.unasked } ∧ t.sys.resetCause = setBit s.hub.sys.resetCause 3 ∧
      t.evt.count.get 4 = s.hub.evt.count.get 4 + 1 ∧ t.evt.count.get 10 = s.hub.evt.count.get 10 + 1) ∧
  (∀ (s : State),
    s.hub.powered = true → s.hub.sto.trialArmed = true → s.hub.sys.fwReady = false → s.hub.passed s.hub.sto.trialAt 7372800 = true →
    Does (.trialRevert) s [.sys, .host, .evt, .clk, .jrn, .sto, .tx] fun t => t.sys.fwReady = false ∧ (∀ m : Nat, m < 8 →
      (t.host.mbs.get m).state = .offline) ∧ t.sys.ctrlResets = sat32 (s.hub.sys.ctrlResets + 1) ∧ t.sys.acq = s.hub.sys.acq ∧
      t.sys.resetCause = setBit s.hub.sys.resetCause 5 ∧ t.sys.slotB = s.hub.sto.defaultB ∧
      t.sto = { s.hub.sto with otpJobs := s.hub.sto.otpJobs.map OtpJob.unasked, trialFailed := true, trial := false, trialArmed := false }) ∧
  (∀ (s : State),
    s.hub.powered = true → s.hub.passed s.hub.sto.trialAt (s.hub.sto.trialS * 49152000) = true →
    Does (.trialSExpiry) s [.sto] fun t => t.sto = { s.hub.sto with trialArmed := false }) ∧
  (∀ (s : State),
    s.hub.powered = true → s.hub.passed s.hub.sto.trialAt (s.hub.sto.trialS * 49152000) = false →
    Does (.trialSExpiry) s [] fun _ => True) ∧
  (∀ (s : State) (fastOk : Bool) (okThis : Bool) (okOther : Bool),
    s.hub.powered = true → s.hub.sys.fwReady = false → s.hub.sys.recovery = false → s.hub.sys.bootStep8 = false → s.hub.sys.acq ≠ .boot →
      (fastOk || (okThis && s.hub.fwFit s.hub.sys.slotB)) = true →
    Does (.firmwareReady fastOk okThis okOther) s [.sys, .host, .evt, .jrn, .sto, .cal, .tx] fun t => t.sys =
      { s.hub.sys with fwReady := true } ∧ (∀ m : Nat, m < 8 → t.host.mbs.get m = { s.hub.host.mbs.get m with state := .idle }) ∧
      t.host.deferred = []) ∧
  (∀ (s : State) (fastOk : Bool) (okThis : Bool) (okOther : Bool),
    s.hub.powered = true → s.hub.sys.fwReady = false → s.hub.sys.recovery = false → s.hub.sys.bootStep8 = false → s.hub.sys.acq ≠ .boot →
      (fastOk || (okThis && s.hub.fwFit s.hub.sys.slotB)) = false → (okOther && s.hub.fwFit !s.hub.sys.slotB) = true →
    Does (.firmwareReady fastOk okThis okOther) s [.sys, .host, .evt, .jrn, .sto, .cal, .tx] fun t => t.sto.trial = false ∧
      t.sto.trialArmed = false ∧ t.sto.trialFailed = (s.hub.sto.trialFailed || s.hub.sto.trialArmed) ∧
      t.sys = { s.hub.sys with fwReady := true, slotB := !s.hub.sys.slotB } ∧ (∀ m : Nat, m < 8 →
      t.host.mbs.get m = { s.hub.host.mbs.get m with state := .idle }) ∧ t.host.deferred = []) ∧
  (∀ (s : State) (fastOk : Bool) (okThis : Bool) (okOther : Bool),
    s.hub.powered = true → s.hub.sys.fwReady = false → s.hub.sys.recovery = false → s.hub.sys.bootStep8 = false → s.hub.sys.acq ≠ .boot →
      (fastOk || (okThis && s.hub.fwFit s.hub.sys.slotB)) = false → (okOther && s.hub.fwFit !s.hub.sys.slotB) = false →
    Does (.firmwareReady fastOk okThis okOther) s [.sys, .host, .evt, .sto, .tx] fun t => t.sto.trial = false ∧ t.sto.trialArmed = false ∧
      t.sto.trialFailed = (s.hub.sto.trialFailed || s.hub.sto.trialArmed) ∧ t.sys = { s.hub.sys with recovery := true } ∧
      (t.host.mbs.get 7).state = .idle ∧ (∀ m : Nat, m < 7 → (t.host.mbs.get m).state = .offline)) ∧
  (∀ (s : State) (fastOk : Bool) (okThis : Bool) (okOther : Bool),
    s.hub.powered = true → s.hub.sys.recovery = true → (s.hub.host.mbs.get 7).state = .offline →
    Does (.firmwareReady fastOk okThis okOther) s [.sys, .host] fun t => t.sys = { s.hub.sys with fwReady := false } ∧
      (t.host.mbs.get 7).state = .idle ∧ (∀ m : Nat, m < 7 → (t.host.mbs.get m).state = .offline))

/-- Warm resets, power failure and supplies (R536, R539, R546, R549, R556). -/
def Obligations.PowerRows : Prop :=
  (∀ (s : State),
    s.hub.powered = true → (s.hub.sys.acq = .warmReset ∨ (s.hub.sys.acq = .running ∧ (s.hub.jrn.rescan = true ∨
      s.hub.sys.pendingReset = some .datapath ∧ s.hub.sys.resetDue ≤ s.hub.xoCycles))) → s.hub.clk.held = false →
      s.hub.clk.stopped = false → s.hub.tb.started = true →
    Does (.datapathWarmReset) s [.cfg, .sys, .host, .evt, .tb, .jrn, .sto, .act, .fe, .flt, .cal, .trg, .cod, .tiu, .sl, .casc, .tx, .free]
      fun t => t.sys.acq = .running ∧ t.jrn.rescan = false ∧ bit t.sys.resetCause 6 = true ∧ t.sys.pendingReset = (if s.hub.sys.pendingReset
      = some .datapath then none else s.hub.sys.pendingReset) ∧ t.cfg.jrn = s.hub.cfg.jrn ∧ t.tiu.gates = [] ∧ t.cal.run = none) ∧
  (∀ (s : State),
    s.hub.powered = true → s.hub.warmAsked = false →
    Does (.datapathWarmReset) s [] fun _ => True) ∧
  (∀ (s : State) (complete : Bool),
    s.hub.powered = true →
    Does (.pfwWarning complete) s [.sys, .host, .evt, .tb, .jrn, .sto, .act, .fe, .flt, .cal, .trg, .cod, .tiu, .sl, .casc, .tx, .free] fun
      t => t.sys.power = .retain ∧ (∃ p, t.sto.pfw = some p ∧ p.complete = complete ∧ p.consumed = false ∧ p.seq = s.hub.sto.pfwCount + 1 ∧
      p.sample = s.hub.sampleT ∧ p.loc = s.hub.localT ∧ p.nextTicket = t.jrn.nextTicket) ∧ t.sto.pfwCount = s.hub.sto.pfwCount + 1 ∧
      t.sto.jobs = [] ∧ t.cal.run = none ∧ t.tiu.gates = [] ∧ (∀ k : Nat, k < 16 → t.actPin k = .failSafe)) ∧
  (∀ (s : State) (b : Machine.ResumeIn),
    s.hub.sys.power = .retain → b.xoOk = true → s.hub.tb.started = true → (b.fw.fast = true ∨ (b.fw.this = true ∧
      s.hub.fwFit s.hub.sys.slotB = true)) →
    Does (.retainResume b) s [.cfg, .sys, .host, .evt, .clk, .tb, .jrn, .sto, .act, .fe, .flt, .cal, .trg, .cod, .tiu, .net, .sl, .casc,
      .tx, .free] fun t => t.sys.power = .run ∧ t.sys.fwReady = true ∧ t.sys.acq = .running ∧ t.clk.rootLock = true ∧ t.clk.held = false ∧
      t.clk.stopped = false ∧ t.tb.epoch = (s.hub.tb.epoch + 1) % 65536 ∧ (∀ m : Nat, m < 8 → (t.host.mbs.get m).state = .idle) ∧
      t.net.arbSel = b.arbSel ∧ t.cfg.jrn = s.hub.cfg.jrn) ∧
  (∀ (s : State) (b : Machine.ResumeIn),
    s.hub.sys.power ≠ .retain →
    Does (.retainResume b) s [] fun _ => True) ∧
  (∀ (s : State) (supply : Fin 16),
    s.hub.powered = true → s.hub.clk.held = false →
    Does (.supplyWarn supply) s [.evt, .host, .tx] fun t => t.evt.count.get 20 = s.hub.evt.count.get 20 + 1 ∧ t.evStatus 20 = true ∧
      t.evt.logNext = (s.hub.evt.logNext + 1) % 2 ^ 32 ∧ (t.evt.log.get (s.hub.evt.logNext % 4096)).event = 20 ∧
      (t.evt.log.get (s.hub.evt.logNext % 4096)).data.take 4 = leBytes 4 supply)

/-- Saved states, flash, OTP and self-test (R540, R553, R554, R560, R562, R563, R566). -/
def Obligations.FlashRows : Prop :=
  (∀ (s : State),
    s.hub.powered = true → s.hub.cfg.saveInt ≠ 0 → s.hub.sto.saveDisabled = false → s.hub.sto.saveAt + s.hub.cfg.saveInt * 60 * 49152000 ≤
      s.hub.xoCycles →
    Does (.stateSaveTimer) s [.sto] fun t => t.sto = { s.hub.sto with jobs := s.hub.sto.jobs ++ [.save s.hub.snapshotSaved none],
                                                                      saveAt := s.hub.xoCycles }) ∧
  (∀ (s : State),
    s.hub.powered = true → (s.hub.cfg.saveInt = 0 ∨ s.hub.xoCycles < s.hub.sto.saveAt + s.hub.cfg.saveInt * 60 * 49152000) →
    Does (.stateSaveTimer) s [] fun _ => True) ∧
  (∀ (s : State) (ok : Bool) (v : Saved) (hd : Option Nat) (r : List FlashJob),
    s.hub.powered = true → ok = true → s.hub.sto.jobs = .save v hd :: r →
    Does (.flashOperationDone ok) s [.sto, .host, .tx] fun t => t.sto.saved = some { v with seq := s.hub.sto.saveSeq + 1,
                                                                                            sector := s.hub.sto.sector } ∧
      t.sto.saveSeq = s.hub.sto.saveSeq + 1 ∧ t.sto.jobs = r ∧ t.sto.erases.get s.hub.sto.sector = s.hub.sto.erases.get s.hub.sto.sector + 1
      ∧ (hd = none → t.host = s.hub.host)) ∧
  (∀ (s : State) (ok : Bool) (v : Saved) (hd : Option Nat) (r : List FlashJob),
    s.hub.powered = true → ok = false → s.hub.sto.spares > 0 → s.hub.clk.held = false → s.hub.sto.jobs = .save v hd :: r →
    Does (.flashOperationDone ok) s [.sto, .evt, .host, .tx] fun t => t.sto.jobs = s.hub.sto.jobs ∧ t.sto.spares = s.hub.sto.spares - 1 ∧
      t.sto.saved = s.hub.sto.saved ∧ t.evt.count.get 14 = s.hub.evt.count.get 14 + 1) ∧
  (∀ (s : State) (ok : Bool) (b : Bool) (i : Slot) (hd : Nat) (r : List FlashJob),
    s.hub.powered = true → ok = true → s.hub.sys.recovery = false → s.hub.sto.jobs = .image b i hd :: r →
    Does (.flashOperationDone ok) s [.sto, .host, .tx] fun t => t.sto =
      { (if b then { s.hub.sto with slotB := i } else { s.hub.sto with slotA := i }) with jobs := r }) ∧
  (∀ (s : State) (ok : Bool) (k : Nat) (b : Bool) (n : Nat) (hd : Nat) (r : List FlashJob),
    s.hub.powered = true → ok = false → s.hub.sto.jobs = .bootCtl k b n hd :: r →
    Does (.flashOperationDone ok) s [.sto, .host, .tx] fun t => t.sto = { s.hub.sto with jobs := r }) ∧
  (∀ (s : State) (ok : Bool) (f : Nat) (d : List Word) (hd : Nat) (r : List OtpJob),
    s.hub.powered = true → s.hub.sto.otpJobs = .field f d hd :: r →
    Does (.otpProgramDone ok) s [.sto, .host, .tx] fun t => t.sto = { s.hub.sto with otpJobs := r,
                                                                                     otp := if ok then s.hub.sto.otp.program f d else s.hub.sto.otp }) ∧
  (∀ (s : State) (ok : Bool) (code : Nat) (mb : Nat) (tag : Word) (r : List OtpJob),
    s.hub.powered = true → s.hub.sto.otpJobs = .failSafe code mb tag :: r →
    Does (.otpProgramDone ok) s [.sto, .host, .sys, .tx] fun t => t.sto = { s.hub.sto with otpJobs := r,
                                                                                           otp := if ok then { s.hub.sto.otp with actCodes := wd code } else s.hub.sto.otp }
      ∧ ((s.hub.host.mbs.get mb).state = .busy → (t.host.mbs.get mb).state = .ready)) ∧
  (∀ (s : State) (failed : Nat) (hd : Nat) (m : Nat) (r : List (Nat × Nat)),
    s.hub.powered = true → s.hub.sto.selftests = (hd, m) :: r →
    Does (.selftestDone failed) s [.sto, .host, .tx] fun t => t.sto = { s.hub.sto with selftests := r } ∧
      t = ({ s.hub with sto := { s.hub.sto with selftests := r } } : Hub).complete hd (if (failed ||| (if s.hub.jrn.total = 0 then 16 else
      0)) &&& m = 0 then DONE else HW_FAULT) [wd ((failed ||| (if s.hub.jrn.total = 0 then 16 else 0)) &&& m)]) ∧
  (∀ (s : State) (page : Nat) (ok : Bool),
    s.hub.powered = true → ok = true →
    Does (.journalPageCheckDone page ok) s [.jrn] fun t => t.jrn = { s.hub.jrn with pages := t.jrn.pages } ∧
      t.jrn.pages.get page = { s.hub.jrn.pages.get page with checked := true } ∧ (∀ p : Nat, p ≠ page →
      t.jrn.pages.get p = s.hub.jrn.pages.get p)) ∧
  (∀ (s : State) (page : Nat) (ok : Bool),
    s.hub.powered = true → ok = false → (s.hub.jrn.pages.get page).used = false →
    Does (.journalPageCheckDone page ok) s [] fun _ => True)

/-- Clock monitors, muxes, gates and the frequency counter (R513, R516, R517, R518, R520, R526, R527). -/
def Obligations.ClockRows : Prop :=
  (∀ (s : State),
    s.hub.powered = true → s.hub.clk.rootLock = false → (s.hub.clk.mon.get 0).ok = true → s.hub.clk.oscWait = false →
      (s.hub.clk.stopped = true → s.hub.clk.relockAt.isSome = true) →
    Does (.rootPllLock) s [.clk] fun t => t.clk = { s.hub.clk with rootLock := true, rootSince := s.hub.xoCycles, memLock := true,
                                                                   rootEver := true,
                                                                   muxCpu := if s.hub.clk.stopped || s.hub.clk.held then s.hub.clk.muxCpu else 0 }) ∧
  (∀ (s : State),
    s.hub.powered = true → (s.hub.clk.rootLock = true ∨ (s.hub.clk.mon.get 0).ok = false) →
    Does (.rootPllLock) s [] fun _ => True) ∧
  (∀ (s : State) (src : Fin 5) (count : Nat),
    s.hub.powered = true → (src.val = 3 → s.hub.sys.straps.hostSel = false) → (src.val = 0 → s.hub.clk.oscWait = false ∧
      (s.hub.clk.mon.get 0).failed = false) → (s.hub.monWindow src count).2.1 = false →
      ((s.hub.monWindow src count).1.ok && !(s.hub.clk.mon.get src).ok) = false →
    Does (.clkMonWindow src count) s [.clk] fun t => t.clk = { s.hub.clk with mon := t.clk.mon } ∧ (t.clk.mon.get src).count = count ∧
      (∀ k : Nat, k ≠ src.val → t.clk.mon.get k = s.hub.clk.mon.get k)) ∧
  (∀ (s : State) (src : Fin 5),
    s.hub.powered = true → src.val = 3 → s.hub.sys.straps.hostSel = false → (s.hub.clk.mon.get 3).failed = false →
    Does (.clkStopDetect src) s [.sys, .host, .evt, .clk, .jrn, .sto, .tx] fun t => t.sto =
      { s.hub.sto with otpJobs := s.hub.sto.otpJobs.map OtpJob.unasked } ∧ (t.clk.mon.get 3).failed = true ∧ (t.clk.mon.get 3).ok = false ∧
      t.clk.muxHost = 1 ∧ bit t.clk.fault 3 = true ∧ bit t.clk.fault 6 = true ∧ t.sys.resetCause = setBit s.hub.sys.resetCause 7) ∧
  (∀ (s : State) (src : Fin 5),
    s.hub.powered = true → (s.hub.clk.mon.get src).failed = true →
    Does (.clkStopDetect src) s [] fun _ => True) ∧
  (∀ (s : State),
    s.hub.powered = true →
    Does (.oscDelayExpiry) s [.clk] fun t => t.clk = { s.hub.clk with oscWait := false }) ∧
  (∀ (s : State) (host : Bool),
    s.hub.powered = true → host = true →
    Does (.muxForcedSwitch host) s [.sys, .host, .evt, .clk, .jrn, .sto, .tx] fun t => t.sto =
      { s.hub.sto with otpJobs := s.hub.sto.otpJobs.map OtpJob.unasked } ∧ t.clk.muxHost = (if s.hub.clk.muxHost = 0 then 1 else if
      s.hub.clk.muxHost = 1 then 2 else if s.hub.sys.straps.hostSel then 1 else 0) ∧ t.clk.fault = setBit s.hub.clk.fault 6 ∧
      t.sys = { s.hub.sys with resetCause := setBit s.hub.sys.resetCause 7 }) ∧
  (∀ (s : State) (host : Bool),
    s.hub.powered = true → host = false → (s.hub.clk.muxCpu = 1 → s.hub.clk.rootLock = true) →
    Does (.muxForcedSwitch host) s [.sys, .host, .evt, .clk, .jrn, .sto, .tx] fun t => t.sto =
      { s.hub.sto with otpJobs := s.hub.sto.otpJobs.map OtpJob.unasked } ∧ t.clk.muxCpu = 1 - s.hub.clk.muxCpu ∧
      t.clk.fault = setBit s.hub.clk.fault 5 ∧ t.sys.resetCause = setBit s.hub.sys.resetCause 9 ∧ t.sys.fwReady = false ∧
      (∀ m : Nat, m < 8 → (t.host.mbs.get m).state = .offline)) ∧
  (∀ (s : State) (host : Bool),
    s.hub.powered = true → host = false → s.hub.clk.muxCpu = 1 → s.hub.clk.rootLock = false →
    Does (.muxForcedSwitch host) s [] fun _ => True) ∧
  (∀ (s : State) (gate : Fin 64),
    s.hub.powered = true → s.hub.gateWaits gate = true →
    Does (.gateQuiesceAccept gate) s [.clk, .sys, .host, .tx] fun t => (gate.val ∈ t.clk.gates ↔ s.hub.gateUsed gate = false) ∧
      t.clk = { s.hub.clk with gates := t.clk.gates, gateCmd := t.clk.gateCmd } ∧ t.gateWaits gate = false) ∧
  (∀ (s : State) (gate : Fin 64),
    s.hub.powered = true → s.hub.gateWaits gate = true → s.hub.gateLate gate = true → s.hub.clk.held = false →
    Does (.gateQuiesceTimeout gate) s [.clk, .sys, .host, .evt, .tx] fun t => t.clk.gates = s.hub.clk.gates ∧ t.gateWaits gate = false ∧
      bit t.clk.fault 7 = true ∧ t.evt.count.get 6 = s.hub.evt.count.get 6 + 1) ∧
  (∀ (s : State) (gate : Fin 64),
    s.hub.powered = true → s.hub.gateLate gate = false →
    Does (.gateQuiesceTimeout gate) s [] fun _ => True) ∧
  (∀ (s : State) (gate : Fin 64),
    s.hub.powered = true → s.hub.gateWaits gate = false →
    Does (.gateQuiesceAccept gate) s [] fun _ => True) ∧
  (∀ (s : State) (edges : Nat),
    s.hub.powered = true → s.hub.clk.fmc.busy = true →
    Does (.fmcComplete edges) s [.clk, .host, .tx] fun t => t.clk = { s.hub.clk with fmc := { s.hub.clk.fmc with busy := false,
                                                                                                                 n := edges % 2 ^ 64 } })

/-- Loss of lock, the hold, STOPPED and what ends them (R235, R516, R521, R523, R524). -/
def Obligations.HoldRows : Prop :=
  (∀ (s : State),
    s.hub.powered = true → s.hub.clk.rootLock = true → s.hub.clk.held = false → s.hub.clk.stopped = false → s.hub.clk.rootEver = true →
      s.hub.clk.unlocks = [] →
    Does (.rootPllUnlock) s [.host, .evt, .clk, .tb, .jrn, .sto, .flt, .tiu, .tx] fun t => t.clk.rootLock = false ∧ t.clk.held = true ∧
      t.clk.stopped = false ∧ t.clk.holds = sat32 (s.hub.clk.holds + 1) ∧ t.clk.unlocks = [s.hub.xoCycles] ∧ bit t.clk.fault 8 = true ∧
      t.tb = { s.hub.tb with holdSample := (s.hub.tb.sec, s.hub.tb.cnt), holdNet := s.hub.tb.net, holdLocal := s.hub.tb.xo } ∧
      t.tiu.gates = []) ∧
  (∀ (s : State),
    s.hub.powered = true → s.hub.clk.held = true → s.hub.clk.stopped = false → s.hub.clk.rootLock = true → s.hub.clk.heldWrites = [] →
    Does (.rootGateOpen) s [.host, .evt, .clk, .tb, .jrn, .sto, .act, .flt, .cal, .tiu, .net, .sl, .casc, .tx, .free] fun t => t.clk.held =
      false ∧ t.clk.resumeEpoch = s.hub.tb.epoch ∧ t.tb.epoch = s.hub.tb.epoch ∧ t.tb.total = (s.hub.tb.total + heldCycles s.hub.tb.y
      s.hub.heldXo) % (2 ^ 32 * 122880000) ∧ t.tb.xo = s.hub.tb.xo ∧ t.tb.afterHold = true) ∧
  (∀ (s : State),
    s.hub.powered = true → (s.hub.clk.held = false ∨ s.hub.clk.stopped = true ∨ s.hub.clk.rootLock = false) →
    Does (.rootGateOpen) s [] fun _ => True) ∧
  (∀ (s : State),
    s.hub.powered = true → s.hub.clk.held = true → s.hub.clk.stopped = false → s.hub.clk.rootLock = false →
      s.hub.tb.holdLocal * 5 + 49152 * 2 ^ 40 ≤ s.hub.tb.xo * 5 →
    Does (.holdTimeoutStop) s [.sys, .host, .evt, .clk, .tb, .jrn, .sto, .act, .trg, .tiu, .sl, .casc, .tx] fun t => t.clk =
      { s.hub.clk with stopped := true, relockAt := none, stops := sat32 (s.hub.clk.stops + 1), muxCpu := 1 } ∧
      t.sys = { s.hub.sys with acq := .stopped }) ∧
  (∀ (s : State),
    s.hub.powered = true → s.hub.tb.xo * 5 < s.hub.tb.holdLocal * 5 + 49152 * 2 ^ 40 →
    Does (.holdTimeoutStop) s [] fun _ => True) ∧
  (∀ (s : State),
    s.hub.powered = true → s.hub.clk.stopped = true → s.hub.clk.rootLock = false → (s.hub.clk.mon.get 0).ok = true →
      (∀ n, s.hub.clk.relockAt = some n → n + 49152 ≤ s.hub.xoCycles) →
    Does (.stoppedRelockAttempt) s [.clk] fun t => t.clk = { s.hub.clk with relockAt := some s.hub.xoCycles }) ∧
  (∀ (s : State),
    s.hub.powered = true → (s.hub.clk.stopped = false ∨ s.hub.clk.rootLock = true ∨ (s.hub.clk.mon.get 0).ok = false) →
    Does (.stoppedRelockAttempt) s [] fun _ => True) ∧
  (∀ (s : State) (src : Option Machine.SrcReading),
    s.hub.powered = true → s.hub.clk.stopped = true → s.hub.clk.rootLock = true → s.hub.sys.bootStep8 = false →
      s.hub.clk.rootSince + 491520 ≤ s.hub.xoCycles → s.hub.tb.started = true → s.hub.tb.pendSet = none → src = none →
    Does (.stoppedRecovery src) s [.cfg, .sys, .host, .evt, .clk, .tb, .jrn, .sto, .act, .fe, .flt, .cal, .trg, .cod, .tiu, .net, .sl,
      .casc, .tx, .free] fun t => t.clk.stopped = false ∧ t.clk.held = false ∧ t.clk.muxCpu = 0 ∧ t.sys.acq = .running ∧
      t.tb.epoch = (s.hub.tb.epoch + 1) % 65536 ∧ t.tb.started = true ∧ t.tb.pendBreak = [] ∧ t.cfg.jrn = s.hub.cfg.jrn ∧
      t.act.rules = s.hub.act.rules) ∧
  (∀ (s : State) (src : Option Machine.SrcReading),
    s.hub.powered = true → (s.hub.clk.stopped = false ∨ s.hub.clk.rootLock = false ∨ s.hub.sys.bootStep8 = true ∨
      s.hub.xoCycles < s.hub.clk.rootSince + 491520) →
    Does (.stoppedRecovery src) s [] fun _ => True) ∧
  (∀ (s : State),
    s.hub.powered = true → s.hub.clk.rootEver = false → (s.hub.clk.mon.get 0).ok = false → s.hub.clk.oscWait = false →
      s.hub.clk.stopped = false →
    Does (.xoStartTimeout) s [.sys, .host, .evt, .clk, .tb, .jrn, .sto, .act, .trg, .tiu, .sl, .casc, .tx] fun t => t.clk.stopped = true ∧
      t.clk.onRc = true ∧ (t.clk.mon.get 0).failed = true ∧ bit t.clk.fault 0 = true ∧ t.sys = { s.hub.sys with acq := .stopped })

/-- Frame strobes and what waits for one (R13, R23, R196, R221, R229, R245, R301, R347). -/
def Obligations.StrobeRows : Prop :=
  (∀ (s : State),
    s.hub.powered = true → s.hub.clk.held = false → s.hub.tb.started = true → s.hub.tb.pendSet = none → s.hub.tb.pendBreak = [] →
      s.hub.tb.dead = false → s.hub.tb.cnt < 122880000 → s.hub.tb.sec < 2 ^ 32 →
    Does (.frameStrobe) s [.sys, .host, .evt, .tb, .jrn, .sto, .act, .fe, .flt, .cal, .trg, .cod, .tiu, .sl, .casc, .tx, .free] fun t =>
      t.tb.strobes = s.hub.tb.strobes + 1 ∧ t.tb.cnt % 15360 = 0 ∧ t.tb.total = (s.hub.tb.total + s.hub.tb.toStrobe) % (2 ^ 32 * 122880000)
      ∧ s.hub.tb.toStrobe ≤ 15360 ∧ (s.hub.tb.loaded = false → 0 < s.hub.tb.toStrobe) ∧ t.tb.epoch = s.hub.tb.epoch ∧
      t.tb.xo = s.hub.tb.xo + s.hub.tb.toStrobe * xoPerTime s.hub.tb.y ∧ t.fe.fast = s.hub.cfg.fe.fast) ∧
  (∀ (s : State),
    s.hub.powered = true → (s.hub.clk.held = true ∨ s.hub.tb.started = false) →
    Does (.frameStrobe) s [] fun _ => True) ∧
  (∀ (s : State),
    s.hub.powered = true → s.hub.tb.pendBreak = [] →
    Does (.epochBreak) s [] fun _ => True) ∧
  (∀ (s : State),
    s.hub.powered = true → s.hub.tb.pendSet = none →
    Does (.timeSetOrigin) s [] fun _ => True) ∧
  (∀ (s : State),
    s.hub.powered = true → s.hub.clk.held = false → s.hub.tb.started = true → s.hub.tb.pendSet = none → s.hub.tb.pendBreak = [] →
      s.hub.tb.dead = false → s.hub.tb.cnt < 122880000 → s.hub.tb.sec < 2 ^ 32 → s.hub.flt.sync ≠ [] →
    Does (.syncApply) s [.sys, .host, .evt, .tb, .jrn, .sto, .act, .fe, .flt, .cal, .trg, .cod, .tiu, .sl, .casc, .tx, .free] fun t =>
      t.flt.sync = [] ∧ t.tb.strobes = s.hub.tb.strobes + 1) ∧
  (∀ (s : State),
    s.hub.powered = true → s.hub.flt.sync = [] →
    Does (.syncApply) s [] fun _ => True) ∧
  (∀ (s : State),
    s.hub.powered = true → s.hub.clk.held = false → s.hub.tb.started = true → s.hub.tb.pendSet = none → s.hub.tb.pendBreak = [] →
      s.hub.tb.dead = false → s.hub.tb.cnt < 122880000 → s.hub.tb.sec < 2 ^ 32 → (s.hub.jrn.groups.any fun x => x.2.startReq || x.2.stopReq)
      = true →
    Does (.chgRunApply) s [.sys, .host, .evt, .tb, .jrn, .sto, .act, .fe, .flt, .cal, .trg, .cod, .tiu, .sl, .casc, .tx, .free] fun t => (∀
      g : Nat, g < 64 → (t.chg g).startReq = false ∧ (t.chg g).stopReq = false) ∧ (∀ g : Nat, g < 64 → (s.hub.chg g).startReq = true →
      (t.chg g).acquiring = true) ∧ (∀ g : Nat, g < 64 → (s.hub.chg g).startReq = false → (s.hub.chg g).stopReq = true →
      (t.chg g).acquiring = false)) ∧
  (∀ (s : State),
    s.hub.powered = true → (s.hub.jrn.groups.any fun x => x.2.startReq || x.2.stopReq) = false →
    Does (.chgRunApply) s [] fun _ => True) ∧
  (∀ (s : State) (r : ArmReq),
    s.hub.powered = true → s.hub.clk.held = false → s.hub.tb.started = true → s.hub.tb.pendSet = none → s.hub.tb.pendBreak = [] →
      s.hub.tb.dead = false → s.hub.tb.cnt < 122880000 → s.hub.tb.sec < 2 ^ 32 → s.hub.trg.arm = [r] →
    Does (.trgArmApply) s [.sys, .host, .evt, .tb, .jrn, .sto, .act, .fe, .flt, .cal, .trg, .cod, .tiu, .sl, .casc, .tx, .free] fun t =>
      t.trg.arm = [] ∧ ∀ u : Nat, u < 64 → u ∈ bitsOf r.armU 64 → (t.unit u).armed = true) ∧
  (∀ (s : State),
    s.hub.powered = true → s.hub.trg.arm = [] →
    Does (.trgArmApply) s [] fun _ => True) ∧
  (∀ (s : State) (p : Nat) (c : SwapCur),
    s.hub.powered = true → s.hub.clk.held = false → s.hub.tb.started = true → s.hub.tb.pendSet = none → s.hub.tb.pendBreak = [] →
      s.hub.tb.dead = false → s.hub.tb.cnt < 122880000 → s.hub.tb.sec < 2 ^ 32 → (s.hub.flt.swap.get p).cur = some c → c.started = false →
      (s.hub.flt.swap.get p).pend = none → p < 32 →
    Does (.bankSwapStart) s [.sys, .host, .evt, .tb, .jrn, .sto, .act, .fe, .flt, .cal, .trg, .cod, .tiu, .sl, .casc, .tx, .free] fun t =>
      (t.flt.swap.get p).cur.all (·.started) = true ∧ t.tb.strobes = s.hub.tb.strobes + 1) ∧
  (∀ (s : State),
    s.hub.powered = true → (s.hub.flt.swap.any fun x => x.2.cur.any fun c => !c.started) = false →
    Does (.bankSwapStart) s [] fun _ => True) ∧
  (∀ (s : State),
    s.hub.powered = true → s.hub.clk.held = false → s.hub.tb.started = true → s.hub.tb.pendSet = none → s.hub.tb.pendBreak = [] →
      s.hub.tb.dead = false → s.hub.tb.cnt < 122880000 → s.hub.tb.sec < 2 ^ 32 → (s.hub.flt.ch.any fun x => x.2.parReq.isSome) = true →
    Does (.chanParamApply) s [.sys, .host, .evt, .tb, .jrn, .sto, .act, .fe, .flt, .cal, .trg, .cod, .tiu, .sl, .casc, .tx, .free] fun t =>
      ∀ ch, ch ∈ s.hub.cfg.flt.chans.keys → (s.hub.chanCfg ch).isSome = true → (t.chain ch).parReq = none) ∧
  (∀ (s : State),
    s.hub.powered = true → (s.hub.flt.ch.any fun x => x.2.parReq.isSome) = false →
    Does (.chanParamApply) s [] fun _ => True) ∧
  (∀ (s : State),
    s.hub.powered = true → s.hub.clk.held = false → s.hub.tb.started = true → s.hub.tb.pendSet = none → s.hub.tb.pendBreak = [] →
      s.hub.tb.dead = false → s.hub.tb.cnt < 122880000 → s.hub.tb.sec < 2 ^ 32 → s.hub.jrn.descReq ≠ [] →
    Does (.chanDescLand) s [.sys, .host, .evt, .tb, .jrn, .sto, .act, .fe, .flt, .cal, .trg, .cod, .tiu, .sl, .casc, .tx, .free] fun t =>
      t.jrn.descReq = [] ∧ t.tb.strobes = s.hub.tb.strobes + 1) ∧
  (∀ (s : State),
    s.hub.powered = true → s.hub.jrn.descReq = [] →
    Does (.chanDescLand) s [] fun _ => True) ∧
  (∀ (s : State) (b : BlockReset),
    s.hub.powered = true → s.hub.clk.held = false → s.hub.tb.started = true → s.hub.tb.pendSet = none → s.hub.tb.pendBreak = [] →
      s.hub.tb.dead = false → s.hub.tb.cnt < 122880000 → s.hub.tb.sec < 2 ^ 32 → s.hub.sys.blockReset = some b → b.began = none →
    Does (.perBlockReset) s [.sys, .host, .evt, .tb, .jrn, .sto, .act, .fe, .flt, .cal, .trg, .cod, .tiu, .sl, .casc, .tx, .free] fun t =>
      t.sys.blockReset = some { b with began := some (s.hub.tb.strobes + 1) }) ∧
  (∀ (s : State),
    s.hub.powered = true → s.hub.sys.blockReset = none →
    Does (.perBlockReset) s [] fun _ => True)

/-- What an epoch break and a TIME_SET do to the timebase (R229, R230, R232, R245). -/
def Obligations.EpochRows : Prop :=
  (∀ (s : State) (b : PendBreak),
    s.hub.powered = true → s.hub.clk.held = false → s.hub.tb.started = true → s.hub.tb.cnt < 122880000 → s.hub.tb.sec < 2 ^ 32 →
      s.hub.tb.pendSet = none → s.hub.tb.pendBreak = [b] → b.epoch = none → b.kind = 1 → s.hub.tb.epoch < 65536 →
    Does (.epochBreak) s [.sys, .host, .evt, .tb, .jrn, .sto, .act, .fe, .flt, .cal, .trg, .cod, .tiu, .sl, .casc, .tx, .free] fun t =>
      t.tb.epoch = (s.hub.tb.epoch + 1) % 65536 ∧ t.tb.pendBreak = [] ∧ t.tb.breaks = sat32 (s.hub.tb.breaks + 1) ∧
      t.tb.total = Hub.breakTotal ((s.hub.tb.total + s.hub.tb.toStrobe) % (2 ^ 32 * 122880000)) b ∧ (t.tb.total % 15360 = 0 →
      t.tb.strobes = s.hub.tb.strobes + 1 ∧ t.tb.dead = false) ∧ (t.tb.total % 15360 ≠ 0 → t.tb.strobes = s.hub.tb.strobes ∧
      t.tb.dead = true)) ∧
  (∀ (s : State) (q : PendSet),
    s.hub.powered = true → s.hub.clk.held = false → s.hub.tb.started = true → s.hub.tb.cnt < 122880000 → s.hub.tb.sec < 2 ^ 32 →
      s.hub.tb.pendSet = some q → q.seconds < 2 ^ 32 → q.strobe < 8000 → s.hub.tb.epoch < 65536 →
    Does (.timeSetOrigin) s [.sys, .host, .evt, .tb, .jrn, .sto, .act, .fe, .flt, .cal, .trg, .cod, .tiu, .sl, .casc, .tx, .free] fun t =>
      t.tb.epoch = (s.hub.tb.epoch + 1) % 65536 ∧ t.tb.pendSet = none ∧ t.tb.sec = q.seconds ∧ t.tb.cnt = q.strobe * 15360 ∧
      t.tb.strobes = s.hub.tb.strobes + 1)

/-- Sources, TIME MAP records, compare units and PPS (R224, R225, R237, R239, R244, R246). -/
def Obligations.TimebaseRows : Prop :=
  (∀ (s : State) (v : TimeSrc) (n : Nat),
    s.hub.powered = true → s.hub.tb.cand.find? (fun c => s.hub.srcOk c.1 && decide (c.2 + s.hub.tb.use.holdoff * 49152000 ≤ s.hub.xoCycles))
      = some (v, n) →
    Does (.sourceHoldoffExpiry) s [.tb] fun t => t.tb = { s.hub.tb with source := v, awaiting := true, cand := t.tb.cand, breakCnt := 0,
                                                                        u0 := if s.hub.tb.awaiting then s.hub.tb.u0 else s.hub.unc,
                                                                        holdSince := if s.hub.tb.awaiting then s.hub.tb.holdSince else s.hub.xoCycles }
      ∧ ∀ c, c ∈ t.tb.cand → c.1.rank < v.rank) ∧
  (∀ (s : State),
    s.hub.powered = true → s.hub.tb.cand = [] →
    Does (.sourceHoldoffExpiry) s [] fun _ => True) ∧
  (∀ (s : State) (n : Nat) (u : Option Nat),
    s.hub.powered = true → s.hub.clk.held = false → s.hub.tb.lastMap = some (n, u) → n + s.hub.tb.use.mapPeriod * 49152000 ≤ s.hub.xoCycles
      →
    Does (.timeMapPeriodic) s [.host, .evt, .tb, .jrn, .sto, .tx] fun t => t.tb =
      { s.hub.tb with lastMap := some (s.hub.xoCycles, s.hub.unc) }) ∧
  (∀ (s : State),
    s.hub.powered = true → s.hub.tb.lastMap = none →
    Does (.timeMapPeriodic) s [] fun _ => True) ∧
  (∀ (s : State) (n : Nat) (u : Option Nat),
    s.hub.powered = true → s.hub.clk.held = false → s.hub.tb.lastMap = some (n, u) → uncChanged u s.hub.unc = true →
    Does (.uncertaintyRecord) s [.host, .evt, .tb, .jrn, .sto, .tx] fun t => t.tb =
      { s.hub.tb with lastMap := some (s.hub.xoCycles, s.hub.unc) }) ∧
  (∀ (s : State) (n : Nat),
    s.hub.powered = true → s.hub.tb.lastMap = some (n, s.hub.unc) →
    Does (.uncertaintyRecord) s [] fun _ => True) ∧
  (∀ (s : State) (n : Fin 8) (r : T64),
    s.hub.powered = true → s.hub.clk.held = false → bit (s.hub.tb.cmp.get n).ctrl 0 = true → s.hub.cmpReading (fld (s.hub.tb.cmp.get n).ctrl
      3 2) = some r → tLe (s.hub.tb.cmp.get n).target r = true →
    Does (.cmpFire n) s [.tb, .host, .evt, .tx] fun t => (t.tb.cmp.get n).fired = r ∧ bit (t.tb.cmp.get n).status 0 = true ∧
      (bit (s.hub.tb.cmp.get n).ctrl 5 = true → (t.tb.cmp.get n).target = (s.hub.tb.cmp.get n).target + (s.hub.tb.cmp.get n).period ∧
      (t.tb.cmp.get n).ctrl = (s.hub.tb.cmp.get n).ctrl) ∧ (bit (s.hub.tb.cmp.get n).ctrl 5 = false →
      (t.tb.cmp.get n).target = (s.hub.tb.cmp.get n).target ∧ (t.tb.cmp.get n).ctrl = w1c (s.hub.tb.cmp.get n).ctrl 1) ∧
      (∀ k : Nat, k ≠ n.val → t.tb.cmp.get k = s.hub.tb.cmp.get k) ∧ t.tb = { s.hub.tb with cmp := t.tb.cmp } ∧
      t.evt.count.get 98 = s.hub.evt.count.get 98 + 1) ∧
  (∀ (s : State) (n : Fin 8),
    s.hub.powered = true → bit (s.hub.tb.cmp.get n).ctrl 0 = false →
    Does (.cmpFire n) s [] fun _ => True) ∧
  (∀ (s : State) (r : T64) (l : T64),
    s.hub.powered = true → s.hub.cfg.tb.ppsOut.enable = true → s.hub.cmpReading s.hub.cfg.tb.ppsOut.tb = some r →
      s.hub.tb.ppsLast = some l → tLt l (ppsEdge s.hub.cfg.tb.ppsOut.offset r) = true → (s.hub.clk.held = false ∨
      s.hub.cfg.tb.ppsOut.tb = 2) →
    Does (.ppsOutPulse) s [.tb] fun t => t.tb = { s.hub.tb with ppsPin := some s.hub.tb.xo,
                                                                ppsLast := some (ppsEdge s.hub.cfg.tb.ppsOut.offset r) }) ∧
  (∀ (s : State),
    s.hub.powered = true → s.hub.cfg.tb.ppsOut.enable = false →
    Does (.ppsOutPulse) s [] fun _ => True) ∧
  (∀ (s : State) (n : Nat),
    s.hub.powered = true → s.hub.tb.ppsPin = some n → n * 1000 + s.hub.cfg.tb.ppsOut.width * 49152 * 2 ^ 40 ≤ s.hub.tb.xo * 1000 →
    Does (.ppsOutPulseEnd) s [.tb] fun t => t.tb = { s.hub.tb with ppsPin := none }) ∧
  (∀ (s : State),
    s.hub.powered = true → s.hub.tb.ppsPin = none →
    Does (.ppsOutPulseEnd) s [] fun _ => True) ∧
  (∀ (s : State) (falling : Bool) (e : Machine.LineEdge) (p : PendRef) (l : List PendRef),
    s.hub.powered = true → s.hub.clk.held = false → s.hub.tiu.calAll = false → s.hub.tiu.lost = [] → s.hub.tiu.fifo < 512 →
      s.hub.tiu.lastEdge.get 8 = none → e.drained = 0 → falling = s.hub.cfg.tb.ppsFalling → s.hub.tb.pendRef = p :: l →
    Does (.ppsInEdge falling e) s [.host, .evt, .tb, .jrn, .sto, .tiu, .net, .tx, .free] fun t => t.tb.refValid = true ∧ t.tb.pendRef = [] ∧
      t.tb.refOff = BitVec.ofNat 64 ((l.getLastD p).seconds * 2 ^ 32) - ((s.hub.mkStamp 8 e.tap.val 0).t - BitVec.ofInt 64 (nsToT
      s.hub.cfg.tb.cableDly)) ∧ t.tb.ppsGood = min 4 (s.hub.tb.ppsGood + 1)) ∧
  (∀ (s : State) (falling : Bool) (e : Machine.LineEdge),
    s.hub.powered = true → (s.hub.clk.held = true ∨ falling ≠ s.hub.cfg.tb.ppsFalling) →
    Does (.ppsInEdge falling e) s [.tiu] fun t => t.tiu = { s.hub.tiu with fifo := t.tiu.fifo }) ∧
  (∀ (s : State),
    s.hub.powered = true →
    Does (.timeRefTimeout) s [.tb, .host, .tx] fun t => t.tb =
      { s.hub.tb with pendRef := s.hub.tb.pendRef.filter fun p => decide (tDiff p.since s.hub.localT < 2 * 2 ^ 32) })

/-- PTP messages on a network port (R248, R249, R252, R253, R254, R257). -/
def Obligations.PtpRows : Prop :=
  (∀ (s : State) (p : Fin 2) (head : Machine.PtpHead) (seq : Nat) (twoStep : Bool) (t1 : Int) (corr : Int),
    s.hub.powered = true → s.hub.ptpAccept p head = (s.hub, true) → s.hub.clk.held = false → (s.hub.port p).ptp.master = some (head.sender,
      head.portNo) → twoStep = true →
    Does (.ptpSyncReceive p head seq twoStep t1 corr) s [.net] fun t => t.port p =
      { s.hub.port p with ptp := { (s.hub.port p).ptp with sync := some (seq, s.hub.ingress p, corr), syncAt := s.hub.xoCycles,
                                                           syncLog := head.logInt } } ∧ (∀ k : Nat, k ≠ p.val → t.port k = s.hub.port k)) ∧
  (∀ (s : State) (p : Fin 2) (head : Machine.PtpHead) (seq : Nat) (twoStep : Bool) (t1 : Int) (corr : Int),
    s.hub.powered = true → s.hub.ptpAccept p head = (s.hub, true) → s.hub.clk.held = false → (s.hub.port p).ptp.master = some (head.sender,
      head.portNo) → twoStep = false → (s.hub.port p).ptp.servo = .suspect →
    Does (.ptpSyncReceive p head seq twoStep t1 corr) s [.net] fun t => t.port p =
      { s.hub.port p with ptp := { (s.hub.port p).ptp with lastSync := some (t1, s.hub.ingress p, corr), syncAt := s.hub.xoCycles,
                                                           syncLog := head.logInt } } ∧ (∀ k : Nat, k ≠ p.val → t.port k = s.hub.port k)) ∧
  (∀ (s : State) (p : Fin 2) (head : Machine.PtpHead) (seq : Nat) (twoStep : Bool) (t1 : Int) (corr : Int),
    s.hub.powered = true → s.hub.net.active = some p.val → (s.hub.portCfg p).ptp.enable = true → s.hub.clk.held = false →
      (s.hub.port p).link = true → head.domain ≠ (s.hub.portCfg p).ptp.domain →
    Does (.ptpSyncReceive p head seq twoStep t1 corr) s [.net] fun t => t.port p =
      { s.hub.port p with ptp := { (s.hub.port p).ptp with ignored := sat32 ((s.hub.port p).ptp.ignored + 1) } } ∧ (∀ k : Nat, k ≠ p.val →
      t.port k = s.hub.port k)) ∧
  (∀ (s : State) (p : Fin 2) (head : Machine.PtpHead) (seq : Nat) (t1 : Int) (corr : Int) (t2 : Int) (c : Int),
    s.hub.powered = true → s.hub.ptpAccept p head = (s.hub, true) → s.hub.clk.held = false → (s.hub.port p).ptp.master = some (head.sender,
      head.portNo) → (s.hub.port p).ptp.sync = some (seq, t2, c) → (s.hub.port p).ptp.servo = .suspect →
    Does (.ptpFollowUpReceive p head seq t1 corr) s [.net] fun t => t.port p =
      { s.hub.port p with ptp := { (s.hub.port p).ptp with sync := none, lastSync := some (t1, t2, c + corr) } } ∧ (∀ k : Nat, k ≠ p.val →
      t.port k = s.hub.port k)) ∧
  (∀ (s : State) (p : Fin 2) (head : Machine.PtpHead) (seq : Nat) (t1 : Int) (corr : Int),
    s.hub.powered = true → s.hub.ptpAccept p head = (s.hub, true) → (s.hub.port p).ptp.sync = none →
    Does (.ptpFollowUpReceive p head seq t1 corr) s [] fun _ => True) ∧
  (∀ (s : State) (p : Fin 2) (head : Machine.PtpHead) (seq : Nat) (t4 : Int) (corr : Int) (r : DelReq) (a1 : Int) (a2 : Int) (c : Int),
    s.hub.powered = true → s.hub.ptpAccept p head = (s.hub, true) → s.hub.clk.held = false → (s.hub.port p).ptp.master = some (head.sender,
      head.portNo) → (s.hub.port p).ptp.req = some r → r.seq = seq → (s.hub.port p).ptp.lastSync = some (a1, a2, c) →
      (s.hub.portCfg p).ptp.p2p = false → (s.hub.port p).ptp.servo = .acquiring →
    Does (.ptpDelayRespReceive p head seq t4 corr) s [.net] fun t => (t.port p).ptp.req = none ∧
      (t.port p).ptp.d = some (roundDiv ((a2 - r.t3) + (t4 - a1) - c - corr) 2) ∧ (t.port p).ptp.servo = .acquiring ∧
      (t.port p).ptp.masters = (s.hub.port p).ptp.masters ∧ (∀ k : Nat, k ≠ p.val → t.port k = s.hub.port k)) ∧
  (∀ (s : State) (p : Fin 2) (head : Machine.PtpHead) (ann : Machine.Announce),
    s.hub.powered = true → s.hub.ptpAccept p head = (s.hub, true) → (s.hub.port p).ptp.masters = [] →
    Does (.ptpAnnounceReceive p head ann) s [.net] fun t => t.port p =
      { s.hub.port p with ptp := { (s.hub.port p).ptp with masters := [{ ann := { ann with id := head.sender, port := head.portNo },
                                                                         at_ := s.hub.xoCycles, prev := none, logInt := head.logInt }] } } ∧
      (∀ k : Nat, k ≠ p.val → t.port k = s.hub.port k)) ∧
  (∀ (s : State) (p : Fin 2) (head : Machine.PtpHead) (ann : Machine.Announce) (o : Heard),
    s.hub.powered = true → s.hub.ptpAccept p head = (s.hub, true) → (s.hub.port p).ptp.masters = [o] → o.ann.id = head.sender →
      o.ann.port = head.portNo → ann.steps < 255 → s.hub.xoCycles ≤ o.at_ + intervalXo 4 (s.hub.annLog p
      { ann := { ann with id := head.sender, port := head.portNo }, at_ := s.hub.xoCycles, prev := some o.at_, logInt := head.logInt }) →
      (s.hub.port p).ptp.master ≠ some (head.sender, head.portNo) →
    Does (.ptpAnnounceReceive p head ann) s [.host, .evt, .tb, .jrn, .sto, .tiu, .net, .tx] fun t => (t.port p).ptp.master = some
      (head.sender, head.portNo) ∧ (t.port p).ptp.servo = .acquiring ∧ (t.port p).ptp.d = none ∧ (t.port p).ptp.baseline = none ∧
      (t.port p).ptp.masters = [{ ann := { ann with id := head.sender, port := head.portNo }, at_ := s.hub.xoCycles, prev := some o.at_,
                                  logInt := head.logInt }] ∧ (∀ k : Nat, k ≠ p.val → t.port k = s.hub.port k)) ∧
  (∀ (s : State) (p : Fin 2) (head : Machine.PtpHead) (seq : Nat),
    s.hub.powered = true → s.hub.ptpAccept p head = (s.hub, true) → s.hub.clk.held = false → (s.hub.portCfg p).ptp.p2p = true →
      s.hub.guardBlocks p (s.hub.ptpLen p 3) = false →
    Does (.ptpPdelayReqReceive p head seq) s [.tx] fun t => ((s.hub.portCfg p).ptp.oneStep = true →
      ∃ a b, t.tx = s.hub.tx ++ [.ptp p a 3 b]) ∧ ((s.hub.portCfg p).ptp.oneStep = false → ∃ a b c d, t.tx = s.hub.tx ++ [.ptp p a 3 b, .ptp
      p c 10 d])) ∧
  (∀ (s : State) (p : Fin 2) (head : Machine.PtpHead) (seq : Nat),
    s.hub.powered = true → s.hub.ptpAccept p head = (s.hub, true) → s.hub.clk.held = false → (s.hub.portCfg p).ptp.p2p = true →
      s.hub.guardBlocks p (s.hub.ptpLen p 3) = true →
    Does (.ptpPdelayReqReceive p head seq) s [.net] fun t => t.port p =
      { s.hub.port p with defer := (s.hub.port p).defer ++ [.pdelayResp seq (s.hub.ingress p)] } ∧ (∀ k : Nat, k ≠ p.val →
      t.port k = s.hub.port k)) ∧
  (∀ (s : State) (p : Fin 2) (head : Machine.PtpHead) (seq : Nat),
    s.hub.powered = true → s.hub.ptpAccept p head = (s.hub, true) → (s.hub.portCfg p).ptp.p2p = false →
    Does (.ptpPdelayReqReceive p head seq) s [] fun _ => True) ∧
  (∀ (s : State) (p : Fin 2) (head : Machine.PtpHead) (seq : Nat) (followUp : Bool) (twoStep : Bool) (t0 : Int) (corr : Int) (r : DelReq),
    s.hub.powered = true → s.hub.ptpAccept p head = (s.hub, true) → s.hub.clk.held = false → (s.hub.portCfg p).ptp.p2p = true →
      followUp = false → twoStep = true → (s.hub.port p).ptp.req = some r → r.seq = seq →
    Does (.ptpPdelayRespReceive p head seq followUp twoStep t0 corr) s [.net] fun t => t.port p =
      { s.hub.port p with ptp := { (s.hub.port p).ptp with pResp := some (seq, s.hub.ingress p, t0, corr) } } ∧ (∀ k : Nat, k ≠ p.val →
      t.port k = s.hub.port k)) ∧
  (∀ (s : State) (p : Fin 2) (head : Machine.PtpHead) (seq : Nat) (followUp : Bool) (twoStep : Bool) (t0 : Int) (corr : Int) (r : DelReq)
    (a4 : Int) (a2 : Int) (c : Int),
    s.hub.powered = true → s.hub.ptpAccept p head = (s.hub, true) → s.hub.clk.held = false → (s.hub.portCfg p).ptp.p2p = true →
      followUp = true → (s.hub.port p).ptp.req = some r → r.seq = seq → (s.hub.port p).ptp.pResp = some (seq, a4, a2, c) →
      (s.hub.port p).ptp.servo = .acquiring →
    Does (.ptpPdelayRespReceive p head seq followUp twoStep t0 corr) s [.net] fun t => (t.port p).ptp.req = none ∧
      (t.port p).ptp.pResp = none ∧ (t.port p).ptp.d = some (roundDiv ((a4 - r.t3) - (t0 - a2) - c - corr) 2) ∧ (∀ k : Nat, k ≠ p.val →
      t.port k = s.hub.port k)) ∧
  (∀ (s : State) (p : Fin 2),
    s.hub.powered = true → s.hub.net.active = some p.val → (s.hub.portCfg p).ptp.enable = true → s.hub.clk.held = false →
      (s.hub.port p).link = true → ((s.hub.portCfg p).ptp.p2p = true ∨ (s.hub.port p).ptp.master.isSome = true) →
      (∀ a, (s.hub.port p).ptp.reqAt = some a → a + intervalXo 1 (s.hub.portCfg p).ptp.logDelay ≤ s.hub.xoCycles) →
      s.hub.guardBlocks p (s.hub.msgLen p .request) = false →
    Does (.ptpDelayReqTimer p) s [.net, .tx] fun t => ((s.hub.portCfg p).ptp.p2p = true →
      (t.port p).ptp.pdreqSeq = ((s.hub.port p).ptp.pdreqSeq + 1) % 65536 ∧ ∃ a b, t.tx = s.hub.tx ++ [.ptp p a 2 b]) ∧
      ((s.hub.portCfg p).ptp.p2p = false → (t.port p).ptp.dreqSeq = ((s.hub.port p).ptp.dreqSeq + 1) % 65536 ∧
      ∃ a b, t.tx = s.hub.tx ++ [.ptp p a 1 b]) ∧ (t.port p).ptp.req.isSome = true ∧ (t.port p).ptp.reqAt = some s.hub.xoCycles ∧
      (∀ k : Nat, k ≠ p.val → t.port k = s.hub.port k)) ∧
  (∀ (s : State) (p : Fin 2),
    s.hub.powered = true → s.hub.net.active = some p.val → (s.hub.portCfg p).ptp.enable = true →
    Does (.ptpMessageIgnored p) s [.net] fun t => t.port p =
      { s.hub.port p with ptp := { (s.hub.port p).ptp with ignored := sat32 ((s.hub.port p).ptp.ignored + 1) } } ∧ (∀ k : Nat, k ≠ p.val →
      t.port k = s.hub.port k)) ∧
  (∀ (s : State) (p : Fin 2),
    s.hub.powered = true → s.hub.net.active = none →
    Does (.ptpMessageIgnored p) s [] fun _ => True)

/-- The servo, re-routes, transmit stamps and launches (R253, R255, R256, R260, R262, R263, R264, R266). -/
def Obligations.ServoRows : Prop :=
  (∀ (s : State) (p : Fin 2) (announce : Bool),
    s.hub.powered = true → s.hub.net.active = some p.val → (s.hub.portCfg p).ptp.enable = true → s.hub.clk.held = false → (announce = true →
      s.hub.announceOut p = true) → (announce = false → (s.hub.port p).ptp.syncAt + intervalXo 4 (s.hub.port p).ptp.syncLog ≤
      s.hub.xoCycles) → ((s.hub.port p).ptp.servo = .locked ∨ (s.hub.port p).ptp.servo = .acquiring) →
    Does (.servoSyncTimeout p announce) s [.host, .evt, .tb, .jrn, .sto, .tiu, .net, .tx] fun t => (t.port p).ptp.servo = .holdover ∧
      (announce = true → (t.port p).ptp.master = none) ∧ (announce = false → (t.port p).ptp.master = (s.hub.port p).ptp.master) ∧
      (t.port p).ptp.bad = [] ∧ (∀ k : Nat, k ≠ p.val → t.port k = s.hub.port k)) ∧
  (∀ (s : State) (p : Fin 2) (announce : Bool),
    s.hub.powered = true → (s.hub.net.active ≠ some p.val ∨ (s.hub.portCfg p).ptp.enable = false ∨ s.hub.clk.held = true) →
    Does (.servoSyncTimeout p announce) s [] fun _ => True) ∧
  (∀ (s : State) (p : Nat),
    s.hub.powered = true → s.hub.net.active = some p → (s.hub.port p).ptp.servo = .qualHold → (s.hub.port p).ptp.noWindow = false →
      s.hub.clk.held = false → (s.hub.port p).ptp.winAt + 49152000 ≤ s.hub.xoCycles → s.hub.tb.qPps = false → s.hub.tb.qCasc = false →
    Does (.rrConfirmSecond) s [.net] fun t => t.port p =
      { s.hub.port p with ptp := { (s.hub.port p).ptp with winAt := (s.hub.port p).ptp.winAt + 49152000, winSecs := 0, deltas := [],
                                                           secO := [], secQ := [] } } ∧ (∀ k : Nat, k ≠ p → t.port k = s.hub.port k)) ∧
  (∀ (s : State) (p : Nat) (q : Int) (z : Int),
    s.hub.powered = true → s.hub.net.active = some p → (s.hub.port p).ptp.servo = .qualHold → (s.hub.port p).ptp.noWindow = false →
      s.hub.clk.held = false → (s.hub.port p).ptp.winAt + 49152000 ≤ s.hub.xoCycles → s.hub.tb.qPps = true →
      (s.hub.port p).ptp.qPre.1 = some q → (s.hub.port p).ptp.secO ≠ [] → (s.hub.port p).ptp.secQ = [(false, z)] →
      overNs (z - q) (s.hub.portCfg p).ptp.rrAgree = false → (s.hub.port p).ptp.winSecs + 1 < (s.hub.portCfg p).ptp.rrConfirm →
    Does (.rrConfirmSecond) s [.net] fun t => t.port p =
      { s.hub.port p with ptp := { (s.hub.port p).ptp with winAt := (s.hub.port p).ptp.winAt + 49152000,
                                                           winSecs := (s.hub.port p).ptp.winSecs + 1,
                                                           deltas := (s.hub.port p).ptp.deltas ++ [2 * (meanOf (s.hub.port p).ptp.secO - ((s.hub.port p).ptp.oPre + (z - q)))],
                                                           secO := [], secQ := [] } } ∧ (∀ k : Nat, k ≠ p → t.port k = s.hub.port k)) ∧
  (∀ (s : State),
    s.hub.powered = true → (s.hub.net.active = none ∨ ∃ p, s.hub.net.active = some p ∧ (s.hub.port p).ptp.servo ≠ .qualHold) →
    Does (.rrConfirmSecond) s [] fun _ => True) ∧
  (∀ (s : State) (p : Nat),
    s.hub.powered = true → s.hub.net.active = some p → (s.hub.port p).ptp.servo = .qualHold → (s.hub.port p).ptp.holdSince + (s.hub.portCfg
      p).ptp.rrHold * 49152000 ≤ s.hub.xoCycles → ((s.hub.port p).ptp.noWindow = true ∨ (s.hub.tb.qPps = false ∧ s.hub.tb.qCasc = false)) →
    Does (.rrHoldExpiry) s [.host, .evt, .tb, .jrn, .sto, .tiu, .net, .tx] fun t => (t.port p).ptp.servo = .acquiring ∧
      (t.port p).ptp.asymUnverified = true ∧ (t.port p).ptp.baseline = none ∧ (t.port p).ptp.bad = [] ∧ (∀ k : Nat, k ≠ p →
      t.port k = s.hub.port k)) ∧
  (∀ (s : State),
    s.hub.powered = true → s.hub.net.active = none →
    Does (.rrHoldExpiry) s [] fun _ => True) ∧
  (∀ (s : State) (ago : T64) (p : Nat) (f : OutFrame) (r : List OutFrame),
    s.hub.powered = true → s.hub.clk.held = false → s.hub.net.active = some p → (s.hub.port p).link = true →
      s.hub.guardBroken p ago = false → (s.hub.port p).defer.any PortMsg.event = false → s.hub.net.queue = f :: r → (f.ts = false ∨
      (s.hub.port p).txts.length < 16) →
    Does (.frameTransmitDone ago) s [.net, .tx] fun t => s.hub.tx ++ [.frame p (s.hub.frameOf f.buf f.len)] <+: t.tx ∧ t.net.queue = r ∧
      t.net.busy = s.hub.net.busy.erase f.buf ∧ (f.ts = true → (t.port p).txts = (s.hub.port p).txts ++ [{ tsId := f.tsId,
                                                                                                           net := s.hub.netT - ago + BitVec.ofInt 64 (s.hub.egressLat p),
                                                                                                           sample := s.hub.sampleT - ago + BitVec.ofInt 64 (s.hub.egressLat p),
                                                                                                           epoch := s.hub.tb.epoch }]) ∧
      (f.ts = false → t.port p = { s.hub.port p with defer := (t.port p).defer }) ∧ ((s.hub.port p).defer = [] →
      t.tx = s.hub.tx ++ [.frame p (s.hub.frameOf f.buf f.len)])) ∧
  (∀ (s : State) (ago : T64),
    s.hub.powered = true → (s.hub.net.queue = [] ∨ s.hub.clk.held = true) →
    Does (.frameTransmitDone ago) s [] fun _ => True) ∧
  (∀ (s : State) (p : Nat) (l : Launch),
    s.hub.powered = true → s.hub.clk.held = false → s.hub.net.active = some p → s.hub.launchNext p = some l →
      s.hub.launchLeft l ≤ (fr 12304 1000000000).t →
    Does (.launchGuardStart) s [.net] fun t => t.port p = { s.hub.port p with guarded := true } ∧ (∀ k : Nat, k ≠ p →
      t.port k = s.hub.port k)) ∧
  (∀ (s : State),
    s.hub.powered = true → (s.hub.net.active = none ∨ s.hub.clk.held = true) →
    Does (.launchGuardStart) s [] fun _ => True) ∧
  (∀ (s : State) (p : Nat) (l : Launch),
    s.hub.powered = true → s.hub.clk.held = false → s.hub.net.active = some p → (s.hub.port p).link = true → s.hub.launchNext p = some l →
      s.hub.launchLeft l ≤ s.hub.egressLat p → (l.send = true ∨ (s.hub.egressLat p - s.hub.launchLeft l) * 1000000000 ≤ l.tol * 2 ^ 32) →
    Does (.launchTransmit) s [.net, .host, .tx] fun t => s.hub.tx ++ [.frame p (s.hub.frameOf l.buf l.len)] <+: t.tx ∧
      (t.port p).launch = (s.hub.port p).launch.erase l ∧ (t.port p).guarded = false ∧ t.net.busy = s.hub.net.busy.erase l.buf ∧
      (∀ k : Nat, k ≠ p → t.port k = s.hub.port k)) ∧
  (∀ (s : State) (p : Nat) (l : Launch),
    s.hub.powered = true → s.hub.clk.held = false → s.hub.net.active = some p → (s.hub.port p).link = true → s.hub.launchNext p = some l →
      l.send = false → l.tol * 2 ^ 32 < (s.hub.egressLat p - s.hub.launchLeft l) * 1000000000 → s.hub.launchLeft l ≤ s.hub.egressLat p →
    Does (.launchTransmit) s [.net, .host, .evt, .tx] fun t => (∀ b, .frame p b ∈ t.tx → .frame p b ∈ s.hub.tx) ∧
      (t.port p).launch = (s.hub.port p).launch.erase l ∧ (t.port p).guarded = false ∧ t.net.busy = s.hub.net.busy.erase l.buf ∧
      (∀ k : Nat, k ≠ p → t.port k = s.hub.port k) ∧ t.evt.count.get 104 = s.hub.evt.count.get 104 + 1) ∧
  (∀ (s : State),
    s.hub.powered = true → (s.hub.net.active = none ∨ s.hub.clk.held = true) →
    Does (.launchTransmit) s [] fun _ => True)

/-- Ferry acknowledgements and verdicts (R328, R329, R443, R444, R445, R446). -/
def Obligations.FerryRows : Prop :=
  (∀ (s : State) (header : List Byte) (plain : List Byte) (cipher : List Byte),
    s.hub.powered = true → header.length ≠ 20 →
    Does (.ferryAckReceive header plain cipher) s [] fun _ => True) ∧
  (∀ (s : State) (header : List Byte) (plain : List Byte) (cipher : List Byte),
    s.hub.powered = true → s.hub.clk.held = false → header.length = 20 → at_ header 0 2 = 0x4653 → at_ header 2 1 = 1 → at_ header 3 1 = 1 →
      s.hub.ferryAuth header plain cipher = false →
    Does (.ferryAckReceive header plain cipher) s [.jrn, .host, .evt, .tx] fun t => t.jrn =
      { s.hub.jrn with ferry := { s.hub.jrn.ferry with authFail := sat32 (s.hub.jrn.ferry.authFail + 1) } }) ∧
  (∀ (s : State) (header : List Byte) (plain : List Byte) (cipher : List Byte),
    s.hub.powered = true → s.hub.clk.held = false → header.length = 20 → at_ header 0 2 = 0x4653 → at_ header 2 1 = 1 → at_ header 3 1 = 1 →
      s.hub.ferryAuth header plain cipher = true → s.hub.jrn.ferry.rxSeq.get (at_ header 8 4) ≤ at_ header 12 8 →
    Does (.ferryAckReceive header plain cipher) s [.host, .evt, .jrn, .sto, .flt, .sl, .net, .casc, .tx] fun t => t.jrn.ferry.rxSeq.get (at_
      header 8 4) = at_ header 12 8 + 1 ∧ t.jrn.ferry.authFail = s.hub.jrn.ferry.authFail) ∧
  (∀ (s : State),
    s.hub.powered = true → s.hub.jrn.ferry.flight ≠ [] → s.hub.clk.held = false → s.hub.jrn.ferry.since + (s.hub.cons 1).ackTimeout * 49152
      ≤ s.hub.xoCycles →
    Does (.ferryAckTimeout) s [.host, .evt, .jrn, .net, .tx] fun t => t.jrn.ferry.flight = [] ∧ t.jrn.ferry.restart = true ∧
      (t.jrn.consumers.get 1).next = (s.hub.jrn.consumers.get 1).ackTo ∧ (t.jrn.consumers.get 1).ackTo = (s.hub.jrn.consumers.get 1).ackTo ∧
      t.net.resends = s.hub.net.resends + 1) ∧
  (∀ (s : State),
    s.hub.powered = true → (s.hub.jrn.ferry.flight = [] ∨ s.hub.clk.held = true) →
    Does (.ferryAckTimeout) s [] fun _ => True) ∧
  (∀ (s : State) (p : Fin 2) (head : Machine.UdpHead) (plain : List Byte) (cipher : List Byte),
    s.hub.powered = true → (s.hub.port p).st ≠ .off → (s.hub.port p).link = true → head.port = s.hub.cfg.net.verdictPort →
      s.hub.ferryAuth head.bytes plain cipher = false →
    Does (.verdictDatagramReceive p head plain cipher) s [.net, .host, .evt, .tx] fun t => t.net =
      { s.hub.net with rejects := sat32 (s.hub.net.rejects + 1) }) ∧
  (∀ (s : State) (p : Fin 2) (head : Machine.UdpHead) (plain : List Byte) (cipher : List Byte),
    s.hub.powered = true → (s.hub.port p).st ≠ .off → (s.hub.port p).link = true → head.port = s.hub.cfg.net.verdictPort →
      s.hub.ferryAuth head.bytes plain cipher = true → head.bytes.take 4 = [0x53, 0x46, 1, 2] → head.bytes.length = 20 → plain.length = 16 →
      at_ head.bytes 4 1 = 255 → at_ plain 0 1 = s.hub.sys.straps.hubId → 0 < diff32 (at_ plain 4 4) s.hub.net.vseq →
      s.hub.cfg.net.arbMode ≠ 2 →
    Does (.verdictDatagramReceive p head plain cipher) s [.net, .host, .evt, .tx] fun t => t.net = { s.hub.net with vseq := at_ plain 4 4,
                                                                                                                    ignored := sat32 (s.hub.net.ignored + 1) }) ∧
  (∀ (s : State) (p : Fin 2) (head : Machine.UdpHead) (plain : List Byte) (cipher : List Byte),
    s.hub.powered = true → (s.hub.port p).st ≠ .off → (s.hub.port p).link = true → head.port = s.hub.cfg.net.verdictPort →
      s.hub.ferryAuth head.bytes plain cipher = true → head.bytes.take 4 = [0x53, 0x46, 1, 2] → head.bytes.length = 20 → plain.length = 16 →
      at_ head.bytes 4 1 = 255 → at_ plain 0 1 = s.hub.sys.straps.hubId → 0 < diff32 (at_ plain 4 4) s.hub.net.vseq →
      s.hub.cfg.net.arbMode = 2 → s.hub.clk.held = false → s.hub.net.failover = none → s.hub.isActive (at_ plain 1 1 % 2) = false →
      (s.hub.portCfg (at_ plain 1 1 % 2)).enable = true →
    Does (.verdictDatagramReceive p head plain cipher) s [.host, .evt, .tb, .jrn, .sto, .tiu, .net, .tx] fun t => t.net.vseq = at_ plain 4 4
      ∧ t.net.failovers = sat32 (s.hub.net.failovers + 1) ∧ ∃ f, t.net.failover = some f ∧ f.dest = at_ plain 1 1 % 2 ∧
      f.from_ = s.hub.net.active.getD (otherPort (at_ plain 1 1 % 2)) ∧ f.source = 2 ∧ f.handle = none ∧ f.causes = s.hub.net.causes ∧
      f.verdictT = s.hub.sampleT ∧ f.active = false) ∧
  (∀ (s : State) (p : Fin 2) (head : Machine.UdpHead) (plain : List Byte) (cipher : List Byte),
    s.hub.powered = true → (s.hub.port p).st ≠ .off → (s.hub.port p).link = true → head.port = s.hub.cfg.net.verdictPort →
      s.hub.ferryAuth head.bytes plain cipher = true → head.bytes.take 4 = [0x53, 0x46, 1, 2] → head.bytes.length = 20 → plain.length = 16 →
      at_ head.bytes 4 1 = 255 → at_ plain 0 1 = s.hub.sys.straps.hubId → 0 < diff32 (at_ plain 4 4) s.hub.net.vseq →
      s.hub.cfg.net.arbMode = 2 → s.hub.clk.held = false → s.hub.net.failover = none → s.hub.isActive (at_ plain 1 1 % 2) = true →
    Does (.verdictDatagramReceive p head plain cipher) s [.net] fun t => t.net = { s.hub.net with vseq := at_ plain 4 4 }) ∧
  (∀ (s : State) (p : Nat) (k : KeySlot),
    s.hub.powered = true → s.hub.net.suspect = true → s.hub.cfg.net.arbMode = 2 → (∀ a, s.hub.net.suspectAt = some a →
      a + 49152000 ≤ s.hub.xoCycles) → s.hub.net.active = some p → s.hub.ferryKey = some k → s.hub.msgWaits p (.ferry 3 16 s.hub.ferryDest
      [] []) = false →
    Does (.suspectDatagramTimer) s [.jrn, .net, .tx] fun t => t.jrn =
      { s.hub.jrn with ferry := { s.hub.jrn.ferry with seq := s.hub.jrn.ferry.seq + 1 } } ∧
      t.net = { s.hub.net with suspectAt := some s.hub.xoCycles } ∧ ∃ a b, t.tx = s.hub.tx ++ [.ferry p 3 s.hub.ferryDest a b]) ∧
  (∀ (s : State),
    s.hub.powered = true → (s.hub.net.suspect = false ∨ s.hub.cfg.net.arbMode ≠ 2) →
    Does (.suspectDatagramTimer) s [] fun _ => True) ∧
  (∀ (s : State) (level : Bool),
    s.hub.powered = true → s.hub.cfg.net.arbMode ≠ 1 → s.hub.clk.held = false →
    Does (.arbSelStable level) s [.net, .host, .evt, .tx] fun t => t.net = { s.hub.net with arbSel := level,
                                                                                            ignored := sat32 (s.hub.net.ignored + 1) } ∧
      t.evt.count.get 107 = s.hub.evt.count.get 107 + 1) ∧
  (∀ (s : State) (level : Bool),
    s.hub.powered = true → s.hub.cfg.net.arbMode = 1 → s.hub.clk.held = true →
    Does (.arbSelStable level) s [.net, .host, .tx] fun t => t.net = { s.hub.net with arbSel := level,
                                                                                      heldVerdict := some (flag level 0, 1, none) })

/-- Links, suspicion, failover, self-tests and path health (R442, R443, R444, R448, R451, R453, R454, R456). -/
def Obligations.PathRows : Prop :=
  (∀ (s : State) (p : Fin 2) (up : Bool),
    s.hub.powered = true → up = true → (s.hub.clk.mon.get 4).failed = false → (s.hub.port p).link = false → (s.hub.port p).st = .standby →
      s.hub.net.active ≠ some p.val →
    Does (.netLinkChange p up) s [.net] fun t => t.port p = { s.hub.port p with link := true } ∧ (∀ k : Nat, k ≠ p.val →
      t.port k = s.hub.port k)) ∧
  (∀ (s : State) (p : Fin 2) (up : Bool),
    s.hub.powered = true → up = false → (s.hub.port p).link = true → (s.hub.port p).st = .standby → s.hub.net.active ≠ some p.val →
      (∀ a, s.hub.net.active = some a → (s.hub.port a).link = true ∨ (s.hub.port a).launch = []) →
    Does (.netLinkChange p up) s [.host, .evt, .jrn, .sto, .net, .tx] fun t => t.port p = { s.hub.port p with st := .faulted, link := false,
                                                                                                              linkSince := (s.hub.port p).tests == 0,
                                                                                                              resolved := false,
                                                                                                              linkLoss := (s.hub.port p).linkLoss + 1,
                                                                                                              prbs := false, echoAt := none,
                                                                                                              resolve := none } ∧
      (∀ k : Nat, k ≠ p.val → t.port k = s.hub.port k)) ∧
  (∀ (s : State) (p : Fin 2) (up : Bool),
    s.hub.powered = true → (s.hub.port p).link = up →
    Does (.netLinkChange p up) s [] fun _ => True) ∧
  (∀ (s : State) (p : Fin 2) (v6 : Bool) (addr : List Word) (data : List Byte),
    s.hub.powered = true → addrOk v6 addr = true → s.hub.net.active = some p.val → (s.hub.port p).link = true →
      (if v6 then s.hub.cfg.net.ipv6En = true ∧ addr = s.hub.cfg.net.ipv6 else addr = [s.hub.cfg.net.ipv4]) →
      s.hub.guardBlocks p (s.hub.msgLen p (.net 4 v6 ((s.hub.portCfg p).mac ++ bytesOf addr ++ data))) = false →
    Does (.netAddrRequest p v6 addr data) s [.tx] fun t => t.tx = s.hub.tx ++ [.net p 4 ((s.hub.portCfg p).mac ++ bytesOf addr ++ data)]) ∧
  (∀ (s : State) (p : Fin 2) (v6 : Bool) (addr : List Word) (data : List Byte),
    s.hub.powered = true → addrOk v6 addr = true → (s.hub.net.active ≠ some p.val ∨ (s.hub.port p).link = false) →
    Does (.netAddrRequest p v6 addr data) s [] fun _ => True) ∧
  (∀ (s : State) (p : Fin 2) (router : List Byte),
    s.hub.powered = true → routerOk router = true → s.hub.net.active = some p.val → s.hub.cfg.net.ipv6En = true →
    Does (.routerAdvertisementReceive p router) s [.net] fun t => t.net =
      { s.hub.net with routers := if router ∈ s.hub.net.routers then s.hub.net.routers else s.hub.net.routers ++ [router] }) ∧
  (∀ (s : State) (fcs : Nat) (p : Nat) (i : Nat),
    s.hub.powered = true → s.hub.net.active = some p → s.hub.net.suspect = false → i < 5 →
      ((s.hub.noteErrors fcs).net.causes &&& s.hub.cfg.net.suspMask).testBit i = true →
      (s.hub.noteErrors fcs).net.causeAt.get i + s.hub.cfg.net.suspDeb * 49152 ≤ s.hub.xoCycles →
    Does (.suspectDebounce fcs) s [.host, .evt, .jrn, .sto, .net, .tx] fun t => t.net.suspect = true ∧
      t.net.suspects = sat32 (s.hub.net.suspects + 1) ∧ t.net.causes = (s.hub.noteErrors fcs).net.causes ∧ t.net.ports = s.hub.net.ports) ∧
  (∀ (s : State) (fcs : Nat),
    s.hub.powered = true → (∀ i : Nat, i < 5 → ((s.hub.noteErrors fcs).net.causes &&& s.hub.cfg.net.suspMask).testBit i = true →
      s.hub.xoCycles < (s.hub.noteErrors fcs).net.causeAt.get i + s.hub.cfg.net.suspDeb * 49152) →
    Does (.suspectDebounce fcs) s [.net] fun t => t = s.hub.noteErrors fcs ∧ t.net = { s.hub.net with causes := t.net.causes,
                                                                                                      causeAt := t.net.causeAt,
                                                                                                      clearAt := t.net.clearAt }) ∧
  (∀ (s : State) (fcs : Nat) (p : Nat),
    s.hub.powered = true → s.hub.net.active = some p → s.hub.net.suspect = true → (s.hub.noteErrors fcs).causeHeld = false →
      (s.hub.noteErrors fcs).net.clearAt + s.hub.cfg.net.suspDeb * 49152 ≤ s.hub.xoCycles →
    Does (.suspectClear fcs) s [.host, .evt, .jrn, .sto, .net, .tx] fun t => t.net.suspect = false ∧ t.net.suspects = s.hub.net.suspects ∧
      t.net.ports = s.hub.net.ports) ∧
  (∀ (s : State) (f : Failover),
    s.hub.powered = true → s.hub.net.failover = some f → f.active = false → (s.hub.port f.dest).link = true →
      s.hub.guardBlocks f.dest 60 = false →
    Does (.failoverActivate) s [.host, .evt, .tb, .jrn, .sto, .tiu, .net, .tx] fun t => t.net.active = some f.dest ∧
      t.net.failover = some { f with active := true, traffic := some s.hub.sampleT } ∧ (t.port f.dest).st = .active ∧
      (t.port f.dest).ptp.servo = (s.hub.port f.dest).ptp.servo ∧ ∃ b, .net f.dest 0 b ∈ t.tx) ∧
  (∀ (s : State),
    s.hub.powered = true → s.hub.net.failover = none →
    Does (.failoverActivate) s [] fun _ => True) ∧
  (∀ (s : State) (f : Failover),
    s.hub.powered = true → s.hub.net.failover = some f → f.active = true → s.hub.net.verdict = none →
    Does (.failoverComplete) s [.host, .evt, .tb, .jrn, .sto, .tiu, .net, .tx, .free] fun t => t.net = { s.hub.net with failover := none,
                                                                                                                        resends := 0 }) ∧
  (∀ (s : State),
    s.hub.powered = true → s.hub.net.failover = none →
    Does (.failoverComplete) s [] fun _ => True) ∧
  (∀ (s : State) (p : Fin 2),
    s.hub.powered = true → (s.hub.portCfg p).enable = true → (s.hub.port p).link = true → (s.hub.port p).st ≠ .off →
      s.hub.net.active ≠ some p.val → (∀ a, (s.hub.port p).testAt = some a → a + s.hub.cfg.net.selfInt * 49152000 ≤ s.hub.xoCycles) →
    Does (.selftestTimer p) s [.net] fun t => t.port p = { s.hub.port p with prbs := true, prbsOk := false, echoOk := false, echoAt := none,
                                                                             resolve := none, testAt := some s.hub.xoCycles,
                                                                             tests := (s.hub.port p).tests + 1, testT := s.hub.sampleT } ∧
      (∀ k : Nat, k ≠ p.val → t.port k = s.hub.port k)) ∧
  (∀ (s : State) (p : Fin 2) (errors : Nat),
    s.hub.powered = true → (s.hub.port p).prbs = true → s.hub.net.active ≠ some p.val →
    Does (.prbsTestDone p errors) s [.net, .tx] fun t => (t.port p).prbs = false ∧ (t.port p).prbsErr = errors ∧
      (t.port p).prbsOk = (errors == 0) ∧ (t.port p).st = (s.hub.port p).st ∧ (∀ k : Nat, k ≠ p.val → t.port k = s.hub.port k)) ∧
  (∀ (s : State) (p : Fin 2) (errors : Nat),
    s.hub.powered = true → (s.hub.port p).prbs = false →
    Does (.prbsTestDone p errors) s [] fun _ => True) ∧
  (∀ (s : State) (p : Fin 2) (seq : Nat) (n : Nat),
    s.hub.powered = true → s.hub.net.active = some p.val → (s.hub.port p).echoAt = some n → seq = (s.hub.port p).echoSeq →
      (s.hub.xoCycles - n) * 1000000 / 49152000 ≤ s.hub.cfg.net.echoTo * 1000 →
    Does (.echoReplyReceive p seq) s [.net] fun t => t.port p = { s.hub.port p with echoAt := none, echoOk := true,
                                                                                    rtt := (s.hub.xoCycles - n) * 1000000 / 49152000,
                                                                                    echoMiss := 0 } ∧ (∀ k : Nat, k ≠ p.val →
      t.port k = s.hub.port k)) ∧
  (∀ (s : State) (p : Fin 2) (seq : Nat),
    s.hub.powered = true → (s.hub.port p).echoAt = none →
    Does (.echoReplyReceive p seq) s [] fun _ => True) ∧
  (∀ (s : State) (p : Fin 2) (n : Nat),
    s.hub.powered = true → s.hub.net.active = some p.val → (s.hub.port p).echoAt = some n →
      n + s.hub.cfg.net.echoTo * 49152 ≤ s.hub.xoCycles →
    Does (.echoTimeout p) s [.net] fun t => t.port p = { s.hub.port p with echoAt := none, resolve := none, echoOk := false,
                                                                           rtt := 0xFFFFFFFF, echoMiss := (s.hub.port p).echoMiss + 1 } ∧
      (∀ k : Nat, k ≠ p.val → t.port k = s.hub.port k)) ∧
  (∀ (s : State) (p : Fin 2),
    s.hub.powered = true → (s.hub.port p).echoAt = none → (s.hub.port p).resolve = none →
    Does (.echoTimeout p) s [] fun _ => True) ∧
  (∀ (s : State) (p : Fin 2),
    s.hub.powered = true → (s.hub.port p).resolve.isSome = true → s.hub.guardBlocks p (if s.hub.cfg.net.echoV6 then 86 else 60) = false →
      (s.hub.port p).link = true → (s.hub.port p).st ≠ .off →
    Does (.addressResolutionReply p) s [.net, .tx] fun t => (t.port p).resolved = true ∧ (t.port p).resolve = none ∧
      (t.port p).echoAt = some s.hub.xoCycles ∧ (∃ b, t.tx = s.hub.tx ++ [.net p 3 b]) ∧ (∀ k : Nat, k ≠ p.val → t.port k = s.hub.port k)) ∧
  (∀ (s : State) (p : Nat),
    s.hub.powered = true → s.hub.net.active = some p → (s.hub.port p).ptp.servo = .locked → s.hub.net.suspect = false →
      (∀ z, s.hub.net.snap = some z → z.at_ + 49152000 ≤ s.hub.xoCycles) →
    Does (.snapshotTimer) s [.net] fun t => t.net = { s.hub.net with snap := t.net.snap, snapSeq := s.hub.net.snapSeq + 1 } ∧
      ∃ z, t.net.snap = some z ∧ z.seq = s.hub.net.snapSeq + 1 ∧ z.port = p ∧ z.inc = s.hub.tb.netInc ∧ z.net = s.hub.netT ∧
      z.loc = s.hub.localT) ∧
  (∀ (s : State),
    s.hub.powered = true → (s.hub.net.active = none ∨ s.hub.net.suspect = true) →
    Does (.snapshotTimer) s [] fun _ => True) ∧
  (∀ (s : State) (p : Fin 2) (fcs : Nat),
    s.hub.powered = true → (s.hub.port p).st ≠ .off → (∀ a, (s.hub.port p).healthAt = some a →
      a + s.hub.cfg.net.healthInt * 49152000 ≤ s.hub.xoCycles) →
    Does (.pathHealthTimer p fcs) s [.host, .evt, .jrn, .sto, .net, .tx] fun t => t.port p =
      { s.hub.port p with fcsErr := (s.hub.port p).fcsErr + fcs, healthAt := some s.hub.xoCycles } ∧ (∀ k : Nat, k ≠ p.val →
      t.port k = s.hub.port k)) ∧
  (∀ (s : State) (p : Fin 2) (fcs : Nat),
    s.hub.powered = true → (s.hub.port p).st = .off →
    Does (.pathHealthTimer p fcs) s [] fun _ => True)

/-- Edges, interval units, gates and lines of the time-interval unit (R130, R277, R281, R282, R283, R285, R287, R289). -/
def Obligations.TiuRows : Prop :=
  (∀ (s : State) (i : Fin 8) (falling : Bool) (tap : Fin 512) (drained : Nat),
    s.hub.powered = true → s.hub.clk.held = false → s.hub.tiu.calAll = false → (s.hub.tiuIn i).mode ≠ 0 → i.val ∉ s.hub.tiu.lost →
      ((s.hub.tiuIn i).edge = 2 ∨ ((s.hub.tiuIn i).edge == 1) = falling) → s.hub.tiu.lastEdge.get i = none →
      s.hub.tiu.lastPulse.get i = none → (s.hub.tiuIn i).presc = 0 → s.hub.tiu.fifo - drained < 448 →
    Does (.tiuEdge i falling tap drained) s [.host, .evt, .jrn, .sto, .tiu, .tx] fun t => t.tiu.fifo = s.hub.tiu.fifo - drained + 1 ∧
      t.tiu.lastEdge.get i = some (s.hub.mkStamp i tap.val 0) ∧ ((s.hub.tiuIn i).mode = 3 →
      t.tiu.tach = s.hub.tiu.tach ++ [(i.val, (s.hub.mkStamp i tap.val (s.hub.tiuIn i).dly).t, s.hub.tiu.tachCut.contains i.val)]) ∧
      ((s.hub.tiuIn i).mode ≠ 3 → t.tiu.tach = s.hub.tiu.tach)) ∧
  (∀ (s : State) (i : Fin 8) (falling : Bool) (tap : Fin 512) (drained : Nat),
    s.hub.powered = true → s.hub.clk.held = false → s.hub.tiu.calAll = false → (s.hub.tiuIn i).mode ≠ 0 → i.val ∉ s.hub.tiu.lost →
      ((s.hub.tiuIn i).edge = 2 ∨ ((s.hub.tiuIn i).edge == 1) = falling) → s.hub.tiu.lastEdge.get i = none →
      s.hub.tiu.lastPulse.get i = none → (s.hub.tiuIn i).presc = 0 → (s.hub.tiuIn i).mode ≠ 3 → 448 ≤ s.hub.tiu.fifo - drained →
      s.hub.tiu.overflowRaised = false →
    Does (.tiuEdge i falling tap drained) s [.host, .evt, .tiu, .tx] fun t => t.tiu.fifo = s.hub.tiu.fifo - drained ∧
      t.tiu.overflowRaised = true ∧ t.tiu.lastEdge.get i = some (s.hub.mkStamp i tap.val 0) ∧ t.tiu.queues = s.hub.tiu.queues ∧
      t.evt.count.get 50 = s.hub.evt.count.get 50 + 1) ∧
  (∀ (s : State) (i : Fin 8) (falling : Bool) (tap : Fin 512) (drained : Nat),
    s.hub.powered = true → ((s.hub.tiuIn i).mode = 0 ∨ s.hub.clk.held = true) →
    Does (.tiuEdge i falling tap drained) s [.tiu] fun t => t.tiu = { s.hub.tiu with fifo := s.hub.tiu.fifo - drained,
                                                                                     overflowRaised := s.hub.tiu.overflowRaised && decide (256 < s.hub.tiu.fifo - drained) }) ∧
  (∀ (s : State) (u : Fin 8) (z : Stamp),
    s.hub.powered = true → s.hub.tiu.held.get u = some z → (s.hub.tiuUnit u).winMax * 2 ^ 40 ≤ (cyc40 s.hub.tb.cycles - z.free) * 1000000000
      →
    Does (.iuWinTimeout u) s [.tiu] fun t => t.tiu.held.get u = none ∧ (∀ k : Nat, k ≠ u.val → t.tiu.held.get k = s.hub.tiu.held.get k) ∧
      t.tiu = { s.hub.tiu with held := t.tiu.held, replaced := t.tiu.replaced,
                               counts := bump s.hub.tiu.counts (16 * (8 + u.val) + cTIMEOUT) 1 }) ∧
  (∀ (s : State) (u : Fin 8),
    s.hub.powered = true → s.hub.tiu.held.get u = none →
    Does (.iuWinTimeout u) s [] fun _ => True) ∧
  (∀ (s : State) (i : Fin 8) (g : Gate),
    s.hub.powered = true → s.hub.tiu.gates.find? (fun x => x.input == i.val && decide (x.cyc + x.ms * 122880 ≤ s.hub.tb.cycles)) = some g →
      (∀ x ∈ s.hub.tiu.gates, x.land = false) →
    Does (.tiuFreqGateEnd i) s [.tiu, .host, .tx] fun t => (∀ x ∈ t.tiu.gates, x.input ≠ i.val) ∧ t.tiu.queues = s.hub.tiu.queues ∧
      t.tiu.gates.length = (s.hub.tiu.gates.filter (·.input != i.val)).length) ∧
  (∀ (s : State) (i : Fin 8),
    s.hub.powered = true → s.hub.tiu.gates = [] →
    Does (.tiuFreqGateEnd i) s [] fun _ => True) ∧
  (∀ (s : State),
    s.hub.powered = true → s.hub.clk.held = false → s.hub.tiu.calAll = false → s.hub.tiu.noSpare = false → s.hub.tiu.handover = none →
      s.hub.tiu.calLine = none → (∀ k : Nat, k < 10 → s.hub.tiuLine k ≠ 10) → s.hub.passed s.hub.tiu.calAt (s.hub.tiu.calUse * 4915200) =
      true →
    Does (.tiuCalTimer) s [.tiu] fun t => t.tiu = { s.hub.tiu with handover := some (s.hub.tiu.nextCal % 10, false),
                                                                   handoverAt := s.hub.xoCycles, nextCal := (s.hub.tiu.nextCal + 1) % 10,
                                                                   calAt := some s.hub.xoCycles, calUse := s.hub.cfg.tiu.calInt }) ∧
  (∀ (s : State),
    s.hub.powered = true → (s.hub.clk.held = true ∨ s.hub.tiu.noSpare = true ∨ s.hub.tiu.handover.isSome = true) →
    Does (.tiuCalTimer) s [] fun _ => True) ∧
  (∀ (s : State) (pairs : List Machine.PairedStamp) (k : Nat) (back : Bool),
    s.hub.powered = true → s.hub.clk.held = false → s.hub.tiu.handover = some (k, back) → (pairs.length < 1024 →
      s.hub.tiu.handoverAt + 49152 ≤ s.hub.xoCycles) →
    Does (.tiuHandoverDone pairs) s [.tiu] fun t => t.tiu.handover = none ∧ t.tiuLine k = (if (pairs.all (s.hub.pairAgrees (s.hub.tiuLine k)
      (if back then k else 10)) = true) then (if back then k else 10) else s.hub.tiuLine k) ∧ (∀ j : Nat, j ≠ k →
      t.tiuLine j = s.hub.tiuLine j) ∧ t.tiu.calLine = (if (pairs.all (s.hub.pairAgrees (s.hub.tiuLine k) (if back then k else 10)) = true)
      ∧ back = false then some k else s.hub.tiu.calLine)) ∧
  (∀ (s : State) (pairs : List Machine.PairedStamp),
    s.hub.powered = true → pairs.length < 1024 → s.hub.xoCycles < s.hub.tiu.handoverAt + 49152 →
    Does (.tiuHandoverDone pairs) s [] fun _ => True) ∧
  (∀ (s : State) (pairs : List Machine.PairedStamp),
    s.hub.powered = true → (s.hub.clk.held = true ∨ s.hub.tiu.handover = none) →
    Does (.tiuHandoverDone pairs) s [] fun _ => True) ∧
  (∀ (s : State) (hits : List (List Nat)) (k : Nat),
    s.hub.powered = true → s.hub.clk.held = false → s.hub.tiu.calAll = false → s.hub.tiu.calLine = some k →
      lineGood (hits.headD []) = true →
    Does (.tiuCalDone hits) s [.tiu] fun t => t.tiu = { s.hub.tiu with calLine := none,
                                                                       taps := s.hub.tiu.taps.put k (tapSums (hits.headD [])),
                                                                       handover := some (k, true), handoverAt := s.hub.xoCycles }) ∧
  (∀ (s : State) (hits : List (List Nat)) (k : Nat),
    s.hub.powered = true → s.hub.clk.held = false → s.hub.tiu.calAll = false → s.hub.tiu.calLine = some k →
      lineGood (hits.headD []) = false → k ≠ 10 → s.hub.tiu.noSpare = true →
    Does (.tiuCalDone hits) s [.host, .evt, .tiu, .tx] fun t => t.tiu = { s.hub.tiu with calLine := none, failed := s.hub.tiu.failed ++ [k],
                                                                                         lost := s.hub.tiu.lost ++ [k] } ∧
      t.evt.count.get 51 = s.hub.evt.count.get 51 + 1) ∧
  (∀ (s : State) (hits : List (List Nat)),
    s.hub.powered = true → s.hub.clk.held = false → s.hub.tiu.calAll = true → s.hub.tiu.failed = [] → (∀ l : Nat, l < 11 →
      lineGood (hits.getD l []) = true) →
    Does (.tiuCalDone hits) s [.tiu] fun t => t.tiu = { s.hub.tiu with calAll := false, taps := t.tiu.taps } ∧ (∀ l : Nat, l < 11 →
      t.tiu.taps.get l = tapSums (hits.getD l []))) ∧
  (∀ (s : State) (i : Fin 8) (x : Nat × T64 × Bool),
    s.hub.powered = true → s.hub.tiu.tach.find? (·.1 == i.val) = some x →
    Does (.tachPulse i) s [.tiu, .flt] fun t => t.tiu.tach = s.hub.tiu.tach.erase x) ∧
  (∀ (s : State) (i : Fin 8),
    s.hub.powered = true → (∀ x ∈ s.hub.tiu.tach, x.1 ≠ i.val) →
    Does (.tachPulse i) s [] fun _ => True)

/-- Faults, scan visits and excitation outputs (R58, R66, R67, R69, R72, R74). -/
def Obligations.FrontEndRows : Prop :=
  (∀ (s : State) (ch : Fin 64) (pin : Fin 4) (above : Bool),
    s.hub.powered = true → s.hub.clk.held = false → (s.hub.fault ch).inFault = false →
    Does (.feFaultDeclare ch pin above) s [.host, .evt, .jrn, .act, .fe, .flt, .trg, .tx] fun t => (t.fault ch).inFault = true ∧
      (t.fault ch).declared = (s.hub.fault ch).declared + 1 ∧ (t.fault ch).pin = pin ∧ (t.fault ch).above = above ∧
      (t.fault ch).t = s.hub.sampleT ∧ (t.fault ch).till = none ∧ (∀ k : Nat, k ≠ ch.val → t.fault k = s.hub.fault k) ∧
      t.evt.count.get 32 = s.hub.evt.count.get 32 + 1) ∧
  (∀ (s : State) (ch : Fin 64) (pin : Fin 4) (above : Bool),
    s.hub.powered = true → ((s.hub.fault ch).inFault = true ∨ s.hub.clk.held = true) →
    Does (.feFaultDeclare ch pin above) s [] fun _ => True) ∧
  (∀ (s : State) (ch : Fin 64),
    s.hub.powered = true → s.hub.clk.held = false → (s.hub.fault ch).inFault = true →
    Does (.feFaultClearDeclare ch) s [.host, .evt, .fe, .tx] fun t => t.fault ch = { s.hub.fault ch with inFault := false,
                                                                                                         till := some s.hub.sampleT } ∧
      (∀ k : Nat, k ≠ ch.val → t.fault k = s.hub.fault k) ∧ t.evt.count.get 33 = s.hub.evt.count.get 33 + 1) ∧
  (∀ (s : State) (ch : Fin 64),
    s.hub.powered = true → s.hub.clk.held = false → (s.hub.fault ch).inFault = false →
    Does (.feExcursionEnd ch) s [.fe] fun t => t.fault ch = { s.hub.fault ch with excursions := (s.hub.fault ch).excursions + 1 } ∧
      (∀ k : Nat, k ≠ ch.val → t.fault k = s.hub.fault k)) ∧
  (∀ (s : State) (m : Fin 8) (e : Fin 9) (first : List Int) (second : List Int) (out : Bool) (above : Bool) (pin : Fin 4) (ovrFirst : Bool)
    (ovrSecond : Bool) (refOk : Bool) (busy : Bool) (x : ScanEntry),
    s.hub.powered = true → s.hub.clk.held = false → halvesOk first second = true → e.val < 8 → (s.hub.scanCfg m).div ≠ 0 →
      (s.hub.scanCfg m).list[e.val]? = some x → s.hub.scanPeriodNo m % 2 ^ x.divSel = 0 → s.hub.fe.period.get m ≤ s.hub.scanPeriodNo m →
      (s.hub.chain (64 + 8 * m.val + x.pos)).running = true → (s.hub.chain (64 + 8 * m.val + x.pos)).nextIn ≤ s.hub.scanPeriodNo m / 2 ^
      x.divSel →
    Does (.scanVisitDone m e first second out above pin ovrFirst ovrSecond refOk busy) s [.host, .evt, .jrn, .act, .fe, .flt, .trg, .sto,
      .cal, .tx] fun t => ∃ y, (t.chain (64 + 8 * m.val + x.pos)).inq = (s.hub.chain (64 + 8 * m.val + x.pos)).inq ++ [y] ∧
      y.i = s.hub.scanPeriodNo m / 2 ^ x.divSel ∧ y.n = 1 ∧ y.epoch = s.hub.tb.epoch ∧ y.v.isSome = true) ∧
  (∀ (s : State) (m : Fin 8) (e : Fin 9) (first : List Int) (second : List Int) (out : Bool) (above : Bool) (pin : Fin 4) (ovrFirst : Bool)
    (ovrSecond : Bool) (refOk : Bool) (busy : Bool),
    s.hub.powered = true → halvesOk first second = true → (s.hub.clk.held = true ∨ (s.hub.scanCfg m).div = 0) →
    Does (.scanVisitDone m e first second out above pin ovrFirst ovrSecond refOk busy) s [] fun _ => True) ∧
  (∀ (s : State) (x : Fin 8),
    s.hub.powered = true → s.hub.clk.held = false → (s.hub.fe.exc.get x).drive.mode = 1 → (s.hub.fe.exc.get x).overload = false →
    Does (.excFaultOnset x) s [.host, .evt, .fe, .tx] fun t => t.fe.exc.get x = { s.hub.fe.exc.get x with overload := true } ∧
      (∀ k : Nat, k ≠ x.val → t.fe.exc.get k = s.hub.fe.exc.get k) ∧ t.evt.count.get 34 = s.hub.evt.count.get 34 + 1) ∧
  (∀ (s : State) (x : Fin 8),
    s.hub.powered = true → s.hub.clk.held = false → (s.hub.fe.exc.get x).drive.mode = 2 → (s.hub.fe.exc.get x).compliance = false →
    Does (.excFaultOnset x) s [.host, .evt, .fe, .tx] fun t => t.fe.exc.get x = { s.hub.fe.exc.get x with compliance := true } ∧
      (∀ k : Nat, k ≠ x.val → t.fe.exc.get k = s.hub.fe.exc.get k) ∧ t.evt.count.get 35 = s.hub.evt.count.get 35 + 1) ∧
  (∀ (s : State) (x : Fin 8),
    s.hub.powered = true → (s.hub.fe.exc.get x).drive.mode = 0 →
    Does (.excFaultOnset x) s [] fun _ => True) ∧
  (∀ (s : State) (x : Fin 8),
    s.hub.powered = true → s.hub.clk.held = false → (s.hub.fe.exc.get x).overload = true →
    Does (.excFaultEnd x) s [.host, .evt, .fe, .tx] fun t => t.fe.exc.get x = { s.hub.fe.exc.get x with overload := false } ∧
      (∀ k : Nat, k ≠ x.val → t.fe.exc.get k = s.hub.fe.exc.get k) ∧ t.evt.count.get 34 = s.hub.evt.count.get 34 + 1) ∧
  (∀ (s : State) (x : Fin 8),
    s.hub.powered = true → (s.hub.fe.exc.get x).overload = false → (s.hub.fe.exc.get x).compliance = false →
    Does (.excFaultEnd x) s [] fun _ => True) ∧
  (∀ (s : State) (x : Fin 8) (r : ExcCfg × Nat × Nat),
    s.hub.powered = true → s.hub.clk.held = false → s.hub.visitBound x = false → (s.hub.fe.exc.get x).pending.getLast? = some r →
      (∀ q ∈ (s.hub.fe.exc.get x).pending, q.2.2 < s.hub.tb.strobes) →
    Does (.excSwitch x) s [.host, .fe, .flt, .tx] fun t => (t.fe.exc.get x).pending = [] ∧ (t.fe.exc.get x).drive = r.1 ∧
      (∀ k : Nat, k ≠ x.val → t.fe.exc.get k = s.hub.fe.exc.get k)) ∧
  (∀ (s : State) (x : Fin 8),
    s.hub.powered = true → (s.hub.fe.exc.get x).pending = [] →
    Does (.excSwitch x) s [] fun _ => True)

/-- Temperatures, calibration runs and trims (R90, R91, R92, R96, R99, R589). -/
def Obligations.CalibrationRows : Prop :=
  (∀ (s : State) (temps : List Int),
    s.hub.powered = true → s.hub.clk.held = false → nineSensors temps = true →
    Does (.dieTempSample temps) s [.sys, .host, .evt, .jrn, .sto, .cal, .tx] fun t => t.cal.temp.gets 0 9 = temps ∧
      ((∀ v ∈ temps, v ≤ 1680) → s.hub.sys.dieHot = false → t.sys = s.hub.sys) ∧ ((∃ v ∈ temps, 1680 < v) →
      t.sys = { s.hub.sys with dieHot := true })) ∧
  (∀ (s : State) (g : Fin 8),
    s.hub.powered = true → 0 < (s.hub.cfg.cal.groups.get g).maxInt → (s.hub.calGrp g).lastStart + (s.hub.cfg.cal.groups.get g).maxInt *
      49152000 ≤ s.hub.xoCycles → s.hub.cal.run = none → s.hub.cfg.cal.ref.isSome = true → (∀ q ∈ s.hub.cal.pending, q.1 ≠ g.val) →
      (s.hub.calGrp g).block = [] → s.hub.calSuspended g = false →
    Does (.calMaxIntExpiry g) s [.cal] fun t => t.cal = { s.hub.cal with pending := s.hub.cal.pending ++ [(g.val, 1)] }) ∧
  (∀ (s : State) (g : Fin 8),
    s.hub.powered = true → ((s.hub.cfg.cal.groups.get g).maxInt = 0 ∨ s.hub.cfg.cal.ref = none) →
    Does (.calMaxIntExpiry g) s [] fun _ => True) ∧
  (∀ (s : State) (refOk : Bool) (g : Nat) (k : Nat) (v : Nat) (b : Nat),
    s.hub.powered = true → s.hub.clk.held = false → refOk = true → s.hub.cal.run = none → s.hub.calHead = some (g, k) →
      s.hub.cfg.cal.ref = some (v, b) → s.hub.calSuspended g = false →
    Does (.calSlotStep refOk) s [.cal] fun t => ∃ r, t.cal.run = some r ∧ r.group = g ∧ r.refin = v ∧ r.cfg = s.hub.cfg.cal.groups.get g ∧
      t.cal.pending = s.hub.cal.pending.filter (·.1 != g) ∧ t.cal.trim = s.hub.cal.trim) ∧
  (∀ (s : State) (refOk : Bool) (g : Nat) (k : Nat) (v : Nat) (b : Nat),
    s.hub.powered = true → s.hub.clk.held = false → refOk = false → s.hub.cal.run = none → s.hub.cal.cmds = [] →
      s.hub.calHead = some (g, k) → s.hub.cfg.cal.ref = some (v, b) → s.hub.calSuspended g = false →
    Does (.calSlotStep refOk) s [.cal, .host, .evt, .tx] fun t => t.cal.run = none ∧ (k, s.hub.xoCycles + 60 * 49152000) ∈ (t.calGrp
      g).block ∧ t.evt.count.get 37 = s.hub.evt.count.get 37 + 1 ∧ t.cal.pending = s.hub.cal.pending.filter (·.1 != g)) ∧
  (∀ (s : State) (refOk : Bool),
    s.hub.powered = true → (s.hub.clk.held = true ∨ (s.hub.cal.run = none ∧ s.hub.cal.pending = [] ∧ s.hub.calHead = none)) →
    Does (.calSlotStep refOk) s [] fun _ => True) ∧
  (∀ (s : State) (zero : List Int) (plus : List Int) (minus : List Int) (ovrZero : Bool) (ovrVc : Bool) (r : CalRun) (a : List Int) (b :
    List Int) (c : List Int),
    s.hub.powered = true → s.hub.clk.held = false → s.hub.cal.run = some r → r.phase = .spare → s.hub.calLevels r = true →
      levelCodes r.cfg.avg zero = some a → levelCodes r.cfg.avg plus = some b → levelCodes r.cfg.avg minus = some c →
    Does (.calMeasureDone zero plus minus ovrZero ovrVc) s [.host, .evt, .cal, .tx] fun t => t.cal.meas.get (spareMod r.group) = some
      { zero := codeMean a, plus := codeMean b, minus := codeMean c, noise := Config.zeroNoise a, ovr := ovrZero || ovrVc } ∧
      (Meas.fails { zero := codeMean a, plus := codeMean b, minus := codeMean c, noise := Config.zeroNoise a, ovr := ovrZero || ovrVc }
      r.refin = false → t.evt = s.hub.evt ∧ t.cal = { s.hub.cal with run := some { r with phase := .next,
                                                                                          spareMeas := some { zero := codeMean a,
                                                                                                              plus := codeMean b,
                                                                                                              minus := codeMean c,
                                                                                                              noise := Config.zeroNoise a,
                                                                                                              ovr := ovrZero || ovrVc } },
                                                                     meas := t.cal.meas })) ∧
  (∀ (s : State) (zero : List Int) (plus : List Int) (minus : List Int) (ovrZero : Bool) (ovrVc : Bool) (r : CalRun) (a : List Int) (b :
    List Int) (c : List Int),
    s.hub.powered = true → s.hub.clk.held = false → s.hub.cal.run = some r → r.phase = .spare → s.hub.calLevels r = true →
      levelCodes r.cfg.avg zero = some a → levelCodes r.cfg.avg plus = some b → levelCodes r.cfg.avg minus = some c →
      (ovrZero || ovrVc) = true →
    Does (.calMeasureDone zero plus minus ovrZero ovrVc) s [.host, .evt, .cal, .tx] fun t => t.cal.run = some { r with phase := .next } ∧
      (t.calGrp r.group).noSpare = true ∧ t.evt.count.get 41 = s.hub.evt.count.get 41 + 1) ∧
  (∀ (s : State) (zero : List Int) (plus : List Int) (minus : List Int) (ovrZero : Bool) (ovrVc : Bool),
    s.hub.powered = true → s.hub.cal.run = none →
    Does (.calMeasureDone zero plus minus ovrZero ovrVc) s [] fun _ => True) ∧
  (∀ (s : State) (ch : Fin 64) (x : Ramp),
    s.hub.powered = true → s.hub.clk.held = false → s.hub.cal.ramp.get ch = some x → s.hub.carriesX ch = false →
      x.since + 40 * x.every ≤ s.hub.tb.cycles → ((s.hub.trimOf ch).off + 1 < x.target.off ∨ x.target.off + 1 < (s.hub.trimOf ch).off) →
    Does (.trimStep ch) s [.cal, .flt] fun t => t.trimOf ch = x.step (s.hub.trimOf ch) ∧ (t.trimOf ch).off = towards (s.hub.trimOf ch).off
      x.target.off ∧ (t.trimOf ch).gain = towards (s.hub.trimOf ch).gain x.target.gain ∧
      t.cal.ramp.get ch = some { x with since := s.hub.tb.cycles } ∧ (∀ k : Nat, k ≠ ch.val → t.trimOf k = s.hub.trimOf k)) ∧
  (∀ (s : State) (ch : Fin 64),
    s.hub.powered = true → s.hub.cal.ramp.get ch = none →
    Does (.trimStep ch) s [] fun _ => True)

/-- Inputs and outputs of the filter chains (R118, R120, R136, R143). -/
def Obligations.ChainRows : Prop :=
  (∀ (s : State) (ch : Fin 640) (codes : List (Int × Bool)) (shadow : List (Int × Bool)) (c : ChanCfg) (g : Geo),
    s.hub.powered = true → s.hub.clk.held = false → s.hub.geoOf ch = some (c, g) → (s.hub.chain ch).running = true →
      (s.hub.chain ch).syncs = [] → (s.hub.chain ch).cut = false → isFast ch = true → (∀ x ∈ codes, codeOk x.1 = true) →
      (∀ x ∈ shadow, codeOk x.1 = true) →
    Does (.pepperOutput ch codes shadow) s [.host, .evt, .jrn, .sto, .act, .fe, .flt, .cal, .trg, .casc, .tx] fun t => (t.chain ch).nextIn =
      (s.hub.chain ch).nextIn + codes.length ∧ (t.chain ch).running = true) ∧
  (∀ (s : State) (ch : Fin 640) (codes : List (Int × Bool)) (shadow : List (Int × Bool)) (c : ChanCfg) (g : Geo) (v : Int) (o : Bool),
    s.hub.powered = true → s.hub.clk.held = false → s.hub.geoOf ch = some (c, g) → (s.hub.chain ch).running = true →
      (s.hub.chain ch).syncs = [] → (s.hub.chain ch).cut = false → isFast ch = true → shadow = [] → codes = [(v, o)] → codeOk v = true →
    Gives (.pepperOutput ch codes shadow) s (s.hub.feedCode ch c g v ((if s.hub.excFaulty ch then qF else 0) + flag o 2) none)) ∧
  (∀ (s : State) (ch : Fin 640) (codes : List (Int × Bool)) (shadow : List (Int × Bool)) (c : ChanCfg) (g : Geo) (x : Inp),
    s.hub.powered = true → s.hub.clk.held = false → s.hub.geoOf ch = some (c, g) → (s.hub.chain ch).running = true →
      (s.hub.chain ch).syncs = [] → (s.hub.chain ch).cut = false → isFast ch = false → codes = [] → shadow = [] →
      (s.hub.chain ch).inq = [x] → x.epoch = (s.hub.chain ch).tsEpoch → x.n = 1 → (s.hub.chain ch).nextIn ≤ x.i →
    Does (.pepperOutput ch codes shadow) s [.host, .evt, .jrn, .sto, .act, .fe, .flt, .cal, .trg, .casc, .tx] fun t => (t.chain ch).inq = []
      ∧ (t.chain ch).nextIn = x.i + 1) ∧
  (∀ (s : State) (ch : Fin 640) (codes : List (Int × Bool)) (shadow : List (Int × Bool)),
    s.hub.powered = true → codes = [] → shadow = [] → (s.hub.chain ch).syncs = [] → ((s.hub.chain ch).running = false ∨
      (s.hub.chain ch).cut = true ∨ s.hub.clk.held = true) →
    Does (.pepperOutput ch codes shadow) s [] fun _ => True) ∧
  (∀ (s : State) (ch : Fin 640) (c : ChanCfg) (g : Geo) (v : Stage4),
    s.hub.powered = true → s.hub.clk.held = false → s.hub.geoOf ch = some (c, g) → (s.hub.chain ch).running = true →
      (s.hub.chain ch).stage4 g = some v → s.hub.tachPast ch c v = true →
    Does (.chainOutput ch) s [.host, .evt, .jrn, .sto, .act, .flt, .sl, .cal, .trg, .casc, .tx] fun t => (t.chain ch).nextOut = v.n + 1 ∧
      (v.v.isSome = true → (t.chain ch).seenS = some (s.hub.chain ch).tsEpoch)) ∧
  (∀ (s : State) (ch : Fin 640) (c : ChanCfg) (g : Geo) (v : Stage4),
    s.hub.powered = true → s.hub.clk.held = false → s.hub.geoOf ch = some (c, g) → (s.hub.chain ch).running = true →
      (s.hub.chain ch).stage4 g = some v → s.hub.tachPast ch c v = true →
    Gives (.chainOutput ch) s (s.hub.chainStep ch c g v)) ∧
  (∀ (s : State) (ch : Fin 640),
    s.hub.powered = true → ((s.hub.chain ch).running = false ∨ s.hub.clk.held = true) →
    Does (.chainOutput ch) s [] fun _ => True)

/-- Staging, parts, offers, scrubs and pages of the journal (R73, R309, R311, R317, R320, R322, R326, R333, R334). -/
def Obligations.LandingRows : Prop :=
  (∀ (s : State) (ch : Fin 640) (o : StOut) (r : List StOut),
    s.hub.powered = true → s.hub.clk.held = false → (s.hub.chain ch).stage = o :: r → s.hub.waited o = true →
      s.hub.covers ch o.epoch o.t = true → o.land = true → o.ch = ch.val →
    Does (.stagingRelease ch) s [.host, .evt, .jrn, .sto, .flt, .trg, .tx] fun t => (t.chain ch).stage = r ∧ (∀ k : Nat, k ≠ ch.val →
      t.chain k = s.hub.chain k) ∧ o ∈ (t.chg (s.hub.groupOf ch)).staged) ∧
  (∀ (s : State) (ch : Fin 640) (o : StOut) (r : List StOut),
    s.hub.powered = true → s.hub.clk.held = false → (s.hub.chain ch).stage = o :: r → s.hub.waited o = true →
      s.hub.covers ch o.epoch o.t = false → o.ch = ch.val →
    Does (.stagingRelease ch) s [.host, .evt, .flt, .trg, .tx] fun t => (t.chain ch).stage = r ∧ (∀ k : Nat, k ≠ ch.val →
      t.chain k = s.hub.chain k)) ∧
  (∀ (s : State) (ch : Fin 640),
    s.hub.powered = true → (s.hub.clk.held = true ∨ (s.hub.chain ch).stage = []) →
    Does (.stagingRelease ch) s [] fun _ => True) ∧
  (∀ (s : State) (ch : Fin 640) (o : StOut) (r : List StOut),
    s.hub.powered = true → (s.hub.chain ch).stage = o :: r → s.hub.waited o = false →
    Does (.stagingRelease ch) s [] fun _ => True) ∧
  (∀ (s : State) (fails : List (Nat × Nat)) (g : Nat) (o : StOut),
    s.hub.powered = true → s.hub.clk.held = false → g < 64 → (∀ k : Nat, k < 64 → k ≠ g → (s.hub.chg k).lands = false) →
      (s.hub.chg g).lands = true → s.hub.tb.cnt / 15360 % max 1 (s.hub.partStrobes g) = 0 → (s.hub.cfg.jrn.groups.get g).chans = [o.ch] →
      isRemote o.ch = false → s.hub.isOrder g = false → (s.hub.chg g).staged = [o] → (s.hub.chg g).absent = [] → (s.hub.chg g).cur = none →
    Does (.partClose fails) s [.host, .evt, .jrn, .sto, .flt, .sl, .trg, .cod, .tx] fun t => (t.chg g).staged = [] ∧
      ∃ p ∈ t.jrn.parts, p.group = g ∧ p.epoch = o.epoch ∧ p.t = o.t ∧ p.lastT = o.t ∧ p.block.n = 1 ∧ p.block.k0 = o.k ∧
      p.block.chans = [(o.ch, true)]) ∧
  (∀ (s : State) (fails : List (Nat × Nat)),
    s.hub.powered = true → (s.hub.clk.held = true ∨ ∀ g : Nat, g < 64 → (s.hub.chg g).lands = false) →
    Does (.partClose fails) s [] fun _ => True) ∧
  (∀ (s : State) (p : Part) (r : List Part),
    s.hub.powered = true → s.hub.clk.held = false → s.hub.jrn.total = 0 → s.hub.jrn.parts = p :: r →
    Does (.partLanded) s [.jrn] fun t => t.jrn = { s.hub.jrn with parts := r }) ∧
  (∀ (s : State) (p : Part) (r : List Part),
    s.hub.powered = true → s.hub.clk.held = false → s.hub.jrn.total ≠ 0 → s.hub.jrn.parts = p :: r →
      (s.hub.jrn.writers.get p.writer).openRec = none → p.last = true → (∀ x ∈ s.hub.jrn.recs, x.ticket < s.hub.jrn.nextTicket) →
      s.hub.freeOf .normal > 0 → (s.hub.jrn.writers.get p.writer).page = none → 96 + 4 * p.block.chans.length + p.body.length ≤ 65504 →
    Does (.partLanded) s [.host, .evt, .jrn, .sto, .flt, .sl, .tx] fun t => t.jrn.parts = r ∧ s.hub.jrn.nextTicket < t.jrn.nextTicket ∧
      (s.hub.jrn.waiting = [] → t.jrn.nextTicket = s.hub.jrn.nextTicket + 1) ∧ ∃ x ∈ t.jrn.recs, x.ticket = s.hub.jrn.nextTicket ∧
      x.type = 1 ∧ x.group = p.group ∧ x.isOpen = false ∧ x.body = p.block.bytes s.hub.tag ++ p.body) ∧
  (∀ (s : State),
    s.hub.powered = true → (s.hub.clk.held = true ∨ s.hub.jrn.parts = []) →
    Does (.partLanded) s [] fun _ => True) ∧
  (∀ (s : State) (g : Fin 64) (fails : List Nat),
    s.hub.powered = true → (s.hub.clk.held = true ∨ (s.hub.chg g).bounds = []) →
    Does (.lateWaitExpiry g fails) s [] fun _ => True) ∧
  (∀ (s : State) (g : Fin 64) (fails : List Nat) (u : Nat × T64) (since : Nat) (r : List ((Nat × T64) × Nat)) (c : Nat),
    s.hub.powered = true → s.hub.clk.held = false → (s.hub.chg g).bounds = (u, since) :: r → since + (s.hub.cfg.jrn.groups.get g).lateWait *
      49152 ≤ s.hub.xoCycles → isRemote c = true → c ∈ s.hub.lacking g u → s.hub.stagedInsts g = [] →
    Does (.lateWaitExpiry g fails) s [.host, .evt, .jrn, .sto, .flt, .cod, .sl, .tx] fun t => c ∈ (t.chg g).absent) ∧
  (∀ (s : State) (c : Fin 4) (origin : Fin 16) (descs : List (Nat × Nat)) (n : Nat) (b : List Byte),
    s.hub.powered = true → c.val = 3 → (s.hub.cons 3).enable = true → s.hub.clk.held = false →
      bit (s.hub.jrn.consumers.get 3).ctrl 31 = true → s.hub.sys.straps.hostSel = false → s.hub.host.bme = true → s.hub.host.d3hot = false →
      (s.hub.jrn.consumers.get 3).stream = [] → (s.hub.jrn.consumers.get 3).buf = none → descs = [] → origin.val = s.hub.sys.straps.hubId →
      s.hub.nextRecord 3 origin = some (n, b) →
    Does (.recordOffer c origin descs) s [.jrn] fun t => (t.jrn.consumers.get 3).next.get origin = n + 1 ∧
      (t.jrn.consumers.get 3).offered.get origin = max ((s.hub.jrn.consumers.get 3).offered.get origin) (n + 1) ∧
      (t.jrn.consumers.get 3).stream = b ∧ (t.jrn.consumers.get 3).ackTo = (s.hub.jrn.consumers.get 3).ackTo ∧
      t.jrn = { s.hub.jrn with consumers := t.jrn.consumers }) ∧
  (∀ (s : State) (c : Fin 4) (b : RingBuf),
    s.hub.powered = true → s.hub.clk.held = false → (s.hub.jrn.consumers.get c).buf = some b → 0 < b.used →
      b.since + (s.hub.jrn.consumers.get c).flushXo ≤ s.hub.xoCycles →
    Does (.ringFlushTimeout c) s [.jrn, .host, .tx] fun t => (t.jrn.consumers.get c).buf = none ∧
      (t.jrn.consumers.get c).head = ((s.hub.jrn.consumers.get c).head + 1) % (s.hub.jrn.consumers.get c).ringSize ∧
      bit (t.jrn.consumers.get c).status 0 = true ∧ (∀ k : Nat, k ≠ c.val → t.jrn.consumers.get k = s.hub.jrn.consumers.get k)) ∧
  (∀ (s : State) (c : Fin 4),
    s.hub.powered = true → (s.hub.jrn.consumers.get c).buf = none →
    Does (.ringFlushTimeout c) s [] fun _ => True) ∧
  (∀ (s : State) (ups : List Machine.IndexUpset),
    s.hub.powered = true → (∀ u ∈ ups, u.sram = u.ferry) →
    Does (.indexScrub ups) s [] fun _ => True) ∧
  (∀ (s : State) (ups : List Machine.IndexUpset) (u : IndexUpset),
    s.hub.powered = true → s.hub.clk.held = false → ups = [u] → oddBits u.sram ≠ oddBits u.ferry →
    Does (.indexScrub ups) s [.host, .evt, .tx] fun t => t.evt.count.get 69 = s.hub.evt.count.get 69 + 1) ∧
  (∀ (s : State) (ups : List Machine.IndexUpset) (u : IndexUpset),
    s.hub.powered = true → s.hub.clk.held = false → ups = [u] → u.sram ≠ u.ferry → oddBits u.sram = oddBits u.ferry →
    Does (.indexScrub ups) s [.host, .evt, .jrn, .tx] fun t => t.jrn = { s.hub.jrn with rescan := true } ∧
      t.evt.count.get 69 = s.hub.evt.count.get 69 + 1) ∧
  (∀ (s : State) (page : Nat) (n : Nat),
    s.hub.powered = true → (s.hub.jrn.pages.get page).used = true →
    Does (.pageScrub page n) s [.jrn] fun t => t.jrn.pages.get page =
      { s.hub.jrn.pages.get page with ce := (s.hub.jrn.pages.get page).ce + n } ∧ (∀ k : Nat, k ≠ page →
      t.jrn.pages.get k = s.hub.jrn.pages.get k) ∧ t.jrn = { s.hub.jrn with pages := t.jrn.pages }) ∧
  (∀ (s : State) (page : Nat) (n : Nat),
    s.hub.powered = true → (s.hub.jrn.pages.get page).used = false →
    Does (.pageScrub page n) s [] fun _ => True) ∧
  (∀ (s : State) (page : Nat),
    s.hub.powered = true → (s.hub.jrn.pages.get page).used = false →
    Does (.dramUncorrectable page) s [] fun _ => True) ∧
  (∀ (s : State) (page : Nat),
    s.hub.powered = true → (s.hub.jrn.pages.get page).used = true → s.hub.clk.held = false → (∀ r ∈ s.hub.jrn.recs, page ∉ r.pages) →
      s.hub.sto.saveDisabled = false →
    Does (.dramUncorrectable page) s [.host, .evt, .jrn, .sto, .cod, .tx] fun t => (t.jrn.pages.get page).retired = true ∧
      (t.jrn.pages.get page).used = false ∧ t.jrn.recs = s.hub.jrn.recs ∧ t.sto.jobs.length = s.hub.sto.jobs.length + 1 ∧
      t.evt.count.get 67 = s.hub.evt.count.get 67 + 1)

/-- Segments, streams, trigger pins and action rules (R123, R168, R181, R188, R190, R191, R204, R208, R301, R347, R367, R377). -/
def Obligations.TriggerActionRows : Prop :=
  (∀ (s : State) (g : Fin 32) (i : Nat),
    s.hub.powered = true → s.hub.clk.held = false → (s.hub.cg g).segs.findIdx? (s.hub.segReady g) = some i →
    Does (.segmentComplete g) s [.trg] fun t => (t.cg g).segs.length = (s.hub.cg g).segs.length ∧ (∃ x, (s.hub.cg g).segs[i]? = some x ∧
      (t.cg g).segs[i]? = some { x with copying := true, copyAt := s.hub.xoCycles }) ∧ (∀ j : Nat, j ≠ i →
      (t.cg g).segs[j]? = (s.hub.cg g).segs[j]?) ∧ (∀ k : Nat, k ≠ g.val → t.cg k = s.hub.cg k)) ∧
  (∀ (s : State) (g : Fin 32),
    s.hub.powered = true → (s.hub.clk.held = true ∨ (s.hub.cg g).segs = []) →
    Does (.segmentComplete g) s [] fun _ => True) ∧
  (∀ (s : State) (g : Fin 32) (fails : List Nat),
    s.hub.powered = true → (s.hub.clk.held = true ∨ ∀ x ∈ (s.hub.cg g).segs, x.copying = false) →
    Does (.segmentLanded g fails) s [] fun _ => True) ∧
  (∀ (s : State) (g : Fin 32) (fails : List Nat) (x : Seg),
    s.hub.powered = true → s.hub.clk.held = false → (s.hub.cg g).segs = [x] → x.copying = true → (s.hub.cgCfg g).chans = [] →
      (s.hub.cgCfg g).segLimit = 0 → s.hub.jrn.total ≠ 0 → s.hub.freeOf .normal > 0 → (s.hub.jrn.writers.get 64).page = none →
      x.causes.length ≤ 1024 →
    Does (.segmentLanded g fails) s [.host, .evt, .jrn, .sto, .flt, .sl, .trg, .cod, .tx] fun t => (t.cg g).segs = [] ∧
      (t.cg g).seq = ((s.hub.cg g).seq + 1) % 2 ^ 32 ∧ (t.cg g).landed = sat32 ((s.hub.cg g).landed + 1) ∧
      s.hub.jrn.nextTicket < t.jrn.nextTicket ∧ (s.hub.jrn.waiting = [] → t.jrn.nextTicket = s.hub.jrn.nextTicket + 1) ∧
      ∃ r ∈ t.jrn.recs, r.ticket = s.hub.jrn.nextTicket ∧ r.type = 2 ∧ r.group = 0x80 + g.val) ∧
  (∀ (s : State) (g : Fin 32),
    s.hub.powered = true → (s.hub.cg g).armed = true → (s.hub.cgCfg g).autoEn = true → tLe ((s.hub.cg g).autoFrom + (fr (s.hub.cgCfg
      g).autoT 1000).toT) s.hub.sampleT = true →
    Does (.autoSegment g) s [.trg] fun t => t.cg g = { s.hub.cg g with autoDue := true } ∧ (∀ k : Nat, k ≠ g.val → t.cg k = s.hub.cg k)) ∧
  (∀ (s : State) (g : Fin 32),
    s.hub.powered = true → (s.hub.cg g).armed = false →
    Does (.autoSegment g) s [] fun _ => True) ∧
  (∀ (s : State) (stream : Fin 96),
    s.hub.powered = true → s.hub.clk.held = false → (s.hub.stream stream).demoted = false → s.hub.waitsLong stream = true →
    Does (.codecDemote stream) s [.cod, .evt, .host, .tx, .free] fun t => (t.stream stream).demoted = true ∧
      (t.stream stream).demotedAt = s.hub.xoCycles ∧ (t.stream stream).dropFree = some s.hub.free ∧ t.free = s.hub.free + 1 ∧
      (∀ k : Nat, k ≠ stream.val → t.stream k = s.hub.stream k)) ∧
  (∀ (s : State) (stream : Fin 96),
    s.hub.powered = true → s.hub.clk.held = false → (s.hub.stream stream).demoted = true → s.hub.waitsLong stream = true →
    Does (.codecDemote stream) s [.cod] fun t => t.stream stream = { s.hub.stream stream with demotedAt := s.hub.xoCycles } ∧
      (∀ k : Nat, k ≠ stream.val → t.stream k = s.hub.stream k)) ∧
  (∀ (s : State) (stream : Fin 96),
    s.hub.powered = true → (s.hub.clk.held = true ∨ s.hub.waitsLong stream = false) →
    Does (.codecDemote stream) s [] fun _ => True) ∧
  (∀ (s : State) (stream : Fin 96),
    s.hub.powered = true → s.hub.clk.held = false → (s.hub.stream stream).demoted = true →
      (s.hub.stream stream).demotedAt + (s.hub.streamCfg stream).promoteMs * 49152 ≤ s.hub.xoCycles → s.hub.waitsHalf stream = false →
    Does (.codecPromote stream) s [.cod] fun t => t.stream stream = { s.hub.stream stream with demoted := false, dropFree := none } ∧
      (∀ k : Nat, k ≠ stream.val → t.stream k = s.hub.stream k)) ∧
  (∀ (s : State) (stream : Fin 96),
    s.hub.powered = true → ((s.hub.stream stream).demoted = false ∨ s.hub.waitsHalf stream = true) →
    Does (.codecPromote stream) s [] fun _ => True) ∧
  (∀ (s : State) (k : CodCheck) (r : List CodCheck),
    s.hub.powered = true → s.hub.clk.held = false → s.hub.cod.checks = k :: r →
    Does (.codecCheckDone) s [.cod, .host, .tx] fun t => t.cod = { s.hub.cod with checks := r } ∧
      t = ({ s.hub with cod := { s.hub.cod with checks := r } } : Hub).complete k.handle DONE (s.hub.checkResult k)) ∧
  (∀ (s : State),
    s.hub.powered = true → s.hub.cod.checks = [] →
    Does (.codecCheckDone) s [] fun _ => True) ∧
  (∀ (s : State) (profile : Fin 32) (c : SwapCur),
    s.hub.powered = true → (s.hub.flt.swap.get profile).cur = some c → s.hub.fadePassed profile = true →
      (s.hub.flt.swap.get profile).pend = none →
    Does (.bankFadeComplete profile) s [.cfg, .host, .flt, .tx] fun t => t.cfg =
      { s.hub.cfg with flt := { s.hub.cfg.flt with active := s.hub.cfg.flt.active.put profile c.target } } ∧
      (t.flt.swap.get profile).cur = none ∧ (∀ k : Nat, k ≠ profile.val → t.flt.swap.get k = s.hub.flt.swap.get k)) ∧
  (∀ (s : State) (profile : Fin 32),
    s.hub.powered = true → (s.hub.flt.swap.get profile).cur = none →
    Does (.bankFadeComplete profile) s [] fun _ => True) ∧
  (∀ (s : State) (k : Fin 8) (level : Bool),
    s.hub.powered = true →
    Does (.trigInputChange k level) s [.trg] fun t => t.trg.pinLevel.get k = level ∧ (∀ j : Nat, j ≠ k.val →
      t.trg.pinLevel.get j = s.hub.trg.pinLevel.get j) ∧ t.trg = { s.hub.trg with pinLevel := t.trg.pinLevel }) ∧
  (∀ (s : State) (k : Fin 8) (n : Nat),
    s.hub.powered = true → s.hub.clk.held = false → s.hub.trg.pulse.get k = some n → n + (s.hub.cfg.trg.pins.get k).width ≤ s.hub.tb.cycles
      →
    Does (.trigPulseEnd k) s [.trg] fun t => t.trg.pulse.get k = none ∧ (∀ j : Nat, j ≠ k.val → t.trg.pulse.get j = s.hub.trg.pulse.get j) ∧
      t.trg = { s.hub.trg with pulse := t.trg.pulse }) ∧
  (∀ (s : State) (k : Fin 8),
    s.hub.powered = true → (s.hub.clk.held = true ∨ s.hub.trg.pulse.get k = none) →
    Does (.trigPulseEnd k) s [] fun _ => True) ∧
  (∀ (s : State) (line : Fin 16) (n : Nat),
    s.hub.powered = true → s.hub.clk.held = false → s.hub.trg.lines.get line = some n → n + ceilDiv (s.hub.cfg.trg.hold.get line * 3072) 25
      ≤ s.hub.tb.cycles →
    Does (.ctHoldExpiry line) s [.trg] fun t => t.trg.lines.get line = none ∧ (∀ j : Nat, j ≠ line.val →
      t.trg.lines.get j = s.hub.trg.lines.get j) ∧ t.trg = { s.hub.trg with lines := t.trg.lines }) ∧
  (∀ (s : State) (line : Fin 16),
    s.hub.powered = true → (s.hub.clk.held = true ∨ s.hub.trg.lines.get line = none) →
    Does (.ctHoldExpiry line) s [] fun _ => True) ∧
  (∀ (s : State) (rule : Fin 32),
    s.hub.powered = true → (s.hub.actRuleCfg rule).mode = 1 → (s.hub.actRule rule).armed = true → s.hub.widthOver rule = true →
    Does (.actPulseEnd rule) s [.host, .evt, .jrn, .sto, .act, .tx] fun t => (t.actRule rule).asserted = false ∧
      (t.actRule rule).armed = true ∧ (∀ k : Nat, k ≠ rule.val → t.actRule k = s.hub.actRule k)) ∧
  (∀ (s : State) (rule : Fin 32),
    s.hub.powered = true → ((s.hub.actRule rule).armed = false ∨ s.hub.widthOver rule = false) →
    Does (.actPulseEnd rule) s [] fun _ => True) ∧
  (∀ (s : State),
    s.hub.powered = true → s.hub.deadmanRuns = true → s.hub.act.deadmanT ≠ 0 → s.hub.act.deadmanAt + s.hub.act.deadmanT * 49152 ≤
      s.hub.xoCycles →
    Does (.actDeadmanExpiry) s [.host, .evt, .jrn, .sto, .act, .tx] fun t => t.act.deadmanOut = true ∧
      ∀ r ∈ s.hub.deadmanRules, (t.actRule r).armed = false ∧ (t.actRule r).asserted = false ∧
      t.actPin (s.hub.actRuleCfg r).pin = .failSafe) ∧
  (∀ (s : State),
    s.hub.powered = true → (s.hub.deadmanRuns = false ∨ s.hub.act.deadmanT = 0) →
    Does (.actDeadmanExpiry) s [] fun _ => True) ∧
  (∀ (s : State),
    s.hub.powered = true → (s.hub.clk.held = true ∨ (∀ r : Nat, r < 32 → (s.hub.actRuleCfg r).mode ≠ 2)) →
    Does (.followMinExpiry) s [] fun _ => True) ∧
  (∀ (s : State) (r : Nat),
    s.hub.powered = true → s.hub.clk.held = false → (s.hub.actRule r).asserted = true → (s.hub.actRule r).armed = true →
      (s.hub.actRuleCfg r).mode = 2 → r < 32 → s.hub.widthOver r = true → (∀ u ∈ bitsOf (s.hub.actRuleCfg r).mask 64, s.hub.unitHolds u =
      false) →
    Does (.followMinExpiry) s [.host, .evt, .jrn, .sto, .act, .tx] fun t => (t.actRule r).asserted = false ∧
      (∀ k, (s.hub.actRule k).asserted = false → (t.actRule k).asserted = false))

/-- Bring-up, frames, delay measurement and timers of the sensor lanes (R381, R382, R388, R389, R391, R392, R396, R397, R399, R402,
R405, R410). -/
def Obligations.SensorLaneRows : Prop :=
  (∀ (s : State) (lane : Fin 16),
    s.hub.powered = true → ((s.hub.lane lane).st = .up ∨ (s.hub.lane lane).st = .training) →
    Does (.slLossOfLock lane) s [.tiu, .sl, .casc, .tx] fun t => (t.lane lane).st = .training ∧ (t.lane lane).step = 1 ∧
      (t.lane lane).attempts = 0 ∧ (t.lane lane).expect = (s.hub.lane lane).expect ∧ (t.lane lane).landed = (s.hub.lane lane).landed ∧
      (∀ k : Nat, k ≠ lane.val → (t.lane k).st = (s.hub.lane k).st) ∧ (s.hub.tiu.line9.head? ≠ some lane.val → (∀ k : Nat, k ≠ lane.val →
      t.lane k = s.hub.lane k))) ∧
  (∀ (s : State) (lane : Fin 16),
    s.hub.powered = true → (s.hub.lane lane).st ≠ .up → (s.hub.lane lane).st ≠ .training →
    Does (.slLossOfLock lane) s [] fun _ => True) ∧
  (∀ (s : State) (x : Machine.LaneStep),
    s.hub.powered = true → 7 ≤ (s.hub.lane x.lane).step → (s.hub.lane x.lane).st = .training →
      (s.hub.lane x.lane).stepAt + stepLimit (s.hub.lane x.lane).step x.phy ≤ s.hub.xoCycles → ((s.hub.lane x.lane).step ≠ 8 ∨
      (14 ≤ (s.hub.lane x.lane).delays.length ∧ (x.lane.val ∉ s.hub.tiu.line9 ∨ s.hub.tiu.line9.head? = some x.lane.val))) →
      (s.hub.lane x.lane).attempts < 2 →
    Does (.slStepTimeout x) s [.tiu, .sl, .casc, .tx] fun t => (t.lane x.lane).st = .training ∧ (t.lane x.lane).step = 1 ∧
      (t.lane x.lane).attempts = (s.hub.lane x.lane).attempts + 1 ∧ (∀ k : Nat, k ≠ x.lane.val → (t.lane k).st = (s.hub.lane k).st) ∧
      (s.hub.tiu.line9.head? ≠ some x.lane.val → (∀ k : Nat, k ≠ x.lane.val → t.lane k = s.hub.lane k))) ∧
  (∀ (s : State) (x : Machine.LaneStep),
    s.hub.powered = true → 7 ≤ (s.hub.lane x.lane).step → (s.hub.lane x.lane).st = .training →
      (s.hub.lane x.lane).stepAt + stepLimit (s.hub.lane x.lane).step x.phy ≤ s.hub.xoCycles → ((s.hub.lane x.lane).step ≠ 8 ∨
      (14 ≤ (s.hub.lane x.lane).delays.length ∧ (x.lane.val ∉ s.hub.tiu.line9 ∨ s.hub.tiu.line9.head? = some x.lane.val))) →
      2 ≤ (s.hub.lane x.lane).attempts →
    Does (.slStepTimeout x) s [.host, .evt, .tiu, .sl, .casc, .tx] fun t => (t.lane x.lane).st = .down ∧ (t.lane x.lane).downRaised = true ∧
      ((s.hub.lane x.lane).downRaised = true → t.evt = s.hub.evt) ∧ (∀ k : Nat, k ≠ x.lane.val → (t.lane k).st = (s.hub.lane k).st) ∧
      (s.hub.tiu.line9.head? ≠ some x.lane.val → (∀ k : Nat, k ≠ x.lane.val → t.lane k = s.hub.lane k))) ∧
  (∀ (s : State) (x : Machine.LaneStep),
    s.hub.powered = true → ((s.hub.lane x.lane).st ≠ .training ∨ s.hub.xoCycles < (s.hub.lane x.lane).stepAt + phyLimit 0 ∧
      7 ≤ (s.hub.lane x.lane).step) →
    Does (.slStepTimeout x) s [] fun _ => True) ∧
  (∀ (s : State) (lane : Fin 16),
    s.hub.powered = true → (s.hub.lane lane).st = .down → (s.hub.lane lane).stepAt + 491520 ≤ s.hub.xoCycles →
    Does (.slRetryTimer lane) s [.tiu, .sl, .casc, .tx] fun t => (t.lane lane).st = .training ∧ (t.lane lane).step = 1 ∧
      (t.lane lane).attempts = 2 ∧ (∀ k : Nat, k ≠ lane.val → (t.lane k).st = (s.hub.lane k).st) ∧ (s.hub.tiu.line9.head? ≠ some lane.val →
      (∀ k : Nat, k ≠ lane.val → t.lane k = s.hub.lane k))) ∧
  (∀ (s : State) (lane : Fin 16),
    s.hub.powered = true → (s.hub.lane lane).st ≠ .down →
    Does (.slRetryTimer lane) s [] fun _ => True) ∧
  (∀ (s : State) (lane : Fin 16) (inverted : Bool),
    s.hub.powered = true → (s.hub.lane lane).st = .training → (s.hub.lane lane).step < 7 →
    Does (.slCommaAlignment lane inverted) s [.sl, .tx, .free] fun t => (t.lane lane).st = .training ∧ (t.lane lane).step = 7 ∧
      (t.lane lane).inverted = inverted ∧ (∀ k : Nat, k ≠ lane.val → t.lane k = s.hub.lane k) ∧
      ∃ b, t.tx = s.hub.tx ++ [.lane lane 8 1 (s.hub.lane lane).cseq b]) ∧
  (∀ (s : State) (lane : Fin 16) (inverted : Bool),
    s.hub.powered = true → (s.hub.lane lane).st ≠ .training →
    Does (.slCommaAlignment lane inverted) s [] fun _ => True) ∧
  (∀ (s : State) (lane : Fin 16) (intact : Bool) (frame : List Byte) (b : List Byte),
    s.hub.powered = true → s.hub.clk.held = false → (s.hub.lane lane).st = .training → (s.hub.lane lane).step = 7 →
      frameFault 2 1 0 0 intact frame = none → framePay frame = b → b.length = 56 → at_ b 11 1 = 0 → at_ b 22 2 = 0 →
      (s.hub.sto.laneKeys.get 0).key ≠ [] → mac16 (bytesOf (s.hub.sto.laneKeys.get 0).key) (laneM 1 lane s.hub.sys.straps.hubId (at_ b 0 8)
      (padTo 16 ((s.hub.lane lane).nonceH.take 16)) ((b.drop 24).take 16) s.hub.lvMin s.hub.lvMax (at_ b 8 1) (at_ b 9 1)) = (b.drop
      40).take 16 → (s.hub.lane lane).use.serial = 0 → (s.hub.lane lane).lastSerial = 0 → s.hub.lvMin ≤ min s.hub.lvMax (at_ b 9 1) →
      at_ b 8 1 ≤ min s.hub.lvMax (at_ b 9 1) → 600 ≤ at_ b 12 4 →
    Does (.slHelloReceive lane intact frame) s [.tiu, .sl, .casc, .tx] fun t => (t.lane lane).st = .training ∧ (t.lane lane).step = 8 ∧
      (t.lane lane).serial = at_ b 0 8 ∧ (t.lane lane).level = min s.hub.lvMax (at_ b 9 1) ∧ (t.lane lane).retain = min 120000 (at_ b 12 4)
      ∧ (t.lane lane).turnDecl = at_ b 16 4 ∧ (t.lane lane).holdPpm = at_ b 20 2 ∧ lane.val ∈ t.tiu.line9 ∧ (s.hub.line9Stale = false →
      (∀ k : Nat, k ≠ lane.val → t.lane k = s.hub.lane k))) ∧
  (∀ (s : State) (lane : Fin 16) (intact : Bool) (frame : List Byte),
    s.hub.powered = true → (s.hub.lane lane).st ≠ .training →
    Does (.slHelloReceive lane intact frame) s [] fun _ => True) ∧
  (∀ (s : State) (lane : Fin 16) (intact : Bool) (frame : List Byte) (b : List Byte) (es : List SlotEnt),
    s.hub.powered = true → (s.hub.lane lane).st = .up → s.hub.clk.held = false → (s.hub.lane lane).used + ceilDiv (frame.length + 2) 64 ≤
      (s.hub.lane lane).limit → frameFault 1 0 (s.hub.lane lane).level 3 intact frame = none → framePay frame = b →
      slotEnts (if 2 ≤ (s.hub.lane lane).level then 12 else 4) (at_ b 5 1) 0 (b.drop 8) = some es → 8 ≤ b.length → at_ b 4 1 ≤ 63 →
      at_ b 6 2 = 0 → es ≠ [] → es.length ≤ 32 → (s.hub.lane lane).expect = some (frameSeq frame) →
      s.hub.sampleFault lane (at_ b 0 4) (at_ b 4 1) false es = none →
    Does (.slSampleFrame lane intact frame) s [.host, .evt, .jrn, .sto, .flt, .sl, .tx] fun t => (t.lane lane).expect = some ((frameSeq
      frame + 1) % 2 ^ 32) ∧ (t.lane lane).lastC = some (at_ b 0 4) ∧ (t.lane lane).used = (s.hub.lane lane).used + ceilDiv (frame.length +
      2) 64 ∧ (t.lane lane).st = .up) ∧
  (∀ (s : State) (lane : Fin 16) (intact : Bool) (frame : List Byte) (b : List Byte) (es : List SlotEnt) (e : Nat),
    s.hub.powered = true → (s.hub.lane lane).st = .up → s.hub.clk.held = false → (s.hub.lane lane).used + ceilDiv (frame.length + 2) 64 ≤
      (s.hub.lane lane).limit → frameFault 1 0 (s.hub.lane lane).level 3 intact frame = none → framePay frame = b →
      slotEnts (if 2 ≤ (s.hub.lane lane).level then 12 else 4) (at_ b 5 1) 0 (b.drop 8) = some es → 8 ≤ b.length → at_ b 4 1 ≤ 63 →
      at_ b 6 2 = 0 → es ≠ [] → es.length ≤ 32 → (s.hub.lane lane).expect = some e → diff32 (frameSeq frame) e < 0 →
      s.hub.sampleFault lane (at_ b 0 4) (at_ b 4 1) true es = none →
    Does (.slSampleFrame lane intact frame) s [.sl, .tx] fun t => (t.lane lane).expect = some e ∧
      (t.lane lane).counts = bump (s.hub.lane lane).counts 7 1 ∧ (∀ k : Nat, k ≠ lane.val → t.lane k = s.hub.lane k)) ∧
  (∀ (s : State) (lane : Fin 16) (intact : Bool) (frame : List Byte),
    s.hub.powered = true → (s.hub.lane lane).st ≠ .up →
    Does (.slSampleFrame lane intact frame) s [] fun _ => True) ∧
  (∀ (s : State) (lane : Fin 16) (intact : Bool) (frame : List Byte),
    s.hub.powered = true → (s.hub.lane lane).st = .up → s.hub.clk.held = true →
    Does (.slSampleFrame lane intact frame) s [.sl] fun t => t.lane lane =
      { s.hub.lane lane with used := (s.hub.lane lane).used + ceilDiv (frame.length + 2) 64,
                             limit := (s.hub.lane lane).limit + ceilDiv (frame.length + 2) 64 } ∧ (∀ k : Nat, k ≠ lane.val →
      t.lane k = s.hub.lane k)) ∧
  (∀ (s : State) (lane : Fin 16) (intact : Bool) (frame : List Byte) (b : List Byte) (q : SlotReq),
    s.hub.powered = true → (s.hub.lane lane).st = .up → s.hub.clk.held = false → frameFault 2 2 (s.hub.lane lane).level 0 intact frame =
      none → framePay frame = b → b.length = 12 → at_ b 1 1 = 0 → at_ b 2 2 = 0 → (s.hub.lane lane).slotReqs.find? (·.slot == at_ b 0 1) =
      some q → s.hub.cfg.slots.get (32 * lane.val + at_ b 0 1) = { enable := q.enable, rate := q.rate } →
    Does (.slSlotAckReceive lane intact frame) s [.cfg, .host, .flt, .sl, .tx] fun t => t.cfg =
      { s.hub.cfg with slots := s.hub.cfg.slots.put (32 * lane.val + at_ b 0 1) { enable := q.enable, rate := q.rate } } ∧
      (t.lane lane).slotReqs = (s.hub.lane lane).slotReqs.erase q ∧ (t.chain (128 + 32 * lane.val + at_ b 0 1)).d = signed 32 (at_ b 8 4) ∧
      (∀ k : Nat, k ≠ lane.val → t.lane k = s.hub.lane k)) ∧
  (∀ (s : State) (lane : Fin 16) (intact : Bool) (frame : List Byte),
    s.hub.powered = true → (s.hub.lane lane).st ≠ .up →
    Does (.slSlotAckReceive lane intact frame) s [] fun _ => True) ∧
  (∀ (s : State) (lane : Fin 16) (slot : Fin 32) (q : SlotReq),
    s.hub.powered = true → (s.hub.lane lane).slotReqs = [q] → q.slot = slot.val → q.since + 491520 ≤ s.hub.xoCycles →
    Does (.slSlotSetTimeout lane slot) s [.host, .sl, .tx] fun t => (t.lane lane).slotReqs = [] ∧
      t = ({ s.hub with sl := t.sl } : Hub).complete q.handle TIMED_OUT [] ∧ (∀ k : Nat, k ≠ lane.val → t.lane k = s.hub.lane k)) ∧
  (∀ (s : State) (lane : Fin 16) (slot : Fin 32),
    s.hub.powered = true → (∀ q ∈ (s.hub.lane lane).slotReqs, q.slot = slot.val → s.hub.xoCycles < q.since + 491520) →
    Does (.slSlotSetTimeout lane slot) s [.sl] fun t => ∀ k, t.lane k = s.hub.lane k) ∧
  (∀ (s : State) (lane : Fin 16) (intact : Bool) (frame : List Byte) (b : List Byte) (e : Nat),
    s.hub.powered = true → (s.hub.lane lane).st = .up → s.hub.clk.held = false → frameFault 2 3 (s.hub.lane lane).level 0 intact frame =
      none → framePay frame = b → b.length = 16 → (s.hub.lane lane).expect = some e → 0 ≤ diff32 (at_ b 4 4) e →
    Does (.slReleasedReceive lane intact frame) s [.flt, .sl, .tx] fun t => (t.lane lane).expect = some ((at_ b 4 4 + 1) % 2 ^ 32)) ∧
  (∀ (s : State) (lane : Fin 16) (intact : Bool) (frame : List Byte),
    s.hub.powered = true → (s.hub.lane lane).st ≠ .up →
    Does (.slReleasedReceive lane intact frame) s [] fun _ => True) ∧
  (∀ (s : State) (lane : Fin 16) (intact : Bool) (frame : List Byte),
    s.hub.powered = true → (s.hub.lane lane).st = .up → s.hub.clk.held = false → frameFault 2 4 (s.hub.lane lane).level 0 intact frame =
      none → (framePay frame).length = 8 →
    Does (.slSlipReceive lane intact frame) s [.sl] fun t => (t.lane lane).slip = true ∧ (t.lane lane).rxCseq = (frameSeq frame + 1) % 2 ^
      32 ∧ (t.lane lane).expect = (s.hub.lane lane).expect ∧ (∀ k : Nat, k ≠ lane.val → t.lane k = s.hub.lane k)) ∧
  (∀ (s : State) (lane : Fin 16) (intact : Bool) (frame : List Byte),
    s.hub.powered = true → (s.hub.lane lane).st ≠ .up → (s.hub.lane lane).st ≠ .training →
    Does (.slSlipReceive lane intact frame) s [] fun _ => True) ∧
  (∀ (s : State) (lane : Fin 16) (intact : Bool) (frame : List Byte),
    s.hub.powered = true → (s.hub.lane lane).st = .up → s.hub.clk.held = false → 3 ≤ (s.hub.lane lane).level →
      frameFault 2 5 (s.hub.lane lane).level 0 intact frame = none → (framePay frame).length = 16 → at_ (framePay frame) 8 8 = 0 →
    Does (.slPodHealthReceive lane intact frame) s [.host, .evt, .jrn, .sto, .sl, .tx] fun t => (t.lane lane).rxCseq = (frameSeq frame + 1)
      % 2 ^ 32 ∧ t = ({ s.hub with sl := t.sl } : Hub).landHealth 0x51 s.hub.tb.epoch s.hub.sampleT (b1 lane ++ b1 0 ++ framePay frame) ∧
      (∀ k : Nat, k ≠ lane.val → t.lane k = s.hub.lane k)) ∧
  (∀ (s : State) (lane : Fin 16) (intact : Bool) (frame : List Byte),
    s.hub.powered = true → (s.hub.lane lane).st ≠ .up →
    Does (.slPodHealthReceive lane intact frame) s [] fun _ => True) ∧
  (∀ (s : State) (lane : Fin 16) (trip : Machine.RoundTrip) (turn : Nat) (r : List Nat),
    s.hub.powered = true → s.hub.tiu.calAll = false → 9 ∉ s.hub.tiu.lost → s.hub.clk.held = false →
      s.hub.tiu.fifo + 2 ≤ 512 + trip.drained → s.hub.tiu.line9 = lane.val :: r → lane.val ∉ r → (s.hub.lane lane).st = .up →
      2 ≤ (s.hub.lane lane).level → turn ≤ 60000 → (s.hub.lane lane).turn = turn → (meanI (((s.hub.tripPs lane.val trip - ((10 * turn : Nat)
      : Int) + (s.hub.lane lane).use.asym) * 500 :: (s.hub.lane lane).delays).take 16) - (s.hub.lane lane).delta).natAbs ≤ (s.hub.lane
      lane).use.jump * 1000 →
    Does (.slDelayEcho lane trip turn) s [.tiu, .sl, .casc, .tx] fun t => (t.lane lane).delta = meanI (((s.hub.tripPs lane.val trip - ((10 *
      turn : Nat) : Int) + (s.hub.lane lane).use.asym) * 500 :: (s.hub.lane lane).delays).take 16) ∧ (t.lane lane).unanswered = 0 ∧
      (t.lane lane).placed = (s.hub.lane lane).placed ∧ (r = [] → t.tiu.line9 = [] ∧ (∀ k : Nat, k ≠ lane.val → t.lane k = s.hub.lane k))) ∧
  (∀ (s : State) (lane : Fin 16) (trip : Machine.RoundTrip) (turn : Nat) (r : List Nat),
    s.hub.powered = true → s.hub.tiu.calAll = false → 9 ∉ s.hub.tiu.lost → s.hub.clk.held = false →
      s.hub.tiu.fifo + 2 ≤ 512 + trip.drained → s.hub.tiu.line9 = lane.val :: r → lane.val ∉ r → (s.hub.lane lane).st = .training →
      (s.hub.lane lane).step = 8 → 2 ≤ (s.hub.lane lane).level → turn ≤ 60000 → (s.hub.lane lane).turn = turn →
      (s.hub.lane lane).delays.length = 15 →
    Does (.slDelayEcho lane trip turn) s [.tiu, .sl, .casc, .tx] fun t => (t.lane lane).st = .training ∧ (t.lane lane).step = 9 ∧
      (t.lane lane).delta = meanI (((s.hub.tripPs lane.val trip - ((10 * turn : Nat) : Int) + (s.hub.lane lane).use.asym) * 500 ::
      (s.hub.lane lane).delays).take 16) ∧ (t.lane lane).placed = (t.lane lane).delta ∧ (r = [] → t.tiu.line9 = [] ∧
      (∀ k : Nat, k ≠ lane.val → t.lane k = s.hub.lane k))) ∧
  (∀ (s : State) (lane : Fin 16) (trip : Machine.RoundTrip) (turn : Nat),
    s.hub.powered = true → (s.hub.tiu.calAll = true ∨ 9 ∈ s.hub.tiu.lost) →
    Does (.slDelayEcho lane trip turn) s [.sl] fun t => t.lane lane = { s.hub.lane lane with unanswered := 0 } ∧ (∀ k : Nat, k ≠ lane.val →
      t.lane k = s.hub.lane k)) ∧
  (∀ (s : State) (lane : Fin 16) (trip : Machine.RoundTrip) (turn : Nat),
    s.hub.powered = true → s.hub.tiu.calAll = false → 9 ∉ s.hub.tiu.lost → (s.hub.clk.held = true ∨ s.hub.tiu.line9.head? ≠ some lane.val) →
    Does (.slDelayEcho lane trip turn) s [] fun _ => True) ∧
  (∀ (s : State) (lane : Fin 16),
    s.hub.powered = true → (s.hub.lane lane).st = .up → s.hub.clk.held = false → s.hub.passed (s.hub.lane lane).probeAt ((s.hub.lane
      lane).use.probeInt * 49152) = true → (s.hub.lane lane).unanswered < 3 →
    Does (.slProbeTimer lane) s [.tiu, .sl, .casc, .tx] fun t => (t.lane lane).probeAt = some s.hub.xoCycles ∧ lane.val ∈ t.tiu.line9 ∧
      (s.hub.tiu.line9 = [] → (t.lane lane).unanswered = (s.hub.lane lane).unanswered + 1 ∧ t.tx = s.hub.tx ++ [.symbol lane 0x1C 0] ∧
      (∀ k : Nat, k ≠ lane.val → t.lane k = s.hub.lane k))) ∧
  (∀ (s : State) (lane : Fin 16),
    s.hub.powered = true → ((s.hub.lane lane).st ≠ .up ∨ s.hub.clk.held = true) →
    Does (.slProbeTimer lane) s [] fun _ => True) ∧
  (∀ (s : State) (lane : Fin 16),
    s.hub.powered = true → s.hub.slMarks = s.hub → (s.hub.lane lane).st = .up → s.hub.clk.held = false →
      (s.hub.lane lane).landedAt + 491520 ≤ s.hub.xoCycles →
    Does (.slLandedTimer lane) s [.flt, .sl, .tx] fun t => t.lane lane =
      { s.hub.lane lane with cseq := ((s.hub.lane lane).cseq + 1) % 2 ^ 32, landedAt := s.hub.xoCycles } ∧ (∀ k : Nat, k ≠ lane.val →
      t.lane k = s.hub.lane k) ∧ ∃ b, t.tx = s.hub.tx ++ [.lane lane 10 0 (s.hub.lane lane).cseq b]) ∧
  (∀ (s : State) (lane : Fin 16),
    s.hub.powered = true → ((s.hub.lane lane).st ≠ .up ∨ s.hub.clk.held = true ∨ s.hub.xoCycles < (s.hub.lane lane).landedAt + 491520) →
    Does (.slLandedTimer lane) s [] fun _ => True) ∧
  (∀ (s : State) (lane : Fin 16),
    s.hub.powered = true →
    Does (.slAbortSymbol lane) s [] fun _ => True) ∧
  (∀ (s : State) (lane : Fin 16) (hd : Nat) (n : Nat),
    s.hub.powered = true → (s.hub.lane lane).reset = [(hd, n)] → n + 4915200 ≤ s.hub.xoCycles →
    Does (.slResetTimeout lane) s [.host, .sl, .tx] fun t => (t.lane lane).reset = [] ∧ t = ({ s.hub with sl := t.sl } : Hub).complete hd
      TIMED_OUT [] ∧ (∀ k : Nat, k ≠ lane.val → t.lane k = s.hub.lane k)) ∧
  (∀ (s : State) (lane : Fin 16),
    s.hub.powered = true → (∀ r ∈ (s.hub.lane lane).reset, s.hub.xoCycles < r.2 + 4915200) →
    Does (.slResetTimeout lane) s [.sl] fun t => ∀ k, t.lane k = s.hub.lane k)

/-- Bring-up, retries, credit, probes and time marks of the cascade hops (R382, R389, R417, R418, R419, R420, R421, R422, R423, R424,
R434, R437). -/
def Obligations.CascadeLinkRows : Prop :=
  (∀ (s : State) (p : Fin 2),
    s.hub.powered = true → ((s.hub.cPort p).st = .up ∨ (s.hub.cPort p).st = .training) →
    Does (.cascLossOfLock p) s [.host, .evt, .tb, .jrn, .sto, .tiu, .sl, .casc, .tx] fun t => (t.cPort p).st = .training ∧
      (t.cPort p).step = 1 ∧ (t.cPort p).attempts = 0 ∧ (t.cPort p).txSeq = 0 ∧ (t.cPort p).rxSeq = 0 ∧ (t.cPort p).waiting = []) ∧
  (∀ (s : State) (p : Fin 2),
    s.hub.powered = true → (s.hub.cPort p).st ≠ .up → (s.hub.cPort p).st ≠ .training →
    Does (.cascLossOfLock p) s [] fun _ => True) ∧
  (∀ (s : State) (p : Fin 2) (inverted : Fin 4),
    s.hub.powered = true → (s.hub.cPort p).st = .training → (s.hub.cPort p).step < 5 →
    Does (.cascCommaAlignment p inverted) s [.casc] fun t => t.cPort p = { s.hub.cPort p with step := 5, stepAt := s.hub.xoCycles,
                                                                                              inverted := inverted.val } ∧
      (∀ k : Nat, k ≠ p.val → t.cPort k = s.hub.cPort k)) ∧
  (∀ (s : State) (p : Fin 2) (inverted : Fin 4),
    s.hub.powered = true → (s.hub.cPort p).st ≠ .training →
    Does (.cascCommaAlignment p inverted) s [] fun _ => True) ∧
  (∀ (s : State) (p : Fin 2) (lane : Fin 2) (g1 : Nat) (g2 : Nat) (skew : Nat),
    s.hub.powered = true → (s.hub.cPort p).st = .training → (s.hub.cPort p).step = 5 →
    Does (.cascAlignMarker p lane g1 g2 skew) s [.casc] fun t => (t.cPort p).step = 6 ∧ (t.cPort p).swapped = (g1 % 2 != lane.val) ∧
      (∀ k : Nat, k ≠ p.val → t.cPort k = s.hub.cPort k)) ∧
  (∀ (s : State) (p : Fin 2) (lane : Fin 2) (g1 : Nat) (g2 : Nat) (skew : Nat),
    s.hub.powered = true → (s.hub.cPort p).st = .training → (s.hub.cPort p).step = 6 → (s.hub.cPort p).lastCount = some (g2 % 256) →
      (s.hub.cPort p).markers ≠ 2 ^ (g1 % 2) → skew ≤ 64 →
    Does (.cascAlignMarker p lane g1 g2 skew) s [.casc, .tx, .free] fun t => (t.cPort p).step = 7 ∧
      (t.cPort p).txSeq = ((s.hub.cPort p).txSeq + 1) % 2 ^ 32 ∧ (∀ k : Nat, k ≠ p.val → t.cPort k = s.hub.cPort k) ∧
      t.tx = s.hub.tx ++ [.casc p 1 (s.hub.cPort p).txSeq (frameBytes 1 0 (s.hub.cPort p).txSeq 0 0 (t.cPort p).hello)]) ∧
  (∀ (s : State) (p : Fin 2) (lane : Fin 2) (g1 : Nat) (g2 : Nat) (skew : Nat),
    s.hub.powered = true → (s.hub.cPort p).st ≠ .up → (s.hub.cPort p).st ≠ .training →
    Does (.cascAlignMarker p lane g1 g2 skew) s [] fun _ => True) ∧
  (∀ (s : State) (p : Fin 2) (intact : Bool) (frame : List Byte) (b : List Byte),
    s.hub.powered = true → s.hub.clk.held = false → (s.hub.cPort p).st = .training → (s.hub.cPort p).step = 7 →
      (s.hub.cPort p).peerHello = [] → cascFault 1 0 intact frame = none → frameSeq frame = (s.hub.cPort p).rxSeq → framePay frame = b →
      b.length = 32 → s.hub.topologyBad p b = false → s.hub.cascMin ≤ min s.hub.cascMax (at_ b 3 1) →
      at_ b 2 1 ≤ min s.hub.cascMax (at_ b 3 1) → (s.hub.cPort p).partnerSerial = 0 → at_ b 5 3 = 0 →
    Does (.cascHelloReceive p intact frame) s [.casc, .tx] fun t => (t.cPort p).partner = at_ b 0 1 ∧
      (t.cPort p).partnerMaster = (at_ b 1 1).testBit 0 ∧ (t.cPort p).partnerSerial = at_ b 8 8 ∧
      (t.cPort p).level = min s.hub.cascMax (at_ b 3 1) ∧ (t.cPort p).rxSeq = ((s.hub.cPort p).rxSeq + 1) % 2 ^ 32 ∧
      (s.hub.downEnd p = true → t.casc.hops = min 255 (at_ b 4 1 + 1)) ∧ (∃ m, t.tx = s.hub.tx ++ [.casc p 2 (s.hub.cPort p).txSeq
      (frameBytes 2 0 (s.hub.cPort p).txSeq (t.cPort p).level 0 m)]) ∧ (∀ k : Nat, k ≠ p.val → t.cPort k = s.hub.cPort k)) ∧
  (∀ (s : State) (p : Fin 2) (intact : Bool) (frame : List Byte),
    s.hub.powered = true → (s.hub.cPort p).st ≠ .training →
    Does (.cascHelloReceive p intact frame) s [] fun _ => True) ∧
  (∀ (s : State) (p : Fin 2) (intact : Bool) (frame : List Byte) (b : List Byte),
    s.hub.powered = true → s.hub.clk.held = false → (s.hub.cPort p).st = .training → (s.hub.cPort p).step = 7 →
      (s.hub.cPort p).peerHello ≠ [] → cascFault 2 (s.hub.cPort p).level intact frame = none → frameSeq frame = (s.hub.cPort p).rxSeq →
      framePay frame = b → b.length = 20 → s.hub.installKey.key ≠ [] → s.hub.cascMac p (!s.hub.downEnd p) = b.drop 4 →
      at_ b 0 1 = (s.hub.cPort p).level → at_ b 1 3 = 0 → s.hub.downEnd p = true →
    Does (.cascAuthReceive p intact frame) s [.tiu, .sl, .casc, .tx] fun t => (t.cPort p).step = 8 ∧ (t.cPort p).helloOk = true ∧
      16 ∈ t.tiu.line9 ∧ (t.cPort p).rxSeq = ((s.hub.cPort p).rxSeq + 1) % 2 ^ 32 ∧ (∀ k : Nat, k ≠ p.val → t.cPort k = s.hub.cPort k)) ∧
  (∀ (s : State) (p : Fin 2) (intact : Bool) (frame : List Byte) (b : List Byte),
    s.hub.powered = true → s.hub.clk.held = false → (s.hub.cPort p).st = .training → (s.hub.cPort p).step = 7 →
      (s.hub.cPort p).peerHello ≠ [] → cascFault 2 (s.hub.cPort p).level intact frame = none → frameSeq frame = (s.hub.cPort p).rxSeq →
      framePay frame = b → b.length = 20 → s.hub.installKey.key ≠ [] → s.hub.cascMac p (!s.hub.downEnd p) = b.drop 4 →
      at_ b 0 1 = (s.hub.cPort p).level → at_ b 1 3 = 0 → s.hub.downEnd p = false → (s.hub.cPort p).rxSeq = 1 →
    Does (.cascAuthReceive p intact frame) s [.casc, .tx] fun t => (t.cPort p).st = .training ∧ (t.cPort p).step = 10 ∧
      (t.cPort p).helloOk = true ∧ (t.cPort p).rxSeq = 2 ∧ (∀ k : Nat, k ≠ p.val → t.cPort k = s.hub.cPort k)) ∧
  (∀ (s : State) (p : Fin 2) (intact : Bool) (frame : List Byte),
    s.hub.powered = true → (s.hub.cPort p).st ≠ .training →
    Does (.cascAuthReceive p intact frame) s [] fun _ => True) ∧
  (∀ (s : State) (p : Fin 2),
    s.hub.powered = true → (s.hub.cPort p).st = .refused → (s.hub.cPort p).stepAt + 49152000 ≤ s.hub.xoCycles →
    Does (.cascRefusedRetry p) s [.host, .evt, .tb, .jrn, .sto, .tiu, .sl, .casc, .tx] fun t => (t.cPort p).st = .training ∧
      (t.cPort p).step = 1 ∧ (t.cPort p).attempts = 0) ∧
  (∀ (s : State) (p : Fin 2),
    s.hub.powered = true → (s.hub.cPort p).st ≠ .refused →
    Does (.cascRefusedRetry p) s [] fun _ => True) ∧
  (∀ (s : State) (x : Machine.HopStep) (n : Nat),
    s.hub.powered = true → (s.hub.cPort x.p).st = .training → 5 ≤ (s.hub.cPort x.p).step → cascLimit (s.hub.cPort x.p).step x.phy = some n →
      (s.hub.cPort x.p).stepAt + n ≤ s.hub.xoCycles → (s.hub.cPort x.p).step ≠ 8 → (s.hub.cPort x.p).attempts < 2 →
    Does (.cascStepTimeout x) s [.host, .evt, .tb, .jrn, .sto, .tiu, .sl, .casc, .tx] fun t => (t.cPort x.p).st = .training ∧
      (t.cPort x.p).step = 1 ∧ (t.cPort x.p).attempts = (s.hub.cPort x.p).attempts + 1) ∧
  (∀ (s : State) (x : Machine.HopStep) (n : Nat),
    s.hub.powered = true → (s.hub.cPort x.p).st = .training → 5 ≤ (s.hub.cPort x.p).step → cascLimit (s.hub.cPort x.p).step x.phy = some n →
      (s.hub.cPort x.p).stepAt + n ≤ s.hub.xoCycles → (s.hub.cPort x.p).step ≠ 8 → 2 ≤ (s.hub.cPort x.p).attempts →
    Does (.cascStepTimeout x) s [.host, .evt, .tb, .jrn, .sto, .tiu, .sl, .casc, .tx] fun t => (t.cPort x.p).st = .down ∧
      (t.cPort x.p).downRaised = true) ∧
  (∀ (s : State) (x : Machine.HopStep),
    s.hub.powered = true → ((s.hub.cPort x.p).st ≠ .training ∨ (5 ≤ (s.hub.cPort x.p).step ∧ ∀ n, cascLimit (s.hub.cPort x.p).step x.phy =
      some n → s.hub.xoCycles < (s.hub.cPort x.p).stepAt + n)) →
    Does (.cascStepTimeout x) s [] fun _ => True) ∧
  (∀ (s : State) (p : Fin 2),
    s.hub.powered = true → (s.hub.cPort p).st = .down → (s.hub.cPort p).stepAt + 491520 ≤ s.hub.xoCycles →
    Does (.cascRetryTimer p) s [.host, .evt, .tb, .jrn, .sto, .tiu, .sl, .casc, .tx] fun t => (t.cPort p).st = .training ∧
      (t.cPort p).step = 1 ∧ (t.cPort p).attempts = 2) ∧
  (∀ (s : State) (p : Fin 2),
    s.hub.powered = true → (s.hub.cPort p).st ≠ .down →
    Does (.cascRetryTimer p) s [] fun _ => True) ∧
  (∀ (s : State) (p : Fin 2) (hd : Nat) (n : Nat),
    s.hub.powered = true → (s.hub.cPort p).reset = [(hd, n)] → n + 4915200 ≤ s.hub.xoCycles →
    Does (.cascLinkResetTimeout p) s [.host, .casc, .tx] fun t => (t.cPort p).reset = [] ∧
      t = ({ s.hub with casc := t.casc } : Hub).complete hd TIMED_OUT [] ∧ (∀ k : Nat, k ≠ p.val → t.cPort k = s.hub.cPort k)) ∧
  (∀ (s : State) (p : Fin 2),
    s.hub.powered = true → (∀ r ∈ (s.hub.cPort p).reset, s.hub.xoCycles < r.2 + 4915200) →
    Does (.cascLinkResetTimeout p) s [.casc] fun t => ∀ k, t.cPort k = s.hub.cPort k) ∧
  (∀ (s : State) (p : Fin 2),
    s.hub.powered = true → (s.hub.cPort p).st = .up → s.hub.clk.held = false → (s.hub.cPort p).creditAt + 4916 ≤ s.hub.xoCycles →
    Does (.cascCreditTimer p) s [.casc, .tx] fun t => (t.cPort p).txSeq = ((s.hub.cPort p).txSeq + 1) % 2 ^ 32 ∧
      (t.cPort p).rxSeq = (s.hub.cPort p).rxSeq ∧ (s.hub.cPort p).rxLimit ≤ (t.cPort p).rxLimit ∧ (∀ k : Nat, k ≠ p.val →
      t.cPort k = s.hub.cPort k) ∧ ∃ b, b.length = 8 ∧ t.tx = s.hub.tx ++ [.casc p 7 (s.hub.cPort p).txSeq (frameBytes 7 0 (s.hub.cPort
      p).txSeq (s.hub.cPort p).level 0 b)]) ∧
  (∀ (s : State) (p : Fin 2),
    s.hub.powered = true → (s.hub.cPort p).st ≠ .up → (s.hub.cPort p).st ≠ .training →
    Does (.cascCreditTimer p) s [] fun _ => True) ∧
  (∀ (s : State),
    s.hub.powered = true → s.hub.downEnd 0 = true → (s.hub.cPort 0).st = .up → s.hub.clk.held = false →
      s.hub.passed (s.hub.cPort 0).probeAt ((s.hub.cPort 0).use.probeInt * 49152) = true → (s.hub.cPort 0).unanswered < 3 →
    Does (.cascProbeTimer) s [.tiu, .sl, .casc, .tx] fun t => (t.cPort 0).probeAt = some s.hub.xoCycles ∧ 16 ∈ t.tiu.line9 ∧
      t.cPort 1 = s.hub.cPort 1 ∧ (s.hub.tiu.line9 = [] → (t.cPort 0).unanswered = (s.hub.cPort 0).unanswered + 1 ∧
      t.tx = s.hub.tx ++ [.csymbol 0 0 0x1C 0] ∧ t.sl = s.hub.sl)) ∧
  (∀ (s : State),
    s.hub.powered = true → (s.hub.downEnd 0 = false ∨ (s.hub.cPort 0).st ≠ .up) →
    Does (.cascProbeTimer) s [] fun _ => True) ∧
  (∀ (s : State),
    s.hub.powered = true → s.hub.downEnd 0 = true → (s.hub.cPort 0).st = .up → 2 ≤ (s.hub.cPort 0).level → s.hub.clk.held = false →
      s.hub.passed (s.hub.cPort 0).healthAt 491520000 = true →
    Does (.cascHopHealthTimer) s [.casc, .tx] fun t => (t.cPort 0).healthAt = some s.hub.xoCycles ∧ t.cPort 1 = s.hub.cPort 1 ∧
      ∃ b, b.length = 16 ∧ t.tx = s.hub.tx ++ [.casc 0 11 (s.hub.cPort 0).txSeq (frameBytes 11 0 (s.hub.cPort 0).txSeq (s.hub.cPort 0).level
      0 b)]) ∧
  (∀ (s : State),
    s.hub.powered = true → (s.hub.downEnd 0 = false ∨ (s.hub.cPort 0).st ≠ .up ∨ (s.hub.cPort 0).level < 2) →
    Does (.cascHopHealthTimer) s [] fun _ => True) ∧
  (∀ (s : State) (trip : Machine.RoundTrip) (turn : Nat) (r : List Nat),
    s.hub.powered = true → s.hub.tiu.calAll = false → 9 ∉ s.hub.tiu.lost → s.hub.clk.held = false →
      s.hub.tiu.fifo + 2 ≤ 512 + trip.drained → s.hub.tiu.line9 = 16 :: r → 16 ∉ r → s.hub.downEnd 0 = true → (s.hub.cPort 0).st = .up →
      (meanI (((s.hub.tripPs 16 trip - ((10 * turn : Nat) : Int) + (s.hub.cPort 0).use.asym) * 500 :: (s.hub.cPort 0).delays).take 16) -
      (s.hub.cPort 0).delta).natAbs ≤ (s.hub.cPort 0).use.jump * 1000 →
    Does (.cascDelayEcho trip turn) s [.tiu, .sl, .casc, .tx] fun t => (t.cPort 0).delta = meanI (((s.hub.tripPs 16 trip - ((10 * turn :
      Nat) : Int) + (s.hub.cPort 0).use.asym) * 500 :: (s.hub.cPort 0).delays).take 16) ∧ (t.cPort 0).unanswered = 0 ∧
      t.cPort 1 = s.hub.cPort 1) ∧
  (∀ (s : State) (trip : Machine.RoundTrip) (turn : Nat),
    s.hub.powered = true → s.hub.tiu.calAll = false → 9 ∉ s.hub.tiu.lost → (s.hub.downEnd 0 = false ∨ s.hub.clk.held = true ∨
      s.hub.tiu.line9.head? ≠ some 16) →
    Does (.cascDelayEcho trip turn) s [] fun _ => True) ∧
  (∀ (s : State) (group : Nat) (arrival : T64) (intact : Bool) (frame : List Byte) (b : List Byte),
    s.hub.powered = true → s.hub.downEnd 0 = true → (s.hub.cPort 0).st = .up → cascFault 3 (s.hub.cPort 0).level intact frame = none →
      framePay frame = b → b.length = 20 → at_ b 19 1 = 0 → at_ b 0 1 = group % 8 → s.hub.clk.held = false →
    Does (.cascTimeMark group arrival intact frame) s [.host, .evt, .tb, .jrn, .sto, .tiu, .net, .casc, .tx, .free] fun t => t.casc.hops =
      min 255 (at_ b 3 1 + 1) ∧ t.casc.mSource = at_ b 1 1 ∧ t.casc.mQuality = at_ b 2 1 ∧
      t.casc.lastE = roundDiv ((tDiff arrival (BitVec.ofNat 64 (at_ b 8 8)) + fsToT (s.hub.cPort 0).delta) * 1000000000000) (2 ^ 32)) ∧
  (∀ (s : State) (group : Nat) (arrival : T64) (intact : Bool) (frame : List Byte),
    s.hub.powered = true → (s.hub.downEnd 0 = false ∨ (s.hub.cPort 0).st ≠ .up) →
    Does (.cascTimeMark group arrival intact frame) s [] fun _ => True)

/-- Rosters, triggers, records, acknowledgements, credit and requests on a cascade hop (R190, R234, R323, R419, R420, R421, R425, R426,
R428, R429, R431, R433). -/
def Obligations.CascadeFrameRows : Prop :=
  (∀ (s : State) (p : Fin 2) (intact : Bool) (frame : List Byte),
    s.hub.powered = true → (s.hub.cPort p).carries = false →
    Does (.cascRosterReceive p intact frame) s [] fun _ => True) ∧
  (∀ (s : State) (p : Fin 2) (intact : Bool) (frame : List Byte),
    s.hub.powered = true → (s.hub.cPort p).carries = false →
    Does (.cascTriggerReceive p intact frame) s [] fun _ => True) ∧
  (∀ (s : State) (p : Fin 2) (intact : Bool) (frame : List Byte),
    s.hub.powered = true → (s.hub.cPort p).carries = false →
    Does (.cascRecordReceive p intact frame) s [] fun _ => True) ∧
  (∀ (s : State) (p : Fin 2) (intact : Bool) (frame : List Byte),
    s.hub.powered = true → (s.hub.cPort p).carries = false →
    Does (.cascAckReceive p intact frame) s [] fun _ => True) ∧
  (∀ (s : State) (p : Fin 2) (intact : Bool) (frame : List Byte),
    s.hub.powered = true → (s.hub.cPort p).carries = false →
    Does (.cascCreditReceive p intact frame) s [] fun _ => True) ∧
  (∀ (s : State) (p : Fin 2) (intact : Bool) (frame : List Byte),
    s.hub.powered = true → (s.hub.cPort p).carries = false →
    Does (.cascNakReceive p intact frame) s [] fun _ => True) ∧
  (∀ (s : State) (p : Fin 2) (intact : Bool) (frame : List Byte),
    s.hub.powered = true → (s.hub.cPort p).carries = false →
    Does (.cascEpochReqReceive p intact frame) s [] fun _ => True) ∧
  (∀ (s : State) (p : Fin 2) (intact : Bool) (frame : List Byte),
    s.hub.powered = true → (s.hub.cPort p).carries = false →
    Does (.cascHopHealthReceive p intact frame) s [] fun _ => True) ∧
  (∀ (s : State) (p : Fin 2) (intact : Bool) (frame : List Byte) (b : List Byte),
    s.hub.powered = true → s.hub.clk.held = false → (s.hub.cPort p).st = .up → cascFault 9 (s.hub.cPort p).level intact frame = none →
      frameSeq frame = (s.hub.cPort p).rxSeq → framePay frame = b → b.length = 4 + 4 * at_ b 0 1 → at_ b 1 3 = 0 → s.hub.isMaster = true →
      s.hub.rosterTwice p ((List.range (at_ b 0 1)).map fun i => at_ b (4 + 4 * i) 1) = false → (∀ i : Nat, i < at_ b 0 1 →
      at_ b (7 + 4 * i) 1 = 0) →
    Does (.cascRosterReceive p intact frame) s [.casc, .tx] fun t => (t.cPort p).rxSeq = ((s.hub.cPort p).rxSeq + 1) % 2 ^ 32 ∧
      (t.cPort p).roster = (List.range (at_ b 0 1)).map (fun i => (at_ b (4 + 4 * i) 1, at_ b (5 + 4 * i) 1, at_ b (6 + 4 * i) 1)) ∧
      (∀ k : Nat, k ≠ p.val → t.cPort k = s.hub.cPort k)) ∧
  (∀ (s : State) (p : Fin 2) (intact : Bool) (frame : List Byte) (b : List Byte),
    s.hub.powered = true → s.hub.clk.held = false → (s.hub.cPort p).st = .up → cascFault 4 (s.hub.cPort p).level intact frame = none →
      frameSeq frame = (s.hub.cPort p).rxSeq → framePay frame = b → b.length = 20 → at_ b 6 2 = 0 → at_ b 0 1 < 16 →
      at_ b 1 1 ≠ s.hub.sys.straps.hubId → at_ b 3 1 < 15 → (∀ e ∈ s.hub.casc.seen, e.1 ≠ at_ b 1 1) →
    Does (.cascTriggerReceive p intact frame) s [.host, .evt, .jrn, .trg, .casc, .tx] fun t => (t.cPort p).rxSeq = ((s.hub.cPort p).rxSeq +
      1) % 2 ^ 32 ∧ (at_ b 1 1, at_ b 16 4, s.hub.xoCycles) ∈ t.casc.seen) ∧
  (∀ (s : State) (p : Fin 2) (intact : Bool) (frame : List Byte) (b : List Byte),
    s.hub.powered = true → s.hub.clk.held = false → (s.hub.cPort p).st = .up → cascFault 5 (s.hub.cPort p).level intact frame = none →
      frameSeq frame = (s.hub.cPort p).rxSeq → framePay frame = b → 4 < b.length → at_ b 2 2 = 0 → at_ b 1 1 ≤ 1 →
      (s.hub.cPort p).rxUsed + creditCost b.length ≤ (s.hub.cPort p).rxLimit → (s.hub.cPort p).roster.any (fun e => e.1 == at_ b 0 1) = true
      → s.hub.isMaster = true →
    Does (.cascRecordReceive p intact frame) s [.jrn, .casc, .tx] fun t => (t.cPort p).rxSeq = ((s.hub.cPort p).rxSeq + 1) % 2 ^ 32 ∧
      (t.cPort p).rxUsed = (s.hub.cPort p).rxUsed + creditCost b.length ∧ t.casc.relayed = s.hub.casc.relayed ∧ (∀ k : Nat, k ≠ p.val →
      t.cPort k = s.hub.cPort k)) ∧
  (∀ (s : State) (p : Fin 2) (intact : Bool) (frame : List Byte) (b : List Byte),
    s.hub.powered = true → s.hub.clk.held = false → (s.hub.cPort p).st = .up → cascFault 5 (s.hub.cPort p).level intact frame = none →
      frameSeq frame = (s.hub.cPort p).rxSeq → framePay frame = b → 4 < b.length → at_ b 2 2 = 0 → at_ b 1 1 ≤ 1 →
      (s.hub.cPort p).rxUsed + creditCost b.length ≤ (s.hub.cPort p).rxLimit → (s.hub.cPort p).roster.any (fun e => e.1 == at_ b 0 1) = true
      → s.hub.isMaster = false →
    Does (.cascRecordReceive p intact frame) s [.casc, .tx] fun t => (t.cPort p).rxSeq = ((s.hub.cPort p).rxSeq + 1) % 2 ^ 32 ∧
      (t.cPort p).rxUsed = (s.hub.cPort p).rxUsed + creditCost b.length ∧ t.casc.relayed = s.hub.casc.relayed + (b.length - 4)) ∧
  (∀ (s : State) (p : Fin 2) (intact : Bool) (frame : List Byte) (b : List Byte),
    s.hub.powered = true → s.hub.clk.held = false → (s.hub.cPort p).st = .up → cascFault 6 (s.hub.cPort p).level intact frame = none →
      frameSeq frame = (s.hub.cPort p).rxSeq → framePay frame = b → b.length = 20 → at_ b 0 1 = 1 → at_ b 1 3 = 0 → s.hub.downEnd p = true →
      at_ b 4 1 = s.hub.sys.straps.hubId → at_ b 5 7 = 0 →
    Does (.cascAckReceive p intact frame) s [.host, .evt, .jrn, .sto, .flt, .sl, .casc, .tx] fun t => (t.cPort p).rxSeq = ((s.hub.cPort
      p).rxSeq + 1) % 2 ^ 32 ∧ t.jrn = (s.hub.acknowledge 2 s.hub.sys.straps.hubId (at_ b 12 8)).jrn) ∧
  (∀ (s : State) (p : Fin 2) (intact : Bool) (frame : List Byte) (b : List Byte),
    s.hub.powered = true → s.hub.clk.held = false → (s.hub.cPort p).st = .up → cascFault 7 (s.hub.cPort p).level intact frame = none →
      frameSeq frame = (s.hub.cPort p).rxSeq → framePay frame = b → b.length = 8 → (s.hub.cPort p).waiting = [] →
    Does (.cascCreditReceive p intact frame) s [.casc, .tx] fun t => (t.cPort p).rxSeq = ((s.hub.cPort p).rxSeq + 1) % 2 ^ 32 ∧
      (t.cPort p).txLimit = (s.hub.cPort p).txLimit + (diff32 (at_ b 0 4) (s.hub.cPort p).txLimit).toNat ∧ (∃ f, f.type = 7 ∧
      (t.cPort p).sent = (s.hub.cPort p).sent.filter (fun f => decide (0 < diff32 f.seq (at_ b 4 4))) ++ [f]) ∧ (p.val = 1 →
      t.cPort 0 = s.hub.cPort 0)) ∧
  (∀ (s : State) (p : Fin 2) (intact : Bool) (frame : List Byte) (b : List Byte),
    s.hub.powered = true → s.hub.clk.held = false → (s.hub.cPort p).st = .up → cascFault 8 (s.hub.cPort p).level intact frame = none →
      frameSeq frame = (s.hub.cPort p).rxSeq → framePay frame = b → b.length = 8 → at_ b 5 3 = 0 →
    Does (.cascNakReceive p intact frame) s [.casc, .tx] fun t => (t.cPort p).rxSeq = ((s.hub.cPort p).rxSeq + 1) % 2 ^ 32 ∧
      (∃ c, t.tx = s.hub.tx ++ (((s.hub.cPort p).sent.filter fun f => decide (0 ≤ diff32 f.seq (at_ b 0 4))).map fun f => .casc p f.type
      f.seq (frameBytes f.type 0 f.seq (s.hub.cPort p).level 0 f.body)) ++ [.casc p 7 (s.hub.cPort p).txSeq c]) ∧ (∀ k : Nat, k ≠ p.val →
      t.cPort k = s.hub.cPort k)) ∧
  (∀ (s : State) (p : Fin 2) (intact : Bool) (frame : List Byte) (b : List Byte),
    s.hub.powered = true → s.hub.clk.held = false → (s.hub.cPort p).st = .up → cascFault 10 (s.hub.cPort p).level intact frame = none →
      frameSeq frame = (s.hub.cPort p).rxSeq → framePay frame = b → b.length = 4 → at_ b 3 1 = 0 → s.hub.isMaster = true →
      0 < epochDiff s.hub.tb.epoch (at_ b 0 2) → s.hub.tb.pendBreak = [] →
    Does (.cascEpochReqReceive p intact frame) s [.tb, .casc, .tx] fun t => (t.cPort p).rxSeq = ((s.hub.cPort p).rxSeq + 1) % 2 ^ 32 ∧
      t.tb = { s.hub.tb with pendBreak := [{ e := 0, s := 0, epoch := some (at_ b 0 2), kind := 6, since := s.hub.tb.strobes }] } ∧
      (∀ k : Nat, k ≠ p.val → t.cPort k = s.hub.cPort k)) ∧
  (∀ (s : State) (p : Fin 2) (intact : Bool) (frame : List Byte) (b : List Byte),
    s.hub.powered = true → s.hub.clk.held = false → (s.hub.cPort p).st = .up → cascFault 11 (s.hub.cPort p).level intact frame = none →
      frameSeq frame = (s.hub.cPort p).rxSeq → framePay frame = b → b.length = 16 → 2 ≤ (s.hub.cPort p).level → at_ b 12 4 = 0 →
      s.hub.downEnd p = false →
    Does (.cascHopHealthReceive p intact frame) s [.casc, .tx] fun t => (t.cPort p).rxSeq = ((s.hub.cPort p).rxSeq + 1) % 2 ^ 32 ∧
      (t.cPort p).health = (at_ b 0 4, at_ b 4 4, at_ b 8 4) ∧ (∀ k : Nat, k ≠ p.val → t.cPort k = s.hub.cPort k))
end

