-- ==== Sys2Proof/Laws/Frame.lean ====
section
/-!
SUPPORT. Frames of lanes and cascade ports: a frame that the far end built passes the checks on it, and its fields read back.
-/
namespace Sys2Proof.Machine

@[simp] theorem length_leBytes (n x : Nat) : (leBytes n x).length = n := by simp [leBytes]
@[simp] theorem length_b1 (x : Nat) : (b1 x).length = 1 := length_leBytes 1 x
@[simp] theorem length_b2 (x : Nat) : (b2 x).length = 2 := length_leBytes 2 x
@[simp] theorem length_b4 (x : Nat) : (b4 x).length = 4 := length_leBytes 4 x
@[simp] theorem length_b8 (x : Nat) : (b8 x).length = 8 := length_leBytes 8 x

theorem leBytes_succ (n x : Nat) : leBytes (n + 1) x = BitVec.ofNat 8 x :: leBytes n (x / 256) := by
  simp only [leBytes, List.range_succ_eq_map, List.map_cons, List.map_map]
  congr 1
  · simp
  · apply List.map_congr_left
    intro i _
    simp [Nat.pow_succ, Nat.mul_comm (256 ^ i) 256, Nat.div_div_eq_div_mul]

/-- A number written in `n` bytes reads back. -/
theorem leNat_leBytes (n x : Nat) (h : x < 256 ^ n) : leNat (leBytes n x) = x := by
  induction n generalizing x with
  | zero => simp only [pow_zero, Nat.lt_one_iff] at h; subst h; rfl
  | succ n ih =>
    rw [leBytes_succ, leNat, ih _ (by rw [Nat.pow_succ] at h; omega)]
    simp only [BitVec.toNat_ofNat]
    omega

@[simp] theorem length_mac16 (k m : List Byte) : (mac16 k m).length = 16 := by
  simp only [mac16, padTo, List.length_append, List.length_replicate, List.length_take]
  omega

/-- A frame's header, before its payload. -/
def frameHead (type sub seq level flags len : Nat) : List Byte :=
  b1 type ++ b1 sub ++ b2 len ++ b4 seq ++ b1 level ++ b1 flags ++ b2 0

@[simp] theorem length_frameHead (a b c d e f : Nat) : (frameHead a b c d e f).length = 12 := by simp [frameHead]

theorem frameBytes_eq (a b c d e : Nat) (p : List Byte) :
    frameBytes a b c d e p = frameHead a b c d e p.length ++ p ++ leBytes 4 (crc32c (frameHead a b c d e p.length ++ p)).toNat := by
  simp [frameBytes, frameHead]

theorem drop_take_left {α : Type} (x y : List α) (i n : Nat) (h : i + n ≤ x.length) :
    ((x ++ y).drop i).take n = (x.drop i).take n := by
  rw [List.drop_append_of_le_length (by omega), List.take_append_of_le_length (by simp; omega)]

/-- The payload of a frame. -/
theorem framePay_frameBytes (a b c d e : Nat) (p : List Byte) : framePay (frameBytes a b c d e p) = p := by
  have h : 12 + (p.length + 4) - 16 = p.length := by omega
  rw [framePay, frameBytes_eq]
  simp [h]

/-- The sequence number of a frame. -/
theorem frameSeq_frameBytes (a b c d e : Nat) (p : List Byte) (h : c < 2 ^ 32) : frameSeq (frameBytes a b c d e p) = c := by
  rw [frameSeq, frameBytes_eq, List.append_assoc, drop_take_left _ _ _ _ (by simp)]
  have : ((frameHead a b c d e p.length).drop 4).take 4 = b4 c := by
    simp [frameHead, b1, b2, b4, leBytes, List.range_succ]
  rw [this]
  exact leNat_leBytes 4 c (by simpa using h)

/-- A frame built from a payload passes the checks of its link (R405, R433). -/
theorem frameFault_frameBytes (a b c d e m : Nat) (p : List Byte) (ha : a < 256) (hb : b < 256) (hd : d < 256) (he : e < 256) (hm : e ≤ m)
    (hp : p.length % 4 = 0) (hl : p.length ≤ 2048) : frameFault a b d m true (frameBytes a b c d e p) = none := by
  have hh : (frameHead a b c d e p.length ++ p).length = 12 + p.length := by simp
  have hlen : (frameBytes a b c d e p).length = p.length + 16 := by rw [frameBytes_eq]; simp; omega
  have g : ∀ i n, i + n ≤ 12 → ((frameBytes a b c d e p).drop i).take n = ((frameHead a b c d e p.length).drop i).take n := by
    intro i n h
    rw [frameBytes_eq, List.append_assoc, drop_take_left _ _ _ _ (by simpa using h)]
  have g0 : (frameBytes a b c d e p).take 1 = b1 a := by
    have := g 0 1 (by omega)
    simp only [List.drop_zero] at this
    rw [this]; simp [frameHead, b1, b2, b4, leBytes, List.range_succ]
  have g1 : ((frameBytes a b c d e p).drop 1).take 1 = b1 b := by
    rw [g 1 1 (by omega)]; simp [frameHead, b1, b2, b4, leBytes, List.range_succ]
  have g2 : ((frameBytes a b c d e p).drop 2).take 2 = b2 p.length := by
    rw [g 2 2 (by omega)]; simp [frameHead, b1, b2, b4, leBytes, List.range_succ]
  have g8 : ((frameBytes a b c d e p).drop 8).take 1 = b1 d := by
    rw [g 8 1 (by omega)]; simp [frameHead, b1, b2, b4, leBytes, List.range_succ]
  have g9 : ((frameBytes a b c d e p).drop 9).take 1 = b1 e := by
    rw [g 9 1 (by omega)]; simp [frameHead, b1, b2, b4, leBytes, List.range_succ]
  have g10 : ((frameBytes a b c d e p).drop 10).take 2 = b2 0 := by
    rw [g 10 2 (by omega)]; simp [frameHead, b1, b2, b4, leBytes, List.range_succ]
  have n1 : ∀ x, x < 256 → leNat (b1 x) = x := fun x hx => leNat_leBytes 1 x (by simpa using hx)
  have n2 : ∀ x, x < 65536 → leNat (b2 x) = x := fun x hx => leNat_leBytes 2 x (by simpa using hx)
  have t1 : (frameBytes a b c d e p).take (12 + p.length) = frameHead a b c d e p.length ++ p := by
    rw [frameBytes_eq, ← hh, List.take_left]
  have t2 : (frameBytes a b c d e p).drop (12 + p.length) = leBytes 4 (crc32c (frameHead a b c d e p.length ++ p)).toNat := by
    rw [frameBytes_eq, ← hh, List.drop_left]
  unfold frameFault
  simp only [g0, g1, g2, g8, g9, g10, n1 a ha, n1 b hb, n1 d hd, n1 e he, n2 _ (show p.length < 65536 by omega), n2 0 (by omega), hlen, t1, t2]
  rw [leNat_leBytes 4 _ (by have := (crc32c (frameHead a b c d e p.length ++ p)).isLt; simpa using this)]
  have hw : ∀ x : Word, wd x.toNat = x := fun x => by simp [wd]
  have hx : ¬ 2048 < p.length := by omega
  have hy : ¬ p.length + 16 < 16 := by omega
  have hz : ¬ m < e := by omega
  simp [hw, hp, hx, hy, hz]

/-- A cascade frame of at most 512 payload bytes passes the checks of its link (R433). -/
theorem cascFault_frameBytes (a c d : Nat) (p : List Byte) (ha : a < 256) (hd : d < 256) (hp : p.length % 4 = 0) (hl : p.length ≤ 512) :
    cascFault a d true (frameBytes a 0 c d 0 p) = none := by
  have h2 : leNat (((frameBytes a 0 c d 0 p).drop 2).take 2) = p.length := by
    rw [frameBytes_eq, List.append_assoc, drop_take_left _ _ _ _ (by simp)]
    have : ((frameHead a 0 c d 0 p.length).drop 2).take 2 = b2 p.length := by
      simp [frameHead, b1, b2, b4, leBytes, List.range_succ]
    rw [this]
    exact leNat_leBytes 2 _ (by simp; omega)
  rw [cascFault, h2, if_neg (by omega)]
  exact frameFault_frameBytes a 0 c d 0 0 p ha (by decide) hd (by decide) (le_refl _) hp (by omega)

/-- A field that lies in the first part of a payload. -/
theorem at_append (x y : List Byte) (i n : Nat) (h : i + n ≤ x.length) : at_ (x ++ y) i n = at_ x i n := by
  simp only [at_, drop_take_left _ _ _ _ h]

/-- A datagram sealed under the key of slot 0 authenticates (R328). -/
theorem Hub.ferryAuth_seal (h : Hub) (hdr plain : List Byte) (hk : (h.sto.ferryKeys.get 0).key.isEmpty = false)
    (hi : leNat ((hdr.drop 5).take 1) = (h.sto.ferryKeys.get 0).id) :
    h.ferryAuth hdr plain (ferrySeal (h.sto.ferryKeys.get 0).key hdr plain) = true := by
  simp [Hub.ferryAuth, List.any, List.range_succ, hk, hi]

end Sys2Proof.Machine
end

