-- ==== Sys2Proof/Laws/Tab.lean ====
section
/-!
SUPPORT. Tables: a read after a write, and that every table operation keeps the canonical form.
-/
namespace Sys2Proof.Machine

variable {α : Type} [Inhabited α]

theorem Tab.get_del (t : Tab α) (i j : Nat) : (t.del i).get j = if j = i then default else t.get j := by
  induction t with
  | nil => simp [Tab.del, Tab.get]
  | cons e t ih =>
    obtain ⟨k, v⟩ := e
    by_cases h : k = i
    · simp only [Tab.del, h, if_true, ih, Tab.get]
      by_cases hj : j = i
      · simp [hj]
      · simp [hj, Ne.symm hj]
    · simp only [Tab.del, h, if_false, Tab.get, ih]
      by_cases hk : k = j
      · subst hk; simp [h]
      · simp [hk]

theorem Tab.get_ins (t : Tab α) (i j : Nat) (v : α) (hi : ∀ w, (i, w) ∉ t) :
    (t.ins i v).get j = if j = i then v else t.get j := by
  induction t with
  | nil =>
    by_cases hj : j = i
    · simp [Tab.ins, Tab.get, hj]
    · simp [Tab.ins, Tab.get, hj, Ne.symm hj]
  | cons e t ih =>
    obtain ⟨k, w⟩ := e
    have hk : k ≠ i := fun hk => hi w (by simp [hk])
    have ht : ∀ w, (i, w) ∉ t := fun x hx => hi x (by simp [hx])
    by_cases hlt : i < k
    · simp only [Tab.ins, hlt, if_true, Tab.get]
      by_cases hj : j = i
      · simp [hj]
      · simp [hj, Ne.symm hj]
    · simp only [Tab.ins, hlt, if_false, Tab.get, ih ht]
      by_cases hkj : k = j
      · subst hkj; simp [hk]
      · simp [hkj]

omit [Inhabited α] in
theorem Tab.not_mem_del (t : Tab α) (i : Nat) (w : α) : (i, w) ∉ t.del i := by
  induction t with
  | nil => simp [Tab.del]
  | cons e t ih =>
    obtain ⟨k, v⟩ := e
    by_cases h : k = i
    · simp [Tab.del, h, ih]
    · simp [Tab.del, h, ih, Ne.symm h]

variable [DecidableEq α]

/-- A read after a write. -/
@[simp] theorem Tab.get_put (t : Tab α) (i j : Nat) (v : α) : (t.put i v).get j = if j = i then v else t.get j := by
  unfold Tab.put
  by_cases hv : v = default
  · simp [hv, Tab.get_del]
  · simp only [hv, if_false]
    rw [Tab.get_ins _ _ _ _ (Tab.not_mem_del t i), Tab.get_del]
    by_cases hj : j = i <;> simp [hj]

@[simp] theorem Tab.get_upd (t : Tab α) (i j : Nat) (f : α → α) : (t.upd i f).get j = if j = i then f (t.get i) else t.get j := by
  simp [Tab.upd]

omit [DecidableEq α] in
@[simp] theorem Tab.get_nil (j : Nat) : Tab.get ([] : Tab α) j = default := rfl

/-- A read after a write of consecutive entries. -/
theorem Tab.get_puts (vs : List α) (t : Tab α) (i j : Nat) :
    (t.puts i vs).get j = if i ≤ j ∧ j < i + vs.length then vs.getD (j - i) default else t.get j := by
  induction vs generalizing t i with
  | nil =>
    have : ¬ (i ≤ j ∧ j < i + ([] : List α).length) := by simp
    rw [if_neg this, Tab.puts]
  | cons v vs ih =>
    simp only [Tab.puts, ih, Tab.get_put, List.length_cons]
    by_cases h1 : j = i
    · subst h1; simp
    · by_cases h2 : i + 1 ≤ j ∧ j < i + 1 + vs.length
      · have h3 : i ≤ j ∧ j < i + (vs.length + 1) := by omega
        have h4 : j - i = (j - (i + 1)) + 1 := by omega
        simp [h2, h3, h4]
      · have h3 : ¬ (i ≤ j ∧ j < i + (vs.length + 1)) := by omega
        rw [if_neg h2, if_neg h3, if_neg h1]

theorem Tab.gets_puts (vs : List α) (t : Tab α) (i : Nat) : (t.puts i vs).gets i vs.length = vs := by
  apply List.ext_getElem
  · simp [Tab.gets]
  · intro n h1 h2
    simp only [Tab.gets, List.getElem_map, List.getElem_range, Tab.get_puts]
    have : i ≤ i + n ∧ i + n < i + vs.length := ⟨by omega, by omega⟩
    simp [this, h2]

/-! ## The canonical form -/

theorem Tab.rising_mono {β : Type} {lo lo' : Option Nat} {t : Tab β} (h : Tab.rising lo t = true)
    (hl : ∀ a, lo' = some a → ∃ b, lo = some b ∧ a ≤ b) : Tab.rising lo' t = true := by
  cases t with
  | nil => rfl
  | cons e t =>
    obtain ⟨k, v⟩ := e
    simp only [Tab.rising, Bool.and_eq_true] at h ⊢
    refine ⟨?_, h.2⟩
    cases lo' with
    | none => rfl
    | some a =>
      obtain ⟨b, rfl, hab⟩ := hl a rfl
      have := h.1
      simp only [Option.all_some, decide_eq_true_eq] at this ⊢
      omega

theorem Tab.rising_del {β : Type} (t : Tab β) (lo : Option Nat) (i : Nat) (h : Tab.rising lo t = true) :
    Tab.rising lo (t.del i) = true := by
  induction t generalizing lo with
  | nil => rfl
  | cons e t ih =>
    obtain ⟨k, v⟩ := e
    simp only [Tab.rising, Bool.and_eq_true] at h
    by_cases hk : k = i
    · simp only [Tab.del, hk, if_true]
      refine Tab.rising_mono (ih _ h.2) ?_
      intro a ha; subst ha
      refine ⟨k, rfl, ?_⟩
      have := h.1
      simp only [Option.all_some, decide_eq_true_eq] at this
      omega
    · simp only [Tab.del, hk, if_false, Tab.rising, Bool.and_eq_true]
      exact ⟨h.1, ih _ h.2⟩

theorem Tab.rising_ins {β : Type} (t : Tab β) (lo : Option Nat) (i : Nat) (v : β) (h : Tab.rising lo t = true)
    (hl : lo.all (fun a => decide (a < i)) = true) (hi : ∀ w, (i, w) ∉ t) : Tab.rising lo (t.ins i v) = true := by
  induction t generalizing lo with
  | nil => simp [Tab.ins, Tab.rising, hl]
  | cons e t ih =>
    obtain ⟨k, w⟩ := e
    have hk : k ≠ i := fun hk => hi w (by simp [hk])
    simp only [Tab.rising, Bool.and_eq_true] at h
    by_cases hlt : i < k
    · simp only [Tab.ins, hlt, if_true, Tab.rising, Bool.and_eq_true]
      exact ⟨hl, by simp [hlt], h.2⟩
    · simp only [Tab.ins, hlt, if_false, Tab.rising, Bool.and_eq_true]
      refine ⟨h.1, ih _ h.2 ?_ fun x hx => hi x (by simp [hx])⟩
      simp only [Option.all_some, decide_eq_true_eq]; omega

theorem Tab.mem_del {β : Type} (t : Tab β) (i : Nat) (e : Nat × β) (h : e ∈ t.del i) : e ∈ t := by
  induction t with
  | nil => exact h
  | cons x t ih =>
    obtain ⟨k, v⟩ := x
    by_cases hk : k = i
    · simp only [Tab.del, hk, if_true] at h; exact List.mem_cons_of_mem _ (ih h)
    · simp only [Tab.del, hk, if_false, List.mem_cons] at h
      rcases h with h | h
      · simp [h]
      · exact List.mem_cons_of_mem _ (ih h)

theorem Tab.mem_ins {β : Type} (t : Tab β) (i : Nat) (v : β) (e : Nat × β) (h : e ∈ t.ins i v) : e = (i, v) ∨ e ∈ t := by
  induction t with
  | nil => simpa [Tab.ins] using h
  | cons x t ih =>
    obtain ⟨k, w⟩ := x
    by_cases hlt : i < k
    · simp only [Tab.ins, hlt, if_true, List.mem_cons] at h ⊢
      tauto
    · simp only [Tab.ins, hlt, if_false, List.mem_cons] at h ⊢
      rcases h with h | h
      · simp [h]
      · rcases ih h with h | h <;> simp [h]

theorem Tab.wf_nil : Tab.wf ([] : Tab α) = true := rfl

/-- A write keeps the canonical form. -/
theorem Tab.wf_put (t : Tab α) (i : Nat) (v : α) (h : t.wf = true) : (t.put i v).wf = true := by
  simp only [Tab.wf, Bool.and_eq_true, List.all_eq_true, decide_eq_true_eq] at h ⊢
  unfold Tab.put
  by_cases hv : v = default
  · simp only [hv, if_true]
    exact ⟨Tab.rising_del _ _ _ h.1, fun e he => h.2 e (Tab.mem_del _ _ _ he)⟩
  · simp only [hv, if_false]
    refine ⟨Tab.rising_ins _ _ _ _ (Tab.rising_del _ _ _ h.1) (by simp) (Tab.not_mem_del t i), fun e he => ?_⟩
    rcases Tab.mem_ins _ _ _ _ he with he | he
    · simp [he, hv]
    · exact h.2 e (Tab.mem_del _ _ _ he)

theorem Tab.wf_upd (t : Tab α) (i : Nat) (f : α → α) (h : t.wf = true) : (t.upd i f).wf = true := Tab.wf_put _ _ _ h

theorem Tab.wf_puts (vs : List α) (t : Tab α) (i : Nat) (h : t.wf = true) : (t.puts i vs).wf = true := by
  induction vs generalizing t i with
  | nil => exact h
  | cons v vs ih => exact ih _ _ (Tab.wf_put _ _ _ h)

theorem Tab.wf_mapAll (t : Tab α) (f : Nat → α → α) : (t.mapAll f).wf = true := by
  have : ∀ (l : Tab α) (r : Tab α), r.wf = true → (l.foldl (fun r kv => r.put kv.1 (f kv.1 kv.2)) r).wf = true := by
    intro l
    induction l with
    | nil => intro r hr; exact hr
    | cons e l ih => intro r hr; exact ih _ (Tab.wf_put _ _ _ hr)
  exact this t [] Tab.wf_nil

omit [DecidableEq α] in
/-- In the canonical form a key below the first lists nothing. -/
theorem Tab.get_below (t : Tab α) (a j : Nat) (h : Tab.rising (some a) t = true) (hj : j ≤ a) : t.get j = default := by
  induction t generalizing a with
  | nil => rfl
  | cons e t ih =>
    obtain ⟨k, v⟩ := e
    simp only [Tab.rising, Bool.and_eq_true, Option.all_some, decide_eq_true_eq] at h
    have : k ≠ j := by omega
    simp only [Tab.get, this, if_false]
    exact ih k h.2 (by omega)

/-- Equal reads make equal tables. -/
theorem Tab.ext_wf (t u : Tab α) (ht : t.wf = true) (hu : u.wf = true) (h : ∀ i, t.get i = u.get i) : t = u := by
  have key : ∀ (t u : Tab α) (lo : Option Nat), Tab.rising lo t = true → Tab.rising lo u = true →
      (∀ e ∈ t, e.2 ≠ default) → (∀ e ∈ u, e.2 ≠ default) → (∀ i, t.get i = u.get i) → t = u := by
    intro t
    induction t with
    | nil =>
      intro u lo _ hu _ hd h
      cases u with
      | nil => rfl
      | cons e u =>
        obtain ⟨k, v⟩ := e
        have := h k
        simp only [Tab.get, if_true] at this
        exact absurd this.symm (hd (k, v) (by simp))
    | cons e t ih =>
      intro u lo ht hu hdt hdu h
      obtain ⟨k, v⟩ := e
      cases u with
      | nil =>
        have := h k
        simp only [Tab.get, if_true] at this
        exact absurd this (hdt (k, v) (by simp))
      | cons e' u =>
        obtain ⟨k', v'⟩ := e'
        simp only [Tab.rising, Bool.and_eq_true] at ht hu
        have hkk : k = k' := by
          rcases Nat.lt_trichotomy k k' with hlt | heq | hgt
          · have h1 := h k
            have hne : k' ≠ k := by omega
            simp only [Tab.get, if_true, hne, if_false] at h1
            rw [Tab.get_below u k' k hu.2 (by omega)] at h1
            exact absurd h1 (hdt (k, v) (by simp))
          · exact heq
          · have h1 := h k'
            have hne : k ≠ k' := by omega
            simp only [Tab.get, if_true, hne, if_false] at h1
            rw [Tab.get_below t k k' ht.2 (by omega)] at h1
            exact absurd h1.symm (hdu (k', v') (by simp))
        subst hkk
        have hv : v = v' := by have := h k; simpa [Tab.get] using this
        subst hv
        have : t = u := by
          refine ih u (some k) ht.2 hu.2 (fun e he => hdt e (by simp [he])) (fun e he => hdu e (by simp [he])) ?_
          intro i
          by_cases hik : i ≤ k
          · rw [Tab.get_below t k i ht.2 hik, Tab.get_below u k i hu.2 hik]
          · have := h i
            have hne : k ≠ i := by omega
            simpa [Tab.get, hne] using this
        rw [this]
  simp only [Tab.wf, Bool.and_eq_true, List.all_eq_true, decide_eq_true_eq] at ht hu
  exact key t u none ht.1 hu.1 ht.2 hu.2 h

end Sys2Proof.Machine
end

