-- ==== Sys2Proof/Laws/Mail.lean ====
section
/-!
SUPPORT. What a Kelnen command does when the firmware takes it at once.
-/
namespace Sys2Proof.Machine

/-- The command of `c` runs in the hub `g` that executes it, and is answered or accepted. -/
def Hub.ran (g : Hub) (c : CmdSpec) (m : Nat) (tag : Word) (pl : List Word) (crc : Bool) : Hub :=
  if c.long g pl then
    let k := (g.freeSlot m).getD 0
    let g := g.allocSlot k c.opcode tag m
    let r := c.run g { mb := m, tag := tag, handle := g.handleOf k, pl := pl }
    (r.hub.noteTag m ACCEPTED tag).respond m ACCEPTED (g.handleOf k) tag r.words crc
  else
    let r := c.run g { mb := m, tag := tag, handle := 0, pl := pl }
    if r.wait then r.hub else (r.hub.noteTag m r.status tag).respond m r.status 0 tag r.words crc

/-- A command that no check refuses runs in the hub that executes it. -/
theorem Hub.perform_passes (h g : Hub) (c : CmdSpec) (m : Nat) (w0 w1 w2 w3 : Word) (pl : List Word)
    (hg : g = { (h.updMb m fun x => { x with state := .busy, taken := (x.taken + 1) % 256 }) with
      host := { (h.updMb m fun x => { x with state := .busy, taken := (x.taken + 1) % 256 }).host with
        posted := (h.updMb m fun x => { x with state := .busy, taken := (x.taken + 1) % 256 }).host.posted.filter (· != m) } })
    (hc : g.checkCmd (some c) m w0 w1 w2 w3 pl = none) :
    h.perform (some c) m w0 w1 w2 w3 pl = g.ran c m w1 pl (bit w0 16) := by
  subst hg
  simp only [Hub.perform, hc]
  rfl

/-- A posted command keeps the firmware able to take it, and stands alone when nothing waited (R480, R482). -/
theorem Hub.canTake_mailed (h : Hub) (c : CmdSpec) (m : Nat) (tag : Word) (pl : List Word) (hc : h.canTake = true) :
    (h.mailed c m tag pl).canTake = true := by
  simp only [Hub.canTake, Hub.mailed, Hub.ring, Hub.updMb, Bool.and_eq_true, List.all_eq_true, Tab.get_upd] at hc ⊢
  refine ⟨hc.1, fun k hk => ?_⟩
  by_cases h1 : k = m
  · simp [h1]
  · simpa [h1] using hc.2 k hk

theorem Hub.nextPosted_mailed (h : Hub) (c : CmdSpec) (m : Nat) (tag : Word) (pl : List Word) (ha : h.host.posted = []) :
    (h.mailed c m tag pl).nextPosted = some m := by
  simp only [Hub.nextPosted, Hub.mailed, Hub.ring, Hub.updMb, ha, List.nil_append, List.mem_singleton, List.head?_cons]
  split <;> simp_all

/-- A command that the firmware takes at once and no check refuses is run and answered. -/
theorem State.mailRow_takes (s : State) (c : CmdSpec) (mb : Fin 8) (tag : Word) (pl : List Word) (h : s.takes c mb tag pl = true) :
    s.mailRow c mb tag pl =
      .next { s with hub := ((s.hub.executing c mb tag pl).ran c mb tag pl (bit (cmdHeader c.opcode pl.length) 16)).openUsed } := by
  simp only [State.takes, State.reaches, Bool.and_eq_true, beq_iff_eq, List.isEmpty_iff, Option.isNone_iff_eq_none] at h
  obtain ⟨⟨⟨⟨⟨hp, hl⟩, hi⟩, ha⟩, ht⟩, hc⟩ := h
  simp only [State.mailRow, checked, hl, if_true, State.row, State.powerRow, hp, Hub.mail, hi,
    Hub.canTake_mailed _ _ _ _ _ ht, Hub.nextPosted_mailed _ _ _ _ _ ha, beq_self_eq_true, Bool.and_self]
  rw [Hub.perform_passes _ (s.hub.executing c mb tag pl) c mb (cmdHeader c.opcode pl.length) tag 0 0 pl rfl hc]

end Sys2Proof.Machine
end

