-- ==== Sys2Proof/Laws/State.lean ====
section
/-!
SUPPORT. What the shared operations change: for each, one lemma that says which chapters of the state it may change, and one
simp lemma for each chapter that it leaves alone.
-/
namespace Sys2Proof.Machine

/-! ### send -/

@[simp] theorem Hub.send_cfg (h : Hub) (x : Tx) : (h.send x).cfg = h.cfg := rfl
@[simp] theorem Hub.send_sys (h : Hub) (x : Tx) : (h.send x).sys = h.sys := rfl
@[simp] theorem Hub.send_host (h : Hub) (x : Tx) : (h.send x).host = h.host := rfl
@[simp] theorem Hub.send_evt (h : Hub) (x : Tx) : (h.send x).evt = h.evt := rfl
@[simp] theorem Hub.send_clk (h : Hub) (x : Tx) : (h.send x).clk = h.clk := rfl
@[simp] theorem Hub.send_tb (h : Hub) (x : Tx) : (h.send x).tb = h.tb := rfl
@[simp] theorem Hub.send_jrn (h : Hub) (x : Tx) : (h.send x).jrn = h.jrn := rfl
@[simp] theorem Hub.send_sto (h : Hub) (x : Tx) : (h.send x).sto = h.sto := rfl
@[simp] theorem Hub.send_act (h : Hub) (x : Tx) : (h.send x).act = h.act := rfl
@[simp] theorem Hub.send_fe (h : Hub) (x : Tx) : (h.send x).fe = h.fe := rfl
@[simp] theorem Hub.send_flt (h : Hub) (x : Tx) : (h.send x).flt = h.flt := rfl
@[simp] theorem Hub.send_cal (h : Hub) (x : Tx) : (h.send x).cal = h.cal := rfl
@[simp] theorem Hub.send_trg (h : Hub) (x : Tx) : (h.send x).trg = h.trg := rfl
@[simp] theorem Hub.send_cod (h : Hub) (x : Tx) : (h.send x).cod = h.cod := rfl
@[simp] theorem Hub.send_tiu (h : Hub) (x : Tx) : (h.send x).tiu = h.tiu := rfl
@[simp] theorem Hub.send_net (h : Hub) (x : Tx) : (h.send x).net = h.net := rfl
@[simp] theorem Hub.send_sl (h : Hub) (x : Tx) : (h.send x).sl = h.sl := rfl
@[simp] theorem Hub.send_casc (h : Hub) (x : Tx) : (h.send x).casc = h.casc := rfl
@[simp] theorem Hub.send_free (h : Hub) (x : Tx) : (h.send x).free = h.free := rfl

/-! ### updMb -/

@[simp] theorem Hub.updMb_cfg (h : Hub) (m : Nat) (f : Mailbox → Mailbox) : (h.updMb m f).cfg = h.cfg := rfl
@[simp] theorem Hub.updMb_sys (h : Hub) (m : Nat) (f : Mailbox → Mailbox) : (h.updMb m f).sys = h.sys := rfl
@[simp] theorem Hub.updMb_evt (h : Hub) (m : Nat) (f : Mailbox → Mailbox) : (h.updMb m f).evt = h.evt := rfl
@[simp] theorem Hub.updMb_clk (h : Hub) (m : Nat) (f : Mailbox → Mailbox) : (h.updMb m f).clk = h.clk := rfl
@[simp] theorem Hub.updMb_tb (h : Hub) (m : Nat) (f : Mailbox → Mailbox) : (h.updMb m f).tb = h.tb := rfl
@[simp] theorem Hub.updMb_jrn (h : Hub) (m : Nat) (f : Mailbox → Mailbox) : (h.updMb m f).jrn = h.jrn := rfl
@[simp] theorem Hub.updMb_sto (h : Hub) (m : Nat) (f : Mailbox → Mailbox) : (h.updMb m f).sto = h.sto := rfl
@[simp] theorem Hub.updMb_act (h : Hub) (m : Nat) (f : Mailbox → Mailbox) : (h.updMb m f).act = h.act := rfl
@[simp] theorem Hub.updMb_fe (h : Hub) (m : Nat) (f : Mailbox → Mailbox) : (h.updMb m f).fe = h.fe := rfl
@[simp] theorem Hub.updMb_flt (h : Hub) (m : Nat) (f : Mailbox → Mailbox) : (h.updMb m f).flt = h.flt := rfl
@[simp] theorem Hub.updMb_cal (h : Hub) (m : Nat) (f : Mailbox → Mailbox) : (h.updMb m f).cal = h.cal := rfl
@[simp] theorem Hub.updMb_trg (h : Hub) (m : Nat) (f : Mailbox → Mailbox) : (h.updMb m f).trg = h.trg := rfl
@[simp] theorem Hub.updMb_cod (h : Hub) (m : Nat) (f : Mailbox → Mailbox) : (h.updMb m f).cod = h.cod := rfl
@[simp] theorem Hub.updMb_tiu (h : Hub) (m : Nat) (f : Mailbox → Mailbox) : (h.updMb m f).tiu = h.tiu := rfl
@[simp] theorem Hub.updMb_net (h : Hub) (m : Nat) (f : Mailbox → Mailbox) : (h.updMb m f).net = h.net := rfl
@[simp] theorem Hub.updMb_sl (h : Hub) (m : Nat) (f : Mailbox → Mailbox) : (h.updMb m f).sl = h.sl := rfl
@[simp] theorem Hub.updMb_casc (h : Hub) (m : Nat) (f : Mailbox → Mailbox) : (h.updMb m f).casc = h.casc := rfl
@[simp] theorem Hub.updMb_tx (h : Hub) (m : Nat) (f : Mailbox → Mailbox) : (h.updMb m f).tx = h.tx := rfl
@[simp] theorem Hub.updMb_free (h : Hub) (m : Nat) (f : Mailbox → Mailbox) : (h.updMb m f).free = h.free := rfl

/-! ### msix -/

theorem Hub.msix_frame (h : Hub) (v : Nat) :
    ∃ o x, h.msix v = { h with host := o, tx := x } := by
  unfold Hub.msix
  split
  · exact ⟨_, _, rfl⟩
  · split <;> exact ⟨_, _, rfl⟩
@[simp] theorem Hub.msix_cfg (h : Hub) (v : Nat) : (h.msix v).cfg = h.cfg := by
  obtain ⟨_, _, e⟩ := h.msix_frame v; exact (congrArg Hub.cfg e :)
@[simp] theorem Hub.msix_sys (h : Hub) (v : Nat) : (h.msix v).sys = h.sys := by
  obtain ⟨_, _, e⟩ := h.msix_frame v; exact (congrArg Hub.sys e :)
@[simp] theorem Hub.msix_evt (h : Hub) (v : Nat) : (h.msix v).evt = h.evt := by
  obtain ⟨_, _, e⟩ := h.msix_frame v; exact (congrArg Hub.evt e :)
@[simp] theorem Hub.msix_clk (h : Hub) (v : Nat) : (h.msix v).clk = h.clk := by
  obtain ⟨_, _, e⟩ := h.msix_frame v; exact (congrArg Hub.clk e :)
@[simp] theorem Hub.msix_tb (h : Hub) (v : Nat) : (h.msix v).tb = h.tb := by
  obtain ⟨_, _, e⟩ := h.msix_frame v; exact (congrArg Hub.tb e :)
@[simp] theorem Hub.msix_jrn (h : Hub) (v : Nat) : (h.msix v).jrn = h.jrn := by
  obtain ⟨_, _, e⟩ := h.msix_frame v; exact (congrArg Hub.jrn e :)
@[simp] theorem Hub.msix_sto (h : Hub) (v : Nat) : (h.msix v).sto = h.sto := by
  obtain ⟨_, _, e⟩ := h.msix_frame v; exact (congrArg Hub.sto e :)
@[simp] theorem Hub.msix_act (h : Hub) (v : Nat) : (h.msix v).act = h.act := by
  obtain ⟨_, _, e⟩ := h.msix_frame v; exact (congrArg Hub.act e :)
@[simp] theorem Hub.msix_fe (h : Hub) (v : Nat) : (h.msix v).fe = h.fe := by
  obtain ⟨_, _, e⟩ := h.msix_frame v; exact (congrArg Hub.fe e :)
@[simp] theorem Hub.msix_flt (h : Hub) (v : Nat) : (h.msix v).flt = h.flt := by
  obtain ⟨_, _, e⟩ := h.msix_frame v; exact (congrArg Hub.flt e :)
@[simp] theorem Hub.msix_cal (h : Hub) (v : Nat) : (h.msix v).cal = h.cal := by
  obtain ⟨_, _, e⟩ := h.msix_frame v; exact (congrArg Hub.cal e :)
@[simp] theorem Hub.msix_trg (h : Hub) (v : Nat) : (h.msix v).trg = h.trg := by
  obtain ⟨_, _, e⟩ := h.msix_frame v; exact (congrArg Hub.trg e :)
@[simp] theorem Hub.msix_cod (h : Hub) (v : Nat) : (h.msix v).cod = h.cod := by
  obtain ⟨_, _, e⟩ := h.msix_frame v; exact (congrArg Hub.cod e :)
@[simp] theorem Hub.msix_tiu (h : Hub) (v : Nat) : (h.msix v).tiu = h.tiu := by
  obtain ⟨_, _, e⟩ := h.msix_frame v; exact (congrArg Hub.tiu e :)
@[simp] theorem Hub.msix_net (h : Hub) (v : Nat) : (h.msix v).net = h.net := by
  obtain ⟨_, _, e⟩ := h.msix_frame v; exact (congrArg Hub.net e :)
@[simp] theorem Hub.msix_sl (h : Hub) (v : Nat) : (h.msix v).sl = h.sl := by
  obtain ⟨_, _, e⟩ := h.msix_frame v; exact (congrArg Hub.sl e :)
@[simp] theorem Hub.msix_casc (h : Hub) (v : Nat) : (h.msix v).casc = h.casc := by
  obtain ⟨_, _, e⟩ := h.msix_frame v; exact (congrArg Hub.casc e :)
@[simp] theorem Hub.msix_free (h : Hub) (v : Nat) : (h.msix v).free = h.free := by
  obtain ⟨_, _, e⟩ := h.msix_frame v; exact (congrArg Hub.free e :)

/-! ### edge -/

theorem Hub.edge_frame (h : Hub) (a b : Bool) (v : Nat) :
    ∃ o x, h.edge a b v = { h with host := o, tx := x } := by
  unfold Hub.edge
  split
  · exact h.msix_frame v
  · exact ⟨_, _, rfl⟩
@[simp] theorem Hub.edge_cfg (h : Hub) (a b : Bool) (v : Nat) : (h.edge a b v).cfg = h.cfg := by
  obtain ⟨_, _, e⟩ := h.edge_frame a b v; exact (congrArg Hub.cfg e :)
@[simp] theorem Hub.edge_sys (h : Hub) (a b : Bool) (v : Nat) : (h.edge a b v).sys = h.sys := by
  obtain ⟨_, _, e⟩ := h.edge_frame a b v; exact (congrArg Hub.sys e :)
@[simp] theorem Hub.edge_evt (h : Hub) (a b : Bool) (v : Nat) : (h.edge a b v).evt = h.evt := by
  obtain ⟨_, _, e⟩ := h.edge_frame a b v; exact (congrArg Hub.evt e :)
@[simp] theorem Hub.edge_clk (h : Hub) (a b : Bool) (v : Nat) : (h.edge a b v).clk = h.clk := by
  obtain ⟨_, _, e⟩ := h.edge_frame a b v; exact (congrArg Hub.clk e :)
@[simp] theorem Hub.edge_tb (h : Hub) (a b : Bool) (v : Nat) : (h.edge a b v).tb = h.tb := by
  obtain ⟨_, _, e⟩ := h.edge_frame a b v; exact (congrArg Hub.tb e :)
@[simp] theorem Hub.edge_jrn (h : Hub) (a b : Bool) (v : Nat) : (h.edge a b v).jrn = h.jrn := by
  obtain ⟨_, _, e⟩ := h.edge_frame a b v; exact (congrArg Hub.jrn e :)
@[simp] theorem Hub.edge_sto (h : Hub) (a b : Bool) (v : Nat) : (h.edge a b v).sto = h.sto := by
  obtain ⟨_, _, e⟩ := h.edge_frame a b v; exact (congrArg Hub.sto e :)
@[simp] theorem Hub.edge_act (h : Hub) (a b : Bool) (v : Nat) : (h.edge a b v).act = h.act := by
  obtain ⟨_, _, e⟩ := h.edge_frame a b v; exact (congrArg Hub.act e :)
@[simp] theorem Hub.edge_fe (h : Hub) (a b : Bool) (v : Nat) : (h.edge a b v).fe = h.fe := by
  obtain ⟨_, _, e⟩ := h.edge_frame a b v; exact (congrArg Hub.fe e :)
@[simp] theorem Hub.edge_flt (h : Hub) (a b : Bool) (v : Nat) : (h.edge a b v).flt = h.flt := by
  obtain ⟨_, _, e⟩ := h.edge_frame a b v; exact (congrArg Hub.flt e :)
@[simp] theorem Hub.edge_cal (h : Hub) (a b : Bool) (v : Nat) : (h.edge a b v).cal = h.cal := by
  obtain ⟨_, _, e⟩ := h.edge_frame a b v; exact (congrArg Hub.cal e :)
@[simp] theorem Hub.edge_trg (h : Hub) (a b : Bool) (v : Nat) : (h.edge a b v).trg = h.trg := by
  obtain ⟨_, _, e⟩ := h.edge_frame a b v; exact (congrArg Hub.trg e :)
@[simp] theorem Hub.edge_cod (h : Hub) (a b : Bool) (v : Nat) : (h.edge a b v).cod = h.cod := by
  obtain ⟨_, _, e⟩ := h.edge_frame a b v; exact (congrArg Hub.cod e :)
@[simp] theorem Hub.edge_tiu (h : Hub) (a b : Bool) (v : Nat) : (h.edge a b v).tiu = h.tiu := by
  obtain ⟨_, _, e⟩ := h.edge_frame a b v; exact (congrArg Hub.tiu e :)
@[simp] theorem Hub.edge_net (h : Hub) (a b : Bool) (v : Nat) : (h.edge a b v).net = h.net := by
  obtain ⟨_, _, e⟩ := h.edge_frame a b v; exact (congrArg Hub.net e :)
@[simp] theorem Hub.edge_sl (h : Hub) (a b : Bool) (v : Nat) : (h.edge a b v).sl = h.sl := by
  obtain ⟨_, _, e⟩ := h.edge_frame a b v; exact (congrArg Hub.sl e :)
@[simp] theorem Hub.edge_casc (h : Hub) (a b : Bool) (v : Nat) : (h.edge a b v).casc = h.casc := by
  obtain ⟨_, _, e⟩ := h.edge_frame a b v; exact (congrArg Hub.casc e :)
@[simp] theorem Hub.edge_free (h : Hub) (a b : Bool) (v : Nat) : (h.edge a b v).free = h.free := by
  obtain ⟨_, _, e⟩ := h.edge_frame a b v; exact (congrArg Hub.free e :)

/-! ### logWrite -/

@[simp] theorem Hub.logWrite_cfg (h : Hub) (ev sev : Nat) (data : List Byte) (t : T64) (epoch : Nat) (isLocal : Bool) : (h.logWrite ev sev data t epoch isLocal).cfg = h.cfg := rfl
@[simp] theorem Hub.logWrite_sys (h : Hub) (ev sev : Nat) (data : List Byte) (t : T64) (epoch : Nat) (isLocal : Bool) : (h.logWrite ev sev data t epoch isLocal).sys = h.sys := rfl
@[simp] theorem Hub.logWrite_host (h : Hub) (ev sev : Nat) (data : List Byte) (t : T64) (epoch : Nat) (isLocal : Bool) : (h.logWrite ev sev data t epoch isLocal).host = h.host := rfl
@[simp] theorem Hub.logWrite_clk (h : Hub) (ev sev : Nat) (data : List Byte) (t : T64) (epoch : Nat) (isLocal : Bool) : (h.logWrite ev sev data t epoch isLocal).clk = h.clk := rfl
@[simp] theorem Hub.logWrite_tb (h : Hub) (ev sev : Nat) (data : List Byte) (t : T64) (epoch : Nat) (isLocal : Bool) : (h.logWrite ev sev data t epoch isLocal).tb = h.tb := rfl
@[simp] theorem Hub.logWrite_jrn (h : Hub) (ev sev : Nat) (data : List Byte) (t : T64) (epoch : Nat) (isLocal : Bool) : (h.logWrite ev sev data t epoch isLocal).jrn = h.jrn := rfl
@[simp] theorem Hub.logWrite_sto (h : Hub) (ev sev : Nat) (data : List Byte) (t : T64) (epoch : Nat) (isLocal : Bool) : (h.logWrite ev sev data t epoch isLocal).sto = h.sto := rfl
@[simp] theorem Hub.logWrite_act (h : Hub) (ev sev : Nat) (data : List Byte) (t : T64) (epoch : Nat) (isLocal : Bool) : (h.logWrite ev sev data t epoch isLocal).act = h.act := rfl
@[simp] theorem Hub.logWrite_fe (h : Hub) (ev sev : Nat) (data : List Byte) (t : T64) (epoch : Nat) (isLocal : Bool) : (h.logWrite ev sev data t epoch isLocal).fe = h.fe := rfl
@[simp] theorem Hub.logWrite_flt (h : Hub) (ev sev : Nat) (data : List Byte) (t : T64) (epoch : Nat) (isLocal : Bool) : (h.logWrite ev sev data t epoch isLocal).flt = h.flt := rfl
@[simp] theorem Hub.logWrite_cal (h : Hub) (ev sev : Nat) (data : List Byte) (t : T64) (epoch : Nat) (isLocal : Bool) : (h.logWrite ev sev data t epoch isLocal).cal = h.cal := rfl
@[simp] theorem Hub.logWrite_trg (h : Hub) (ev sev : Nat) (data : List Byte) (t : T64) (epoch : Nat) (isLocal : Bool) : (h.logWrite ev sev data t epoch isLocal).trg = h.trg := rfl
@[simp] theorem Hub.logWrite_cod (h : Hub) (ev sev : Nat) (data : List Byte) (t : T64) (epoch : Nat) (isLocal : Bool) : (h.logWrite ev sev data t epoch isLocal).cod = h.cod := rfl
@[simp] theorem Hub.logWrite_tiu (h : Hub) (ev sev : Nat) (data : List Byte) (t : T64) (epoch : Nat) (isLocal : Bool) : (h.logWrite ev sev data t epoch isLocal).tiu = h.tiu := rfl
@[simp] theorem Hub.logWrite_net (h : Hub) (ev sev : Nat) (data : List Byte) (t : T64) (epoch : Nat) (isLocal : Bool) : (h.logWrite ev sev data t epoch isLocal).net = h.net := rfl
@[simp] theorem Hub.logWrite_sl (h : Hub) (ev sev : Nat) (data : List Byte) (t : T64) (epoch : Nat) (isLocal : Bool) : (h.logWrite ev sev data t epoch isLocal).sl = h.sl := rfl
@[simp] theorem Hub.logWrite_casc (h : Hub) (ev sev : Nat) (data : List Byte) (t : T64) (epoch : Nat) (isLocal : Bool) : (h.logWrite ev sev data t epoch isLocal).casc = h.casc := rfl
@[simp] theorem Hub.logWrite_tx (h : Hub) (ev sev : Nat) (data : List Byte) (t : T64) (epoch : Nat) (isLocal : Bool) : (h.logWrite ev sev data t epoch isLocal).tx = h.tx := rfl
@[simp] theorem Hub.logWrite_free (h : Hub) (ev sev : Nat) (data : List Byte) (t : T64) (epoch : Nat) (isLocal : Bool) : (h.logWrite ev sev data t epoch isLocal).free = h.free := rfl

/-! ### logNow -/

theorem Hub.logNow_frame (h : Hub) (ev sev : Nat) (data : List Byte) :
    ∃ e, h.logNow ev sev data = { h with evt := e } := by
  unfold Hub.logNow
  split <;> exact ⟨_, rfl⟩
@[simp] theorem Hub.logNow_cfg (h : Hub) (ev sev : Nat) (data : List Byte) : (h.logNow ev sev data).cfg = h.cfg := by
  obtain ⟨_, e⟩ := h.logNow_frame ev sev data; exact (congrArg Hub.cfg e :)
@[simp] theorem Hub.logNow_sys (h : Hub) (ev sev : Nat) (data : List Byte) : (h.logNow ev sev data).sys = h.sys := by
  obtain ⟨_, e⟩ := h.logNow_frame ev sev data; exact (congrArg Hub.sys e :)
@[simp] theorem Hub.logNow_host (h : Hub) (ev sev : Nat) (data : List Byte) : (h.logNow ev sev data).host = h.host := by
  obtain ⟨_, e⟩ := h.logNow_frame ev sev data; exact (congrArg Hub.host e :)
@[simp] theorem Hub.logNow_clk (h : Hub) (ev sev : Nat) (data : List Byte) : (h.logNow ev sev data).clk = h.clk := by
  obtain ⟨_, e⟩ := h.logNow_frame ev sev data; exact (congrArg Hub.clk e :)
@[simp] theorem Hub.logNow_tb (h : Hub) (ev sev : Nat) (data : List Byte) : (h.logNow ev sev data).tb = h.tb := by
  obtain ⟨_, e⟩ := h.logNow_frame ev sev data; exact (congrArg Hub.tb e :)
@[simp] theorem Hub.logNow_jrn (h : Hub) (ev sev : Nat) (data : List Byte) : (h.logNow ev sev data).jrn = h.jrn := by
  obtain ⟨_, e⟩ := h.logNow_frame ev sev data; exact (congrArg Hub.jrn e :)
@[simp] theorem Hub.logNow_sto (h : Hub) (ev sev : Nat) (data : List Byte) : (h.logNow ev sev data).sto = h.sto := by
  obtain ⟨_, e⟩ := h.logNow_frame ev sev data; exact (congrArg Hub.sto e :)
@[simp] theorem Hub.logNow_act (h : Hub) (ev sev : Nat) (data : List Byte) : (h.logNow ev sev data).act = h.act := by
  obtain ⟨_, e⟩ := h.logNow_frame ev sev data; exact (congrArg Hub.act e :)
@[simp] theorem Hub.logNow_fe (h : Hub) (ev sev : Nat) (data : List Byte) : (h.logNow ev sev data).fe = h.fe := by
  obtain ⟨_, e⟩ := h.logNow_frame ev sev data; exact (congrArg Hub.fe e :)
@[simp] theorem Hub.logNow_flt (h : Hub) (ev sev : Nat) (data : List Byte) : (h.logNow ev sev data).flt = h.flt := by
  obtain ⟨_, e⟩ := h.logNow_frame ev sev data; exact (congrArg Hub.flt e :)
@[simp] theorem Hub.logNow_cal (h : Hub) (ev sev : Nat) (data : List Byte) : (h.logNow ev sev data).cal = h.cal := by
  obtain ⟨_, e⟩ := h.logNow_frame ev sev data; exact (congrArg Hub.cal e :)
@[simp] theorem Hub.logNow_trg (h : Hub) (ev sev : Nat) (data : List Byte) : (h.logNow ev sev data).trg = h.trg := by
  obtain ⟨_, e⟩ := h.logNow_frame ev sev data; exact (congrArg Hub.trg e :)
@[simp] theorem Hub.logNow_cod (h : Hub) (ev sev : Nat) (data : List Byte) : (h.logNow ev sev data).cod = h.cod := by
  obtain ⟨_, e⟩ := h.logNow_frame ev sev data; exact (congrArg Hub.cod e :)
@[simp] theorem Hub.logNow_tiu (h : Hub) (ev sev : Nat) (data : List Byte) : (h.logNow ev sev data).tiu = h.tiu := by
  obtain ⟨_, e⟩ := h.logNow_frame ev sev data; exact (congrArg Hub.tiu e :)
@[simp] theorem Hub.logNow_net (h : Hub) (ev sev : Nat) (data : List Byte) : (h.logNow ev sev data).net = h.net := by
  obtain ⟨_, e⟩ := h.logNow_frame ev sev data; exact (congrArg Hub.net e :)
@[simp] theorem Hub.logNow_sl (h : Hub) (ev sev : Nat) (data : List Byte) : (h.logNow ev sev data).sl = h.sl := by
  obtain ⟨_, e⟩ := h.logNow_frame ev sev data; exact (congrArg Hub.sl e :)
@[simp] theorem Hub.logNow_casc (h : Hub) (ev sev : Nat) (data : List Byte) : (h.logNow ev sev data).casc = h.casc := by
  obtain ⟨_, e⟩ := h.logNow_frame ev sev data; exact (congrArg Hub.casc e :)
@[simp] theorem Hub.logNow_tx (h : Hub) (ev sev : Nat) (data : List Byte) : (h.logNow ev sev data).tx = h.tx := by
  obtain ⟨_, e⟩ := h.logNow_frame ev sev data; exact (congrArg Hub.tx e :)
@[simp] theorem Hub.logNow_free (h : Hub) (ev sev : Nat) (data : List Byte) : (h.logNow ev sev data).free = h.free := by
  obtain ⟨_, e⟩ := h.logNow_frame ev sev data; exact (congrArg Hub.free e :)

/-! ### raiseFlags -/

theorem Hub.raiseFlags_frame (h : Hub) (ev : Nat) :
    ∃ e o x, h.raiseFlags ev = { h with evt := e, host := o, tx := x } := by
  obtain ⟨o, x, e⟩ := Hub.edge_frame
    { h with evt := { h.evt with status := h.evt.status.put (ev / 32) (setBit (h.evt.status.get (ev / 32)) (ev % 32)),
                                 count := h.evt.count.put ev (h.evt.count.get ev + 1) } }
    (h.evStatus ev) (bit (Hub.evEnable _ (ev / 32)) (ev % 32)) (Hub.evRoute _ ev % 16)
  exact ⟨_, o, x, e⟩
@[simp] theorem Hub.raiseFlags_cfg (h : Hub) (ev : Nat) : (h.raiseFlags ev).cfg = h.cfg := by
  obtain ⟨_, _, _, e⟩ := h.raiseFlags_frame ev; exact (congrArg Hub.cfg e :)
@[simp] theorem Hub.raiseFlags_sys (h : Hub) (ev : Nat) : (h.raiseFlags ev).sys = h.sys := by
  obtain ⟨_, _, _, e⟩ := h.raiseFlags_frame ev; exact (congrArg Hub.sys e :)
@[simp] theorem Hub.raiseFlags_clk (h : Hub) (ev : Nat) : (h.raiseFlags ev).clk = h.clk := by
  obtain ⟨_, _, _, e⟩ := h.raiseFlags_frame ev; exact (congrArg Hub.clk e :)
@[simp] theorem Hub.raiseFlags_tb (h : Hub) (ev : Nat) : (h.raiseFlags ev).tb = h.tb := by
  obtain ⟨_, _, _, e⟩ := h.raiseFlags_frame ev; exact (congrArg Hub.tb e :)
@[simp] theorem Hub.raiseFlags_jrn (h : Hub) (ev : Nat) : (h.raiseFlags ev).jrn = h.jrn := by
  obtain ⟨_, _, _, e⟩ := h.raiseFlags_frame ev; exact (congrArg Hub.jrn e :)
@[simp] theorem Hub.raiseFlags_sto (h : Hub) (ev : Nat) : (h.raiseFlags ev).sto = h.sto := by
  obtain ⟨_, _, _, e⟩ := h.raiseFlags_frame ev; exact (congrArg Hub.sto e :)
@[simp] theorem Hub.raiseFlags_act (h : Hub) (ev : Nat) : (h.raiseFlags ev).act = h.act := by
  obtain ⟨_, _, _, e⟩ := h.raiseFlags_frame ev; exact (congrArg Hub.act e :)
@[simp] theorem Hub.raiseFlags_fe (h : Hub) (ev : Nat) : (h.raiseFlags ev).fe = h.fe := by
  obtain ⟨_, _, _, e⟩ := h.raiseFlags_frame ev; exact (congrArg Hub.fe e :)
@[simp] theorem Hub.raiseFlags_flt (h : Hub) (ev : Nat) : (h.raiseFlags ev).flt = h.flt := by
  obtain ⟨_, _, _, e⟩ := h.raiseFlags_frame ev; exact (congrArg Hub.flt e :)
@[simp] theorem Hub.raiseFlags_cal (h : Hub) (ev : Nat) : (h.raiseFlags ev).cal = h.cal := by
  obtain ⟨_, _, _, e⟩ := h.raiseFlags_frame ev; exact (congrArg Hub.cal e :)
@[simp] theorem Hub.raiseFlags_trg (h : Hub) (ev : Nat) : (h.raiseFlags ev).trg = h.trg := by
  obtain ⟨_, _, _, e⟩ := h.raiseFlags_frame ev; exact (congrArg Hub.trg e :)
@[simp] theorem Hub.raiseFlags_cod (h : Hub) (ev : Nat) : (h.raiseFlags ev).cod = h.cod := by
  obtain ⟨_, _, _, e⟩ := h.raiseFlags_frame ev; exact (congrArg Hub.cod e :)
@[simp] theorem Hub.raiseFlags_tiu (h : Hub) (ev : Nat) : (h.raiseFlags ev).tiu = h.tiu := by
  obtain ⟨_, _, _, e⟩ := h.raiseFlags_frame ev; exact (congrArg Hub.tiu e :)
@[simp] theorem Hub.raiseFlags_net (h : Hub) (ev : Nat) : (h.raiseFlags ev).net = h.net := by
  obtain ⟨_, _, _, e⟩ := h.raiseFlags_frame ev; exact (congrArg Hub.net e :)
@[simp] theorem Hub.raiseFlags_sl (h : Hub) (ev : Nat) : (h.raiseFlags ev).sl = h.sl := by
  obtain ⟨_, _, _, e⟩ := h.raiseFlags_frame ev; exact (congrArg Hub.sl e :)
@[simp] theorem Hub.raiseFlags_casc (h : Hub) (ev : Nat) : (h.raiseFlags ev).casc = h.casc := by
  obtain ⟨_, _, _, e⟩ := h.raiseFlags_frame ev; exact (congrArg Hub.casc e :)
@[simp] theorem Hub.raiseFlags_free (h : Hub) (ev : Nat) : (h.raiseFlags ev).free = h.free := by
  obtain ⟨_, _, _, e⟩ := h.raiseFlags_frame ev; exact (congrArg Hub.free e :)

/-! ### raiseAt -/

theorem Hub.raiseAt_frame (h : Hub) (ev : Nat) (data : List Byte) (t : T64) (epoch : Nat) (isLocal : Bool) :
    ∃ e o x, h.raiseAt ev data t epoch isLocal = { h with evt := e, host := o, tx := x } := by
  obtain ⟨e, o, x, he⟩ := h.raiseFlags_frame ev
  unfold Hub.raiseAt
  rw [he]
  exact ⟨_, _, _, rfl⟩
@[simp] theorem Hub.raiseAt_cfg (h : Hub) (ev : Nat) (data : List Byte) (t : T64) (epoch : Nat) (isLocal : Bool) : (h.raiseAt ev data t epoch isLocal).cfg = h.cfg := by
  obtain ⟨_, _, _, e⟩ := h.raiseAt_frame ev data t epoch isLocal; exact (congrArg Hub.cfg e :)
@[simp] theorem Hub.raiseAt_sys (h : Hub) (ev : Nat) (data : List Byte) (t : T64) (epoch : Nat) (isLocal : Bool) : (h.raiseAt ev data t epoch isLocal).sys = h.sys := by
  obtain ⟨_, _, _, e⟩ := h.raiseAt_frame ev data t epoch isLocal; exact (congrArg Hub.sys e :)
@[simp] theorem Hub.raiseAt_clk (h : Hub) (ev : Nat) (data : List Byte) (t : T64) (epoch : Nat) (isLocal : Bool) : (h.raiseAt ev data t epoch isLocal).clk = h.clk := by
  obtain ⟨_, _, _, e⟩ := h.raiseAt_frame ev data t epoch isLocal; exact (congrArg Hub.clk e :)
@[simp] theorem Hub.raiseAt_tb (h : Hub) (ev : Nat) (data : List Byte) (t : T64) (epoch : Nat) (isLocal : Bool) : (h.raiseAt ev data t epoch isLocal).tb = h.tb := by
  obtain ⟨_, _, _, e⟩ := h.raiseAt_frame ev data t epoch isLocal; exact (congrArg Hub.tb e :)
@[simp] theorem Hub.raiseAt_jrn (h : Hub) (ev : Nat) (data : List Byte) (t : T64) (epoch : Nat) (isLocal : Bool) : (h.raiseAt ev data t epoch isLocal).jrn = h.jrn := by
  obtain ⟨_, _, _, e⟩ := h.raiseAt_frame ev data t epoch isLocal; exact (congrArg Hub.jrn e :)
@[simp] theorem Hub.raiseAt_sto (h : Hub) (ev : Nat) (data : List Byte) (t : T64) (epoch : Nat) (isLocal : Bool) : (h.raiseAt ev data t epoch isLocal).sto = h.sto := by
  obtain ⟨_, _, _, e⟩ := h.raiseAt_frame ev data t epoch isLocal; exact (congrArg Hub.sto e :)
@[simp] theorem Hub.raiseAt_act (h : Hub) (ev : Nat) (data : List Byte) (t : T64) (epoch : Nat) (isLocal : Bool) : (h.raiseAt ev data t epoch isLocal).act = h.act := by
  obtain ⟨_, _, _, e⟩ := h.raiseAt_frame ev data t epoch isLocal; exact (congrArg Hub.act e :)
@[simp] theorem Hub.raiseAt_fe (h : Hub) (ev : Nat) (data : List Byte) (t : T64) (epoch : Nat) (isLocal : Bool) : (h.raiseAt ev data t epoch isLocal).fe = h.fe := by
  obtain ⟨_, _, _, e⟩ := h.raiseAt_frame ev data t epoch isLocal; exact (congrArg Hub.fe e :)
@[simp] theorem Hub.raiseAt_flt (h : Hub) (ev : Nat) (data : List Byte) (t : T64) (epoch : Nat) (isLocal : Bool) : (h.raiseAt ev data t epoch isLocal).flt = h.flt := by
  obtain ⟨_, _, _, e⟩ := h.raiseAt_frame ev data t epoch isLocal; exact (congrArg Hub.flt e :)
@[simp] theorem Hub.raiseAt_cal (h : Hub) (ev : Nat) (data : List Byte) (t : T64) (epoch : Nat) (isLocal : Bool) : (h.raiseAt ev data t epoch isLocal).cal = h.cal := by
  obtain ⟨_, _, _, e⟩ := h.raiseAt_frame ev data t epoch isLocal; exact (congrArg Hub.cal e :)
@[simp] theorem Hub.raiseAt_trg (h : Hub) (ev : Nat) (data : List Byte) (t : T64) (epoch : Nat) (isLocal : Bool) : (h.raiseAt ev data t epoch isLocal).trg = h.trg := by
  obtain ⟨_, _, _, e⟩ := h.raiseAt_frame ev data t epoch isLocal; exact (congrArg Hub.trg e :)
@[simp] theorem Hub.raiseAt_cod (h : Hub) (ev : Nat) (data : List Byte) (t : T64) (epoch : Nat) (isLocal : Bool) : (h.raiseAt ev data t epoch isLocal).cod = h.cod := by
  obtain ⟨_, _, _, e⟩ := h.raiseAt_frame ev data t epoch isLocal; exact (congrArg Hub.cod e :)
@[simp] theorem Hub.raiseAt_tiu (h : Hub) (ev : Nat) (data : List Byte) (t : T64) (epoch : Nat) (isLocal : Bool) : (h.raiseAt ev data t epoch isLocal).tiu = h.tiu := by
  obtain ⟨_, _, _, e⟩ := h.raiseAt_frame ev data t epoch isLocal; exact (congrArg Hub.tiu e :)
@[simp] theorem Hub.raiseAt_net (h : Hub) (ev : Nat) (data : List Byte) (t : T64) (epoch : Nat) (isLocal : Bool) : (h.raiseAt ev data t epoch isLocal).net = h.net := by
  obtain ⟨_, _, _, e⟩ := h.raiseAt_frame ev data t epoch isLocal; exact (congrArg Hub.net e :)
@[simp] theorem Hub.raiseAt_sl (h : Hub) (ev : Nat) (data : List Byte) (t : T64) (epoch : Nat) (isLocal : Bool) : (h.raiseAt ev data t epoch isLocal).sl = h.sl := by
  obtain ⟨_, _, _, e⟩ := h.raiseAt_frame ev data t epoch isLocal; exact (congrArg Hub.sl e :)
@[simp] theorem Hub.raiseAt_casc (h : Hub) (ev : Nat) (data : List Byte) (t : T64) (epoch : Nat) (isLocal : Bool) : (h.raiseAt ev data t epoch isLocal).casc = h.casc := by
  obtain ⟨_, _, _, e⟩ := h.raiseAt_frame ev data t epoch isLocal; exact (congrArg Hub.casc e :)
@[simp] theorem Hub.raiseAt_free (h : Hub) (ev : Nat) (data : List Byte) (t : T64) (epoch : Nat) (isLocal : Bool) : (h.raiseAt ev data t epoch isLocal).free = h.free := by
  obtain ⟨_, _, _, e⟩ := h.raiseAt_frame ev data t epoch isLocal; exact (congrArg Hub.free e :)

/-! ### raise -/

theorem Hub.raise_frame (h : Hub) (ev : Nat) (data : List Byte) :
    ∃ e o x, h.raise ev data = { h with evt := e, host := o, tx := x } := by
  unfold Hub.raise
  dsimp only
  split
  · exact ⟨_, _, _, rfl⟩
  · exact h.raiseAt_frame ..
@[simp] theorem Hub.raise_cfg (h : Hub) (ev : Nat) (data : List Byte) : (h.raise ev data).cfg = h.cfg := by
  obtain ⟨_, _, _, e⟩ := h.raise_frame ev data; exact (congrArg Hub.cfg e :)
@[simp] theorem Hub.raise_sys (h : Hub) (ev : Nat) (data : List Byte) : (h.raise ev data).sys = h.sys := by
  obtain ⟨_, _, _, e⟩ := h.raise_frame ev data; exact (congrArg Hub.sys e :)
@[simp] theorem Hub.raise_clk (h : Hub) (ev : Nat) (data : List Byte) : (h.raise ev data).clk = h.clk := by
  obtain ⟨_, _, _, e⟩ := h.raise_frame ev data; exact (congrArg Hub.clk e :)
@[simp] theorem Hub.raise_tb (h : Hub) (ev : Nat) (data : List Byte) : (h.raise ev data).tb = h.tb := by
  obtain ⟨_, _, _, e⟩ := h.raise_frame ev data; exact (congrArg Hub.tb e :)
@[simp] theorem Hub.raise_jrn (h : Hub) (ev : Nat) (data : List Byte) : (h.raise ev data).jrn = h.jrn := by
  obtain ⟨_, _, _, e⟩ := h.raise_frame ev data; exact (congrArg Hub.jrn e :)
@[simp] theorem Hub.raise_sto (h : Hub) (ev : Nat) (data : List Byte) : (h.raise ev data).sto = h.sto := by
  obtain ⟨_, _, _, e⟩ := h.raise_frame ev data; exact (congrArg Hub.sto e :)
@[simp] theorem Hub.raise_act (h : Hub) (ev : Nat) (data : List Byte) : (h.raise ev data).act = h.act := by
  obtain ⟨_, _, _, e⟩ := h.raise_frame ev data; exact (congrArg Hub.act e :)
@[simp] theorem Hub.raise_fe (h : Hub) (ev : Nat) (data : List Byte) : (h.raise ev data).fe = h.fe := by
  obtain ⟨_, _, _, e⟩ := h.raise_frame ev data; exact (congrArg Hub.fe e :)
@[simp] theorem Hub.raise_flt (h : Hub) (ev : Nat) (data : List Byte) : (h.raise ev data).flt = h.flt := by
  obtain ⟨_, _, _, e⟩ := h.raise_frame ev data; exact (congrArg Hub.flt e :)
@[simp] theorem Hub.raise_cal (h : Hub) (ev : Nat) (data : List Byte) : (h.raise ev data).cal = h.cal := by
  obtain ⟨_, _, _, e⟩ := h.raise_frame ev data; exact (congrArg Hub.cal e :)
@[simp] theorem Hub.raise_trg (h : Hub) (ev : Nat) (data : List Byte) : (h.raise ev data).trg = h.trg := by
  obtain ⟨_, _, _, e⟩ := h.raise_frame ev data; exact (congrArg Hub.trg e :)
@[simp] theorem Hub.raise_cod (h : Hub) (ev : Nat) (data : List Byte) : (h.raise ev data).cod = h.cod := by
  obtain ⟨_, _, _, e⟩ := h.raise_frame ev data; exact (congrArg Hub.cod e :)
@[simp] theorem Hub.raise_tiu (h : Hub) (ev : Nat) (data : List Byte) : (h.raise ev data).tiu = h.tiu := by
  obtain ⟨_, _, _, e⟩ := h.raise_frame ev data; exact (congrArg Hub.tiu e :)
@[simp] theorem Hub.raise_net (h : Hub) (ev : Nat) (data : List Byte) : (h.raise ev data).net = h.net := by
  obtain ⟨_, _, _, e⟩ := h.raise_frame ev data; exact (congrArg Hub.net e :)
@[simp] theorem Hub.raise_sl (h : Hub) (ev : Nat) (data : List Byte) : (h.raise ev data).sl = h.sl := by
  obtain ⟨_, _, _, e⟩ := h.raise_frame ev data; exact (congrArg Hub.sl e :)
@[simp] theorem Hub.raise_casc (h : Hub) (ev : Nat) (data : List Byte) : (h.raise ev data).casc = h.casc := by
  obtain ⟨_, _, _, e⟩ := h.raise_frame ev data; exact (congrArg Hub.casc e :)
@[simp] theorem Hub.raise_free (h : Hub) (ev : Nat) (data : List Byte) : (h.raise ev data).free = h.free := by
  obtain ⟨_, _, _, e⟩ := h.raise_frame ev data; exact (congrArg Hub.free e :)

/-! ### raiseLimited -/

theorem Hub.raiseLimited_frame (h : Hub) (ev : Nat) (data : List Byte) :
    ∃ e o x, h.raiseLimited ev data = { h with evt := e, host := o, tx := x } := by
  unfold Hub.raiseLimited
  obtain ⟨e, o, x, he⟩ := h.raise_frame ev data
  dsimp only
  rw [he]
  split <;> exact ⟨_, _, _, rfl⟩
@[simp] theorem Hub.raiseLimited_cfg (h : Hub) (ev : Nat) (data : List Byte) : (h.raiseLimited ev data).cfg = h.cfg := by
  obtain ⟨_, _, _, e⟩ := h.raiseLimited_frame ev data; exact (congrArg Hub.cfg e :)
@[simp] theorem Hub.raiseLimited_sys (h : Hub) (ev : Nat) (data : List Byte) : (h.raiseLimited ev data).sys = h.sys := by
  obtain ⟨_, _, _, e⟩ := h.raiseLimited_frame ev data; exact (congrArg Hub.sys e :)
@[simp] theorem Hub.raiseLimited_clk (h : Hub) (ev : Nat) (data : List Byte) : (h.raiseLimited ev data).clk = h.clk := by
  obtain ⟨_, _, _, e⟩ := h.raiseLimited_frame ev data; exact (congrArg Hub.clk e :)
@[simp] theorem Hub.raiseLimited_tb (h : Hub) (ev : Nat) (data : List Byte) : (h.raiseLimited ev data).tb = h.tb := by
  obtain ⟨_, _, _, e⟩ := h.raiseLimited_frame ev data; exact (congrArg Hub.tb e :)
@[simp] theorem Hub.raiseLimited_jrn (h : Hub) (ev : Nat) (data : List Byte) : (h.raiseLimited ev data).jrn = h.jrn := by
  obtain ⟨_, _, _, e⟩ := h.raiseLimited_frame ev data; exact (congrArg Hub.jrn e :)
@[simp] theorem Hub.raiseLimited_sto (h : Hub) (ev : Nat) (data : List Byte) : (h.raiseLimited ev data).sto = h.sto := by
  obtain ⟨_, _, _, e⟩ := h.raiseLimited_frame ev data; exact (congrArg Hub.sto e :)
@[simp] theorem Hub.raiseLimited_act (h : Hub) (ev : Nat) (data : List Byte) : (h.raiseLimited ev data).act = h.act := by
  obtain ⟨_, _, _, e⟩ := h.raiseLimited_frame ev data; exact (congrArg Hub.act e :)
@[simp] theorem Hub.raiseLimited_fe (h : Hub) (ev : Nat) (data : List Byte) : (h.raiseLimited ev data).fe = h.fe := by
  obtain ⟨_, _, _, e⟩ := h.raiseLimited_frame ev data; exact (congrArg Hub.fe e :)
@[simp] theorem Hub.raiseLimited_flt (h : Hub) (ev : Nat) (data : List Byte) : (h.raiseLimited ev data).flt = h.flt := by
  obtain ⟨_, _, _, e⟩ := h.raiseLimited_frame ev data; exact (congrArg Hub.flt e :)
@[simp] theorem Hub.raiseLimited_cal (h : Hub) (ev : Nat) (data : List Byte) : (h.raiseLimited ev data).cal = h.cal := by
  obtain ⟨_, _, _, e⟩ := h.raiseLimited_frame ev data; exact (congrArg Hub.cal e :)
@[simp] theorem Hub.raiseLimited_trg (h : Hub) (ev : Nat) (data : List Byte) : (h.raiseLimited ev data).trg = h.trg := by
  obtain ⟨_, _, _, e⟩ := h.raiseLimited_frame ev data; exact (congrArg Hub.trg e :)
@[simp] theorem Hub.raiseLimited_cod (h : Hub) (ev : Nat) (data : List Byte) : (h.raiseLimited ev data).cod = h.cod := by
  obtain ⟨_, _, _, e⟩ := h.raiseLimited_frame ev data; exact (congrArg Hub.cod e :)
@[simp] theorem Hub.raiseLimited_tiu (h : Hub) (ev : Nat) (data : List Byte) : (h.raiseLimited ev data).tiu = h.tiu := by
  obtain ⟨_, _, _, e⟩ := h.raiseLimited_frame ev data; exact (congrArg Hub.tiu e :)
@[simp] theorem Hub.raiseLimited_net (h : Hub) (ev : Nat) (data : List Byte) : (h.raiseLimited ev data).net = h.net := by
  obtain ⟨_, _, _, e⟩ := h.raiseLimited_frame ev data; exact (congrArg Hub.net e :)
@[simp] theorem Hub.raiseLimited_sl (h : Hub) (ev : Nat) (data : List Byte) : (h.raiseLimited ev data).sl = h.sl := by
  obtain ⟨_, _, _, e⟩ := h.raiseLimited_frame ev data; exact (congrArg Hub.sl e :)
@[simp] theorem Hub.raiseLimited_casc (h : Hub) (ev : Nat) (data : List Byte) : (h.raiseLimited ev data).casc = h.casc := by
  obtain ⟨_, _, _, e⟩ := h.raiseLimited_frame ev data; exact (congrArg Hub.casc e :)
@[simp] theorem Hub.raiseLimited_free (h : Hub) (ev : Nat) (data : List Byte) : (h.raiseLimited ev data).free = h.free := by
  obtain ⟨_, _, _, e⟩ := h.raiseLimited_frame ev data; exact (congrArg Hub.free e :)

/-! ### noteTag -/

theorem Hub.noteTag_frame (h : Hub) (m status : Nat) (tag : Word) :
    ∃ y, h.noteTag m status tag = { h with sys := y } := by
  unfold Hub.noteTag
  split <;> exact ⟨_, rfl⟩
@[simp] theorem Hub.noteTag_cfg (h : Hub) (m status : Nat) (tag : Word) : (h.noteTag m status tag).cfg = h.cfg := by
  obtain ⟨_, e⟩ := h.noteTag_frame m status tag; exact (congrArg Hub.cfg e :)
@[simp] theorem Hub.noteTag_host (h : Hub) (m status : Nat) (tag : Word) : (h.noteTag m status tag).host = h.host := by
  obtain ⟨_, e⟩ := h.noteTag_frame m status tag; exact (congrArg Hub.host e :)
@[simp] theorem Hub.noteTag_evt (h : Hub) (m status : Nat) (tag : Word) : (h.noteTag m status tag).evt = h.evt := by
  obtain ⟨_, e⟩ := h.noteTag_frame m status tag; exact (congrArg Hub.evt e :)
@[simp] theorem Hub.noteTag_clk (h : Hub) (m status : Nat) (tag : Word) : (h.noteTag m status tag).clk = h.clk := by
  obtain ⟨_, e⟩ := h.noteTag_frame m status tag; exact (congrArg Hub.clk e :)
@[simp] theorem Hub.noteTag_tb (h : Hub) (m status : Nat) (tag : Word) : (h.noteTag m status tag).tb = h.tb := by
  obtain ⟨_, e⟩ := h.noteTag_frame m status tag; exact (congrArg Hub.tb e :)
@[simp] theorem Hub.noteTag_jrn (h : Hub) (m status : Nat) (tag : Word) : (h.noteTag m status tag).jrn = h.jrn := by
  obtain ⟨_, e⟩ := h.noteTag_frame m status tag; exact (congrArg Hub.jrn e :)
@[simp] theorem Hub.noteTag_sto (h : Hub) (m status : Nat) (tag : Word) : (h.noteTag m status tag).sto = h.sto := by
  obtain ⟨_, e⟩ := h.noteTag_frame m status tag; exact (congrArg Hub.sto e :)
@[simp] theorem Hub.noteTag_act (h : Hub) (m status : Nat) (tag : Word) : (h.noteTag m status tag).act = h.act := by
  obtain ⟨_, e⟩ := h.noteTag_frame m status tag; exact (congrArg Hub.act e :)
@[simp] theorem Hub.noteTag_fe (h : Hub) (m status : Nat) (tag : Word) : (h.noteTag m status tag).fe = h.fe := by
  obtain ⟨_, e⟩ := h.noteTag_frame m status tag; exact (congrArg Hub.fe e :)
@[simp] theorem Hub.noteTag_flt (h : Hub) (m status : Nat) (tag : Word) : (h.noteTag m status tag).flt = h.flt := by
  obtain ⟨_, e⟩ := h.noteTag_frame m status tag; exact (congrArg Hub.flt e :)
@[simp] theorem Hub.noteTag_cal (h : Hub) (m status : Nat) (tag : Word) : (h.noteTag m status tag).cal = h.cal := by
  obtain ⟨_, e⟩ := h.noteTag_frame m status tag; exact (congrArg Hub.cal e :)
@[simp] theorem Hub.noteTag_trg (h : Hub) (m status : Nat) (tag : Word) : (h.noteTag m status tag).trg = h.trg := by
  obtain ⟨_, e⟩ := h.noteTag_frame m status tag; exact (congrArg Hub.trg e :)
@[simp] theorem Hub.noteTag_cod (h : Hub) (m status : Nat) (tag : Word) : (h.noteTag m status tag).cod = h.cod := by
  obtain ⟨_, e⟩ := h.noteTag_frame m status tag; exact (congrArg Hub.cod e :)
@[simp] theorem Hub.noteTag_tiu (h : Hub) (m status : Nat) (tag : Word) : (h.noteTag m status tag).tiu = h.tiu := by
  obtain ⟨_, e⟩ := h.noteTag_frame m status tag; exact (congrArg Hub.tiu e :)
@[simp] theorem Hub.noteTag_net (h : Hub) (m status : Nat) (tag : Word) : (h.noteTag m status tag).net = h.net := by
  obtain ⟨_, e⟩ := h.noteTag_frame m status tag; exact (congrArg Hub.net e :)
@[simp] theorem Hub.noteTag_sl (h : Hub) (m status : Nat) (tag : Word) : (h.noteTag m status tag).sl = h.sl := by
  obtain ⟨_, e⟩ := h.noteTag_frame m status tag; exact (congrArg Hub.sl e :)
@[simp] theorem Hub.noteTag_casc (h : Hub) (m status : Nat) (tag : Word) : (h.noteTag m status tag).casc = h.casc := by
  obtain ⟨_, e⟩ := h.noteTag_frame m status tag; exact (congrArg Hub.casc e :)
@[simp] theorem Hub.noteTag_tx (h : Hub) (m status : Nat) (tag : Word) : (h.noteTag m status tag).tx = h.tx := by
  obtain ⟨_, e⟩ := h.noteTag_frame m status tag; exact (congrArg Hub.tx e :)
@[simp] theorem Hub.noteTag_free (h : Hub) (m status : Nat) (tag : Word) : (h.noteTag m status tag).free = h.free := by
  obtain ⟨_, e⟩ := h.noteTag_frame m status tag; exact (congrArg Hub.free e :)

/-! ### respond -/

theorem Hub.respond_frame (h : Hub) (m status hd : Nat) (tag : Word) (words : List Word) (crc : Bool) :
    ∃ o x, h.respond m status hd tag words crc = { h with host := o, tx := x } := by
  unfold Hub.respond
  dsimp only
  generalize hk : Hub.updMb h _ _ = g
  have hg : ∃ o, g = { h with host := o } := ⟨_, hk.symm⟩
  obtain ⟨o, rfl⟩ := hg
  exact Hub.edge_frame _ _ _ _
@[simp] theorem Hub.respond_cfg (h : Hub) (m status hd : Nat) (tag : Word) (words : List Word) (crc : Bool) : (h.respond m status hd tag words crc).cfg = h.cfg := by
  obtain ⟨_, _, e⟩ := h.respond_frame m status hd tag words crc; exact (congrArg Hub.cfg e :)
@[simp] theorem Hub.respond_sys (h : Hub) (m status hd : Nat) (tag : Word) (words : List Word) (crc : Bool) : (h.respond m status hd tag words crc).sys = h.sys := by
  obtain ⟨_, _, e⟩ := h.respond_frame m status hd tag words crc; exact (congrArg Hub.sys e :)
@[simp] theorem Hub.respond_evt (h : Hub) (m status hd : Nat) (tag : Word) (words : List Word) (crc : Bool) : (h.respond m status hd tag words crc).evt = h.evt := by
  obtain ⟨_, _, e⟩ := h.respond_frame m status hd tag words crc; exact (congrArg Hub.evt e :)
@[simp] theorem Hub.respond_clk (h : Hub) (m status hd : Nat) (tag : Word) (words : List Word) (crc : Bool) : (h.respond m status hd tag words crc).clk = h.clk := by
  obtain ⟨_, _, e⟩ := h.respond_frame m status hd tag words crc; exact (congrArg Hub.clk e :)
@[simp] theorem Hub.respond_tb (h : Hub) (m status hd : Nat) (tag : Word) (words : List Word) (crc : Bool) : (h.respond m status hd tag words crc).tb = h.tb := by
  obtain ⟨_, _, e⟩ := h.respond_frame m status hd tag words crc; exact (congrArg Hub.tb e :)
@[simp] theorem Hub.respond_jrn (h : Hub) (m status hd : Nat) (tag : Word) (words : List Word) (crc : Bool) : (h.respond m status hd tag words crc).jrn = h.jrn := by
  obtain ⟨_, _, e⟩ := h.respond_frame m status hd tag words crc; exact (congrArg Hub.jrn e :)
@[simp] theorem Hub.respond_sto (h : Hub) (m status hd : Nat) (tag : Word) (words : List Word) (crc : Bool) : (h.respond m status hd tag words crc).sto = h.sto := by
  obtain ⟨_, _, e⟩ := h.respond_frame m status hd tag words crc; exact (congrArg Hub.sto e :)
@[simp] theorem Hub.respond_act (h : Hub) (m status hd : Nat) (tag : Word) (words : List Word) (crc : Bool) : (h.respond m status hd tag words crc).act = h.act := by
  obtain ⟨_, _, e⟩ := h.respond_frame m status hd tag words crc; exact (congrArg Hub.act e :)
@[simp] theorem Hub.respond_fe (h : Hub) (m status hd : Nat) (tag : Word) (words : List Word) (crc : Bool) : (h.respond m status hd tag words crc).fe = h.fe := by
  obtain ⟨_, _, e⟩ := h.respond_frame m status hd tag words crc; exact (congrArg Hub.fe e :)
@[simp] theorem Hub.respond_flt (h : Hub) (m status hd : Nat) (tag : Word) (words : List Word) (crc : Bool) : (h.respond m status hd tag words crc).flt = h.flt := by
  obtain ⟨_, _, e⟩ := h.respond_frame m status hd tag words crc; exact (congrArg Hub.flt e :)
@[simp] theorem Hub.respond_cal (h : Hub) (m status hd : Nat) (tag : Word) (words : List Word) (crc : Bool) : (h.respond m status hd tag words crc).cal = h.cal := by
  obtain ⟨_, _, e⟩ := h.respond_frame m status hd tag words crc; exact (congrArg Hub.cal e :)
@[simp] theorem Hub.respond_trg (h : Hub) (m status hd : Nat) (tag : Word) (words : List Word) (crc : Bool) : (h.respond m status hd tag words crc).trg = h.trg := by
  obtain ⟨_, _, e⟩ := h.respond_frame m status hd tag words crc; exact (congrArg Hub.trg e :)
@[simp] theorem Hub.respond_cod (h : Hub) (m status hd : Nat) (tag : Word) (words : List Word) (crc : Bool) : (h.respond m status hd tag words crc).cod = h.cod := by
  obtain ⟨_, _, e⟩ := h.respond_frame m status hd tag words crc; exact (congrArg Hub.cod e :)
@[simp] theorem Hub.respond_tiu (h : Hub) (m status hd : Nat) (tag : Word) (words : List Word) (crc : Bool) : (h.respond m status hd tag words crc).tiu = h.tiu := by
  obtain ⟨_, _, e⟩ := h.respond_frame m status hd tag words crc; exact (congrArg Hub.tiu e :)
@[simp] theorem Hub.respond_net (h : Hub) (m status hd : Nat) (tag : Word) (words : List Word) (crc : Bool) : (h.respond m status hd tag words crc).net = h.net := by
  obtain ⟨_, _, e⟩ := h.respond_frame m status hd tag words crc; exact (congrArg Hub.net e :)
@[simp] theorem Hub.respond_sl (h : Hub) (m status hd : Nat) (tag : Word) (words : List Word) (crc : Bool) : (h.respond m status hd tag words crc).sl = h.sl := by
  obtain ⟨_, _, e⟩ := h.respond_frame m status hd tag words crc; exact (congrArg Hub.sl e :)
@[simp] theorem Hub.respond_casc (h : Hub) (m status hd : Nat) (tag : Word) (words : List Word) (crc : Bool) : (h.respond m status hd tag words crc).casc = h.casc := by
  obtain ⟨_, _, e⟩ := h.respond_frame m status hd tag words crc; exact (congrArg Hub.casc e :)
@[simp] theorem Hub.respond_free (h : Hub) (m status hd : Nat) (tag : Word) (words : List Word) (crc : Bool) : (h.respond m status hd tag words crc).free = h.free := by
  obtain ⟨_, _, e⟩ := h.respond_frame m status hd tag words crc; exact (congrArg Hub.free e :)

/-! ### openUsed -/

@[simp] theorem Hub.openUsed_cfg (h : Hub) : (h.openUsed).cfg = h.cfg := rfl
@[simp] theorem Hub.openUsed_sys (h : Hub) : (h.openUsed).sys = h.sys := rfl
@[simp] theorem Hub.openUsed_host (h : Hub) : (h.openUsed).host = h.host := rfl
@[simp] theorem Hub.openUsed_evt (h : Hub) : (h.openUsed).evt = h.evt := rfl
@[simp] theorem Hub.openUsed_tb (h : Hub) : (h.openUsed).tb = h.tb := rfl
@[simp] theorem Hub.openUsed_jrn (h : Hub) : (h.openUsed).jrn = h.jrn := rfl
@[simp] theorem Hub.openUsed_sto (h : Hub) : (h.openUsed).sto = h.sto := rfl
@[simp] theorem Hub.openUsed_act (h : Hub) : (h.openUsed).act = h.act := rfl
@[simp] theorem Hub.openUsed_fe (h : Hub) : (h.openUsed).fe = h.fe := rfl
@[simp] theorem Hub.openUsed_flt (h : Hub) : (h.openUsed).flt = h.flt := rfl
@[simp] theorem Hub.openUsed_cal (h : Hub) : (h.openUsed).cal = h.cal := rfl
@[simp] theorem Hub.openUsed_trg (h : Hub) : (h.openUsed).trg = h.trg := rfl
@[simp] theorem Hub.openUsed_cod (h : Hub) : (h.openUsed).cod = h.cod := rfl
@[simp] theorem Hub.openUsed_tiu (h : Hub) : (h.openUsed).tiu = h.tiu := rfl
@[simp] theorem Hub.openUsed_net (h : Hub) : (h.openUsed).net = h.net := rfl
@[simp] theorem Hub.openUsed_sl (h : Hub) : (h.openUsed).sl = h.sl := rfl
@[simp] theorem Hub.openUsed_casc (h : Hub) : (h.openUsed).casc = h.casc := rfl
@[simp] theorem Hub.openUsed_tx (h : Hub) : (h.openUsed).tx = h.tx := rfl
@[simp] theorem Hub.openUsed_free (h : Hub) : (h.openUsed).free = h.free := rfl

/-! ### allocSlot -/

@[simp] theorem Hub.allocSlot_cfg (h : Hub) (s opcode : Nat) (tag : Word) (m : Nat) : (h.allocSlot s opcode tag m).cfg = h.cfg := rfl
@[simp] theorem Hub.allocSlot_sys (h : Hub) (s opcode : Nat) (tag : Word) (m : Nat) : (h.allocSlot s opcode tag m).sys = h.sys := rfl
@[simp] theorem Hub.allocSlot_evt (h : Hub) (s opcode : Nat) (tag : Word) (m : Nat) : (h.allocSlot s opcode tag m).evt = h.evt := rfl
@[simp] theorem Hub.allocSlot_clk (h : Hub) (s opcode : Nat) (tag : Word) (m : Nat) : (h.allocSlot s opcode tag m).clk = h.clk := rfl
@[simp] theorem Hub.allocSlot_tb (h : Hub) (s opcode : Nat) (tag : Word) (m : Nat) : (h.allocSlot s opcode tag m).tb = h.tb := rfl
@[simp] theorem Hub.allocSlot_jrn (h : Hub) (s opcode : Nat) (tag : Word) (m : Nat) : (h.allocSlot s opcode tag m).jrn = h.jrn := rfl
@[simp] theorem Hub.allocSlot_sto (h : Hub) (s opcode : Nat) (tag : Word) (m : Nat) : (h.allocSlot s opcode tag m).sto = h.sto := rfl
@[simp] theorem Hub.allocSlot_act (h : Hub) (s opcode : Nat) (tag : Word) (m : Nat) : (h.allocSlot s opcode tag m).act = h.act := rfl
@[simp] theorem Hub.allocSlot_fe (h : Hub) (s opcode : Nat) (tag : Word) (m : Nat) : (h.allocSlot s opcode tag m).fe = h.fe := rfl
@[simp] theorem Hub.allocSlot_flt (h : Hub) (s opcode : Nat) (tag : Word) (m : Nat) : (h.allocSlot s opcode tag m).flt = h.flt := rfl
@[simp] theorem Hub.allocSlot_cal (h : Hub) (s opcode : Nat) (tag : Word) (m : Nat) : (h.allocSlot s opcode tag m).cal = h.cal := rfl
@[simp] theorem Hub.allocSlot_trg (h : Hub) (s opcode : Nat) (tag : Word) (m : Nat) : (h.allocSlot s opcode tag m).trg = h.trg := rfl
@[simp] theorem Hub.allocSlot_cod (h : Hub) (s opcode : Nat) (tag : Word) (m : Nat) : (h.allocSlot s opcode tag m).cod = h.cod := rfl
@[simp] theorem Hub.allocSlot_tiu (h : Hub) (s opcode : Nat) (tag : Word) (m : Nat) : (h.allocSlot s opcode tag m).tiu = h.tiu := rfl
@[simp] theorem Hub.allocSlot_net (h : Hub) (s opcode : Nat) (tag : Word) (m : Nat) : (h.allocSlot s opcode tag m).net = h.net := rfl
@[simp] theorem Hub.allocSlot_sl (h : Hub) (s opcode : Nat) (tag : Word) (m : Nat) : (h.allocSlot s opcode tag m).sl = h.sl := rfl
@[simp] theorem Hub.allocSlot_casc (h : Hub) (s opcode : Nat) (tag : Word) (m : Nat) : (h.allocSlot s opcode tag m).casc = h.casc := rfl
@[simp] theorem Hub.allocSlot_tx (h : Hub) (s opcode : Nat) (tag : Word) (m : Nat) : (h.allocSlot s opcode tag m).tx = h.tx := rfl
@[simp] theorem Hub.allocSlot_free (h : Hub) (s opcode : Nat) (tag : Word) (m : Nat) : (h.allocSlot s opcode tag m).free = h.free := rfl

/-! ### cqWrite -/

theorem Hub.cqWrite_frame (h : Hub) (d : Deferred) :
    ∃ o x, h.cqWrite d = { h with host := o, tx := x } := by
  unfold Hub.cqWrite
  split
  · exact ⟨_, _, rfl⟩
  · split
    · exact ⟨_, _, rfl⟩
    · dsimp only
      exact Hub.edge_frame { h with host := _ } _ _ _
@[simp] theorem Hub.cqWrite_cfg (h : Hub) (d : Deferred) : (h.cqWrite d).cfg = h.cfg := by
  obtain ⟨_, _, e⟩ := h.cqWrite_frame d; exact (congrArg Hub.cfg e :)
@[simp] theorem Hub.cqWrite_sys (h : Hub) (d : Deferred) : (h.cqWrite d).sys = h.sys := by
  obtain ⟨_, _, e⟩ := h.cqWrite_frame d; exact (congrArg Hub.sys e :)
@[simp] theorem Hub.cqWrite_evt (h : Hub) (d : Deferred) : (h.cqWrite d).evt = h.evt := by
  obtain ⟨_, _, e⟩ := h.cqWrite_frame d; exact (congrArg Hub.evt e :)
@[simp] theorem Hub.cqWrite_clk (h : Hub) (d : Deferred) : (h.cqWrite d).clk = h.clk := by
  obtain ⟨_, _, e⟩ := h.cqWrite_frame d; exact (congrArg Hub.clk e :)
@[simp] theorem Hub.cqWrite_tb (h : Hub) (d : Deferred) : (h.cqWrite d).tb = h.tb := by
  obtain ⟨_, _, e⟩ := h.cqWrite_frame d; exact (congrArg Hub.tb e :)
@[simp] theorem Hub.cqWrite_jrn (h : Hub) (d : Deferred) : (h.cqWrite d).jrn = h.jrn := by
  obtain ⟨_, _, e⟩ := h.cqWrite_frame d; exact (congrArg Hub.jrn e :)
@[simp] theorem Hub.cqWrite_sto (h : Hub) (d : Deferred) : (h.cqWrite d).sto = h.sto := by
  obtain ⟨_, _, e⟩ := h.cqWrite_frame d; exact (congrArg Hub.sto e :)
@[simp] theorem Hub.cqWrite_act (h : Hub) (d : Deferred) : (h.cqWrite d).act = h.act := by
  obtain ⟨_, _, e⟩ := h.cqWrite_frame d; exact (congrArg Hub.act e :)
@[simp] theorem Hub.cqWrite_fe (h : Hub) (d : Deferred) : (h.cqWrite d).fe = h.fe := by
  obtain ⟨_, _, e⟩ := h.cqWrite_frame d; exact (congrArg Hub.fe e :)
@[simp] theorem Hub.cqWrite_flt (h : Hub) (d : Deferred) : (h.cqWrite d).flt = h.flt := by
  obtain ⟨_, _, e⟩ := h.cqWrite_frame d; exact (congrArg Hub.flt e :)
@[simp] theorem Hub.cqWrite_cal (h : Hub) (d : Deferred) : (h.cqWrite d).cal = h.cal := by
  obtain ⟨_, _, e⟩ := h.cqWrite_frame d; exact (congrArg Hub.cal e :)
@[simp] theorem Hub.cqWrite_trg (h : Hub) (d : Deferred) : (h.cqWrite d).trg = h.trg := by
  obtain ⟨_, _, e⟩ := h.cqWrite_frame d; exact (congrArg Hub.trg e :)
@[simp] theorem Hub.cqWrite_cod (h : Hub) (d : Deferred) : (h.cqWrite d).cod = h.cod := by
  obtain ⟨_, _, e⟩ := h.cqWrite_frame d; exact (congrArg Hub.cod e :)
@[simp] theorem Hub.cqWrite_tiu (h : Hub) (d : Deferred) : (h.cqWrite d).tiu = h.tiu := by
  obtain ⟨_, _, e⟩ := h.cqWrite_frame d; exact (congrArg Hub.tiu e :)
@[simp] theorem Hub.cqWrite_net (h : Hub) (d : Deferred) : (h.cqWrite d).net = h.net := by
  obtain ⟨_, _, e⟩ := h.cqWrite_frame d; exact (congrArg Hub.net e :)
@[simp] theorem Hub.cqWrite_sl (h : Hub) (d : Deferred) : (h.cqWrite d).sl = h.sl := by
  obtain ⟨_, _, e⟩ := h.cqWrite_frame d; exact (congrArg Hub.sl e :)
@[simp] theorem Hub.cqWrite_casc (h : Hub) (d : Deferred) : (h.cqWrite d).casc = h.casc := by
  obtain ⟨_, _, e⟩ := h.cqWrite_frame d; exact (congrArg Hub.casc e :)
@[simp] theorem Hub.cqWrite_free (h : Hub) (d : Deferred) : (h.cqWrite d).free = h.free := by
  obtain ⟨_, _, e⟩ := h.cqWrite_frame d; exact (congrArg Hub.free e :)

/-! ### complete -/

theorem Hub.complete_frame (h : Hub) (hd status : Nat) (result : List Word) :
    ∃ o x, h.complete hd status result = { h with host := o, tx := x } := by
  unfold Hub.complete
  dsimp only
  split
  · exact h.cqWrite_frame _
  · exact ⟨_, _, rfl⟩
@[simp] theorem Hub.complete_cfg (h : Hub) (hd status : Nat) (result : List Word) : (h.complete hd status result).cfg = h.cfg := by
  obtain ⟨_, _, e⟩ := h.complete_frame hd status result; exact (congrArg Hub.cfg e :)
@[simp] theorem Hub.complete_sys (h : Hub) (hd status : Nat) (result : List Word) : (h.complete hd status result).sys = h.sys := by
  obtain ⟨_, _, e⟩ := h.complete_frame hd status result; exact (congrArg Hub.sys e :)
@[simp] theorem Hub.complete_evt (h : Hub) (hd status : Nat) (result : List Word) : (h.complete hd status result).evt = h.evt := by
  obtain ⟨_, _, e⟩ := h.complete_frame hd status result; exact (congrArg Hub.evt e :)
@[simp] theorem Hub.complete_clk (h : Hub) (hd status : Nat) (result : List Word) : (h.complete hd status result).clk = h.clk := by
  obtain ⟨_, _, e⟩ := h.complete_frame hd status result; exact (congrArg Hub.clk e :)
@[simp] theorem Hub.complete_tb (h : Hub) (hd status : Nat) (result : List Word) : (h.complete hd status result).tb = h.tb := by
  obtain ⟨_, _, e⟩ := h.complete_frame hd status result; exact (congrArg Hub.tb e :)
@[simp] theorem Hub.complete_jrn (h : Hub) (hd status : Nat) (result : List Word) : (h.complete hd status result).jrn = h.jrn := by
  obtain ⟨_, _, e⟩ := h.complete_frame hd status result; exact (congrArg Hub.jrn e :)
@[simp] theorem Hub.complete_sto (h : Hub) (hd status : Nat) (result : List Word) : (h.complete hd status result).sto = h.sto := by
  obtain ⟨_, _, e⟩ := h.complete_frame hd status result; exact (congrArg Hub.sto e :)
@[simp] theorem Hub.complete_act (h : Hub) (hd status : Nat) (result : List Word) : (h.complete hd status result).act = h.act := by
  obtain ⟨_, _, e⟩ := h.complete_frame hd status result; exact (congrArg Hub.act e :)
@[simp] theorem Hub.complete_fe (h : Hub) (hd status : Nat) (result : List Word) : (h.complete hd status result).fe = h.fe := by
  obtain ⟨_, _, e⟩ := h.complete_frame hd status result; exact (congrArg Hub.fe e :)
@[simp] theorem Hub.complete_flt (h : Hub) (hd status : Nat) (result : List Word) : (h.complete hd status result).flt = h.flt := by
  obtain ⟨_, _, e⟩ := h.complete_frame hd status result; exact (congrArg Hub.flt e :)
@[simp] theorem Hub.complete_cal (h : Hub) (hd status : Nat) (result : List Word) : (h.complete hd status result).cal = h.cal := by
  obtain ⟨_, _, e⟩ := h.complete_frame hd status result; exact (congrArg Hub.cal e :)
@[simp] theorem Hub.complete_trg (h : Hub) (hd status : Nat) (result : List Word) : (h.complete hd status result).trg = h.trg := by
  obtain ⟨_, _, e⟩ := h.complete_frame hd status result; exact (congrArg Hub.trg e :)
@[simp] theorem Hub.complete_cod (h : Hub) (hd status : Nat) (result : List Word) : (h.complete hd status result).cod = h.cod := by
  obtain ⟨_, _, e⟩ := h.complete_frame hd status result; exact (congrArg Hub.cod e :)
@[simp] theorem Hub.complete_tiu (h : Hub) (hd status : Nat) (result : List Word) : (h.complete hd status result).tiu = h.tiu := by
  obtain ⟨_, _, e⟩ := h.complete_frame hd status result; exact (congrArg Hub.tiu e :)
@[simp] theorem Hub.complete_net (h : Hub) (hd status : Nat) (result : List Word) : (h.complete hd status result).net = h.net := by
  obtain ⟨_, _, e⟩ := h.complete_frame hd status result; exact (congrArg Hub.net e :)
@[simp] theorem Hub.complete_sl (h : Hub) (hd status : Nat) (result : List Word) : (h.complete hd status result).sl = h.sl := by
  obtain ⟨_, _, e⟩ := h.complete_frame hd status result; exact (congrArg Hub.sl e :)
@[simp] theorem Hub.complete_casc (h : Hub) (hd status : Nat) (result : List Word) : (h.complete hd status result).casc = h.casc := by
  obtain ⟨_, _, e⟩ := h.complete_frame hd status result; exact (congrArg Hub.casc e :)
@[simp] theorem Hub.complete_free (h : Hub) (hd status : Nat) (result : List Word) : (h.complete hd status result).free = h.free := by
  obtain ⟨_, _, e⟩ := h.complete_frame hd status result; exact (congrArg Hub.free e :)

/-! ### saveState -/

theorem Hub.saveState_frame (h : Hub) (hd : Option Nat) :
    ∃ s, h.saveState hd = { h with sto := s } := by
  unfold Hub.saveState
  split <;> exact ⟨_, rfl⟩
@[simp] theorem Hub.saveState_cfg (h : Hub) (hd : Option Nat) : (h.saveState hd).cfg = h.cfg := by
  obtain ⟨_, e⟩ := h.saveState_frame hd; exact (congrArg Hub.cfg e :)
@[simp] theorem Hub.saveState_sys (h : Hub) (hd : Option Nat) : (h.saveState hd).sys = h.sys := by
  obtain ⟨_, e⟩ := h.saveState_frame hd; exact (congrArg Hub.sys e :)
@[simp] theorem Hub.saveState_host (h : Hub) (hd : Option Nat) : (h.saveState hd).host = h.host := by
  obtain ⟨_, e⟩ := h.saveState_frame hd; exact (congrArg Hub.host e :)
@[simp] theorem Hub.saveState_evt (h : Hub) (hd : Option Nat) : (h.saveState hd).evt = h.evt := by
  obtain ⟨_, e⟩ := h.saveState_frame hd; exact (congrArg Hub.evt e :)
@[simp] theorem Hub.saveState_clk (h : Hub) (hd : Option Nat) : (h.saveState hd).clk = h.clk := by
  obtain ⟨_, e⟩ := h.saveState_frame hd; exact (congrArg Hub.clk e :)
@[simp] theorem Hub.saveState_tb (h : Hub) (hd : Option Nat) : (h.saveState hd).tb = h.tb := by
  obtain ⟨_, e⟩ := h.saveState_frame hd; exact (congrArg Hub.tb e :)
@[simp] theorem Hub.saveState_jrn (h : Hub) (hd : Option Nat) : (h.saveState hd).jrn = h.jrn := by
  obtain ⟨_, e⟩ := h.saveState_frame hd; exact (congrArg Hub.jrn e :)
@[simp] theorem Hub.saveState_act (h : Hub) (hd : Option Nat) : (h.saveState hd).act = h.act := by
  obtain ⟨_, e⟩ := h.saveState_frame hd; exact (congrArg Hub.act e :)
@[simp] theorem Hub.saveState_fe (h : Hub) (hd : Option Nat) : (h.saveState hd).fe = h.fe := by
  obtain ⟨_, e⟩ := h.saveState_frame hd; exact (congrArg Hub.fe e :)
@[simp] theorem Hub.saveState_flt (h : Hub) (hd : Option Nat) : (h.saveState hd).flt = h.flt := by
  obtain ⟨_, e⟩ := h.saveState_frame hd; exact (congrArg Hub.flt e :)
@[simp] theorem Hub.saveState_cal (h : Hub) (hd : Option Nat) : (h.saveState hd).cal = h.cal := by
  obtain ⟨_, e⟩ := h.saveState_frame hd; exact (congrArg Hub.cal e :)
@[simp] theorem Hub.saveState_trg (h : Hub) (hd : Option Nat) : (h.saveState hd).trg = h.trg := by
  obtain ⟨_, e⟩ := h.saveState_frame hd; exact (congrArg Hub.trg e :)
@[simp] theorem Hub.saveState_cod (h : Hub) (hd : Option Nat) : (h.saveState hd).cod = h.cod := by
  obtain ⟨_, e⟩ := h.saveState_frame hd; exact (congrArg Hub.cod e :)
@[simp] theorem Hub.saveState_tiu (h : Hub) (hd : Option Nat) : (h.saveState hd).tiu = h.tiu := by
  obtain ⟨_, e⟩ := h.saveState_frame hd; exact (congrArg Hub.tiu e :)
@[simp] theorem Hub.saveState_net (h : Hub) (hd : Option Nat) : (h.saveState hd).net = h.net := by
  obtain ⟨_, e⟩ := h.saveState_frame hd; exact (congrArg Hub.net e :)
@[simp] theorem Hub.saveState_sl (h : Hub) (hd : Option Nat) : (h.saveState hd).sl = h.sl := by
  obtain ⟨_, e⟩ := h.saveState_frame hd; exact (congrArg Hub.sl e :)
@[simp] theorem Hub.saveState_casc (h : Hub) (hd : Option Nat) : (h.saveState hd).casc = h.casc := by
  obtain ⟨_, e⟩ := h.saveState_frame hd; exact (congrArg Hub.casc e :)
@[simp] theorem Hub.saveState_tx (h : Hub) (hd : Option Nat) : (h.saveState hd).tx = h.tx := by
  obtain ⟨_, e⟩ := h.saveState_frame hd; exact (congrArg Hub.tx e :)
@[simp] theorem Hub.saveState_free (h : Hub) (hd : Option Nat) : (h.saveState hd).free = h.free := by
  obtain ⟨_, e⟩ := h.saveState_frame hd; exact (congrArg Hub.free e :)

/-! ### jrnState -/

theorem Hub.jrnState_frame (h : Hub) :
    ∃ j e o x, h.jrnState = { h with jrn := j, evt := e, host := o, tx := x } := by
  unfold Hub.jrnState
  dsimp only
  split
  · exact ⟨_, _, _, _, rfl⟩
  all_goals split
  · exact ⟨_, Hub.raise_frame { h with jrn := _ } _ _⟩
  all_goals split
  · split <;> exact ⟨_, Hub.raise_frame { h with jrn := _ } _ _⟩
  all_goals split
  · exact ⟨_, Hub.raise_frame { h with jrn := _ } _ _⟩
  · exact ⟨_, _, _, _, rfl⟩
@[simp] theorem Hub.jrnState_cfg (h : Hub) : (h.jrnState).cfg = h.cfg := by
  obtain ⟨_, _, _, _, e⟩ := h.jrnState_frame; exact (congrArg Hub.cfg e :)
@[simp] theorem Hub.jrnState_sys (h : Hub) : (h.jrnState).sys = h.sys := by
  obtain ⟨_, _, _, _, e⟩ := h.jrnState_frame; exact (congrArg Hub.sys e :)
@[simp] theorem Hub.jrnState_clk (h : Hub) : (h.jrnState).clk = h.clk := by
  obtain ⟨_, _, _, _, e⟩ := h.jrnState_frame; exact (congrArg Hub.clk e :)
@[simp] theorem Hub.jrnState_tb (h : Hub) : (h.jrnState).tb = h.tb := by
  obtain ⟨_, _, _, _, e⟩ := h.jrnState_frame; exact (congrArg Hub.tb e :)
@[simp] theorem Hub.jrnState_sto (h : Hub) : (h.jrnState).sto = h.sto := by
  obtain ⟨_, _, _, _, e⟩ := h.jrnState_frame; exact (congrArg Hub.sto e :)
@[simp] theorem Hub.jrnState_act (h : Hub) : (h.jrnState).act = h.act := by
  obtain ⟨_, _, _, _, e⟩ := h.jrnState_frame; exact (congrArg Hub.act e :)
@[simp] theorem Hub.jrnState_fe (h : Hub) : (h.jrnState).fe = h.fe := by
  obtain ⟨_, _, _, _, e⟩ := h.jrnState_frame; exact (congrArg Hub.fe e :)
@[simp] theorem Hub.jrnState_flt (h : Hub) : (h.jrnState).flt = h.flt := by
  obtain ⟨_, _, _, _, e⟩ := h.jrnState_frame; exact (congrArg Hub.flt e :)
@[simp] theorem Hub.jrnState_cal (h : Hub) : (h.jrnState).cal = h.cal := by
  obtain ⟨_, _, _, _, e⟩ := h.jrnState_frame; exact (congrArg Hub.cal e :)
@[simp] theorem Hub.jrnState_trg (h : Hub) : (h.jrnState).trg = h.trg := by
  obtain ⟨_, _, _, _, e⟩ := h.jrnState_frame; exact (congrArg Hub.trg e :)
@[simp] theorem Hub.jrnState_cod (h : Hub) : (h.jrnState).cod = h.cod := by
  obtain ⟨_, _, _, _, e⟩ := h.jrnState_frame; exact (congrArg Hub.cod e :)
@[simp] theorem Hub.jrnState_tiu (h : Hub) : (h.jrnState).tiu = h.tiu := by
  obtain ⟨_, _, _, _, e⟩ := h.jrnState_frame; exact (congrArg Hub.tiu e :)
@[simp] theorem Hub.jrnState_net (h : Hub) : (h.jrnState).net = h.net := by
  obtain ⟨_, _, _, _, e⟩ := h.jrnState_frame; exact (congrArg Hub.net e :)
@[simp] theorem Hub.jrnState_sl (h : Hub) : (h.jrnState).sl = h.sl := by
  obtain ⟨_, _, _, _, e⟩ := h.jrnState_frame; exact (congrArg Hub.sl e :)
@[simp] theorem Hub.jrnState_casc (h : Hub) : (h.jrnState).casc = h.casc := by
  obtain ⟨_, _, _, _, e⟩ := h.jrnState_frame; exact (congrArg Hub.casc e :)
@[simp] theorem Hub.jrnState_free (h : Hub) : (h.jrnState).free = h.free := by
  obtain ⟨_, _, _, _, e⟩ := h.jrnState_frame; exact (congrArg Hub.free e :)

/-! ### jrnDegrade -/

theorem Hub.jrnDegrade_frame (h : Hub) :
    ∃ j e o x, h.jrnDegrade = { h with jrn := j, evt := e, host := o, tx := x } := by
  unfold Hub.jrnDegrade
  split
  · exact ⟨_, Hub.raise_frame { h with jrn := _ } _ _⟩
  · exact ⟨_, _, _, _, rfl⟩
@[simp] theorem Hub.jrnDegrade_cfg (h : Hub) : (h.jrnDegrade).cfg = h.cfg := by
  obtain ⟨_, _, _, _, e⟩ := h.jrnDegrade_frame; exact (congrArg Hub.cfg e :)
@[simp] theorem Hub.jrnDegrade_sys (h : Hub) : (h.jrnDegrade).sys = h.sys := by
  obtain ⟨_, _, _, _, e⟩ := h.jrnDegrade_frame; exact (congrArg Hub.sys e :)
@[simp] theorem Hub.jrnDegrade_clk (h : Hub) : (h.jrnDegrade).clk = h.clk := by
  obtain ⟨_, _, _, _, e⟩ := h.jrnDegrade_frame; exact (congrArg Hub.clk e :)
@[simp] theorem Hub.jrnDegrade_tb (h : Hub) : (h.jrnDegrade).tb = h.tb := by
  obtain ⟨_, _, _, _, e⟩ := h.jrnDegrade_frame; exact (congrArg Hub.tb e :)
@[simp] theorem Hub.jrnDegrade_sto (h : Hub) : (h.jrnDegrade).sto = h.sto := by
  obtain ⟨_, _, _, _, e⟩ := h.jrnDegrade_frame; exact (congrArg Hub.sto e :)
@[simp] theorem Hub.jrnDegrade_act (h : Hub) : (h.jrnDegrade).act = h.act := by
  obtain ⟨_, _, _, _, e⟩ := h.jrnDegrade_frame; exact (congrArg Hub.act e :)
@[simp] theorem Hub.jrnDegrade_fe (h : Hub) : (h.jrnDegrade).fe = h.fe := by
  obtain ⟨_, _, _, _, e⟩ := h.jrnDegrade_frame; exact (congrArg Hub.fe e :)
@[simp] theorem Hub.jrnDegrade_flt (h : Hub) : (h.jrnDegrade).flt = h.flt := by
  obtain ⟨_, _, _, _, e⟩ := h.jrnDegrade_frame; exact (congrArg Hub.flt e :)
@[simp] theorem Hub.jrnDegrade_cal (h : Hub) : (h.jrnDegrade).cal = h.cal := by
  obtain ⟨_, _, _, _, e⟩ := h.jrnDegrade_frame; exact (congrArg Hub.cal e :)
@[simp] theorem Hub.jrnDegrade_trg (h : Hub) : (h.jrnDegrade).trg = h.trg := by
  obtain ⟨_, _, _, _, e⟩ := h.jrnDegrade_frame; exact (congrArg Hub.trg e :)
@[simp] theorem Hub.jrnDegrade_cod (h : Hub) : (h.jrnDegrade).cod = h.cod := by
  obtain ⟨_, _, _, _, e⟩ := h.jrnDegrade_frame; exact (congrArg Hub.cod e :)
@[simp] theorem Hub.jrnDegrade_tiu (h : Hub) : (h.jrnDegrade).tiu = h.tiu := by
  obtain ⟨_, _, _, _, e⟩ := h.jrnDegrade_frame; exact (congrArg Hub.tiu e :)
@[simp] theorem Hub.jrnDegrade_net (h : Hub) : (h.jrnDegrade).net = h.net := by
  obtain ⟨_, _, _, _, e⟩ := h.jrnDegrade_frame; exact (congrArg Hub.net e :)
@[simp] theorem Hub.jrnDegrade_sl (h : Hub) : (h.jrnDegrade).sl = h.sl := by
  obtain ⟨_, _, _, _, e⟩ := h.jrnDegrade_frame; exact (congrArg Hub.sl e :)
@[simp] theorem Hub.jrnDegrade_casc (h : Hub) : (h.jrnDegrade).casc = h.casc := by
  obtain ⟨_, _, _, _, e⟩ := h.jrnDegrade_frame; exact (congrArg Hub.casc e :)
@[simp] theorem Hub.jrnDegrade_free (h : Hub) : (h.jrnDegrade).free = h.free := by
  obtain ⟨_, _, _, _, e⟩ := h.jrnDegrade_frame; exact (congrArg Hub.free e :)

/-! ### executing -/

theorem Hub.executing_frame (h : Hub) (c : CmdSpec) (m : Nat) (tag : Word) (pl : List Word) :
    ∃ o, h.executing c m tag pl = { h with host := o } := by
  unfold Hub.executing Hub.mailed Hub.ring Hub.updMb
  exact ⟨_, rfl⟩
@[simp] theorem Hub.executing_cfg (h : Hub) (c : CmdSpec) (m : Nat) (tag : Word) (pl : List Word) : (h.executing c m tag pl).cfg = h.cfg := by
  obtain ⟨_, e⟩ := h.executing_frame c m tag pl; exact (congrArg Hub.cfg e :)
@[simp] theorem Hub.executing_sys (h : Hub) (c : CmdSpec) (m : Nat) (tag : Word) (pl : List Word) : (h.executing c m tag pl).sys = h.sys := by
  obtain ⟨_, e⟩ := h.executing_frame c m tag pl; exact (congrArg Hub.sys e :)
@[simp] theorem Hub.executing_evt (h : Hub) (c : CmdSpec) (m : Nat) (tag : Word) (pl : List Word) : (h.executing c m tag pl).evt = h.evt := by
  obtain ⟨_, e⟩ := h.executing_frame c m tag pl; exact (congrArg Hub.evt e :)
@[simp] theorem Hub.executing_clk (h : Hub) (c : CmdSpec) (m : Nat) (tag : Word) (pl : List Word) : (h.executing c m tag pl).clk = h.clk := by
  obtain ⟨_, e⟩ := h.executing_frame c m tag pl; exact (congrArg Hub.clk e :)
@[simp] theorem Hub.executing_tb (h : Hub) (c : CmdSpec) (m : Nat) (tag : Word) (pl : List Word) : (h.executing c m tag pl).tb = h.tb := by
  obtain ⟨_, e⟩ := h.executing_frame c m tag pl; exact (congrArg Hub.tb e :)
@[simp] theorem Hub.executing_jrn (h : Hub) (c : CmdSpec) (m : Nat) (tag : Word) (pl : List Word) : (h.executing c m tag pl).jrn = h.jrn := by
  obtain ⟨_, e⟩ := h.executing_frame c m tag pl; exact (congrArg Hub.jrn e :)
@[simp] theorem Hub.executing_sto (h : Hub) (c : CmdSpec) (m : Nat) (tag : Word) (pl : List Word) : (h.executing c m tag pl).sto = h.sto := by
  obtain ⟨_, e⟩ := h.executing_frame c m tag pl; exact (congrArg Hub.sto e :)
@[simp] theorem Hub.executing_act (h : Hub) (c : CmdSpec) (m : Nat) (tag : Word) (pl : List Word) : (h.executing c m tag pl).act = h.act := by
  obtain ⟨_, e⟩ := h.executing_frame c m tag pl; exact (congrArg Hub.act e :)
@[simp] theorem Hub.executing_fe (h : Hub) (c : CmdSpec) (m : Nat) (tag : Word) (pl : List Word) : (h.executing c m tag pl).fe = h.fe := by
  obtain ⟨_, e⟩ := h.executing_frame c m tag pl; exact (congrArg Hub.fe e :)
@[simp] theorem Hub.executing_flt (h : Hub) (c : CmdSpec) (m : Nat) (tag : Word) (pl : List Word) : (h.executing c m tag pl).flt = h.flt := by
  obtain ⟨_, e⟩ := h.executing_frame c m tag pl; exact (congrArg Hub.flt e :)
@[simp] theorem Hub.executing_cal (h : Hub) (c : CmdSpec) (m : Nat) (tag : Word) (pl : List Word) : (h.executing c m tag pl).cal = h.cal := by
  obtain ⟨_, e⟩ := h.executing_frame c m tag pl; exact (congrArg Hub.cal e :)
@[simp] theorem Hub.executing_trg (h : Hub) (c : CmdSpec) (m : Nat) (tag : Word) (pl : List Word) : (h.executing c m tag pl).trg = h.trg := by
  obtain ⟨_, e⟩ := h.executing_frame c m tag pl; exact (congrArg Hub.trg e :)
@[simp] theorem Hub.executing_cod (h : Hub) (c : CmdSpec) (m : Nat) (tag : Word) (pl : List Word) : (h.executing c m tag pl).cod = h.cod := by
  obtain ⟨_, e⟩ := h.executing_frame c m tag pl; exact (congrArg Hub.cod e :)
@[simp] theorem Hub.executing_tiu (h : Hub) (c : CmdSpec) (m : Nat) (tag : Word) (pl : List Word) : (h.executing c m tag pl).tiu = h.tiu := by
  obtain ⟨_, e⟩ := h.executing_frame c m tag pl; exact (congrArg Hub.tiu e :)
@[simp] theorem Hub.executing_net (h : Hub) (c : CmdSpec) (m : Nat) (tag : Word) (pl : List Word) : (h.executing c m tag pl).net = h.net := by
  obtain ⟨_, e⟩ := h.executing_frame c m tag pl; exact (congrArg Hub.net e :)
@[simp] theorem Hub.executing_sl (h : Hub) (c : CmdSpec) (m : Nat) (tag : Word) (pl : List Word) : (h.executing c m tag pl).sl = h.sl := by
  obtain ⟨_, e⟩ := h.executing_frame c m tag pl; exact (congrArg Hub.sl e :)
@[simp] theorem Hub.executing_casc (h : Hub) (c : CmdSpec) (m : Nat) (tag : Word) (pl : List Word) : (h.executing c m tag pl).casc = h.casc := by
  obtain ⟨_, e⟩ := h.executing_frame c m tag pl; exact (congrArg Hub.casc e :)
@[simp] theorem Hub.executing_tx (h : Hub) (c : CmdSpec) (m : Nat) (tag : Word) (pl : List Word) : (h.executing c m tag pl).tx = h.tx := by
  obtain ⟨_, e⟩ := h.executing_frame c m tag pl; exact (congrArg Hub.tx e :)
@[simp] theorem Hub.executing_free (h : Hub) (c : CmdSpec) (m : Nat) (tag : Word) (pl : List Word) : (h.executing c m tag pl).free = h.free := by
  obtain ⟨_, e⟩ := h.executing_frame c m tag pl; exact (congrArg Hub.free e :)

/-! ### clkFault -/

@[simp] theorem Hub.clkFault_cfg (h : Hub) (i : Nat) : (h.clkFault i).cfg = h.cfg := rfl
@[simp] theorem Hub.clkFault_sys (h : Hub) (i : Nat) : (h.clkFault i).sys = h.sys := rfl
@[simp] theorem Hub.clkFault_host (h : Hub) (i : Nat) : (h.clkFault i).host = h.host := rfl
@[simp] theorem Hub.clkFault_evt (h : Hub) (i : Nat) : (h.clkFault i).evt = h.evt := rfl
@[simp] theorem Hub.clkFault_tb (h : Hub) (i : Nat) : (h.clkFault i).tb = h.tb := rfl
@[simp] theorem Hub.clkFault_jrn (h : Hub) (i : Nat) : (h.clkFault i).jrn = h.jrn := rfl
@[simp] theorem Hub.clkFault_sto (h : Hub) (i : Nat) : (h.clkFault i).sto = h.sto := rfl
@[simp] theorem Hub.clkFault_act (h : Hub) (i : Nat) : (h.clkFault i).act = h.act := rfl
@[simp] theorem Hub.clkFault_fe (h : Hub) (i : Nat) : (h.clkFault i).fe = h.fe := rfl
@[simp] theorem Hub.clkFault_flt (h : Hub) (i : Nat) : (h.clkFault i).flt = h.flt := rfl
@[simp] theorem Hub.clkFault_cal (h : Hub) (i : Nat) : (h.clkFault i).cal = h.cal := rfl
@[simp] theorem Hub.clkFault_trg (h : Hub) (i : Nat) : (h.clkFault i).trg = h.trg := rfl
@[simp] theorem Hub.clkFault_cod (h : Hub) (i : Nat) : (h.clkFault i).cod = h.cod := rfl
@[simp] theorem Hub.clkFault_tiu (h : Hub) (i : Nat) : (h.clkFault i).tiu = h.tiu := rfl
@[simp] theorem Hub.clkFault_net (h : Hub) (i : Nat) : (h.clkFault i).net = h.net := rfl
@[simp] theorem Hub.clkFault_sl (h : Hub) (i : Nat) : (h.clkFault i).sl = h.sl := rfl
@[simp] theorem Hub.clkFault_casc (h : Hub) (i : Nat) : (h.clkFault i).casc = h.casc := rfl
@[simp] theorem Hub.clkFault_tx (h : Hub) (i : Nat) : (h.clkFault i).tx = h.tx := rfl
@[simp] theorem Hub.clkFault_free (h : Hub) (i : Nat) : (h.clkFault i).free = h.free := rfl

/-! ### slewNote -/

@[simp] theorem Hub.slewNote_cfg (h : Hub) : (h.slewNote).cfg = h.cfg := rfl
@[simp] theorem Hub.slewNote_sys (h : Hub) : (h.slewNote).sys = h.sys := rfl
@[simp] theorem Hub.slewNote_host (h : Hub) : (h.slewNote).host = h.host := rfl
@[simp] theorem Hub.slewNote_evt (h : Hub) : (h.slewNote).evt = h.evt := rfl
@[simp] theorem Hub.slewNote_clk (h : Hub) : (h.slewNote).clk = h.clk := rfl
@[simp] theorem Hub.slewNote_tb (h : Hub) : (h.slewNote).tb = h.tb := rfl
@[simp] theorem Hub.slewNote_jrn (h : Hub) : (h.slewNote).jrn = h.jrn := rfl
@[simp] theorem Hub.slewNote_sto (h : Hub) : (h.slewNote).sto = h.sto := rfl
@[simp] theorem Hub.slewNote_act (h : Hub) : (h.slewNote).act = h.act := rfl
@[simp] theorem Hub.slewNote_fe (h : Hub) : (h.slewNote).fe = h.fe := rfl
@[simp] theorem Hub.slewNote_flt (h : Hub) : (h.slewNote).flt = h.flt := rfl
@[simp] theorem Hub.slewNote_cal (h : Hub) : (h.slewNote).cal = h.cal := rfl
@[simp] theorem Hub.slewNote_trg (h : Hub) : (h.slewNote).trg = h.trg := rfl
@[simp] theorem Hub.slewNote_cod (h : Hub) : (h.slewNote).cod = h.cod := rfl
@[simp] theorem Hub.slewNote_net (h : Hub) : (h.slewNote).net = h.net := rfl
@[simp] theorem Hub.slewNote_sl (h : Hub) : (h.slewNote).sl = h.sl := rfl
@[simp] theorem Hub.slewNote_casc (h : Hub) : (h.slewNote).casc = h.casc := rfl
@[simp] theorem Hub.slewNote_tx (h : Hub) : (h.slewNote).tx = h.tx := rfl
@[simp] theorem Hub.slewNote_free (h : Hub) : (h.slewNote).free = h.free := rfl

/-! ### newEpoch -/

theorem Hub.newEpoch_frame (h : Hub) (epoch : Nat) (step : T64) (origin : Bool) :
    ∃ b, h.newEpoch epoch step origin = { h with tb := b } := by
  unfold Hub.newEpoch
  exact ⟨_, rfl⟩
@[simp] theorem Hub.newEpoch_cfg (h : Hub) (epoch : Nat) (step : T64) (origin : Bool) : (h.newEpoch epoch step origin).cfg = h.cfg := by
  obtain ⟨_, e⟩ := h.newEpoch_frame epoch step origin; exact (congrArg Hub.cfg e :)
@[simp] theorem Hub.newEpoch_sys (h : Hub) (epoch : Nat) (step : T64) (origin : Bool) : (h.newEpoch epoch step origin).sys = h.sys := by
  obtain ⟨_, e⟩ := h.newEpoch_frame epoch step origin; exact (congrArg Hub.sys e :)
@[simp] theorem Hub.newEpoch_host (h : Hub) (epoch : Nat) (step : T64) (origin : Bool) : (h.newEpoch epoch step origin).host = h.host := by
  obtain ⟨_, e⟩ := h.newEpoch_frame epoch step origin; exact (congrArg Hub.host e :)
@[simp] theorem Hub.newEpoch_evt (h : Hub) (epoch : Nat) (step : T64) (origin : Bool) : (h.newEpoch epoch step origin).evt = h.evt := by
  obtain ⟨_, e⟩ := h.newEpoch_frame epoch step origin; exact (congrArg Hub.evt e :)
@[simp] theorem Hub.newEpoch_clk (h : Hub) (epoch : Nat) (step : T64) (origin : Bool) : (h.newEpoch epoch step origin).clk = h.clk := by
  obtain ⟨_, e⟩ := h.newEpoch_frame epoch step origin; exact (congrArg Hub.clk e :)
@[simp] theorem Hub.newEpoch_jrn (h : Hub) (epoch : Nat) (step : T64) (origin : Bool) : (h.newEpoch epoch step origin).jrn = h.jrn := by
  obtain ⟨_, e⟩ := h.newEpoch_frame epoch step origin; exact (congrArg Hub.jrn e :)
@[simp] theorem Hub.newEpoch_sto (h : Hub) (epoch : Nat) (step : T64) (origin : Bool) : (h.newEpoch epoch step origin).sto = h.sto := by
  obtain ⟨_, e⟩ := h.newEpoch_frame epoch step origin; exact (congrArg Hub.sto e :)
@[simp] theorem Hub.newEpoch_act (h : Hub) (epoch : Nat) (step : T64) (origin : Bool) : (h.newEpoch epoch step origin).act = h.act := by
  obtain ⟨_, e⟩ := h.newEpoch_frame epoch step origin; exact (congrArg Hub.act e :)
@[simp] theorem Hub.newEpoch_fe (h : Hub) (epoch : Nat) (step : T64) (origin : Bool) : (h.newEpoch epoch step origin).fe = h.fe := by
  obtain ⟨_, e⟩ := h.newEpoch_frame epoch step origin; exact (congrArg Hub.fe e :)
@[simp] theorem Hub.newEpoch_flt (h : Hub) (epoch : Nat) (step : T64) (origin : Bool) : (h.newEpoch epoch step origin).flt = h.flt := by
  obtain ⟨_, e⟩ := h.newEpoch_frame epoch step origin; exact (congrArg Hub.flt e :)
@[simp] theorem Hub.newEpoch_cal (h : Hub) (epoch : Nat) (step : T64) (origin : Bool) : (h.newEpoch epoch step origin).cal = h.cal := by
  obtain ⟨_, e⟩ := h.newEpoch_frame epoch step origin; exact (congrArg Hub.cal e :)
@[simp] theorem Hub.newEpoch_trg (h : Hub) (epoch : Nat) (step : T64) (origin : Bool) : (h.newEpoch epoch step origin).trg = h.trg := by
  obtain ⟨_, e⟩ := h.newEpoch_frame epoch step origin; exact (congrArg Hub.trg e :)
@[simp] theorem Hub.newEpoch_cod (h : Hub) (epoch : Nat) (step : T64) (origin : Bool) : (h.newEpoch epoch step origin).cod = h.cod := by
  obtain ⟨_, e⟩ := h.newEpoch_frame epoch step origin; exact (congrArg Hub.cod e :)
@[simp] theorem Hub.newEpoch_tiu (h : Hub) (epoch : Nat) (step : T64) (origin : Bool) : (h.newEpoch epoch step origin).tiu = h.tiu := by
  obtain ⟨_, e⟩ := h.newEpoch_frame epoch step origin; exact (congrArg Hub.tiu e :)
@[simp] theorem Hub.newEpoch_net (h : Hub) (epoch : Nat) (step : T64) (origin : Bool) : (h.newEpoch epoch step origin).net = h.net := by
  obtain ⟨_, e⟩ := h.newEpoch_frame epoch step origin; exact (congrArg Hub.net e :)
@[simp] theorem Hub.newEpoch_sl (h : Hub) (epoch : Nat) (step : T64) (origin : Bool) : (h.newEpoch epoch step origin).sl = h.sl := by
  obtain ⟨_, e⟩ := h.newEpoch_frame epoch step origin; exact (congrArg Hub.sl e :)
@[simp] theorem Hub.newEpoch_casc (h : Hub) (epoch : Nat) (step : T64) (origin : Bool) : (h.newEpoch epoch step origin).casc = h.casc := by
  obtain ⟨_, e⟩ := h.newEpoch_frame epoch step origin; exact (congrArg Hub.casc e :)
@[simp] theorem Hub.newEpoch_tx (h : Hub) (epoch : Nat) (step : T64) (origin : Bool) : (h.newEpoch epoch step origin).tx = h.tx := by
  obtain ⟨_, e⟩ := h.newEpoch_frame epoch step origin; exact (congrArg Hub.tx e :)
@[simp] theorem Hub.newEpoch_free (h : Hub) (epoch : Nat) (step : T64) (origin : Bool) : (h.newEpoch epoch step origin).free = h.free := by
  obtain ⟨_, e⟩ := h.newEpoch_frame epoch step origin; exact (congrArg Hub.free e :)

/-! ### ppsEvaluated -/

theorem Hub.ppsEvaluated_frame (h : Hub) :
    ∃ b, h.ppsEvaluated = { h with tb := b } := by
  unfold Hub.ppsEvaluated
  dsimp only
  split
  · split
    · exact ⟨_, rfl⟩
    · exact ⟨_, rfl⟩
  · exact ⟨_, rfl⟩
@[simp] theorem Hub.ppsEvaluated_cfg (h : Hub) : (h.ppsEvaluated).cfg = h.cfg := by
  obtain ⟨_, e⟩ := h.ppsEvaluated_frame; exact (congrArg Hub.cfg e :)
@[simp] theorem Hub.ppsEvaluated_sys (h : Hub) : (h.ppsEvaluated).sys = h.sys := by
  obtain ⟨_, e⟩ := h.ppsEvaluated_frame; exact (congrArg Hub.sys e :)
@[simp] theorem Hub.ppsEvaluated_host (h : Hub) : (h.ppsEvaluated).host = h.host := by
  obtain ⟨_, e⟩ := h.ppsEvaluated_frame; exact (congrArg Hub.host e :)
@[simp] theorem Hub.ppsEvaluated_evt (h : Hub) : (h.ppsEvaluated).evt = h.evt := by
  obtain ⟨_, e⟩ := h.ppsEvaluated_frame; exact (congrArg Hub.evt e :)
@[simp] theorem Hub.ppsEvaluated_clk (h : Hub) : (h.ppsEvaluated).clk = h.clk := by
  obtain ⟨_, e⟩ := h.ppsEvaluated_frame; exact (congrArg Hub.clk e :)
@[simp] theorem Hub.ppsEvaluated_jrn (h : Hub) : (h.ppsEvaluated).jrn = h.jrn := by
  obtain ⟨_, e⟩ := h.ppsEvaluated_frame; exact (congrArg Hub.jrn e :)
@[simp] theorem Hub.ppsEvaluated_sto (h : Hub) : (h.ppsEvaluated).sto = h.sto := by
  obtain ⟨_, e⟩ := h.ppsEvaluated_frame; exact (congrArg Hub.sto e :)
@[simp] theorem Hub.ppsEvaluated_act (h : Hub) : (h.ppsEvaluated).act = h.act := by
  obtain ⟨_, e⟩ := h.ppsEvaluated_frame; exact (congrArg Hub.act e :)
@[simp] theorem Hub.ppsEvaluated_fe (h : Hub) : (h.ppsEvaluated).fe = h.fe := by
  obtain ⟨_, e⟩ := h.ppsEvaluated_frame; exact (congrArg Hub.fe e :)
@[simp] theorem Hub.ppsEvaluated_flt (h : Hub) : (h.ppsEvaluated).flt = h.flt := by
  obtain ⟨_, e⟩ := h.ppsEvaluated_frame; exact (congrArg Hub.flt e :)
@[simp] theorem Hub.ppsEvaluated_cal (h : Hub) : (h.ppsEvaluated).cal = h.cal := by
  obtain ⟨_, e⟩ := h.ppsEvaluated_frame; exact (congrArg Hub.cal e :)
@[simp] theorem Hub.ppsEvaluated_trg (h : Hub) : (h.ppsEvaluated).trg = h.trg := by
  obtain ⟨_, e⟩ := h.ppsEvaluated_frame; exact (congrArg Hub.trg e :)
@[simp] theorem Hub.ppsEvaluated_cod (h : Hub) : (h.ppsEvaluated).cod = h.cod := by
  obtain ⟨_, e⟩ := h.ppsEvaluated_frame; exact (congrArg Hub.cod e :)
@[simp] theorem Hub.ppsEvaluated_tiu (h : Hub) : (h.ppsEvaluated).tiu = h.tiu := by
  obtain ⟨_, e⟩ := h.ppsEvaluated_frame; exact (congrArg Hub.tiu e :)
@[simp] theorem Hub.ppsEvaluated_net (h : Hub) : (h.ppsEvaluated).net = h.net := by
  obtain ⟨_, e⟩ := h.ppsEvaluated_frame; exact (congrArg Hub.net e :)
@[simp] theorem Hub.ppsEvaluated_sl (h : Hub) : (h.ppsEvaluated).sl = h.sl := by
  obtain ⟨_, e⟩ := h.ppsEvaluated_frame; exact (congrArg Hub.sl e :)
@[simp] theorem Hub.ppsEvaluated_casc (h : Hub) : (h.ppsEvaluated).casc = h.casc := by
  obtain ⟨_, e⟩ := h.ppsEvaluated_frame; exact (congrArg Hub.casc e :)
@[simp] theorem Hub.ppsEvaluated_tx (h : Hub) : (h.ppsEvaluated).tx = h.tx := by
  obtain ⟨_, e⟩ := h.ppsEvaluated_frame; exact (congrArg Hub.tx e :)
@[simp] theorem Hub.ppsEvaluated_free (h : Hub) : (h.ppsEvaluated).free = h.free := by
  obtain ⟨_, e⟩ := h.ppsEvaluated_frame; exact (congrArg Hub.free e :)

/-! ### cmpEvaluated -/

theorem Hub.cmpEvaluated_frame (h : Hub) :
    ∃ b, h.cmpEvaluated = { h with tb := b } := by
  unfold Hub.cmpEvaluated
  obtain ⟨b, e⟩ := h.ppsEvaluated_frame
  dsimp only
  rw [e]
  exact ⟨_, rfl⟩
@[simp] theorem Hub.cmpEvaluated_cfg (h : Hub) : (h.cmpEvaluated).cfg = h.cfg := by
  obtain ⟨_, e⟩ := h.cmpEvaluated_frame; exact (congrArg Hub.cfg e :)
@[simp] theorem Hub.cmpEvaluated_sys (h : Hub) : (h.cmpEvaluated).sys = h.sys := by
  obtain ⟨_, e⟩ := h.cmpEvaluated_frame; exact (congrArg Hub.sys e :)
@[simp] theorem Hub.cmpEvaluated_host (h : Hub) : (h.cmpEvaluated).host = h.host := by
  obtain ⟨_, e⟩ := h.cmpEvaluated_frame; exact (congrArg Hub.host e :)
@[simp] theorem Hub.cmpEvaluated_evt (h : Hub) : (h.cmpEvaluated).evt = h.evt := by
  obtain ⟨_, e⟩ := h.cmpEvaluated_frame; exact (congrArg Hub.evt e :)
@[simp] theorem Hub.cmpEvaluated_clk (h : Hub) : (h.cmpEvaluated).clk = h.clk := by
  obtain ⟨_, e⟩ := h.cmpEvaluated_frame; exact (congrArg Hub.clk e :)
@[simp] theorem Hub.cmpEvaluated_jrn (h : Hub) : (h.cmpEvaluated).jrn = h.jrn := by
  obtain ⟨_, e⟩ := h.cmpEvaluated_frame; exact (congrArg Hub.jrn e :)
@[simp] theorem Hub.cmpEvaluated_sto (h : Hub) : (h.cmpEvaluated).sto = h.sto := by
  obtain ⟨_, e⟩ := h.cmpEvaluated_frame; exact (congrArg Hub.sto e :)
@[simp] theorem Hub.cmpEvaluated_act (h : Hub) : (h.cmpEvaluated).act = h.act := by
  obtain ⟨_, e⟩ := h.cmpEvaluated_frame; exact (congrArg Hub.act e :)
@[simp] theorem Hub.cmpEvaluated_fe (h : Hub) : (h.cmpEvaluated).fe = h.fe := by
  obtain ⟨_, e⟩ := h.cmpEvaluated_frame; exact (congrArg Hub.fe e :)
@[simp] theorem Hub.cmpEvaluated_flt (h : Hub) : (h.cmpEvaluated).flt = h.flt := by
  obtain ⟨_, e⟩ := h.cmpEvaluated_frame; exact (congrArg Hub.flt e :)
@[simp] theorem Hub.cmpEvaluated_cal (h : Hub) : (h.cmpEvaluated).cal = h.cal := by
  obtain ⟨_, e⟩ := h.cmpEvaluated_frame; exact (congrArg Hub.cal e :)
@[simp] theorem Hub.cmpEvaluated_trg (h : Hub) : (h.cmpEvaluated).trg = h.trg := by
  obtain ⟨_, e⟩ := h.cmpEvaluated_frame; exact (congrArg Hub.trg e :)
@[simp] theorem Hub.cmpEvaluated_cod (h : Hub) : (h.cmpEvaluated).cod = h.cod := by
  obtain ⟨_, e⟩ := h.cmpEvaluated_frame; exact (congrArg Hub.cod e :)
@[simp] theorem Hub.cmpEvaluated_tiu (h : Hub) : (h.cmpEvaluated).tiu = h.tiu := by
  obtain ⟨_, e⟩ := h.cmpEvaluated_frame; exact (congrArg Hub.tiu e :)
@[simp] theorem Hub.cmpEvaluated_net (h : Hub) : (h.cmpEvaluated).net = h.net := by
  obtain ⟨_, e⟩ := h.cmpEvaluated_frame; exact (congrArg Hub.net e :)
@[simp] theorem Hub.cmpEvaluated_sl (h : Hub) : (h.cmpEvaluated).sl = h.sl := by
  obtain ⟨_, e⟩ := h.cmpEvaluated_frame; exact (congrArg Hub.sl e :)
@[simp] theorem Hub.cmpEvaluated_casc (h : Hub) : (h.cmpEvaluated).casc = h.casc := by
  obtain ⟨_, e⟩ := h.cmpEvaluated_frame; exact (congrArg Hub.casc e :)
@[simp] theorem Hub.cmpEvaluated_tx (h : Hub) : (h.cmpEvaluated).tx = h.tx := by
  obtain ⟨_, e⟩ := h.cmpEvaluated_frame; exact (congrArg Hub.tx e :)
@[simp] theorem Hub.cmpEvaluated_free (h : Hub) : (h.cmpEvaluated).free = h.free := by
  obtain ⟨_, e⟩ := h.cmpEvaluated_frame; exact (congrArg Hub.free e :)

/-! ### passTime -/

theorem Hub.passTime_frame (h : Hub) (n : Nat) :
    ∃ b, h.passTime n = { h with tb := b } := by
  unfold Hub.passTime
  obtain ⟨b, e⟩ := h.cmpEvaluated_frame
  dsimp only
  rw [e]
  split <;> exact ⟨_, rfl⟩
@[simp] theorem Hub.passTime_cfg (h : Hub) (n : Nat) : (h.passTime n).cfg = h.cfg := by
  obtain ⟨_, e⟩ := h.passTime_frame n; exact (congrArg Hub.cfg e :)
@[simp] theorem Hub.passTime_sys (h : Hub) (n : Nat) : (h.passTime n).sys = h.sys := by
  obtain ⟨_, e⟩ := h.passTime_frame n; exact (congrArg Hub.sys e :)
@[simp] theorem Hub.passTime_host (h : Hub) (n : Nat) : (h.passTime n).host = h.host := by
  obtain ⟨_, e⟩ := h.passTime_frame n; exact (congrArg Hub.host e :)
@[simp] theorem Hub.passTime_evt (h : Hub) (n : Nat) : (h.passTime n).evt = h.evt := by
  obtain ⟨_, e⟩ := h.passTime_frame n; exact (congrArg Hub.evt e :)
@[simp] theorem Hub.passTime_clk (h : Hub) (n : Nat) : (h.passTime n).clk = h.clk := by
  obtain ⟨_, e⟩ := h.passTime_frame n; exact (congrArg Hub.clk e :)
@[simp] theorem Hub.passTime_jrn (h : Hub) (n : Nat) : (h.passTime n).jrn = h.jrn := by
  obtain ⟨_, e⟩ := h.passTime_frame n; exact (congrArg Hub.jrn e :)
@[simp] theorem Hub.passTime_sto (h : Hub) (n : Nat) : (h.passTime n).sto = h.sto := by
  obtain ⟨_, e⟩ := h.passTime_frame n; exact (congrArg Hub.sto e :)
@[simp] theorem Hub.passTime_act (h : Hub) (n : Nat) : (h.passTime n).act = h.act := by
  obtain ⟨_, e⟩ := h.passTime_frame n; exact (congrArg Hub.act e :)
@[simp] theorem Hub.passTime_fe (h : Hub) (n : Nat) : (h.passTime n).fe = h.fe := by
  obtain ⟨_, e⟩ := h.passTime_frame n; exact (congrArg Hub.fe e :)
@[simp] theorem Hub.passTime_flt (h : Hub) (n : Nat) : (h.passTime n).flt = h.flt := by
  obtain ⟨_, e⟩ := h.passTime_frame n; exact (congrArg Hub.flt e :)
@[simp] theorem Hub.passTime_cal (h : Hub) (n : Nat) : (h.passTime n).cal = h.cal := by
  obtain ⟨_, e⟩ := h.passTime_frame n; exact (congrArg Hub.cal e :)
@[simp] theorem Hub.passTime_trg (h : Hub) (n : Nat) : (h.passTime n).trg = h.trg := by
  obtain ⟨_, e⟩ := h.passTime_frame n; exact (congrArg Hub.trg e :)
@[simp] theorem Hub.passTime_cod (h : Hub) (n : Nat) : (h.passTime n).cod = h.cod := by
  obtain ⟨_, e⟩ := h.passTime_frame n; exact (congrArg Hub.cod e :)
@[simp] theorem Hub.passTime_tiu (h : Hub) (n : Nat) : (h.passTime n).tiu = h.tiu := by
  obtain ⟨_, e⟩ := h.passTime_frame n; exact (congrArg Hub.tiu e :)
@[simp] theorem Hub.passTime_net (h : Hub) (n : Nat) : (h.passTime n).net = h.net := by
  obtain ⟨_, e⟩ := h.passTime_frame n; exact (congrArg Hub.net e :)
@[simp] theorem Hub.passTime_sl (h : Hub) (n : Nat) : (h.passTime n).sl = h.sl := by
  obtain ⟨_, e⟩ := h.passTime_frame n; exact (congrArg Hub.sl e :)
@[simp] theorem Hub.passTime_casc (h : Hub) (n : Nat) : (h.passTime n).casc = h.casc := by
  obtain ⟨_, e⟩ := h.passTime_frame n; exact (congrArg Hub.casc e :)
@[simp] theorem Hub.passTime_tx (h : Hub) (n : Nat) : (h.passTime n).tx = h.tx := by
  obtain ⟨_, e⟩ := h.passTime_frame n; exact (congrArg Hub.tx e :)
@[simp] theorem Hub.passTime_free (h : Hub) (n : Nat) : (h.passTime n).free = h.free := by
  obtain ⟨_, e⟩ := h.passTime_frame n; exact (congrArg Hub.free e :)

/-! ### skipOn -/

theorem Hub.skipOn_frame (h : Hub) (c : Nat) :
    ∃ j e o x, h.skipOn c = { h with jrn := j, evt := e, host := o, tx := x } := by
  unfold Hub.skipOn
  dsimp only
  split
  · exact ⟨_, Hub.raise_frame { h with jrn := _ } _ _⟩
  · exact ⟨_, _, _, _, rfl⟩
@[simp] theorem Hub.skipOn_cfg (h : Hub) (c : Nat) : (h.skipOn c).cfg = h.cfg := by
  obtain ⟨_, _, _, _, e⟩ := h.skipOn_frame c; exact (congrArg Hub.cfg e :)
@[simp] theorem Hub.skipOn_sys (h : Hub) (c : Nat) : (h.skipOn c).sys = h.sys := by
  obtain ⟨_, _, _, _, e⟩ := h.skipOn_frame c; exact (congrArg Hub.sys e :)
@[simp] theorem Hub.skipOn_clk (h : Hub) (c : Nat) : (h.skipOn c).clk = h.clk := by
  obtain ⟨_, _, _, _, e⟩ := h.skipOn_frame c; exact (congrArg Hub.clk e :)
@[simp] theorem Hub.skipOn_tb (h : Hub) (c : Nat) : (h.skipOn c).tb = h.tb := by
  obtain ⟨_, _, _, _, e⟩ := h.skipOn_frame c; exact (congrArg Hub.tb e :)
@[simp] theorem Hub.skipOn_sto (h : Hub) (c : Nat) : (h.skipOn c).sto = h.sto := by
  obtain ⟨_, _, _, _, e⟩ := h.skipOn_frame c; exact (congrArg Hub.sto e :)
@[simp] theorem Hub.skipOn_act (h : Hub) (c : Nat) : (h.skipOn c).act = h.act := by
  obtain ⟨_, _, _, _, e⟩ := h.skipOn_frame c; exact (congrArg Hub.act e :)
@[simp] theorem Hub.skipOn_fe (h : Hub) (c : Nat) : (h.skipOn c).fe = h.fe := by
  obtain ⟨_, _, _, _, e⟩ := h.skipOn_frame c; exact (congrArg Hub.fe e :)
@[simp] theorem Hub.skipOn_flt (h : Hub) (c : Nat) : (h.skipOn c).flt = h.flt := by
  obtain ⟨_, _, _, _, e⟩ := h.skipOn_frame c; exact (congrArg Hub.flt e :)
@[simp] theorem Hub.skipOn_cal (h : Hub) (c : Nat) : (h.skipOn c).cal = h.cal := by
  obtain ⟨_, _, _, _, e⟩ := h.skipOn_frame c; exact (congrArg Hub.cal e :)
@[simp] theorem Hub.skipOn_trg (h : Hub) (c : Nat) : (h.skipOn c).trg = h.trg := by
  obtain ⟨_, _, _, _, e⟩ := h.skipOn_frame c; exact (congrArg Hub.trg e :)
@[simp] theorem Hub.skipOn_cod (h : Hub) (c : Nat) : (h.skipOn c).cod = h.cod := by
  obtain ⟨_, _, _, _, e⟩ := h.skipOn_frame c; exact (congrArg Hub.cod e :)
@[simp] theorem Hub.skipOn_tiu (h : Hub) (c : Nat) : (h.skipOn c).tiu = h.tiu := by
  obtain ⟨_, _, _, _, e⟩ := h.skipOn_frame c; exact (congrArg Hub.tiu e :)
@[simp] theorem Hub.skipOn_net (h : Hub) (c : Nat) : (h.skipOn c).net = h.net := by
  obtain ⟨_, _, _, _, e⟩ := h.skipOn_frame c; exact (congrArg Hub.net e :)
@[simp] theorem Hub.skipOn_sl (h : Hub) (c : Nat) : (h.skipOn c).sl = h.sl := by
  obtain ⟨_, _, _, _, e⟩ := h.skipOn_frame c; exact (congrArg Hub.sl e :)
@[simp] theorem Hub.skipOn_casc (h : Hub) (c : Nat) : (h.skipOn c).casc = h.casc := by
  obtain ⟨_, _, _, _, e⟩ := h.skipOn_frame c; exact (congrArg Hub.casc e :)
@[simp] theorem Hub.skipOn_free (h : Hub) (c : Nat) : (h.skipOn c).free = h.free := by
  obtain ⟨_, _, _, _, e⟩ := h.skipOn_frame c; exact (congrArg Hub.free e :)

/-! ### restartConsumer -/

theorem Hub.restartConsumer_frame (h : Hub) (c : Nat) :
    ∃ j e o x, h.restartConsumer c = { h with jrn := j, evt := e, host := o, tx := x } := by
  unfold Hub.restartConsumer
  obtain ⟨j, e, o, x, he⟩ := Hub.skipOn_frame { h with jrn := _ } c
  exact ⟨j, e, o, x, he⟩
@[simp] theorem Hub.restartConsumer_cfg (h : Hub) (c : Nat) : (h.restartConsumer c).cfg = h.cfg := by
  obtain ⟨_, _, _, _, e⟩ := h.restartConsumer_frame c; exact (congrArg Hub.cfg e :)
@[simp] theorem Hub.restartConsumer_sys (h : Hub) (c : Nat) : (h.restartConsumer c).sys = h.sys := by
  obtain ⟨_, _, _, _, e⟩ := h.restartConsumer_frame c; exact (congrArg Hub.sys e :)
@[simp] theorem Hub.restartConsumer_clk (h : Hub) (c : Nat) : (h.restartConsumer c).clk = h.clk := by
  obtain ⟨_, _, _, _, e⟩ := h.restartConsumer_frame c; exact (congrArg Hub.clk e :)
@[simp] theorem Hub.restartConsumer_tb (h : Hub) (c : Nat) : (h.restartConsumer c).tb = h.tb := by
  obtain ⟨_, _, _, _, e⟩ := h.restartConsumer_frame c; exact (congrArg Hub.tb e :)
@[simp] theorem Hub.restartConsumer_sto (h : Hub) (c : Nat) : (h.restartConsumer c).sto = h.sto := by
  obtain ⟨_, _, _, _, e⟩ := h.restartConsumer_frame c; exact (congrArg Hub.sto e :)
@[simp] theorem Hub.restartConsumer_act (h : Hub) (c : Nat) : (h.restartConsumer c).act = h.act := by
  obtain ⟨_, _, _, _, e⟩ := h.restartConsumer_frame c; exact (congrArg Hub.act e :)
@[simp] theorem Hub.restartConsumer_fe (h : Hub) (c : Nat) : (h.restartConsumer c).fe = h.fe := by
  obtain ⟨_, _, _, _, e⟩ := h.restartConsumer_frame c; exact (congrArg Hub.fe e :)
@[simp] theorem Hub.restartConsumer_flt (h : Hub) (c : Nat) : (h.restartConsumer c).flt = h.flt := by
  obtain ⟨_, _, _, _, e⟩ := h.restartConsumer_frame c; exact (congrArg Hub.flt e :)
@[simp] theorem Hub.restartConsumer_cal (h : Hub) (c : Nat) : (h.restartConsumer c).cal = h.cal := by
  obtain ⟨_, _, _, _, e⟩ := h.restartConsumer_frame c; exact (congrArg Hub.cal e :)
@[simp] theorem Hub.restartConsumer_trg (h : Hub) (c : Nat) : (h.restartConsumer c).trg = h.trg := by
  obtain ⟨_, _, _, _, e⟩ := h.restartConsumer_frame c; exact (congrArg Hub.trg e :)
@[simp] theorem Hub.restartConsumer_cod (h : Hub) (c : Nat) : (h.restartConsumer c).cod = h.cod := by
  obtain ⟨_, _, _, _, e⟩ := h.restartConsumer_frame c; exact (congrArg Hub.cod e :)
@[simp] theorem Hub.restartConsumer_tiu (h : Hub) (c : Nat) : (h.restartConsumer c).tiu = h.tiu := by
  obtain ⟨_, _, _, _, e⟩ := h.restartConsumer_frame c; exact (congrArg Hub.tiu e :)
@[simp] theorem Hub.restartConsumer_net (h : Hub) (c : Nat) : (h.restartConsumer c).net = h.net := by
  obtain ⟨_, _, _, _, e⟩ := h.restartConsumer_frame c; exact (congrArg Hub.net e :)
@[simp] theorem Hub.restartConsumer_sl (h : Hub) (c : Nat) : (h.restartConsumer c).sl = h.sl := by
  obtain ⟨_, _, _, _, e⟩ := h.restartConsumer_frame c; exact (congrArg Hub.sl e :)
@[simp] theorem Hub.restartConsumer_casc (h : Hub) (c : Nat) : (h.restartConsumer c).casc = h.casc := by
  obtain ⟨_, _, _, _, e⟩ := h.restartConsumer_frame c; exact (congrArg Hub.casc e :)
@[simp] theorem Hub.restartConsumer_free (h : Hub) (c : Nat) : (h.restartConsumer c).free = h.free := by
  obtain ⟨_, _, _, _, e⟩ := h.restartConsumer_frame c; exact (congrArg Hub.free e :)

end Sys2Proof.Machine
end

