-- ==== Sys2Proof/Tests/Slice0.lean ====
section
/-!
SUPPORT. The model's own tests: terms that WellFormed refuses, for every statement states and operands that meet its hypotheses
(one witness for each clause), and a few steps and worked examples of the spec.
-/
namespace Sys2Proof.Slice0
open Machine

/-! ## States for the witnesses -/

/-- A hub that runs: powered, its firmware ready, its mailboxes idle, its clocks locked. -/
def hub : Hub :=
  { sys := { power := .run, fwReady := true, acq := .running }
    host := { mbs := (List.range 8).map fun m => (m, { state := .idle }) }
    clk := { rootLock := true, rootEver := true, memLock := true, muxCpu := 0, muxHost := 0, mon := [(0, { ok := true })] }
    tb := { started := true } }
/-- The state of a hub, with nothing waiting. -/
def at' (h : Hub) : State := { hub := h, pending := [] }
def on : State := at' hub

def onSys (f : SysSt → SysSt) : State := at' { hub with sys := f hub.sys }
def onHost (f : HostSt → HostSt) : State := at' { hub with host := f hub.host }
def onClk (f : ClkSt → ClkSt) : State := at' { hub with clk := f hub.clk }
def onTb (f : TbSt → TbSt) : State := at' { hub with tb := f hub.tb }
def onStoWith (f : StoSt → StoSt) : State := at' { hub with sto := f hub.sto }
def onJrn (f : JrnSt → JrnSt) : State := at' { hub with jrn := f hub.jrn }

-- host interface
def onSlot : State := onHost fun x => { x with slots := [(5, { gen := 1, held := true, opcode := 0x0202, tag := 7, mb := 2 })] }
def onPosted : State := onHost fun x =>
  { x with mbs := x.mbs.put 0 { state := .posted, cmd := [(0, 0xFFFF), (1, 7)] }, posted := [0] }
def onPostedNop : State := onHost fun x =>
  { x with mbs := x.mbs.put 0 { state := .posted, cmd := [(0, 0x01000101), (1, 7), (4, 9)] }, posted := [0] }
def onLostItems : State := onJrn fun x => { x with live := [(2, { lost := 5 })] }
def onSpi : State := onSys fun x => { x with straps := { hostSel := true } }
def onOffered : State := onJrn fun x => { x with consumers := [(0, { offered := [(0, 9)] })] }
def onSlotFmc : State := at' { onSlot.hub with clk := { onSlot.hub.clk with fmc := { busy := true, handle := 0x1005 } } }
def slotAt (s : State) : State := at' { s.hub with host := { s.hub.host with slots := onSlot.hub.host.slots } }

-- resets, power and flash
def bootIn : BootIn :=
  { straps := { hubId := 3 }, xoOk := true, dram := 768, okA := true, okB := false, badPages := [], badRecs := [], saveFails := 0,
    lineHits := List.replicate 11 (List.replicate 512 2048), badEngines := [] }
def resumeIn : ResumeIn := { aon := 0, src := none, xoOk := true, badPages := [], arbSel := false, fw := { fast := true, this := true, other := false } }
def onBoot : State := at' { hub with sys := { hub.sys with bootStep8 := true, fwReady := false, acq := .boot }, clk := { hub.clk with stopped := true } }
def onBoot2 : State := at' { hub with sys := { hub.sys with bootStep8 := true, fwReady := false, acq := .boot }, jrn := { total := 4096 } }
def onCtl : State := onSys fun x => { x with pendingReset := some (.control 4) }
def onSwitch : State := onSys fun x => { x with pendingReset := some (.slotSwitch true (some 600)) }
def onTrial : State := at' { hub with sys := { hub.sys with fwReady := false }, sto := { trial := true, trialArmed := true, trialAt := some 0 }
                                      tb := { hub.tb with xo := 7372800 * 2 ^ 40 } }
def onTrialYoung : State := onStoWith fun x => { x with trialArmed := true, trialAt := some 0, trialS := 600 }
def onHours : State := onTb fun x => { x with xo := 7200 * 49152000 * 2 ^ 40 }
def onPowerOff : State := at' { ({} : Hub) with sto := { slotA := { valid := true } } }
def onRetain : State := onSys fun x => { x with power := .retain }
def onReload : State := onSys fun x => { x with fwReady := false }
def onReloadB : State := at' { hub with sys := { hub.sys with fwReady := false }, sto := { hub.sto with slotB := { valid := true }, trial := true, trialArmed := true } }
def onRecoveryDown : State := at' { hub with sys := { hub.sys with fwReady := false, recovery := true }, host := { mbs := [(7, { state := .offline })] } }
def onWarm : State := onSys fun x => { x with acq := .warmReset }
def blk : BlockReset := { block := 3, mb := 2, tag := 7, since := 0 }
def onBlock : State := onSys fun x => { x with blockReset := some blk }
def onSave : State := onStoWith fun x => { x with jobs := [.save {} none] }
def onImage : State := onStoWith fun x => { x with jobs := [.image true {} 0x1005] }
def onCtlJob : State := onStoWith fun x => { x with jobs := [.bootCtl 1 true 0 0x1005] }
def onOtp : State := onStoWith fun x => { x with otpJobs := [.field 3 [1, 2, 3, 4, 0, 0, 0, 0] 0x1005] }
def onOtp2 : State := onStoWith fun x => { x with otpJobs := [.failSafe 5 (some 2) 7] }
def onTest : State := onStoWith fun x => { x with selftests := [(0x1005, 1)] }
def onSto : State := onStoWith fun x => { x with slotB := { valid := true } }

-- clocks
def onNoLock : State := onClk fun x => { x with rootLock := false }
def onMonFailed : State := onClk fun x => { x with mon := [(0, { ok := true }), (1, { failed := true })] }
def onGate : State :=
  at' { hub with clk := { hub.clk with gateCmd := some { waiting := [5], failed := [], mb := 2, tag := 7, since := 0, sinceCyc := 0 } }
                 tb := { hub.tb with xo := 400 * 2 ^ 40 } }
def onRcCpu : State := onClk fun x => { x with rootLock := false, muxCpu := 1 }
def onFmc : State := onClk fun x => { x with fmc := { busy := true } }
def onHeld : State := onClk fun x => { x with held := true }
def onLost : State := at' { (onClk fun x => { x with held := true, rootLock := false }).hub with tb := { hub.tb with xo := 9831 * 2 ^ 40 } }
def onStopped : State := at' { (onClk fun x => { x with held := true, stopped := true, muxCpu := 1 }).hub with tb := { hub.tb with xo := 491520 * 2 ^ 40 } }
def onStopped0 : State := onClk fun x => { x with held := true, stopped := true, muxCpu := 1, rootLock := false }
def onNoXo : State := onClk fun x => { x with rootLock := false, rootEver := false, mon := [] }

-- timebases
def pb : PendBreak := { e := 0, s := 100, epoch := none, kind := 1, since := 0 }
def ps : PendSet := { seconds := 5, strobe := 10, unc := 100, handle := 0x1005, since := 0 }
def pr : PendRef := { seconds := 1000, handle := 0x1005, since := 0 }
def onRun : State := on
def onBreak : State := onTb fun x => { x with pendBreak := [pb] }
def onSet : State := onTb fun x => { x with pendSet := some ps }
def onCand : State := onTb fun x => { x with cand := [(.net, 0)], qNet := true, xo := 600 * 49152000 * 2 ^ 40 }
def onMap : State := onTb fun x => { x with lastMap := some (0, none), xo := 100 * 49152000 * 2 ^ 40 }
def onMap2 : State := onTb fun x => { x with lastMap := some (0, some 5) }
def onMap3 : State := onTb fun x => { x with lastMap := some (0, none) }
def onCmp : State := onTb fun x => { x with cmp := [(2, { ctrl := 0x00000005 })] }
def onPps : State := at' { hub with cfg := { tb := { ppsOut := { enable := true, tb := 1 } } }, tb := { hub.tb with sec := 1, ppsLast := some 0 } }
def onPulse : State := onTb fun x => { x with ppsPin := some 0 }
def onRef : State := at' { hub with tb := { hub.tb with pendRef := [pr] }, tiu := { hub.tiu with calAll := false } }

-- network
def onNetWith (f : Port → Port) (g : PortCfg → PortCfg) (k : NetSt → NetSt) : State :=
  let n : NetSt := { ports := [(0, f { st := .active, link := true }), (1, { st := .standby })], active := some 0 }
  at' { hub with cfg := { net := { ports := [(0, g { enable := true, ptp := { enable := true } }), (1, { enable := true })] } }, net := k n }
def hd : PtpHead := { domain := 0, sender := 7, portNo := 1, logInt := 0, auth := none }
def an : Announce := { prio1 := 1, clockClass := 6, accuracy := 0x20, variance := 5, prio2 := 2, gmId := 7, steps := 0, id := 7, port := 1 }
def onPtpWith (f : Ptp → Ptp) (g : PtpCfg → PtpCfg) : State :=
  onNetWith (fun x => { x with ptp := f { servo := .acquiring, master := some (7, 1), req := some { seq := 3, t3 := 4 }, lastSync := some (1, 5, 0) } })
    (fun x => { x with ptp := g x.ptp }) id
def onPtp : State := onPtpWith id id
def heard9 : Heard := { ann := { an with id := 9, port := 1 }, at_ := 0, prev := none, logInt := 0 }
def onHeard : State := onPtpWith (fun x => { x with masters := [heard9] }) id
def onPtpSus : State := onPtpWith (fun x => { x with servo := .suspect, sync := some (1, 5, 0) }) id
def onP2p : State := onPtpWith (fun x => { x with pResp := some (3, 8, 6, 0) }) fun x => { x with p2p := true }
def onQual : State := at' { (onPtpWith (fun x => { x with servo := .qualHold }) id).hub with tb := { hub.tb with xo := 700 * 49152000 * 2 ^ 40 } }
def onConfirm : State :=
  at' { (onPtpWith (fun x => { x with servo := .qualHold, qPre := (some 5, none), secO := [3], secQ := [(false, 5)] }) fun x => { x with rrConfirm := 60, rrAgree := 100 }).hub with
    tb := { hub.tb with xo := 700 * 49152000 * 2 ^ 40, qPps := true } }
def onLocked : State := onPtpWith (fun x => { x with servo := .locked }) id
def onNet : State := onPtpWith (fun x => { x with quar := [0] }) id
def onFailover : State := onNetWith id id fun x => { x with failover := some fo', active := none }
where fo' : Failover := { from_ := 0, dest := 1, source := 0, causes := 0, verdictT := 0, handle := none, snap := none, wasFaulted := false,
                          noLink := false, wasPending := false, active := false }
def sr : OutFrame := { buf := 2, len := 64, tsId := 1, ts := true }
def la : Launch := { buf := 1, len := 64, onSample := true, send := true, target := 0, epoch := 0, tol := 100, handle := 0x1005 }
def lb : Launch := { la with send := false, target := -0x100000000, tol := 5 }
def onQueue : State := onNetWith id id fun x => { x with queue := [sr], busy := [2] }
def onLaunch : State := onNetWith (fun x => { x with launch := [la] }) id id
def onLate : State := onNetWith (fun x => { x with launch := [lb] }) id id
def onP2pLaunch : State := at' { onP2p.hub with net := { onP2p.hub.net with ports := onP2p.hub.net.ports.upd 0 fun x => { x with launch := [la], guarded := true } } }
def fkey : List Word := [1, 2, 3, 4]
def fslot : KeySlot := { id := 1, key := fkey, active := true }
def ackHdr : List Byte := [0x53, 0x46, 1, 1, 0, 1, 0, 0, 9, 0, 0, 0, 1, 0, 0, 0, 0, 0, 0, 0]
def verHdr : List Byte := [0x53, 0x46, 1, 2, 255, 1, 0, 0, 9, 0, 0, 0, 1, 0, 0, 0, 0, 0, 0, 0]
def verPl : List Byte := [0, 1, 0, 0, 5, 0, 0, 0, 0, 0, 0, 0, 0, 0, 0, 0]
def onKey : State := at' { onPtp.hub with sto := { ferryKeys := [(0, fslot)] } }
def onSusp : State := at' { (onNetWith id id fun x => { x with suspect := true }).hub with
  tb := { hub.tb with xo := 10 * 49152000 * 2 ^ 40 }, sto := { ferryKeys := [(0, fslot)] }, cfg := { onPtp.hub.cfg with net := { onPtp.hub.cfg.net with arbMode := 2 } } }
def verPl0 : List Byte := [0, 0, 0, 0, 5, 0, 0, 0, 0, 0, 0, 0, 0, 0, 0, 0]
def onKey2 : State := at' { onKey.hub with cfg := { onKey.hub.cfg with net := { onKey.hub.cfg.net with arbMode := 2 } } }
def onFlight : State := at' { (onJrn fun x => { x with ferry := { flight := [(1, 0, 5)] } }).hub with tb := { hub.tb with xo := 10 * 49152000 * 2 ^ 40 } }
def onArbHeld : State := at' { onPtp.hub with clk := { hub.clk with held := true }, cfg := { onPtp.hub.cfg with net := { onPtp.hub.cfg.net with arbMode := 1 } } }
def onStandby : State := onPtp
def onStandbyUp : State := onNetWith id id fun x => { x with ports := x.ports.put 1 { st := .standby, link := true } }
def onV6 : State := at' { onPtp.hub with cfg := { onPtp.hub.cfg with net := { onPtp.hub.cfg.net with ipv6En := true } } }
def onCause : State := at' { (onNetWith (fun x => { x with link := false }) id fun x => { x with causes := 1 }).hub with tb := { hub.tb with xo := 10 * 49152000 * 2 ^ 40 } }
def fo : Failover := { from_ := 0, dest := 1, source := 0, causes := 0, verdictT := 0, handle := none, snap := none, wasFaulted := false,
                       noLink := false, wasPending := false, active := false }
def onFail : State := onNetWith (fun x => { x with st := .testing }) id fun x =>
  { x with failover := some fo, active := none, ports := x.ports.put 1 { st := .standby, link := true } }
def onFail2 : State := onNetWith (fun x => { x with st := .testing }) id fun x =>
  { x with failover := some { fo with active := true }, active := some 1, ports := x.ports.put 1 { st := .active, link := true } }
def onPrbs : State := onNetWith id id fun x => { x with ports := x.ports.put 1 { st := .testing, link := true, prbs := true } }
def onEcho : State := onNetWith (fun x => { x with echoAt := some 0 }) id id
def onEchoLate : State := at' { onEcho.hub with tb := { hub.tb with xo := 49152000 * 2 ^ 40 } }
def onResolve : State := onNetWith (fun x => { x with resolve := some 0 }) id id

-- time-interval unit
def onTiuWith (f : TiuSt → TiuSt) : State :=
  at' { hub with cfg := { tiu := { inputs := (List.range 3).map fun i => (i, { mode := 1 }), units := [(1, { enable := true, winMax := 10 })] } }, tiu := f { calAll := false } }
def onTiu : State := onTiuWith id
def onFull : State := onTiuWith fun x => { x with fifo := 500 }
def stp : Stamp := { t40 := 0, epoch := 0, free := 0, spare := false }
def onUnit : State := at' { (onTiuWith fun x => { x with held := [(1, some stp)] }).hub with tb := { hub.tb with cycles := 1000 } }
def rt0 : RoundTrip := { probe := 0, echo := 0, cycles := 4, drained := 512 }
def goodTaps : List Nat := List.replicate 512 2048
def gt : Gate :=
  { cyc := 0, input := 1, handle := 0x1005, land := false, ms := 10, start := 0, t := 0, epoch := 0, points := [], lastTick := none, edges := 0,
    broken := false, slewSum := 0, slewFrom := 0, slewAt := 0 }
def onGateTiu : State := at' { (onTiuWith fun x => { x with gates := [gt] }).hub with tb := { hub.tb with cycles := 10 ^ 9 } }
def onHandYoung : State := onTiuWith fun x => { x with handover := some (3, false) }
def onHand : State := at' { onHandYoung.hub with tb := { hub.tb with xo := 49152 * 2 ^ 40 } }
def onCalLine : State := onTiuWith fun x => { x with calLine := some 3 }
def onCalLost : State := onTiuWith fun x => { x with calLine := some 3, noSpare := true }
def onCalAll : State := onTiuWith fun x => { x with calAll := true }
def onTach : State := onTiuWith fun x => { x with tach := [(2, 5, false)] }

-- front end, calibration, chains
def prof : Profile := { full := false, other := false, mode := 0, n := 3, d := 1, l := 0, m := 256, xf := 1, fOut := 0 }
def chanOf (p : Nat) : ChanCfg :=
  { profile := p, linEn := false, linTable := 0, gain := 268435456, offset := 0, redN := 0, excSettle := 0, tiSel := 0, spr := 0, ppr := 0, tachMax := 0 }
def fltCfg : FltCfg := { profiles := [(2, some prof), (4, some { prof with other := true, mode := 1, n := 3, m := 1 })], chans := [(0, some (chanOf 2)), (3, some (chanOf 2))] }
def onFlt : State := at' { hub with cfg := { flt := fltCfg, fe := { fast := [(0, { enable := true }), (3, { enable := true })] } } }
def onFltWith (f : FltSt → FltSt) : State := at' { onFlt.hub with flt := f {} }
def onLin : State := at' { hub with fe := { stage := [(64, some (0, 0)), (65, some (0x10000000, 0x10000000))] } }
def fullProf : Profile := { prof with full := true, l := 3 }
def bankHead : List Word := [0x5A444346, 0x00030001, 0x00030001, 0, 0, 0, 0, 0]
def bankImage : Bank := { image := Tab.puts [] 0 (bankHead ++ [crc32c (bytesOf bankHead)]), committed := false }
def onBank : State := at' { hub with cfg := { flt := { profiles := [(3, some fullProf)], banks := [(12, bankImage)] } } }
def onSwap : State := at' { hub with cfg := { flt := { profiles := [(3, some fullProf)], banks := [(13, { committed := true })] } } }
def onFault : State := at' { hub with fe := { fault := [(3, { inFault := true })] } }
def half : List Int := [5, 7]
def sce : ScanEntry := { en := true, pos := 2 }
def onScan : State :=
  at' { hub with cfg := { fe := { scan := [(0, { div := 8, list := [sce] })] }, flt := { fltCfg with profiles := [(2, some { prof with other := true, mode := 1, m := 1 })], chans := [(66, some (chanOf 2))] } }
                 flt := { ch := [(66, { running := true })] } }
def inp0 : Inp := { epoch := 0, i := 0, n := 1, v := some 5, q := 0 }
def onScanIn : State := at' { onScan.hub with flt := { ch := [(66, { running := true, inq := [inp0] })] } }
def onExcWith (e : ExcSt) : State := at' { hub with fe := { exc := [(0, e)] } }
def onExc : State := onExcWith { drive := { mode := 1 } }
def onExc2 : State := onExcWith { drive := { mode := 2 } }
def onOver : State := onExcWith { drive := { mode := 1 }, overload := true }
def excReq : ExcCfg × Nat × Nat := ({ mode := 1, value := 5 }, 0x1005, 0)
def onSwitchExc : State := at' { (onExcWith { pending := [excReq] }).hub with tb := { hub.tb with strobes := 1 } }
def calCfg : CalCfg := { ref := some (250000000, 1000000) }
def onCal : State := at' { hub with cfg := { cal := calCfg }, cal := { result := [(calKey 3 0, some {})] } }
def onMaxInt : State := at' { hub with cfg := { cal := calCfg }, tb := { hub.tb with xo := 86400 * 49152000 * 2 ^ 40 } }
def onPend : State := at' { hub with cfg := { cal := calCfg }, cal := { pending := [(0, 1)] } }
def msZ : List Int := List.replicate 1280 0
def msP : List Int := List.replicate 1280 1
def msM : List Int := List.replicate 1280 (-1)
def msZ1 : List Int := List.replicate 1024 0
def msP1 : List Int := List.replicate 1024 1
def msM1 : List Int := List.replicate 1024 (-1)
def crun : CalRun :=
  { group := 0, interrupt := false, cfg := { avg := 0 }, refin := 250000000, phase := .spare, todo := [], deferred := [], temp := 0, startLocal := 0, spareMeas := none,
    suspect := none, shadow := none, fade := 0, result := none, slotT := 0, slotEpoch := 0, slotTemp := 0, since := 0, faults := 0 }
def onRunCal : State := at' { hub with cal := { run := some crun }, tb := { hub.tb with cycles := 10 ^ 9 } }
def rmp : Ramp := { target := { off := 5000 }, res := {} }
def onRamp : State := at' { hub with cal := { ramp := [(3, some rmp)] }, tb := { hub.tb with cycles := 10 ^ 9 } }
def onPep : State := onFltWith fun x => { x with ch := [(0, { running := true })] }
def geo0 : Geo := { p := prof, fin := fr 1 1, sig := fr 1 1, ph := 0, fast := true }
def onPepC : ChanCfg := ((onPep.hub.geoOf 0).map (·.1)).getD (chanOf 0)
def onPepG : Geo := ((onPep.hub.geoOf 0).map (·.2)).getD geo0
def onScanC : ChanCfg := ((onScan.hub.geoOf 66).map (·.1)).getD (chanOf 0)
def onScanG : Geo := ((onScan.hub.geoOf 66).map (·.2)).getD geo0
def onChain : State := onFltWith fun x => { x with ch := [(0, { running := true, fir := [{ i := 3, v := 5, q := 0 }, { i := 2, v := 5, q := 0 }, { i := 1, v := 5, q := 0 }, { i := 0, v := 5, q := 0 }], nextOut := 2 })] }
def onPepV : Stage4 := ((onChain.hub.chain 0).stage4 onPepG).getD { n := 0, t := fr 1 1, order := none, v := none }

-- landing, capture and actions
def onChg : State := at' { onFlt.hub with cfg := { onFlt.hub.cfg with jrn := { groups := [(5, { chans := [3] })] } } }
def sto0 : StOut := { ch := 3, k := 0, t := 0, epoch := 0, value := 5, q := 0 }
def onStaged : State := at' { (onFltWith fun x => { x with ch := [(3, { running := true, stage := [sto0] })] }).hub with tb := { hub.tb with cycles := 10 ^ 6 } }
def onStagedLand : State :=
  at' { onStaged.hub with tb := { hub.tb with cycles := 10 ^ 6 }, cfg := { onStaged.hub.cfg with jrn := { groups := [(5, { chans := [3] })] } }, jrn := { total := 4096, groups := [(5, { acquiring := true })] } }
/-- An output emitted one TIME cycle ago. -/
def stoYoung : StOut := { sto0 with born := 99999 }
def onStagedYoung : State :=
  at' { (onFltWith fun x => { x with ch := [(3, { running := true, stage := [stoYoung] })] }).hub with tb := { hub.tb with cycles := 100000 } }
def onClose : State := at' { onStagedLand.hub with jrn := { total := 4096, groups := [(5, { acquiring := true, staged := [sto0] })] }, flt := { ch := [(3, { running := true, nextOut := 1 })] } }
def bd0 : BlockDesc := { order := false, n := 1, rateNum := 8000, rateDen := 1, k0 := 0, parts := 1, chans := [(3, false)] }
def part0 : Part := { writer := 5, group := 5, block := bd0, epoch := 0, t := 0, body := [1, 2, 3, 4], last := true, firstT := 0, lastT := 0 }
def onPart : State := onJrn fun x => { x with total := 4096, parts := [part0] }
def onNoDram : State := onJrn fun x => { x with parts := [part0] }
def onLateWait : State :=
  at' { onFlt.hub with cfg := { onFlt.hub.cfg with slots := [(2, { enable := true, rate := 8000 })]
                                                   flt := { fltCfg with chans := [(3, some (chanOf 2)), (130, some (chanOf 6))]
                                                                        profiles := [(2, some prof), (6, some { prof with other := true, m := 1, d := 1 })] }
                                                   jrn := { groups := [(5, { chans := [3, 130] })] } }
                       tb := { hub.tb with xo := 1000 * 49152 * 2 ^ 40 }
                       flt := { ch := [(3, { running := true, nextOut := 1 }), (130, { running := true })] }
                       jrn := { total := 4096, groups := [(5, { acquiring := true, bounds := [((0, 0), 0)] })] } }
def rec0 : Rec :=
  { ticket := 0, type := 9, flags := 0, group := 0xFF, hub := 0, version := 2, epoch := 0, t := 0, body := [1, 2, 3, 4], block := none, isOpen := false, pages := [0] }
def obytes : List Byte := padMul 8 rec0.bytes
def onOffer : State := at' { hub with host := { hub.host with bme := true }, jrn := { total := 4096, recs := [rec0], nextTicket := 1, consumers := [(3, { ctrl := 0x80000000 })] }
                                      cfg := { jrn := { consumers := [(3, { enable := true, typeMask := 511, groupMask := 2 ^ 64 - 1 })] } } }
def onBuf : State := at' { (onJrn fun x => { x with consumers := [(0, { ctrl := 0x80010000, buf := some { addr := 0, len := 64, used := 8, since := 0 } })] }).hub with
  tb := { hub.tb with xo := 49152 * 2 ^ 40 } }
def onPage : State := onJrn fun x => { x with total := 4096, pages := [(2, { used := true })] }
def onRec : State := onJrn fun x => { x with total := 4096, recs := [{ rec0 with type := 1, group := 5 }], nextTicket := 1 }
def segA : Seg := { id := 0, anchor := 0, epoch := 0, status := 0, causes := [], endCause := 0, closeAt := some 0, truncated := [], copying := false }
def seg1 : Seg := { segA with copying := true }
def onTrgWith (f : TrgSt → TrgSt) : State := at' { hub with trg := f {}, jrn := { total := 4096 }, cfg := { trg := { groups := [(0, { autoEn := true })] } } }
def onSeg : State := onTrgWith fun x => { x with groups := [(0, { segs := [segA] })] }
def onCopy : State := onTrgWith fun x => { x with groups := [(0, { segs := [seg1] })] }
def onAuto : State := onTrgWith fun x => { x with groups := [(0, { armed := true })] }
def armReq : ArmReq := { armU := 2, disU := 0, armG := 0, disG := 0, since := 0 }
def onArmReq : State := onTrgWith fun x => { x with arm := [armReq] }
def onDemoted : State := at' { hub with cod := { streams := [(5, { demoted := true })] } }
def onDemotedLong : State := at' { onDemoted.hub with tb := { hub.tb with xo := 600 * 49152000 * 2 ^ 40 } }
def onWaits : State := onJrn fun x => { x with groups := [(5, { staged := [{ sto0 with epoch := 1 }] })] }
def onWaitsDemoted : State := at' { onWaits.hub with cod := onDemoted.hub.cod }
def ixu (n : Nat) : IndexUpset := { word := 0, sram := n, ferry := 0 }
def onTrgPulse : State := at' { hub with trg := { pulse := [(2, some 0)], lines := [(2, some 0)] }, tb := { hub.tb with cycles := 10 ^ 9 } }
def onCod : State := at' { hub with cfg := { cod := { streams := [(6, { level := 3 })] } }, cod := { streams := [(6, { window := true }), (70, { isOpen := true })] }, trg := { groups := [(6, { segs := [seg1] })] } }
def chk : CodCheck := { handle := 0x1005, slot := none, entry := 0, ticket := 0, startSeq := 0 }
def onCheck : State := at' { hub with cod := { checks := [chk] } }
def onSync : State := onFltWith fun x => { x with sync := [{ mask := 32, handle := 0x1005, since := 0 }] }
def onStart : State := onJrn fun x => { x with groups := [(5, { startReq := true })] }
def swp : SwapCur :=
  { source := 0, target := 1, handles := [0x1005], since := 0, started := true, instant := 0, epoch := 0, passed := [], last := 0 }
def swap0 : SwapCur := { swp with started := false }
def onSwap0 : State := onFltWith fun x => { x with swap := [(2, { cur := some swap0 })] }
def onFade : State := onFltWith fun x => { x with swap := [(0, { cur := some swp })] }
def onPar : State := onFltWith fun x => { x with ch := [(3, { parReq := some 0 })] }
def onDesc : State := onJrn fun x => { x with descReq := [(3, 0, {})] }
def onActWith (f : ActRuleCfg) (r : ActRule) : State :=
  at' { hub with cfg := { act := { rules := [(1, f), (2, f)] } }, act := { rules := [(1, r), (2, r)], deadmanT := 5 }
                 tb := { hub.tb with sec := 10, cycles := 10 ^ 9, xo := 10 * 49152000 * 2 ^ 40 } }
def onAct : State := onActWith { mode := 1 } { armed := true, asserted := true }
def onDead : State := onActWith { mode := 1, deadman := true } { armed := true }
def onFollow : State := onActWith { mode := 2 } { armed := true, asserted := true }

-- sensor lanes
def slotImage : Slot := { valid := true, levels := 0x2131 }
def onLaneWith (x : Lane) : State :=
  at' { hub with sys := { hub.sys with straps := { hubId := 2 } }
                 sto := { slotA := slotImage, laneKeys := [(0, { key := [1, 2, 3, 4], active := true })] }
                 cfg := { lanes := [(3, { enable := true })], slots := [(98, { enable := true, rate := 8000 })] }
                 sl := { lanes := [(3, x)], count := 5, map := [{ c := 5, idx := 3, cyc := 46080, epoch := 0, discont := false, noSample := false, till := none }] } }
def upLane : Lane := { st := .up, step := 10, level := 2, expect := some 7, limit := 256, turn := 200, use := { jump := 2000 } }
def onUpLane : State := onLaneWith upLane
def onUpHeld : State := at' { onUpLane.hub with clk := { hub.clk with held := true } }
def onUpLane3 : State := onLaneWith { upLane with level := 3 }
def onReplay : State := onLaneWith { upLane with expect := some 8 }
def onTraining (step attempts : Nat) : State := onLaneWith { st := .training, step := step, attempts := attempts }
def onDownLane : State := onLaneWith { st := .down }
def line9At (s : State) (r : Nat) : State := at' { s.hub with tiu := { calAll := false, line9 := [r] } }
def onStep8 : State := line9At (onLaneWith { st := .training, step := 8, level := 2, turn := 200, delays := List.replicate 15 1000000 }) 3
/-- The same state ten seconds later. -/
def later (s : State) : State := at' { s.hub with tb := { s.hub.tb with xo := s.hub.tb.xo + 491520000 * 2 ^ 40 } }
def slReq : SlotReq := { slot := 2, handle := 0x1005, rate := 8000, enable := true, since := 0 }
def onSlotReq : State := slotAt (onLaneWith { upLane with slotReqs := [slReq] })
/-- The round trip's delay, as the lane's delta already holds it. -/
def d9 (r : Nat) : Int := meanI (((hub.tripPs r rt0 - ((10 * 200 : Nat) : Int) + 0) * 500 :: []).take 16)
def onEcho9 : State := line9At (onLaneWith { upLane with delta := d9 3 }) 3
def onLaneReset : State := slotAt (onLaneWith { upLane with reset := [(0x1005, 0)] })
def onLane : State :=
  let s := onLaneWith upLane
  at' { s.hub with
    sl := { s.hub.sl with lanes := [(0, upLane), (1, { st := .quarantined }), (3, upLane)] }
    cfg := { s.hub.cfg with lanes := [(0, { enable := true }), (1, { enable := true }), (3, { enable := true })], casc := { ports := [(0, { enable := true })] } }
    casc := { ports := [(0, { st := .quarantined })] } }
def sampleB : List Byte := b4 5 ++ b1 3 ++ b1 1 ++ b2 0 ++ [2, 1, 0, 0] ++ b4 5 ++ [0, 0, 0, 0]
def sampleF : List Byte := frameBytes 1 0 7 2 0 sampleB
def sampleE : List SlotEnt := [{ slot := 2, vals := [5], quals := [0] }]
def ackB : List Byte := [2, 0, 0, 0] ++ b4 0 ++ b4 0x10000
def ackF : List Byte := frameBytes 2 2 0 2 0 ackB
def relB : List Byte := b4 7 ++ b4 9 ++ b4 5 ++ b4 5
def relF : List Byte := frameBytes 2 3 0 2 0 relB
def slipF : List Byte := frameBytes 2 4 0 2 0 (b8 1)
def healthF : List Byte := frameBytes 2 5 0 3 0 (b8 1 ++ b8 0)
def helloPre : List Byte := b8 77 ++ [1, 3, 4, 0] ++ b4 1000 ++ b4 2000 ++ b2 50 ++ b2 0 ++ List.replicate 16 9
def helloB : List Byte := helloPre ++ mac16 (bytesOf [1, 2, 3, 4]) (laneM 1 3 2 77 (List.replicate 16 0) (List.replicate 16 9) 1 3 1 3)
def helloF : List Byte := frameBytes 2 1 0 0 0 helloB

-- cascade
def onHopWith (master : Bool) (p : Nat) (x : CascPort) : State :=
  at' { hub with sys := { hub.sys with straps := { hubId := 2, cascMaster := master } }
                 sto := { slotA := slotImage, laneKeys := [(0, { key := [1, 2, 3, 4], active := true })] }
                 cfg := { casc := { ports := [(0, { enable := true }), (1, { enable := true })] } }
                 casc := { ports := [(p, x)] } }
def upHop : CascPort := { st := .up, step := 10, level := 2, rxSeq := 4, txLimit := 32768, rxLimit := 32768, use := { jump := 2000 }
                          roster := [(5, 1, 2)], sent := [{ seq := 3, type := 6, body := [1] }] }
def onHop : State := onHopWith false 0 { upHop with roster := [] }
def onEchoHop : State := line9At (onHopWith false 0 { upHop with roster := [], delta := d9 16 }) 16
def onMaster : State := onHopWith true 1 upHop
def onRelay : State := onHopWith false 1 upHop
def onHopStep (n : Nat) : State := onHopWith false 0 { st := .training, step := n }
def onHopSt (s : LinkState) : State := onHopWith false 0 { st := s }
def onHopLast : State := onHopWith false 0 { st := .training, step := 7, attempts := 2 }
def onHopReset : State := slotAt (onHopWith false 0 { upHop with reset := [(0x1005, 0)] })
def onMarked : State := onHopWith false 0 { st := .training, step := 6, lastCount := some 5, markers := 2 }
def cHelloB : List Byte := [1, 2, 1, 3, 4, 0, 0, 0] ++ b8 99 ++ List.replicate 16 9
def cHelloF : List Byte := frameBytes 1 0 0 0 0 cHelloB
def authHop : CascPort := { st := .training, step := 7, level := 2, rxSeq := 1, hello := [7], peerHello := cHelloB }
def onAuthHop : State := onHopWith false 0 authHop
def onAuthHopUp : State := onHopWith true 1 authHop
def cAuthB : List Byte := [2, 0, 0, 0] ++ onAuthHop.hub.cascMac 0 false
def cAuthF : List Byte := frameBytes 2 0 1 2 0 cAuthB
def cAuthB1 : List Byte := [2, 0, 0, 0] ++ onAuthHopUp.hub.cascMac 1 true
def cAuthF1 : List Byte := frameBytes 2 0 1 2 0 cAuthB1
def rosterB : List Byte := [2, 0, 0, 0, 5, 1, 2, 0, 6, 2, 2, 0]
def rosterF : List Byte := frameBytes 9 0 4 2 0 rosterB
def recordB : List Byte := [5, 1, 0, 0] ++ List.replicate 40 1
def recordF : List Byte := frameBytes 5 0 4 2 0 recordB
def epochB : List Byte := b2 3 ++ [5, 0]
def epochF : List Byte := frameBytes 10 0 4 2 0 epochB
def hopB : List Byte := b4 1 ++ b4 2 ++ b4 3 ++ b4 0
def hopF : List Byte := frameBytes 11 0 4 2 0 hopB
def trigB : List Byte := [1, 9, 3, 0, 0, 0, 0, 0] ++ b8 0 ++ b4 6
def trigF : List Byte := frameBytes 4 0 4 2 0 trigB
def ackCB : List Byte := [1, 0, 0, 0, 2] ++ List.replicate 7 0 ++ b8 5
def ackCF : List Byte := frameBytes 6 0 4 2 0 ackCB
def creditB : List Byte := b4 40000 ++ b4 3
def creditF : List Byte := frameBytes 7 0 4 2 0 creditB
def nakB : List Byte := b4 3 ++ [3, 0, 0, 0]
def nakF : List Byte := frameBytes 8 0 4 2 0 nakB
def markB : List Byte := [0, 2, 0, 0] ++ b4 100 ++ b8 0x100000000 ++ b2 0 ++ [1, 0]
def markF : List Byte := frameBytes 3 0 0 2 0 markB

-- what decide cannot evaluate: sealed and signed bytes
theorem helloB_at (i n : Nat) (h : i + n ≤ 40) : at_ helloB i n = at_ helloPre i n :=
  at_append _ _ _ _ (le_trans h (by decide))
theorem helloB_length : helloB.length = 56 := by
  rw [helloB, List.length_append, length_mac16]; decide
theorem helloF_ok : frameFault 2 1 0 0 true helloF = none :=
  frameFault_frameBytes 2 1 0 0 0 0 helloB (by decide) (by decide) (by decide) (by decide) (by decide)
    (by rw [helloB_length]) (by rw [helloB_length]; decide)
theorem helloB_mac : (helloB.drop 40).take 16 =
    mac16 (bytesOf [1, 2, 3, 4]) (laneM 1 3 2 77 (List.replicate 16 0) (List.replicate 16 9) 1 3 1 3) := by
  have h : helloPre.length = 40 := by decide
  rw [helloB, ← h, List.drop_left]
  exact List.take_of_length_le (by simp)
theorem helloB_nonce : (helloB.drop 24).take 16 = List.replicate 16 9 := by
  rw [helloB, drop_take_left _ _ _ _ (by decide)]; decide
theorem cAuthB_length : cAuthB.length = 20 := by
  rw [cAuthB, Hub.cascMac, List.length_append, length_mac16]; decide
theorem cAuthB1_length : cAuthB1.length = 20 := by
  rw [cAuthB1, Hub.cascMac, List.length_append, length_mac16]; decide
theorem cAuthF_ok : cascFault 2 2 true cAuthF = none :=
  cascFault_frameBytes 2 1 2 cAuthB (by decide) (by decide) (by rw [cAuthB_length]) (by rw [cAuthB_length]; decide)
theorem cAuthF1_ok : cascFault 2 2 true cAuthF1 = none :=
  cascFault_frameBytes 2 1 2 cAuthB1 (by decide) (by decide) (by rw [cAuthB1_length]) (by rw [cAuthB1_length]; decide)

/-- States and operands that meet the hypotheses of each clause of Obligations.SystemCommands. -/
theorem witness_SystemCommands :
    (∃ (s : State) (mb : Fin 8) (tag : Word) (pl : List Word), s.takes Machine.sysNop mb tag pl = true) ∧
    (∃ (s : State) (mb : Fin 8) (tag : Word) (pl : List Word), s.takes Machine.sysInfo mb tag pl = true) ∧
    (∃ (s : State) (mb : Fin 8) (tag : Word) (pl : List Word), s.takes Machine.sysHandleQuery mb tag pl = true) ∧
    (∃ (s : State) (mb : Fin 8) (tag : Word) (pl : List Word), s.takes Machine.sysAbort mb tag pl = true) ∧
    (∃ (s : State) (mb : Fin 8) (tag : Word) (pl : List Word), s.takes Machine.sysReset mb tag pl = true ∧ fld (pw pl 0) 1 0 ≠ 3) ∧
    (∃ (s : State) (mb : Fin 8) (tag : Word) (pl : List Word), s.takes Machine.sysReset mb tag pl = true ∧ fld (pw pl 0) 1 0 = 3) ∧
    (∃ (s : State) (mb : Fin 8) (tag : Word) (pl : List Word), s.takes Machine.sysStateSave mb tag pl = true) ∧
    (∃ (s : State) (mb : Fin 8) (tag : Word) (pl : List Word), s.takes Machine.logMark mb tag pl = true) ∧
    (∃ (s : State) (mb : Fin 8) (tag : Word) (pl : List Word), s.takes Machine.clkStatus mb tag pl = true) ∧
    (∃ (s : State) (mb : Fin 8) (tag : Word) (pl : List Word), s.takes Machine.clkFmc mb tag pl = true) ∧
    (∃ (s : State) (mb : Fin 8) (tag : Word) (pl : List Word), s.takes Machine.clkGateSet mb tag pl = true ∧
      bitsOf (mask64 (pw pl 0) (pw pl 1)) 37 = []) ∧
    (∃ (s : State) (mb : Fin 8) (tag : Word) (pl : List Word), s.takes Machine.clkMonSet mb tag pl = true) :=
  ⟨⟨on, 0, 7, [1, 2, 3], by decide⟩,
   ⟨on, 0, 7, [], by decide⟩,
   ⟨onSlot, 0, 7, [0x1005], by decide⟩,
   ⟨onSlotFmc, 0, 7, [0x1005], by decide⟩,
   ⟨on, 0, 7, [1], by decide⟩,
   ⟨on, 0, 7, [0x103], by decide⟩,
   ⟨on, 0, 7, [0x8000003C], by decide⟩,
   ⟨on, 0, 7, [1, 2, 3, 4, 5], by decide⟩,
   ⟨on, 0, 7, [], by decide⟩,
   ⟨on, 0, 7, [0x000A0002], by decide⟩,
   ⟨on, 0, 7, [0, 0, 0x00100000, 0], by decide⟩,
   ⟨on, 0, 7, [0x78210000, 0x03E801F4], by decide⟩⟩

/-- States and operands that meet the hypotheses of each clause of Obligations.FrontEndCommands. -/
theorem witness_FrontEndCommands :
    (∃ (s : State) (mb : Fin 8) (tag : Word) (pl : List Word), s.takes Machine.feFastSet mb tag pl = true) ∧
    (∃ (s : State) (mb : Fin 8) (tag : Word) (pl : List Word), s.takes Machine.feScanSet mb tag pl = true) ∧
    (∃ (s : State) (mb : Fin 8) (tag : Word) (pl : List Word), s.takes Machine.feExcSet mb tag pl = true) ∧
    (∃ (s : State) (mb : Fin 8) (tag : Word) (pl : List Word), s.takes Machine.feLinWrite mb tag pl = true) ∧
    (∃ (s : State) (mb : Fin 8) (tag : Word) (pl : List Word), s.takes Machine.feLinCommit mb tag pl = true) ∧
    (∃ (s : State) (mb : Fin 8) (tag : Word) (pl : List Word), s.takes Machine.feLinRead mb tag pl = true) ∧
    (∃ (s : State) (mb : Fin 8) (tag : Word) (pl : List Word), s.takes Machine.feFaultStatus mb tag pl = true) ∧
    (∃ (s : State) (mb : Fin 8) (tag : Word) (pl : List Word), s.takes Machine.feFaultDetail mb tag pl = true) :=
  ⟨⟨on, 0, 7, [0x8F000003, 0x0001F00A, 0], by decide⟩,
   ⟨on, 0, 7, [0x00100001, 0x0001F00A, 0, 0x1F060078, 0, 0, 0, 0, 0, 0, 0], by decide⟩,
   ⟨on, 0, 7, [0x03E88010, 0], by decide⟩,
   ⟨on, 0, 7, [0x00020001, 0, 0, 0x10000000, 0x10000000], by decide⟩,
   ⟨onLin, 0, 7, [0x0201], by decide⟩,
   ⟨on, 0, 7, [0x00020001], by decide⟩,
   ⟨on, 0, 7, [], by decide⟩,
   ⟨on, 0, 7, [3], by decide⟩⟩

/-- States and operands that meet the hypotheses of each clause of Obligations.CalibrationCommands. -/
theorem witness_CalibrationCommands :
    (∃ (s : State) (mb : Fin 8) (tag : Word) (pl : List Word), s.takes Machine.calRefSet mb tag pl = true) ∧
    (∃ (s : State) (mb : Fin 8) (tag : Word) (pl : List Word), s.takes Machine.calPolicySet mb tag pl = true) ∧
    (∃ (s : State) (mb : Fin 8) (tag : Word) (pl : List Word), s.takes Machine.calRun mb tag pl = true) ∧
    (∃ (s : State) (mb : Fin 8) (tag : Word) (pl : List Word), s.takes Machine.calResultRead mb tag pl = true) :=
  ⟨⟨on, 0, 7, [250000000, 1000000000, 0x00100010], by decide⟩,
   ⟨on, 0, 7, [0x1608000F, 3600, 0x00400C00, 256], by decide⟩,
   ⟨onCal, 0, 7, [1], by decide⟩,
   ⟨onCal, 0, 7, [3], by decide⟩⟩

/-- States and operands that meet the hypotheses of each clause of Obligations.FilterCommands. -/
theorem witness_FilterCommands :
    (∃ (s : State) (mb : Fin 8) (tag : Word) (pl : List Word), s.takes Machine.fltProfileSet mb tag pl = true) ∧
    (∃ (s : State) (mb : Fin 8) (tag : Word) (pl : List Word), s.takes Machine.fltCoefWrite mb tag pl = true) ∧
    (∃ (s : State) (mb : Fin 8) (tag : Word) (pl : List Word), s.takes Machine.fltCoefCommit mb tag pl = true) ∧
    (∃ (s : State) (mb : Fin 8) (tag : Word) (pl : List Word), s.takes Machine.fltBankSwap mb tag pl = true ∧
      s.hub.swapNow (fld (pw pl 0) 4 0) (fld (pw pl 0) 6 5) = false ∧ (s.hub.flt.swap.get (fld (pw pl 0) 4 0)).cur = none) ∧
    (∃ (s : State) (mb : Fin 8) (tag : Word) (pl : List Word), s.takes Machine.fltChanSet mb tag pl = true) ∧
    (∃ (s : State) (mb : Fin 8) (tag : Word) (pl : List Word), s.takes Machine.fltSync mb tag pl = true) ∧
    (∃ (s : State) (mb : Fin 8) (tag : Word) (pl : List Word), s.takes Machine.fltDelayRead mb tag pl = true) :=
  ⟨⟨on, 0, 7, [0x06002002, 0x00010000, 0], by decide⟩,
   ⟨on, 0, 7, [0x02000003, 1, 2], by decide⟩,
   ⟨onBank, 0, 7, [3], by decide +kernel⟩,
   ⟨onSwap, 0, 7, [0x23], by decide⟩,
   ⟨onFlt, 0, 7, [0x00000803, 0x10000000, 0, 0, 0, 0, 0], by decide⟩,
   ⟨on, 0, 7, [0x20, 0], by decide⟩,
   ⟨onFlt, 0, 7, [3], by decide⟩⟩

/-- States and operands that meet the hypotheses of each clause of Obligations.TriggerCommands. -/
theorem witness_TriggerCommands :
    (∃ (s : State) (mb : Fin 8) (tag : Word) (pl : List Word), s.takes Machine.trgUnitSet mb tag pl = true) ∧
    (∃ (s : State) (mb : Fin 8) (tag : Word) (pl : List Word), s.takes Machine.trgQualSet mb tag pl = true) ∧
    (∃ (s : State) (mb : Fin 8) (tag : Word) (pl : List Word), s.takes Machine.capGroupSet mb tag pl = true) ∧
    (∃ (s : State) (mb : Fin 8) (tag : Word) (pl : List Word), s.takes Machine.trgArm mb tag pl = true) ∧
    (∃ (s : State) (mb : Fin 8) (tag : Word) (pl : List Word), s.takes Machine.trgSoft mb tag pl = true) ∧
    (∃ (s : State) (mb : Fin 8) (tag : Word) (pl : List Word), s.takes Machine.trgStatus mb tag pl = true) ∧
    (∃ (s : State) (mb : Fin 8) (tag : Word) (pl : List Word), s.takes Machine.trgIoSet mb tag pl = true) :=
  ⟨⟨on, 0, 7, [0x00000403, 0x10000000, 0, 0x01000000, 0, 0, 0, 0, 0x1F000001, 1, 0], by decide⟩,
   ⟨on, 0, 7, [1, 0, 0, 0, 0, 0, 0, 0, 0], by decide⟩,
   ⟨on, 0, 7, [0x00010000, 1000, 1000, 0x00640010, 0, 0, 0, 3], by decide⟩,
   ⟨on, 0, 7, [2, 0, 0, 0, 0, 0], by decide⟩,
   ⟨on, 0, 7, [1, 0], by decide⟩,
   ⟨on, 0, 7, [1], by decide⟩,
   ⟨on, 0, 7, [0x20, 100, 2, 0], by decide⟩⟩

/-- States and operands that meet the hypotheses of each clause of Obligations.ActionCommands. -/
theorem witness_ActionCommands :
    (∃ (s : State) (mb : Fin 8) (tag : Word) (pl : List Word), s.takes Machine.actRuleSet mb tag pl = true) ∧
    (∃ (s : State) (mb : Fin 8) (tag : Word) (pl : List Word), s.takes Machine.actPinSet mb tag pl = true) ∧
    (∃ (s : State) (mb : Fin 8) (tag : Word) (pl : List Word), s.takes Machine.actArm mb tag pl = true) ∧
    (∃ (s : State) (mb : Fin 8) (tag : Word) (pl : List Word), s.takes Machine.actClear mb tag pl = true) ∧
    (∃ (s : State) (mb : Fin 8) (tag : Word) (pl : List Word), s.takes Machine.actStatus mb tag pl = true) ∧
    (∃ (s : State) (mb : Fin 8) (tag : Word) (pl : List Word), s.takes Machine.actFailsafeProgram mb tag pl = true) :=
  ⟨⟨on, 0, 7, [0x10000200, 2, 0, 1000], by decide⟩,
   ⟨on, 0, 7, [0x10], by decide⟩,
   ⟨on, 0, 7, [1, 2, 4, 0], by decide⟩,
   ⟨on, 0, 7, [1], by decide⟩,
   ⟨on, 0, 7, [], by decide⟩,
   ⟨on, 7, 7, [1, 0x0A5C0C06], by decide⟩⟩

/-- States and operands that meet the hypotheses of each clause of Obligations.TimeCommands. -/
theorem witness_TimeCommands :
    (∃ (s : State) (mb : Fin 8) (tag : Word) (pl : List Word), s.takes Machine.timeSrcSet mb tag pl = true) ∧
    (∃ (s : State) (mb : Fin 8) (tag : Word) (pl : List Word), s.takes Machine.timeRefSet mb tag pl = true) ∧
    (∃ (s : State) (mb : Fin 8) (tag : Word) (pl : List Word), s.takes Machine.timeSet mb tag pl = true) ∧
    (∃ (s : State) (mb : Fin 8) (tag : Word) (pl : List Word), s.takes Machine.timePpsOutSet mb tag pl = true) ∧
    (∃ (s : State) (mb : Fin 8) (tag : Word) (pl : List Word), s.takes Machine.timeStatusRead mb tag pl = true) :=
  ⟨⟨on, 0, 7, [0x00070064, 2000, 0x0300000A, 1000, 0x003C0064], by decide⟩,
   ⟨on, 0, 7, [1000, 0x00640000, 0], by decide⟩,
   ⟨on, 0, 7, [5, 10, 100], by decide⟩,
   ⟨on, 0, 7, [0x60000000, 10, 0], by decide⟩,
   ⟨on, 0, 7, [], by decide⟩⟩

/-- States and operands that meet the hypotheses of each clause of Obligations.PtpCommands. -/
theorem witness_PtpCommands :
    (∃ (s : State) (mb : Fin 8) (tag : Word) (pl : List Word), s.takes Machine.netPtpSet mb tag pl = true) ∧
    (∃ (s : State) (mb : Fin 8) (tag : Word) (pl : List Word), s.takes Machine.netPortCompSet mb tag pl = true) ∧
    (∃ (s : State) (mb : Fin 8) (tag : Word) (pl : List Word), s.takes Machine.netPortSet mb tag pl = true) ∧
    (∃ (s : State) (mb : Fin 8) (tag : Word) (pl : List Word), s.takes Machine.netRrConfirm mb tag pl = true) ∧
    (∃ (s : State) (mb : Fin 8) (tag : Word) (pl : List Word), s.takes Machine.netAuthKeySet mb tag pl = true) ∧
    (∃ (s : State) (mb : Fin 8) (tag : Word) (pl : List Word), s.takes Machine.netTxtsRead mb tag pl = true) ∧
    (∃ (s : State) (mb : Fin 8) (tag : Word) (pl : List Word), s.takes Machine.netPtpStatus mb tag pl = true) ∧
    (∃ (s : State) (mb : Fin 8) (tag : Word) (pl : List Word), s.takes Machine.netQuarRelease mb tag pl = true) :=
  ⟨⟨on, 0, 7, [0x80000300, 0x00FA000A, 0x00C84064, 0x003C0258, 0x083C0000], by decide⟩,
   ⟨on, 0, 7, [0, 1, 2, 3], by decide⟩,
   ⟨on, 0, 7, [0x80000000, 0x01020304, 0x0506, 0x00640000], by decide⟩,
   ⟨on, 0, 7, [4, 0], by decide⟩,
   ⟨on, 0, 7, [0x01014000, 1, 2, 3, 4, 0, 0, 0, 0], by decide⟩,
   ⟨on, 0, 7, [0], by decide⟩,
   ⟨on, 0, 7, [0], by decide⟩,
   ⟨onNet, 0, 7, [0, 0, 0], by decide⟩⟩

/-- States and operands that meet the hypotheses of each clause of Obligations.NetworkCommands. -/
theorem witness_NetworkCommands :
    (∃ (s : State) (mb : Fin 8) (tag : Word) (pl : List Word), s.takes Machine.netFrameWrite mb tag pl = true) ∧
    (∃ (s : State) (mb : Fin 8) (tag : Word) (pl : List Word), s.takes Machine.netFrameSend mb tag pl = true) ∧
    (∃ (s : State) (mb : Fin 8) (tag : Word) (pl : List Word), s.takes Machine.netLaunch mb tag pl = true ∧
      (∀ p, s.hub.net.active = some p → (s.hub.port p).link = true)) ∧
    (∃ (s : State) (mb : Fin 8) (tag : Word) (pl : List Word), s.takes Machine.netPathSet mb tag pl = true) ∧
    (∃ (s : State) (mb : Fin 8) (tag : Word) (pl : List Word), s.takes Machine.netAddrSet mb tag pl = true) ∧
    (∃ (s : State) (mb : Fin 8) (tag : Word) (pl : List Word), s.takes Machine.netVerdict mb tag pl = true ∧ s.hub.cfg.net.arbMode = 0 ∧
      (s.hub.portCfg (fld (pw pl 0) 0 0)).enable = true ∧ s.hub.verdictWaits (fld (pw pl 0) 0 0) = false) ∧
    (∃ (s : State) (mb : Fin 8) (tag : Word) (pl : List Word), s.takes Machine.netVerdict mb tag pl = true ∧ s.hub.clk.held = false ∧
      s.hub.verdictWaits (fld (pw pl 0) 0 0) = true ∧ s.hub.net.failover.isSome = true ∧ s.hub.net.verdict = none) ∧
    (∃ (s : State) (mb : Fin 8) (tag : Word) (pl : List Word), s.takes Machine.netVerdict mb tag pl = true ∧ s.hub.clk.held = false ∧
      s.hub.verdictWaits (fld (pw pl 0) 0 0) = true ∧ s.hub.net.failover = none) ∧
    (∃ (s : State) (mb : Fin 8) (tag : Word) (pl : List Word), s.takes Machine.netPathStatus mb tag pl = true) :=
  ⟨⟨on, 0, 7, [0x01000000, 7], by decide⟩,
   ⟨onNet, 0, 7, [0x00018000, 64], by decide⟩,
   ⟨onNet, 0, 7, [1, 64, 1000000, 1, 0, 1000], by decide⟩,
   ⟨on, 0, 7, [0x001F0005, 0x01F4000A, 0x0032003C, 0], by decide⟩,
   ⟨on, 0, 7, [24, 1, 2, 0, 0, 0, 0, 5, 0, 0, 0], by decide⟩,
   ⟨onNet, 0, 7, [0], by decide⟩,
   ⟨onFailover, 0, 7, [0], by decide⟩,
   ⟨onNet, 0, 7, [1], by decide⟩,
   ⟨on, 0, 7, [], by decide⟩⟩

/-- States and operands that meet the hypotheses of each clause of Obligations.TimeIntervalCommands. -/
theorem witness_TimeIntervalCommands :
    (∃ (s : State) (mb : Fin 8) (tag : Word) (pl : List Word), s.takes Machine.tiuInputSet mb tag pl = true) ∧
    (∃ (s : State) (mb : Fin 8) (tag : Word) (pl : List Word), s.takes Machine.tiuIntervalSet mb tag pl = true) ∧
    (∃ (s : State) (mb : Fin 8) (tag : Word) (pl : List Word), s.takes Machine.tiuFreq mb tag pl = true) ∧
    (∃ (s : State) (mb : Fin 8) (tag : Word) (pl : List Word), s.takes Machine.tiuRead mb tag pl = true) ∧
    (∃ (s : State) (mb : Fin 8) (tag : Word) (pl : List Word), s.takes Machine.tiuStatus mb tag pl = true) ∧
    (∃ (s : State) (mb : Fin 8) (tag : Word) (pl : List Word), s.takes Machine.tiuCalSet mb tag pl = true) :=
  ⟨⟨on, 0, 7, [0x40000001, 0, 0], by decide⟩,
   ⟨onTiu, 0, 7, [0x81180000, 0, 1000000], by decide⟩,
   ⟨onTiu, 0, 7, [1, 10], by decide⟩,
   ⟨on, 0, 7, [0], by decide⟩,
   ⟨on, 0, 7, [0], by decide⟩,
   ⟨on, 0, 7, [60], by decide⟩⟩

/-- States and operands that meet the hypotheses of each clause of Obligations.JournalCommands. -/
theorem witness_JournalCommands :
    (∃ (s : State) (mb : Fin 8) (tag : Word) (pl : List Word), s.takes Machine.chgSet mb tag pl = true) ∧
    (∃ (s : State) (mb : Fin 8) (tag : Word) (pl : List Word), s.takes Machine.chgRun mb tag pl = true) ∧
    (∃ (s : State) (mb : Fin 8) (tag : Word) (pl : List Word), s.takes Machine.consumerSet mb tag pl = true) ∧
    (∃ (s : State) (mb : Fin 8) (tag : Word) (pl : List Word), s.takes Machine.journalSet mb tag pl = true) ∧
    (∃ (s : State) (mb : Fin 8) (tag : Word) (pl : List Word), s.takes Machine.journalStatus mb tag pl = true) ∧
    (∃ (s : State) (mb : Fin 8) (tag : Word) (pl : List Word), s.takes Machine.ferryKeySet mb tag pl = true) ∧
    (∃ (s : State) (mb : Fin 8) (tag : Word) (pl : List Word), s.takes Machine.liveSet mb tag pl = true) ∧
    (∃ (s : State) (mb : Fin 8) (tag : Word) (pl : List Word), s.takes Machine.chanDescSet mb tag pl = true) :=
  ⟨⟨onChg, 0, 7, [0x0C010085, 3], by decide⟩,
   ⟨onChg, 0, 7, [0x20, 0, 0, 0], by decide⟩,
   ⟨on, 0, 7, [0xC1FF0000, 1, 0, 0, 0, 0, 0, 0, 0, 0], by decide⟩,
   ⟨on, 0, 7, [0x50000040, 1000, 8], by decide⟩,
   ⟨on, 0, 7, [], by decide⟩,
   ⟨on, 0, 7, [0x00010200, 1, 2, 3, 4], by decide⟩,
   ⟨on, 0, 7, [0x80000003, 0x00040001], by decide⟩,
   ⟨on, 0, 7, [3, 0, 0, 0x41424344, 0, 0, 0], by decide⟩⟩

/-- States and operands that meet the hypotheses of each clause of Obligations.CodecCommands. -/
theorem witness_CodecCommands :
    (∃ (s : State) (mb : Fin 8) (tag : Word) (pl : List Word), s.takes Machine.codecSet mb tag pl = true) ∧
    (∃ (s : State) (mb : Fin 8) (tag : Word) (pl : List Word), s.takes Machine.codecChanSet mb tag pl = true) ∧
    (∃ (s : State) (mb : Fin 8) (tag : Word) (pl : List Word), s.takes Machine.codecStatus mb tag pl = true) ∧
    (∃ (s : State) (mb : Fin 8) (tag : Word) (pl : List Word), s.takes Machine.codecStateSave mb tag pl = true) ∧
    (∃ (s : State) (mb : Fin 8) (tag : Word) (pl : List Word), s.takes Machine.codecStateRead mb tag pl = true) ∧
    (∃ (s : State) (mb : Fin 8) (tag : Word) (pl : List Word), s.takes Machine.codecStateWrite mb tag pl = true) ∧
    (∃ (s : State) (mb : Fin 8) (tag : Word) (pl : List Word), s.takes Machine.codecCheck mb tag pl = true) :=
  ⟨⟨on, 0, 7, [0x03084005, 0x10000096, 0x00640000], by decide⟩,
   ⟨onChg, 0, 7, [0x01004003, 0], by decide⟩,
   ⟨on, 0, 7, [5], by decide⟩,
   ⟨onCod, 0, 7, [70], by decide⟩,
   ⟨on, 0, 7, [0x02000000], by decide⟩,
   ⟨on, 0, 7, [0x01000000, 1], by decide⟩,
   ⟨onRec, 0, 7, [0, 0, 0, 0], by decide⟩⟩

/-- States and operands that meet the hypotheses of each clause of Obligations.SensorLaneCommands. -/
theorem witness_SensorLaneCommands :
    (∃ (s : State) (mb : Fin 8) (tag : Word) (pl : List Word), s.takes Machine.slLaneSet mb tag pl = true) ∧
    (∃ (s : State) (mb : Fin 8) (tag : Word) (pl : List Word), s.takes Machine.slSlotSet mb tag pl = true) ∧
    (∃ (s : State) (mb : Fin 8) (tag : Word) (pl : List Word), s.takes Machine.slKeySet mb tag pl = true) ∧
    (∃ (s : State) (mb : Fin 8) (tag : Word) (pl : List Word), s.takes Machine.slReset mb tag pl = true) ∧
    (∃ (s : State) (mb : Fin 8) (tag : Word) (pl : List Word), s.takes Machine.slQuarRelease mb tag pl = true) ∧
    (∃ (s : State) (mb : Fin 8) (tag : Word) (pl : List Word), s.takes Machine.slStatus mb tag pl = true) :=
  ⟨⟨on, 0, 7, [0x80408000, 0, 0, 0, 0x03E807D0, 0x025803E8], by decide⟩,
   ⟨onLane, 0, 7, [0x80000000, 8000], by decide⟩,
   ⟨on, 0, 7, [0x200, 1, 2, 3, 4], by decide⟩,
   ⟨onLane, 0, 7, [0], by decide⟩,
   ⟨onLane, 0, 7, [2], by decide⟩,
   ⟨on, 0, 7, [0], by decide⟩⟩

/-- States and operands that meet the hypotheses of each clause of Obligations.CascadeCommands. -/
theorem witness_CascadeCommands :
    (∃ (s : State) (mb : Fin 8) (tag : Word) (pl : List Word), s.takes Machine.cascSet mb tag pl = true) ∧
    (∃ (s : State) (mb : Fin 8) (tag : Word) (pl : List Word), s.takes Machine.cascPortSet mb tag pl = true) ∧
    (∃ (s : State) (mb : Fin 8) (tag : Word) (pl : List Word), s.takes Machine.cascLinkReset mb tag pl = true) ∧
    (∃ (s : State) (mb : Fin 8) (tag : Word) (pl : List Word), s.takes Machine.cascQuarRelease mb tag pl = true) ∧
    (∃ (s : State) (mb : Fin 8) (tag : Word) (pl : List Word), s.takes Machine.cascStatus mb tag pl = true) :=
  ⟨⟨on, 0, 7, [0x3E8], by decide⟩,
   ⟨on, 0, 7, [0x80408001, 0, 0x000003E8, 0x025803E8, 2000], by decide⟩,
   ⟨on, 0, 7, [1], by decide⟩,
   ⟨onLane, 0, 7, [1], by decide⟩,
   ⟨on, 0, 7, [1], by decide⟩⟩

/-- States and operands that meet the hypotheses of each clause of Obligations.SecurityCommands. -/
theorem witness_SecurityCommands :
    (∃ (s : State) (mb : Fin 8) (tag : Word) (pl : List Word), s.takes Machine.secStatus mb tag pl = true) ∧
    (∃ (s : State) (mb : Fin 8) (tag : Word) (pl : List Word), s.takes Machine.secJtagChallenge mb tag pl = true) ∧
    (∃ (s : State) (mb : Fin 8) (tag : Word) (pl : List Word), s.takes Machine.secJtagUnlock mb tag pl = true) ∧
    (∃ (s : State) (mb : Fin 8) (tag : Word) (pl : List Word), s.takes Machine.secOtpProgram mb tag pl = true ∧ pw pl 1 = 0x0A5C0E04 ∧
      s.hub.sto.otp.refuses (fld (pw pl 0) 2 0) (pl.drop 2) = false) ∧
    (∃ (s : State) (mb : Fin 8) (tag : Word) (pl : List Word), s.takes Machine.fwWrite mb tag pl = true) ∧
    (∃ (s : State) (mb : Fin 8) (tag : Word) (pl : List Word), s.takes Machine.fwVerify mb tag pl = true) ∧
    (∃ (s : State) (mb : Fin 8) (tag : Word) (pl : List Word), s.takes Machine.fwSwitch mb tag pl = true) ∧
    (∃ (s : State) (mb : Fin 8) (tag : Word) (pl : List Word), s.takes Machine.flashStatus mb tag pl = true) ∧
    (∃ (s : State) (mb : Fin 8) (tag : Word) (pl : List Word), s.takes Machine.dramRetiredRead mb tag pl = true) ∧
    (∃ (s : State) (mb : Fin 8) (tag : Word) (pl : List Word), s.takes Machine.selftest mb tag pl = true) :=
  ⟨⟨on, 0, 7, [], by decide⟩,
   ⟨on, 7, 7, [], by decide⟩,
   ⟨on, 7, 7, [1, 2, 3, 4], by decide⟩,
   ⟨on, 7, 7, [3, 0x0A5C0E04, 1, 2, 3, 4, 0, 0, 0, 0], by decide⟩,
   ⟨on, 7, 7, [0x01000000, 0, 7], by decide⟩,
   ⟨on, 7, 7, [0], by decide⟩,
   ⟨onSto, 7, 7, [0, 600], by decide⟩,
   ⟨on, 7, 7, [], by decide⟩,
   ⟨on, 7, 7, [0x01000000], by decide⟩,
   ⟨on, 7, 7, [1], by decide⟩⟩

/-- States and operands that meet the hypotheses of each clause of Obligations.HostMailboxRows. -/
theorem witness_HostMailboxRows :
    (∃ (s : State), s.hub.powered = true) ∧
    (∃ (s : State) (mb : Fin 8), s.hub.powered = true ∧ s.hub.sys.pendingMb ≠ mb.val) ∧
    (∃ (s : State) (m : Nat), s.hub.powered = true ∧ s.hub.canTake = true ∧ s.hub.nextPosted = some m ∧ m < 8 ∧
      (s.hub.taken m).checkCmd (cmdOf (fld ((s.hub.host.mbs.get m).cmd.get 0) 15 0)) m ((s.hub.host.mbs.get m).cmd.get 0)
      ((s.hub.host.mbs.get m).cmd.get 1) ((s.hub.host.mbs.get m).cmd.get 2) ((s.hub.host.mbs.get m).cmd.get 3) ((s.hub.host.mbs.get
      m).cmd.gets 4 (min 124 (fld ((s.hub.host.mbs.get m).cmd.get 0) 31 24))) = none ∧ fld ((s.hub.host.mbs.get m).cmd.get 0) 15 0 = 0x0101) ∧
    (∃ (s : State) (m : Nat) (st : Nat) (ws : List Word), s.hub.powered = true ∧ s.hub.canTake = true ∧ s.hub.nextPosted = some m ∧ m < 8 ∧
      (s.hub.taken m).checkCmd (cmdOf (fld ((s.hub.host.mbs.get m).cmd.get 0) 15 0)) m ((s.hub.host.mbs.get m).cmd.get 0)
      ((s.hub.host.mbs.get m).cmd.get 1) ((s.hub.host.mbs.get m).cmd.get 2) ((s.hub.host.mbs.get m).cmd.get 3) ((s.hub.host.mbs.get
      m).cmd.gets 4 (min 124 (fld ((s.hub.host.mbs.get m).cmd.get 0) 31 24))) = some (st, ws)) ∧
    (∃ (s : State), s.hub.powered = true ∧ (s.hub.canTake = false ∨ s.hub.host.posted = [])) :=
  ⟨⟨on, by decide⟩,
   ⟨on, 0, by decide⟩,
   ⟨onPostedNop, 0, by decide⟩,
   ⟨onPosted, 0, 0x10, [], by decide⟩,
   ⟨on, by decide⟩⟩

/-- States and operands that meet the hypotheses of each clause of Obligations.HostQueueAndResetRows. -/
theorem witness_HostQueueAndResetRows :
    (∃ (s : State), s.hub.powered = true) ∧
    (∃ (s : State), s.hub.powered = true ∧ s.hub.clk.held = false) ∧
    (∃ (s : State), s.hub.powered = true ∧ s.hub.clk.held = false) ∧
    (∃ (s : State), s.hub.powered = true ∧ s.hub.clk.held = false) :=
  ⟨⟨on, by decide⟩,
   ⟨on, by decide⟩,
   ⟨on, by decide⟩,
   ⟨on, by decide⟩⟩

/-- States and operands that meet the hypotheses of each clause of Obligations.HostRingAndLiveRows. -/
theorem witness_HostRingAndLiveRows :
    (∃ (s : State) (c : Fin 4) (origin : Fin 16) (lo : Word) (hi : Word), s.hub.powered = true ∧ s.hub.clk.held = false ∧ (c.val = 0 ∨
      c.val = 3) ∧ origin.val = s.hub.sys.straps.hubId ∧ mask64 lo hi + 1 > ((s.hub.jrn.consumers.get c).ackTo.get origin) ∧
      ((s.hub.jrn.consumers.get c).offered.get origin) < mask64 lo hi + 1) ∧
    (∃ (s : State) (c : Fin 4) (origin : Fin 16) (lo : Word) (hi : Word), s.hub.powered = true ∧ s.hub.clk.held = false ∧ (c.val = 0 ∨
      c.val = 3) ∧ origin.val = s.hub.sys.straps.hubId ∧ mask64 lo hi + 1 > ((s.hub.jrn.consumers.get c).ackTo.get origin) ∧
      mask64 lo hi + 1 ≤ ((s.hub.jrn.consumers.get c).offered.get origin)) ∧
    (∃ (s : State) (c : Fin 4), s.hub.powered = true ∧ (c.val = 1 ∨ c.val = 2) ∧ s.hub.clk.held = false) ∧
    (∃ (s : State), s.hub.powered = true ∧ s.hub.clk.held = false) ∧
    (∃ (s : State), s.hub.powered = true ∧ s.hub.clk.held = false) ∧
    (∃ (s : State), s.hub.powered = true ∧ s.hub.clk.held = false) ∧
    (∃ (s : State) (r : Machine.BusRead) (q : Nat), s.hub.powered = true ∧ q < 16 ∧ r.addr = 0x18700C + 0x8000 * q ∧ r.len = 4 ∧
      s.hub.clk.held = false) ∧
    (∃ (s : State) (r : Machine.BusRead) (q : Nat), s.hub.powered = true ∧ q < 16 ∧ touchesLost r = true ∧ r.addr < 0x187010 + 0x8000 * q ∧
      0x18700C + 0x8000 * q < r.addr + r.len ∧ s.hub.clk.held = false) :=
  ⟨⟨on, 0, 0, 5#32, 0#32, by decide⟩,
   ⟨onOffered, 0, 0, 5#32, 0#32, by decide⟩,
   ⟨on, 1, by decide⟩,
   ⟨on, by decide⟩,
   ⟨on, by decide⟩,
   ⟨on, by decide⟩,
   ⟨onLostItems, { addr := 0x19700C, len := 4 }, 2, by decide⟩,
   ⟨onLostItems, { addr := 0x197009, len := 6 }, 2, by decide⟩⟩

/-- States and operands that meet the hypotheses of each clause of Obligations.HostBusRows. -/
theorem witness_HostBusRows :
    (∃ (s : State), s.hub.powered = true) ∧
    (∃ (s : State) (addr : Nat) (bytes : List (Option Byte)) (b0 : Byte) (b1 : Byte) (b2 : Byte) (b3 : Byte), s.hub.powered = true ∧
      addr % 4 = 0 ∧ bytes = [some b0, some b1, some b2, some b3] ∧ 0x40000 ≤ addr ∧ addr < 0x48000 ∧ addr % 4096 < 0x200) ∧
    (∃ (s : State) (addr : Nat) (bytes : List (Option Byte)) (b0 : Byte) (b1 : Byte) (b2 : Byte) (b3 : Byte), s.hub.powered = true ∧
      addr = 0x14 ∧ bytes = [some b0, some b1, some b2, some b3]) ∧
    (∃ (s : State) (addr : Nat) (bytes : List (Option Byte)) (b0 : Byte) (b1 : Byte) (b2 : Byte) (b3 : Byte) (pre : List (Option Byte))
      (post : List (Option Byte)), s.hub.powered = true ∧ bytes = pre ++ [some b0, some b1, some b2, some b3] ++ post ∧
      addr + pre.length = 0x14 ∧ (∀ x ∈ pre, x = none) ∧ (∀ x ∈ post, x = none)) ∧
    (∃ (s : State) (addr : Nat) (bytes : List (Option Byte)), s.hub.powered = true ∧ (∀ w, w % 4 = 0 → wordEnabled addr bytes w ≠ none →
      w ∈ [0x00, 0x04, 0x08, 0x0C, 0x10, 0x1C])) ∧
    (∃ (s : State) (addr : BitVec 24) (ws : List Word), s.hub.powered = true ∧ s.hub.sys.straps.hostSel = true ∧ addr.toNat % 4 = 0 ∧
      0x40000 ≤ addr.toNat ∧ addr.toNat < 0x48000 ∧ addr.toNat % 4096 < 0x200 ∧ ws.length = 1 ∧
      (s.hub.host.mbs.get ((addr.toNat - 0x40000) / 4096)).state = .idle) ∧
    (∃ (s : State) (addr : BitVec 24), s.hub.powered = true ∧ s.hub.sys.straps.hostSel = true ∧ addr.toNat % 4 ≠ 0) ∧
    (∃ (s : State) (addr : BitVec 24) (ws : List Word) (crc : Word), s.hub.powered = true ∧ s.hub.sys.straps.hostSel = true ∧
      addr.toNat % 4 = 0 ∧ crc ≠ crc32c (leBytes 3 addr.toNat ++ bytesOf ws)) ∧
    (∃ (s : State) (addr : BitVec 24) (ws : List Word) (crc : Word) (part : Bool), s.hub.powered = true ∧ s.hub.sys.straps.hostSel = true ∧
      addr.toNat % 4 = 0 ∧ 0x40000 ≤ addr.toNat ∧ addr.toNat < 0x48000 ∧ addr.toNat % 4096 < 0x200 ∧ ws.length = 1 ∧ part = false ∧
      (s.hub.host.mbs.get ((addr.toNat - 0x40000) / 4096)).state = .idle ∧ crc = crc32c (leBytes 3 addr.toNat ++ bytesOf ws)) ∧
    (∃ (s : State) (addr : BitVec 24) (n : Nat) (part : Bool), s.hub.powered = true ∧ s.hub.sys.straps.hostSel = true ∧ addr.toNat = 0 ∧
      n = 1 ∧ part = false) ∧
    (∃ (s : State) (addr : BitVec 24), s.hub.powered = true ∧ s.hub.sys.straps.hostSel = true ∧ addr.toNat % 4 ≠ 0) ∧
    (∃ (s : State), s.hub.powered = true ∧ s.hub.sys.straps.hostSel = false) ∧
    (∃ (s : State), s.hub.powered = true ∧ s.hub.sys.straps.hostSel = false) ∧
    (∃ (s : State), s.hub.powered = true ∧ s.hub.sys.straps.hostSel = false ∧ s.hub.host.pcieReady = true) ∧
    (∃ (s : State), s.hub.powered = true ∧ (s.hub.sys.straps.hostSel = true ∨ s.hub.host.pcieReady = false)) :=
  ⟨⟨on, by decide⟩,
   ⟨on, 0x41004, [some 7, some 0, some 0, some 0], 7, 0, 0, 0, by decide⟩,
   ⟨on, 0x14, [some 1, some 0, some 0, some 0], 1, 0, 0, 0, by decide⟩,
   ⟨on, 0x13, [none, some 1, some 0, some 0, some 0, none], 1, 0, 0, 0, [none], [none], by decide +kernel⟩,
   ⟨on, 0x11, [some 1, some 2], by decide, fun w _ h => (h (by unfold wordEnabled; rcases w - 0x11 with _ | _ | n <;> simp)).elim⟩,
   ⟨onSpi, 0x41004#24, [7], by decide⟩,
   ⟨onSpi, 0x41005#24, by decide⟩,
   ⟨onSpi, 0x41004#24, [7], 0#32, by decide +kernel⟩,
   ⟨onSpi, 0x41004#24, [7], (crc32c (leBytes 3 0x41004 ++ bytesOf [7])), false, by decide +kernel⟩,
   ⟨onSpi, 0#24, 1, false, by decide⟩,
   ⟨onSpi, 1#24, by decide⟩,
   ⟨on, by decide⟩,
   ⟨on, by decide⟩,
   ⟨(onHost fun x => { x with pcieReady := true }), by decide⟩,
   ⟨on, by decide⟩⟩

/-- States and operands that meet the hypotheses of each clause of Obligations.ResetRows. -/
theorem witness_ResetRows :
    (∃ (s : State) (b : Machine.BootIn), strapsOk b.straps = true ∧ s.hub.sys.power = .reset ∧ s.hub.sys.acq = .boot ∧
      s.hub.sto.bootOverride = false ∧ b.straps.bootSel = 0 ∧ s.hub.sto.defaultB = false ∧ s.hub.sto.slotA.valid = true ∧
      s.hub.sto.otp.rollback ≤ s.hub.sto.slotA.secVer ∧ b.okA = true) ∧
    (∃ (s : State) (b : Machine.BootIn), strapsOk b.straps = true ∧ s.hub.sys.power = .reset ∧ b.okA = false ∧ b.okB = false) ∧
    (∃ (s : State), s.hub.powered = true ∧ s.hub.sys.bootStep8 = true ∧ s.hub.clk.stopped = true) ∧
    (∃ (s : State), s.hub.powered = true ∧ s.hub.sys.bootStep8 = true ∧ s.hub.clk.stopped = false ∧ s.hub.clk.held = false ∧
      s.hub.clk.rootLock = true ∧ s.hub.jrn.total ≠ 0 ∧ s.hub.tb.pendSet = none) :=
  ⟨⟨onPowerOff, bootIn, by decide⟩,
   ⟨State.reset, { bootIn with okA := false, okB := false }, by decide⟩,
   ⟨onBoot, by decide⟩,
   ⟨onBoot2, by decide⟩⟩

/-- States and operands that meet the hypotheses of each clause of Obligations.ControlResetRows. -/
theorem witness_ControlResetRows :
    (∃ (s : State) (c : Nat), s.hub.powered = true ∧ s.hub.sys.pendingReset = some (.control c) ∧ s.hub.sys.resetDue ≤ s.hub.xoCycles) ∧
    (∃ (s : State) (b : Bool) (r : Option Nat), s.hub.powered = true ∧ s.hub.sys.pendingReset = some (.slotSwitch b r) ∧
      s.hub.sys.resetDue ≤ s.hub.xoCycles) ∧
    (∃ (s : State), s.hub.powered = true ∧ s.hub.sto.trialArmed = false ∧ s.hub.clk.held = false) ∧
    (∃ (s : State), s.hub.powered = true ∧ s.hub.sto.trialArmed = false ∧ s.hub.clk.held = false) ∧
    (∃ (s : State), s.hub.powered = true ∧ s.hub.sto.trialArmed = true ∧ s.hub.sys.fwReady = false ∧
      s.hub.passed s.hub.sto.trialAt 7372800 = true) ∧
    (∃ (s : State), s.hub.powered = true ∧ s.hub.passed s.hub.sto.trialAt (s.hub.sto.trialS * 49152000) = true) ∧
    (∃ (s : State), s.hub.powered = true ∧ s.hub.passed s.hub.sto.trialAt (s.hub.sto.trialS * 49152000) = false) ∧
    (∃ (s : State) (fastOk : Bool) (okThis : Bool), s.hub.powered = true ∧ s.hub.sys.fwReady = false ∧ s.hub.sys.recovery = false ∧
      s.hub.sys.bootStep8 = false ∧ s.hub.sys.acq ≠ .boot ∧ (fastOk || (okThis && s.hub.fwFit s.hub.sys.slotB)) = true) ∧
    (∃ (s : State) (fastOk : Bool) (okThis : Bool) (okOther : Bool), s.hub.powered = true ∧ s.hub.sys.fwReady = false ∧
      s.hub.sys.recovery = false ∧ s.hub.sys.bootStep8 = false ∧ s.hub.sys.acq ≠ .boot ∧ (fastOk || (okThis && s.hub.fwFit s.hub.sys.slotB))
      = false ∧ (okOther && s.hub.fwFit !s.hub.sys.slotB) = true) ∧
    (∃ (s : State) (fastOk : Bool) (okThis : Bool) (okOther : Bool), s.hub.powered = true ∧ s.hub.sys.fwReady = false ∧
      s.hub.sys.recovery = false ∧ s.hub.sys.bootStep8 = false ∧ s.hub.sys.acq ≠ .boot ∧ (fastOk || (okThis && s.hub.fwFit s.hub.sys.slotB))
      = false ∧ (okOther && s.hub.fwFit !s.hub.sys.slotB) = false) ∧
    (∃ (s : State), s.hub.powered = true ∧ s.hub.sys.recovery = true ∧ (s.hub.host.mbs.get 7).state = .offline) :=
  ⟨⟨onCtl, 4, by decide⟩,
   ⟨onSwitch, true, (some 600), by decide⟩,
   ⟨on, by decide⟩,
   ⟨on, by decide⟩,
   ⟨onTrial, by decide⟩,
   ⟨onTrial, by decide⟩,
   ⟨onTrialYoung, by decide⟩,
   ⟨onReload, true, false, by decide⟩,
   ⟨onReloadB, false, false, true, by decide⟩,
   ⟨onReload, false, false, false, by decide⟩,
   ⟨onRecoveryDown, by decide⟩⟩

/-- States and operands that meet the hypotheses of each clause of Obligations.PowerRows. -/
theorem witness_PowerRows :
    (∃ (s : State), s.hub.powered = true ∧ (s.hub.sys.acq = .warmReset ∨ (s.hub.sys.acq = .running ∧ (s.hub.jrn.rescan = true ∨
      s.hub.sys.pendingReset = some .datapath ∧ s.hub.sys.resetDue ≤ s.hub.xoCycles))) ∧ s.hub.clk.held = false ∧
      s.hub.clk.stopped = false ∧ s.hub.tb.started = true) ∧
    (∃ (s : State), s.hub.powered = true ∧ s.hub.warmAsked = false) ∧
    (∃ (s : State), s.hub.powered = true) ∧
    (∃ (s : State) (b : Machine.ResumeIn), s.hub.sys.power = .retain ∧ b.xoOk = true ∧ s.hub.tb.started = true ∧ (b.fw.fast = true ∨
      (b.fw.this = true ∧ s.hub.fwFit s.hub.sys.slotB = true))) ∧
    (∃ (s : State), s.hub.sys.power ≠ .retain) ∧
    (∃ (s : State), s.hub.powered = true ∧ s.hub.clk.held = false) :=
  ⟨⟨onWarm, by decide⟩,
   ⟨on, by decide⟩,
   ⟨on, by decide⟩,
   ⟨onRetain, resumeIn, by decide⟩,
   ⟨on, by decide⟩,
   ⟨on, by decide⟩⟩

/-- States and operands that meet the hypotheses of each clause of Obligations.FlashRows. -/
theorem witness_FlashRows :
    (∃ (s : State), s.hub.powered = true ∧ s.hub.cfg.saveInt ≠ 0 ∧ s.hub.sto.saveDisabled = false ∧
      s.hub.sto.saveAt + s.hub.cfg.saveInt * 60 * 49152000 ≤ s.hub.xoCycles) ∧
    (∃ (s : State), s.hub.powered = true ∧ (s.hub.cfg.saveInt = 0 ∨ s.hub.xoCycles < s.hub.sto.saveAt + s.hub.cfg.saveInt * 60 * 49152000)) ∧
    (∃ (s : State) (ok : Bool) (v : Saved) (hd : Option Nat) (r : List FlashJob), s.hub.powered = true ∧ ok = true ∧
      s.hub.sto.jobs = .save v hd :: r) ∧
    (∃ (s : State) (ok : Bool) (v : Saved) (hd : Option Nat) (r : List FlashJob), s.hub.powered = true ∧ ok = false ∧ s.hub.sto.spares > 0 ∧
      s.hub.clk.held = false ∧ s.hub.sto.jobs = .save v hd :: r) ∧
    (∃ (s : State) (ok : Bool) (b : Bool) (i : Slot) (hd : Nat) (r : List FlashJob), s.hub.powered = true ∧ ok = true ∧
      s.hub.sys.recovery = false ∧ s.hub.sto.jobs = .image b i hd :: r) ∧
    (∃ (s : State) (ok : Bool) (k : Nat) (b : Bool) (n : Nat) (hd : Nat) (r : List FlashJob), s.hub.powered = true ∧ ok = false ∧
      s.hub.sto.jobs = .bootCtl k b n hd :: r) ∧
    (∃ (s : State) (f : Nat) (d : List Word) (hd : Nat) (r : List OtpJob), s.hub.powered = true ∧ s.hub.sto.otpJobs = .field f d hd :: r) ∧
    (∃ (s : State) (code : Nat) (mb : Nat) (tag : Word) (r : List OtpJob), s.hub.powered = true ∧
      s.hub.sto.otpJobs = .failSafe code mb tag :: r) ∧
    (∃ (s : State) (hd : Nat) (m : Nat) (r : List (Nat × Nat)), s.hub.powered = true ∧ s.hub.sto.selftests = (hd, m) :: r) ∧
    (∃ (s : State) (ok : Bool), s.hub.powered = true ∧ ok = true) ∧
    (∃ (s : State) (page : Nat) (ok : Bool), s.hub.powered = true ∧ ok = false ∧ (s.hub.jrn.pages.get page).used = false) :=
  ⟨⟨onHours, by decide⟩,
   ⟨on, by decide⟩,
   ⟨onSave, true, ({} : Saved), none, [], by decide⟩,
   ⟨onSave, false, ({} : Saved), none, [], by decide⟩,
   ⟨onImage, true, true, ({} : Slot), 0x1005, [], by decide⟩,
   ⟨onCtlJob, false, 1, true, 0, 0x1005, [], by decide⟩,
   ⟨onOtp, 3, [1, 2, 3, 4, 0, 0, 0, 0], 0x1005, [], by decide⟩,
   ⟨onOtp2, 5, 2, 7, [], by decide⟩,
   ⟨onTest, 0x1005, 1, [], by decide⟩,
   ⟨on, true, by decide⟩,
   ⟨on, 3, false, by decide⟩⟩

/-- States and operands that meet the hypotheses of each clause of Obligations.ClockRows. -/
theorem witness_ClockRows :
    (∃ (s : State), s.hub.powered = true ∧ s.hub.clk.rootLock = false ∧ (s.hub.clk.mon.get 0).ok = true ∧ s.hub.clk.oscWait = false ∧
      (s.hub.clk.stopped = true → s.hub.clk.relockAt.isSome = true)) ∧
    (∃ (s : State), s.hub.powered = true ∧ (s.hub.clk.rootLock = true ∨ (s.hub.clk.mon.get 0).ok = false)) ∧
    (∃ (s : State) (src : Fin 5) (count : Nat), s.hub.powered = true ∧ (src.val = 3 → s.hub.sys.straps.hostSel = false) ∧ (src.val = 0 →
      s.hub.clk.oscWait = false ∧ (s.hub.clk.mon.get 0).failed = false) ∧ (s.hub.monWindow src count).2.1 = false ∧
      ((s.hub.monWindow src count).1.ok && !(s.hub.clk.mon.get src).ok) = false) ∧
    (∃ (s : State) (src : Fin 5), s.hub.powered = true ∧ src.val = 3 ∧ s.hub.sys.straps.hostSel = false ∧
      (s.hub.clk.mon.get 3).failed = false) ∧
    (∃ (s : State) (src : Fin 5), s.hub.powered = true ∧ (s.hub.clk.mon.get src).failed = true) ∧
    (∃ (s : State), s.hub.powered = true) ∧
    (∃ (s : State) (host : Bool), s.hub.powered = true ∧ host = true) ∧
    (∃ (s : State) (host : Bool), s.hub.powered = true ∧ host = false ∧ (s.hub.clk.muxCpu = 1 → s.hub.clk.rootLock = true)) ∧
    (∃ (s : State) (host : Bool), s.hub.powered = true ∧ host = false ∧ s.hub.clk.muxCpu = 1 ∧ s.hub.clk.rootLock = false) ∧
    (∃ (s : State) (gate : Fin 64), s.hub.powered = true ∧ s.hub.gateWaits gate = true) ∧
    (∃ (s : State) (gate : Fin 64), s.hub.powered = true ∧ s.hub.gateWaits gate = true ∧ s.hub.gateLate gate = true ∧
      s.hub.clk.held = false) ∧
    (∃ (s : State) (gate : Fin 64), s.hub.powered = true ∧ s.hub.gateLate gate = false) ∧
    (∃ (s : State) (gate : Fin 64), s.hub.powered = true ∧ s.hub.gateWaits gate = false) ∧
    (∃ (s : State), s.hub.powered = true ∧ s.hub.clk.fmc.busy = true) :=
  ⟨⟨onNoLock, by decide⟩,
   ⟨on, by decide⟩,
   ⟨on, 1, 0, by decide⟩,
   ⟨on, 3, by decide⟩,
   ⟨onMonFailed, 1, by decide⟩,
   ⟨on, by decide⟩,
   ⟨on, true, by decide⟩,
   ⟨on, false, by decide⟩,
   ⟨onRcCpu, false, by decide⟩,
   ⟨onGate, 5, by decide⟩,
   ⟨onGate, 5, by decide⟩,
   ⟨on, 5, by decide⟩,
   ⟨on, 5, by decide⟩,
   ⟨onFmc, by decide⟩⟩

/-- States and operands that meet the hypotheses of each clause of Obligations.HoldRows. -/
theorem witness_HoldRows :
    (∃ (s : State), s.hub.powered = true ∧ s.hub.clk.rootLock = true ∧ s.hub.clk.held = false ∧ s.hub.clk.stopped = false ∧
      s.hub.clk.rootEver = true ∧ s.hub.clk.unlocks = []) ∧
    (∃ (s : State), s.hub.powered = true ∧ s.hub.clk.held = true ∧ s.hub.clk.stopped = false ∧ s.hub.clk.rootLock = true ∧
      s.hub.clk.heldWrites = []) ∧
    (∃ (s : State), s.hub.powered = true ∧ (s.hub.clk.held = false ∨ s.hub.clk.stopped = true ∨ s.hub.clk.rootLock = false)) ∧
    (∃ (s : State), s.hub.powered = true ∧ s.hub.clk.held = true ∧ s.hub.clk.stopped = false ∧ s.hub.clk.rootLock = false ∧
      s.hub.tb.holdLocal * 5 + 49152 * 2 ^ 40 ≤ s.hub.tb.xo * 5) ∧
    (∃ (s : State), s.hub.powered = true ∧ s.hub.tb.xo * 5 < s.hub.tb.holdLocal * 5 + 49152 * 2 ^ 40) ∧
    (∃ (s : State), s.hub.powered = true ∧ s.hub.clk.stopped = true ∧ s.hub.clk.rootLock = false ∧ (s.hub.clk.mon.get 0).ok = true ∧
      (∀ n, s.hub.clk.relockAt = some n → n + 49152 ≤ s.hub.xoCycles)) ∧
    (∃ (s : State), s.hub.powered = true ∧ (s.hub.clk.stopped = false ∨ s.hub.clk.rootLock = true ∨ (s.hub.clk.mon.get 0).ok = false)) ∧
    (∃ (s : State) (src : Option Machine.SrcReading), s.hub.powered = true ∧ s.hub.clk.stopped = true ∧ s.hub.clk.rootLock = true ∧
      s.hub.sys.bootStep8 = false ∧ s.hub.clk.rootSince + 491520 ≤ s.hub.xoCycles ∧ s.hub.tb.started = true ∧ s.hub.tb.pendSet = none ∧
      src = none) ∧
    (∃ (s : State), s.hub.powered = true ∧ (s.hub.clk.stopped = false ∨ s.hub.clk.rootLock = false ∨ s.hub.sys.bootStep8 = true ∨
      s.hub.xoCycles < s.hub.clk.rootSince + 491520)) ∧
    (∃ (s : State), s.hub.powered = true ∧ s.hub.clk.rootEver = false ∧ (s.hub.clk.mon.get 0).ok = false ∧ s.hub.clk.oscWait = false ∧
      s.hub.clk.stopped = false) :=
  ⟨⟨on, by decide⟩,
   ⟨onHeld, by decide⟩,
   ⟨on, by decide⟩,
   ⟨onLost, by decide⟩,
   ⟨on, by decide⟩,
   ⟨onStopped0, by decide⟩,
   ⟨on, by decide⟩,
   ⟨onStopped, none, by decide⟩,
   ⟨on, by decide⟩,
   ⟨onNoXo, by decide⟩⟩

/-- States and operands that meet the hypotheses of each clause of Obligations.StrobeRows. -/
theorem witness_StrobeRows :
    (∃ (s : State), s.hub.powered = true ∧ s.hub.clk.held = false ∧ s.hub.tb.started = true ∧ s.hub.tb.pendSet = none ∧
      s.hub.tb.pendBreak = [] ∧ s.hub.tb.dead = false ∧ s.hub.tb.cnt < 122880000 ∧ s.hub.tb.sec < 2 ^ 32) ∧
    (∃ (s : State), s.hub.powered = true ∧ (s.hub.clk.held = true ∨ s.hub.tb.started = false)) ∧
    (∃ (s : State), s.hub.powered = true ∧ s.hub.tb.pendBreak = []) ∧
    (∃ (s : State), s.hub.powered = true ∧ s.hub.tb.pendSet = none) ∧
    (∃ (s : State), s.hub.powered = true ∧ s.hub.clk.held = false ∧ s.hub.tb.started = true ∧ s.hub.tb.pendSet = none ∧
      s.hub.tb.pendBreak = [] ∧ s.hub.tb.dead = false ∧ s.hub.tb.cnt < 122880000 ∧ s.hub.tb.sec < 2 ^ 32 ∧ s.hub.flt.sync ≠ []) ∧
    (∃ (s : State), s.hub.powered = true ∧ s.hub.flt.sync = []) ∧
    (∃ (s : State), s.hub.powered = true ∧ s.hub.clk.held = false ∧ s.hub.tb.started = true ∧ s.hub.tb.pendSet = none ∧
      s.hub.tb.pendBreak = [] ∧ s.hub.tb.dead = false ∧ s.hub.tb.cnt < 122880000 ∧ s.hub.tb.sec < 2 ^ 32 ∧
      (s.hub.jrn.groups.any fun x => x.2.startReq || x.2.stopReq) = true) ∧
    (∃ (s : State), s.hub.powered = true ∧ (s.hub.jrn.groups.any fun x => x.2.startReq || x.2.stopReq) = false) ∧
    (∃ (s : State) (r : ArmReq), s.hub.powered = true ∧ s.hub.clk.held = false ∧ s.hub.tb.started = true ∧ s.hub.tb.pendSet = none ∧
      s.hub.tb.pendBreak = [] ∧ s.hub.tb.dead = false ∧ s.hub.tb.cnt < 122880000 ∧ s.hub.tb.sec < 2 ^ 32 ∧ s.hub.trg.arm = [r]) ∧
    (∃ (s : State), s.hub.powered = true ∧ s.hub.trg.arm = []) ∧
    (∃ (s : State) (p : Nat) (c : SwapCur), s.hub.powered = true ∧ s.hub.clk.held = false ∧ s.hub.tb.started = true ∧
      s.hub.tb.pendSet = none ∧ s.hub.tb.pendBreak = [] ∧ s.hub.tb.dead = false ∧ s.hub.tb.cnt < 122880000 ∧ s.hub.tb.sec < 2 ^ 32 ∧
      (s.hub.flt.swap.get p).cur = some c ∧ c.started = false ∧ (s.hub.flt.swap.get p).pend = none ∧ p < 32) ∧
    (∃ (s : State), s.hub.powered = true ∧ (s.hub.flt.swap.any fun x => x.2.cur.any fun c => !c.started) = false) ∧
    (∃ (s : State), s.hub.powered = true ∧ s.hub.clk.held = false ∧ s.hub.tb.started = true ∧ s.hub.tb.pendSet = none ∧
      s.hub.tb.pendBreak = [] ∧ s.hub.tb.dead = false ∧ s.hub.tb.cnt < 122880000 ∧ s.hub.tb.sec < 2 ^ 32 ∧
      (s.hub.flt.ch.any fun x => x.2.parReq.isSome) = true) ∧
    (∃ (s : State), s.hub.powered = true ∧ (s.hub.flt.ch.any fun x => x.2.parReq.isSome) = false) ∧
    (∃ (s : State), s.hub.powered = true ∧ s.hub.clk.held = false ∧ s.hub.tb.started = true ∧ s.hub.tb.pendSet = none ∧
      s.hub.tb.pendBreak = [] ∧ s.hub.tb.dead = false ∧ s.hub.tb.cnt < 122880000 ∧ s.hub.tb.sec < 2 ^ 32 ∧ s.hub.jrn.descReq ≠ []) ∧
    (∃ (s : State), s.hub.powered = true ∧ s.hub.jrn.descReq = []) ∧
    (∃ (s : State) (b : BlockReset), s.hub.powered = true ∧ s.hub.clk.held = false ∧ s.hub.tb.started = true ∧ s.hub.tb.pendSet = none ∧
      s.hub.tb.pendBreak = [] ∧ s.hub.tb.dead = false ∧ s.hub.tb.cnt < 122880000 ∧ s.hub.tb.sec < 2 ^ 32 ∧ s.hub.sys.blockReset = some b ∧
      b.began = none) ∧
    (∃ (s : State), s.hub.powered = true ∧ s.hub.sys.blockReset = none) :=
  ⟨⟨onRun, by decide⟩,
   ⟨onHeld, by decide⟩,
   ⟨on, by decide⟩,
   ⟨on, by decide⟩,
   ⟨onSync, by decide⟩,
   ⟨on, by decide⟩,
   ⟨onStart, by decide⟩,
   ⟨on, by decide⟩,
   ⟨onArmReq, armReq, by decide⟩,
   ⟨on, by decide⟩,
   ⟨onSwap0, 2, swap0, by decide⟩,
   ⟨on, by decide⟩,
   ⟨onPar, by decide⟩,
   ⟨on, by decide⟩,
   ⟨onDesc, by decide⟩,
   ⟨on, by decide⟩,
   ⟨onBlock, blk, by decide⟩,
   ⟨on, by decide⟩⟩

/-- States and operands that meet the hypotheses of each clause of Obligations.EpochRows. -/
theorem witness_EpochRows :
    (∃ (s : State) (b : PendBreak), s.hub.powered = true ∧ s.hub.clk.held = false ∧ s.hub.tb.started = true ∧ s.hub.tb.cnt < 122880000 ∧
      s.hub.tb.sec < 2 ^ 32 ∧ s.hub.tb.pendSet = none ∧ s.hub.tb.pendBreak = [b] ∧ b.epoch = none ∧ b.kind = 1 ∧ s.hub.tb.epoch < 65536) ∧
    (∃ (s : State) (q : PendSet), s.hub.powered = true ∧ s.hub.clk.held = false ∧ s.hub.tb.started = true ∧ s.hub.tb.cnt < 122880000 ∧
      s.hub.tb.sec < 2 ^ 32 ∧ s.hub.tb.pendSet = some q ∧ q.seconds < 2 ^ 32 ∧ q.strobe < 8000 ∧ s.hub.tb.epoch < 65536) :=
  ⟨⟨onBreak, pb, by decide⟩,
   ⟨onSet, ps, by decide⟩⟩

/-- States and operands that meet the hypotheses of each clause of Obligations.TimebaseRows. -/
theorem witness_TimebaseRows :
    (∃ (s : State) (v : TimeSrc) (n : Nat), s.hub.powered = true ∧ s.hub.tb.cand.find? (fun c => s.hub.srcOk c.1 && decide (c.2 +
      s.hub.tb.use.holdoff * 49152000 ≤ s.hub.xoCycles)) = some (v, n)) ∧
    (∃ (s : State), s.hub.powered = true ∧ s.hub.tb.cand = []) ∧
    (∃ (s : State) (n : Nat) (u : Option Nat), s.hub.powered = true ∧ s.hub.clk.held = false ∧ s.hub.tb.lastMap = some (n, u) ∧
      n + s.hub.tb.use.mapPeriod * 49152000 ≤ s.hub.xoCycles) ∧
    (∃ (s : State), s.hub.powered = true ∧ s.hub.tb.lastMap = none) ∧
    (∃ (s : State) (n : Nat) (u : Option Nat), s.hub.powered = true ∧ s.hub.clk.held = false ∧ s.hub.tb.lastMap = some (n, u) ∧
      uncChanged u s.hub.unc = true) ∧
    (∃ (s : State) (n : Nat), s.hub.powered = true ∧ s.hub.tb.lastMap = some (n, s.hub.unc)) ∧
    (∃ (s : State) (n : Fin 8) (r : T64), s.hub.powered = true ∧ s.hub.clk.held = false ∧ bit (s.hub.tb.cmp.get n).ctrl 0 = true ∧
      s.hub.cmpReading (fld (s.hub.tb.cmp.get n).ctrl 3 2) = some r ∧ tLe (s.hub.tb.cmp.get n).target r = true) ∧
    (∃ (s : State) (n : Fin 8), s.hub.powered = true ∧ bit (s.hub.tb.cmp.get n).ctrl 0 = false) ∧
    (∃ (s : State) (r : T64) (l : T64), s.hub.powered = true ∧ s.hub.cfg.tb.ppsOut.enable = true ∧
      s.hub.cmpReading s.hub.cfg.tb.ppsOut.tb = some r ∧ s.hub.tb.ppsLast = some l ∧ tLt l (ppsEdge s.hub.cfg.tb.ppsOut.offset r) = true ∧
      (s.hub.clk.held = false ∨ s.hub.cfg.tb.ppsOut.tb = 2)) ∧
    (∃ (s : State), s.hub.powered = true ∧ s.hub.cfg.tb.ppsOut.enable = false) ∧
    (∃ (s : State) (n : Nat), s.hub.powered = true ∧ s.hub.tb.ppsPin = some n ∧ n * 1000 + s.hub.cfg.tb.ppsOut.width * 49152 * 2 ^ 40 ≤
      s.hub.tb.xo * 1000) ∧
    (∃ (s : State), s.hub.powered = true ∧ s.hub.tb.ppsPin = none) ∧
    (∃ (s : State) (falling : Bool) (e : Machine.LineEdge) (p : PendRef) (l : List PendRef), s.hub.powered = true ∧ s.hub.clk.held = false ∧
      s.hub.tiu.calAll = false ∧ s.hub.tiu.lost = [] ∧ s.hub.tiu.fifo < 512 ∧ s.hub.tiu.lastEdge.get 8 = none ∧ e.drained = 0 ∧
      falling = s.hub.cfg.tb.ppsFalling ∧ s.hub.tb.pendRef = p :: l) ∧
    (∃ (s : State) (falling : Bool), s.hub.powered = true ∧ (s.hub.clk.held = true ∨ falling ≠ s.hub.cfg.tb.ppsFalling)) ∧
    (∃ (s : State), s.hub.powered = true) :=
  ⟨⟨onCand, .net, 0, by decide⟩,
   ⟨on, by decide⟩,
   ⟨onMap, 0, none, by decide⟩,
   ⟨on, by decide⟩,
   ⟨onMap2, 0, (some 5), by decide⟩,
   ⟨onMap3, 0, by decide⟩,
   ⟨onCmp, 2, 0, by decide⟩,
   ⟨on, 2, by decide⟩,
   ⟨onPps, 0x100000000, 0, by decide⟩,
   ⟨on, by decide⟩,
   ⟨onPulse, 0, by decide⟩,
   ⟨on, by decide⟩,
   ⟨onRef, false, { tap := 0, drained := 0 }, pr, [], by decide⟩,
   ⟨on, true, by decide⟩,
   ⟨on, by decide⟩⟩

/-- States and operands that meet the hypotheses of each clause of Obligations.PtpRows. -/
theorem witness_PtpRows :
    (∃ (s : State) (p : Fin 2) (head : Machine.PtpHead) (twoStep : Bool), s.hub.powered = true ∧ s.hub.ptpAccept p head = (s.hub, true) ∧
      s.hub.clk.held = false ∧ (s.hub.port p).ptp.master = some (head.sender, head.portNo) ∧ twoStep = true) ∧
    (∃ (s : State) (p : Fin 2) (head : Machine.PtpHead) (twoStep : Bool), s.hub.powered = true ∧ s.hub.ptpAccept p head = (s.hub, true) ∧
      s.hub.clk.held = false ∧ (s.hub.port p).ptp.master = some (head.sender, head.portNo) ∧ twoStep = false ∧
      (s.hub.port p).ptp.servo = .suspect) ∧
    (∃ (s : State) (p : Fin 2) (head : Machine.PtpHead), s.hub.powered = true ∧ s.hub.net.active = some p.val ∧
      (s.hub.portCfg p).ptp.enable = true ∧ s.hub.clk.held = false ∧ (s.hub.port p).link = true ∧
      head.domain ≠ (s.hub.portCfg p).ptp.domain) ∧
    (∃ (s : State) (p : Fin 2) (head : Machine.PtpHead) (seq : Nat) (t2 : Int) (c : Int), s.hub.powered = true ∧
      s.hub.ptpAccept p head = (s.hub, true) ∧ s.hub.clk.held = false ∧ (s.hub.port p).ptp.master = some (head.sender, head.portNo) ∧
      (s.hub.port p).ptp.sync = some (seq, t2, c) ∧ (s.hub.port p).ptp.servo = .suspect) ∧
    (∃ (s : State) (p : Fin 2) (head : Machine.PtpHead), s.hub.powered = true ∧ s.hub.ptpAccept p head = (s.hub, true) ∧
      (s.hub.port p).ptp.sync = none) ∧
    (∃ (s : State) (p : Fin 2) (head : Machine.PtpHead) (seq : Nat) (r : DelReq) (a1 : Int) (a2 : Int) (c : Int), s.hub.powered = true ∧
      s.hub.ptpAccept p head = (s.hub, true) ∧ s.hub.clk.held = false ∧ (s.hub.port p).ptp.master = some (head.sender, head.portNo) ∧
      (s.hub.port p).ptp.req = some r ∧ r.seq = seq ∧ (s.hub.port p).ptp.lastSync = some (a1, a2, c) ∧ (s.hub.portCfg p).ptp.p2p = false ∧
      (s.hub.port p).ptp.servo = .acquiring) ∧
    (∃ (s : State) (p : Fin 2) (head : Machine.PtpHead), s.hub.powered = true ∧ s.hub.ptpAccept p head = (s.hub, true) ∧
      (s.hub.port p).ptp.masters = []) ∧
    (∃ (s : State) (p : Fin 2) (head : Machine.PtpHead) (ann : Machine.Announce) (o : Heard), s.hub.powered = true ∧
      s.hub.ptpAccept p head = (s.hub, true) ∧ (s.hub.port p).ptp.masters = [o] ∧ o.ann.id = head.sender ∧ o.ann.port = head.portNo ∧
      ann.steps < 255 ∧ s.hub.xoCycles ≤ o.at_ + intervalXo 4 (s.hub.annLog p { ann := { ann with id := head.sender, port := head.portNo },
                                                                                at_ := s.hub.xoCycles, prev := some o.at_,
                                                                                logInt := head.logInt }) ∧
      (s.hub.port p).ptp.master ≠ some (head.sender, head.portNo)) ∧
    (∃ (s : State) (p : Fin 2) (head : Machine.PtpHead), s.hub.powered = true ∧ s.hub.ptpAccept p head = (s.hub, true) ∧
      s.hub.clk.held = false ∧ (s.hub.portCfg p).ptp.p2p = true ∧ s.hub.guardBlocks p (s.hub.ptpLen p 3) = false) ∧
    (∃ (s : State) (p : Fin 2) (head : Machine.PtpHead), s.hub.powered = true ∧ s.hub.ptpAccept p head = (s.hub, true) ∧
      s.hub.clk.held = false ∧ (s.hub.portCfg p).ptp.p2p = true ∧ s.hub.guardBlocks p (s.hub.ptpLen p 3) = true) ∧
    (∃ (s : State) (p : Fin 2) (head : Machine.PtpHead), s.hub.powered = true ∧ s.hub.ptpAccept p head = (s.hub, true) ∧
      (s.hub.portCfg p).ptp.p2p = false) ∧
    (∃ (s : State) (p : Fin 2) (head : Machine.PtpHead) (seq : Nat) (followUp : Bool) (twoStep : Bool) (r : DelReq), s.hub.powered = true ∧
      s.hub.ptpAccept p head = (s.hub, true) ∧ s.hub.clk.held = false ∧ (s.hub.portCfg p).ptp.p2p = true ∧ followUp = false ∧
      twoStep = true ∧ (s.hub.port p).ptp.req = some r ∧ r.seq = seq) ∧
    (∃ (s : State) (p : Fin 2) (head : Machine.PtpHead) (seq : Nat) (followUp : Bool) (r : DelReq) (a4 : Int) (a2 : Int) (c : Int),
      s.hub.powered = true ∧ s.hub.ptpAccept p head = (s.hub, true) ∧ s.hub.clk.held = false ∧ (s.hub.portCfg p).ptp.p2p = true ∧
      followUp = true ∧ (s.hub.port p).ptp.req = some r ∧ r.seq = seq ∧ (s.hub.port p).ptp.pResp = some (seq, a4, a2, c) ∧
      (s.hub.port p).ptp.servo = .acquiring) ∧
    (∃ (s : State) (p : Fin 2), s.hub.powered = true ∧ s.hub.net.active = some p.val ∧ (s.hub.portCfg p).ptp.enable = true ∧
      s.hub.clk.held = false ∧ (s.hub.port p).link = true ∧ ((s.hub.portCfg p).ptp.p2p = true ∨ (s.hub.port p).ptp.master.isSome = true) ∧
      (∀ a, (s.hub.port p).ptp.reqAt = some a → a + intervalXo 1 (s.hub.portCfg p).ptp.logDelay ≤ s.hub.xoCycles) ∧
      s.hub.guardBlocks p (s.hub.msgLen p .request) = false) ∧
    (∃ (s : State) (p : Fin 2), s.hub.powered = true ∧ s.hub.net.active = some p.val ∧ (s.hub.portCfg p).ptp.enable = true) ∧
    (∃ (s : State), s.hub.powered = true ∧ s.hub.net.active = none) :=
  ⟨⟨onPtp, 0, hd, true, by decide⟩,
   ⟨onPtpSus, 0, hd, false, by decide⟩,
   ⟨onPtp, 0, { hd with domain := 9 }, by decide⟩,
   ⟨onPtpSus, 0, hd, 1, 5, 0, by decide⟩,
   ⟨onPtp, 0, hd, by decide⟩,
   ⟨onPtp, 0, hd, 3, { seq := 3, t3 := 4 }, 1, 5, 0, by decide⟩,
   ⟨onPtp, 0, hd, by decide⟩,
   ⟨onHeard, 0, { hd with sender := 9 }, an, heard9, by decide⟩,
   ⟨onP2p, 0, hd, by decide⟩,
   ⟨onP2pLaunch, 0, hd, by decide⟩,
   ⟨onPtp, 0, hd, by decide⟩,
   ⟨onP2p, 0, hd, 3, false, true, { seq := 3, t3 := 4 }, by decide⟩,
   ⟨onP2p, 0, hd, 3, true, { seq := 3, t3 := 4 }, 8, 6, 0, by decide⟩,
   ⟨onPtp, 0, by decide⟩,
   ⟨onPtp, 0, by decide⟩,
   ⟨on, by decide⟩⟩

/-- States and operands that meet the hypotheses of each clause of Obligations.ServoRows. -/
theorem witness_ServoRows :
    (∃ (s : State) (p : Fin 2) (announce : Bool), s.hub.powered = true ∧ s.hub.net.active = some p.val ∧
      (s.hub.portCfg p).ptp.enable = true ∧ s.hub.clk.held = false ∧ (announce = true → s.hub.announceOut p = true) ∧ (announce = false →
      (s.hub.port p).ptp.syncAt + intervalXo 4 (s.hub.port p).ptp.syncLog ≤ s.hub.xoCycles) ∧ ((s.hub.port p).ptp.servo = .locked ∨
      (s.hub.port p).ptp.servo = .acquiring)) ∧
    (∃ (s : State) (p : Fin 2), s.hub.powered = true ∧ (s.hub.net.active ≠ some p.val ∨ (s.hub.portCfg p).ptp.enable = false ∨
      s.hub.clk.held = true)) ∧
    (∃ (s : State) (p : Nat), s.hub.powered = true ∧ s.hub.net.active = some p ∧ (s.hub.port p).ptp.servo = .qualHold ∧
      (s.hub.port p).ptp.noWindow = false ∧ s.hub.clk.held = false ∧ (s.hub.port p).ptp.winAt + 49152000 ≤ s.hub.xoCycles ∧
      s.hub.tb.qPps = false ∧ s.hub.tb.qCasc = false) ∧
    (∃ (s : State) (p : Nat) (q : Int) (z : Int), s.hub.powered = true ∧ s.hub.net.active = some p ∧ (s.hub.port p).ptp.servo = .qualHold ∧
      (s.hub.port p).ptp.noWindow = false ∧ s.hub.clk.held = false ∧ (s.hub.port p).ptp.winAt + 49152000 ≤ s.hub.xoCycles ∧
      s.hub.tb.qPps = true ∧ (s.hub.port p).ptp.qPre.1 = some q ∧ (s.hub.port p).ptp.secO ≠ [] ∧ (s.hub.port p).ptp.secQ = [(false, z)] ∧
      overNs (z - q) (s.hub.portCfg p).ptp.rrAgree = false ∧ (s.hub.port p).ptp.winSecs + 1 < (s.hub.portCfg p).ptp.rrConfirm) ∧
    (∃ (s : State), s.hub.powered = true ∧ (s.hub.net.active = none ∨ ∃ p, s.hub.net.active = some p ∧
      (s.hub.port p).ptp.servo ≠ .qualHold)) ∧
    (∃ (s : State) (p : Nat), s.hub.powered = true ∧ s.hub.net.active = some p ∧ (s.hub.port p).ptp.servo = .qualHold ∧
      (s.hub.port p).ptp.holdSince + (s.hub.portCfg p).ptp.rrHold * 49152000 ≤ s.hub.xoCycles ∧ ((s.hub.port p).ptp.noWindow = true ∨
      (s.hub.tb.qPps = false ∧ s.hub.tb.qCasc = false))) ∧
    (∃ (s : State), s.hub.powered = true ∧ s.hub.net.active = none) ∧
    (∃ (s : State) (ago : T64) (p : Nat) (f : OutFrame) (r : List OutFrame), s.hub.powered = true ∧ s.hub.clk.held = false ∧
      s.hub.net.active = some p ∧ (s.hub.port p).link = true ∧ s.hub.guardBroken p ago = false ∧
      (s.hub.port p).defer.any PortMsg.event = false ∧ s.hub.net.queue = f :: r ∧ (f.ts = false ∨ (s.hub.port p).txts.length < 16)) ∧
    (∃ (s : State), s.hub.powered = true ∧ (s.hub.net.queue = [] ∨ s.hub.clk.held = true)) ∧
    (∃ (s : State) (p : Nat) (l : Launch), s.hub.powered = true ∧ s.hub.clk.held = false ∧ s.hub.net.active = some p ∧
      s.hub.launchNext p = some l ∧ s.hub.launchLeft l ≤ (fr 12304 1000000000).t) ∧
    (∃ (s : State), s.hub.powered = true ∧ (s.hub.net.active = none ∨ s.hub.clk.held = true)) ∧
    (∃ (s : State) (p : Nat) (l : Launch), s.hub.powered = true ∧ s.hub.clk.held = false ∧ s.hub.net.active = some p ∧
      (s.hub.port p).link = true ∧ s.hub.launchNext p = some l ∧ s.hub.launchLeft l ≤ s.hub.egressLat p ∧ (l.send = true ∨
      (s.hub.egressLat p - s.hub.launchLeft l) * 1000000000 ≤ l.tol * 2 ^ 32)) ∧
    (∃ (s : State) (p : Nat) (l : Launch), s.hub.powered = true ∧ s.hub.clk.held = false ∧ s.hub.net.active = some p ∧
      (s.hub.port p).link = true ∧ s.hub.launchNext p = some l ∧ l.send = false ∧ l.tol * 2 ^ 32 < (s.hub.egressLat p - s.hub.launchLeft l)
      * 1000000000 ∧ s.hub.launchLeft l ≤ s.hub.egressLat p) ∧
    (∃ (s : State), s.hub.powered = true ∧ (s.hub.net.active = none ∨ s.hub.clk.held = true)) :=
  ⟨⟨onPtp, 0, true, by decide⟩,
   ⟨on, 1, by decide⟩,
   ⟨onQual, 0, by decide⟩,
   ⟨onConfirm, 0, 5, 5, by decide⟩,
   ⟨onPtp, by decide⟩,
   ⟨onQual, 0, by decide⟩,
   ⟨on, by decide⟩,
   ⟨onQueue, 0, 0, sr, [], by decide⟩,
   ⟨on, by decide⟩,
   ⟨onLaunch, 0, la, by decide⟩,
   ⟨on, by decide⟩,
   ⟨onLaunch, 0, la, by decide⟩,
   ⟨onLate, 0, lb, by decide⟩,
   ⟨on, by decide⟩⟩

/-- States and operands that meet the hypotheses of each clause of Obligations.FerryRows. -/
theorem witness_FerryRows :
    (∃ (s : State) (header : List Byte), s.hub.powered = true ∧ header.length ≠ 20) ∧
    (∃ (s : State) (header : List Byte) (plain : List Byte) (cipher : List Byte), s.hub.powered = true ∧ s.hub.clk.held = false ∧
      header.length = 20 ∧ at_ header 0 2 = 0x4653 ∧ at_ header 2 1 = 1 ∧ at_ header 3 1 = 1 ∧ s.hub.ferryAuth header plain cipher = false) ∧
    (∃ (s : State) (header : List Byte) (plain : List Byte) (cipher : List Byte), s.hub.powered = true ∧ s.hub.clk.held = false ∧
      header.length = 20 ∧ at_ header 0 2 = 0x4653 ∧ at_ header 2 1 = 1 ∧ at_ header 3 1 = 1 ∧ s.hub.ferryAuth header plain cipher = true ∧
      s.hub.jrn.ferry.rxSeq.get (at_ header 8 4) ≤ at_ header 12 8) ∧
    (∃ (s : State), s.hub.powered = true ∧ s.hub.jrn.ferry.flight ≠ [] ∧ s.hub.clk.held = false ∧
      s.hub.jrn.ferry.since + (s.hub.cons 1).ackTimeout * 49152 ≤ s.hub.xoCycles) ∧
    (∃ (s : State), s.hub.powered = true ∧ (s.hub.jrn.ferry.flight = [] ∨ s.hub.clk.held = true)) ∧
    (∃ (s : State) (p : Fin 2) (head : Machine.UdpHead) (plain : List Byte) (cipher : List Byte), s.hub.powered = true ∧
      (s.hub.port p).st ≠ .off ∧ (s.hub.port p).link = true ∧ head.port = s.hub.cfg.net.verdictPort ∧
      s.hub.ferryAuth head.bytes plain cipher = false) ∧
    (∃ (s : State) (p : Fin 2) (head : Machine.UdpHead) (plain : List Byte) (cipher : List Byte), s.hub.powered = true ∧
      (s.hub.port p).st ≠ .off ∧ (s.hub.port p).link = true ∧ head.port = s.hub.cfg.net.verdictPort ∧
      s.hub.ferryAuth head.bytes plain cipher = true ∧ head.bytes.take 4 = [0x53, 0x46, 1, 2] ∧ head.bytes.length = 20 ∧ plain.length = 16 ∧
      at_ head.bytes 4 1 = 255 ∧ at_ plain 0 1 = s.hub.sys.straps.hubId ∧ 0 < diff32 (at_ plain 4 4) s.hub.net.vseq ∧
      s.hub.cfg.net.arbMode ≠ 2) ∧
    (∃ (s : State) (p : Fin 2) (head : Machine.UdpHead) (plain : List Byte) (cipher : List Byte), s.hub.powered = true ∧
      (s.hub.port p).st ≠ .off ∧ (s.hub.port p).link = true ∧ head.port = s.hub.cfg.net.verdictPort ∧
      s.hub.ferryAuth head.bytes plain cipher = true ∧ head.bytes.take 4 = [0x53, 0x46, 1, 2] ∧ head.bytes.length = 20 ∧ plain.length = 16 ∧
      at_ head.bytes 4 1 = 255 ∧ at_ plain 0 1 = s.hub.sys.straps.hubId ∧ 0 < diff32 (at_ plain 4 4) s.hub.net.vseq ∧
      s.hub.cfg.net.arbMode = 2 ∧ s.hub.clk.held = false ∧ s.hub.net.failover = none ∧ s.hub.isActive (at_ plain 1 1 % 2) = false ∧
      (s.hub.portCfg (at_ plain 1 1 % 2)).enable = true) ∧
    (∃ (s : State) (p : Fin 2) (head : Machine.UdpHead) (plain : List Byte) (cipher : List Byte), s.hub.powered = true ∧
      (s.hub.port p).st ≠ .off ∧ (s.hub.port p).link = true ∧ head.port = s.hub.cfg.net.verdictPort ∧
      s.hub.ferryAuth head.bytes plain cipher = true ∧ head.bytes.take 4 = [0x53, 0x46, 1, 2] ∧ head.bytes.length = 20 ∧ plain.length = 16 ∧
      at_ head.bytes 4 1 = 255 ∧ at_ plain 0 1 = s.hub.sys.straps.hubId ∧ 0 < diff32 (at_ plain 4 4) s.hub.net.vseq ∧
      s.hub.cfg.net.arbMode = 2 ∧ s.hub.clk.held = false ∧ s.hub.net.failover = none ∧ s.hub.isActive (at_ plain 1 1 % 2) = true) ∧
    (∃ (s : State) (p : Nat) (k : KeySlot), s.hub.powered = true ∧ s.hub.net.suspect = true ∧ s.hub.cfg.net.arbMode = 2 ∧
      (∀ a, s.hub.net.suspectAt = some a → a + 49152000 ≤ s.hub.xoCycles) ∧ s.hub.net.active = some p ∧ s.hub.ferryKey = some k ∧
      s.hub.msgWaits p (.ferry 3 16 s.hub.ferryDest [] []) = false) ∧
    (∃ (s : State), s.hub.powered = true ∧ (s.hub.net.suspect = false ∨ s.hub.cfg.net.arbMode ≠ 2)) ∧
    (∃ (s : State), s.hub.powered = true ∧ s.hub.cfg.net.arbMode ≠ 1 ∧ s.hub.clk.held = false) ∧
    (∃ (s : State), s.hub.powered = true ∧ s.hub.cfg.net.arbMode = 1 ∧ s.hub.clk.held = true) :=
  ⟨⟨on, [], by decide⟩,
   ⟨on, ackHdr, [], [], by decide⟩,
   ⟨onKey, ackHdr, [], (ferrySeal fkey ackHdr []), by decide, by decide, by decide, by decide, by decide, by decide, Hub.ferryAuth_seal onKey.hub ackHdr [] rfl rfl, by decide⟩,
   ⟨onFlight, by decide⟩,
   ⟨on, by decide⟩,
   ⟨onPtp, 0, { port := 0, bytes := [] }, [], [], by decide⟩,
   ⟨onKey, 0, { port := 0, bytes := verHdr }, verPl, (ferrySeal fkey verHdr verPl), by decide, by decide, by decide, by decide, Hub.ferryAuth_seal onKey.hub verHdr verPl rfl rfl, by decide, by decide, by decide, by decide, by decide, by decide, by decide⟩,
   ⟨onKey2, 0, { port := 0, bytes := verHdr }, verPl, (ferrySeal fkey verHdr verPl), by decide, by decide, by decide, by decide, Hub.ferryAuth_seal onKey2.hub verHdr verPl rfl rfl, by decide, by decide, by decide, by decide, by decide, by decide, by decide, by decide, by decide, by decide, by decide⟩,
   ⟨onKey2, 0, { port := 0, bytes := verHdr }, verPl0, (ferrySeal fkey verHdr verPl0), by decide, by decide, by decide, by decide, Hub.ferryAuth_seal onKey2.hub verHdr verPl0 rfl rfl, by decide, by decide, by decide, by decide, by decide, by decide, by decide, by decide, by decide, by decide⟩,
   ⟨onSusp, 0, fslot, by decide⟩,
   ⟨on, by decide⟩,
   ⟨on, by decide⟩,
   ⟨onArbHeld, by decide⟩⟩

/-- States and operands that meet the hypotheses of each clause of Obligations.PathRows. -/
theorem witness_PathRows :
    (∃ (s : State) (p : Fin 2) (up : Bool), s.hub.powered = true ∧ up = true ∧ (s.hub.clk.mon.get 4).failed = false ∧
      (s.hub.port p).link = false ∧ (s.hub.port p).st = .standby ∧ s.hub.net.active ≠ some p.val) ∧
    (∃ (s : State) (p : Fin 2) (up : Bool), s.hub.powered = true ∧ up = false ∧ (s.hub.port p).link = true ∧ (s.hub.port p).st = .standby ∧
      s.hub.net.active ≠ some p.val ∧ (∀ a, s.hub.net.active = some a → (s.hub.port a).link = true ∨ (s.hub.port a).launch = [])) ∧
    (∃ (s : State) (p : Fin 2) (up : Bool), s.hub.powered = true ∧ (s.hub.port p).link = up) ∧
    (∃ (s : State) (p : Fin 2) (v6 : Bool) (addr : List Word) (data : List Byte), s.hub.powered = true ∧ addrOk v6 addr = true ∧
      s.hub.net.active = some p.val ∧ (s.hub.port p).link = true ∧ (if v6 then s.hub.cfg.net.ipv6En = true ∧
      addr = s.hub.cfg.net.ipv6 else addr = [s.hub.cfg.net.ipv4]) ∧ s.hub.guardBlocks p (s.hub.msgLen p (.net 4 v6 ((s.hub.portCfg p).mac ++
      bytesOf addr ++ data))) = false) ∧
    (∃ (s : State) (p : Fin 2) (v6 : Bool) (addr : List Word), s.hub.powered = true ∧ addrOk v6 addr = true ∧
      (s.hub.net.active ≠ some p.val ∨ (s.hub.port p).link = false)) ∧
    (∃ (s : State) (p : Fin 2) (router : List Byte), s.hub.powered = true ∧ routerOk router = true ∧ s.hub.net.active = some p.val ∧
      s.hub.cfg.net.ipv6En = true) ∧
    (∃ (s : State) (fcs : Nat) (p : Nat) (i : Nat), s.hub.powered = true ∧ s.hub.net.active = some p ∧ s.hub.net.suspect = false ∧ i < 5 ∧
      ((s.hub.noteErrors fcs).net.causes &&& s.hub.cfg.net.suspMask).testBit i = true ∧
      (s.hub.noteErrors fcs).net.causeAt.get i + s.hub.cfg.net.suspDeb * 49152 ≤ s.hub.xoCycles) ∧
    (∃ (s : State) (fcs : Nat), s.hub.powered = true ∧ (∀ i : Nat, i < 5 →
      ((s.hub.noteErrors fcs).net.causes &&& s.hub.cfg.net.suspMask).testBit i = true →
      s.hub.xoCycles < (s.hub.noteErrors fcs).net.causeAt.get i + s.hub.cfg.net.suspDeb * 49152)) ∧
    (∃ (s : State) (fcs : Nat) (p : Nat), s.hub.powered = true ∧ s.hub.net.active = some p ∧ s.hub.net.suspect = true ∧
      (s.hub.noteErrors fcs).causeHeld = false ∧ (s.hub.noteErrors fcs).net.clearAt + s.hub.cfg.net.suspDeb * 49152 ≤ s.hub.xoCycles) ∧
    (∃ (s : State) (f : Failover), s.hub.powered = true ∧ s.hub.net.failover = some f ∧ f.active = false ∧ (s.hub.port f.dest).link = true ∧
      s.hub.guardBlocks f.dest 60 = false) ∧
    (∃ (s : State), s.hub.powered = true ∧ s.hub.net.failover = none) ∧
    (∃ (s : State) (f : Failover), s.hub.powered = true ∧ s.hub.net.failover = some f ∧ f.active = true ∧ s.hub.net.verdict = none) ∧
    (∃ (s : State), s.hub.powered = true ∧ s.hub.net.failover = none) ∧
    (∃ (s : State) (p : Fin 2), s.hub.powered = true ∧ (s.hub.portCfg p).enable = true ∧ (s.hub.port p).link = true ∧
      (s.hub.port p).st ≠ .off ∧ s.hub.net.active ≠ some p.val ∧ (∀ a, (s.hub.port p).testAt = some a →
      a + s.hub.cfg.net.selfInt * 49152000 ≤ s.hub.xoCycles)) ∧
    (∃ (s : State) (p : Fin 2), s.hub.powered = true ∧ (s.hub.port p).prbs = true ∧ s.hub.net.active ≠ some p.val) ∧
    (∃ (s : State) (p : Fin 2), s.hub.powered = true ∧ (s.hub.port p).prbs = false) ∧
    (∃ (s : State) (p : Fin 2) (seq : Nat) (n : Nat), s.hub.powered = true ∧ s.hub.net.active = some p.val ∧
      (s.hub.port p).echoAt = some n ∧ seq = (s.hub.port p).echoSeq ∧ (s.hub.xoCycles - n) * 1000000 / 49152000 ≤ s.hub.cfg.net.echoTo *
      1000) ∧
    (∃ (s : State) (p : Fin 2), s.hub.powered = true ∧ (s.hub.port p).echoAt = none) ∧
    (∃ (s : State) (p : Fin 2) (n : Nat), s.hub.powered = true ∧ s.hub.net.active = some p.val ∧ (s.hub.port p).echoAt = some n ∧
      n + s.hub.cfg.net.echoTo * 49152 ≤ s.hub.xoCycles) ∧
    (∃ (s : State) (p : Fin 2), s.hub.powered = true ∧ (s.hub.port p).echoAt = none ∧ (s.hub.port p).resolve = none) ∧
    (∃ (s : State) (p : Fin 2), s.hub.powered = true ∧ (s.hub.port p).resolve.isSome = true ∧
      s.hub.guardBlocks p (if s.hub.cfg.net.echoV6 then 86 else 60) = false ∧ (s.hub.port p).link = true ∧ (s.hub.port p).st ≠ .off) ∧
    (∃ (s : State) (p : Nat), s.hub.powered = true ∧ s.hub.net.active = some p ∧ (s.hub.port p).ptp.servo = .locked ∧
      s.hub.net.suspect = false ∧ (∀ z, s.hub.net.snap = some z → z.at_ + 49152000 ≤ s.hub.xoCycles)) ∧
    (∃ (s : State), s.hub.powered = true ∧ (s.hub.net.active = none ∨ s.hub.net.suspect = true)) ∧
    (∃ (s : State) (p : Fin 2), s.hub.powered = true ∧ (s.hub.port p).st ≠ .off ∧ (∀ a, (s.hub.port p).healthAt = some a →
      a + s.hub.cfg.net.healthInt * 49152000 ≤ s.hub.xoCycles)) ∧
    (∃ (s : State) (p : Fin 2), s.hub.powered = true ∧ (s.hub.port p).st = .off) :=
  ⟨⟨onStandby, 1, true, by decide⟩,
   ⟨onStandbyUp, 1, false, by decide⟩,
   ⟨on, 0, false, by decide⟩,
   ⟨onPtp, 0, false, [0], [], by decide⟩,
   ⟨on, 0, false, [0], by decide⟩,
   ⟨onV6, 0, (List.replicate 16 1), by decide⟩,
   ⟨onCause, 0, 0, 0, by decide⟩,
   ⟨on, 0, by decide⟩,
   ⟨onSusp, 0, 0, by decide⟩,
   ⟨onFail, fo, by decide⟩,
   ⟨on, by decide⟩,
   ⟨onFail2, { fo with active := true }, by decide⟩,
   ⟨on, by decide⟩,
   ⟨onStandbyUp, 1, by decide⟩,
   ⟨onPrbs, 1, by decide⟩,
   ⟨on, 1, by decide⟩,
   ⟨onEcho, 0, 0, 0, by decide⟩,
   ⟨on, 0, by decide⟩,
   ⟨onEchoLate, 0, 0, by decide⟩,
   ⟨on, 0, by decide⟩,
   ⟨onResolve, 0, by decide⟩,
   ⟨onLocked, 0, by decide⟩,
   ⟨on, by decide⟩,
   ⟨onPtp, 0, by decide⟩,
   ⟨on, 0, by decide⟩⟩

/-- States and operands that meet the hypotheses of each clause of Obligations.TiuRows. -/
theorem witness_TiuRows :
    (∃ (s : State) (i : Fin 8) (falling : Bool) (drained : Nat), s.hub.powered = true ∧ s.hub.clk.held = false ∧ s.hub.tiu.calAll = false ∧
      (s.hub.tiuIn i).mode ≠ 0 ∧ i.val ∉ s.hub.tiu.lost ∧ ((s.hub.tiuIn i).edge = 2 ∨ ((s.hub.tiuIn i).edge == 1) = falling) ∧
      s.hub.tiu.lastEdge.get i = none ∧ s.hub.tiu.lastPulse.get i = none ∧ (s.hub.tiuIn i).presc = 0 ∧ s.hub.tiu.fifo - drained < 448) ∧
    (∃ (s : State) (i : Fin 8) (falling : Bool) (drained : Nat), s.hub.powered = true ∧ s.hub.clk.held = false ∧ s.hub.tiu.calAll = false ∧
      (s.hub.tiuIn i).mode ≠ 0 ∧ i.val ∉ s.hub.tiu.lost ∧ ((s.hub.tiuIn i).edge = 2 ∨ ((s.hub.tiuIn i).edge == 1) = falling) ∧
      s.hub.tiu.lastEdge.get i = none ∧ s.hub.tiu.lastPulse.get i = none ∧ (s.hub.tiuIn i).presc = 0 ∧ (s.hub.tiuIn i).mode ≠ 3 ∧
      448 ≤ s.hub.tiu.fifo - drained ∧ s.hub.tiu.overflowRaised = false) ∧
    (∃ (s : State) (i : Fin 8), s.hub.powered = true ∧ ((s.hub.tiuIn i).mode = 0 ∨ s.hub.clk.held = true)) ∧
    (∃ (s : State) (u : Fin 8) (z : Stamp), s.hub.powered = true ∧ s.hub.tiu.held.get u = some z ∧
      (s.hub.tiuUnit u).winMax * 2 ^ 40 ≤ (cyc40 s.hub.tb.cycles - z.free) * 1000000000) ∧
    (∃ (s : State) (u : Fin 8), s.hub.powered = true ∧ s.hub.tiu.held.get u = none) ∧
    (∃ (s : State) (i : Fin 8) (g : Gate), s.hub.powered = true ∧ s.hub.tiu.gates.find? (fun x => x.input == i.val && decide (x.cyc + x.ms *
      122880 ≤ s.hub.tb.cycles)) = some g ∧ (∀ x ∈ s.hub.tiu.gates, x.land = false)) ∧
    (∃ (s : State), s.hub.powered = true ∧ s.hub.tiu.gates = []) ∧
    (∃ (s : State), s.hub.powered = true ∧ s.hub.clk.held = false ∧ s.hub.tiu.calAll = false ∧ s.hub.tiu.noSpare = false ∧
      s.hub.tiu.handover = none ∧ s.hub.tiu.calLine = none ∧ (∀ k : Nat, k < 10 → s.hub.tiuLine k ≠ 10) ∧
      s.hub.passed s.hub.tiu.calAt (s.hub.tiu.calUse * 4915200) = true) ∧
    (∃ (s : State), s.hub.powered = true ∧ (s.hub.clk.held = true ∨ s.hub.tiu.noSpare = true ∨ s.hub.tiu.handover.isSome = true)) ∧
    (∃ (s : State) (pairs : List Machine.PairedStamp) (k : Nat) (back : Bool), s.hub.powered = true ∧ s.hub.clk.held = false ∧
      s.hub.tiu.handover = some (k, back) ∧ (pairs.length < 1024 → s.hub.tiu.handoverAt + 49152 ≤ s.hub.xoCycles)) ∧
    (∃ (s : State) (pairs : List Machine.PairedStamp), s.hub.powered = true ∧ pairs.length < 1024 ∧
      s.hub.xoCycles < s.hub.tiu.handoverAt + 49152) ∧
    (∃ (s : State), s.hub.powered = true ∧ (s.hub.clk.held = true ∨ s.hub.tiu.handover = none)) ∧
    (∃ (s : State) (hits : List (List Nat)) (k : Nat), s.hub.powered = true ∧ s.hub.clk.held = false ∧ s.hub.tiu.calAll = false ∧
      s.hub.tiu.calLine = some k ∧ lineGood (hits.headD []) = true) ∧
    (∃ (s : State) (hits : List (List Nat)) (k : Nat), s.hub.powered = true ∧ s.hub.clk.held = false ∧ s.hub.tiu.calAll = false ∧
      s.hub.tiu.calLine = some k ∧ lineGood (hits.headD []) = false ∧ k ≠ 10 ∧ s.hub.tiu.noSpare = true) ∧
    (∃ (s : State) (hits : List (List Nat)), s.hub.powered = true ∧ s.hub.clk.held = false ∧ s.hub.tiu.calAll = true ∧
      s.hub.tiu.failed = [] ∧ (∀ l : Nat, l < 11 → lineGood (hits.getD l []) = true)) ∧
    (∃ (s : State) (i : Fin 8) (x : Nat × T64 × Bool), s.hub.powered = true ∧ s.hub.tiu.tach.find? (·.1 == i.val) = some x) ∧
    (∃ (s : State) (i : Fin 8), s.hub.powered = true ∧ (∀ x ∈ s.hub.tiu.tach, x.1 ≠ i.val)) :=
  ⟨⟨onTiu, 0, false, 0, by decide⟩,
   ⟨onFull, 0, false, 0, by decide⟩,
   ⟨on, 0, by decide⟩,
   ⟨onUnit, 1, stp, by decide⟩,
   ⟨on, 1, by decide⟩,
   ⟨onGateTiu, 1, gt, by decide⟩,
   ⟨on, by decide⟩,
   ⟨onTiu, by decide⟩,
   ⟨onHeld, by decide⟩,
   ⟨onHand, [], 3, false, by decide⟩,
   ⟨onHandYoung, [], by decide⟩,
   ⟨on, by decide⟩,
   ⟨onCalLine, [goodTaps], 3, by decide +kernel⟩,
   ⟨onCalLost, [], 3, by decide⟩,
   ⟨onCalAll, (List.replicate 11 goodTaps), by decide +kernel⟩,
   ⟨onTach, 2, (2, 5, false), by decide⟩,
   ⟨on, 2, by decide⟩⟩

/-- States and operands that meet the hypotheses of each clause of Obligations.FrontEndRows. -/
theorem witness_FrontEndRows :
    (∃ (s : State) (ch : Fin 64), s.hub.powered = true ∧ s.hub.clk.held = false ∧ (s.hub.fault ch).inFault = false) ∧
    (∃ (s : State) (ch : Fin 64), s.hub.powered = true ∧ ((s.hub.fault ch).inFault = true ∨ s.hub.clk.held = true)) ∧
    (∃ (s : State) (ch : Fin 64), s.hub.powered = true ∧ s.hub.clk.held = false ∧ (s.hub.fault ch).inFault = true) ∧
    (∃ (s : State) (ch : Fin 64), s.hub.powered = true ∧ s.hub.clk.held = false ∧ (s.hub.fault ch).inFault = false) ∧
    (∃ (s : State) (m : Fin 8) (e : Fin 9) (first : List Int) (second : List Int) (x : ScanEntry), s.hub.powered = true ∧
      s.hub.clk.held = false ∧ halvesOk first second = true ∧ e.val < 8 ∧ (s.hub.scanCfg m).div ≠ 0 ∧
      (s.hub.scanCfg m).list[e.val]? = some x ∧ s.hub.scanPeriodNo m % 2 ^ x.divSel = 0 ∧ s.hub.fe.period.get m ≤ s.hub.scanPeriodNo m ∧
      (s.hub.chain (64 + 8 * m.val + x.pos)).running = true ∧ (s.hub.chain (64 + 8 * m.val + x.pos)).nextIn ≤ s.hub.scanPeriodNo m / 2 ^
      x.divSel) ∧
    (∃ (s : State) (m : Fin 8) (first : List Int) (second : List Int), s.hub.powered = true ∧ halvesOk first second = true ∧
      (s.hub.clk.held = true ∨ (s.hub.scanCfg m).div = 0)) ∧
    (∃ (s : State) (x : Fin 8), s.hub.powered = true ∧ s.hub.clk.held = false ∧ (s.hub.fe.exc.get x).drive.mode = 1 ∧
      (s.hub.fe.exc.get x).overload = false) ∧
    (∃ (s : State) (x : Fin 8), s.hub.powered = true ∧ s.hub.clk.held = false ∧ (s.hub.fe.exc.get x).drive.mode = 2 ∧
      (s.hub.fe.exc.get x).compliance = false) ∧
    (∃ (s : State) (x : Fin 8), s.hub.powered = true ∧ (s.hub.fe.exc.get x).drive.mode = 0) ∧
    (∃ (s : State) (x : Fin 8), s.hub.powered = true ∧ s.hub.clk.held = false ∧ (s.hub.fe.exc.get x).overload = true) ∧
    (∃ (s : State) (x : Fin 8), s.hub.powered = true ∧ (s.hub.fe.exc.get x).overload = false ∧ (s.hub.fe.exc.get x).compliance = false) ∧
    (∃ (s : State) (x : Fin 8) (r : ExcCfg × Nat × Nat), s.hub.powered = true ∧ s.hub.clk.held = false ∧ s.hub.visitBound x = false ∧
      (s.hub.fe.exc.get x).pending.getLast? = some r ∧ (∀ q ∈ (s.hub.fe.exc.get x).pending, q.2.2 < s.hub.tb.strobes)) ∧
    (∃ (s : State) (x : Fin 8), s.hub.powered = true ∧ (s.hub.fe.exc.get x).pending = []) :=
  ⟨⟨on, 3, by decide⟩,
   ⟨onHeld, 3, by decide⟩,
   ⟨onFault, 3, by decide⟩,
   ⟨on, 3, by decide⟩,
   ⟨onScan, 0, 0, half, half, sce, by decide⟩,
   ⟨on, 0, half, half, by decide⟩,
   ⟨onExc, 0, by decide⟩,
   ⟨onExc2, 0, by decide⟩,
   ⟨on, 0, by decide⟩,
   ⟨onOver, 0, by decide⟩,
   ⟨on, 0, by decide⟩,
   ⟨onSwitchExc, 0, excReq, by decide⟩,
   ⟨on, 0, by decide⟩⟩

/-- States and operands that meet the hypotheses of each clause of Obligations.CalibrationRows. -/
theorem witness_CalibrationRows :
    (∃ (s : State) (temps : List Int), s.hub.powered = true ∧ s.hub.clk.held = false ∧ nineSensors temps = true) ∧
    (∃ (s : State) (g : Fin 8), s.hub.powered = true ∧ 0 < (s.hub.cfg.cal.groups.get g).maxInt ∧
      (s.hub.calGrp g).lastStart + (s.hub.cfg.cal.groups.get g).maxInt * 49152000 ≤ s.hub.xoCycles ∧ s.hub.cal.run = none ∧
      s.hub.cfg.cal.ref.isSome = true ∧ (∀ q ∈ s.hub.cal.pending, q.1 ≠ g.val) ∧ (s.hub.calGrp g).block = [] ∧ s.hub.calSuspended g = false) ∧
    (∃ (s : State) (g : Fin 8), s.hub.powered = true ∧ ((s.hub.cfg.cal.groups.get g).maxInt = 0 ∨ s.hub.cfg.cal.ref = none)) ∧
    (∃ (s : State) (refOk : Bool) (g : Nat) (k : Nat) (v : Nat) (b : Nat), s.hub.powered = true ∧ s.hub.clk.held = false ∧ refOk = true ∧
      s.hub.cal.run = none ∧ s.hub.calHead = some (g, k) ∧ s.hub.cfg.cal.ref = some (v, b) ∧ s.hub.calSuspended g = false) ∧
    (∃ (s : State) (refOk : Bool) (g : Nat) (k : Nat) (v : Nat) (b : Nat), s.hub.powered = true ∧ s.hub.clk.held = false ∧ refOk = false ∧
      s.hub.cal.run = none ∧ s.hub.cal.cmds = [] ∧ s.hub.calHead = some (g, k) ∧ s.hub.cfg.cal.ref = some (v, b) ∧
      s.hub.calSuspended g = false) ∧
    (∃ (s : State), s.hub.powered = true ∧ (s.hub.clk.held = true ∨ (s.hub.cal.run = none ∧ s.hub.cal.pending = [] ∧ s.hub.calHead = none))) ∧
    (∃ (s : State) (zero : List Int) (plus : List Int) (minus : List Int) (r : CalRun) (a : List Int) (b : List Int) (c : List Int),
      s.hub.powered = true ∧ s.hub.clk.held = false ∧ s.hub.cal.run = some r ∧ r.phase = .spare ∧ s.hub.calLevels r = true ∧
      levelCodes r.cfg.avg zero = some a ∧ levelCodes r.cfg.avg plus = some b ∧ levelCodes r.cfg.avg minus = some c) ∧
    (∃ (s : State) (zero : List Int) (plus : List Int) (minus : List Int) (ovrZero : Bool) (ovrVc : Bool) (r : CalRun) (a : List Int) (b :
      List Int) (c : List Int), s.hub.powered = true ∧ s.hub.clk.held = false ∧ s.hub.cal.run = some r ∧ r.phase = .spare ∧
      s.hub.calLevels r = true ∧ levelCodes r.cfg.avg zero = some a ∧ levelCodes r.cfg.avg plus = some b ∧
      levelCodes r.cfg.avg minus = some c ∧ (ovrZero || ovrVc) = true) ∧
    (∃ (s : State), s.hub.powered = true ∧ s.hub.cal.run = none) ∧
    (∃ (s : State) (ch : Fin 64) (x : Ramp), s.hub.powered = true ∧ s.hub.clk.held = false ∧ s.hub.cal.ramp.get ch = some x ∧
      s.hub.carriesX ch = false ∧ x.since + 40 * x.every ≤ s.hub.tb.cycles ∧ ((s.hub.trimOf ch).off + 1 < x.target.off ∨
      x.target.off + 1 < (s.hub.trimOf ch).off)) ∧
    (∃ (s : State) (ch : Fin 64), s.hub.powered = true ∧ s.hub.cal.ramp.get ch = none) :=
  ⟨⟨on, (List.replicate 9 400), by decide⟩,
   ⟨onMaxInt, 0, by decide⟩,
   ⟨on, 0, by decide⟩,
   ⟨onPend, true, 0, 1, 250000000, 1000000, by decide⟩,
   ⟨onPend, false, 0, 1, 250000000, 1000000, by decide⟩,
   ⟨onHeld, by decide⟩,
   ⟨onRunCal, msZ, msP, msM, crun, msZ1, msP1, msM1, by decide +kernel⟩,
   ⟨onRunCal, msZ, msP, msM, true, false, crun, msZ1, msP1, msM1, by decide +kernel⟩,
   ⟨on, by decide⟩,
   ⟨onRamp, 3, rmp, by decide⟩,
   ⟨on, 3, by decide⟩⟩

/-- States and operands that meet the hypotheses of each clause of Obligations.ChainRows. -/
theorem witness_ChainRows :
    (∃ (s : State) (ch : Fin 640) (codes : List (Int × Bool)) (shadow : List (Int × Bool)) (c : ChanCfg) (g : Geo), s.hub.powered = true ∧
      s.hub.clk.held = false ∧ s.hub.geoOf ch = some (c, g) ∧ (s.hub.chain ch).running = true ∧ (s.hub.chain ch).syncs = [] ∧
      (s.hub.chain ch).cut = false ∧ isFast ch = true ∧ (∀ x ∈ codes, codeOk x.1 = true) ∧ (∀ x ∈ shadow, codeOk x.1 = true)) ∧
    (∃ (s : State) (ch : Fin 640) (codes : List (Int × Bool)) (shadow : List (Int × Bool)) (c : ChanCfg) (g : Geo) (v : Int) (o : Bool),
      s.hub.powered = true ∧ s.hub.clk.held = false ∧ s.hub.geoOf ch = some (c, g) ∧ (s.hub.chain ch).running = true ∧
      (s.hub.chain ch).syncs = [] ∧ (s.hub.chain ch).cut = false ∧ isFast ch = true ∧ shadow = [] ∧ codes = [(v, o)] ∧ codeOk v = true) ∧
    (∃ (s : State) (ch : Fin 640) (codes : List (Int × Bool)) (shadow : List (Int × Bool)) (c : ChanCfg) (g : Geo) (x : Inp), s.hub.powered
      = true ∧ s.hub.clk.held = false ∧ s.hub.geoOf ch = some (c, g) ∧ (s.hub.chain ch).running = true ∧ (s.hub.chain ch).syncs = [] ∧
      (s.hub.chain ch).cut = false ∧ isFast ch = false ∧ codes = [] ∧ shadow = [] ∧ (s.hub.chain ch).inq = [x] ∧
      x.epoch = (s.hub.chain ch).tsEpoch ∧ x.n = 1 ∧ (s.hub.chain ch).nextIn ≤ x.i) ∧
    (∃ (s : State) (ch : Fin 640) (codes : List (Int × Bool)) (shadow : List (Int × Bool)), s.hub.powered = true ∧ codes = [] ∧
      shadow = [] ∧ (s.hub.chain ch).syncs = [] ∧ ((s.hub.chain ch).running = false ∨ (s.hub.chain ch).cut = true ∨ s.hub.clk.held = true)) ∧
    (∃ (s : State) (ch : Fin 640) (c : ChanCfg) (g : Geo) (v : Stage4), s.hub.powered = true ∧ s.hub.clk.held = false ∧
      s.hub.geoOf ch = some (c, g) ∧ (s.hub.chain ch).running = true ∧ (s.hub.chain ch).stage4 g = some v ∧ s.hub.tachPast ch c v = true) ∧
    (∃ (s : State) (ch : Fin 640) (c : ChanCfg) (g : Geo) (v : Stage4), s.hub.powered = true ∧ s.hub.clk.held = false ∧
      s.hub.geoOf ch = some (c, g) ∧ (s.hub.chain ch).running = true ∧ (s.hub.chain ch).stage4 g = some v ∧ s.hub.tachPast ch c v = true) ∧
    (∃ (s : State) (ch : Fin 640), s.hub.powered = true ∧ ((s.hub.chain ch).running = false ∨ s.hub.clk.held = true)) :=
  ⟨⟨onPep, 0, [(5, false)], [], onPepC, onPepG, by decide⟩,
   ⟨onPep, 0, [(5, false)], [], onPepC, onPepG, 5, false, by decide⟩,
   ⟨onScanIn, 66, [], [], onScanC, onScanG, inp0, by decide⟩,
   ⟨on, 0, [], [], by decide⟩,
   ⟨onChain, 0, onPepC, onPepG, onPepV, by decide⟩,
   ⟨onChain, 0, onPepC, onPepG, onPepV, by decide⟩,
   ⟨on, 0, by decide⟩⟩

/-- States and operands that meet the hypotheses of each clause of Obligations.LandingRows. -/
theorem witness_LandingRows :
    (∃ (s : State) (ch : Fin 640) (o : StOut) (r : List StOut), s.hub.powered = true ∧ s.hub.clk.held = false ∧
      (s.hub.chain ch).stage = o :: r ∧ s.hub.waited o = true ∧ s.hub.covers ch o.epoch o.t = true ∧ o.land = true ∧ o.ch = ch.val) ∧
    (∃ (s : State) (ch : Fin 640) (o : StOut) (r : List StOut), s.hub.powered = true ∧ s.hub.clk.held = false ∧
      (s.hub.chain ch).stage = o :: r ∧ s.hub.waited o = true ∧ s.hub.covers ch o.epoch o.t = false ∧ o.ch = ch.val) ∧
    (∃ (s : State) (ch : Fin 640), s.hub.powered = true ∧ (s.hub.clk.held = true ∨ (s.hub.chain ch).stage = [])) ∧
    (∃ (s : State) (ch : Fin 640) (o : StOut) (r : List StOut), s.hub.powered = true ∧ (s.hub.chain ch).stage = o :: r ∧
      s.hub.waited o = false) ∧
    (∃ (s : State) (g : Nat) (o : StOut), s.hub.powered = true ∧ s.hub.clk.held = false ∧ g < 64 ∧ (∀ k : Nat, k < 64 → k ≠ g →
      (s.hub.chg k).lands = false) ∧ (s.hub.chg g).lands = true ∧ s.hub.tb.cnt / 15360 % max 1 (s.hub.partStrobes g) = 0 ∧
      (s.hub.cfg.jrn.groups.get g).chans = [o.ch] ∧ isRemote o.ch = false ∧ s.hub.isOrder g = false ∧ (s.hub.chg g).staged = [o] ∧
      (s.hub.chg g).absent = [] ∧ (s.hub.chg g).cur = none) ∧
    (∃ (s : State), s.hub.powered = true ∧ (s.hub.clk.held = true ∨ ∀ g : Nat, g < 64 → (s.hub.chg g).lands = false)) ∧
    (∃ (s : State) (p : Part) (r : List Part), s.hub.powered = true ∧ s.hub.clk.held = false ∧ s.hub.jrn.total = 0 ∧
      s.hub.jrn.parts = p :: r) ∧
    (∃ (s : State) (p : Part) (r : List Part), s.hub.powered = true ∧ s.hub.clk.held = false ∧ s.hub.jrn.total ≠ 0 ∧
      s.hub.jrn.parts = p :: r ∧ (s.hub.jrn.writers.get p.writer).openRec = none ∧ p.last = true ∧
      (∀ x ∈ s.hub.jrn.recs, x.ticket < s.hub.jrn.nextTicket) ∧ s.hub.freeOf .normal > 0 ∧ (s.hub.jrn.writers.get p.writer).page = none ∧
      96 + 4 * p.block.chans.length + p.body.length ≤ 65504) ∧
    (∃ (s : State), s.hub.powered = true ∧ (s.hub.clk.held = true ∨ s.hub.jrn.parts = [])) ∧
    (∃ (s : State) (g : Fin 64), s.hub.powered = true ∧ (s.hub.clk.held = true ∨ (s.hub.chg g).bounds = [])) ∧
    (∃ (s : State) (g : Fin 64) (u : Nat × T64) (since : Nat) (r : List ((Nat × T64) × Nat)) (c : Nat), s.hub.powered = true ∧
      s.hub.clk.held = false ∧ (s.hub.chg g).bounds = (u, since) :: r ∧ since + (s.hub.cfg.jrn.groups.get g).lateWait * 49152 ≤
      s.hub.xoCycles ∧ isRemote c = true ∧ c ∈ s.hub.lacking g u ∧ s.hub.stagedInsts g = []) ∧
    (∃ (s : State) (c : Fin 4) (origin : Fin 16) (descs : List (Nat × Nat)) (n : Nat) (b : List Byte), s.hub.powered = true ∧ c.val = 3 ∧
      (s.hub.cons 3).enable = true ∧ s.hub.clk.held = false ∧ bit (s.hub.jrn.consumers.get 3).ctrl 31 = true ∧
      s.hub.sys.straps.hostSel = false ∧ s.hub.host.bme = true ∧ s.hub.host.d3hot = false ∧ (s.hub.jrn.consumers.get 3).stream = [] ∧
      (s.hub.jrn.consumers.get 3).buf = none ∧ descs = [] ∧ origin.val = s.hub.sys.straps.hubId ∧ s.hub.nextRecord 3 origin = some (n, b)) ∧
    (∃ (s : State) (c : Fin 4) (b : RingBuf), s.hub.powered = true ∧ s.hub.clk.held = false ∧ (s.hub.jrn.consumers.get c).buf = some b ∧
      0 < b.used ∧ b.since + (s.hub.jrn.consumers.get c).flushXo ≤ s.hub.xoCycles) ∧
    (∃ (s : State) (c : Fin 4), s.hub.powered = true ∧ (s.hub.jrn.consumers.get c).buf = none) ∧
    (∃ (s : State) (ups : List Machine.IndexUpset), s.hub.powered = true ∧ (∀ u ∈ ups, u.sram = u.ferry)) ∧
    (∃ (s : State) (ups : List Machine.IndexUpset) (u : IndexUpset), s.hub.powered = true ∧ s.hub.clk.held = false ∧ ups = [u] ∧
      oddBits u.sram ≠ oddBits u.ferry) ∧
    (∃ (s : State) (ups : List Machine.IndexUpset) (u : IndexUpset), s.hub.powered = true ∧ s.hub.clk.held = false ∧ ups = [u] ∧
      u.sram ≠ u.ferry ∧ oddBits u.sram = oddBits u.ferry) ∧
    (∃ (s : State) (page : Nat), s.hub.powered = true ∧ (s.hub.jrn.pages.get page).used = true) ∧
    (∃ (s : State) (page : Nat), s.hub.powered = true ∧ (s.hub.jrn.pages.get page).used = false) ∧
    (∃ (s : State) (page : Nat), s.hub.powered = true ∧ (s.hub.jrn.pages.get page).used = false) ∧
    (∃ (s : State) (page : Nat), s.hub.powered = true ∧ (s.hub.jrn.pages.get page).used = true ∧ s.hub.clk.held = false ∧
      (∀ r ∈ s.hub.jrn.recs, page ∉ r.pages) ∧ s.hub.sto.saveDisabled = false) :=
  ⟨⟨onStagedLand, 3, sto0, [], by decide⟩,
   ⟨onStaged, 3, sto0, [], by decide⟩,
   ⟨on, 3, by decide⟩,
   ⟨onStagedYoung, 3, stoYoung, [], by decide⟩,
   ⟨onClose, 5, sto0, by decide⟩,
   ⟨on, by decide⟩,
   ⟨onNoDram, part0, [], by decide⟩,
   ⟨onPart, part0, [], by decide⟩,
   ⟨on, by decide⟩,
   ⟨on, 5, by decide⟩,
   ⟨onLateWait, 5, (0, 0), 0, [], 130, by decide⟩,
   ⟨onOffer, 3, 0, [], 0, obytes, by decide +kernel⟩,
   ⟨onBuf, 0, { addr := 0, len := 64, used := 8, since := 0 }, by decide⟩,
   ⟨on, 0, by decide⟩,
   ⟨on, [], by decide⟩,
   ⟨on, [ixu 1], (ixu 1), by decide⟩,
   ⟨on, [ixu 3], (ixu 3), by decide⟩,
   ⟨onPage, 2, by decide⟩,
   ⟨on, 2, by decide⟩,
   ⟨on, 2, by decide⟩,
   ⟨onPage, 2, by decide⟩⟩

/-- States and operands that meet the hypotheses of each clause of Obligations.TriggerActionRows. -/
theorem witness_TriggerActionRows :
    (∃ (s : State) (g : Fin 32) (i : Nat), s.hub.powered = true ∧ s.hub.clk.held = false ∧ (s.hub.cg g).segs.findIdx? (s.hub.segReady g) =
      some i) ∧
    (∃ (s : State) (g : Fin 32), s.hub.powered = true ∧ (s.hub.clk.held = true ∨ (s.hub.cg g).segs = [])) ∧
    (∃ (s : State) (g : Fin 32), s.hub.powered = true ∧ (s.hub.clk.held = true ∨ ∀ x ∈ (s.hub.cg g).segs, x.copying = false)) ∧
    (∃ (s : State) (g : Fin 32) (x : Seg), s.hub.powered = true ∧ s.hub.clk.held = false ∧ (s.hub.cg g).segs = [x] ∧ x.copying = true ∧
      (s.hub.cgCfg g).chans = [] ∧ (s.hub.cgCfg g).segLimit = 0 ∧ s.hub.jrn.total ≠ 0 ∧ s.hub.freeOf .normal > 0 ∧
      (s.hub.jrn.writers.get 64).page = none ∧ x.causes.length ≤ 1024) ∧
    (∃ (s : State) (g : Fin 32), s.hub.powered = true ∧ (s.hub.cg g).armed = true ∧ (s.hub.cgCfg g).autoEn = true ∧
      tLe ((s.hub.cg g).autoFrom + (fr (s.hub.cgCfg g).autoT 1000).toT) s.hub.sampleT = true) ∧
    (∃ (s : State) (g : Fin 32), s.hub.powered = true ∧ (s.hub.cg g).armed = false) ∧
    (∃ (s : State) (stream : Fin 96), s.hub.powered = true ∧ s.hub.clk.held = false ∧ (s.hub.stream stream).demoted = false ∧
      s.hub.waitsLong stream = true) ∧
    (∃ (s : State) (stream : Fin 96), s.hub.powered = true ∧ s.hub.clk.held = false ∧ (s.hub.stream stream).demoted = true ∧
      s.hub.waitsLong stream = true) ∧
    (∃ (s : State) (stream : Fin 96), s.hub.powered = true ∧ (s.hub.clk.held = true ∨ s.hub.waitsLong stream = false)) ∧
    (∃ (s : State) (stream : Fin 96), s.hub.powered = true ∧ s.hub.clk.held = false ∧ (s.hub.stream stream).demoted = true ∧
      (s.hub.stream stream).demotedAt + (s.hub.streamCfg stream).promoteMs * 49152 ≤ s.hub.xoCycles ∧ s.hub.waitsHalf stream = false) ∧
    (∃ (s : State) (stream : Fin 96), s.hub.powered = true ∧ ((s.hub.stream stream).demoted = false ∨ s.hub.waitsHalf stream = true)) ∧
    (∃ (s : State) (k : CodCheck) (r : List CodCheck), s.hub.powered = true ∧ s.hub.clk.held = false ∧ s.hub.cod.checks = k :: r) ∧
    (∃ (s : State), s.hub.powered = true ∧ s.hub.cod.checks = []) ∧
    (∃ (s : State) (profile : Fin 32) (c : SwapCur), s.hub.powered = true ∧ (s.hub.flt.swap.get profile).cur = some c ∧
      s.hub.fadePassed profile = true ∧ (s.hub.flt.swap.get profile).pend = none) ∧
    (∃ (s : State) (profile : Fin 32), s.hub.powered = true ∧ (s.hub.flt.swap.get profile).cur = none) ∧
    (∃ (s : State), s.hub.powered = true) ∧
    (∃ (s : State) (k : Fin 8) (n : Nat), s.hub.powered = true ∧ s.hub.clk.held = false ∧ s.hub.trg.pulse.get k = some n ∧
      n + (s.hub.cfg.trg.pins.get k).width ≤ s.hub.tb.cycles) ∧
    (∃ (s : State) (k : Fin 8), s.hub.powered = true ∧ (s.hub.clk.held = true ∨ s.hub.trg.pulse.get k = none)) ∧
    (∃ (s : State) (line : Fin 16) (n : Nat), s.hub.powered = true ∧ s.hub.clk.held = false ∧ s.hub.trg.lines.get line = some n ∧
      n + ceilDiv (s.hub.cfg.trg.hold.get line * 3072) 25 ≤ s.hub.tb.cycles) ∧
    (∃ (s : State) (line : Fin 16), s.hub.powered = true ∧ (s.hub.clk.held = true ∨ s.hub.trg.lines.get line = none)) ∧
    (∃ (s : State) (rule : Fin 32), s.hub.powered = true ∧ (s.hub.actRuleCfg rule).mode = 1 ∧ (s.hub.actRule rule).armed = true ∧
      s.hub.widthOver rule = true) ∧
    (∃ (s : State) (rule : Fin 32), s.hub.powered = true ∧ ((s.hub.actRule rule).armed = false ∨ s.hub.widthOver rule = false)) ∧
    (∃ (s : State), s.hub.powered = true ∧ s.hub.deadmanRuns = true ∧ s.hub.act.deadmanT ≠ 0 ∧
      s.hub.act.deadmanAt + s.hub.act.deadmanT * 49152 ≤ s.hub.xoCycles) ∧
    (∃ (s : State), s.hub.powered = true ∧ (s.hub.deadmanRuns = false ∨ s.hub.act.deadmanT = 0)) ∧
    (∃ (s : State), s.hub.powered = true ∧ (s.hub.clk.held = true ∨ (∀ r : Nat, r < 32 → (s.hub.actRuleCfg r).mode ≠ 2))) ∧
    (∃ (s : State) (r : Nat), s.hub.powered = true ∧ s.hub.clk.held = false ∧ (s.hub.actRule r).asserted = true ∧
      (s.hub.actRule r).armed = true ∧ (s.hub.actRuleCfg r).mode = 2 ∧ r < 32 ∧ s.hub.widthOver r = true ∧
      (∀ u ∈ bitsOf (s.hub.actRuleCfg r).mask 64, s.hub.unitHolds u = false)) :=
  ⟨⟨onSeg, 0, 0, by decide⟩,
   ⟨on, 0, by decide⟩,
   ⟨on, 0, by decide⟩,
   ⟨onCopy, 0, seg1, by decide⟩,
   ⟨onAuto, 0, by decide⟩,
   ⟨on, 0, by decide⟩,
   ⟨onWaits, 5, by decide⟩,
   ⟨onWaitsDemoted, 5, by decide⟩,
   ⟨onDemoted, 5, by decide⟩,
   ⟨onDemotedLong, 5, by decide⟩,
   ⟨on, 5, by decide⟩,
   ⟨onCheck, chk, [], by decide⟩,
   ⟨on, by decide⟩,
   ⟨onFade, 0, swp, by decide⟩,
   ⟨on, 0, by decide⟩,
   ⟨on, by decide⟩,
   ⟨onTrgPulse, 2, 0, by decide⟩,
   ⟨on, 2, by decide⟩,
   ⟨onTrgPulse, 2, 0, by decide⟩,
   ⟨on, 2, by decide⟩,
   ⟨onAct, 1, by decide⟩,
   ⟨on, 1, by decide⟩,
   ⟨onDead, by decide⟩,
   ⟨on, by decide⟩,
   ⟨on, by decide⟩,
   ⟨onFollow, 2, by decide⟩⟩

/-- States and operands that meet the hypotheses of each clause of Obligations.SensorLaneRows. -/
theorem witness_SensorLaneRows :
    (∃ (s : State) (lane : Fin 16), s.hub.powered = true ∧ ((s.hub.lane lane).st = .up ∨ (s.hub.lane lane).st = .training)) ∧
    (∃ (s : State) (lane : Fin 16), s.hub.powered = true ∧ (s.hub.lane lane).st ≠ .up ∧ (s.hub.lane lane).st ≠ .training) ∧
    (∃ (s : State) (x : Machine.LaneStep), s.hub.powered = true ∧ 7 ≤ (s.hub.lane x.lane).step ∧ (s.hub.lane x.lane).st = .training ∧
      (s.hub.lane x.lane).stepAt + stepLimit (s.hub.lane x.lane).step x.phy ≤ s.hub.xoCycles ∧ ((s.hub.lane x.lane).step ≠ 8 ∨
      (14 ≤ (s.hub.lane x.lane).delays.length ∧ (x.lane.val ∉ s.hub.tiu.line9 ∨ s.hub.tiu.line9.head? = some x.lane.val))) ∧
      (s.hub.lane x.lane).attempts < 2) ∧
    (∃ (s : State) (x : Machine.LaneStep), s.hub.powered = true ∧ 7 ≤ (s.hub.lane x.lane).step ∧ (s.hub.lane x.lane).st = .training ∧
      (s.hub.lane x.lane).stepAt + stepLimit (s.hub.lane x.lane).step x.phy ≤ s.hub.xoCycles ∧ ((s.hub.lane x.lane).step ≠ 8 ∨
      (14 ≤ (s.hub.lane x.lane).delays.length ∧ (x.lane.val ∉ s.hub.tiu.line9 ∨ s.hub.tiu.line9.head? = some x.lane.val))) ∧
      2 ≤ (s.hub.lane x.lane).attempts) ∧
    (∃ (s : State) (x : Machine.LaneStep), s.hub.powered = true ∧ ((s.hub.lane x.lane).st ≠ .training ∨
      s.hub.xoCycles < (s.hub.lane x.lane).stepAt + phyLimit 0 ∧ 7 ≤ (s.hub.lane x.lane).step)) ∧
    (∃ (s : State) (lane : Fin 16), s.hub.powered = true ∧ (s.hub.lane lane).st = .down ∧
      (s.hub.lane lane).stepAt + 491520 ≤ s.hub.xoCycles) ∧
    (∃ (s : State) (lane : Fin 16), s.hub.powered = true ∧ (s.hub.lane lane).st ≠ .down) ∧
    (∃ (s : State) (lane : Fin 16), s.hub.powered = true ∧ (s.hub.lane lane).st = .training ∧ (s.hub.lane lane).step < 7) ∧
    (∃ (s : State) (lane : Fin 16), s.hub.powered = true ∧ (s.hub.lane lane).st ≠ .training) ∧
    (∃ (s : State) (lane : Fin 16) (intact : Bool) (frame : List Byte) (b : List Byte), s.hub.powered = true ∧ s.hub.clk.held = false ∧
      (s.hub.lane lane).st = .training ∧ (s.hub.lane lane).step = 7 ∧ frameFault 2 1 0 0 intact frame = none ∧ framePay frame = b ∧
      b.length = 56 ∧ at_ b 11 1 = 0 ∧ at_ b 22 2 = 0 ∧ (s.hub.sto.laneKeys.get 0).key ≠ [] ∧ mac16 (bytesOf (s.hub.sto.laneKeys.get 0).key)
      (laneM 1 lane s.hub.sys.straps.hubId (at_ b 0 8) (padTo 16 ((s.hub.lane lane).nonceH.take 16)) ((b.drop 24).take 16) s.hub.lvMin
      s.hub.lvMax (at_ b 8 1) (at_ b 9 1)) = (b.drop 40).take 16 ∧ (s.hub.lane lane).use.serial = 0 ∧ (s.hub.lane lane).lastSerial = 0 ∧
      s.hub.lvMin ≤ min s.hub.lvMax (at_ b 9 1) ∧ at_ b 8 1 ≤ min s.hub.lvMax (at_ b 9 1) ∧ 600 ≤ at_ b 12 4) ∧
    (∃ (s : State) (lane : Fin 16), s.hub.powered = true ∧ (s.hub.lane lane).st ≠ .training) ∧
    (∃ (s : State) (lane : Fin 16) (intact : Bool) (frame : List Byte) (b : List Byte) (es : List SlotEnt), s.hub.powered = true ∧
      (s.hub.lane lane).st = .up ∧ s.hub.clk.held = false ∧ (s.hub.lane lane).used + ceilDiv (frame.length + 2) 64 ≤ (s.hub.lane lane).limit
      ∧ frameFault 1 0 (s.hub.lane lane).level 3 intact frame = none ∧ framePay frame = b ∧ slotEnts (if 2 ≤ (s.hub.lane lane).level then 12
      else 4) (at_ b 5 1) 0 (b.drop 8) = some es ∧ 8 ≤ b.length ∧ at_ b 4 1 ≤ 63 ∧ at_ b 6 2 = 0 ∧ es ≠ [] ∧ es.length ≤ 32 ∧
      (s.hub.lane lane).expect = some (frameSeq frame) ∧ s.hub.sampleFault lane (at_ b 0 4) (at_ b 4 1) false es = none) ∧
    (∃ (s : State) (lane : Fin 16) (intact : Bool) (frame : List Byte) (b : List Byte) (es : List SlotEnt) (e : Nat), s.hub.powered = true ∧
      (s.hub.lane lane).st = .up ∧ s.hub.clk.held = false ∧ (s.hub.lane lane).used + ceilDiv (frame.length + 2) 64 ≤ (s.hub.lane lane).limit
      ∧ frameFault 1 0 (s.hub.lane lane).level 3 intact frame = none ∧ framePay frame = b ∧ slotEnts (if 2 ≤ (s.hub.lane lane).level then 12
      else 4) (at_ b 5 1) 0 (b.drop 8) = some es ∧ 8 ≤ b.length ∧ at_ b 4 1 ≤ 63 ∧ at_ b 6 2 = 0 ∧ es ≠ [] ∧ es.length ≤ 32 ∧
      (s.hub.lane lane).expect = some e ∧ diff32 (frameSeq frame) e < 0 ∧ s.hub.sampleFault lane (at_ b 0 4) (at_ b 4 1) true es = none) ∧
    (∃ (s : State) (lane : Fin 16), s.hub.powered = true ∧ (s.hub.lane lane).st ≠ .up) ∧
    (∃ (s : State) (lane : Fin 16), s.hub.powered = true ∧ (s.hub.lane lane).st = .up ∧ s.hub.clk.held = true) ∧
    (∃ (s : State) (lane : Fin 16) (intact : Bool) (frame : List Byte) (b : List Byte) (q : SlotReq), s.hub.powered = true ∧
      (s.hub.lane lane).st = .up ∧ s.hub.clk.held = false ∧ frameFault 2 2 (s.hub.lane lane).level 0 intact frame = none ∧
      framePay frame = b ∧ b.length = 12 ∧ at_ b 1 1 = 0 ∧ at_ b 2 2 = 0 ∧ (s.hub.lane lane).slotReqs.find? (·.slot == at_ b 0 1) = some q ∧
      s.hub.cfg.slots.get (32 * lane.val + at_ b 0 1) = { enable := q.enable, rate := q.rate }) ∧
    (∃ (s : State) (lane : Fin 16), s.hub.powered = true ∧ (s.hub.lane lane).st ≠ .up) ∧
    (∃ (s : State) (lane : Fin 16) (slot : Fin 32) (q : SlotReq), s.hub.powered = true ∧ (s.hub.lane lane).slotReqs = [q] ∧
      q.slot = slot.val ∧ q.since + 491520 ≤ s.hub.xoCycles) ∧
    (∃ (s : State) (lane : Fin 16) (slot : Fin 32), s.hub.powered = true ∧ (∀ q ∈ (s.hub.lane lane).slotReqs, q.slot = slot.val →
      s.hub.xoCycles < q.since + 491520)) ∧
    (∃ (s : State) (lane : Fin 16) (intact : Bool) (frame : List Byte) (b : List Byte) (e : Nat), s.hub.powered = true ∧
      (s.hub.lane lane).st = .up ∧ s.hub.clk.held = false ∧ frameFault 2 3 (s.hub.lane lane).level 0 intact frame = none ∧
      framePay frame = b ∧ b.length = 16 ∧ (s.hub.lane lane).expect = some e ∧ 0 ≤ diff32 (at_ b 4 4) e) ∧
    (∃ (s : State) (lane : Fin 16), s.hub.powered = true ∧ (s.hub.lane lane).st ≠ .up) ∧
    (∃ (s : State) (lane : Fin 16) (intact : Bool) (frame : List Byte), s.hub.powered = true ∧ (s.hub.lane lane).st = .up ∧
      s.hub.clk.held = false ∧ frameFault 2 4 (s.hub.lane lane).level 0 intact frame = none ∧ (framePay frame).length = 8) ∧
    (∃ (s : State) (lane : Fin 16), s.hub.powered = true ∧ (s.hub.lane lane).st ≠ .up ∧ (s.hub.lane lane).st ≠ .training) ∧
    (∃ (s : State) (lane : Fin 16) (intact : Bool) (frame : List Byte), s.hub.powered = true ∧ (s.hub.lane lane).st = .up ∧
      s.hub.clk.held = false ∧ 3 ≤ (s.hub.lane lane).level ∧ frameFault 2 5 (s.hub.lane lane).level 0 intact frame = none ∧
      (framePay frame).length = 16 ∧ at_ (framePay frame) 8 8 = 0) ∧
    (∃ (s : State) (lane : Fin 16), s.hub.powered = true ∧ (s.hub.lane lane).st ≠ .up) ∧
    (∃ (s : State) (lane : Fin 16) (trip : Machine.RoundTrip) (turn : Nat) (r : List Nat), s.hub.powered = true ∧ s.hub.tiu.calAll = false ∧
      9 ∉ s.hub.tiu.lost ∧ s.hub.clk.held = false ∧ s.hub.tiu.fifo + 2 ≤ 512 + trip.drained ∧ s.hub.tiu.line9 = lane.val :: r ∧
      lane.val ∉ r ∧ (s.hub.lane lane).st = .up ∧ 2 ≤ (s.hub.lane lane).level ∧ turn ≤ 60000 ∧ (s.hub.lane lane).turn = turn ∧
      (meanI (((s.hub.tripPs lane.val trip - ((10 * turn : Nat) : Int) + (s.hub.lane lane).use.asym) * 500 :: (s.hub.lane lane).delays).take
      16) - (s.hub.lane lane).delta).natAbs ≤ (s.hub.lane lane).use.jump * 1000) ∧
    (∃ (s : State) (lane : Fin 16) (trip : Machine.RoundTrip) (turn : Nat) (r : List Nat), s.hub.powered = true ∧ s.hub.tiu.calAll = false ∧
      9 ∉ s.hub.tiu.lost ∧ s.hub.clk.held = false ∧ s.hub.tiu.fifo + 2 ≤ 512 + trip.drained ∧ s.hub.tiu.line9 = lane.val :: r ∧
      lane.val ∉ r ∧ (s.hub.lane lane).st = .training ∧ (s.hub.lane lane).step = 8 ∧ 2 ≤ (s.hub.lane lane).level ∧ turn ≤ 60000 ∧
      (s.hub.lane lane).turn = turn ∧ (s.hub.lane lane).delays.length = 15) ∧
    (∃ (s : State), s.hub.powered = true ∧ (s.hub.tiu.calAll = true ∨ 9 ∈ s.hub.tiu.lost)) ∧
    (∃ (s : State) (lane : Fin 16), s.hub.powered = true ∧ s.hub.tiu.calAll = false ∧ 9 ∉ s.hub.tiu.lost ∧ (s.hub.clk.held = true ∨
      s.hub.tiu.line9.head? ≠ some lane.val)) ∧
    (∃ (s : State) (lane : Fin 16), s.hub.powered = true ∧ (s.hub.lane lane).st = .up ∧ s.hub.clk.held = false ∧
      s.hub.passed (s.hub.lane lane).probeAt ((s.hub.lane lane).use.probeInt * 49152) = true ∧ (s.hub.lane lane).unanswered < 3) ∧
    (∃ (s : State) (lane : Fin 16), s.hub.powered = true ∧ ((s.hub.lane lane).st ≠ .up ∨ s.hub.clk.held = true)) ∧
    (∃ (s : State) (lane : Fin 16), s.hub.powered = true ∧ s.hub.slMarks = s.hub ∧ (s.hub.lane lane).st = .up ∧ s.hub.clk.held = false ∧
      (s.hub.lane lane).landedAt + 491520 ≤ s.hub.xoCycles) ∧
    (∃ (s : State) (lane : Fin 16), s.hub.powered = true ∧ ((s.hub.lane lane).st ≠ .up ∨ s.hub.clk.held = true ∨
      s.hub.xoCycles < (s.hub.lane lane).landedAt + 491520)) ∧
    (∃ (s : State), s.hub.powered = true) ∧
    (∃ (s : State) (lane : Fin 16) (hd : Nat) (n : Nat), s.hub.powered = true ∧ (s.hub.lane lane).reset = [(hd, n)] ∧
      n + 4915200 ≤ s.hub.xoCycles) ∧
    (∃ (s : State) (lane : Fin 16), s.hub.powered = true ∧ (∀ r ∈ (s.hub.lane lane).reset, s.hub.xoCycles < r.2 + 4915200)) :=
  ⟨⟨onUpLane, 3, by decide⟩,
   ⟨on, 3, by decide⟩,
   ⟨(later (onTraining 7 0)), { lane := 3, phy := 0 }, by decide⟩,
   ⟨(later (onTraining 7 2)), { lane := 3, phy := 0 }, by decide⟩,
   ⟨on, { lane := 3, phy := 0 }, by decide⟩,
   ⟨(later onDownLane), 3, by decide⟩,
   ⟨on, 3, by decide⟩,
   ⟨onTraining 1 0, 3, by decide⟩,
   ⟨on, 3, by decide⟩,
   ⟨onTraining 7 0, 3, true, helloF, helloB, by decide, by decide, by decide, by decide, helloF_ok, framePay_frameBytes .., helloB_length, by rw [helloB_at _ _ (by decide)]; decide, by rw [helloB_at _ _ (by decide)]; decide, by decide, by simp only [helloB_mac, helloB_nonce, helloB_at _ _ (show 0 + 8 ≤ 40 by decide), helloB_at _ _ (show 8 + 1 ≤ 40 by decide), helloB_at _ _ (show 9 + 1 ≤ 40 by decide)]; rfl, by decide, by decide, by rw [helloB_at _ _ (by decide)]; decide, by simp only [helloB_at _ _ (show 8 + 1 ≤ 40 by decide), helloB_at _ _ (show 9 + 1 ≤ 40 by decide)]; decide, by rw [helloB_at _ _ (by decide)]; decide⟩,
   ⟨on, 3, by decide⟩,
   ⟨onUpLane, 3, true, sampleF, sampleB, sampleE, by decide +kernel⟩,
   ⟨onReplay, 3, true, sampleF, sampleB, sampleE, 8, by decide +kernel⟩,
   ⟨on, 3, by decide⟩,
   ⟨onUpHeld, 3, by decide⟩,
   ⟨onSlotReq, 3, true, ackF, ackB, slReq, by decide +kernel⟩,
   ⟨on, 3, by decide⟩,
   ⟨(later onSlotReq), 3, 2, slReq, by decide⟩,
   ⟨onSlotReq, 3, 2, by decide⟩,
   ⟨onUpLane, 3, true, relF, relB, 7, by decide +kernel⟩,
   ⟨on, 3, by decide⟩,
   ⟨onUpLane, 3, true, slipF, by decide +kernel⟩,
   ⟨on, 3, by decide⟩,
   ⟨onUpLane3, 3, true, healthF, by decide +kernel⟩,
   ⟨on, 3, by decide⟩,
   ⟨onEcho9, 3, rt0, 200, [], by decide, by decide, by decide, by decide, by decide, by decide, by decide, by decide, by decide, by decide, by decide, by exact (congrArg Int.natAbs (Int.sub_self _)).le.trans (Nat.zero_le _)⟩,
   ⟨onStep8, 3, rt0, 200, [], by decide⟩,
   ⟨onCalAll, by decide⟩,
   ⟨onTiu, 3, by decide⟩,
   ⟨onUpLane, 3, by decide⟩,
   ⟨on, 3, by decide⟩,
   ⟨(later onUpLane), 3, by decide⟩,
   ⟨on, 3, by decide⟩,
   ⟨on, by decide⟩,
   ⟨(later onLaneReset), 3, 0x1005, 0, by decide⟩,
   ⟨onLaneReset, 3, by decide⟩⟩

/-- States and operands that meet the hypotheses of each clause of Obligations.CascadeLinkRows. -/
theorem witness_CascadeLinkRows :
    (∃ (s : State) (p : Fin 2), s.hub.powered = true ∧ ((s.hub.cPort p).st = .up ∨ (s.hub.cPort p).st = .training)) ∧
    (∃ (s : State) (p : Fin 2), s.hub.powered = true ∧ (s.hub.cPort p).st ≠ .up ∧ (s.hub.cPort p).st ≠ .training) ∧
    (∃ (s : State) (p : Fin 2), s.hub.powered = true ∧ (s.hub.cPort p).st = .training ∧ (s.hub.cPort p).step < 5) ∧
    (∃ (s : State) (p : Fin 2), s.hub.powered = true ∧ (s.hub.cPort p).st ≠ .training) ∧
    (∃ (s : State) (p : Fin 2), s.hub.powered = true ∧ (s.hub.cPort p).st = .training ∧ (s.hub.cPort p).step = 5) ∧
    (∃ (s : State) (p : Fin 2) (g1 : Nat) (g2 : Nat) (skew : Nat), s.hub.powered = true ∧ (s.hub.cPort p).st = .training ∧
      (s.hub.cPort p).step = 6 ∧ (s.hub.cPort p).lastCount = some (g2 % 256) ∧ (s.hub.cPort p).markers ≠ 2 ^ (g1 % 2) ∧ skew ≤ 64) ∧
    (∃ (s : State) (p : Fin 2), s.hub.powered = true ∧ (s.hub.cPort p).st ≠ .up ∧ (s.hub.cPort p).st ≠ .training) ∧
    (∃ (s : State) (p : Fin 2) (intact : Bool) (frame : List Byte) (b : List Byte), s.hub.powered = true ∧ s.hub.clk.held = false ∧
      (s.hub.cPort p).st = .training ∧ (s.hub.cPort p).step = 7 ∧ (s.hub.cPort p).peerHello = [] ∧ cascFault 1 0 intact frame = none ∧
      frameSeq frame = (s.hub.cPort p).rxSeq ∧ framePay frame = b ∧ b.length = 32 ∧ s.hub.topologyBad p b = false ∧
      s.hub.cascMin ≤ min s.hub.cascMax (at_ b 3 1) ∧ at_ b 2 1 ≤ min s.hub.cascMax (at_ b 3 1) ∧ (s.hub.cPort p).partnerSerial = 0 ∧
      at_ b 5 3 = 0) ∧
    (∃ (s : State) (p : Fin 2), s.hub.powered = true ∧ (s.hub.cPort p).st ≠ .training) ∧
    (∃ (s : State) (p : Fin 2) (intact : Bool) (frame : List Byte) (b : List Byte), s.hub.powered = true ∧ s.hub.clk.held = false ∧
      (s.hub.cPort p).st = .training ∧ (s.hub.cPort p).step = 7 ∧ (s.hub.cPort p).peerHello ≠ [] ∧
      cascFault 2 (s.hub.cPort p).level intact frame = none ∧ frameSeq frame = (s.hub.cPort p).rxSeq ∧ framePay frame = b ∧ b.length = 20 ∧
      s.hub.installKey.key ≠ [] ∧ s.hub.cascMac p (!s.hub.downEnd p) = b.drop 4 ∧ at_ b 0 1 = (s.hub.cPort p).level ∧ at_ b 1 3 = 0 ∧
      s.hub.downEnd p = true) ∧
    (∃ (s : State) (p : Fin 2) (intact : Bool) (frame : List Byte) (b : List Byte), s.hub.powered = true ∧ s.hub.clk.held = false ∧
      (s.hub.cPort p).st = .training ∧ (s.hub.cPort p).step = 7 ∧ (s.hub.cPort p).peerHello ≠ [] ∧
      cascFault 2 (s.hub.cPort p).level intact frame = none ∧ frameSeq frame = (s.hub.cPort p).rxSeq ∧ framePay frame = b ∧ b.length = 20 ∧
      s.hub.installKey.key ≠ [] ∧ s.hub.cascMac p (!s.hub.downEnd p) = b.drop 4 ∧ at_ b 0 1 = (s.hub.cPort p).level ∧ at_ b 1 3 = 0 ∧
      s.hub.downEnd p = false ∧ (s.hub.cPort p).rxSeq = 1) ∧
    (∃ (s : State) (p : Fin 2), s.hub.powered = true ∧ (s.hub.cPort p).st ≠ .training) ∧
    (∃ (s : State) (p : Fin 2), s.hub.powered = true ∧ (s.hub.cPort p).st = .refused ∧ (s.hub.cPort p).stepAt + 49152000 ≤ s.hub.xoCycles) ∧
    (∃ (s : State) (p : Fin 2), s.hub.powered = true ∧ (s.hub.cPort p).st ≠ .refused) ∧
    (∃ (s : State) (x : Machine.HopStep) (n : Nat), s.hub.powered = true ∧ (s.hub.cPort x.p).st = .training ∧ 5 ≤ (s.hub.cPort x.p).step ∧
      cascLimit (s.hub.cPort x.p).step x.phy = some n ∧ (s.hub.cPort x.p).stepAt + n ≤ s.hub.xoCycles ∧ (s.hub.cPort x.p).step ≠ 8 ∧
      (s.hub.cPort x.p).attempts < 2) ∧
    (∃ (s : State) (x : Machine.HopStep) (n : Nat), s.hub.powered = true ∧ (s.hub.cPort x.p).st = .training ∧ 5 ≤ (s.hub.cPort x.p).step ∧
      cascLimit (s.hub.cPort x.p).step x.phy = some n ∧ (s.hub.cPort x.p).stepAt + n ≤ s.hub.xoCycles ∧ (s.hub.cPort x.p).step ≠ 8 ∧
      2 ≤ (s.hub.cPort x.p).attempts) ∧
    (∃ (s : State) (x : Machine.HopStep), s.hub.powered = true ∧ ((s.hub.cPort x.p).st ≠ .training ∨ (5 ≤ (s.hub.cPort x.p).step ∧
      ∀ n, cascLimit (s.hub.cPort x.p).step x.phy = some n → s.hub.xoCycles < (s.hub.cPort x.p).stepAt + n))) ∧
    (∃ (s : State) (p : Fin 2), s.hub.powered = true ∧ (s.hub.cPort p).st = .down ∧ (s.hub.cPort p).stepAt + 491520 ≤ s.hub.xoCycles) ∧
    (∃ (s : State) (p : Fin 2), s.hub.powered = true ∧ (s.hub.cPort p).st ≠ .down) ∧
    (∃ (s : State) (p : Fin 2) (hd : Nat) (n : Nat), s.hub.powered = true ∧ (s.hub.cPort p).reset = [(hd, n)] ∧
      n + 4915200 ≤ s.hub.xoCycles) ∧
    (∃ (s : State) (p : Fin 2), s.hub.powered = true ∧ (∀ r ∈ (s.hub.cPort p).reset, s.hub.xoCycles < r.2 + 4915200)) ∧
    (∃ (s : State) (p : Fin 2), s.hub.powered = true ∧ (s.hub.cPort p).st = .up ∧ s.hub.clk.held = false ∧
      (s.hub.cPort p).creditAt + 4916 ≤ s.hub.xoCycles) ∧
    (∃ (s : State) (p : Fin 2), s.hub.powered = true ∧ (s.hub.cPort p).st ≠ .up ∧ (s.hub.cPort p).st ≠ .training) ∧
    (∃ (s : State), s.hub.powered = true ∧ s.hub.downEnd 0 = true ∧ (s.hub.cPort 0).st = .up ∧ s.hub.clk.held = false ∧
      s.hub.passed (s.hub.cPort 0).probeAt ((s.hub.cPort 0).use.probeInt * 49152) = true ∧ (s.hub.cPort 0).unanswered < 3) ∧
    (∃ (s : State), s.hub.powered = true ∧ (s.hub.downEnd 0 = false ∨ (s.hub.cPort 0).st ≠ .up)) ∧
    (∃ (s : State), s.hub.powered = true ∧ s.hub.downEnd 0 = true ∧ (s.hub.cPort 0).st = .up ∧ 2 ≤ (s.hub.cPort 0).level ∧
      s.hub.clk.held = false ∧ s.hub.passed (s.hub.cPort 0).healthAt 491520000 = true) ∧
    (∃ (s : State), s.hub.powered = true ∧ (s.hub.downEnd 0 = false ∨ (s.hub.cPort 0).st ≠ .up ∨ (s.hub.cPort 0).level < 2)) ∧
    (∃ (s : State) (trip : Machine.RoundTrip) (turn : Nat) (r : List Nat), s.hub.powered = true ∧ s.hub.tiu.calAll = false ∧
      9 ∉ s.hub.tiu.lost ∧ s.hub.clk.held = false ∧ s.hub.tiu.fifo + 2 ≤ 512 + trip.drained ∧ s.hub.tiu.line9 = 16 :: r ∧ 16 ∉ r ∧
      s.hub.downEnd 0 = true ∧ (s.hub.cPort 0).st = .up ∧ (meanI (((s.hub.tripPs 16 trip - ((10 * turn : Nat) : Int) + (s.hub.cPort
      0).use.asym) * 500 :: (s.hub.cPort 0).delays).take 16) - (s.hub.cPort 0).delta).natAbs ≤ (s.hub.cPort 0).use.jump * 1000) ∧
    (∃ (s : State), s.hub.powered = true ∧ s.hub.tiu.calAll = false ∧ 9 ∉ s.hub.tiu.lost ∧ (s.hub.downEnd 0 = false ∨
      s.hub.clk.held = true ∨ s.hub.tiu.line9.head? ≠ some 16)) ∧
    (∃ (s : State) (group : Nat) (intact : Bool) (frame : List Byte) (b : List Byte), s.hub.powered = true ∧ s.hub.downEnd 0 = true ∧
      (s.hub.cPort 0).st = .up ∧ cascFault 3 (s.hub.cPort 0).level intact frame = none ∧ framePay frame = b ∧ b.length = 20 ∧
      at_ b 19 1 = 0 ∧ at_ b 0 1 = group % 8 ∧ s.hub.clk.held = false) ∧
    (∃ (s : State), s.hub.powered = true ∧ (s.hub.downEnd 0 = false ∨ (s.hub.cPort 0).st ≠ .up)) :=
  ⟨⟨onHop, 0, by decide⟩,
   ⟨on, 0, by decide⟩,
   ⟨onHopStep 1, 0, by decide⟩,
   ⟨on, 0, by decide⟩,
   ⟨onHopStep 5, 0, by decide⟩,
   ⟨onMarked, 0, 0, 5, 3, by decide⟩,
   ⟨on, 0, by decide⟩,
   ⟨onHopStep 7, 0, true, cHelloF, cHelloB, by decide +kernel⟩,
   ⟨on, 0, by decide⟩,
   ⟨onAuthHop, 0, true, cAuthF, cAuthB, by decide, by decide, by decide, by decide, by decide, cAuthF_ok, frameSeq_frameBytes _ _ _ _ _ _ (by decide), framePay_frameBytes .., cAuthB_length, by decide, rfl, by rw [cAuthB, at_append _ _ _ _ (by decide)]; decide, by rw [cAuthB, at_append _ _ _ _ (by decide)]; decide, by decide⟩,
   ⟨onAuthHopUp, 1, true, cAuthF1, cAuthB1, by decide, by decide, by decide, by decide, by decide, cAuthF1_ok, frameSeq_frameBytes _ _ _ _ _ _ (by decide), framePay_frameBytes .., cAuthB1_length, by decide, rfl, by rw [cAuthB1, at_append _ _ _ _ (by decide)]; decide, by rw [cAuthB1, at_append _ _ _ _ (by decide)]; decide, by decide, by decide⟩,
   ⟨on, 0, by decide⟩,
   ⟨(later (onHopSt .refused)), 0, by decide⟩,
   ⟨on, 0, by decide⟩,
   ⟨(later (onHopStep 7)), { p := 0, phy := 0 }, 24576, by decide⟩,
   ⟨(later onHopLast), { p := 0, phy := 0 }, 24576, by decide⟩,
   ⟨on, { p := 0, phy := 0 }, by decide⟩,
   ⟨(later (onHopSt .down)), 0, by decide⟩,
   ⟨on, 0, by decide⟩,
   ⟨(later onHopReset), 0, 0x1005, 0, by decide⟩,
   ⟨onHopReset, 0, by decide⟩,
   ⟨(later onHop), 0, by decide⟩,
   ⟨on, 0, by decide⟩,
   ⟨onHop, by decide⟩,
   ⟨on, by decide⟩,
   ⟨onHop, by decide⟩,
   ⟨on, by decide⟩,
   ⟨onEchoHop, rt0, 200, [], by decide, by decide, by decide, by decide, by decide, by decide, by decide, by decide, by decide, by exact (congrArg Int.natAbs (Int.sub_self _)).le.trans (Nat.zero_le _)⟩,
   ⟨(line9At onMaster 3), by decide⟩,
   ⟨onHop, 0, true, markF, markB, by decide +kernel⟩,
   ⟨on, by decide⟩⟩

/-- States and operands that meet the hypotheses of each clause of Obligations.CascadeFrameRows. -/
theorem witness_CascadeFrameRows :
    (∃ (s : State) (p : Fin 2), s.hub.powered = true ∧ (s.hub.cPort p).carries = false) ∧
    (∃ (s : State) (p : Fin 2), s.hub.powered = true ∧ (s.hub.cPort p).carries = false) ∧
    (∃ (s : State) (p : Fin 2), s.hub.powered = true ∧ (s.hub.cPort p).carries = false) ∧
    (∃ (s : State) (p : Fin 2), s.hub.powered = true ∧ (s.hub.cPort p).carries = false) ∧
    (∃ (s : State) (p : Fin 2), s.hub.powered = true ∧ (s.hub.cPort p).carries = false) ∧
    (∃ (s : State) (p : Fin 2), s.hub.powered = true ∧ (s.hub.cPort p).carries = false) ∧
    (∃ (s : State) (p : Fin 2), s.hub.powered = true ∧ (s.hub.cPort p).carries = false) ∧
    (∃ (s : State) (p : Fin 2), s.hub.powered = true ∧ (s.hub.cPort p).carries = false) ∧
    (∃ (s : State) (p : Fin 2) (intact : Bool) (frame : List Byte) (b : List Byte), s.hub.powered = true ∧ s.hub.clk.held = false ∧
      (s.hub.cPort p).st = .up ∧ cascFault 9 (s.hub.cPort p).level intact frame = none ∧ frameSeq frame = (s.hub.cPort p).rxSeq ∧
      framePay frame = b ∧ b.length = 4 + 4 * at_ b 0 1 ∧ at_ b 1 3 = 0 ∧ s.hub.isMaster = true ∧
      s.hub.rosterTwice p ((List.range (at_ b 0 1)).map fun i => at_ b (4 + 4 * i) 1) = false ∧ (∀ i : Nat, i < at_ b 0 1 →
      at_ b (7 + 4 * i) 1 = 0)) ∧
    (∃ (s : State) (p : Fin 2) (intact : Bool) (frame : List Byte) (b : List Byte), s.hub.powered = true ∧ s.hub.clk.held = false ∧
      (s.hub.cPort p).st = .up ∧ cascFault 4 (s.hub.cPort p).level intact frame = none ∧ frameSeq frame = (s.hub.cPort p).rxSeq ∧
      framePay frame = b ∧ b.length = 20 ∧ at_ b 6 2 = 0 ∧ at_ b 0 1 < 16 ∧ at_ b 1 1 ≠ s.hub.sys.straps.hubId ∧ at_ b 3 1 < 15 ∧
      (∀ e ∈ s.hub.casc.seen, e.1 ≠ at_ b 1 1)) ∧
    (∃ (s : State) (p : Fin 2) (intact : Bool) (frame : List Byte) (b : List Byte), s.hub.powered = true ∧ s.hub.clk.held = false ∧
      (s.hub.cPort p).st = .up ∧ cascFault 5 (s.hub.cPort p).level intact frame = none ∧ frameSeq frame = (s.hub.cPort p).rxSeq ∧
      framePay frame = b ∧ 4 < b.length ∧ at_ b 2 2 = 0 ∧ at_ b 1 1 ≤ 1 ∧ (s.hub.cPort p).rxUsed + creditCost b.length ≤ (s.hub.cPort
      p).rxLimit ∧ (s.hub.cPort p).roster.any (fun e => e.1 == at_ b 0 1) = true ∧ s.hub.isMaster = true) ∧
    (∃ (s : State) (p : Fin 2) (intact : Bool) (frame : List Byte) (b : List Byte), s.hub.powered = true ∧ s.hub.clk.held = false ∧
      (s.hub.cPort p).st = .up ∧ cascFault 5 (s.hub.cPort p).level intact frame = none ∧ frameSeq frame = (s.hub.cPort p).rxSeq ∧
      framePay frame = b ∧ 4 < b.length ∧ at_ b 2 2 = 0 ∧ at_ b 1 1 ≤ 1 ∧ (s.hub.cPort p).rxUsed + creditCost b.length ≤ (s.hub.cPort
      p).rxLimit ∧ (s.hub.cPort p).roster.any (fun e => e.1 == at_ b 0 1) = true ∧ s.hub.isMaster = false) ∧
    (∃ (s : State) (p : Fin 2) (intact : Bool) (frame : List Byte) (b : List Byte), s.hub.powered = true ∧ s.hub.clk.held = false ∧
      (s.hub.cPort p).st = .up ∧ cascFault 6 (s.hub.cPort p).level intact frame = none ∧ frameSeq frame = (s.hub.cPort p).rxSeq ∧
      framePay frame = b ∧ b.length = 20 ∧ at_ b 0 1 = 1 ∧ at_ b 1 3 = 0 ∧ s.hub.downEnd p = true ∧ at_ b 4 1 = s.hub.sys.straps.hubId ∧
      at_ b 5 7 = 0) ∧
    (∃ (s : State) (p : Fin 2) (intact : Bool) (frame : List Byte) (b : List Byte), s.hub.powered = true ∧ s.hub.clk.held = false ∧
      (s.hub.cPort p).st = .up ∧ cascFault 7 (s.hub.cPort p).level intact frame = none ∧ frameSeq frame = (s.hub.cPort p).rxSeq ∧
      framePay frame = b ∧ b.length = 8 ∧ (s.hub.cPort p).waiting = []) ∧
    (∃ (s : State) (p : Fin 2) (intact : Bool) (frame : List Byte) (b : List Byte), s.hub.powered = true ∧ s.hub.clk.held = false ∧
      (s.hub.cPort p).st = .up ∧ cascFault 8 (s.hub.cPort p).level intact frame = none ∧ frameSeq frame = (s.hub.cPort p).rxSeq ∧
      framePay frame = b ∧ b.length = 8 ∧ at_ b 5 3 = 0) ∧
    (∃ (s : State) (p : Fin 2) (intact : Bool) (frame : List Byte) (b : List Byte), s.hub.powered = true ∧ s.hub.clk.held = false ∧
      (s.hub.cPort p).st = .up ∧ cascFault 10 (s.hub.cPort p).level intact frame = none ∧ frameSeq frame = (s.hub.cPort p).rxSeq ∧
      framePay frame = b ∧ b.length = 4 ∧ at_ b 3 1 = 0 ∧ s.hub.isMaster = true ∧ 0 < epochDiff s.hub.tb.epoch (at_ b 0 2) ∧
      s.hub.tb.pendBreak = []) ∧
    (∃ (s : State) (p : Fin 2) (intact : Bool) (frame : List Byte) (b : List Byte), s.hub.powered = true ∧ s.hub.clk.held = false ∧
      (s.hub.cPort p).st = .up ∧ cascFault 11 (s.hub.cPort p).level intact frame = none ∧ frameSeq frame = (s.hub.cPort p).rxSeq ∧
      framePay frame = b ∧ b.length = 16 ∧ 2 ≤ (s.hub.cPort p).level ∧ at_ b 12 4 = 0 ∧ s.hub.downEnd p = false) :=
  ⟨⟨on, 0, by decide⟩,
   ⟨on, 0, by decide⟩,
   ⟨on, 0, by decide⟩,
   ⟨on, 0, by decide⟩,
   ⟨on, 0, by decide⟩,
   ⟨on, 0, by decide⟩,
   ⟨on, 0, by decide⟩,
   ⟨on, 0, by decide⟩,
   ⟨onMaster, 1, true, rosterF, rosterB, by decide +kernel⟩,
   ⟨onHop, 0, true, trigF, trigB, by decide +kernel⟩,
   ⟨onMaster, 1, true, recordF, recordB, by decide +kernel⟩,
   ⟨onRelay, 1, true, recordF, recordB, by decide +kernel⟩,
   ⟨onHop, 0, true, ackCF, ackCB, by decide +kernel⟩,
   ⟨onHop, 0, true, creditF, creditB, by decide +kernel⟩,
   ⟨onHop, 0, true, nakF, nakB, by decide +kernel⟩,
   ⟨onMaster, 1, true, epochF, epochB, by decide +kernel⟩,
   ⟨onMaster, 1, true, hopF, hopB, by decide +kernel⟩⟩

/-! ## Witnesses of the statements over all commands -/

/-- What a step or a command answers; a default hub where it stops. -/
def hubOf (o : Host.Outcome State Fault Refusal) : Hub := match o with | .next t => t.hub | _ => {}
def stops (o : Host.Outcome State Fault Refusal) : Bool := match o with | .next _ => false | _ => true

theorem witness_IdleTick :
    (∃ s : State, s.pending = [] ∧ s.hub.powered = false) ∧
    (∃ s : State, s.pending = [] ∧ s.hub.powered = true ∧ s.hub.clk.held = true ∧ ∀ g, g < 32 → (s.hub.cg g).due = []) ∧
    (∃ s : State, s.pending = [] ∧ s.hub.powered = true ∧ s.hub.tb.started = false ∧ s.hub.clk.held = false ∧ s.hub.tb.sec < 2 ^ 32 ∧
      s.hub.tb.cnt + 1 = 122880000) ∧
    (∃ s : State, s.pending = [] ∧ s.hub.powered = true ∧ s.hub.tb.started = true ∧ s.hub.clk.held = false ∧ s.hub.tb.toStrobe ≤ 1 ∧
      stops (step s) = false ∧ (hubOf (step s)).tb.dead = false) :=
  let b := onTb fun x => { x with started := false, sec := 2 ^ 32 - 1, cnt := 122879999 }
  let c := onTb fun x => { x with started := true, cnt := 15359 }
  ⟨⟨State.reset, by decide⟩, ⟨onHeld, by decide⟩, ⟨b, by decide⟩, ⟨c, by decide +kernel⟩⟩
theorem witness_TakeRunsThePostedCommand : ∃ (i : Instr) (k : Kelnen) (s : State), kelnenOf i = some k ∧ s.reaches k.mb k.pl = true :=
  ⟨.sysNop 0 7 [1], ⟨sysNop, 0, 7, [1]⟩, on, rfl, by decide⟩
theorem witness_SendableKept : ∃ s : State, s.sendable = true ∧ s.pending = [.powerOnReset, .sysNop 0 7 (List.replicate 255 0)] :=
  ⟨{ State.reset with pending := [.powerOnReset, .sysNop 0 7 (List.replicate 255 0)] }, by decide +kernel, rfl⟩
theorem witness_QueueDrains : ∃ s : State, s.sendable = true ∧ s.pending.length = 2 :=
  ⟨{ on with pending := [.sysNop 0 7 [], .resetNAssert] }, by decide⟩
theorem witness_OnlyIllFormedStops : ∃ i j : Instr, i.wellFormed = false ∧ j.wellFormed = true :=
  ⟨.sysNop 0 7 (List.replicate 256 0), .sysNop 0 7 (List.replicate 255 0), by decide +kernel⟩
theorem witness_QueueLeftAlone : ∃ (i : Instr) (s t : State), exec i s = .next t := ⟨.sysNop 0 7 [], State.reset, State.reset, rfl⟩
theorem witness_UnpoweredHubIgnores : ∃ (i : Instr) (s : State), s.hub.powered = false ∧ i.wellFormed = true ∧ i ≠ .powerOnReset ∧ i ≠ .resetNAssert ∧
    (∀ b, i ≠ .coldBoot b) ∧ (∀ b, i ≠ .retainResume b) :=
  ⟨.sysNop 0 7 [], State.reset, by decide, by decide, nofun, nofun, nofun, nofun⟩
theorem witness_RefusedCommandOnlyAnswers : ∃ (i : Instr) (k : Kelnen) (s : State) (st : Nat) (ws : List Word), kelnenOf i = some k ∧
    s.refuses k.spec k.mb k.tag k.pl st ws :=
  ⟨.slQuarRelease 2 7 [1], ⟨slQuarRelease, 2, 7, [1]⟩, on, BAD_STATE, [], rfl, by decide, by decide⟩
theorem witness_MailboxNotIdle : ∃ (i : Instr) (k : Kelnen) (s : State), kelnenOf i = some k ∧ s.hub.powered = true ∧ payloadOk k.pl = true ∧
    (s.hub.host.mbs.get k.mb).state ≠ .idle :=
  ⟨.sysNop 0 7 [], ⟨sysNop, 0, 7, []⟩, onPosted, rfl, by decide, by decide, by decide⟩
theorem witness_PostedCommandWaits :
    (∃ (i : Instr) (k : Kelnen) (s : State), kelnenOf i = some k ∧ s.hub.powered = true ∧ payloadOk k.pl = true ∧
      (s.hub.host.mbs.get k.mb).state = .idle ∧ s.hub.canTake = false) ∧
    (∃ (i : Instr) (k : Kelnen) (s : State), kelnenOf i = some k ∧ s.hub.powered = true ∧ payloadOk k.pl = true ∧
      (s.hub.host.mbs.get k.mb).state = .idle ∧ k.mb.val ≠ 7 ∧ k.mb.val ∉ s.hub.host.posted ∧ s.hub.host.posted ≠ []) :=
  ⟨⟨.sysNop 0 7 [], ⟨sysNop, 0, 7, []⟩, onReload, rfl, by decide, by decide, by decide, by decide⟩,
   ⟨.sysNop 1 7 [], ⟨sysNop, 1, 7, []⟩, onPosted, rfl, by decide, by decide, by decide, by decide, by decide, by decide⟩⟩
theorem witness_NopReturnsItsPayload :
    (∃ (s : State) (mb : Fin 8) (tag : Word) (pl : List Word), s.takes sysNop mb tag pl = true ∧ pl.length = 124) ∧ sysNop.len (List.replicate 124 0) = true ∧
    sysNop.len (List.replicate 125 0) = false :=
  ⟨⟨on, 0, 7, List.replicate 124 0, by decide +kernel⟩, by decide +kernel, by decide +kernel⟩
theorem witness_QuarantineRelease :
    (∃ (s : State) (mb : Fin 8) (w : Word), s.reaches mb [w] = true ∧ s.hub.sys.recovery = false ∧ mb.val ≠ 7 ∧ s.hub.clk.stopped = false ∧
      w.toNat < 2 ^ 16 ∧ ∀ n : Nat, n < 16 → bit w n = true → (s.hub.lane n).st = .quarantined) ∧
    (∃ (s : State) (mb : Fin 8) (w : Word), s.reaches mb [w] = true ∧ s.hub.sys.recovery = false ∧ mb.val ≠ 7 ∧ s.hub.clk.stopped = false ∧
      w.toNat < 2 ^ 16 ∧ 15 < 16 ∧ bit w 15 = true ∧ (s.hub.lane 15).st ≠ .quarantined) ∧
    (∃ (s : State) (mb : Fin 8) (w : Word), s.reaches mb [w] = true ∧ s.hub.sys.recovery = false ∧ mb.val ≠ 7 ∧ s.hub.clk.stopped = false ∧
      w.toNat < 2 ^ 2 ∧ ∀ n : Nat, n < 2 → bit w n = true → (s.hub.cPort n).st = .quarantined) ∧
    (∃ (s : State) (mb : Fin 8) (w : Word), s.reaches mb [w] = true ∧ s.hub.sys.recovery = false ∧ mb.val ≠ 7 ∧ s.hub.clk.stopped = false ∧
      w.toNat < 2 ^ 2 ∧ 1 < 2 ∧ bit w 1 = true ∧ (s.hub.cPort 1).st ≠ .quarantined) :=
  ⟨⟨onLane, 0, 2, by decide⟩, ⟨onLane, 0, 0x8000, by decide⟩, ⟨onLane, 0, 1, by decide⟩, ⟨onLane, 0, 2, by decide⟩⟩
theorem witness_TimeComparison : (∃ x y : Nat, ((y : Int) - x).natAbs < 2 ^ 63 ∧ x = 2 ^ 63 ∧ y = 1) ∧
    (∃ a b : Nat, ((b : Int) - a).natAbs < 32768 ∧ a = 65535 ∧ b = 65536) :=
  ⟨⟨2 ^ 63, 1, by decide⟩, ⟨65535, 65536, by decide⟩⟩
theorem witness_SlotRates :
    (∃ level r : Nat, level ≤ 3 ∧ rateOk level r = true ∧ level = 3 ∧ r * 2 ^ 6 = 8000) ∧ rateOk 2 64000 = true ∧ rateOk 2 4000 = false ∧
    (∃ (h : Hub) (p : List Word), slSlotSet.bad h p = none) :=
  ⟨⟨3, 125, by decide⟩, by decide, by decide, ⟨onUpLane.hub, [0x80000302, 8000], by decide⟩⟩
theorem witness_OtpNeverUnprograms : ∃ s t : State, step s = .next t ∧ s.hub.sto.otp.keyHash0.isSome = true ∧ s.hub.sto.otp.keyHash1.isSome = true ∧
    s.hub.sto.otp.jtagKey.isSome = true ∧ s.hub.sto.otp.subsys.isSome = true ∧ s.hub.sto.otp.revoked0 = true :=
  let s : State := { State.reset with
    hub := { sto := { otp := { keyHash0 := some [1], keyHash1 := some [2], jtagKey := some [3], subsys := some 4, revoked0 := true } } }, pending := [.sysNop 0 7 []] }
  ⟨s, { s with pending := [] }, rfl, by decide⟩

/-! ## Terms that WellFormed refuses -/

theorem test_ill_payload : (Instr.sysNop 0 7 (List.replicate 256 0)).wellFormed = false ∧ stops (exec (.sysNop 0 7 (List.replicate 256 0)) on) = true := by decide +kernel
theorem test_ill_straps : (Instr.coldBoot { bootIn with straps := { hubId := 16 } }).wellFormed = false ∧
    stops (exec (.coldBoot { bootIn with straps := { hubId := 16 } }) on) = true := by decide
theorem test_ill_address : (Instr.netAddrRequest 0 true [1] []).wellFormed = false ∧ stops (exec (.netAddrRequest 0 true [1] []) on) = true := by decide
theorem test_ill_visit : (Instr.scanVisitDone 0 0 [] [] false false 0 false true false 0).wellFormed = false ∧
    (Instr.scanVisitDone 0 0 [1, 2] [1] false false 0 false true false 0).wellFormed = false ∧
    stops (exec (.scanVisitDone 0 0 [] [] false false 0 false true false 0) on) = true := by decide
theorem test_ill_sensors : (Instr.dieTempSample [1, 2]).wellFormed = false ∧ stops (exec (.dieTempSample [1, 2]) on) = true := by decide
theorem test_ill_lost_read : (Instr.lqLostRead { addr := 0x187010, len := 4 }).wellFormed = false ∧ (Instr.lqLostRead { addr := 0x187008, len := 5 }).wellFormed = true ∧
    stops (exec (.lqLostRead { addr := 0x187010, len := 4 }) on) = true := by decide
theorem test_ill_codes : (Instr.pepperOutput 0 [(8, false)] []).wellFormed = false ∧ (Instr.pepperOutput 0 [(7, false), (-8, true)] []).wellFormed = true ∧
    (Instr.calMeasureDone [0] [-9] [] false false).wellFormed = false ∧ stops (exec (.pepperOutput 0 [(8, false)] []) on) = true ∧
    stops (exec (.calMeasureDone [0] [-9] [] false false) on) = true := by decide
theorem test_ill_conversion : (Instr.scanVisitDone 0 0 [131072] [] false false 0 false false true false).wellFormed = false ∧
    (Instr.scanVisitDone 0 0 [131071] [-131072] false false 0 false false true false).wellFormed = true := by decide
theorem test_ill_router : (Instr.routerAdvertisementReceive 0 [1]).wellFormed = false ∧ stops (exec (.routerAdvertisementReceive 0 [1]) on) = true := by decide

/-! ## Worked examples of the spec -/

/-- The comparison across a wrap of the seconds field: b is later by 0xC000_0000 (after R14). -/
theorem test_time_wrap : tLt 0xFFFFFFFF80000000 0x40000000 = true ∧ tDiff 0xFFFFFFFF80000000 0x40000000 = 0xC0000000 := by decide
/-- L5.17 on hub 2 has index 305 and tag 0x0931 (after R17). -/
theorem test_channel_tag : (onSys fun x => { x with straps := { hubId := 2 } }).hub.tag (128 + 5 * 32 + 17) = 0x0931 := by decide
/-- A 50 us relock on an XO of 2 ppm is declared as 42 ns (R40). -/
theorem test_gap_uncertainty : Hub.heldUnc { hub with cfg := { clk := { xoDecl := 20 } } } (50 * 49152 / 1000) = 42 := by decide
/-- A hold of 52,246 ns is 321 modulator periods (R235, the example of Clock Generation and Supervision). -/
theorem test_hold_periods : heldCycles 0 (52246 * 49152 / 1000000) = 20 * 321 := by decide
/-- RTD S12 at 128 ohms: s_1 is 21,950,082; by R76 and R77 y = 209,715,200 + round(72,166,146 x 21,950,082 / 2^24) = 304,132,106 (the text's
304,132,107 comes from a rounded s_1). -/
theorem test_rtd : slope (1001575678, 209715200) (1161868345, 419430400) = 21950082 ∧
    linearise [(838860800, 0), (1001575678, 209715200), (1161868345, 419430400), (1319738802, 629145600), (1475187048, 838860800)]
      0x40000000 = (304132106, false) := by decide
/-- An ordinary match with L = 5 and D = 2 (R359). -/
theorem test_match_code : matchCode 5 2 false = List.replicate 24 true ++ [true, false] ++ [false] ++ [true, false, false, false, false, false] ++
    (true :: List.replicate 13 false) := by decide
/-- The worked encoding of the codec chapter: 29 bytes (R353 to R362). -/
theorem test_codec_block : (encodeBlock 0 4096 false false false [0x000300FD, 0x00034001] { p := 2 } [12, 10, 15, 14, 19, 18, 24, 25]).bytes =
    [0xC5, 0x01, 0x00, 0x02, 0x1D, 0x00, 0x08, 0x00, 0, 0, 0, 0] ++
    leBytes 4 (crc32c [12, 0, 0, 0, 10, 0, 0, 0, 15, 0, 0, 0, 14, 0, 0, 0, 19, 0, 0, 0, 18, 0, 0, 0, 24, 0, 0, 0, 25, 0, 0, 0]).toNat ++
    [0xFD, 0, 3, 0, 0x01, 0x40, 3, 0, 0x07, 0x63, 0x04, 0x81, 0x06] := by decide +kernel

/-! ## Single steps -/

/-- TB_SAMPLE's cycle count wraps into the seconds (R220). -/
theorem test_second_wraps : (hubOf (step (onTb fun x => { x with started := false, sec := 41, cnt := 122879999 }))).tb.sec = 42 ∧
    (hubOf (step (onTb fun x => { x with started := false, sec := 41, cnt := 122879999 }))).tb.cnt = 0 := by decide +kernel
/-- A cold boot takes the straps and starts the control domain (R537, R540, R569). -/
theorem test_cold_boot : (hubOf (step { State.reset with pending := [.coldBoot bootIn] })).sys.power = .run ∧
    (hubOf (step { State.reset with pending := [.coldBoot bootIn] })).sys.straps.hubId = 3 := by decide
/-- SYS_NOP completes with DONE and returns its payload; LAST_TAG takes the tag (R495, R478). -/
theorem test_sys_nop : ((hubOf (step { on with pending := [.sysNop 2 9 [5, 6]] })).host.mbs.get 2).resp.gets 0 6 = [0, 9, 2, 0, 5, 6] := by decide
/-- A wrong length is answered with BAD_LENGTH, 0x11 (R483, R484). -/
theorem test_bad_length : ((hubOf (step { on with pending := [.slQuarRelease 2 9 [5, 6]] })).host.mbs.get 2).resp.get 0 = 0x11 := by decide
/-- A long command is answered with ACCEPTED and a handle in the upper half (R478, R486). -/
theorem test_accepted : fld (((hubOf (step { onCod with pending := [.codecStateSave 2 9 [70]] })).host.mbs.get 2).resp.get 0) 15 0 = 1 := by decide
/-- A ring of a mailbox that is not IDLE sets RING_IGNORED (R480). -/
theorem test_ring_ignored : bit ((hubOf (step { onPosted with pending := [.mbDoorbellRing 0] })).host.mbs.get 0).status 1 = true := by decide
/-- 125 Sa/s is a rate of level 3, 62 is not (R386). -/
theorem test_slot_rate : rateOk 3 125 = true ∧ rateOk 3 62 = false := by decide

end Sys2Proof.Slice0
end

/-! PROOFS. Comparison of times and epochs (O16). -/
namespace Sys2Proof.Machine

/-- A signed field reads its low bits as two's complement. -/
theorem signed_eq_toInt (n x : Nat) : signed n x = (BitVec.ofNat n x).toInt := by
  cases n with
  | zero => simp [signed, Nat.mod_one, BitVec.of_length_zero]
  | succ n =>
    have hp : (2 : Nat) ^ (n + 1) = 2 * 2 ^ n := by rw [Nat.pow_succ, Nat.mul_comm]
    rw [signed, BitVec.toInt_eq_toNat_cond, BitVec.toNat_ofNat]
    by_cases h : x % 2 ^ (n + 1) < 2 ^ (n + 1 - 1)
    · rw [if_pos h, if_pos (by simp at h ⊢; omega)]
    · rw [if_neg h, if_neg (by simp at h ⊢; omega)]

/-- The difference of two epochs is that of their 16-bit numbers (R13). -/
theorem epochDiff_eq_toInt (a b : Nat) : epochDiff a b = (BitVec.ofNat 16 b - BitVec.ofNat 16 a).toInt := by
  rw [epochDiff, signed_eq_toInt]
  congr 1
  apply BitVec.eq_of_toNat_eq
  simp only [BitVec.toNat_ofNat, BitVec.toNat_sub]
  omega

/-- The signed difference of two numbers in a word is their own when it fits. -/
theorem toInt_ofNat_sub (w x y : Nat) (h : ((y : Int) - x).natAbs < 2 ^ (w - 1)) :
    (BitVec.ofNat w y - BitVec.ofNat w x).toInt = (y : Int) - x := by
  rcases w with _ | w
  · have : (y : Int) - x = 0 := by simpa using h
    simp [this]
  · simp only [Nat.add_sub_cancel] at h
    have hz : (2 : Int) ^ w = ((2 ^ w : Nat) : Int) := by norm_cast
    rw [← BitVec.ofInt_natCast, ← BitVec.ofInt_natCast, BitVec.toInt_sub, BitVec.toInt_ofInt, BitVec.toInt_ofInt,
      ← Int.sub_bmod]
    apply Int.bmod_eq_of_le_mul_two <;> push_cast <;> rw [Int.pow_succ, hz] <;> omega

theorem tDiff_ofNat (x y : Nat) (h : ((y : Int) - x).natAbs < 2 ^ 63) :
    tDiff (BitVec.ofNat 64 x) (BitVec.ofNat 64 y) = (y : Int) - x := toInt_ofNat_sub 64 x y h

theorem tLt_ofNat (x y : Nat) (h : ((y : Int) - x).natAbs < 2 ^ 63) :
    tLt (BitVec.ofNat 64 x) (BitVec.ofNat 64 y) = true ↔ x < y := by
  rw [tLt, tDiff_ofNat x y h, decide_eq_true_iff]; omega

theorem tLe_ofNat (x y : Nat) (h : ((y : Int) - x).natAbs < 2 ^ 63) :
    tLe (BitVec.ofNat 64 x) (BitVec.ofNat 64 y) = true ↔ x ≤ y := by
  rw [tLe, tDiff_ofNat x y h, decide_eq_true_iff]; omega

theorem epochDiff_mod (a b : Nat) (h : ((b : Int) - a).natAbs < 32768) :
    epochDiff (a % 65536) (b % 65536) = (b : Int) - a := by
  have hm : ∀ x : Nat, BitVec.ofNat 16 (x % 65536) = BitVec.ofNat 16 x := fun x =>
    BitVec.eq_of_toNat_eq (by simp)
  rw [epochDiff_eq_toInt, hm, hm]
  exact toInt_ofNat_sub 16 a b h

/-- Settles O16: both comparisons are the signed difference of the two words, and that is exact while it fits. -/
theorem timeComparison : Obligations.TimeComparison :=
  ⟨fun _ _ => rfl, fun x y h => ⟨tDiff_ofNat x y h, tLt_ofNat x y h, tLe_ofNat x y h⟩, epochDiff_eq_toInt, epochDiff_mod⟩

end Sys2Proof.Machine

/-! PROOFS. Frames, rows, and what landing records and freeing pages change. -/
namespace Sys2Proof.Machine

/-! ### Frames -/

theorem Hub.onlyIn_refl (h : Hub) (cs : List Chapter) : h.onlyIn cs h := by
  intro c _; cases c <;> rfl

theorem Hub.onlyIn_trans {h g t : Hub} {cs : List Chapter} (hg : h.onlyIn cs g) (gt : g.onlyIn cs t) : h.onlyIn cs t := by
  intro c hc
  have h1 := hg c hc
  have h2 := gt c hc
  cases c <;> exact h2.trans h1

theorem Hub.onlyIn_mono {h t : Hub} {cs ds : List Chapter} (ht : h.onlyIn cs t) (hs : cs ⊆ ds) : h.onlyIn ds t :=
  fun c hc => ht c fun hm => hc (hs hm)

/-- A frame, chapter by chapter. -/
theorem Hub.onlyIn_iff (h t : Hub) (cs : List Chapter) : h.onlyIn cs t ↔
    (.cfg ∉ cs → t.cfg = h.cfg) ∧ (.sys ∉ cs → t.sys = h.sys) ∧ (.host ∉ cs → t.host = h.host) ∧ (.evt ∉ cs → t.evt = h.evt) ∧
    (.clk ∉ cs → t.clk = h.clk) ∧ (.tb ∉ cs → t.tb = h.tb) ∧ (.jrn ∉ cs → t.jrn = h.jrn) ∧ (.sto ∉ cs → t.sto = h.sto) ∧
    (.act ∉ cs → t.act = h.act) ∧ (.fe ∉ cs → t.fe = h.fe) ∧ (.flt ∉ cs → t.flt = h.flt) ∧ (.cal ∉ cs → t.cal = h.cal) ∧
    (.trg ∉ cs → t.trg = h.trg) ∧ (.cod ∉ cs → t.cod = h.cod) ∧ (.tiu ∉ cs → t.tiu = h.tiu) ∧ (.net ∉ cs → t.net = h.net) ∧
    (.sl ∉ cs → t.sl = h.sl) ∧ (.casc ∉ cs → t.casc = h.casc) ∧ (.tx ∉ cs → t.tx = h.tx) ∧ (.free ∉ cs → t.free = h.free) := by
  constructor
  · intro H
    exact ⟨H _, H _, H _, H _, H _, H _, H _, H _, H _, H _, H _, H _, H _, H _, H _, H _, H _, H _, H _, H _⟩
  · rintro ⟨_, _, _, _, _, _, _, _, _, _, _, _, _, _, _, _, _, _, _, _⟩ c hc
    cases c <;> simp_all [Hub.same]

/-! ### Rows -/

/-- What a row of a powered hub does is what its operation does. -/
theorem does_row {i : Instr} {s : State} {f : Hub → Hub} {cs : List Chapter} {P : Hub → Prop} (hi : exec i s = s.row f)
    (hp : s.hub.powered = true) (hf : s.hub.onlyIn cs (f s.hub)) (hP : P (f s.hub)) : Does i s cs P :=
  ⟨{ s with hub := f s.hub }, by simp [hi, State.row, State.powerRow, hp], rfl, hf, hP⟩

/-- A row whose operation leaves the hub as it is does nothing. -/
theorem does_nothing {i : Instr} {s : State} {f : Hub → Hub} (hi : exec i s = s.row f) (hp : s.hub.powered = true)
    (hf : f s.hub = s.hub) : Does i s [] fun _ => True :=
  does_row hi hp (hf.symm ▸ s.hub.onlyIn_refl []) trivial

/-! ### Messages touch the host interface in its pending bits alone -/

theorem Hub.msix_host (h : Hub) (v : Nat) : ∃ p, (h.msix v).host = { h.host with pba := p } := by
  unfold Hub.msix
  split
  · exact ⟨_, rfl⟩
  · split <;> exact ⟨_, rfl⟩

theorem Hub.edge_host (h : Hub) (was on : Bool) (v : Nat) : ∃ p, (h.edge was on v).host = { h.host with pba := p } := by
  unfold Hub.edge
  split
  · exact h.msix_host v
  · exact ⟨_, rfl⟩

theorem Hub.raise_host (h : Hub) (ev : Nat) (data : List Byte) : ∃ p, (h.raise ev data).host = { h.host with pba := p } := by
  unfold Hub.raise
  dsimp only
  split
  · exact ⟨_, rfl⟩
  · exact Hub.edge_host _ _ _ _

/-! ### What landing changes -/

/-- From `h` to `g` records landed and pages were freed: the channel groups, the descriptors that wait and the acknowledgements
stay. -/
structure Hub.Lands (h g : Hub) : Prop where
  only : h.onlyIn [.jrn, .sto, .evt, .host, .tx] g
  groups : g.jrn.groups = h.jrn.groups
  descReq : g.jrn.descReq = h.jrn.descReq
  ackTo : ∀ c, (g.jrn.consumers.get c).ackTo = (h.jrn.consumers.get c).ackTo

theorem Hub.Lands.refl (h : Hub) : h.Lands h := ⟨h.onlyIn_refl _, rfl, rfl, fun _ => rfl⟩

theorem Hub.Lands.trans {h g t : Hub} (hg : h.Lands g) (gt : g.Lands t) : h.Lands t :=
  ⟨Hub.onlyIn_trans hg.only gt.only, gt.groups.trans hg.groups, gt.descReq.trans hg.descReq, fun c => (gt.ackTo c).trans (hg.ackTo c)⟩

theorem Hub.Lands.foldl {α : Type} {f : Hub → α → Hub} (hf : ∀ (g : Hub) a, g.Lands (f g a)) (l : List α) (h : Hub) :
    h.Lands (l.foldl f h) := by
  induction l generalizing h with
  | nil => exact .refl h
  | cons a l ih => exact (hf h a).trans (ih _)

/-- A change of the journal that keeps what landing keeps. -/
theorem Hub.lands_jrn (h : Hub) (j : JrnSt) (hg : j.groups = h.jrn.groups) (hd : j.descReq = h.jrn.descReq)
    (ha : ∀ c, (j.consumers.get c).ackTo = (h.jrn.consumers.get c).ackTo) : h.Lands { h with jrn := j } :=
  ⟨by simp [Hub.onlyIn_iff], hg, hd, ha⟩

/-- Landing may begin with such a change. -/
theorem Hub.Lands.of_jrn {h t : Hub} {j : JrnSt} (ht : ({ h with jrn := j } : Hub).Lands t) (hg : j.groups = h.jrn.groups)
    (hd : j.descReq = h.jrn.descReq) (ha : ∀ c, (j.consumers.get c).ackTo = (h.jrn.consumers.get c).ackTo) : h.Lands t :=
  (h.lands_jrn j hg hd ha).trans ht

theorem Hub.raise_lands (h : Hub) (ev : Nat) (data : List Byte) : h.Lands (h.raise ev data) :=
  ⟨by simp [Hub.onlyIn_iff], by simp, by simp, by simp⟩

theorem Hub.raiseLimited_lands (h : Hub) (ev : Nat) (data : List Byte) : h.Lands (h.raiseLimited ev data) :=
  ⟨by simp [Hub.onlyIn_iff], by simp, by simp, by simp⟩

theorem Hub.saveState_lands (h : Hub) (handle : Option Nat) : h.Lands (h.saveState handle) := by
  unfold Hub.saveState
  split
  · exact .refl h
  · exact ⟨by simp [Hub.onlyIn_iff], rfl, rfl, fun _ => rfl⟩

theorem Hub.jrnState_lands (h : Hub) : h.Lands h.jrnState := by
  unfold Hub.jrnState
  dsimp only
  split_ifs
  · exact .refl h
  · exact .of_jrn (Hub.raise_lands _ _ _) rfl rfl fun _ => rfl
  · exact .of_jrn (Hub.raise_lands _ _ _) rfl rfl fun _ => rfl
  · exact .of_jrn (Hub.raise_lands _ _ _) rfl rfl fun _ => rfl
  · exact .of_jrn (Hub.raise_lands _ _ _) rfl rfl fun _ => rfl
  · exact .refl h

theorem Hub.jrnDegrade_lands (h : Hub) : h.Lands h.jrnDegrade := by
  unfold Hub.jrnDegrade
  split
  · exact .of_jrn (Hub.raise_lands _ _ _) rfl rfl fun _ => rfl
  · exact .refl h

/-- A write of one consumer that keeps its acknowledgements keeps all. -/
theorem ackTo_put (t : Tab Consumer) (c : Nat) (x : Consumer) (hx : x.ackTo = (t.get c).ackTo) (d : Nat) :
    ((t.put c x).get d).ackTo = (t.get d).ackTo := by
  rw [Tab.get_put]
  split
  · next hd => rw [hx, hd]
  · rfl

theorem Hub.skipOn_lands (h : Hub) (c : Nat) : h.Lands (h.skipOn c) := by
  unfold Hub.skipOn
  dsimp only
  split
  · exact .of_jrn (Hub.raise_lands _ _ _) rfl rfl (ackTo_put _ _ _ rfl)
  · exact .refl h

theorem Hub.skipDropped_lands (h : Hub) (dropped : List Rec) : h.Lands (h.skipDropped dropped) := by
  refine .foldl (fun g c => ?_) _ _
  dsimp only
  split
  · exact .refl g
  · exact .of_jrn (Hub.skipOn_lands _ c) rfl rfl (ackTo_put _ _ _ rfl)

theorem Hub.pagesFree_lands (h : Hub) : h.Lands h.pagesFree := by
  unfold Hub.pagesFree
  dsimp only
  split
  · exact .refl h
  · have retired : ∀ (l : List Nat) (g : Hub), g.Lands (l.foldl (fun g n => (g.raise 67 (b4 n)).saveState none) g) :=
      .foldl fun g n => (g.raise_lands _ _).trans (Hub.saveState_lands _ _)
    exact .of_jrn ((((Hub.skipDropped_lands _ _).trans (retired _ _)).trans (Hub.jrnDegrade_lands _)).trans (Hub.jrnState_lands _))
      rfl rfl fun _ => rfl

theorem Hub.takeTicket_lands (h : Hub) : h.Lands h.takeTicket.2 := by
  unfold Hub.takeTicket
  dsimp only
  split
  · exact .of_jrn (Hub.saveState_lands _ none) rfl rfl fun _ => rfl
  · exact h.lands_jrn _ rfl rfl fun _ => rfl

theorem Hub.takePage_lands {h g : Hub} {w t n : Nat} {ss : List Share} (e : h.takePage w ss t = some (n, g)) : h.Lands g := by
  unfold Hub.takePage at e
  split at e
  · exact absurd e nofun
  · obtain ⟨-, rfl⟩ := Prod.mk.inj (Option.some.inj e)
    exact h.lands_jrn _ rfl rfl fun _ => rfl

theorem Hub.appendBytes_lands {h g : Hub} {w t fuel n : Nat} {ss : List Share} {starts : Bool} {acc ps : List Nat}
    (e : h.appendBytes w ss t starts fuel n acc = some (ps, g)) : h.Lands g := by
  induction fuel generalizing h starts n acc with
  | zero => obtain ⟨-, rfl⟩ := Prod.mk.inj (Option.some.inj e); exact .refl h
  | succ fuel ih =>
    unfold Hub.appendBytes at e
    dsimp only at e
    split at e
    · obtain ⟨-, rfl⟩ := Prod.mk.inj (Option.some.inj e); exact .refl h
    · split at e
      · split at e
        · exact .of_jrn (ih e) rfl rfl fun _ => rfl
        · split at e
          · exact absurd e nofun
          · next hp => exact (Hub.takePage_lands hp).trans (ih e)
      · split at e
        · exact absurd e nofun
        · next hp => exact (Hub.takePage_lands hp).trans (ih e)

theorem Hub.append_lands {h g : Hub} {w t n : Nat} {ss : List Share} {starts : Bool} {ps : List Nat}
    (e : h.append w ss t n starts = some (ps, g)) : h.Lands g := Hub.appendBytes_lands e

theorem Hub.tryLand_lands {h g : Hub} {r : Rec} (e : h.tryLand r = some g) : h.Lands g := by
  unfold Hub.tryLand at e
  dsimp only at e
  split at e
  · next ha =>
    obtain rfl := Option.some.inj e
    exact (h.takeTicket_lands.trans (Hub.append_lands ha)).trans
      (.of_jrn ((Hub.pagesFree_lands _).trans (Hub.jrnState_lands _)) rfl rfl fun _ => rfl)
  · exact absurd e nofun

theorem Hub.landWhole_lands (h : Hub) (r : Rec) : h.Lands (h.landWhole r) := by
  unfold Hub.landWhole
  split
  · exact .refl h
  · split
    · next g e =>
      split at e
      · exact Hub.tryLand_lands e
      · exact absurd e nofun
    · split
      · exact .of_jrn (Hub.raiseLimited_lands _ _ _) rfl rfl fun _ => rfl
      · exact h.lands_jrn _ rfl rfl fun _ => rfl

theorem Hub.land_lands (h : Hub) (type flags group epoch : Nat) (t : T64) (body : List Byte) :
    h.Lands (h.land type flags group epoch t body) := h.landWhole_lands _

theorem Hub.landRest_lands (h : Hub) (rs : List Rec) : h.Lands (h.landRest rs) := by
  induction rs generalizing h with
  | nil => exact h.lands_jrn _ rfl rfl fun _ => rfl
  | cons r rs ih =>
    unfold Hub.landRest
    split
    · next e => exact (Hub.tryLand_lands e).trans (ih _)
    · exact h.lands_jrn _ rfl rfl fun _ => rfl

theorem Hub.freePages_lands (h : Hub) : h.Lands h.freePages := h.pagesFree_lands.trans (Hub.landRest_lands _ _)

end Sys2Proof.Machine

/-! PROOFS. The host's writes of the ferry's acknowledgements, CTRL and TAIL. -/
namespace Sys2Proof.Machine

theorem Hub.onlyIn_foldl {α : Type} {cs : List Chapter} {f : Hub → α → Hub} (hf : ∀ (g : Hub) a, g.onlyIn cs (f g a)) (l : List α)
    (h : Hub) : h.onlyIn cs (l.foldl f h) := by
  induction l generalizing h with
  | nil => exact h.onlyIn_refl cs
  | cons a l ih => exact Hub.onlyIn_trans (hf h a) (ih _)

/-! ### Landed marks (R397) -/

theorem Hub.sendLanded_onlyIn (h : Hub) (n : Nat) (all : Bool) : h.onlyIn [.sl, .tx] (h.sendLanded n all) := by
  simp [Hub.onlyIn_iff, Hub.sendLanded, Hub.laneSend, Hub.setLane]

theorem Hub.fatesPass_onlyIn (h : Hub) (fs : List OpenFrame) : h.onlyIn [.flt] (h.fatesPass fs) :=
  Hub.onlyIn_foldl (fun g _ => Hub.onlyIn_foldl (fun _ _ => by simp [Hub.onlyIn_iff, Hub.setChain]) _ g) _ h

theorem Hub.setLane_onlyIn (h : Hub) (n : Nat) (x : Lane) : h.onlyIn [.sl] (h.setLane n x) := by
  simp [Hub.onlyIn_iff, Hub.setLane]

theorem Hub.slMarks_onlyIn (h : Hub) : h.onlyIn [.flt, .sl, .tx] h.slMarks := by
  refine Hub.onlyIn_foldl (fun g n => ?_) _ _
  dsimp only
  have passed : ∀ y fs, g.onlyIn [.flt, .sl, .tx] ((g.setLane n y).fatesPass fs) := fun y fs =>
    Hub.onlyIn_trans (Hub.onlyIn_mono (g.setLane_onlyIn n y) (by decide)) (Hub.onlyIn_mono (Hub.fatesPass_onlyIn _ fs) (by decide))
  split_ifs
  · exact g.onlyIn_refl _
  · exact Hub.onlyIn_trans (passed _ _) (Hub.onlyIn_mono (Hub.sendLanded_onlyIn _ n false) (by decide))
  · exact passed _ _

/-! ### Host writes reach their registers (R6, R327, R338) -/

/-- While no domain is held a write takes effect at once. -/
theorem Hub.hostWrite_running (h : Hub) (a : Nat) (w : Word) (hh : h.clk.held = false) : h.hostWrite a w = h.regWrite a w := by
  simp [Hub.hostWrite, Hub.heldAddr, hh]

theorem Hub.regWrite_ferry (h : Hub) (o : Nat) (w : Word) (ho : o < 0x80000) : h.regWrite (0x100000 + o) w = h.writeFerry o w := by
  unfold Hub.regWrite
  dsimp only
  rw [if_neg (by omega), if_neg (by omega), if_neg (by omega), if_neg (by omega), if_neg (by omega), if_neg (by omega),
    if_pos (by omega), Nat.add_sub_cancel_left]

theorem Hub.regWrite_live (h : Hub) (o : Nat) (w : Word) (ho : o < 0x80000) : h.regWrite (0x180000 + o) w = h.writeLive o w := by
  unfold Hub.regWrite
  dsimp only
  rw [if_neg (by omega), if_neg (by omega), if_neg (by omega), if_neg (by omega), if_neg (by omega), if_neg (by omega),
    if_neg (by omega), if_pos (by omega), Nat.add_sub_cancel_left]

theorem Hub.writeFerry_ctrl (h : Hub) (c : Fin 4) (w : Word) : h.writeFerry (256 * c) w = h.ferryCtrl c w := by
  have hc := c.isLt
  unfold Hub.writeFerry
  dsimp only
  rw [if_pos (by omega), if_pos (by omega), show 256 * c.val / 256 = c by omega]

theorem Hub.writeFerry_tail (h : Hub) (c : Fin 4) (w : Word) : h.writeFerry (0x10 + 256 * c) w = h.ferryTail c w := by
  have hc := c.isLt
  unfold Hub.writeFerry
  dsimp only
  rw [if_pos (by omega), if_neg (by omega), if_neg (by omega), if_neg (by omega), if_pos (by omega),
    show (0x10 + 256 * c.val) / 256 = c by omega]

theorem Hub.writeFerry_ackLo (h : Hub) (c : Fin 4) (o : Fin 16) (w : Word) :
    h.writeFerry (0x80 + 256 * c + 8 * o) w = h.ferryAckLo c o w := by
  have hc := c.isLt
  have ho := o.isLt
  unfold Hub.writeFerry
  dsimp only
  rw [if_pos (by omega), if_neg (by omega), if_neg (by omega), if_neg (by omega), if_neg (by omega), if_pos (by omega),
    if_pos (by omega), show (0x80 + 256 * c.val + 8 * o.val) / 256 = c by omega,
    show ((0x80 + 256 * c.val + 8 * o.val) % 256 - 0x80) / 8 = o by omega]

theorem Hub.writeFerry_ackHi (h : Hub) (c : Fin 4) (o : Fin 16) (w : Word) :
    h.writeFerry (0x84 + 256 * c + 8 * o) w = h.ferryAckHi c o w := by
  have hc := c.isLt
  have ho := o.isLt
  unfold Hub.writeFerry
  dsimp only
  rw [if_pos (by omega), if_neg (by omega), if_neg (by omega), if_neg (by omega), if_neg (by omega), if_pos (by omega),
    if_neg (by omega), show (0x84 + 256 * c.val + 8 * o.val) / 256 = c by omega,
    show ((0x84 + 256 * c.val + 8 * o.val) % 256 - 0x80) / 8 = o by omega]

/-! ### Acknowledgement writes (R323, R327) -/

/-- For consumers 0 and 3 the lower half waits in its register. -/
theorem Hub.ferryAckLo_host (h : Hub) {c : Nat} (o : Nat) (w : Word) (hc : c = 0 ∨ c = 3) : h.ferryAckLo c o w =
    h.setCons c { h.jrn.consumers.get c with ackLo := (h.jrn.consumers.get c).ackLo.put o w } := if_pos hc

theorem Hub.ferryAckLo_clk (h : Hub) (c o : Nat) (w : Word) : (h.ferryAckLo c o w).clk = h.clk := by
  unfold Hub.ferryAckLo
  split <;> rfl

/-- Both halves of an acknowledgement take effect together. -/
theorem ferryAckWrite_eq (c : Fin 4) (o : Fin 16) (lo hi : Word) (h : Hub) (hh : h.clk.held = false) :
    ferryAckWrite c o lo hi h = (h.ferryAckLo c o lo).ferryAckHi c o hi := by
  have h1 : h.hostWrite (0x100080 + 256 * c + 8 * o) lo = h.ferryAckLo c o lo := by
    rw [Hub.hostWrite_running _ _ _ hh, ← Hub.writeFerry_ackLo, ← Hub.regWrite_ferry _ _ _ (by omega)]
    congr 1; omega
  rw [ferryAckWrite, h1, Hub.hostWrite_running _ _ _ (by rw [Hub.ferryAckLo_clk, hh]), ← Hub.writeFerry_ackHi,
    ← Hub.regWrite_ferry _ _ _ (by omega)]
  congr 1; omega

/-- Consumers 1 and 2 take no acknowledgement from the host. -/
theorem ferryAckWrite_readOnly (c : Fin 4) (o : Fin 16) (lo hi : Word) (h : Hub) (hh : h.clk.held = false) (hc : c.val = 1 ∨ c.val = 2) :
    ferryAckWrite c o lo hi h = h := by
  have hn : ¬ (c.val = 0 ∨ c.val = 3) := by omega
  rw [ferryAckWrite_eq c o lo hi h hh]
  simp only [Hub.ferryAckLo, Hub.ferryAckHi, if_neg hn]

theorem Hub.acknowledge_onlyIn (h : Hub) (c o t : Nat) : h.onlyIn [.jrn, .sto, .evt, .host, .tx] (h.acknowledge c o t) := by
  have acked : ∀ j : JrnSt, h.onlyIn [.jrn, .sto, .evt, .host, .tx] { h with jrn := j } := fun j => by simp [Hub.onlyIn_iff]
  unfold Hub.acknowledge
  dsimp only
  split_ifs
  · exact h.onlyIn_refl _
  · exact Hub.onlyIn_trans (acked _) (Hub.raise_lands _ _ _).only
  all_goals exact Hub.onlyIn_trans (acked _) (Hub.freePages_lands _).only

/-- An acknowledgement beyond what was offered is refused (R323). -/
theorem Hub.acknowledge_beyond (h : Hub) (c o t : Nat) (ha : (h.jrn.consumers.get c).ackTo.get o < t + 1)
    (hf : (h.jrn.consumers.get c).offered.get o < t + 1) :
    (h.acknowledge c o t).jrn = { h.jrn with consumers := (h.jrn.consumers.put c
      { h.jrn.consumers.get c with status := setBit (h.jrn.consumers.get c).status 2 }) } := by
  unfold Hub.acknowledge
  dsimp only
  rw [if_neg (by omega), if_pos hf, Hub.raise_jrn]

/-- One that was offered is taken. -/
theorem Hub.acknowledge_offered (h : Hub) (c o t : Nat) (ha : (h.jrn.consumers.get c).ackTo.get o < t + 1)
    (hf : t + 1 ≤ (h.jrn.consumers.get c).offered.get o) :
    (((h.acknowledge c o t).jrn.consumers.get c).ackTo).get o = t + 1 := by
  unfold Hub.acknowledge
  dsimp only
  rw [if_neg (by omega), if_neg (by omega), (Hub.freePages_lands _).ackTo]
  simp

/-- Consumers 0 and 3 acknowledge the hub's own tickets up to the one written. -/
theorem ferryAckWrite_own (c : Fin 4) (o : Fin 16) (lo hi : Word) (h : Hub) (hh : h.clk.held = false) (hc : c.val = 0 ∨ c.val = 3)
    (ho : o.val = h.sys.straps.hubId) :
    ferryAckWrite c o lo hi h = ((h.ferryAckLo c o lo).acknowledge c o (mask64 lo hi)).slMarks := by
  have hx : ((h.ferryAckLo c o lo).jrn.consumers.get c).ackLo.get o = lo := by
    rw [h.ferryAckLo_host o lo hc]; simp [Hub.setCons]
  have hs : ((h.ferryAckLo c o lo).acknowledge c o (mask64 lo hi)).slMarks.sys = h.sys := by
    have h1 := Hub.slMarks_onlyIn ((h.ferryAckLo c o lo).acknowledge c o (mask64 lo hi)) .sys (by decide)
    have h2 := Hub.acknowledge_onlyIn (h.ferryAckLo c o lo) c o (mask64 lo hi) .sys (by decide)
    rw [h.ferryAckLo_host o lo hc] at h1 h2 ⊢
    exact h1.trans h2
  rw [ferryAckWrite_eq c o lo hi h hh, Hub.ferryAckHi, if_pos hc, hx, Hub.ackFrom, if_pos (Or.inl (by rw [hs, ho]))]

theorem ferryAckWrite_onlyIn (c : Fin 4) (o : Fin 16) (lo hi : Word) (h : Hub) (hh : h.clk.held = false) (hc : c.val = 0 ∨ c.val = 3)
    (ho : o.val = h.sys.straps.hubId) : h.onlyIn [.jrn, .evt, .host, .sto, .flt, .sl, .tx] (ferryAckWrite c o lo hi h) := by
  rw [ferryAckWrite_own c o lo hi h hh hc ho]
  have low : h.onlyIn [.jrn] (h.ferryAckLo c o lo) := by rw [h.ferryAckLo_host o lo hc]; simp [Hub.onlyIn_iff, Hub.setCons]
  exact Hub.onlyIn_trans (Hub.onlyIn_trans (Hub.onlyIn_mono low (by decide)) (Hub.onlyIn_mono (Hub.acknowledge_onlyIn _ _ _ _) (by decide)))
    (Hub.onlyIn_mono (Hub.slMarks_onlyIn _) (by decide))

theorem ferryAckWrite_jrn (c : Fin 4) (o : Fin 16) (lo hi : Word) (h : Hub) (hh : h.clk.held = false) (hc : c.val = 0 ∨ c.val = 3)
    (ho : o.val = h.sys.straps.hubId) :
    (ferryAckWrite c o lo hi h).jrn = ((h.setCons c { h.jrn.consumers.get c with
      ackLo := (h.jrn.consumers.get c).ackLo.put o lo }).acknowledge c o (mask64 lo hi)).jrn := by
  rw [ferryAckWrite_own c o lo hi h hh hc ho, h.ferryAckLo_host o lo hc]
  exact Hub.slMarks_onlyIn _ .jrn (by decide)

/-! ### CTRL and TAIL (R326, R327) -/

theorem ferryCtrlWrite_eq (c : Fin 4) (w : Word) (h : Hub) (hh : h.clk.held = false) : ferryCtrlWrite c w h = h.ferryCtrl c w := by
  rw [ferryCtrlWrite, Hub.hostWrite_running _ _ _ hh, Hub.regWrite_ferry _ _ _ (by omega), Hub.writeFerry_ctrl]

/-- A restart writes its own consumer alone, and delivery starts from the acknowledgements. -/
theorem Hub.skipOn_consumers (h : Hub) (c : Nat) :
    (∀ k, k ≠ c → (h.skipOn c).jrn.consumers.get k = h.jrn.consumers.get k) ∧
    ((h.skipOn c).jrn.consumers.get c).ctrl = (h.jrn.consumers.get c).ctrl ∧
    ((h.skipOn c).jrn.consumers.get c).next = (h.jrn.consumers.get c).next ∧
    ((h.skipOn c).jrn.consumers.get c).buf = (h.jrn.consumers.get c).buf := by
  unfold Hub.skipOn
  dsimp only
  split
  · refine ⟨fun k hk => ?_, ?_, ?_, ?_⟩ <;> simp [Tab.get_put]
    exact fun hk' => absurd hk' hk
  · exact ⟨fun _ _ => rfl, rfl, rfl, rfl⟩

theorem Hub.restartConsumer_consumers (h : Hub) (c : Nat) :
    (∀ k, k ≠ c → (h.restartConsumer c).jrn.consumers.get k = h.jrn.consumers.get k) ∧
    ((h.restartConsumer c).jrn.consumers.get c).ctrl = (h.jrn.consumers.get c).ctrl ∧
    ((h.restartConsumer c).jrn.consumers.get c).next = (h.jrn.consumers.get c).ackTo ∧
    ((h.restartConsumer c).jrn.consumers.get c).buf = none ∧
    ((h.restartConsumer c).jrn.consumers.get c).ackTo = (h.jrn.consumers.get c).ackTo := by
  unfold Hub.restartConsumer
  obtain ⟨hk, hctrl, hnext, hbuf⟩ := Hub.skipOn_consumers { h with jrn := { h.jrn with
    consumers := h.jrn.consumers.upd c fun x => { x with next := x.ackTo, stream := [], buf := none }
    ferry := if c = 1 then { h.jrn.ferry with flight := [], restart := true } else h.jrn.ferry } } c
  refine ⟨fun k hkc => (hk k hkc).trans ?_, hctrl.trans ?_, hnext.trans ?_, hbuf.trans ?_, ((Hub.skipOn_lands _ c).ackTo c).trans ?_⟩ <;>
    simp [*]

theorem Hub.ferryCtrl_onlyIn (h : Hub) (c : Nat) (w : Word) : h.onlyIn [.jrn, .evt, .host, .tx] (h.ferryCtrl c w) := by
  unfold Hub.ferryCtrl
  dsimp only
  split <;> simp [Hub.onlyIn_iff, Hub.setCons]

theorem Hub.ferryCtrl_ctrl (h : Hub) (c : Nat) (w : Word) : ((h.ferryCtrl c w).jrn.consumers.get c).ctrl = w &&& 0x801F0FFF := by
  unfold Hub.ferryCtrl
  dsimp only
  split
  · rw [(Hub.restartConsumer_consumers _ c).2.1]; simp [Hub.setCons]
  · simp [Hub.setCons]

end Sys2Proof.Machine

/-! PROOFS. Ferry rings and live queues (O37). -/
namespace Sys2Proof.Machine

/-- A write to CTRL keeps its defined fields; setting ENABLE restarts delivery (R327). -/
theorem Hub.ferryCtrl_consumers (h : Hub) (c : Nat) (w : Word) :
    (∀ k, k ≠ c → (h.ferryCtrl c w).jrn.consumers.get k = h.jrn.consumers.get k) ∧
    (bit w 31 = true → bit (h.jrn.consumers.get c).ctrl 31 = false → c = 0 ∨ c = 3 →
      ((h.ferryCtrl c w).jrn.consumers.get c).next = (h.jrn.consumers.get c).ackTo ∧
      ((h.ferryCtrl c w).jrn.consumers.get c).buf = none) ∧
    (bit w 31 = false → (h.ferryCtrl c w).jrn.consumers.get c = { h.jrn.consumers.get c with ctrl := w &&& 0x801F0FFF }) := by
  have hv : bit (w &&& 0x801F0FFF) 31 = bit w 31 := by simp [bit]
  obtain ⟨hother, -, hnext, hbuf, -⟩ :=
    Hub.restartConsumer_consumers (h.setCons c { h.jrn.consumers.get c with ctrl := w &&& 0x801F0FFF }) c
  unfold Hub.ferryCtrl
  dsimp only
  rw [hv]
  refine ⟨fun k hk => ?_, fun hw hold hc => ?_, fun hw => ?_⟩
  · split
    · rw [hother k hk]; simp [Hub.setCons, hk]
    · simp [Hub.setCons, hk]
  · rw [if_pos (by simpa [hw, hold] using hc), hnext, hbuf]
    simp [Hub.setCons]
  · rw [if_neg (by simp [hw])]
    simp [Hub.setCons]

/-! ### A host ring (R326) -/

/-- What delivery to the ring of consumer `c` leaves unchanged. -/
structure Hub.RingKeeps (c : Nat) (h g : Hub) : Prop where
  only : h.onlyIn [.jrn, .sys, .host, .tx] g
  others : ∀ k, k ≠ c → g.jrn.consumers.get k = h.jrn.consumers.get k
  tail : (g.jrn.consumers.get c).tail = (h.jrn.consumers.get c).tail

theorem Hub.RingKeeps.refl (c : Nat) (h : Hub) : h.RingKeeps c h := ⟨h.onlyIn_refl _, fun _ _ => rfl, rfl⟩

theorem Hub.RingKeeps.trans {c : Nat} {h g t : Hub} (hg : h.RingKeeps c g) (gt : g.RingKeeps c t) : h.RingKeeps c t :=
  ⟨Hub.onlyIn_trans hg.only gt.only, fun k hk => (gt.others k hk).trans (hg.others k hk), gt.tail.trans hg.tail⟩

theorem Hub.ringKeeps_of_jrn {c : Nat} {h g : Hub} (ho : h.onlyIn [.sys, .host, .tx] g) : h.RingKeeps c g := by
  have hj : g.jrn = h.jrn := ho .jrn (by decide)
  exact ⟨Hub.onlyIn_mono ho (by decide), fun k _ => by rw [hj], by rw [hj]⟩

theorem Hub.setCons_ringKeeps (h : Hub) (c : Nat) (x : Consumer) (hx : x.tail = (h.jrn.consumers.get c).tail) :
    h.RingKeeps c (h.setCons c x) :=
  ⟨by simp [Hub.onlyIn_iff, Hub.setCons], fun k hk => by simp [Hub.setCons, hk], by simp [Hub.setCons, hx]⟩

theorem Hub.ringWrite_onlyIn (h : Hub) (addr : Nat) (bytes : List Byte) : h.onlyIn [.host, .tx] (h.ringWrite addr bytes) := by
  unfold Hub.ringWrite
  split <;> simp [Hub.onlyIn_iff]

theorem Hub.ringWrite_ringKeeps (c : Nat) (h : Hub) (addr : Nat) (bytes : List Byte) : h.RingKeeps c (h.ringWrite addr bytes) :=
  Hub.ringKeeps_of_jrn (Hub.onlyIn_mono (h.ringWrite_onlyIn addr bytes) (by decide))

theorem Hub.ringBad_ringKeeps (c : Nat) (h : Hub) : h.RingKeeps c h.ringBad :=
  Hub.ringKeeps_of_jrn (by simp [Hub.onlyIn_iff, Hub.ringBad])

theorem Hub.edge_ringKeeps (c : Nat) (h : Hub) (was on : Bool) (v : Nat) : h.RingKeeps c (h.edge was on v) :=
  Hub.ringKeeps_of_jrn (by simp [Hub.onlyIn_iff])

/-- Within a delivery the consumer's own registers are written. -/
theorem Hub.RingKeeps.over_setCons {c : Nat} {h g t : Hub} {x : Consumer} (hg : h.RingKeeps c g) (gt : (g.setCons c x).RingKeeps c t)
    (hx : x.tail = (h.jrn.consumers.get c).tail) : h.RingKeeps c t :=
  (hg.trans (g.setCons_ringKeeps c x (hx.trans hg.tail.symm))).trans gt

theorem Hub.bufDone_ringKeeps (c : Nat) (h : Hub) (flushed : Bool) : h.RingKeeps c (h.bufDone c flushed) := by
  unfold Hub.bufDone
  dsimp only
  split
  · exact .refl c h
  · exact .over_setCons (h.ringWrite_ringKeeps c _ _) (Hub.edge_ringKeeps c _ _ _ _) rfl

theorem Hub.bufPlace_ringKeeps (c : Nat) (h : Hub) : h.RingKeeps c (h.bufPlace c) := by
  unfold Hub.bufPlace
  dsimp only
  split
  · exact .refl c h
  · have written : ∀ (p : Prop) [Decidable p] (a : Nat) (bs : List Byte), h.RingKeeps c (if p then h else h.ringWrite a bs) := by
      intro p _ a bs
      split
      · exact .refl c h
      · exact h.ringWrite_ringKeeps c a bs
    split
    · exact .over_setCons (written _ _ _) (Hub.bufDone_ringKeeps c _ _) rfl
    · exact .over_setCons (written _ _ _) (.refl c _) rfl

theorem Hub.ringFill_ringKeeps (c : Nat) (h : Hub) (ds : List (Nat × Nat)) : h.RingKeeps c (h.ringFill c ds) := by
  induction ds generalizing h with
  | nil => exact h.bufPlace_ringKeeps c
  | cons d ds ih =>
    unfold Hub.ringFill
    refine (h.bufPlace_ringKeeps c).trans ?_
    dsimp only
    split_ifs
    · exact .refl c _
    · exact Hub.ringBad_ringKeeps c _
    · exact .over_setCons (.refl c _) (ih _) rfl

theorem Hub.ringGo_ringKeeps (c : Nat) (h : Hub) (ds : List (Nat × Nat)) : h.RingKeeps c (h.ringGo c ds) := by
  unfold Hub.ringGo
  dsimp only
  split_ifs
  · exact .refl c h
  · exact .refl c h
  · exact h.ringBad_ringKeeps c
  · exact h.ringFill_ringKeeps c _

/-- With no byte in the stream and no buffer begun, nothing is delivered. -/
theorem Hub.ringGo_idle (c : Nat) (h : Hub) (ds : List (Nat × Nat)) (hs : (h.jrn.consumers.get c).stream = [])
    (hb : (h.jrn.consumers.get c).buf = none) : h.ringGo c ds = h := by
  have place : h.bufPlace c = h := by simp [Hub.bufPlace, hb]
  have fill : ∀ ds, h.ringFill c ds = h := by
    intro ds
    cases ds with
    | nil => exact place
    | cons d ds => simp [Hub.ringFill, place, hs]
  simp [Hub.ringGo, hs, fill]

theorem ferryTailWrite_eq (c : Fin 4) (w : Word) (descs : List (Nat × Nat)) (h : Hub) (hh : h.clk.held = false) :
    ferryTailWrite c w descs h = (h.ferryTail c w).ringGo c descs := by
  have ht : h.hostWrite (0x100010 + 256 * c) w = h.ferryTail c w := by
    rw [Hub.hostWrite_running _ _ _ hh, ← Hub.writeFerry_tail, ← Hub.regWrite_ferry _ _ _ (by omega)]
    congr 1; omega
  rw [ferryTailWrite, ht]
  exact if_neg (by simp [Hub.ferryTail, Hub.setCons, hh])

/-! ### Live queues (R10, R337, R338) -/

theorem lqFlushWrite_eq (q : Fin 16) (h : Hub) (hh : h.clk.held = false) : lqFlushWrite q h = lqFlush q h := by
  have hq := q.isLt
  rw [lqFlushWrite, Hub.hostWrite_running _ _ _ hh, show 0x187010 + 0x8000 * q.val = 0x180000 + (0x7010 + 0x8000 * q.val) by omega,
    Hub.regWrite_live _ _ _ (by omega)]
  unfold Hub.writeLive
  dsimp only
  rw [if_neg (by omega), if_pos (by omega), if_pos (by decide), show (0x7010 + 0x8000 * q.val) / 0x8000 = q by omega]

/-- A host read changes live queues alone, and those in LOST alone. -/
theorem Hub.hostRead_lost (h : Hub) (a : Nat) :
    ∃ L, (h.hostRead a).2 = { h with jrn := { h.jrn with live := L } } ∧
      ∀ q, (h.jrn.live.get q).lost = 0 → (L.get q).lost = 0 := by
  unfold Hub.hostRead
  dsimp only
  split
  · refine ⟨_, rfl, fun q hq => ?_⟩
    rw [Tab.get_put]
    split
    · rfl
    · exact hq
  · exact ⟨_, rfl, fun _ hq => hq⟩

theorem Hub.hostRead_lostWord (h : Hub) (q : Nat) (hq : q < 16) (hh : h.clk.held = false) :
    h.hostRead (0x18700C + 0x8000 * q) =
      (wd (h.jrn.live.get q).lost, h.setLive q { h.jrn.live.get q with lost := 0 }) := by
  have hword : h.regRead (0x18700C + 0x8000 * q) = wd (h.jrn.live.get q).lost := by
    unfold Hub.regRead
    dsimp only
    rw [if_neg (by omega), if_neg (by omega), if_neg (by omega), if_neg (by omega), if_neg (by omega), if_neg (by omega),
      if_neg (by omega), if_pos (by omega), show 0x18700C + 0x8000 * q - 0x180000 = 0x700C + 0x8000 * q by omega]
    unfold Hub.readLive
    dsimp only
    rw [if_neg (by omega), if_neg (by omega), if_neg (by omega), if_neg (by omega), if_pos (by omega),
      show (0x700C + 0x8000 * q) / 0x8000 = q by omega]
  have hgate : h.atGate = h := by simp [Hub.atGate, hh]
  unfold Hub.hostRead
  dsimp only
  rw [if_pos (by omega), if_neg (by omega), hgate, hword, show (0x18700C + 0x8000 * q - 0x180000) / 0x8000 = q by omega]

/-- What a bus read of a word does. -/
theorem Hub.busRead_onlyIn (h : Hub) (a n : Nat) : h.onlyIn [.jrn, .tx] (h.busRead a n) := by
  refine Hub.onlyIn_foldl (fun g w => ?_) _ _
  obtain ⟨L, hL, -⟩ := g.hostRead_lost w
  simp [Hub.onlyIn_iff, hL]

/-- A LOST that reads 0 stays 0 over any reads. -/
theorem Hub.reads_keep_lost (ws : List Nat) (h : Hub) (q : Nat) (hq : (h.jrn.live.get q).lost = 0) :
    ((ws.foldl (fun (h : Hub) w => let r := h.hostRead w; r.2.send (.read w r.1)) h).jrn.live.get q).lost = 0 := by
  induction ws generalizing h with
  | nil => exact hq
  | cons w ws ih =>
    obtain ⟨L, hL, hkeep⟩ := h.hostRead_lost w
    exact ih _ (by simpa [hL] using hkeep q hq)

/-- Reads that touch the word of a LOST leave it 0. -/
theorem Hub.reads_clear_lost (ws : List Nat) (h : Hub) (q : Nat) (hq : q < 16) (hh : h.clk.held = false)
    (hw : 0x18700C + 0x8000 * q ∈ ws) :
    ((ws.foldl (fun (h : Hub) w => let r := h.hostRead w; r.2.send (.read w r.1)) h).jrn.live.get q).lost = 0 := by
  induction ws generalizing h with
  | nil => exact absurd hw nofun
  | cons w ws ih =>
    rcases List.mem_cons.mp hw with rfl | hw
    · refine Hub.reads_keep_lost ws _ q ?_
      simp [Hub.hostRead_lostWord h q hq hh, Hub.setLive]
    · obtain ⟨L, hL, -⟩ := h.hostRead_lost w
      exact ih _ (by simpa [hL] using hh) hw

theorem mem_wordsTouched (a n w : Nat) (hw : w % 4 = 0) (h1 : a < w + 4) (h2 : w < a + n) : w ∈ wordsTouched a n := by
  simp only [wordsTouched, List.mem_map, List.mem_range]
  exact ⟨w / 4 - a / 4, by omega, by omega⟩

theorem wordsTouched_word (a : Nat) (ha : a % 4 = 0) : wordsTouched a 4 = [a] := by
  have h1 : (a % 4 + 4 + 3) / 4 = 1 := by omega
  have h2 : a / 4 * 4 = a := by omega
  simp [wordsTouched, h1, h2]

theorem touchesLost_of (r : BusRead) (q : Nat) (hq : q < 16) (h1 : r.addr < 0x187010 + 0x8000 * q)
    (h2 : 0x18700C + 0x8000 * q < r.addr + r.len) : touchesLost r = true := by
  simp only [touchesLost, List.any_eq_true, List.mem_range, Bool.and_eq_true, decide_eq_true_eq]
  exact ⟨q, hq, h1, h2⟩

theorem exec_lqLostRead (s : State) (r : BusRead) (ht : touchesLost r = true) : exec (.lqLostRead r) s = s.row (lqLostRead r) :=
  if_pos ht

/-- Settles O37: each clause by what its register does. -/
theorem hostRingAndLiveRows : Obligations.HostRingAndLiveRows := by
  refine ⟨?_, ?_, ?_, ?_, ?_, ?_, ?_, ?_⟩
  · intro s c origin lo hi hp hh hc ho ha hf
    refine does_row (f := ferryAckWrite c origin lo hi) rfl hp (ferryAckWrite_onlyIn c origin lo hi _ hh hc ho) ?_
    rw [ferryAckWrite_jrn c origin lo hi _ hh hc ho, Hub.acknowledge_beyond _ _ _ _ (by simpa [Hub.setCons] using ha)
      (by simpa [Hub.setCons] using hf)]
    simp [Hub.setCons]
  · intro s c origin lo hi hp hh hc ho ha hf
    refine does_row (f := ferryAckWrite c origin lo hi) rfl hp (ferryAckWrite_onlyIn c origin lo hi _ hh hc ho) ?_
    rw [ferryAckWrite_jrn c origin lo hi _ hh hc ho, Hub.acknowledge_offered _ _ _ _ (by simpa [Hub.setCons] using ha)
      (by simpa [Hub.setCons] using hf)]
  · intro s c origin lo hi hp hc hh
    exact does_nothing (f := ferryAckWrite c origin lo hi) rfl hp (ferryAckWrite_readOnly c origin lo hi _ hh hc)
  · intro s c w hp hh
    obtain ⟨hother, hset, hoff⟩ := s.hub.ferryCtrl_consumers c w
    refine does_row (f := ferryCtrlWrite c w) rfl hp ?_ ?_ <;> rw [ferryCtrlWrite_eq c w _ hh]
    · exact s.hub.ferryCtrl_onlyIn c w
    · exact ⟨s.hub.ferryCtrl_ctrl c w, hother, hset, hoff⟩
  · intro s c w descs hp hh
    have keeps := Hub.ringGo_ringKeeps c (s.hub.ferryTail c w) descs
    refine does_row (f := ferryTailWrite c w descs) rfl hp ?_ ?_ <;> rw [ferryTailWrite_eq c w descs _ hh]
    · exact Hub.onlyIn_trans (by simp [Hub.onlyIn_iff, Hub.ferryTail, Hub.setCons]) keeps.only
    · refine ⟨keeps.tail.trans (by simp [Hub.ferryTail, Hub.setCons]),
        fun k hk => (keeps.others k hk).trans (by simp [Hub.ferryTail, Hub.setCons, hk]), fun hs hb => ?_⟩
      rw [Hub.ringGo_idle _ _ _ (by simpa [Hub.ferryTail, Hub.setCons] using hs) (by simpa [Hub.ferryTail, Hub.setCons] using hb)]
      exact ⟨rfl, rfl⟩
  · intro s q hp hh
    refine does_row (f := lqFlushWrite q) rfl hp ?_ ?_ <;> rw [lqFlushWrite_eq q _ hh]
    · simp [Hub.onlyIn_iff, lqFlush, Hub.setLive]
    · simp +contextual [lqFlush, Hub.setLive]
  · intro s r q hp hq haddr hlen hh
    have hrow := exec_lqLostRead s r (touchesLost_of r q hq (by omega) (by omega))
    refine does_row hrow hp (s.hub.busRead_onlyIn _ _) ?_
    have hread : lqLostRead r s.hub =
        (s.hub.setLive q { s.hub.jrn.live.get q with lost := 0 }).send (.read r.addr (wd (s.hub.jrn.live.get q).lost)) := by
      rw [lqLostRead, Hub.busRead, hlen, wordsTouched_word _ (by omega), haddr]
      simp only [List.foldl_cons, List.foldl_nil, Hub.hostRead_lostWord _ q hq hh]
    rw [hread]
    simp +contextual [Hub.setLive, Hub.send]
  · intro s r q hp hq ht h1 h2 hh
    exact does_row (exec_lqLostRead s r ht) hp (s.hub.busRead_onlyIn _ _)
      (Hub.reads_clear_lost _ _ q hq hh (mem_wordsTouched _ _ _ (by omega) (by omega) (by omega)))

end Sys2Proof.Machine

/-! PROOFS. The host bus: messages, register writes, SPI frames and the PCIe function (O38). -/
namespace Sys2Proof.Machine

/-! ### Pending messages (R466, R472) -/

/-- What flushing does with one vector. -/
def Hub.flushOne (h : Hub) (v : Nat) : Hub :=
  if bit h.host.pba v && !(h.host.msix.get v).masked && h.host.bme && !h.host.d3hot then
    let h' := { h with host := { h.host with pba := w1c h.host.pba (wd (2 ^ v)) } }
    if h'.vectorSet v then h'.send (.msix v) else h'
  else h

theorem Hub.flushPending_eq (h : Hub) : h.flushPending = (List.range 16).foldl Hub.flushOne h := rfl

/-- From `h` to `g` pending bits were cleared and messages sent. -/
structure Hub.Flushes (h g : Hub) : Prop where
  eq : g = { h with host := { h.host with pba := g.host.pba }, tx := g.tx }
  sent : h.tx <+: g.tx
  cleared : ∀ k, bit h.host.pba k = false → bit g.host.pba k = false

theorem Hub.Flushes.refl (h : Hub) : h.Flushes h := ⟨rfl, List.prefix_refl _, fun _ hk => hk⟩

theorem Hub.Flushes.trans {h g t : Hub} (hg : h.Flushes g) (gt : g.Flushes t) : h.Flushes t := by
  refine ⟨?_, hg.sent.trans gt.sent, fun k hk => gt.cleared k (hg.cleared k hk)⟩
  have e := gt.eq
  rw [hg.eq] at e
  exact e

theorem Hub.Flushes.host {h g : Hub} (hg : h.Flushes g) : g.host = { h.host with pba := g.host.pba } := congrArg Hub.host hg.eq

theorem Hub.Flushes.only {h g : Hub} (hg : h.Flushes g) : h.onlyIn [.host, .tx] g := by
  rw [hg.eq]; simp [Hub.onlyIn_iff]

theorem Hub.Flushes.vectorSet {h g : Hub} (hg : h.Flushes g) (v : Nat) : g.vectorSet v = h.vectorSet v := by
  rw [hg.eq]; rfl

theorem bit_wd_pow (v k : Nat) (hk : k < 32) : bit (wd (2 ^ v)) k = decide (k = v) := by
  rw [bit, wd, BitVec.getLsbD_ofNat, Nat.testBit_two_pow]
  simp [hk, eq_comm]

theorem bit_w1c (w : Word) (v k : Nat) : bit (w1c w (wd (2 ^ v))) k = (bit w k && !decide (k = v)) := by
  by_cases hk : k < 32
  · rw [← bit_wd_pow v k hk]
    simp only [bit, w1c, BitVec.getLsbD_and, BitVec.getLsbD_not, hk, decide_true, Bool.true_and]
  · simp [bit, BitVec.getLsbD_of_ge _ _ (by omega : 32 ≤ k)]

theorem Hub.flushOne_flushes (h : Hub) (v : Nat) : h.Flushes (h.flushOne v) := by
  have hclear : ∀ k, bit h.host.pba k = false → bit (w1c h.host.pba (wd (2 ^ v))) k = false := fun k hk => by simp [bit_w1c, hk]
  unfold Hub.flushOne
  dsimp only
  split_ifs
  · exact ⟨rfl, List.prefix_append _ _, hclear⟩
  · exact ⟨rfl, List.prefix_refl _, hclear⟩
  · exact .refl h

/-- Of the other vectors nothing changes. -/
theorem Hub.flushOne_other (h : Hub) (v k : Nat) (hk : k ≠ v) : bit (h.flushOne v).host.pba k = bit h.host.pba k := by
  unfold Hub.flushOne
  dsimp only
  split_ifs <;> simp [Hub.send, bit_w1c, hk]

theorem Hub.flushes_foldl (l : List Nat) (h : Hub) : h.Flushes (l.foldl Hub.flushOne h) := by
  induction l generalizing h with
  | nil => exact .refl h
  | cons v l ih => exact (h.flushOne_flushes v).trans (ih _)

/-- A pending message may leave now. -/
def Hub.mayLeave (h : Hub) (v : Nat) : Prop :=
  bit h.host.pba v = true ∧ (h.host.msix.get v).masked = false ∧ h.host.bme = true ∧ h.host.d3hot = false

theorem Hub.flushOne_self (h : Hub) (v : Nat) (hv : h.mayLeave v) :
    bit (h.flushOne v).host.pba v = false ∧ (h.vectorSet v = true → .msix v ∈ (h.flushOne v).tx) := by
  obtain ⟨hb, hm, hbme, hd⟩ := hv
  simp only [Hub.flushOne, hb, hm, hbme, hd, Bool.not_false, Bool.and_self, if_true]
  split
  · exact ⟨by simp [Hub.send, bit_w1c], fun _ => by simp [Hub.send]⟩
  · next hn => exact ⟨by simp [bit_w1c], fun hs => absurd hs hn⟩

/-- Flushing clears the bit of a message that may leave, and sends it if its source is still set. -/
theorem Hub.foldl_flushOne_sends (l : List Nat) (h : Hub) (v : Nat) (hl : v ∈ l) (hv : h.mayLeave v) :
    bit (l.foldl Hub.flushOne h).host.pba v = false ∧ (h.vectorSet v = true → .msix v ∈ (l.foldl Hub.flushOne h).tx) := by
  induction l generalizing h with
  | nil => exact absurd hl nofun
  | cons a l ih =>
    by_cases hav : v = a
    · subst hav
      obtain ⟨hclear, hsend⟩ := h.flushOne_self v hv
      have rest := Hub.flushes_foldl l (h.flushOne v)
      exact ⟨rest.cleared v hclear, fun hs => rest.sent.subset (hsend hs)⟩
    · have one := h.flushOne_flushes a
      have stays : (h.flushOne a).mayLeave v := by
        refine ⟨(h.flushOne_other a v hav).trans hv.1, ?_⟩
        rw [one.host]
        exact hv.2
      rw [← one.vectorSet v]
      exact ih _ ((List.mem_cons.mp hl).resolve_left hav) stays

theorem Hub.foldl_flushOne_quiet (h : Hub) (hq : h.host.pba = 0 ∨ h.host.bme = false) (l : List Nat) : l.foldl Hub.flushOne h = h := by
  refine List.foldl_fixed' (fun v => ?_) l
  rcases hq with hq | hq <;> simp [Hub.flushOne, hq, bit]

/-! ### Writes to SYS and to the mailboxes (R6, R480, R524) -/

/-- SYS and the mailboxes are no held block. -/
theorem Hub.hostWrite_control (h : Hub) (a : Nat) (w : Word) (ha : a / 65536 = 0 ∨ a / 65536 = 4) : h.hostWrite a w = h.regWrite a w := by
  rcases ha with ha | ha <;> simp [Hub.hostWrite, Hub.heldAddr, ha]

theorem Hub.hostWrite_sys (h : Hub) (a : Nat) (w : Word) (ha : a < 65536) : h.hostWrite a w = h.writeSys a w := by
  rw [Hub.hostWrite_control h a w (by omega)]
  unfold Hub.regWrite
  dsimp only
  rw [if_pos (by omega), Nat.mod_eq_of_lt ha]

/-- A write to a command area (R480). -/
theorem Hub.hostWrite_cmd (h : Hub) (a : Nat) (w : Word) (h1 : 0x40000 ≤ a) (h2 : a < 0x48000) (h3 : a % 4096 < 0x200) :
    h.hostWrite a w = h.cmdWrite ((a - 0x40000) / 4096) (a % 4096 / 4) w := by
  rw [Hub.hostWrite_control h a w (by omega)]
  unfold Hub.regWrite
  dsimp only
  rw [if_neg (by omega), if_neg (by omega), if_neg (by omega), if_neg (by omega), if_pos (by omega)]
  unfold Hub.writeMbx
  dsimp only
  rw [if_pos (by omega), show a % 65536 / 4096 = (a - 0x40000) / 4096 by omega, show a % 65536 % 4096 = a % 4096 by omega]

theorem Hub.writeSys_resetCause (h : Hub) (w : Word) :
    h.writeSys 0x14 w = { h with sys := { h.sys with resetCause := w1c h.sys.resetCause w } } := rfl

theorem Hub.writeSys_unmask (h : Hub) (v : Fin 16) : h.writeSys (0xE00C + 16 * v) 0 =
    ({ h with host := { h.host with msix := h.host.msix.put v { h.host.msix.get v with masked := false } } } : Hub).flushPending := by
  have hv := v.isLt
  unfold Hub.writeSys
  rw [if_neg (by omega), if_neg (by omega), if_neg (by omega), if_pos (by omega),
    show (0xE00C + 16 * v.val - 0xE000) / 16 = v by omega, show (0xE00C + 16 * v.val) / 4 % 4 = 3 by omega]
  rfl

theorem Hub.writeSys_readOnly (h : Hub) (a : Nat) (w : Word) (ha : a ∈ [0x00, 0x04, 0x08, 0x0C, 0x10, 0x1C]) : h.writeSys a w = h := by
  simp only [List.mem_cons, List.not_mem_nil, or_false] at ha
  unfold Hub.writeSys
  rw [if_neg (by omega), if_neg (by omega), if_neg (by omega), if_neg (by omega)]

/-! ### Bytes of a bus write (R6) -/

/-- A word takes effect when its first and its last byte, and those between, are enabled. -/
theorem wordEnabled_some {a w : Nat} {bytes : List (Option Byte)} {x : Word} (e : wordEnabled a bytes w = some x) :
    a ≤ w ∧ (∃ b, bytes[w - a]? = some (some b)) ∧ ∃ b, bytes[w - a + 3]? = some (some b) := by
  unfold wordEnabled at e
  split at e
  · next b0 b1 b2 b3 hb =>
    have hget : ∀ i, i < 4 → bytes[w - a + i]? = ([some b0, some b1, some b2, some b3] : List (Option Byte))[i]? := by
      intro i hi
      rw [← hb, List.getElem?_take_of_lt hi, List.getElem?_drop]
    split at e
    · next haw => exact ⟨haw, ⟨b0, hget 0 (by omega)⟩, ⟨b3, hget 3 (by omega)⟩⟩
    · exact absurd e nofun
  · exact absurd e nofun

/-- Between bytes that are not enabled, only the four of one word are. -/
theorem enabled_within {pre post : List (Option Byte)} {b0 b1 b2 b3 : Byte} (hpre : ∀ x ∈ pre, x = none) (hpost : ∀ x ∈ post, x = none)
    {i : Nat} {b : Byte} (e : (pre ++ [some b0, some b1, some b2, some b3] ++ post)[i]? = some (some b)) :
    pre.length ≤ i ∧ i < pre.length + 4 := by
  constructor
  · by_contra hlt
    rw [List.append_assoc, List.getElem?_append_left (by omega)] at e
    exact absurd (hpre _ (List.mem_of_getElem? e)) nofun
  · by_contra hge
    rw [List.getElem?_append_right (by simp; omega)] at e
    exact absurd (hpost _ (List.mem_of_getElem? e)) nofun

theorem nodup_wordsTouched (a n : Nat) : (wordsTouched a n).Nodup :=
  List.Nodup.map (fun i j (hij : (a / 4 + i) * 4 = (a / 4 + j) * 4) => by omega) List.nodup_range

/-- What a write does with one of the words it touches. -/
def Hub.wordWrite (h : Hub) (a : Nat) (bytes : List (Option Byte)) (w : Nat) : Hub := (wordEnabled a bytes w).elim h (h.hostWrite w)

theorem Hub.busWrite_eq (h : Hub) (a : Nat) (bytes : List (Option Byte)) :
    h.busWrite a bytes = (wordsTouched a bytes.length).foldl (fun g w => g.wordWrite a bytes w) h := by
  unfold Hub.busWrite
  congr 1
  funext g w
  unfold Hub.wordWrite
  cases wordEnabled a bytes w <;> rfl

theorem Hub.wordWrite_none (h : Hub) {a : Nat} {bytes : List (Option Byte)} {w : Nat} (e : wordEnabled a bytes w = none) :
    h.wordWrite a bytes w = h := by rw [Hub.wordWrite, e]; rfl

theorem Hub.wordWrite_some (h : Hub) {a : Nat} {bytes : List (Option Byte)} {w : Nat} {x : Word} (e : wordEnabled a bytes w = some x) :
    h.wordWrite a bytes w = h.hostWrite w x := by rw [Hub.wordWrite, e]; rfl

/-- When of the words that a write touches one alone is enabled whole, that one is written. -/
theorem Hub.busWrite_one (h : Hub) (a : Nat) (bytes : List (Option Byte)) (w : Nat) (x : Word) (hw : w ∈ wordsTouched a bytes.length)
    (hx : wordEnabled a bytes w = some x) (hn : ∀ v ∈ wordsTouched a bytes.length, v ≠ w → wordEnabled a bytes v = none) :
    h.busWrite a bytes = h.hostWrite w x := by
  obtain ⟨l, r, hlr⟩ := List.append_of_mem hw
  have hnd : (l ++ w :: r).Nodup := hlr ▸ nodup_wordsTouched a bytes.length
  have idle : ∀ (q : List Nat), (∀ v ∈ q, v ∈ wordsTouched a bytes.length ∧ v ≠ w) → ∀ g : Hub,
      q.foldl (fun g w => g.wordWrite a bytes w) g = g := by
    intro q hq g
    induction q with
    | nil => rfl
    | cons v q ih =>
      obtain ⟨hv, hvw⟩ := hq v (by simp)
      rw [List.foldl_cons, g.wordWrite_none (hn v hv hvw)]
      exact ih fun u hu => hq u (by simp [hu])
  have hl : ∀ v ∈ l, v ∈ wordsTouched a bytes.length ∧ v ≠ w := fun v hv =>
    ⟨by simp [hlr, hv], fun e => (List.nodup_append.mp hnd).2.2 v hv w (by simp) e⟩
  have hr : ∀ v ∈ r, v ∈ wordsTouched a bytes.length ∧ v ≠ w := fun v hv =>
    ⟨by simp [hlr, hv], fun e => (List.nodup_cons.mp (List.nodup_append.mp hnd).2.1).1 (e ▸ hv)⟩
  rw [h.busWrite_eq, hlr, List.foldl_append, idle l hl, List.foldl_cons, h.wordWrite_some hx]
  exact idle r hr _

/-- A write whose enabled bytes are the four of one word writes that word. -/
theorem Hub.busWrite_word (h : Hub) (a : Nat) (pre post : List (Option Byte)) (b0 b1 b2 b3 : Byte) (w : Nat)
    (ha : a + pre.length = w) (hw : w % 4 = 0) (hpre : ∀ x ∈ pre, x = none) (hpost : ∀ x ∈ post, x = none) :
    h.busWrite a (pre ++ [some b0, some b1, some b2, some b3] ++ post) = h.hostWrite w (wd (leNat [b0, b1, b2, b3])) := by
  have hlen : (pre ++ [some b0, some b1, some b2, some b3] ++ post).length = pre.length + 4 + post.length := by
    simp; omega
  refine h.busWrite_one a _ w _ (mem_wordsTouched a _ w hw (by omega) (by omega)) ?_ fun v hv hvw => ?_
  · unfold wordEnabled
    have : w - a = pre.length := by omega
    simp [this, show a ≤ w by omega]
  · rw [Option.eq_none_iff_forall_ne_some]
    intro x hx
    obtain ⟨hav, ⟨_, hfirst⟩, ⟨_, hlast⟩⟩ := wordEnabled_some hx
    have h1 := (enabled_within hpre hpost hfirst).1
    have h2 := (enabled_within hpre hpost hlast).2
    exact hvw (by omega)

/-- A write that enables no word but read-only ones of SYS changes nothing. -/
theorem Hub.busWrite_readOnly (h : Hub) (a : Nat) (bytes : List (Option Byte))
    (hr : ∀ w, w % 4 = 0 → wordEnabled a bytes w ≠ none → w ∈ [0x00, 0x04, 0x08, 0x0C, 0x10, 0x1C]) : h.busWrite a bytes = h := by
  rw [h.busWrite_eq, wordsTouched, List.foldl_map]
  refine List.foldl_fixed' (fun j => ?_) _
  cases e : wordEnabled a bytes ((a / 4 + j) * 4) with
  | none => exact h.wordWrite_none e
  | some x =>
    have hw := hr ((a / 4 + j) * 4) (by omega) (by simp [e])
    have hlt : (a / 4 + j) * 4 < 65536 := by
      simp only [List.mem_cons, List.not_mem_nil, or_false] at hw; omega
    rw [h.wordWrite_some e, h.hostWrite_sys _ x hlt, h.writeSys_readOnly _ x hw]

end Sys2Proof.Machine

/-! PROOFS. SPI frames, the host link and the PCIe function (O38). -/
namespace Sys2Proof.Machine

/-! ### Quad-SPI frames (R469, R470) -/

theorem bit_setBit (w : Word) (i : Nat) (hi : i < 32) : bit (setBit w i) i = true := by
  have hp : bit (wd (2 ^ i)) i = true := by simp [bit_wd_pow i i hi]
  rw [bit] at hp
  rw [bit, setBit, BitVec.getLsbD_or, hp, Bool.or_true]

/-- The error bits of a frame are all that a fault writes. -/
theorem Hub.spiFault_eq (h : Hub) (b : Bool) (i : Nat) : h.spiFault b i =
    { h with sys := { h.sys with spiErr := if b then setBit h.sys.spiErr i else h.sys.spiErr } } := by
  cases b <;> rfl

/-- One word of a command area does not pass a page boundary. -/
theorem spiWraps_cmd (a n : Nat) (ha : a % 4096 < 0x200) (hn : n = 1) : spiWraps a n = false := by
  simp [spiWraps, hn]; omega

theorem Hub.cmdWrite_idle (h : Hub) (m i : Nat) (w : Word) (hm : (h.host.mbs.get m).state = .idle) :
    h.cmdWrite m i w = h.updMb m fun x => { x with cmd := x.cmd.put i w } := if_pos hm

theorem Hub.cmdWrite_onlyMb (h : Hub) (m i : Nat) (w : Word) : h.onlyMb m
    (if (h.host.mbs.get m).state = .idle then { h.host.mbs.get m with cmd := (h.host.mbs.get m).cmd.put i w }
      else { h.host.mbs.get m with status := setBit (h.host.mbs.get m).status 2 }) (h.cmdWrite m i w) := by
  unfold Hub.cmdWrite Hub.onlyMb
  split <;> simp +contextual [Hub.updMb]

theorem Hub.cmdWrite_onlyIn (h : Hub) (m i : Nat) (w : Word) : h.onlyIn [.host] (h.cmdWrite m i w) := by
  unfold Hub.cmdWrite
  split <;> simp [Hub.onlyIn_iff, Hub.updMb]

/-- A frame of one word for the command area of an idle mailbox writes that word. -/
theorem Hub.spiCommit_cmd (h : Hub) (a : Nat) (ws : List Word) (h1 : 0x40000 ≤ a) (h2 : a < 0x48000) (h3 : a % 4096 < 0x200)
    (hl : ws.length = 1) (hm : (h.host.mbs.get ((a - 0x40000) / 4096)).state = .idle) :
    h.spiCommit a ws = h.updMb ((a - 0x40000) / 4096) fun x => { x with cmd := x.cmd.put (a % 4096 / 4) (pw ws 0) } := by
  obtain ⟨w, rfl⟩ := List.length_eq_one_iff.mp hl
  rw [Hub.spiCommit, Hub.spiCommit, h.hostWrite_cmd a w h1 h2 h3, h.cmdWrite_idle _ _ _ hm]
  rfl

theorem spiWriteFrame_aligned (a : Nat) (ws : List Word) (part : Bool) (h : Hub) (hs : h.sys.straps.hostSel = true) (ha : a % 4 = 0) :
    spiWriteFrame a ws part h = ((h.spiFault part 1).spiFault (spiWraps a ws.length) 2).spiCommit a ws := by
  simp [spiWriteFrame, hs, ha]

theorem spiWriteFrame_misaligned (a : Nat) (ws : List Word) (part : Bool) (h : Hub) (hs : h.sys.straps.hostSel = true) (ha : a % 4 ≠ 0) :
    spiWriteFrame a ws part h = (h.spiFault part 1).spiFault true 4 := by
  simp [spiWriteFrame, hs, ha]

/-- A frame with a wrong CRC, or cut short, commits nothing. -/
theorem spiWriteCrcFrame_bad (a : Nat) (ws : List Word) (crc : Word) (part : Bool) (h : Hub) (hs : h.sys.straps.hostSel = true)
    (ha : a % 4 = 0) (hc : spiCrc a ws ≠ crc) :
    spiWriteCrcFrame a ws crc part h = ((h.spiFault part 1).spiFault (spiWraps a ws.length) 2).spiFault true 0 := by
  simp [spiWriteCrcFrame, hs, ha, hc]

theorem spiWriteCrcFrame_good (a : Nat) (ws : List Word) (h : Hub) (hs : h.sys.straps.hostSel = true) (ha : a % 4 = 0) :
    spiWriteCrcFrame a ws (spiCrc a ws) false h = (h.spiFault (spiWraps a ws.length) 2).spiCommit a ws := by
  simp [spiWriteCrcFrame, hs, ha, Hub.spiFault_eq _ false]

/-- The first word of the register space reads the chip's identity (R475). -/
theorem spiReadFrame_id (crc : Bool) (h : Hub) (hs : h.sys.straps.hostSel = true) :
    spiReadFrame 0 1 crc false h =
      h.send (.spi [0x53A10640] (if crc then some (crc32c [0, 0, 0, 0x40, 0x06, 0xA1, 0x53]) else none)) := by
  have hread : h.hostRead 0 = (0x53A10640, h) := by
    simp [Hub.hostRead, Hub.regRead, Hub.readSys]
  have hcrc : spiCrc 0 [0x53A10640] = crc32c [0, 0, 0, 0x40, 0x06, 0xA1, 0x53] := congrArg crc32c (by decide)
  have hwrap : spiWraps 0 1 = false := by decide
  simp only [spiReadFrame, hs, Hub.spiFault_eq _ false, hwrap, Hub.spiFetch, hread, hcrc, List.nil_append, Nat.zero_mod, Bool.not_true,
    Bool.false_eq_true, if_false, ne_eq, not_true_eq_false]

theorem spiReadFrame_misaligned (a n : Nat) (crc part : Bool) (h : Hub) (hs : h.sys.straps.hostSel = true) (ha : a % 4 ≠ 0) :
    spiReadFrame a n crc part h =
      ((h.spiFault part 1).spiFault true 4).send (.spi (List.replicate n 0) (if crc then some 0 else none)) := by
  simp [spiReadFrame, hs, ha]

/-! ### A host link restart (R467) -/

theorem Hub.skipOn_host (h : Hub) (c : Nat) : ∃ p, (h.skipOn c).host = { h.host with pba := p } := by
  unfold Hub.skipOn
  dsimp only
  split
  · exact Hub.raise_host _ _ _
  · exact ⟨_, rfl⟩

theorem Hub.restartConsumer_host (h : Hub) (c : Nat) : ∃ p, (h.restartConsumer c).host = { h.host with pba := p } := by
  unfold Hub.restartConsumer
  exact Hub.skipOn_host _ c

/-- A host consumer stops, and its delivery restarts from its acknowledgements. -/
def Hub.consumerOff (h : Hub) (c : Nat) : Hub :=
  (h.setCons c { h.jrn.consumers.get c with ctrl := w1c (h.jrn.consumers.get c).ctrl (wd (2 ^ 31)) }).restartConsumer c

theorem Hub.hostConsumersOff_eq (h : Hub) : h.hostConsumersOff = (h.consumerOff 0).consumerOff 3 := by
  simp only [Hub.hostConsumersOff, Hub.consumerOff, List.foldl_cons, List.foldl_nil]

theorem Hub.consumerOff_onlyIn (h : Hub) (c : Nat) : h.onlyIn [.host, .evt, .jrn, .tx] (h.consumerOff c) := by
  simp [Hub.onlyIn_iff, Hub.consumerOff, Hub.setCons]

theorem Hub.consumerOff_host (h : Hub) (c : Nat) : ∃ p, (h.consumerOff c).host = { h.host with pba := p } := by
  unfold Hub.consumerOff
  exact Hub.restartConsumer_host _ c

theorem Hub.consumerOff_consumers (h : Hub) (c : Nat) :
    (∀ k, k ≠ c → (h.consumerOff c).jrn.consumers.get k = h.jrn.consumers.get k) ∧
    bit ((h.consumerOff c).jrn.consumers.get c).ctrl 31 = false ∧
    ((h.consumerOff c).jrn.consumers.get c).ackTo = (h.jrn.consumers.get c).ackTo := by
  obtain ⟨hother, hctrl, -, -, hack⟩ := Hub.restartConsumer_consumers
    (h.setCons c { h.jrn.consumers.get c with ctrl := w1c (h.jrn.consumers.get c).ctrl (wd (2 ^ 31)) }) c
  unfold Hub.consumerOff
  refine ⟨fun k hk => ?_, ?_, ?_⟩
  · rw [hother k hk]; simp [Hub.setCons, hk]
  · have hw : bit (w1c (h.jrn.consumers.get c).ctrl (wd (2 ^ 31))) 31 = false := by rw [bit_w1c]; simp
    rw [hctrl]
    simpa [Hub.setCons] using hw
  · rw [hack]; simp [Hub.setCons]

/-- Consumers 0 and 3 are off and keep their acknowledgements. -/
theorem Hub.hostConsumersOff_consumers (h : Hub) (c : Nat) (hc : c = 0 ∨ c = 3) :
    bit (h.hostConsumersOff.jrn.consumers.get c).ctrl 31 = false ∧
    (h.hostConsumersOff.jrn.consumers.get c).ackTo = (h.jrn.consumers.get c).ackTo := by
  obtain ⟨hother, hoff, hack⟩ := h.consumerOff_consumers 0
  obtain ⟨hother', hoff', hack'⟩ := (h.consumerOff 0).consumerOff_consumers 3
  rw [Hub.hostConsumersOff_eq]
  rcases hc with rfl | rfl
  · rw [hother' 0 (by decide)]; exact ⟨hoff, hack⟩
  · exact ⟨hoff', hack'.trans (congrArg Consumer.ackTo (hother 3 (by decide)))⟩

theorem Hub.hostConsumersOff_onlyIn (h : Hub) : h.onlyIn [.host, .evt, .jrn, .tx] h.hostConsumersOff := by
  rw [h.hostConsumersOff_eq]
  exact Hub.onlyIn_trans (h.consumerOff_onlyIn 0) (Hub.consumerOff_onlyIn _ 3)

theorem Hub.hostConsumersOff_host (h : Hub) : ∃ p, h.hostConsumersOff.host = { h.host with pba := p } := by
  obtain ⟨p, hp⟩ := h.consumerOff_host 0
  obtain ⟨q, hq⟩ := (h.consumerOff 0).consumerOff_host 3
  refine ⟨q, ?_⟩
  rw [h.hostConsumersOff_eq, hq, hp]

theorem Tab.get_foldl_put {α : Type} [Inhabited α] [DecidableEq α] (f : Nat → α) (l : List Nat) (t : Tab α) (m : Nat) (hm : m ∈ l) :
    (l.foldl (fun t m => t.put m (f m)) t).get m = f m := by
  have keep : ∀ (l : List Nat) (t : Tab α), t.get m = f m → (l.foldl (fun t m => t.put m (f m)) t).get m = f m := by
    intro l
    induction l with
    | nil => exact fun _ ht => ht
    | cons k l ih =>
      intro t ht
      refine ih _ ?_
      rw [Tab.get_put]
      split
      · next hk => rw [hk]
      · exact ht
  induction l generalizing t with
  | nil => exact absurd hm nofun
  | cons k l ih =>
    rcases List.mem_cons.mp hm with rfl | hm
    · exact keep l _ (by simp)
    · exact ih _ hm

theorem Hub.mailboxesTo_state (h : Hub) (f : Nat → MbState) (m : Nat) (hm : m < 8) : ((h.mailboxesTo f).host.mbs.get m).state = f m := by
  unfold Hub.mailboxesTo
  dsimp only
  rw [Tab.get_foldl_put _ _ _ _ (List.mem_range.mpr hm)]

/-- The state in which a host link restart leaves a mailbox. -/
def Hub.restartedMb (h : Hub) (m : Nat) : MbState := if (h.host.mbs.get m).state = .offline then .offline else .idle

theorem Hub.linkRestart_eq (h : Hub) : h.linkRestart =
    { (h.mailboxesTo h.restartedMb).hostConsumersOff with
      host := { (h.mailboxesTo h.restartedMb).hostConsumersOff.host with msix := [], pba := 0 }
      sys := { (h.mailboxesTo h.restartedMb).hostConsumersOff.sys with
        resetCause := setBit (h.mailboxesTo h.restartedMb).hostConsumersOff.sys.resetCause 7 } } := by
  have hst : (fun m => if (h.host.mbs.get m).state = .offline then MbState.offline else .idle) = h.restartedMb := rfl
  simp only [Hub.linkRestart, Hub.hostLinkReset, hst]

theorem Hub.mailboxesTo_onlyIn (h : Hub) (f : Nat → MbState) : h.onlyIn [.host, .sto] (h.mailboxesTo f) := by
  simp [Hub.onlyIn_iff, Hub.mailboxesTo]

theorem Hub.linkRestart_onlyIn (h : Hub) : h.onlyIn [.sys, .host, .evt, .jrn, .sto, .tx] h.linkRestart := by
  have boxes := h.mailboxesTo_onlyIn h.restartedMb
  have off := Hub.hostConsumersOff_onlyIn (h.mailboxesTo h.restartedMb)
  have last : (h.mailboxesTo h.restartedMb).hostConsumersOff.onlyIn [.sys, .host] h.linkRestart := by
    rw [h.linkRestart_eq]; simp [Hub.onlyIn_iff]
  exact Hub.onlyIn_trans (Hub.onlyIn_trans (Hub.onlyIn_mono boxes (by decide)) (Hub.onlyIn_mono off (by decide)))
    (Hub.onlyIn_mono last (by decide))

theorem Hub.linkRestart_host (h : Hub) :
    h.linkRestart.host = { (h.mailboxesTo h.restartedMb).host with msix := [], pba := 0 } := by
  obtain ⟨p, hp⟩ := Hub.hostConsumersOff_host (h.mailboxesTo h.restartedMb)
  rw [h.linkRestart_eq, hp]

theorem Hub.linkRestart_sys (h : Hub) : h.linkRestart.sys = { h.sys with resetCause := setBit h.sys.resetCause 7 } := by
  have off : (h.mailboxesTo h.restartedMb).hostConsumersOff.sys = h.sys := Hub.hostConsumersOff_onlyIn _ .sys (by decide)
  rw [h.linkRestart_eq, off]

theorem Hub.linkRestart_sto (h : Hub) : h.linkRestart.sto = { h.sto with otpJobs := h.sto.otpJobs.map OtpJob.unasked } := by
  have off : (h.mailboxesTo h.restartedMb).hostConsumersOff.sto = (h.mailboxesTo h.restartedMb).sto :=
    Hub.hostConsumersOff_onlyIn _ .sto (by decide)
  rw [h.linkRestart_eq, off, Hub.mailboxesTo]

theorem Hub.linkRestart_jrn (h : Hub) : h.linkRestart.jrn = (h.mailboxesTo h.restartedMb).hostConsumersOff.jrn := by
  rw [h.linkRestart_eq]

theorem Hub.linkRestart_consumers (h : Hub) (c : Nat) (hc : c = 0 ∨ c = 3) :
    bit (h.linkRestart.jrn.consumers.get c).ctrl 31 = false ∧
    (h.linkRestart.jrn.consumers.get c).ackTo = (h.jrn.consumers.get c).ackTo := by
  have off := Hub.hostConsumersOff_consumers (h.mailboxesTo h.restartedMb) c hc
  have boxes : (h.mailboxesTo h.restartedMb).jrn = h.jrn := h.mailboxesTo_onlyIn _ .jrn (by decide)
  rw [boxes] at off
  rw [h.linkRestart_jrn]
  exact off

/-- A host link restart, and then the function's readiness and power state. -/
theorem hostLinkRestart_eq (cause : LinkCause) (h : Hub) (hs : h.sys.straps.hostSel = false) :
    ∃ d bme ready, hostLinkRestart cause h =
      { h.linkRestart with host := { h.linkRestart.host with d3hot := d, bme := bme, pcieReady := ready } } := by
  unfold hostLinkRestart
  dsimp only
  rw [if_neg (by simp [hs])]
  split
  · exact ⟨_, _, _, rfl⟩
  · exact ⟨_, _, _, rfl⟩

/-- A vector's mask is cleared. -/
def Hub.unmasked (h : Hub) (v : Nat) : Hub :=
  { h with host := { h.host with msix := h.host.msix.put v { h.host.msix.get v with masked := false } } }
/-- Then pending messages may leave. -/
theorem msixUnmask_eq (v : Fin 16) (h : Hub) : msixUnmask v h = (List.range 16).foldl Hub.flushOne (h.unmasked v) := by
  have hv := v.isLt
  rw [msixUnmask, Hub.hostWrite_sys _ _ _ (by omega), Hub.writeSys_unmask, Hub.flushPending_eq, Hub.unmasked]

/-- The configuration space takes bus mastering and the power state. -/
def Hub.powerWritten (h : Hub) (bme d0 : Bool) : Hub := { h with host := { h.host with bme := bme, d3hot := h.host.d3hot && !d0 } }
theorem pcieConfigurationWrite_eq (bme d0 : Bool) (h : Hub) (hs : h.sys.straps.hostSel = false) (hr : h.host.pcieReady = true) :
    pcieConfigurationWrite bme d0 h = (List.range 16).foldl Hub.flushOne (h.powerWritten bme d0) := by
  simp only [pcieConfigurationWrite, hs, hr, Bool.not_true, Bool.or_self, Bool.false_eq_true, if_false, Hub.flushPending_eq,
    Hub.powerWritten]

/-- Settles O38: each clause by what its register, frame or event does. -/
theorem hostBusRows : Obligations.HostBusRows := by
  refine ⟨?_, ?_, ?_, ?_, ?_, ?_, ?_, ?_, ?_, ?_, ?_, ?_, ?_, ?_, ?_⟩
  · intro s v hp
    have flushed := Hub.flushes_foldl (List.range 16) (s.hub.unmasked v)
    refine does_row (f := msixUnmask v) rfl hp ?_ ?_ <;> rw [msixUnmask_eq]
    · exact Hub.onlyIn_trans (g := s.hub.unmasked v) (by simp [Hub.onlyIn_iff, Hub.unmasked]) flushed.only
    · refine ⟨flushed.host, fun hb hbme hd => ?_, fun h0 => ?_⟩
      · exact Hub.foldl_flushOne_sends _ _ v (List.mem_range.mpr v.isLt) ⟨hb, by simp [Hub.unmasked], hbme, hd⟩
      · rw [Hub.foldl_flushOne_quiet (s.hub.unmasked v) (.inl h0)]
        exact ⟨rfl, h0⟩
  · rintro s addr _ b0 b1 b2 b3 hp ha rfl h1 h2 h3
    have hw : registerWrite addr [some b0, some b1, some b2, some b3] s.hub = _ :=
      (s.hub.busWrite_word addr [] [] b0 b1 b2 b3 addr rfl ha nofun nofun).trans (s.hub.hostWrite_cmd _ _ h1 h2 h3)
    refine does_row (f := registerWrite addr _) rfl hp ?_ ?_ <;> rw [hw]
    · exact s.hub.cmdWrite_onlyIn _ _ _
    · exact s.hub.cmdWrite_onlyMb _ _ _
  · rintro s _ _ b0 b1 b2 b3 hp rfl rfl
    have hw : registerWrite 0x14 [some b0, some b1, some b2, some b3] s.hub = _ :=
      ((s.hub.busWrite_word 0x14 [] [] b0 b1 b2 b3 0x14 rfl rfl nofun nofun).trans (s.hub.hostWrite_sys _ _ (by decide))).trans
        (s.hub.writeSys_resetCause _)
    refine does_row (f := registerWrite 0x14 _) rfl hp ?_ ?_ <;> rw [hw]
    simp [Hub.onlyIn_iff]
  · rintro s addr _ b0 b1 b2 b3 pre post hp rfl ha hpre hpost
    have hw : registerWrite addr (pre ++ [some b0, some b1, some b2, some b3] ++ post) s.hub = _ :=
      ((s.hub.busWrite_word addr pre post b0 b1 b2 b3 0x14 ha rfl hpre hpost).trans (s.hub.hostWrite_sys _ _ (by decide))).trans
        (s.hub.writeSys_resetCause _)
    refine does_row (f := registerWrite addr _) rfl hp ?_ ?_ <;> rw [hw]
    simp [Hub.onlyIn_iff]
  · intro s addr bytes hp hr
    exact does_nothing (f := registerWrite addr bytes) rfl hp (s.hub.busWrite_readOnly addr bytes hr)
  · intro s addr ws part hp hs ha h1 h2 h3 hl hm
    refine does_row (f := spiWriteFrame addr.toNat ws part) rfl hp ?_ ?_ <;>
      rw [spiWriteFrame_aligned _ _ _ _ hs ha, spiWraps_cmd _ _ h3 hl, Hub.spiFault_eq _ false, Hub.spiFault_eq,
        Hub.spiCommit_cmd _ _ _ h1 h2 h3 hl (by simpa using hm)]
    · simp [Hub.onlyIn_iff, Hub.updMb]
    · simp [Hub.updMb]
  · intro s addr ws part hp hs ha
    refine does_row (f := spiWriteFrame addr.toNat ws part) rfl hp ?_ ?_ <;>
      rw [spiWriteFrame_misaligned _ _ _ _ hs ha, Hub.spiFault_eq, Hub.spiFault_eq]
    · simp [Hub.onlyIn_iff]
    · simp
  · intro s addr ws crc part hp hs ha hc
    refine does_row (f := spiWriteCrcFrame addr.toNat ws crc part) rfl hp ?_ ?_ <;>
      rw [spiWriteCrcFrame_bad _ _ _ _ _ hs ha (Ne.symm hc), Hub.spiFault_eq, Hub.spiFault_eq, Hub.spiFault_eq]
    · simp [Hub.onlyIn_iff]
    · exact ⟨rfl, bit_setBit _ 0 (by decide)⟩
  · rintro s addr ws _ _ hp hs ha h1 h2 h3 hl rfl hm rfl
    refine does_row (f := spiWriteCrcFrame addr.toNat ws _ false) rfl hp ?_ ?_ <;>
      rw [← spiCrc, spiWriteCrcFrame_good _ _ _ hs ha, spiWraps_cmd _ _ h3 hl, Hub.spiFault_eq,
        Hub.spiCommit_cmd _ _ _ h1 h2 h3 hl (by simpa using hm)]
    · simp [Hub.onlyIn_iff, Hub.updMb]
    · simp [Hub.updMb]
  · rintro s addr _ crc _ hp hs ha rfl rfl
    refine does_row (f := spiReadFrame addr.toNat 1 crc false) rfl hp ?_ ?_ <;> rw [ha, spiReadFrame_id _ _ hs]
    · simp [Hub.onlyIn_iff]
    · rfl
  · intro s addr n crc part hp hs ha
    refine does_row (f := spiReadFrame addr.toNat n crc part) rfl hp ?_ ?_ <;>
      rw [spiReadFrame_misaligned _ _ _ _ _ hs ha, Hub.spiFault_eq, Hub.spiFault_eq]
    · simp [Hub.onlyIn_iff]
    · exact ⟨bit_setBit _ 4 (by decide), rfl⟩
  · intro s cause hp hs
    obtain ⟨d, bme, ready, e⟩ := hostLinkRestart_eq cause s.hub hs
    refine does_row (f := hostLinkRestart cause) rfl hp ?_ ?_ <;> rw [e]
    · exact Hub.onlyIn_trans s.hub.linkRestart_onlyIn (by simp [Hub.onlyIn_iff])
    · have hsto := s.hub.linkRestart_sto
      have hsys := s.hub.linkRestart_sys
      have hcons := s.hub.linkRestart_consumers
      have hhost := s.hub.linkRestart_host
      have hmb := s.hub.mailboxesTo_state s.hub.restartedMb
      generalize s.hub.linkRestart = g at hsto hsys hcons hhost ⊢
      refine ⟨hsto, hsys, fun m hm => ?_, hcons, ?_⟩
      · dsimp only
        rw [hhost]
        exact hmb m hm
      · simp [hhost, Hub.mailboxesTo]
  · intro s hp hs
    refine does_row (f := pcieReady) rfl hp ?_ ?_ <;> simp [pcieReady, hs, Hub.onlyIn_iff]
  · intro s bme d0 hp hs hr
    have flushed := Hub.flushes_foldl (List.range 16) (s.hub.powerWritten bme d0)
    refine does_row (f := pcieConfigurationWrite bme d0) rfl hp ?_ ?_ <;> rw [pcieConfigurationWrite_eq bme d0 _ hs hr]
    · exact Hub.onlyIn_trans (g := s.hub.powerWritten bme d0) (by simp [Hub.onlyIn_iff, Hub.powerWritten]) flushed.only
    · refine ⟨flushed.host, fun hb => ?_⟩
      rw [Hub.foldl_flushOne_quiet (s.hub.powerWritten bme d0) (.inr hb)]
      exact ⟨rfl, rfl⟩
  · intro s bme d0 hp hs
    refine does_nothing (f := pcieConfigurationWrite bme d0) rfl hp ?_
    rcases hs with hs | hs <;> simp [pcieConfigurationWrite, hs]

end Sys2Proof.Machine

/-! PROOFS. What the work of a frame strobe leaves as it is. -/
namespace Sys2Proof.Machine

/-- The flags of a channel group that a strobe moves. -/
@[ext] structure RunFlags where
  acquiring : Bool
  startReq : Bool
  stopReq : Bool

/-- What a frame strobe changes at one place of its order alone, or not at all (log entry 17). -/
structure Still where
  cfg : Cfg
  clk : ClkSt
  net : NetSt
  tb : TbSt
  fast : Tab FastCfg
  blockReset : Option BlockReset
  sync : List SyncReq
  arm : List ArmReq
  descReq : List (Nat × Nat × DescCfg)
  /-- Of a channel group. -/
  run : Nat → RunFlags
  parReq : Nat → Option Nat
  /-- Of a profile: its current bank swap, if it has one, has begun. -/
  swap : Nat → Option Bool

def ChgSt.run (x : ChgSt) : RunFlags := ⟨x.acquiring, x.startReq, x.stopReq⟩
/-- The progress of a profile's bank swap. -/
def Swap.begun (x : Swap) : Option Bool := x.cur.map (·.started)

def Hub.still (h : Hub) : Still where
  cfg := h.cfg
  clk := h.clk
  net := h.net
  tb := h.tb
  fast := h.fe.fast
  blockReset := h.sys.blockReset
  sync := h.flt.sync
  arm := h.trg.arm
  descReq := h.jrn.descReq
  run := fun g => (h.chg g).run
  parReq := fun ch => (h.chain ch).parReq
  swap := fun p => (h.flt.swap.get p).begun

theorem Hub.foldl_still {α : Type} {f : Hub → α → Hub} (hf : ∀ (g : Hub) a, (f g a).still = g.still) (l : List α) (h : Hub) :
    (l.foldl f h).still = h.still := by
  induction l generalizing h with
  | nil => rfl
  | cons a l ih => exact (ih _).trans (hf h a)

@[simp] theorem Hub.ite_still (c : Prop) [Decidable c] (a b : Hub) :
    (if c then a else b).still = if c then a.still else b.still := apply_ite _ _ _ _

/-- A change elsewhere. -/
@[simp] theorem Hub.mk_still (h : Hub) {sys host evt jrn sto act fe flt cal trg cod tiu sl casc tx free}
    (hsys : sys.blockReset = h.sys.blockReset) (hgroups : jrn.groups = h.jrn.groups) (hdesc : jrn.descReq = h.jrn.descReq)
    (hfe : fe.fast = h.fe.fast) (hch : flt.ch = h.flt.ch) (hsync : flt.sync = h.flt.sync) (hswap : flt.swap = h.flt.swap)
    (htrg : trg.arm = h.trg.arm) :
    (Hub.mk h.cfg sys host evt h.clk h.tb jrn sto act fe flt cal trg cod tiu h.net sl casc tx free).still = h.still := by
  simp [Hub.still, Hub.chg, Hub.chain, hsys, hgroups, hdesc, hfe, hch, hsync, hswap, htrg]

theorem Hub.Lands.still {h g : Hub} (hg : h.Lands g) : g.still = h.still := by
  have o := (Hub.onlyIn_iff h g _).mp hg.only
  simp at o
  simp [Hub.still, Hub.chg, Hub.chain, hg.groups, hg.descReq, o]

@[simp] theorem Hub.send_still (h : Hub) (x : Tx) : (h.send x).still = h.still := by simp [Hub.send]
@[simp] theorem Hub.msix_still (h : Hub) (v : Nat) : (h.msix v).still = h.still := by simp [Hub.msix]
@[simp] theorem Hub.edge_still (h : Hub) (a b : Bool) (v : Nat) : (h.edge a b v).still = h.still := by simp [Hub.edge]
@[simp] theorem Hub.raise_still (h : Hub) (ev : Nat) (data : List Byte) : (h.raise ev data).still = h.still := (h.raise_lands ev data).still
@[simp] theorem Hub.land_still (h : Hub) (type flags group epoch : Nat) (t : T64) (body : List Byte) :
    (h.land type flags group epoch t body).still = h.still := (h.land_lands ..).still

@[simp] theorem Hub.logNow_still (h : Hub) (ev sev : Nat) (data : List Byte) : (h.logNow ev sev data).still = h.still := by
  simp [Hub.logNow, Hub.logWrite]
@[simp] theorem Hub.cqWrite_still (h : Hub) (d : Deferred) : (h.cqWrite d).still = h.still := by
  unfold Hub.cqWrite
  split <;> simp
@[simp] theorem Hub.complete_still (h : Hub) (hd status : Nat) (result : List Word) : (h.complete hd status result).still = h.still := by
  simp [Hub.complete]
@[simp] theorem Hub.updMb_still (h : Hub) (m : Nat) (f : Mailbox → Mailbox) : (h.updMb m f).still = h.still := by simp [Hub.updMb]
@[simp] theorem Hub.respond_still (h : Hub) (m status hd : Nat) (tag : Word) (ws : List Word) (crc : Bool) :
    (h.respond m status hd tag ws crc).still = h.still := by simp [Hub.respond]
@[simp] theorem Hub.noteTag_still (h : Hub) (m status : Nat) (tag : Word) : (h.noteTag m status tag).still = h.still := by
  simp [Hub.noteTag]
@[simp] theorem Hub.landGap_still (h : Hub) (type cause detail group unc epoch : Nat) (first last : T64) (chans : List Nat) :
    (h.landGap type cause detail group unc epoch first last chans).still = h.still := by
  simp [Hub.landGap, Hub.gapNote]

end Sys2Proof.Machine

/-! PROOFS. The work of a frame strobe: action outputs, descriptors, excitation, live queues and streams. -/
namespace Sys2Proof.Machine

/-! ### Writes of one entry -/

@[simp] theorem Hub.setRule_still (h : Hub) (r : Nat) (x : ActRule) : (h.setRule r x).still = h.still := by simp [Hub.setRule]
@[simp] theorem Hub.setPin_still (h : Hub) (k : Nat) (x : PinCond) : (h.setPin k x).still = h.still := by simp [Hub.setPin]
@[simp] theorem Hub.setExc_still (h : Hub) (x : Nat) (e : ExcSt) : (h.setExc x e).still = h.still := by simp [Hub.setExc]
@[simp] theorem Hub.setLive_still (h : Hub) (q : Nat) (l : LiveQ) : (h.setLive q l).still = h.still := by simp [Hub.setLive]
@[simp] theorem Hub.setStream_still (h : Hub) (s : Nat) (x : CodStream) : (h.setStream s x).still = h.still := by simp [Hub.setStream]
@[simp] theorem Hub.setCPort_still (h : Hub) (p : Nat) (k : CascPort) : (h.setCPort p k).still = h.still := by simp [Hub.setCPort]
@[simp] theorem Hub.setUnit_still (h : Hub) (u : Nat) (x : TrgUnit) : (h.setUnit u x).still = h.still := by simp [Hub.setUnit]
@[simp] theorem Hub.setCg_still (h : Hub) (g : Nat) (x : CapGroup) : (h.setCg g x).still = h.still := by simp [Hub.setCg]
@[simp] theorem Hub.setLane_still (h : Hub) (n : Nat) (x : Lane) : (h.setLane n x).still = h.still := by simp [Hub.setLane]
@[simp] theorem Hub.setCalScan_still (h : Hub) (m : Nat) (x : CalScan) : (h.setCalScan m x).still = h.still := by simp [Hub.setCalScan]

/-- A field read from a table after a write of one entry. -/
theorem Tab.put_field {α β : Type} [Inhabited α] [DecidableEq α] (t : Tab α) (k : Nat) (x : α) (f : α → β) :
    (fun c => f ((t.put k x).get c)) = Function.update (fun c => f (t.get c)) k (f x) := by
  funext c
  rw [Tab.get_put, apply_ite f, Function.update_apply]

theorem Hub.setChain_write (h : Hub) (ch : Nat) (x : Chain) :
    (h.setChain ch x).still = { h.still with parReq := Function.update h.still.parReq ch x.parReq } :=
  congrArg ({ h.still with parReq := · }) (h.flt.ch.put_field ch x Chain.parReq)
theorem Hub.setChg_write (h : Hub) (g : Nat) (x : ChgSt) :
    (h.setChg g x).still = { h.still with run := Function.update h.still.run g x.run } :=
  congrArg ({ h.still with run := · }) (h.jrn.groups.put_field g x ChgSt.run)
theorem Hub.setSwap_write (h : Hub) (p : Nat) (x : Swap) :
    (h.setSwap p x).still = { h.still with swap := Function.update h.still.swap p x.begun } :=
  congrArg ({ h.still with swap := · }) (h.flt.swap.put_field p x Swap.begun)

/-- A change of a chain that leaves its parameter change waiting, or not. -/
@[simp] theorem Hub.setChain_still (h : Hub) (ch : Nat) (x : Chain) (hx : x.parReq = (h.chain ch).parReq) :
    (h.setChain ch x).still = h.still := by
  rw [Hub.setChain_write, hx]
  exact congrArg ({ h.still with parReq := · }) (Function.update_eq_self ch h.still.parReq)

/-- A change of a channel group that leaves its flags. -/
@[simp] theorem Hub.setChg_still (h : Hub) (g : Nat) (x : ChgSt) (hx : x.run = (h.chg g).run) : (h.setChg g x).still = h.still := by
  rw [Hub.setChg_write, hx]
  exact congrArg ({ h.still with run := · }) (Function.update_eq_self g h.still.run)

/-- A change of a bank swap that leaves its progress. -/
@[simp] theorem Hub.setSwap_still (h : Hub) (p : Nat) (x : Swap) (hx : x.begun = (h.flt.swap.get p).begun) :
    (h.setSwap p x).still = h.still := by
  rw [Hub.setSwap_write, hx]
  exact congrArg ({ h.still with swap := · }) (Function.update_eq_self p h.still.swap)

theorem Hub.chain_parReq (h : Hub) (ch : Nat) : (h.chain ch).parReq = h.still.parReq ch := (rfl)
theorem Hub.chg_run (h : Hub) (g : Nat) : (h.chg g).run = h.still.run g := (rfl)

/-! ### Action outputs -/

@[simp] theorem Hub.pinChange_still (h : Hub) (c : PinChange) : (h.pinChange c).still = h.still := by
  simp [Hub.pinChange, Hub.landChange, Hub.landEvent]
@[simp] theorem Hub.logChange_still (h : Hub) (c : PinChange) : (h.logChange c).still = h.still := by simp [Hub.logChange]
@[simp] theorem Hub.awaitChange_still (h : Hub) (u : Nat) (det : T64) (c : PinChange) : (h.awaitChange u det c).still = h.still := by
  simp [Hub.awaitChange]
@[simp] theorem Hub.actAssert_still (h : Hub) (r u : Nat) (det : T64) (prov : Bool) : (h.actAssert r u det prov).still = h.still := by
  simp [Hub.actAssert]
@[simp] theorem Hub.actRelease_still (h : Hub) (r cause : Nat) (t : T64) : (h.actRelease r cause t).still = h.still := by
  unfold Hub.actRelease
  dsimp only
  split
  · split
    · simp
    · split
      · simp
      · split <;> simp
  · simp
@[simp] theorem Hub.actProvisional_still (h : Hub) (u : Nat) (tp : T64) : (h.actProvisional u tp).still = h.still :=
  Hub.foldl_still (fun g r => by simp) _ h
@[simp] theorem Hub.actConfirm_still (h : Hub) (u : Nat) (det : T64) (prov : Bool) : (h.actConfirm u det prov).still = h.still := by
  refine Hub.foldl_still (fun g r => ?_) _ h
  dsimp only
  split
  · exact (Hub.foldl_still (fun g w => by simp) _ _).trans (by simp)
  · simp
@[simp] theorem Hub.actCrossed_still (h : Hub) (u : Nat) (det cross : T64) : (h.actCrossed u det cross).still = h.still :=
  (Hub.foldl_still (fun g w => by simp) _ _).trans (by simp)
@[simp] theorem Hub.actCancel_still (h : Hub) (u : Nat) (tp : T64) : (h.actCancel u tp).still = h.still := by
  refine Hub.foldl_still (fun g r => ?_) _ h
  dsimp only
  split
  · exact (Hub.raise_still _ _ _).trans ((Hub.foldl_still (fun g w => by simp) _ _).trans (by simp))
  · rfl
@[simp] theorem Hub.actFollow_still (h : Hub) (holds : Nat → Bool) : (h.actFollow holds).still = h.still :=
  Hub.foldl_still (fun g r => by simp) _ h

/-! ### Descriptors, excitation, live queues -/

@[simp] theorem Hub.landDescPar_still (h : Hub) (ch bank : Nat) (t : T64) (k : ChanPar) (d : DescCfg) :
    (h.landDescPar ch bank t k d).still = h.still := by unfold Hub.landDescPar; exact Hub.land_still ..
@[simp] theorem Hub.landDesc_still (h : Hub) (ch bank : Nat) (t : T64) : (h.landDesc ch bank t).still = h.still := by simp [Hub.landDesc]
@[simp] theorem Hub.landDescs_still (h : Hub) (groups : List Nat) (t : T64) : (h.landDescs groups t).still = h.still :=
  Hub.foldl_still (fun g _ => Hub.foldl_still (fun g ch => by simp) _ g) _ h
@[simp] theorem Hub.swapReset_still (h : Hub) (p ch : Nat) : (h.swapReset p ch).still = h.still := by simp [Hub.swapReset]
@[simp] theorem Hub.settleBound_still (h : Hub) (x : Nat) (t : T64) : (h.settleBound x t).still = h.still :=
  Hub.foldl_still (fun g ch => by simp) _ h
@[simp] theorem Hub.excApply_still (h : Hub) (x : Nat) (t : T64) : (h.excApply x t).still = h.still :=
  (Hub.foldl_still (fun g p => by simp) _ _).trans (by simp)
@[simp] theorem Hub.excBlankOnly_still (h : Hub) : h.excBlankOnly.still = h.still := by
  refine Hub.foldl_still (fun g x => ?_) _ h
  exact (Hub.foldl_still (fun g hd => by simp) _ _).trans (by simp)
@[simp] theorem Hub.blankBound_still (h : Hub) (x n : Nat) : (h.blankBound x n).still = h.still := by
  have chains : ((List.range 64).foldl (fun (h : Hub) ch => if h.isBound x ch then h.setChain ch { h.chain ch with blankLeft := n } else h)
      h).still = h.still := Hub.foldl_still (fun g ch => by simp) _ h
  simpa [Hub.blankBound] using chains
@[simp] theorem Hub.frameChop_still (h : Hub) : h.frameChop.still = h.still := Hub.foldl_still (fun g i => by simp) _ h
@[simp] theorem Hub.liveWrite_still (h : Hub) (q type flags : Nat) (body : List Word) : (h.liveWrite q type flags body).still = h.still := by
  simp [Hub.liveWrite]
@[simp] theorem Hub.liveBatch_still (h : Hub) (s : Nat) : (h.liveBatch s).still = h.still := by simp [Hub.liveBatch]
@[simp] theorem Hub.liveOutput_still (h : Hub) (ch : Nat) (pepper order : Bool) (n : Nat) (t : T64) (epoch : Nat) (v : Word) (q : Nat) :
    (h.liveOutput ch pepper order n t epoch v q).still = h.still :=
  Hub.foldl_still (fun g sc => by simp) _ h

/-! ### Codec streams and cascade ports -/

@[simp] theorem Hub.saveImages_still (h : Hub) (s entry : Nat) (ticket : Option Nat) : (h.saveImages s entry ticket).still = h.still := by
  unfold Hub.saveImages
  dsimp only
  split
  · rfl
  · exact (Hub.foldl_still (fun g sv => by simp) _ _).trans (by simp)
@[simp] theorem Hub.verifyFail_still (h : Hub) (s : Nat) (ticket : Option Nat) : (h.verifyFail s ticket).still = h.still := by
  simp [Hub.verifyFail]
@[simp] theorem Hub.encode_still (h : Hub) (s entry : Nat) (ticket : Option Nat) (params : List Word) (fails : List Nat) (more : List Int)
    (fuel i : Nat) (drop : Option Nat) (vals : List Int) : (h.encode s entry ticket params fails more fuel i drop vals).1.still = h.still := by
  induction fuel generalizing h i drop vals with
  | zero => rfl
  | succ fuel ih =>
    unfold Hub.encode
    dsimp only
    split
    · rfl
    · simp [ih]
@[simp] theorem Hub.encodePart_still (h : Hub) (s entry : Nat) (ticket : Option Nat) (params : List Word) (fails : List Nat)
    (vals more : List Int) : (h.encodePart s entry ticket params fails vals more).1.still = h.still := by
  simp [Hub.encodePart]
@[simp] theorem Hub.endStream_still (h : Hub) (s : Nat) : (h.endStream s).still = h.still := by simp [Hub.endStream]
@[simp] theorem Hub.cascEmit_still (h : Hub) (p type : Nat) (body : List Byte) : (h.cascEmit p type body).still = h.still := by
  simp [Hub.cascEmit]
@[simp] theorem Hub.cascDrain_still (h : Hub) (p n : Nat) : (h.cascDrain p n).still = h.still := by
  induction n generalizing h with
  | zero => rfl
  | succ n ih =>
    unfold Hub.cascDrain
    dsimp only
    split
    · simp [ih]
    · rfl
@[simp] theorem Hub.cascSend_still (h : Hub) (p type : Nat) (body : List Byte) : (h.cascSend p type body).still = h.still := by
  simp [Hub.cascSend]
@[simp] theorem Hub.ctSend_still (h : Hub) (line unit epoch : Nat) (cross : T64) : (h.ctSend line unit epoch cross).still = h.still :=
  (Hub.foldl_still (fun g p => by simp) _ _).trans (by simp)

end Sys2Proof.Machine

/-! PROOFS. The work of a frame strobe: segments, trigger units, episodes and lanes. -/
namespace Sys2Proof.Machine

/-! ### Capture groups and segments -/

@[simp] theorem Hub.unitCount_still (h : Hub) (u i : Nat) : (h.unitCount u i).still = h.still := by simp [Hub.unitCount]
@[simp] theorem Hub.descFreed_still (h : Hub) : h.descFreed.still = h.still := by simp [Hub.descFreed]
@[simp] theorem Hub.segsDead_still (h : Hub) (g : Nat) : (h.segsDead g).still = h.still := by
  have dead : ∀ (n : Nat) (k : Hub), ((List.range n).foldl (fun (h : Hub) _ => h.raise 44 (b1 g)) k).still = k.still := fun n k =>
    Hub.foldl_still (fun _ _ => by simp) _ k
  simp [Hub.segsDead, dead]
@[simp] theorem Hub.segOpen_still (h : Hub) (g : Nat) (anchor : T64) (epoch status : Nat) (c : Cause) :
    (h.segOpen g anchor epoch status c).1.still = h.still := by
  unfold Hub.segOpen
  dsimp only
  split <;> simp
@[simp] theorem Hub.segUpd_still (h : Hub) (g i : Nat) (f : Seg → Seg) : (h.segUpd g i f).still = h.still := by simp [Hub.segUpd]
@[simp] theorem Hub.segGroup_still (h : Hub) (g : Nat) (w : SegDue) : (h.segGroup g w).1.still = h.still := by
  unfold Hub.segGroup
  dsimp only
  split
  · rfl
  · split
    · simp
    · split <;> simp
@[simp] theorem Hub.segCauses_still (h : Hub) (f : Cause → Option Cause) : (h.segCauses f).still = h.still :=
  Hub.foldl_still (fun g k => by simp) _ h
@[simp] theorem Hub.noSegment_still (h : Hub) (u : Nat) (det : T64) : (h.noSegment u det).still = h.still := by simp [Hub.noSegment]
@[simp] theorem Hub.segDue_still (h : Hub) : h.segDue.still = h.still := by
  refine Hub.foldl_still (fun g k => ?_) _ h
  have due : ∀ (l : List SegDue) (g : Hub), (l.foldl (fun (h : Hub) w =>
      let r := h.segGroup k w
      if r.2 && w.cause.kind == 0 then r.1.noSegment w.cause.unit w.cause.det else r.1) g).still = g.still := fun l g =>
    Hub.foldl_still (fun _ _ => by simp) _ g
  dsimp only
  split
  · rfl
  · exact (due _ _).trans (by simp)
@[simp] theorem Hub.segTrigger_still (h : Hub) (groups : Nat) (w : SegDue) : (h.segTrigger groups w).1.still = h.still := by
  have all : ∀ (l : List Nat) (a : Hub × Nat), (l.foldl (fun (acc : Hub × Nat) g =>
      let r := acc.1.segGroup g w; (r.1, acc.2 + if r.2 then 1 else 0)) a).1.still = a.1.still := by
    intro l
    induction l with
    | nil => exact fun _ => rfl
    | cons k l ih => exact fun a => (ih _).trans (by simp)
  exact (all _ _).trans (by simp)
@[simp] theorem Hub.segAtStrobe_still (h : Hub) (g : Nat) (forced : Bool) : (h.segAtStrobe g forced).still = h.still := by
  simp [Hub.segAtStrobe]
@[simp] theorem Hub.segStrobe_still (h : Hub) : h.segStrobe.still = h.still := Hub.foldl_still (fun g k => by simp) _ h
@[simp] theorem Hub.segClose_still (h : Hub) (g epoch : Nat) (t : T64) (endCause : Nat) : (h.segClose g epoch t endCause).still = h.still := by
  simp [Hub.segClose]
@[simp] theorem Hub.segsStopped_still (h : Hub) (t : T64) : (h.segsStopped t).still = h.still := Hub.foldl_still (fun g k => by simp) _ h
@[simp] theorem Hub.ringDrop_still (h : Hub) (g : Nat) (gone : List StOut) : (h.ringDrop g gone).still = h.still := by
  have dead : ∀ (n : Nat) (k : Hub), ((List.range n).foldl (fun (h : Hub) _ => h.raise 43 (b1 g)) k).still = k.still := fun n k =>
    Hub.foldl_still (fun _ _ => by simp) _ k
  simp [Hub.ringDrop, dead]
@[simp] theorem Hub.ringPush_still (h : Hub) (pepper : Bool) (o : StOut) : (h.ringPush pepper o).still = h.still :=
  Hub.foldl_still (fun g k => by simp) _ h

/-! ### Trigger units -/

theorem Hub.trg_arm (h : Hub) : h.trg.arm = h.still.arm := (rfl)

@[simp] theorem Hub.trigPins_still (h : Hub) (u : Nat) (early late : Bool) : (h.trigPins u early late).still = h.still :=
  Hub.foldl_still (fun g k => by simp) _ h
@[simp] theorem Hub.trigItem_still (h : Hub) (u type epoch : Nat) (tp : T64) (tail : List Word) :
    (h.trigItem u type epoch tp tail).still = h.still := by
  unfold Hub.trigItem
  dsimp only
  split <;> simp
@[simp] theorem Hub.trigFinish_still (h : Hub) (u : Nat) (w : Waiting) (cross : T64) (linear : Bool) :
    (h.trigFinish u w cross linear).still = h.still := by
  simp [Hub.trigFinish, Hub.landEvent, Hub.trg_arm]
@[simp] theorem Hub.trigConfirm_still (h : Hub) (u : Nat) (p : Option Prov) (d : Det) (noSeg : Bool) :
    (h.trigConfirm u p d noSeg).still = h.still := by
  unfold Hub.trigConfirm
  dsimp only
  split <;> simp
@[simp] theorem Hub.trigCancel_still (h : Hub) (u cause : Nat) : (h.trigCancel u cause).still = h.still := by
  unfold Hub.trigCancel
  dsimp only
  split <;> simp
@[simp] theorem Hub.trigAttach_still (h : Hub) (u : Nat) (d : Det) : (h.trigAttach u d).still = h.still := by
  unfold Hub.trigAttach
  split <;> simp
@[simp] theorem Hub.trigNear_still (h : Hub) (u : Nat) : (h.trigNear u).still = h.still := by
  unfold Hub.trigNear
  dsimp only
  split
  · split
    · split <;> simp
    · rfl
  · rfl
@[simp] theorem Hub.trigFire_still (h : Hub) (u : Nat) (s : Seen) (rise : Bool) (lvl : Int) : (h.trigFire u s rise lvl).still = h.still := by
  unfold Hub.trigFire
  dsimp only
  split
  · split <;> simp
  · simp
@[simp] theorem Hub.trigCondition_still (h : Hub) (u : Nat) (s : Seen) (rise : Bool) (lvl : Int) :
    (h.trigCondition u s rise lvl).still = h.still := by
  simp [Hub.trigCondition]
@[simp] theorem Hub.trigResolve_still (h : Hub) (u j : Nat) : (h.trigResolve u j).still = h.still := by
  unfold Hub.trigResolve
  dsimp only
  split
  · rfl
  · split
    · rfl
    · exact (Hub.foldl_still (fun g w => by simp) _ _).trans (by simp)
@[simp] theorem Hub.trigPepper_still (h : Hub) (u : Nat) (s : Seen) : (h.trigPepper u s).still = h.still := by
  unfold Hub.trigPepper
  dsimp only
  split <;> simp
@[simp] theorem Hub.trigSaffron_still (h : Hub) (u : Nat) (s : Seen) : (h.trigSaffron u s).still = h.still := by
  unfold Hub.trigSaffron
  dsimp only
  split <;> split <;> simp
@[simp] theorem Hub.unitTurn_still (h : Hub) (u : Nat) : (h.unitTurn u).still = h.still := by simp [Hub.unitTurn]
@[simp] theorem Hub.unitOutput_still (h : Hub) (u : Nat) (pepper : Bool) (s : Seen) : (h.unitOutput u pepper s).still = h.still := by
  simp [Hub.unitOutput]
@[simp] theorem Hub.trigMissed_still (h : Hub) (ch : Nat) : (h.trigMissed ch).still = h.still := Hub.foldl_still (fun g u => by simp) _ h
@[simp] theorem Hub.trigOutput_still (h : Hub) (ch : Nat) (pepper : Bool) (n : Nat) (t : Fr) (epoch : Nat) (x : Int) (q : Nat) :
    (h.trigOutput ch pepper n t epoch x q).still = h.still := by
  have cancelled : ∀ (l : List Nat) (g : Hub), (l.foldl (fun (h : Hub) u => h.trigCancel u 2) g).still = g.still := fun l g =>
    Hub.foldl_still (fun _ _ => by simp) l g
  unfold Hub.trigOutput
  dsimp only
  split
  · exact (Hub.foldl_still (fun g u => by simp) _ _).trans (by simp [cancelled])
  · exact (Hub.actFollow_still _ _).trans ((Hub.foldl_still (fun g u => by simp) _ _).trans (by simp [cancelled]))

/-! ### Episodes, missing inputs and landed marks -/

@[simp] theorem Hub.gapEnd_still (h : Hub) (ch : Nat) : (h.gapEnd ch).still = h.still := by
  unfold Hub.gapEnd
  dsimp only
  split
  · rfl
  · exact (Hub.foldl_still (fun g e => by simp) _ _).trans (by simp)
@[simp] theorem Hub.gapEndBefore_still (h : Hub) (ch : Nat) (i : Nat × T64) : (h.gapEndBefore ch i).still = h.still := by
  simp [Hub.gapEndBefore]
@[simp] theorem Hub.refusalEnd_still (h : Hub) (ch : Nat) : (h.refusalEnd ch).still = h.still := by
  unfold Hub.refusalEnd
  dsimp only
  split
  · rfl
  · exact (Hub.foldl_still (fun g e => by simp) _ _).trans (by simp)
@[simp] theorem Hub.gapInstant_still (h : Hub) (ch cause detail unc epoch : Nat) (t : T64) :
    (h.gapInstant ch cause detail unc epoch t).still = h.still := by
  simp [Hub.gapInstant]
theorem Chain.miss_parReq (k : Chain) (g : Geo) (i j cause detail unc : Nat) : (k.miss g i j cause detail unc).parReq = k.parReq := by
  unfold Chain.miss
  split <;> rfl
@[simp] theorem Hub.missInputs_still (h : Hub) (ch i j cause detail unc : Nat) : (h.missInputs ch i j cause detail unc).still = h.still := by
  unfold Hub.missInputs
  split
  · simp [Chain.miss_parReq]
  · rfl
@[simp] theorem Hub.laneSend_still (h : Hub) (n type sub : Nat) (payload : List Byte) : (h.laneSend n type sub payload).still = h.still := by
  simp [Hub.laneSend]
@[simp] theorem Hub.sendLanded_still (h : Hub) (n : Nat) (all : Bool) : (h.sendLanded n all).still = h.still := by simp [Hub.sendLanded]
@[simp] theorem Hub.fatesPass_still (h : Hub) (fs : List OpenFrame) : (h.fatesPass fs).still = h.still :=
  Hub.foldl_still (fun g f => Hub.foldl_still (fun g s => by simp) _ g) _ h
@[simp] theorem Hub.slMarks_still (h : Hub) : h.slMarks.still = h.still := Hub.foldl_still (fun g n => by simp) _ h
@[simp] theorem Hub.chanDone_still (h : Hub) (ch epoch : Nat) (t : T64) (landed : Bool) : (h.chanDone ch epoch t landed).still = h.still := by
  simp [Hub.chanDone]
@[simp] theorem Hub.timing_still (h : Hub) (n by_ : Nat) : (h.timing n by_).still = h.still := by simp [Hub.timing]
@[simp] theorem Hub.slStrobe_still (h : Hub) (by_ cyc epoch idx : Nat) (discont noSample : Bool) (till : Option Nat) :
    (h.slStrobe by_ cyc epoch idx discont noSample till).still = h.still :=
  (Hub.foldl_still (fun g n => by simp) _ _).trans (by simp)
@[simp] theorem Hub.refuseInstant_still (h : Hub) (ch epoch : Nat) (t : T64) : (h.refuseInstant ch epoch t).still = h.still := by
  simp [Hub.refuseInstant]

end Sys2Proof.Machine

/-! PROOFS. The work of a frame strobe: the records of channel groups. -/
namespace Sys2Proof.Machine

/-! ### Records of channel groups -/

/-- A change of the record being filled leaves the flags. -/
@[simp] theorem ChgSt.mk_run (x : ChgSt) {since start epoch past kept staged absent cur bounds refusing digest digestEpoch refused} :
    (ChgSt.mk x.acquiring x.startReq x.stopReq since start epoch past kept staged absent cur bounds refusing digest digestEpoch
      refused).run = x.run := (rfl)

@[simp] theorem Hub.freePages_still (h : Hub) : h.freePages.still = h.still := h.freePages_lands.still
@[simp] theorem Hub.jrnState_still (h : Hub) : h.jrnState.still = h.still := h.jrnState_lands.still
@[simp] theorem Hub.landWhole_still (h : Hub) (r : Rec) : (h.landWhole r).still = h.still := (h.landWhole_lands r).still
@[simp] theorem Hub.takeTicket_still (h : Hub) : h.takeTicket.2.still = h.still := h.takeTicket_lands.still
@[simp] theorem Hub.saveState_still (h : Hub) (handle : Option Nat) : (h.saveState handle).still = h.still := (h.saveState_lands handle).still
@[simp] theorem Hub.landHealth_still (h : Hub) (subtype epoch : Nat) (t : T64) (body : List Byte) :
    (h.landHealth subtype epoch t body).still = h.still := by simp [Hub.landHealth]
@[simp] theorem Hub.landGapOpen_still (h : Hub) (group : Nat) (chans : List Nat) (t : T64) :
    (h.landGapOpen group chans t).still = h.still := by simp [Hub.landGapOpen, Hub.gapNote]

@[simp] theorem Hub.digestClose_still (h : Hub) (g : Nat) : (h.digestClose g).still = h.still := by
  unfold Hub.digestClose
  dsimp only
  split <;> simp
@[simp] theorem Hub.digestEntry_still (h : Hub) (g epoch : Nat) (t : T64) (entry : List Byte) :
    (h.digestEntry g epoch t entry).still = h.still := by
  unfold Hub.digestEntry
  dsimp only
  split
  · simp
  · split <;> split <;> simp
@[simp] theorem Hub.blockClose_still (h : Hub) (g : Nat) : (h.blockClose g).still = h.still := by
  unfold Hub.blockClose
  dsimp only
  split
  · rfl
  · split
    · simp
    · split <;> simp
@[simp] theorem Hub.partMake_still (h : Hub) (g : Nat) (first : T64) (epoch : Nat) (cs : List (Nat × Bool)) (k0 : Nat) (fails : List Nat)
    (is : List Inst) : (h.partMake g first epoch cs k0 fails is).still = h.still := by
  simp [Hub.partMake]
@[simp] theorem Hub.enterFull_still (h : Hub) : h.enterFull.still = h.still := by simp [Hub.enterFull]
theorem Hub.appendPart_still {h g : Hub} {w t n : Nat} {starts : Bool} {ps : List Nat} (e : h.appendPart w t n starts = some (ps, g)) :
    g.still = h.still := by
  unfold Hub.appendPart at e
  split at e
  · next ha => exact (Hub.append_lands (ha.trans e)).still
  · exact (Hub.append_lands e).still.trans (by simp)
@[simp] theorem Hub.partWrite_still (h : Hub) : h.partWrite.still = h.still := by
  unfold Hub.partWrite
  dsimp only
  split
  · rfl
  · split
    · simp
    · split
      · simp
      · next e =>
        simp only [Hub.jrnState_still, Hub.slMarks_still, Hub.freePages_still]
        refine (Hub.foldl_still (fun _ _ => by simp) _ _).trans ?_
        have ht := Hub.appendPart_still e
        split at ht <;> simpa using ht
@[simp] theorem Hub.partsLandOf_still (h : Hub) (ch : Nat) : (h.partsLandOf ch).still = h.still := Hub.foldl_still (fun g _ => by simp) _ h
@[simp] theorem Hub.landLate_still (h : Hub) (ch : Nat) (outs : List StOut) : (h.landLate ch outs).still = h.still := by
  unfold Hub.landLate
  dsimp only
  split <;> simp
@[simp] theorem Hub.lateLand_still (h : Hub) (g ch : Nat) (take : StOut → Bool) : (h.lateLand g ch take).still = h.still :=
  (Hub.foldl_still (fun _ _ => by simp) _ _).trans (by simp)
@[simp] theorem Hub.lateReturn_still (h : Hub) (g : Nat) (i : Inst) : (h.lateReturn g i).still = h.still := Hub.foldl_still (fun _ _ => by simp) _ h
@[simp] theorem Hub.closeInsts_still (h : Hub) (g : Nat) (fails : List Nat) (n : Nat) (is : List Inst) :
    (h.closeInsts g fails n is).still = h.still := by
  induction n generalizing h is with
  | zero => rw [Hub.closeInsts]
  | succ n ih =>
    cases is with
    | nil => rw [Hub.closeInsts]; simp
    | cons i is =>
      rw [Hub.closeInsts]
      extract_lets opened _ _ run made _ last next
      have hmade : made.still = h.still := by simp [made, opened]
      have hnext : next.still = made.still := by
        dsimp only [next]
        cases last <;> simp
      rw [Hub.ite_still, ih, ih, hnext, hmade]
      simp [opened]
@[simp] theorem Hub.boundsClose_still (h : Hub) (g : Nat) (fails : List Nat) (l : List ((Nat × T64) × Nat)) :
    (h.boundsClose g fails l).still = h.still := by
  induction l generalizing h with
  | nil => simp [Hub.boundsClose]
  | cons b r ih => simp [Hub.boundsClose, ih]
@[simp] theorem Hub.groupParts_still (h : Hub) (g : Nat) (fails : List Nat) : (h.groupParts g fails).still = h.still := by simp [Hub.groupParts]
@[simp] theorem Hub.partsAll_still (h : Hub) (g : Nat) (f : Inst → Bool) : (h.partsAll g f).still = h.still := by simp [Hub.partsAll]

end Sys2Proof.Machine

/-! PROOFS. The work of a frame strobe: filter chains and tacho units. -/
namespace Sys2Proof.Machine

/-! ### Steps of a chain -/

@[simp] theorem Chain.feed_parReq (k : Chain) (g : Geo) (oR gR fx v : Int) : (k.feed g oR gR fx v).1.parReq = k.parReq := by
  unfold Chain.feed
  dsimp only
  split
  · rfl
  · split <;> rfl
@[simp] theorem Chain.zero_parReq (k : Chain) (g : Geo) (ts epoch : Nat) : (k.zero g ts epoch).parReq = k.parReq := rfl
@[simp] theorem Chain.start_parReq (k : Chain) (g : Geo) (ts epoch : Nat) : (k.start g ts epoch).parReq = k.parReq := rfl
@[simp] theorem Chain.advance_parReq (k : Chain) (g : Geo) (s : Stage4) : (k.advance g s).parReq = k.parReq := rfl
@[simp] theorem Chain.jump_parReq (k : Chain) (g : Geo) (i cause detail : Nat) : (k.jump g i cause detail).parReq = k.parReq := by
  unfold Chain.jump
  split <;> rfl
@[simp] theorem Hub.chainPush_parReq (h : Hub) (pn : Nat) (g : Geo) (k : Chain) (x : Tap) : (h.chainPush pn g k x).1.parReq = k.parReq := by
  unfold Hub.chainPush
  dsimp only
  split <;> rfl

@[simp] theorem Hub.pepperOut_still (h : Hub) (ch : Nat) (g : Geo) (x : Tap) : (h.pepperOut ch g x).still = h.still := by
  unfold Hub.pepperOut
  dsimp only
  split <;> simp
theorem Hub.swap_begun (h : Hub) (p : Nat) : (h.flt.swap.get p).begun = h.still.swap p := (rfl)
@[simp] theorem Hub.fadeSeen_still (h : Hub) (p ch n xf : Nat) (t : T64) : (h.fadeSeen p ch n xf t).still = h.still := by
  unfold Hub.fadeSeen
  dsimp only
  split
  · next hc => exact Hub.setSwap_still _ _ _ (by simp [Swap.begun, hc])
  · rfl
@[simp] theorem Hub.mainTap_still (h : Hub) (ch : Nat) (c : ChanCfg) (g : Geo) (x : Tap) : (h.mainTap ch c g x).still = h.still := by
  unfold Hub.mainTap
  dsimp only
  split
  · rfl
  · split <;> simp
@[simp] theorem Hub.feedInput_still (h : Hub) (ch : Nat) (c : ChanCfg) (g : Geo) (v : Int) (fl : Nat) (pep : Option Tap) :
    (h.feedInput ch c g v fl pep).1.still = h.still := by
  have flagged : ∀ k : Chain, (if fl = 0 then k else { k with flagged := k.flagged ++ [(k.nextIn, fl)] }).parReq = k.parReq := by
    intro k
    split <;> rfl
  unfold Hub.feedInput
  dsimp only
  split <;> simp [flagged]
@[simp] theorem Hub.consume_still (h : Hub) (ch : Nat) (c : ChanCfg) (g : Geo) (n : Nat) : (h.consume ch c g n).still = h.still := by
  induction n generalizing h with
  | zero => rfl
  | succ n ih =>
    unfold Hub.consume
    dsimp only
    split
    · rfl
    · split
      · rfl
      · split
        · simp [ih]
        · split
          · simp [ih]
          · split
            · simp [ih]
            · split <;> simp [ih]
@[simp] theorem Hub.digestEmit_still (h : Hub) (ch : Nat) (isPart : Bool) : (h.digestEmit ch isPart).still = h.still := by
  unfold Hub.digestEmit
  dsimp only
  split <;> simp
@[simp] theorem Hub.digestAt_still (h : Hub) (ch redN n : Nat) (order : Bool) (t : T64) : (h.digestAt ch redN n order t).1.still = h.still := by
  unfold Hub.digestAt
  dsimp only
  split
  · split <;> simp
  · rfl
@[simp] theorem Hub.digestAdd_still (h : Hub) (ch redN n : Nat) (order : Bool) (t : T64) (y : Option (Int × Nat)) :
    (h.digestAdd ch redN n order t y).still = h.still := by
  simp [Hub.digestAdd]
@[simp] theorem Hub.release_still (h : Hub) (o : StOut) : (h.release o).still = h.still := by simp [Hub.release]
@[simp] theorem Hub.stageOut_still (h : Hub) (o : StOut) : (h.stageOut o).still = h.still := by
  simp [Hub.stageOut]
@[simp] theorem Hub.stageEmpty_still (h : Hub) (ch : Nat) : (h.stageEmpty ch).still = h.still :=
  (Hub.foldl_still (fun g o => by simp) _ _).trans (by simp)
@[simp] theorem Hub.fadeBare_still (h : Hub) (ch : Nat) : (h.fadeBare ch).still = h.still := by
  unfold Hub.fadeBare
  split <;> simp
@[simp] theorem Hub.parReach_still (h : Hub) (ch : Nat) (t : T64) : (h.parReach ch t).still = h.still := by
  unfold Hub.parReach
  dsimp only
  split
  · rfl
  · exact (Hub.foldl_still (fun g p => by simp) _ _).trans (by simp)
@[simp] theorem Hub.chainStep_still (h : Hub) (ch : Nat) (c : ChanCfg) (g : Geo) (s : Stage4) : (h.chainStep ch c g s).still = h.still := by
  unfold Hub.chainStep
  dsimp only
  split
  · simp
  · rcases h.fadeWith ch g s.n with - | ⟨_, _, _, _⟩ <;> simp
@[simp] theorem Hub.drain_still (h : Hub) (ch : Nat) (c : ChanCfg) (g : Geo) (n : Nat) : (h.drain ch c g n).still = h.still := by
  induction n generalizing h with
  | zero => rfl
  | succ n ih =>
    unfold Hub.drain
    dsimp only
    split <;> simp [ih]
@[simp] theorem Hub.flushTail_still (h : Hub) (ch : Nat) (c : ChanCfg) (g : Geo) (n : Nat) : (h.flushTail ch c g n).still = h.still := by
  induction n generalizing h with
  | zero => rfl
  | succ n ih =>
    unfold Hub.flushTail
    simp [ih]
@[simp] theorem Hub.chainTail_still (h : Hub) (ch : Nat) (c : ChanCfg) (g : Geo) (ts : Nat) : (h.chainTail ch c g ts).still = h.still := by
  have fed : ∀ (n : Nat) (k : Hub), ((List.range (n + 1)).foldl (fun h _ => (h.consume ch c g (n + 1)).drain ch c g 65536) k).still = k.still :=
    fun n k => Hub.foldl_still (fun _ _ => by simp) _ k
  simp [Hub.chainTail, fed]
@[simp] theorem Hub.calRestart_still (h : Hub) (ch : Nat) (g : Geo) (ts epoch wait : Nat) : (h.calRestart ch g ts epoch wait).still = h.still := by
  unfold Hub.calRestart
  split <;> simp
@[simp] theorem Hub.syncNow_still (h : Hub) (ch : Nat) (c : ChanCfg) (g : Geo) (ts : Nat) : (h.syncNow ch c g ts).still = h.still := by
  simp [Hub.syncNow]
@[simp] theorem Hub.chainSync_still (h : Hub) (ch ts : Nat) : (h.chainSync ch ts).still = h.still := by
  unfold Hub.chainSync
  dsimp only
  split <;> simp
@[simp] theorem Hub.chainStart_still (h : Hub) (ch ts epoch : Nat) : (h.chainStart ch ts epoch).still = h.still := by
  unfold Hub.chainStart
  dsimp only
  split <;> simp
@[simp] theorem Hub.restartNow_still (h : Hub) (ch ts : Nat) (was : Option ChanCfg) : (h.restartNow ch ts was).still = h.still := by
  unfold Hub.restartNow
  dsimp only
  split <;> simp
@[simp] theorem Hub.chainRestart_still (h : Hub) (ch ts : Nat) : (h.chainRestart ch ts).still = h.still := by
  simp [Hub.chainRestart]

/-! ### Tacho units -/

@[simp] theorem Hub.tachChan_still (h : Hub) (ch : Nat) (c : ChanCfg) (g : Geo) (t : T64) : (h.tachChan ch c g t).still = h.still := by
  unfold Hub.tachChan
  dsimp only
  split
  · simp
  · split <;> simp
@[simp] theorem tachPulse_still (i : Nat) (t : T64) (h : Hub) : (tachPulse i t h).still = h.still := by
  refine Hub.foldl_still (fun g ch => ?_) _ h
  split
  · split
    · split <;> simp
    · rfl
  · rfl
@[simp] theorem Hub.orderBreak_still (h : Hub) (i : Nat) : (h.orderBreak i).still = h.still := Hub.foldl_still (fun g ch => by simp) _ h
@[simp] theorem Hub.tachBreak_still (h : Hub) (i : Nat) : (h.tachBreak i).still = h.still := by simp [Hub.tachBreak]
@[simp] theorem Hub.tachTake_still (h : Hub) (x : Nat × T64 × Bool) : (h.tachTake x).still = h.still := by simp [Hub.tachTake]
@[simp] theorem Hub.tachDrain_still (h : Hub) : h.tachDrain.still = h.still := by
  have taken : ∀ (l : List (Nat × T64 × Bool)) (k : Hub), (l.foldl (fun h x => h.tachTake x) k).still = k.still := fun l k =>
    Hub.foldl_still (fun _ _ => by simp) l k
  exact (Hub.foldl_still (fun g i => by simp) _ _).trans (by simp [taken])

end Sys2Proof.Machine

/-! PROOFS. The work of a frame strobe: what waits for it, apart from the runs of channel groups. -/
namespace Sys2Proof.Machine

/-! ### What runs at a strobe and moves nothing that waits for one -/

@[simp] theorem Hub.calLand_still (h : Hub) (ch : Nat) (r : CalRec) : (h.calLand ch r).still = h.still := by simp [Hub.calLand]
@[simp] theorem Hub.lostGap_still (h : Hub) (ch : Nat) (t : T64) : (h.lostGap ch t).still = h.still := by simp [Hub.lostGap]
@[simp] theorem Hub.scanLand_still (h : Hub) (m : Nat) (recs : List CalRec) : (h.scanLand m recs).still = h.still :=
  Hub.foldl_still (fun g r => by simp) _ h
@[simp] theorem Hub.scanPeriod_still (h : Hub) (m : Nat) : (h.scanPeriod m).still = h.still := by
  unfold Hub.scanPeriod
  dsimp only
  split
  · simp
  · exact (Hub.foldl_still (fun g r => by simp) _ _).trans (by simp)
@[simp] theorem Hub.scanStrobe_still (h : Hub) : h.scanStrobe.still = h.still := Hub.foldl_still (fun g m => by simp) _ h
@[simp] theorem Hub.cascAligns_still (h : Hub) : h.cascAligns.still = h.still := Hub.foldl_still (fun g p => by simp) _ h
@[simp] theorem Hub.cascMarks_still (h : Hub) (idx : Nat) : (h.cascMarks idx).still = h.still := by
  unfold Hub.cascMarks
  dsimp only
  split
  · rfl
  · exact (Hub.foldl_still (fun g p => by simp) _ _).trans (by simp)
@[simp] theorem Hub.excStrobe_still (h : Hub) : h.excStrobe.still = h.still := (Hub.foldl_still (fun g x => by simp) _ _).trans (by simp)
@[simp] theorem Hub.chainStrobe_still (h : Hub) : h.chainStrobe.still = h.still := Hub.foldl_still (fun g ch => by simp) _ h
@[simp] theorem Hub.stopGap_still (h : Hub) (ch : Nat) (s : Nat × T64) : (h.stopGap ch s).still = h.still := by
  unfold Hub.stopGap
  dsimp only
  split
  · split
    · rfl
    · split <;> exact Hub.foldl_still (fun _ _ => by simp) _ h
  · rfl
@[simp] theorem Hub.digestStop_still (h : Hub) (ch : Nat) (s : Nat × T64) : (h.digestStop ch s).still = h.still := by simp [Hub.digestStop]
@[simp] theorem Hub.orderStart_still (h : Hub) (ch : Nat) : (h.orderStart ch).still = h.still := by
  unfold Hub.orderStart
  dsimp only
  split <;> simp
@[simp] theorem Hub.resetGroup_still (h : Hub) (g : Nat) : (h.resetGroup g).still = h.still := by
  refine Hub.foldl_still (fun k i => ?_) _ h
  dsimp only
  split <;> simp
@[simp] theorem Hub.resetScan_still (h : Hub) (m : Nat) : (h.resetScan m).still = h.still := by
  unfold Hub.resetScan
  dsimp only
  split
  · rfl
  · exact (Hub.foldl_still (fun _ _ => by simp) _ _).trans (by simp)
@[simp] theorem Hub.resetTiu_still (h : Hub) : h.resetTiu.still = h.still := (Hub.foldl_still (fun _ _ => by simp) _ _).trans (by simp)

/-! ### What waits for a strobe takes effect -/

/-- FLT_SYNC (R160). -/
theorem Hub.syncStrobe_still (h : Hub) : h.syncStrobe.still = { h.still with sync := [] } := by
  have reset : ∀ (l : List SyncReq) (k : Hub), (l.foldl (fun h r =>
      let gs := (bitsOf r.mask 64).filter fun g => (h.chg g).acquiring
      let h := gs.foldl (fun h g => (h.cfg.jrn.groups.get g).chans.foldl (fun h ch => h.chainSync ch h.tb.total) h) h
      let m := maskOf gs
      h.complete r.handle DONE (tWords h.sampleT ++ [wd h.tb.epoch, lo32 m, hi32 m])) k).still = k.still := fun l k =>
    Hub.foldl_still (fun g r => (Hub.complete_still ..).trans
      (Hub.foldl_still (fun g _ => Hub.foldl_still (fun _ _ => by simp) _ g) _ g)) l k
  refine (reset _ _).trans ?_
  split
  · next he => rw [← List.isEmpty_iff.mp he]; rfl
  · exact congrArg ({ · with sync := [] }) h.tachDrain_still

/-- Descriptors (R347). -/
theorem Hub.descStrobe_still (h : Hub) : h.descStrobe.still = { h.still with descReq := [] } :=
  (Hub.foldl_still (fun g r => by simp) _ _).trans rfl

@[simp] theorem Hub.unitArm_still (h : Hub) (u : Nat) : (h.unitArm u).still = h.still := by simp [Hub.unitArm]
@[simp] theorem Hub.unitDisarm_still (h : Hub) (u : Nat) : (h.unitDisarm u).still = h.still := by simp [Hub.unitDisarm]
@[simp] theorem Hub.cgArm_still (h : Hub) (g : Nat) : (h.cgArm g).still = h.still := by simp [Hub.cgArm]
@[simp] theorem Hub.cgDisarm_still (h : Hub) (g : Nat) : (h.cgDisarm g).still = h.still := by simp [Hub.cgDisarm]
/-- TRG_ARM (R196). -/
theorem Hub.armApply_still (h : Hub) : h.armApply.still = { h.still with arm := [] } := by
  refine (Hub.foldl_still (fun g r => ?_) _ _).trans rfl
  exact (Hub.foldl_still (fun _ _ => Hub.unitArm_still _ _) _ _).trans <| (Hub.foldl_still (fun _ _ => Hub.cgArm_still _ _) _ _).trans <|
    (Hub.foldl_still (fun _ _ => Hub.cgDisarm_still _ _) _ _).trans (Hub.foldl_still (fun _ _ => Hub.unitDisarm_still _ _) _ g)

/-- A per-block reset that waits begins. -/
theorem Hub.blockStrobe_still (h : Hub) : ∃ r, h.blockStrobe.still = { h.still with blockReset := r } ∧
    ∀ b, h.sys.blockReset = some b → b.began = none → r = some { b with began := some h.tb.strobes } := by
  have write : ∀ b, (Hub.still { h with sys := { h.sys with blockReset := b } }) = { h.still with blockReset := b } := fun _ => rfl
  unfold Hub.blockStrobe
  split
  · next hn => exact ⟨none, by rw [← hn]; rfl, fun b hb => by simp [hb] at hn⟩
  · next b hb =>
    split
    · refine ⟨some { b with began := some h.tb.strobes }, ?_, fun c hc _ => by rw [hb] at hc; rw [Option.some.inj hc]⟩
      dsimp only
      split
      · exact (Hub.resetGroup_still ..).trans (write _)
      · split
        · exact (Hub.resetScan_still ..).trans (write _)
        · exact (Hub.resetTiu_still _).trans (write _)
    · next t ht =>
      have begun : ∀ c, h.sys.blockReset = some c → c.began = none → False := fun c hc hn => by
        rw [← Option.some.inj (hb.symm.trans hc), ht] at hn
        exact absurd hn nofun
      split
      · refine ⟨none, ?_, fun c hc hn => (begun c hc hn).elim⟩
        dsimp only
        split
        · exact (Hub.respond_still ..).trans ((Hub.noteTag_still ..).trans (write _))
        · exact write _
      · exact ⟨h.sys.blockReset, rfl, fun c hc hn => (begun c hc hn).elim⟩

/-- A fold that takes the parameter change of each channel that is configured. -/
theorem Hub.foldl_parReq {f : Hub → Nat → Hub} (hf : ∀ g ch, (f g ch).still =
      { g.still with parReq := Function.update g.still.parReq ch (if (g.chanCfg ch).isSome then none else g.still.parReq ch) })
    (l : List Nat) (h : Hub) : (l.foldl f h).still =
      { h.still with parReq := fun ch => if ch ∈ l ∧ (h.chanCfg ch).isSome then none else h.still.parReq ch } := by
  induction l generalizing h with
  | nil => simp
  | cons c l ih =>
    have cfg : ∀ ch, (f h c).chanCfg ch = h.chanCfg ch := fun ch => congrArg (·.cfg.flt.chans.get ch) (hf h c)
    rw [List.foldl_cons, ih, hf]
    refine congrArg ({ h.still with parReq := · }) (funext fun ch => ?_)
    rw [cfg]
    by_cases hc : ch = c
    · cases hs : (h.chanCfg c).isSome <;> simp [hc, hs]
    · simp [hc]
/-- A parameter change (R147). -/
theorem Hub.parStrobe_still (h : Hub) : h.parStrobe.still = { h.still with
    parReq := fun ch => if ch ∈ h.cfg.flt.chans.keys ∧ (h.chanCfg ch).isSome then none else h.still.parReq ch } := by
  refine Hub.foldl_parReq (fun g ch => ?_) _ h
  have same : (if (g.chanCfg ch).isSome then none else g.still.parReq ch) = g.still.parReq ch → g.still =
      { g.still with parReq := Function.update g.still.parReq ch (if (g.chanCfg ch).isSome then none else g.still.parReq ch) } := by
    intro hs
    rw [hs]
    exact (congrArg ({ g.still with parReq := · }) (Function.update_eq_self ch g.still.parReq)).symm
  dsimp only
  cases hp : (g.chain ch).parReq with
  | none => exact same (by rw [← Hub.chain_parReq, hp, ite_self])
  | some x =>
    cases hc : g.chanCfg ch with
    | none => simpa only [hc] using same (by simp [hc])
    | some c =>
      rw [Hub.ite_still, Hub.landDescPar_still, Hub.setChain_write, ite_self]
      rfl

theorem Hub.swapStart_still (h : Hub) (p : Nat) : (h.swapStart p).still =
    { h.still with swap := Function.update h.still.swap p ((h.still.swap p).map fun _ => true) } := by
  have same : ∀ b, h.still.swap p = b → { h.still with swap := Function.update h.still.swap p b } = h.still := by
    intro b hb
    rw [← hb]
    exact congrArg ({ h.still with swap := · }) (Function.update_eq_self p h.still.swap)
  unfold Hub.swapStart
  split
  · next c hc =>
    have hb : h.still.swap p = some c.started := by rw [← Hub.swap_begun, Swap.begun, hc]; rfl
    split
    · next hs => exact (same _ (by simp [hb, hs])).symm
    · refine (Hub.foldl_still (fun _ _ => by simp) _ _).trans ((Hub.foldl_still (fun _ _ => by simp) _ _).trans ?_)
      rw [Hub.setSwap_write, hb]
      rfl
  · next hc => exact (same _ (by rw [← Hub.swap_begun, Swap.begun, hc]; rfl)).symm
theorem Hub.swapStarts_still (l : List Nat) (h : Hub) : (l.foldl (fun h p => h.swapStart p) h).still = { h.still with
    swap := fun p => if p ∈ l then (h.still.swap p).map fun _ => true else h.still.swap p } := by
  induction l generalizing h with
  | nil => simp
  | cons q l ih =>
    rw [List.foldl_cons, ih, Hub.swapStart_still]
    refine congrArg ({ h.still with swap := · }) (funext fun p => ?_)
    by_cases hp : p = q <;> simp [hp]
/-- Every bank swap that waits begins (R122). -/
theorem Hub.swapStrobe_still (h : Hub) : h.swapStrobe.still = { h.still with
    swap := fun p => if p < 32 then (h.still.swap p).map fun _ => true else h.still.swap p } := by
  simpa [Hub.swapStrobe] using Hub.swapStarts_still (List.range 32) h

end Sys2Proof.Machine

/-! PROOFS. The work of a frame strobe: the runs of channel groups. -/
namespace Sys2Proof.Machine

/-! ### Starts and stops of channel groups (R301, R341) -/

/-- A group that has stopped may also lose an old request to stop; nothing else moves. -/
def RunFlags.Settles (r s : RunFlags) : Prop :=
  s.acquiring = r.acquiring ∧ s.startReq = r.startReq ∧ (s.stopReq = r.stopReq ∨ r.acquiring = false ∧ s.stopReq = false)

theorem RunFlags.Settles.refl (r : RunFlags) : r.Settles r := ⟨rfl, rfl, .inl rfl⟩
theorem RunFlags.Settles.trans {r s t : RunFlags} (rs : r.Settles s) (st : s.Settles t) : r.Settles t := by
  obtain ⟨ha, hb, hc⟩ := rs
  obtain ⟨ha', hb', hc'⟩ := st
  refine ⟨ha'.trans ha, hb'.trans hb, ?_⟩
  rw [← ha] at *
  rcases hc' with e | e
  · rwa [e]
  · exact .inr e
/-- Without a request to stop all flags stay. -/
theorem RunFlags.Settles.eq {r s : RunFlags} (rs : r.Settles s) (hr : r.stopReq = false) : s = r := by
  obtain ⟨ha, hb, hc⟩ := rs
  exact RunFlags.ext ha hb (hc.elim id fun e => e.2.trans hr.symm)

/-- From `h` to `g` runs of channel groups closed. -/
def Hub.Closes (h g : Hub) : Prop := g.still = { h.still with run := g.still.run } ∧ ∀ k, (h.still.run k).Settles (g.still.run k)

theorem Hub.Closes.of_still {h g : Hub} (e : g.still = h.still) : h.Closes g := ⟨by rw [e], fun k => e ▸ .refl _⟩
theorem Hub.Closes.trans {h g t : Hub} (hg : h.Closes g) (gt : g.Closes t) : h.Closes t :=
  ⟨gt.1.trans (congrArg ({ · with run := t.still.run }) hg.1), fun k => (hg.2 k).trans (gt.2 k)⟩
theorem Hub.Closes.foldl {α : Type} {f : Hub → α → Hub} (hf : ∀ (g : Hub) a, g.Closes (f g a)) (l : List α) (h : Hub) :
    h.Closes (l.foldl f h) := by
  induction l generalizing h with
  | nil => exact .of_still rfl
  | cons a l ih => exact (hf h a).trans (ih _)
theorem Hub.setChg_closes {h : Hub} {g : Nat} {x : ChgSt} (hx : (h.chg g).run.Settles x.run) : h.Closes (h.setChg g x) := by
  refine ⟨by rw [h.setChg_write], fun k => ?_⟩
  rw [h.setChg_write]
  by_cases hk : k = g
  · simpa [hk, ← Hub.chg_run] using hx
  · simpa [hk] using .refl _

/-- The closed run leaves its group. -/
theorem Hub.runGone_closes (h : Hub) (g : Nat) (r : List ((Nat × T64) × (Nat × T64))) :
    h.Closes (if r.isEmpty && !(h.chg g).acquiring then
      h.setChg g { (default : ChgSt) with startReq := (h.chg g).startReq, reqSince := (h.chg g).reqSince }
    else h.setChg g { h.chg g with past := r, kept := if r.isEmpty then none else (h.chg g).kept }) := by
  split
  · next hc =>
    have ha : (h.chg g).acquiring = false := by simpa using (Bool.and_eq_true_iff.mp hc).2
    exact Hub.setChg_closes ⟨ha.symm, rfl, .inr ⟨ha, rfl⟩⟩
  · exact Hub.setChg_closes (.refl _)
theorem Hub.runClose_closes (h : Hub) (g : Nat) : h.Closes (h.runClose g) := by
  unfold Hub.runClose
  split
  · exact .of_still rfl
  · next s r _ =>
    refine .trans (.of_still ?_) (Hub.runGone_closes _ g r)
    refine (Hub.foldl_still (fun _ _ => by simp) _ _).trans ?_
    rw [Hub.digestClose_still, Hub.ite_still, Hub.blockClose_still, ite_self]
    refine (Hub.foldl_still (fun _ _ => by simp) _ _).trans ?_
    rw [Hub.partsAll_still]
    exact Hub.foldl_still (fun _ _ => by simp) _ h
theorem Hub.runsClose_closes (h : Hub) (g : Nat) : h.Closes (h.runsClose g) :=
  .trans (.of_still (Hub.foldl_still (fun _ _ => by simp) _ h)) (.foldl (fun k _ => k.runClose_closes g) _ _)
theorem Hub.chgFinish_closes (h : Hub) (g : Nat) : h.Closes (h.chgFinish g) := by
  refine .foldl (fun k p => ?_) _ h
  split
  · exact k.runClose_closes g
  · exact .of_still rfl

/-- From `h` to `g` only flags of channel groups moved, those of the 64 groups as given. -/
def Hub.RunsTo (h g : Hub) (F : Nat → RunFlags) : Prop := g.still = { h.still with run := g.still.run } ∧ ∀ k < 64, g.still.run k = F k

theorem Hub.RunsTo.trans {h g t : Hub} {F G : Nat → RunFlags} (hg : h.RunsTo g F) (gt : g.RunsTo t G) : h.RunsTo t G :=
  ⟨gt.1.trans (congrArg ({ · with run := t.still.run }) hg.1), gt.2⟩
theorem Hub.RunsTo.mono {h g : Hub} {F G : Nat → RunFlags} (hg : h.RunsTo g F) (e : ∀ k < 64, F k = G k) : h.RunsTo g G :=
  ⟨hg.1, fun k hk => (hg.2 k hk).trans (e k hk)⟩
theorem Hub.RunsTo.still {h g t : Hub} {F : Nat → RunFlags} (hg : h.RunsTo g F) (e : t.still = g.still) : h.RunsTo t F := by
  rw [Hub.RunsTo, e]
  exact hg
/-- Runs that close move nothing while no stop is asked for. -/
theorem Hub.Closes.runsTo {h g : Hub} (hg : h.Closes g) (hs : ∀ k < 64, (h.still.run k).stopReq = false) : h.RunsTo g h.still.run :=
  ⟨hg.1, fun k hk => (hg.2 k).eq (hs k hk)⟩

/-- The flags once a stop that is asked for has taken effect. -/
def RunFlags.stopped (r : RunFlags) : RunFlags := if r.stopReq then { r with acquiring := false, stopReq := false } else r
/-- The flags once a start that is asked for has taken effect. -/
def RunFlags.begun (r : RunFlags) : RunFlags := if r.startReq then { r with acquiring := true, startReq := false } else r

theorem Hub.chgStop_still (h : Hub) (g : Nat) (hr : (h.still.run g).stopReq = true) : (h.chgStop g).still =
    { h.still with run := Function.update h.still.run g (h.still.run g).stopped } := by
  have flags : (h.still.run g).stopped = ⟨false, (h.tachDrain.chg g).startReq, false⟩ := by
    have start : (h.tachDrain.chg g).startReq = (h.still.run g).startReq := congrArg (·.run g |>.startReq) h.tachDrain_still
    rw [RunFlags.stopped, if_pos hr, start]
  unfold Hub.chgStop
  dsimp only
  split
  · rw [Hub.segsStopped_still, Hub.setChg_write, Hub.tachDrain_still, flags]
    rfl
  · next ha =>
    have idle : ({ h.tachDrain.chg g with stopReq := false } : ChgSt).run = ⟨false, (h.tachDrain.chg g).startReq, false⟩ :=
      RunFlags.ext (Bool.eq_false_of_not_eq_true ha) rfl rfl
    rw [Hub.setChg_write, Hub.tachDrain_still, flags, ← idle]
theorem Hub.chgStops_still (l : List Nat) (h : Hub) :
    (l.foldl (fun h g => if (h.chg g).stopReq then h.chgStop g else h) h).still =
      { h.still with run := fun k => if k ∈ l then (h.still.run k).stopped else h.still.run k } := by
  induction l generalizing h with
  | nil => simp
  | cons g l ih =>
    have step : (if (h.chg g).stopReq then h.chgStop g else h).still =
        { h.still with run := Function.update h.still.run g (h.still.run g).stopped } := by
      split
      · next hr => exact h.chgStop_still g hr
      · next hr =>
        have idle : (h.still.run g).stopped = h.still.run g := if_neg hr
        rw [idle]
        exact congrArg ({ h.still with run := · }) (Function.update_eq_self g h.still.run).symm
    rw [List.foldl_cons, ih, step]
    refine congrArg ({ h.still with run := · }) (funext fun k => ?_)
    by_cases hk : k = g
    · by_cases hs : (h.still.run g).stopReq <;> simp [hk, RunFlags.stopped, hs]
    · simp [hk]

theorem Hub.RunsTo.setChg {h g : Hub} {F : Nat → RunFlags} (hg : h.RunsTo g F) (c : Nat) (x : ChgSt) :
    h.RunsTo (g.setChg c x) (Function.update F c x.run) := by
  refine ⟨?_, fun k hk => ?_⟩
  · rw [g.setChg_write]
    exact congrArg ({ · with run := Function.update g.still.run c x.run }) hg.1
  · rw [g.setChg_write]
    by_cases hc : k = c
    · simp [hc]
    · simpa [hc] using hg.2 k hk

/-- The flags once CHG_RUN has taken effect. -/
theorem Hub.chgStart_runsTo (h : Hub) (g : Nat) (hs : ∀ k < 64, (h.still.run k).stopReq = false) (hg : g < 64)
    (hr : (h.still.run g).startReq = true) : h.RunsTo (h.chgStart g) (Function.update h.still.run g (h.still.run g).begun) := by
  have flags : (h.still.run g).begun = ⟨true, false, false⟩ := by
    rw [RunFlags.begun, if_pos hr, hs g hg]
  unfold Hub.chgStart
  dsimp only
  split
  · next ha =>
    have on : ({ h.chg g with startReq := false } : ChgSt).run = ⟨true, false, false⟩ := RunFlags.ext ha rfl (hs g hg)
    rw [flags, ← on]
    exact (Hub.RunsTo.mono (F := h.still.run) ⟨rfl, fun _ _ => rfl⟩ fun _ _ => rfl).setChg g _
  · have closed : h.RunsTo ((List.range 64).foldl (fun (k : Hub) q =>
        if (k.chg q).kept.any fun r => q == g || r.chans.any fun c => (h.cfg.jrn.groups.get g).chans.contains c then k.runsClose q else k)
        h.tachDrain) h.still.run := by
      refine Hub.Closes.runsTo (.trans (.of_still h.tachDrain_still) (.foldl (fun k q => ?_) _ _)) hs
      split
      · exact k.runsClose_closes q
      · exact .of_still rfl
    generalize (List.range 64).foldl _ h.tachDrain = k at closed ⊢
    have idle : ∀ c : Prop, [Decidable c] → (if c then default else k.chg g : ChgSt).stopReq = false := by
      intro c _
      split
      · rfl
      · exact (congrArg (·.stopReq) (closed.2 g hg)).trans (hs g hg)
    rw [flags]
    refine (closed.setChg g _).still (((Hub.landDescs_still ..).trans ((Hub.foldl_still (fun _ _ => by simp) _ _).trans
      (Hub.foldl_still (fun _ _ => by simp) _ _)))) |>.mono fun i _ => ?_
    exact congrArg (Function.update h.still.run g · i) (RunFlags.ext rfl rfl (idle _))
theorem RunFlags.begun_stopReq (r : RunFlags) : r.begun.stopReq = r.stopReq := by
  unfold RunFlags.begun
  split <;> rfl
theorem Hub.chgStarts_runsTo {l : List Nat} (hl : ∀ g ∈ l, g < 64) {h : Hub} (hs : ∀ k < 64, (h.still.run k).stopReq = false) :
    h.RunsTo (l.foldl (fun h g => if (h.chg g).startReq then h.chgStart g else h) h)
      fun k => if k ∈ l then (h.still.run k).begun else h.still.run k := by
  induction l generalizing h with
  | nil => exact ⟨rfl, fun _ _ => by simp⟩
  | cons g l ih =>
    have step : h.RunsTo (if (h.chg g).startReq then h.chgStart g else h) (Function.update h.still.run g (h.still.run g).begun) := by
      split
      · next hr => exact h.chgStart_runsTo g hs (hl g (by simp)) hr
      · next hr =>
        have idle : (h.still.run g).begun = h.still.run g := if_neg hr
        rw [idle, Function.update_eq_self]
        exact ⟨rfl, fun _ _ => rfl⟩
    rw [List.foldl_cons]
    generalize (if (h.chg g).startReq then h.chgStart g else h) = k at step ⊢
    have hs' : ∀ i < 64, (k.still.run i).stopReq = false := fun i hi => by
      rw [step.2 i hi]
      by_cases hc : i = g
      · simpa [hc, RunFlags.begun_stopReq] using hs g (hl g (by simp))
      · simpa [hc] using hs i hi
    refine step.trans ((ih (fun i hi => hl i (by simp [hi])) hs').mono fun i hi => ?_)
    rw [step.2 i hi]
    by_cases hc : i = g
    · by_cases hr : (h.still.run g).startReq <;> simp [hc, RunFlags.begun, hr]
    · simp [hc]

theorem RunFlags.stopped_stopReq (r : RunFlags) : r.stopped.stopReq = false := by
  unfold RunFlags.stopped
  split
  · rfl
  · next hr => exact Bool.eq_false_of_not_eq_true hr
/-- Flags that ask for nothing stay. -/
theorem RunFlags.stopped_begun_of_idle {r : RunFlags} (hr : ¬(r.startReq || r.stopReq) = true) : r.stopped.begun = r := by
  obtain ⟨hstart, hstop⟩ : r.startReq = false ∧ r.stopReq = false := by simpa using hr
  have stays : r.stopped = r := if_neg (by simp [hstop])
  rw [stays]
  exact if_neg (by simp [hstart])
theorem RunFlags.Settles.taken {r s : RunFlags} (rs : r.Settles s) :
    s.stopped.begun = ⟨r.startReq || r.acquiring && !r.stopReq, false, false⟩ := by
  obtain ⟨ha, hb, hc⟩ := rs
  have acq : (s.acquiring && !s.stopReq) = (r.acquiring && !r.stopReq) := by
    rcases hc with e | ⟨e, -⟩
    · rw [ha, e]
    · rw [ha, e, Bool.false_and, Bool.false_and]
  rw [← acq, ← hb]
  obtain ⟨a, b, c⟩ := s
  cases b <;> cases c <;> simp [RunFlags.stopped, RunFlags.begun]

/-- CHG_RUN takes effect, a stop before a start. -/
theorem Hub.chgStrobe_runsTo (h : Hub) : h.RunsTo h.chgStrobe fun k =>
    ⟨(h.still.run k).startReq || (h.still.run k).acquiring && !(h.still.run k).stopReq, false, false⟩ := by
  have old : h.Closes ((List.range 64).foldl (fun h g => h.chgFinish g) h) := .foldl (fun k g => k.chgFinish_closes g) _ h
  unfold Hub.chgStrobe
  dsimp only
  generalize (List.range 64).foldl (fun h g => h.chgFinish g) h = k at old ⊢
  refine Hub.RunsTo.mono (F := fun i => (k.still.run i).stopped.begun) (.trans (F := k.still.run) ⟨old.1, fun _ _ => rfl⟩ ?_)
    fun i _ => (old.2 i).taken
  split
  · next hn =>
    have idle : ∀ i < 64, ¬((k.still.run i).startReq || (k.still.run i).stopReq) = true := fun i hi =>
      List.any_eq_false.mp ((Bool.not_eq_true' _).mp hn) i (List.mem_range.mpr hi)
    exact ⟨rfl, fun i hi => (RunFlags.stopped_begun_of_idle (idle i hi)).symm⟩
  · have stops := Hub.chgStops_still (List.range 64) k
    generalize (List.range 64).foldl (fun h g => if (h.chg g).stopReq then h.chgStop g else h) k = m at stops ⊢
    have stopped : k.RunsTo m fun i => (k.still.run i).stopped :=
      ⟨by rw [stops], fun i hi => by rw [stops]; exact if_pos (List.mem_range.mpr hi)⟩
    have hm : ∀ i < 64, (m.still.run i).stopReq = false := fun i hi => by rw [stopped.2 i hi, RunFlags.stopped_stopReq]
    have starts := Hub.chgStarts_runsTo (l := List.range 64) (by simp) hm
    generalize (List.range 64).foldl (fun h g => if (h.chg g).startReq then h.chgStart g else h) m = n at starts ⊢
    have started : k.RunsTo n fun i => (k.still.run i).stopped.begun := stopped.trans <| starts.mono fun i hi => by
      rw [if_pos (List.mem_range.mpr hi), stopped.2 i hi]
    have hn : ∀ i < 64, (n.still.run i).stopReq = false := fun i hi => by
      rw [started.2 i hi, RunFlags.begun_stopReq, RunFlags.stopped_stopReq]
    have last : n.Closes ((List.range 64).foldl (fun h g => h.chgFinish g) n) := .foldl (fun k g => k.chgFinish_closes g) _ n
    exact started.trans ((last.runsTo hn).mono started.2) |>.still (Hub.saveState_still _ _)

end Sys2Proof.Machine

/-! PROOFS. The work of a frame strobe as a whole. -/
namespace Sys2Proof.Machine

/-! ### Trigger units once armed stay armed through the strobe (R196) -/

theorem Hub.foldl_units {α : Type} {f : Hub → α → Hub} (hf : ∀ (g : Hub) a, (f g a).trg.units = g.trg.units) (l : List α) (h : Hub) :
    (l.foldl f h).trg.units = h.trg.units := by
  induction l generalizing h with
  | nil => rfl
  | cons a l ih => exact (ih _).trans (hf h a)
theorem Hub.Lands.units {h g : Hub} (hg : h.Lands g) : g.trg.units = h.trg.units := by
  have o := (Hub.onlyIn_iff h g _).mp hg.only
  simp at o
  simp [o]
theorem Hub.ite_units (c : Prop) [Decidable c] (a b : Hub) :
    (if c then a else b).trg.units = if c then a.trg.units else b.trg.units := apply_ite (fun k : Hub => k.trg.units) c a b
@[simp] theorem Hub.setCg_units (h : Hub) (g : Nat) (x : CapGroup) : (h.setCg g x).trg.units = h.trg.units := rfl
@[simp] theorem Hub.send_units (h : Hub) (x : Tx) : (h.send x).trg.units = h.trg.units := rfl
@[simp] theorem Hub.raise_units (h : Hub) (ev : Nat) (data : List Byte) : (h.raise ev data).trg.units = h.trg.units :=
  (h.raise_lands ev data).units
@[simp] theorem Hub.segsDead_units (h : Hub) (g : Nat) : (h.segsDead g).trg.units = h.trg.units := by
  unfold Hub.segsDead
  dsimp only
  split
  · rfl
  · exact Hub.foldl_units (fun _ _ => by simp) _ _
@[simp] theorem Hub.segAtStrobe_units (h : Hub) (g : Nat) (forced : Bool) : (h.segAtStrobe g forced).trg.units = h.trg.units := by
  unfold Hub.segAtStrobe Hub.segOpen
  dsimp only
  split
  · simp [Hub.ite_units]
  · simp [Hub.ite_units]
@[simp] theorem Hub.segStrobe_units (h : Hub) : h.segStrobe.trg.units = h.trg.units := by
  unfold Hub.segStrobe
  refine Hub.foldl_units (fun g k => ?_) _ h
  simp only [Hub.ite_units, Hub.segAtStrobe_units, Hub.setCg_units, ite_self]
theorem Hub.calLand_units (h : Hub) (ch : Nat) (r : CalRec) : (h.calLand ch r).trg.units = h.trg.units := by
  unfold Hub.calLand Hub.landHealth
  exact (Hub.land_lands ..).units
@[simp] theorem Hub.scanStrobe_units (h : Hub) : h.scanStrobe.trg.units = h.trg.units := by
  have landed : ∀ (m : Nat) (recs : List CalRec) (k : Hub), (k.scanLand m recs).trg.units = k.trg.units := by
    intro m recs k
    unfold Hub.scanLand
    exact Hub.foldl_units (fun g r => g.calLand_units _ _) _ k
  unfold Hub.scanStrobe
  refine Hub.foldl_units (fun g m => ?_) _ h
  dsimp only
  split
  · unfold Hub.scanPeriod
    dsimp only
    split
    · split <;> rfl
    · exact Hub.foldl_units (fun _ _ => landed ..) _ _
  · rfl
@[simp] theorem Hub.descStrobe_units (h : Hub) : h.descStrobe.trg.units = h.trg.units := by
  unfold Hub.descStrobe
  refine Hub.foldl_units (fun g r => ?_) _ _
  unfold Hub.landDescPar
  exact (Hub.land_lands ..).units
@[simp] theorem Hub.cascAligns_units (h : Hub) : h.cascAligns.trg.units = h.trg.units := by
  unfold Hub.cascAligns
  refine Hub.foldl_units (fun g p => ?_) _ h
  dsimp only
  split <;> rfl
@[simp] theorem Hub.cascMarks_units (h : Hub) (idx : Nat) : (h.cascMarks idx).trg.units = h.trg.units := by
  unfold Hub.cascMarks
  dsimp only
  split
  · rfl
  · exact Hub.foldl_units (fun g p => by simp [Hub.cascSend]) _ _

theorem Hub.unitArm_armed (h : Hub) (u v : Nat) : ((h.unitArm u).unit v).armed = (decide (v = u) || (h.unit v).armed) := by
  unfold Hub.unitArm
  dsimp only
  split
  · next ha => by_cases hv : v = u <;> simp [hv, ha]
  · by_cases hv : v = u <;> simp [Hub.unit, Hub.setUnit, hv]
theorem Hub.unitArms_armed (l : List Nat) (h : Hub) (v : Nat) :
    ((l.foldl (fun h u => h.unitArm u) h).unit v).armed = (decide (v ∈ l) || (h.unit v).armed) := by
  induction l generalizing h with
  | nil => simp
  | cons u l ih => 
    rw [List.foldl_cons, ih, Hub.unitArm_armed]
    by_cases hv : v = u <;> simp [hv]
theorem Hub.armApply_armed (h : Hub) (r : ArmReq) (hr : h.trg.arm = [r]) (u : Nat) (hu : u ∈ bitsOf r.armU 64) :
    (h.armApply.unit u).armed = true := by
  unfold Hub.armApply
  rw [hr, List.foldl_cons, List.foldl_nil, Hub.unitArms_armed, decide_eq_true hu, Bool.true_or]

/-! ### The strobe as a whole -/

section
variable {h : Hub} {s : Still} (e : h.still = s)
include e
theorem Hub.cfg_of_still : h.cfg = s.cfg := e ▸ rfl
theorem Hub.clk_of_still : h.clk = s.clk := e ▸ rfl
theorem Hub.net_of_still : h.net = s.net := e ▸ rfl
theorem Hub.tb_of_still : h.tb = s.tb := e ▸ rfl
theorem Hub.fast_of_still : h.fe.fast = s.fast := e ▸ rfl
theorem Hub.blockReset_of_still : h.sys.blockReset = s.blockReset := e ▸ rfl
theorem Hub.sync_of_still : h.flt.sync = s.sync := e ▸ rfl
theorem Hub.arm_of_still : h.trg.arm = s.arm := e ▸ rfl
theorem Hub.descReq_of_still : h.jrn.descReq = s.descReq := e ▸ rfl
end

/-- What a frame strobe at which the timebase reads `b` makes of `h`. -/
structure Hub.Struck (h : Hub) (b : TbSt) (g : Hub) : Prop where
  cfg : g.cfg = h.cfg
  clk : g.clk = h.clk
  net : g.net = h.net
  tb : g.tb = { b with strobeXo := b.xo, afterHold := false, loaded := false, dead := false, strobes := b.strobes + 1 }
  fast : g.fe.fast = h.cfg.fe.fast
  sync : g.flt.sync = []
  arm : g.trg.arm = []
  descReq : g.jrn.descReq = []
  blockReset : ∀ r, h.sys.blockReset = some r → r.began = none → g.sys.blockReset = some { r with began := some (b.strobes + 1) }
  run : ∀ k < 64, (g.chg k).run = ⟨(h.chg k).startReq || (h.chg k).acquiring && !(h.chg k).stopReq, false, false⟩
  parReq : ∀ ch ∈ h.cfg.flt.chans.keys, (h.chanCfg ch).isSome → (g.chain ch).parReq = none
  swap : ∀ p < 32, (g.flt.swap.get p).begun = (h.flt.swap.get p).begun.map fun _ => true
  armed : ∀ r, h.trg.arm = [r] → ∀ u ∈ bitsOf r.armU 64, (g.unit u).armed = true

/-- The strobe's own count and the front end's settings (R68). -/
def Hub.strobeBegin (h : Hub) : Hub :=
  { h with tb := { h.tb with strobeXo := h.tb.xo, afterHold := false, loaded := false, dead := false, strobes := h.tb.strobes + 1 }
           fe := { h.fe with fast := h.cfg.fe.fast } }
/-- The strobe's work, up to what is asked for of the channel groups. -/
def Hub.strobeChains (h : Hub) : Hub := h.strobeBegin.frameChop.excStrobe.swapStrobe.parStrobe.chainStrobe
/-- The strobe's work, from the channel groups up to the capture groups. -/
def Hub.strobeRuns (h : Hub) : Hub := h.chgStrobe.syncStrobe.blockStrobe.segDue.armApply
/-- The rest of the strobe's work. -/
def Hub.strobeRest (h : Hub) (idx : Nat) : Hub := h.segStrobe.scanStrobe.descStrobe.cascAligns.cascMarks idx
theorem Hub.strobeBody_eq (h : Hub) : ∃ idx, h.strobeBody = h.strobeChains.strobeRuns.strobeRest idx := ⟨_, rfl⟩

theorem Hub.strobeBegin_still (h : Hub) : h.strobeBegin.still = { h.still with
    tb := { h.tb with strobeXo := h.tb.xo, afterHold := false, loaded := false, dead := false, strobes := h.tb.strobes + 1 }
    fast := h.cfg.fe.fast } := rfl
theorem Hub.strobeChains_still (h : Hub) : h.strobeChains.still = { h.strobeBegin.still with
    swap := fun p => if p < 32 then (h.still.swap p).map fun _ => true else h.still.swap p
    parReq := fun ch => if ch ∈ h.cfg.flt.chans.keys ∧ (h.chanCfg ch).isSome then none else h.still.parReq ch } := by
  have swaps : h.strobeBegin.frameChop.excStrobe.swapStrobe.still = { h.strobeBegin.still with
      swap := fun p => if p < 32 then (h.still.swap p).map fun _ => true else h.still.swap p } := by
    rw [Hub.swapStrobe_still, Hub.excStrobe_still, Hub.frameChop_still]
    rfl
  have cfg : h.strobeBegin.frameChop.excStrobe.swapStrobe.cfg = h.cfg := Hub.cfg_of_still swaps
  unfold Hub.strobeChains
  rw [Hub.chainStrobe_still, Hub.parStrobe_still, swaps]
  simp only [cfg, Hub.chanCfg]
  rfl
theorem Hub.strobeRuns_still (h : Hub) : ∃ r, h.strobeRuns.still =
      { h.still with run := h.chgStrobe.still.run, sync := [], blockReset := r, arm := [] } ∧
    (∀ b, h.sys.blockReset = some b → b.began = none → r = some { b with began := some h.tb.strobes }) := by
  obtain ⟨chg, -⟩ := h.chgStrobe_runsTo
  have sync : h.chgStrobe.syncStrobe.still = { h.still with run := h.chgStrobe.still.run, sync := [] } :=
    h.chgStrobe.syncStrobe_still.trans (congrArg ({ · with sync := [] }) chg)
  obtain ⟨r, block, hr⟩ := h.chgStrobe.syncStrobe.blockStrobe_still
  have waits : h.chgStrobe.syncStrobe.sys.blockReset = h.sys.blockReset := Hub.blockReset_of_still sync
  have tb : h.chgStrobe.syncStrobe.tb = h.tb := Hub.tb_of_still sync
  refine ⟨r, ?_, fun b hb hn => tb ▸ hr b (waits.trans hb) hn⟩
  unfold Hub.strobeRuns
  rw [Hub.armApply_still, Hub.segDue_still, block, sync]
theorem Hub.strobeRest_still (h : Hub) (idx : Nat) : (h.strobeRest idx).still = { h.still with descReq := [] } := by
  unfold Hub.strobeRest
  rw [Hub.cascMarks_still, Hub.cascAligns_still, Hub.descStrobe_still, Hub.scanStrobe_still, Hub.segStrobe_still]
theorem Hub.strobeRest_units (h : Hub) (idx : Nat) : (h.strobeRest idx).trg.units = h.trg.units := by
  unfold Hub.strobeRest
  rw [Hub.cascMarks_units, Hub.cascAligns_units, Hub.descStrobe_units, Hub.scanStrobe_units, Hub.segStrobe_units]
theorem Hub.strobeRuns_armed (h : Hub) (r : ArmReq) (hr : h.trg.arm = [r]) (u : Nat) (hu : u ∈ bitsOf r.armU 64) :
    (h.strobeRuns.unit u).armed = true := by
  have arm : h.chgStrobe.syncStrobe.blockStrobe.segDue.trg.arm = h.trg.arm := by
    obtain ⟨_, block, -⟩ := h.chgStrobe.syncStrobe.blockStrobe_still
    refine (Hub.arm_of_still ((Hub.segDue_still _).trans block)).trans ?_
    rw [Hub.syncStrobe_still, h.chgStrobe_runsTo.1]
    rfl
  exact Hub.armApply_armed _ r (arm.trans hr) u hu

theorem Hub.strobeBody_struck (h : Hub) : h.Struck h.tb h.strobeBody := by
  obtain ⟨idx, body⟩ := h.strobeBody_eq
  obtain ⟨r, runs, hr⟩ := h.strobeChains.strobeRuns_still
  have all : h.strobeBody.still = { h.strobeChains.still with
      run := h.strobeChains.chgStrobe.still.run, sync := [], blockReset := r, arm := [], descReq := [] } := by
    rw [body, Hub.strobeRest_still, runs]
  have chains := h.strobeChains_still
  rw [chains, Hub.strobeBegin_still] at all
  have waits : h.strobeChains.sys.blockReset = h.sys.blockReset := Hub.blockReset_of_still chains
  have strobes : h.strobeChains.tb.strobes = h.tb.strobes + 1 := congrArg (·.strobes) (Hub.tb_of_still chains)
  have flags : h.strobeChains.still.run = h.still.run := by rw [chains, Hub.strobeBegin_still]
  have arms : h.strobeChains.trg.arm = h.trg.arm := Hub.arm_of_still chains
  exact {
    cfg := Hub.cfg_of_still all
    clk := Hub.clk_of_still all
    net := Hub.net_of_still all
    tb := Hub.tb_of_still all
    fast := Hub.fast_of_still all
    sync := Hub.sync_of_still all
    arm := Hub.arm_of_still all
    descReq := Hub.descReq_of_still all
    blockReset := fun b hb hn => (Hub.blockReset_of_still all).trans (strobes ▸ hr b (waits.trans hb) hn)
    run := fun k hk => by
      rw [Hub.chg_run, all]
      exact (h.strobeChains.chgStrobe_runsTo.2 k hk).trans (by rw [flags]; rfl)
    parReq := fun ch hc hs => by
      rw [Hub.chain_parReq, all]
      exact if_pos ⟨hc, hs⟩
    swap := fun p hp => by
      rw [Hub.swap_begun, all]
      exact if_pos hp
    armed := fun a ha u hu => by
      rw [body]
      refine (congrArg (fun t => (t.get u).armed) (Hub.strobeRest_units _ idx)).trans ?_
      exact Hub.strobeRuns_armed _ a (arms.trans ha) u hu }

/-- Time that passes before the strobe changes nothing else of it. -/
theorem Hub.Struck.of_still {h k g : Hub} {b : TbSt} (e : k.still = { h.still with tb := b }) (hg : k.Struck b g) : h.Struck b g := by
  have cfg : k.cfg = h.cfg := Hub.cfg_of_still e
  have flags : k.still.run = h.still.run := by rw [e]
  have swaps : k.still.swap = h.still.swap := by rw [e]
  have waits : k.sys.blockReset = h.sys.blockReset := Hub.blockReset_of_still e
  have arms : k.trg.arm = h.trg.arm := Hub.arm_of_still e
  exact {
    cfg := hg.cfg.trans cfg
    clk := hg.clk.trans (Hub.clk_of_still e)
    net := hg.net.trans (Hub.net_of_still e)
    tb := hg.tb
    fast := hg.fast.trans (congrArg (·.fe.fast) cfg)
    sync := hg.sync
    arm := hg.arm
    descReq := hg.descReq
    blockReset := fun r hr => hg.blockReset r (waits.trans hr)
    run := fun i hi => (hg.run i hi).trans (congrArg
      (fun F : Nat → RunFlags => RunFlags.mk ((F i).startReq || (F i).acquiring && !(F i).stopReq) false false) flags)
    parReq := fun ch hc hs => hg.parReq ch (cfg ▸ hc) ((congrArg (·.flt.chans.get ch |>.isSome) cfg).trans hs)
    swap := fun p hp => (hg.swap p hp).trans (congrArg (fun F : Nat → Option Bool => (F p).map fun _ => true) swaps)
    armed := fun a ha => hg.armed a (arms.trans ha) }

end Sys2Proof.Machine

/-! PROOFS. Frame strobes and what waits for one (O45). -/
namespace Sys2Proof.Machine

/-! ### Time passes up to the strobe (R221) -/

/-- The timebase runs and no epoch is about to end. -/
structure Hub.Ticks (h : Hub) : Prop where
  held : h.clk.held = false
  started : h.tb.started = true
  pendSet : h.tb.pendSet = none
  pendBreak : h.tb.pendBreak = []
  dead : h.tb.dead = false

/-- `t` reaches its next strobe at `b`. -/
structure TbSt.Reaches (t b : TbSt) : Prop where
  strobes : b.strobes = t.strobes
  epoch : b.epoch = t.epoch
  total : b.total = (t.total + t.toStrobe) % (2 ^ 32 * 122880000)
  cnt : b.cnt % 15360 = 0
  xo : b.xo = t.xo + t.toStrobe * xoPerTime t.y

theorem TbSt.toStrobe_le (t : TbSt) : t.toStrobe ≤ 15360 := by
  unfold TbSt.toStrobe
  split <;> omega
theorem TbSt.toStrobe_pos (t : TbSt) (ht : t.loaded = false) : 0 < t.toStrobe := by
  simp only [TbSt.toStrobe, ht, Bool.false_and, Bool.false_eq_true, if_false]
  omega
theorem TbSt.total_toStrobe (t : TbSt) : (t.total + t.toStrobe) % 15360 = 0 := by
  unfold TbSt.total TbSt.toStrobe
  split
  · next hc =>
    have : t.cnt % 15360 = 0 := by simpa using (Bool.and_eq_true_iff.mp hc).2
    omega
  · omega
theorem seconds_cycles (m : Nat) : m / 122880000 % 2 ^ 32 * 122880000 + m % 122880000 = m % (2 ^ 32 * 122880000) := by
  rw [Nat.mul_comm (2 ^ 32), Nat.mod_mul, Nat.mul_comm, Nat.add_comm]

theorem Hub.cmpEvaluated_tb (h : Hub) : ∃ c p, h.cmpEvaluated = { h with tb := { h.tb with cmp := c, ppsLast := p } } := by
  have pps : ∃ p, h.ppsEvaluated = { h with tb := { h.tb with ppsLast := p } } := by
    unfold Hub.ppsEvaluated
    dsimp only
    split
    · split
      · exact ⟨_, rfl⟩
      · exact ⟨h.tb.ppsLast, rfl⟩
    · exact ⟨h.tb.ppsLast, rfl⟩
  obtain ⟨p, e⟩ := pps
  unfold Hub.cmpEvaluated
  rw [e]
  exact ⟨_, p, rfl⟩

/-- `t` reads `b` after `n` TIME cycles. -/
def TbSt.Passes (t b : TbSt) (n : Nat) : Prop := ∃ sec cnt xo cycles net loaded cmp pps,
  b = { t with sec := sec, cnt := cnt, xo := xo, cycles := cycles, net := net, loaded := loaded, cmp := cmp, ppsLast := pps } ∧
  sec = (t.total + n) / 122880000 % 2 ^ 32 ∧ cnt = (t.total + n) % 122880000 ∧ xo = t.xo + n * xoPerTime t.y

theorem TbSt.total_cmp (t : TbSt) (c : Tab Cmp) (p : Option T64) : ({ t with cmp := c, ppsLast := p } : TbSt).total = t.total := rfl
theorem TbSt.load_eq (t : TbSt) {n sec cnt : Nat} (hsec : sec = n / 122880000 % 2 ^ 32) (hcnt : cnt = n % 122880000) :
    t.load n = { t with sec := sec, cnt := cnt } := by rw [hsec, hcnt, TbSt.load]
theorem Hub.passTime_passes (h : Hub) (n : Nat) (hh : h.clk.held = false) :
    ∃ b, h.tb.Passes b n ∧ h.passTime n = { h with tb := b } := by
  obtain ⟨c, p, e⟩ := h.cmpEvaluated_tb
  obtain ⟨sec, hsec⟩ : ∃ s, s = (h.tb.total + n) / 122880000 % 2 ^ 32 := ⟨_, rfl⟩
  obtain ⟨cnt, hcnt⟩ : ∃ s, s = (h.tb.total + n) % 122880000 := ⟨_, rfl⟩
  refine ⟨_, ⟨sec, cnt, _, h.tb.cycles + n, (h.tb.net + n * h.tb.netInc) % 2 ^ 96, h.tb.loaded && n == 0, c, p, rfl, hsec, hcnt, rfl⟩, ?_⟩
  unfold Hub.passTime
  rw [e]
  dsimp only
  rw [hh, TbSt.total_cmp, TbSt.load_eq _ hsec hcnt]
  rfl
theorem TbSt.Passes.reaches {t b : TbSt} (hb : t.Passes b t.toStrobe) : t.Reaches b := by
  obtain ⟨sec, cnt, xo, _, _, _, _, _, rfl, hsec, hcnt, hxo⟩ := hb
  have ht := t.total_toStrobe
  refine ⟨rfl, rfl, ?_, ?_, hxo⟩
  · rw [← seconds_cycles, ← hsec, ← hcnt]
    rfl
  · show cnt % 15360 = 0
    omega
theorem TbSt.Passes.waits {t b : TbSt} {n : Nat} (hb : t.Passes b n) :
    b.pendSet = t.pendSet ∧ b.pendBreak = t.pendBreak ∧ b.dead = t.dead := by
  obtain ⟨_, _, _, _, _, _, _, _, rfl, -⟩ := hb
  exact ⟨rfl, rfl, rfl⟩

/-- With no change of epoch ahead, time passes and the lanes and all else take the strobe. -/
theorem Hub.strobeOrTurn_of_ticks {h k : Hub} (hh : h.Ticks) (hk : h.passTime h.tb.toStrobe = k) (hset : k.tb.pendSet = none)
    (hbreak : k.tb.pendBreak = []) (hdead : k.tb.dead = false) (hcnt : k.tb.cnt % 15360 = 0) : h.strobeOrTurn =
      (k.slStrobe k.strobeStep k.tb.total k.tb.epoch (k.tb.total / 15360) k.tb.afterHold false (some k.tb.total)).strobeBody := by
  unfold Hub.strobeOrTurn
  rw [hh.held, hh.started, hk]
  dsimp only
  rw [hset, hbreak, hdead]
  simp only [Bool.not_true, Bool.or_false, Bool.false_eq_true, if_false]
  rw [if_pos]
  rw [Hub.tb_of_still (Hub.slStrobe_still ..)]
  exact hcnt
theorem Hub.strobeOrTurn_struck {h : Hub} (hh : h.Ticks) : ∃ b, h.tb.Reaches b ∧ h.Struck b h.strobeOrTurn := by
  obtain ⟨b, hb, pass⟩ := h.passTime_passes h.tb.toStrobe hh.held
  obtain ⟨hset, hbreak, hdead⟩ := hb.waits
  refine ⟨b, hb.reaches, ?_⟩
  rw [Hub.strobeOrTurn_of_ticks hh pass (hset.trans hh.pendSet) (hbreak.trans hh.pendBreak) (hdead.trans hh.dead) hb.reaches.cnt]
  have still := Hub.slStrobe_still { h with tb := b } (Hub.strobeStep { h with tb := b }) b.total b.epoch (b.total / 15360) b.afterHold false
    (some b.total)
  generalize Hub.slStrobe { h with tb := b } _ _ _ _ _ _ _ = k at still ⊢
  have tb : k.tb = b := Hub.tb_of_still still
  exact .of_still still (tb ▸ k.strobeBody_struck)

theorem Hub.frameStrobe_struck {h : Hub} (hh : h.Ticks) : ∃ b, h.tb.Reaches b ∧ h.Struck b h.frameStrobe := by
  obtain ⟨b, reaches, struck⟩ := Hub.strobeOrTurn_struck hh
  have once : h.frameStrobe = h.strobeOrTurn := by
    have live : h.strobeOrTurn.tb.dead = false := by rw [struck.tb]
    unfold Hub.frameStrobe
    dsimp only
    rw [live]
    rfl
  exact ⟨b, reaches, once ▸ struck⟩

/-! ### The rows -/

theorem Hub.Struck.onlyIn {h g : Hub} {b : TbSt} (hg : h.Struck b g) :
    h.onlyIn [.sys, .host, .evt, .tb, .jrn, .sto, .act, .fe, .flt, .cal, .trg, .cod, .tiu, .sl, .casc, .tx, .free] g := by
  simp [Hub.onlyIn_iff, hg.cfg, hg.clk, hg.net]
theorem Hub.Struck.strobes {h g : Hub} {b : TbSt} (hg : h.Struck b g) (hb : h.tb.Reaches b) : g.tb.strobes = h.tb.strobes + 1 := by
  rw [hg.tb, ← hb.strobes]

/-- A row that finds something waiting brings the strobe. -/
theorem does_strobe {i : Instr} {s : State} {f : Hub → Hub} {P : Hub → Prop} (hi : exec i s = s.row f) (hp : s.hub.powered = true)
    (hs : s.hub.Ticks) (hf : f s.hub = s.hub.frameStrobe) (hP : ∀ b g, s.hub.tb.Reaches b → s.hub.Struck b g → P g) :
    Does i s [.sys, .host, .evt, .tb, .jrn, .sto, .act, .fe, .flt, .cal, .trg, .cod, .tiu, .sl, .casc, .tx, .free] P := by
  obtain ⟨b, reaches, struck⟩ := Hub.frameStrobe_struck hs
  exact does_row hi hp (hf ▸ struck.onlyIn) (hf ▸ hP b _ reaches struck)

theorem Hub.frameStrobe_idle {h : Hub} (hh : h.clk.held = true ∨ h.tb.started = false) : h.frameStrobe = h := by
  have stays : h.strobeOrTurn = h := by
    unfold Hub.strobeOrTurn
    rcases hh with e | e <;> simp [e]
  unfold Hub.frameStrobe
  rw [stays]
  dsimp only
  rw [stays, ite_self]
theorem Hub.strobeIf_true (h : Hub) {b : Bool} (hb : b = true) : h.strobeIf b = h.frameStrobe := by rw [hb]; rfl
theorem Hub.strobeIf_false (h : Hub) {b : Bool} (hb : b = false) : h.strobeIf b = h := by rw [hb]; rfl

/-- An entry that is not the default one is listed. -/
theorem Tab.mem_of_get_ne_default {α : Type} [Inhabited α] {t : Tab α} {i : Nat} (ht : t.get i ≠ default) : (i, t.get i) ∈ t := by
  induction t with
  | nil => exact absurd rfl ht
  | cons e t ih =>
    by_cases he : e.1 = i
    · have found : Tab.get (e :: t) i = e.2 := if_pos he
      rw [found, ← he]
      exact List.mem_cons_self
    · have later : Tab.get (e :: t) i = Tab.get t i := if_neg he
      rw [later] at ht ⊢
      exact List.mem_cons_of_mem e (ih ht)
/-- A bank swap that has not begun waits for the strobe. -/
theorem swap_waits {t : Tab Swap} {p : Nat} {c : SwapCur} (hc : (t.get p).cur = some c) (hs : c.started = false) :
    (t.any fun x => x.2.cur.any fun c => !c.started) = true := by
  have listed : (p, t.get p) ∈ t := Tab.mem_of_get_ne_default fun e => by
    rw [e] at hc
    exact absurd hc nofun
  exact List.any_eq_true.mpr ⟨_, listed, by simp [hc, hs]⟩
theorem Swap.all_started {x : Swap} (hx : x.begun = none ∨ x.begun = some true) : x.cur.all (·.started) = true := by
  rcases x with ⟨- | c, pend⟩
  · rfl
  · simpa [Swap.begun] using hx
theorem Hub.Struck.started {h g : Hub} {b : TbSt} (hg : h.Struck b g) {p : Nat} (hp : p < 32) :
    (g.flt.swap.get p).cur.all (·.started) = true := by
  refine Swap.all_started ?_
  rw [hg.swap p hp]
  cases (h.flt.swap.get p).begun
  · exact .inl rfl
  · exact .inr rfl

/-- Settles O45: with no change of epoch ahead time passes to the next multiple of 15,360, and there the strobe takes effect as a
whole (`Hub.Struck`); every row with something waiting brings that strobe, and is idle without. -/
theorem strobeRows : Obligations.StrobeRows := by
  unfold Obligations.StrobeRows
  refine ⟨?_, ?_, ?_, ?_, ?_, ?_, ?_, ?_, ?_, ?_, ?_, ?_, ?_, ?_, ?_, ?_, ?_, ?_⟩
  · intro s hp hh hst hset hbr hd _ _
    refine does_strobe rfl hp ⟨hh, hst, hset, hbr, hd⟩ rfl fun b g hb hg => ?_
    rw [hg.fast, hg.tb]
    exact ⟨congrArg (· + 1) hb.strobes, hb.cnt, hb.total, s.hub.tb.toStrobe_le, s.hub.tb.toStrobe_pos, hb.epoch, hb.xo, rfl⟩
  · intro s hp hh
    exact does_nothing rfl hp (Hub.frameStrobe_idle hh)
  · intro s hp hb
    exact does_nothing (f := epochBreak) rfl hp (by simp [epochBreak, hb])
  · intro s hp hb
    exact does_nothing rfl hp (s.hub.strobeIf_false (by rw [hb]; rfl))
  · intro s hp hh hst hset hbr hd _ _ hw
    exact does_strobe rfl hp ⟨hh, hst, hset, hbr, hd⟩ (s.hub.strobeIf_true (by simpa using hw)) fun b g hb hg => ⟨hg.sync, hg.strobes hb⟩
  · intro s hp hw
    exact does_nothing rfl hp (s.hub.strobeIf_false (by simpa using hw))
  · intro s hp hh hst hset hbr hd _ _ hw
    refine does_strobe rfl hp ⟨hh, hst, hset, hbr, hd⟩ (s.hub.strobeIf_true hw) fun b g hb hg =>
      ⟨fun k hk => ?_, fun k hk hr => ?_, fun k hk hr ht => ?_⟩
    · exact ⟨congrArg (·.startReq) (hg.run k hk), congrArg (·.stopReq) (hg.run k hk)⟩
    · refine (congrArg (·.acquiring) (hg.run k hk)).trans ?_
      simp [hr]
    · refine (congrArg (·.acquiring) (hg.run k hk)).trans ?_
      simp [hr, ht]
  · intro s hp hw
    exact does_nothing rfl hp (s.hub.strobeIf_false hw)
  · intro s r hp hh hst hset hbr hd _ _ hr
    exact does_strobe rfl hp ⟨hh, hst, hset, hbr, hd⟩ (s.hub.strobeIf_true (by rw [hr]; rfl)) fun b g hb hg => ⟨hg.arm, fun u _ => hg.armed r hr u⟩
  · intro s hp hw
    exact does_nothing rfl hp (s.hub.strobeIf_false (by simpa using hw))
  · intro s p c hp hh hst hset hbr hd _ _ hc hs _ hp32
    exact does_strobe rfl hp ⟨hh, hst, hset, hbr, hd⟩ (s.hub.strobeIf_true (swap_waits hc hs)) fun b g hb hg => ⟨hg.started hp32, hg.strobes hb⟩
  · intro s hp hw
    exact does_nothing rfl hp (s.hub.strobeIf_false hw)
  · intro s hp hh hst hset hbr hd _ _ hw
    exact does_strobe rfl hp ⟨hh, hst, hset, hbr, hd⟩ (s.hub.strobeIf_true hw) fun b g hb hg => hg.parReq
  · intro s hp hw
    exact does_nothing rfl hp (s.hub.strobeIf_false hw)
  · intro s hp hh hst hset hbr hd _ _ hw
    exact does_strobe rfl hp ⟨hh, hst, hset, hbr, hd⟩ (s.hub.strobeIf_true (by simpa using hw)) fun b g hb hg => ⟨hg.descReq, hg.strobes hb⟩
  · intro s hp hw
    exact does_nothing rfl hp (s.hub.strobeIf_false (by simpa using hw))
  · intro s r hp hh hst hset hbr hd _ _ hr hn
    exact does_strobe rfl hp ⟨hh, hst, hset, hbr, hd⟩ (s.hub.strobeIf_true (by rw [hr]; rfl)) fun b g hb hg => by
      rw [hg.blockReset r hr hn, hb.strobes]
  · intro s hp hw
    exact does_nothing rfl hp (s.hub.strobeIf_false (by rw [hw]; rfl))

end Sys2Proof.Machine

/-! PROOFS. LATE_WAIT of a stopped run (O56). -/
namespace Sys2Proof.Machine

/-- What a row of a powered hub does holds of what its operation gives. -/
theorem Does.of_row {i : Instr} {s : State} {f : Hub → Hub} {cs : List Chapter} {P : Hub → Prop} (hd : Does i s cs P)
    (hi : exec i s = s.row f) (hp : s.hub.powered = true) : P (f s.hub) := by
  obtain ⟨t, ht, -, -, hP⟩ := hd
  have row : s.row f = .next { s with hub := f s.hub } := by simp [State.row, State.powerRow, hp]
  obtain rfl := Host.Outcome.next.inj (ht.symm.trans (hi.trans row))
  exact hP

/-- Before the LATE_WAIT that the group lands with has passed, its oldest part boundary goes on waiting (R301, R311). -/
theorem lateWaitExpiry_of_not_passed {h : Hub} {g : Nat} {u : Nat × T64} {since : Nat} {r : List ((Nat × T64) × Nat)} (fails : List Nat)
    (hb : (h.chg g).bounds = (u, since) :: r) (hw : h.passed (some since) ((h.grp g).lateWait * 49152) = false) :
    lateWaitExpiry g fails h = h := by
  simp [lateWaitExpiry, hb, hw]

/-- The run of channel group 5 with LATE_WAIT 15 ms has stopped, and CHG_SET has set 3 ms since. A part boundary of that run passed 5 ms ago,
and its remote channel 130 still owes outputs. -/
def lateWaitReplaced : State where
  pending := []
  hub :=
    { sys := { power := .run }
      cfg :=
        { slots := [(2, { enable := true, rate := 8000 })]
          flt :=
            { profiles := [(6, some { full := false, other := true, mode := 0, n := 3, d := 1, l := 0, m := 1, xf := 1, fOut := 0 })]
              chans := [(130, some { profile := 6, linEn := false, linTable := 0, gain := 268435456, offset := 0, redN := 0,
                                     excSettle := 0, tiSel := 0, spr := 0, ppr := 0, tachMax := 0 })] }
          jrn := { groups := [(5, { lateWait := 3, chans := [130] })] } }
      tb := { started := true, sec := 2, xo := (98304000 + 5 * 49152) * 2 ^ 40 }
      flt := { ch := [(130, { running := true })] }
      jrn :=
        { total := 4096
          groups := [(5, { past := [((0, 0), (0, 0x100000000))], kept := some { lateWait := 15, chans := [130] },
                           bounds := [((0, 0), 98304000)] })] } }

/-- Refutes O56: the clause on LATE_WAIT_EXPIRY counts the wait that CHG_SET has configured, but a stopped run lands with the settings that
it had (R301), so that 5 ms after its boundary a run with LATE_WAIT 15 ms still waits though 3 ms are configured. -/
theorem not_landingRows : ¬ Obligations.LandingRows := by
  unfold Obligations.LandingRows
  rintro ⟨-, -, -, -, -, -, -, -, -, -, expiry, -⟩
  have absent : 130 ∈ ((lateWaitExpiry 5 [] lateWaitReplaced.hub).chg 5).absent :=
    (expiry lateWaitReplaced 5 [] (0, 0) 98304000 [] 130 (by decide) (by decide) (by decide) (by decide) (by decide) (by decide)
      (by decide)).of_row rfl (by decide)
  rw [lateWaitExpiry_of_not_passed [] (u := (0, 0)) (since := 98304000) (r := []) (by decide) (by decide)] at absent
  exact absurd absent (by decide)

end Sys2Proof.Machine

/-! PROOFS. Faults, scan visits and excitation outputs (O53). -/
namespace Sys2Proof.Machine

/-! ### Events and their counts (R499) -/

theorem Hub.raise_onlyIn (h : Hub) (ev : Nat) (data : List Byte) : h.onlyIn [.host, .evt, .tx] (h.raise ev data) := by
  simp [Hub.onlyIn_iff]

theorem Hub.raiseAt_count (h : Hub) (ev : Nat) (data : List Byte) (t : T64) (epoch : Nat) (isLocal : Bool) :
    (h.raiseAt ev data t epoch isLocal).evt.count = h.evt.count.put ev (h.evt.count.get ev + 1) := by
  simp [Hub.raiseAt, Hub.logWrite, Hub.raiseFlags]

/-- While no domain is held an event counts at once. -/
theorem Hub.raise_count (h : Hub) (ev : Nat) (data : List Byte) (hh : h.clk.held = false) :
    (h.raise ev data).evt.count = h.evt.count.put ev (h.evt.count.get ev + 1) := by
  have runs : h.cpuStands = false := by simp [Hub.cpuStands, hh]
  simp only [Hub.raise, runs, Bool.false_eq_true, if_false, Hub.raiseAt_count]

theorem Hub.raise_count_self (h : Hub) (ev : Nat) (data : List Byte) (hh : h.clk.held = false) :
    (h.raise ev data).evt.count.get ev = h.evt.count.get ev + 1 := by
  simp [h.raise_count ev data hh]

theorem Hub.raise_count_other (h : Hub) (ev : Nat) (data : List Byte) {k : Nat} (hk : k ≠ ev) :
    (h.raise ev data).evt.count.get k = h.evt.count.get k := by
  unfold Hub.raise
  dsimp only
  split
  · rfl
  · rw [Hub.raiseAt_count, Tab.get_put, if_neg hk]

theorem Hub.logNow_count (h : Hub) (ev sev : Nat) (data : List Byte) : (h.logNow ev sev data).evt.count = h.evt.count := by
  unfold Hub.logNow
  split <;> simp [Hub.logWrite]

/-! ### Provisional triggers are cancelled (R176, R206) -/

/-- From `h` to `g` provisional triggers were cancelled: of the events EV42 and EV48 alone may have been raised. -/
structure Hub.Cancels (h g : Hub) : Prop where
  only : h.onlyIn [.host, .evt, .jrn, .act, .trg, .tx] g
  count : ∀ k, k ≠ 42 → k ≠ 48 → g.evt.count.get k = h.evt.count.get k

theorem Hub.Cancels.refl (h : Hub) : h.Cancels h := ⟨h.onlyIn_refl _, fun _ _ _ => rfl⟩

theorem Hub.Cancels.trans {h g t : Hub} (hg : h.Cancels g) (gt : g.Cancels t) : h.Cancels t :=
  ⟨Hub.onlyIn_trans hg.only gt.only, fun k h1 h2 => (gt.count k h1 h2).trans (hg.count k h1 h2)⟩

theorem Hub.Cancels.foldl {α : Type} {f : Hub → α → Hub} (hf : ∀ (g : Hub) a, g.Cancels (f g a)) (l : List α) (h : Hub) :
    h.Cancels (l.foldl f h) := by
  induction l generalizing h with
  | nil => exact .refl h
  | cons a l ih => exact (hf h a).trans (ih _)

/-- A change that raises nothing. -/
theorem Hub.cancels_of_onlyIn {h g : Hub} (ho : h.onlyIn [.jrn, .act, .trg] g) : h.Cancels g :=
  ⟨Hub.onlyIn_mono ho (by decide), fun _ _ _ => by rw [show g.evt = h.evt from ho .evt (by decide)]⟩

theorem Hub.raise_cancels (h : Hub) (ev : Nat) (data : List Byte) (he : ev = 42 ∨ ev = 48) : h.Cancels (h.raise ev data) :=
  ⟨Hub.onlyIn_mono (h.raise_onlyIn ev data) (by decide), fun k h1 h2 => h.raise_count_other ev data (by omega)⟩

theorem Hub.setUnit_cancels (h : Hub) (u : Nat) (x : TrgUnit) : h.Cancels (h.setUnit u x) :=
  Hub.cancels_of_onlyIn (by simp [Hub.onlyIn_iff, Hub.setUnit])

theorem Hub.setCg_cancels (h : Hub) (g : Nat) (x : CapGroup) : h.Cancels (h.setCg g x) :=
  Hub.cancels_of_onlyIn (by simp [Hub.onlyIn_iff, Hub.setCg])

theorem Hub.setRule_cancels (h : Hub) (r : Nat) (x : ActRule) : h.Cancels (h.setRule r x) :=
  Hub.cancels_of_onlyIn (by simp [Hub.onlyIn_iff, Hub.setRule])

theorem Hub.descFreed_cancels (h : Hub) : h.Cancels h.descFreed :=
  Hub.cancels_of_onlyIn (by simp [Hub.onlyIn_iff, Hub.descFreed])

theorem Hub.setLive_onlyIn (h : Hub) (q : Nat) (l : LiveQ) : h.onlyIn [.jrn] (h.setLive q l) := by simp [Hub.onlyIn_iff, Hub.setLive]

theorem Hub.liveWrite_onlyIn (h : Hub) (q type flags : Nat) (body : List Word) : h.onlyIn [.jrn] (h.liveWrite q type flags body) := by
  unfold Hub.liveWrite
  exact h.setLive_onlyIn q _

theorem Hub.trigItem_cancels (h : Hub) (u type epoch : Nat) (tp : T64) (tail : List Word) : h.Cancels (h.trigItem u type epoch tp tail) := by
  unfold Hub.trigItem
  dsimp only
  split
  · exact Hub.cancels_of_onlyIn (Hub.onlyIn_mono (h.liveWrite_onlyIn _ _ _ _) (by decide))
  · exact .refl h

theorem Hub.logChange_cancels (h : Hub) (c : PinChange) : h.Cancels (h.logChange c) :=
  ⟨by simp [Hub.onlyIn_iff, Hub.logChange], fun _ _ _ => by rw [Hub.logChange, Hub.logNow_count]⟩

theorem Hub.segCauses_cancels (h : Hub) (f : Cause → Option Cause) : h.Cancels (h.segCauses f) := by
  refine .foldl (fun g k => ?_) _ h
  have kept : ∀ (p : Prop) [Decidable p] (x : CapGroup), g.Cancels (if p then g else g.setCg k x) := by
    intro p _ x
    split
    · exact .refl g
    · exact g.setCg_cancels k x
  dsimp only
  split
  · exact (kept _ _).trans (Hub.descFreed_cancels _)
  · exact kept _ _

theorem Hub.actCancel_cancels (h : Hub) (u : Nat) (tp : T64) : h.Cancels (h.actCancel u tp) := by
  refine .foldl (fun g r => ?_) _ h
  have logged : ∀ (l : List PinChange) (k : Hub), k.Cancels (l.foldl (fun k w => k.logChange w) k) :=
    .foldl fun k w => k.logChange_cancels w
  dsimp only
  split
  · exact ((g.setRule_cancels r _).trans (logged _ _)).trans (Hub.raise_cancels _ _ _ (.inr rfl))
  · exact .refl g

theorem Hub.trigCancel_cancels (h : Hub) (u cause : Nat) : h.Cancels (h.trigCancel u cause) := by
  unfold Hub.trigCancel
  dsimp only
  split
  · exact .refl h
  · exact ((((h.setUnit_cancels u _).trans (Hub.trigItem_cancels ..)).trans (Hub.raise_cancels _ _ _ (.inl rfl))).trans
      (Hub.segCauses_cancels _ _)).trans (Hub.actCancel_cancels ..)

theorem Hub.trigFault_cancels (h : Hub) (ch : Nat) : h.Cancels (h.trigFault ch) := .foldl (fun g u => g.trigCancel_cancels u 1) _ h

/-! ### Faults of fast inputs (R69, R72, R74) -/

theorem Hub.setFault_onlyIn (h : Hub) (ch : Nat) (f : FaultSt) : h.onlyIn [.fe] (h.setFault ch f) := by simp [Hub.onlyIn_iff, Hub.setFault]

/-- The same write keeps a frame. -/
theorem Hub.setFault_congr {h k : Hub} {cs : List Chapter} (hk : h.onlyIn cs k) (ch : Nat) (f : FaultSt) :
    (h.setFault ch f).onlyIn cs (k.setFault ch f) := by
  intro c hc
  have same := hk c hc
  cases c
  case fe => exact congrArg (fun fe : FeSt => { fe with fault := fe.fault.put ch f }) same
  all_goals exact same

@[simp] theorem Hub.setFault_fault (h : Hub) (ch k : Nat) (f : FaultSt) : (h.setFault ch f).fault k = if k = ch then f else h.fault k := by
  simp [Hub.fault, Hub.setFault]

theorem Hub.fault_of_onlyIn {h g : Hub} {cs : List Chapter} (ho : h.onlyIn cs g) (hc : .fe ∉ cs) (k : Nat) : g.fault k = h.fault k :=
  congrArg (fun fe : FeSt => fe.fault.get k) (ho .fe hc)

@[simp] theorem Hub.raise_fault (h : Hub) (ev : Nat) (data : List Byte) (k : Nat) : (h.raise ev data).fault k = h.fault k := by
  simp [Hub.fault]

theorem Hub.setChain_onlyIn (h : Hub) (ch : Nat) (k : Chain) : h.onlyIn [.flt] (h.setChain ch k) := by simp [Hub.onlyIn_iff, Hub.setChain]

theorem Hub.stageFault_onlyIn (h : Hub) (ch : Nat) (tf : T64) : h.onlyIn [.flt] (h.stageFault ch tf) := by
  unfold Hub.stageFault
  split
  · exact h.onlyIn_refl _
  · exact h.setChain_onlyIn ch _

/-- The fault of a fast channel as it is declared now (R69, R72, R84). -/
def Hub.faultDeclared (h : Hub) (ch pin : Nat) (above : Bool) : FaultSt :=
  { h.fault ch with
    inFault := true, pin := pin, above := above, t := h.sampleT, epoch := h.tb.epoch, declared := (h.fault ch).declared + 1
    from_ := some (h.sampleT - modClocks ((h.fe.fast.get ch).deb + (h.fe.fast.get ch).extend)), till := none }

/-- A declaration writes the fault, marks outputs that are staged, raises EV32 and cancels provisional triggers. -/
theorem feFaultDeclare_declares {h : Hub} {ch : Nat} (pin : Nat) (above : Bool) (hc : ch < 64) (hh : h.clk.held = false)
    (hf : (h.fault ch).inFault = false) : ∃ g data, (h.setFault ch (h.faultDeclared ch pin above)).onlyIn [.flt] g ∧
      feFaultDeclare ch pin above h = (g.raise 32 data).trigFault ch := by
  have fast : isFast ch = true := by simpa [isFast] using hc
  unfold feFaultDeclare
  dsimp only
  rw [hf, hh, fast]
  have staged : ∀ k : Hub, h.onlyIn [.flt] k → (h.setFault ch (h.faultDeclared ch pin above)).onlyIn [.flt]
      ((k.setFault ch (h.faultDeclared ch pin above)).stageFault ch (h.sampleT - modClocks ((h.fe.fast.get ch).deb + (h.fe.fast.get ch).extend))) := by
    intro k hk
    exact Hub.onlyIn_trans (Hub.setFault_congr hk ch _) (Hub.stageFault_onlyIn _ ch _)
  rcases (h.fault ch).from_ with - | a <;> rcases (h.fault ch).till with - | b
  case some.some => exact ⟨_, _, staged _ (h.setChain_onlyIn ch _), rfl⟩
  all_goals exact ⟨_, _, staged h (h.onlyIn_refl _), rfl⟩

theorem feFaultDeclare_idle {h : Hub} {ch : Nat} (pin : Nat) (above : Bool) (hf : (h.fault ch).inFault = true ∨ h.clk.held = true) :
    feFaultDeclare ch pin above h = h := if_pos (by rcases hf with e | e <;> simp [e])

theorem feFaultClearDeclare_clears {h : Hub} {ch : Nat} (hc : ch < 64) (hh : h.clk.held = false) (hf : (h.fault ch).inFault = true) :
    feFaultClearDeclare ch h =
      (h.setFault ch { h.fault ch with inFault := false, till := some h.sampleT }).raise 33 (h.faultData ch (h.fault ch)) :=
  if_neg (by simp [hf, hh, isFast, hc])

theorem feExcursionEnd_counts {h : Hub} {ch : Nat} (hc : ch < 64) (hh : h.clk.held = false) (hf : (h.fault ch).inFault = false) :
    feExcursionEnd ch h = h.setFault ch { h.fault ch with excursions := (h.fault ch).excursions + 1 } :=
  if_neg (by simp [hf, hh, isFast, hc])

/-! ### Scan visits (R58, R62, R75) -/

theorem exec_scanVisitDone (s : State) (m : Fin 8) (e : Fin 9) {first second : List Int} (out above : Bool) (pin : Fin 4)
    (ovrFirst ovrSecond refOk busy : Bool) (hv : halvesOk first second = true) :
    exec (.scanVisitDone m e first second out above pin ovrFirst ovrSecond refOk busy) s =
      s.row (scanVisitDone m e first second out above pin ovrFirst ovrSecond refOk busy) := if_pos hv

theorem Hub.scanFault_onlyIn (h : Hub) (ch : Nat) (out above : Bool) (pin deb : Nat) :
    h.onlyIn [.host, .evt, .jrn, .act, .fe, .trg, .tx] (h.scanFault ch out above pin deb) := by
  have written : ∀ f, h.onlyIn [.host, .evt, .jrn, .act, .fe, .trg, .tx] (h.setFault ch f) := fun f =>
    Hub.onlyIn_mono (h.setFault_onlyIn ch f) (by decide)
  have raised : ∀ f ev data, h.onlyIn [.host, .evt, .jrn, .act, .fe, .trg, .tx] ((h.setFault ch f).raise ev data) := fun f ev data =>
    Hub.onlyIn_trans (written f) (Hub.onlyIn_mono (Hub.raise_onlyIn _ ev data) (by decide))
  unfold Hub.scanFault
  dsimp only
  split_ifs
  · exact written _
  · exact written _
  · exact Hub.onlyIn_trans (raised _ _ _) (Hub.onlyIn_mono (Hub.trigFault_cancels _ ch).only (by decide))
  · exact raised _ _ _

/-- An input enters a channel's chain. -/
def Hub.enters (h : Hub) (ch : Nat) (y : Inp) : Hub := h.setChain ch { h.chain ch with inq := (h.chain ch).inq ++ [y] }

/-- A visit of the present period to a position whose channel awaits it enters the channel's chain. -/
theorem Hub.posVisit_enters {h : Hub} {m : Nat} {e : ScanEntry} (v : Int) (out above : Bool) (pin : Nat) (ovr : Bool)
    (hd : h.scanPeriodNo m % 2 ^ e.divSel = 0) (hp : h.fe.period.get m ≤ h.scanPeriodNo m)
    (hr : (h.chain (64 + 8 * m + e.pos)).running = true)
    (hn : (h.chain (64 + 8 * m + e.pos)).nextIn ≤ h.scanPeriodNo m / 2 ^ e.divSel) :
    ∃ g w q, h.onlyIn [.host, .evt, .jrn, .act, .fe, .trg, .tx] g ∧ h.posVisit m e v out above pin ovr =
      g.enters (64 + 8 * m + e.pos) { epoch := h.tb.epoch, i := h.scanPeriodNo m / 2 ^ e.divSel, n := 1, v := some w, q := q } := by
  have frame := h.scanFault_onlyIn (64 + 8 * m + e.pos) out above pin (h.scanCfg m).deb
  have flt := frame .flt (by decide)
  have tb := frame .tb (by decide)
  unfold Hub.posVisit
  dsimp only
  rw [if_neg (by omega)]
  generalize h.scanFault (64 + 8 * m + e.pos) out above pin (h.scanCfg m).deb = g at frame flt tb ⊢
  have chain : g.chain (64 + 8 * m + e.pos) = h.chain (64 + 8 * m + e.pos) := congrArg (fun f : FltSt => f.ch.get (64 + 8 * m + e.pos)) flt
  rw [if_pos (by rw [chain]; exact ⟨hr, hn⟩), show g.tb = h.tb from tb]
  exact ⟨g, _, _, frame, rfl⟩

theorem scanVisitDone_position {h : Hub} {m e : Nat} {x : ScanEntry} (first second : List Int) (out above : Bool) (pin : Nat)
    (ovrFirst ovrSecond refOk busy : Bool) (hh : h.clk.held = false) (hd : (h.scanCfg m).div ≠ 0) (he : e < 8)
    (hx : (h.scanCfg m).list[e]? = some x) : scanVisitDone m e first second out above pin ovrFirst ovrSecond refOk busy h =
      h.posVisit m x (visitValue first second) out above pin (ovrFirst || ovrSecond) := by
  unfold scanVisitDone
  dsimp only
  rw [if_neg (by simp [hh, hd]), if_neg (by omega), hx]

/-! ### Conditions of excitation outputs (R67) -/

theorem Hub.setExc_onlyIn (h : Hub) (x : Nat) (e : ExcSt) : h.onlyIn [.fe] (h.setExc x e) := by simp [Hub.onlyIn_iff, Hub.setExc]

@[simp] theorem Hub.setExc_get (h : Hub) (x k : Nat) (e : ExcSt) :
    (h.setExc x e).fe.exc.get k = if k = x then e else h.fe.exc.get k := by
  simp [Hub.setExc]

/-- A row that writes an output and raises an event. -/
theorem does_setExc_raise {i : Instr} {s : State} {f : Hub → Hub} {x ev : Nat} {e : ExcSt} {data : List Byte}
    (hi : exec i s = s.row f) (hp : s.hub.powered = true) (hh : s.hub.clk.held = false) (hf : f s.hub = (s.hub.setExc x e).raise ev data) :
    Does i s [.host, .evt, .fe, .tx] fun t => t.fe.exc.get x = e ∧ (∀ k : Nat, k ≠ x → t.fe.exc.get k = s.hub.fe.exc.get k) ∧
      t.evt.count.get ev = s.hub.evt.count.get ev + 1 := by
  refine does_row hi hp ?_ ?_ <;> rw [hf]
  · exact Hub.onlyIn_trans (Hub.onlyIn_mono (s.hub.setExc_onlyIn x e) (by decide)) (Hub.onlyIn_mono (Hub.raise_onlyIn _ _ _) (by decide))
  · refine ⟨by simp, fun k hk => by simp [hk], ?_⟩
    exact Hub.raise_count_self _ ev data hh

/-! ### Changes of excitation outputs (R66) -/

theorem Hub.complete_onlyIn (h : Hub) (hd status : Nat) (result : List Word) : h.onlyIn [.host, .tx] (h.complete hd status result) := by
  simp [Hub.onlyIn_iff]

theorem Hub.settleBound_onlyIn (h : Hub) (x : Nat) (t : T64) : h.onlyIn [.flt] (h.settleBound x t) := by
  refine Hub.onlyIn_foldl (fun g ch => ?_) _ h
  split
  · exact g.setChain_onlyIn ch _
  · exact g.onlyIn_refl _

/-- One change takes effect at `t` and completes. -/
def Hub.excTake (x : Nat) (t : T64) (h : Hub) (p : ExcCfg × Nat × Nat) : Hub :=
  let e := h.fe.exc.get x
  let sw := e.drive.switches p.1
  let h := if sw then h.settleBound x t else h
  let h := h.setExc x { h.fe.exc.get x with drive := p.1, reversed := if sw then false else e.reversed }
  let h := if sw then h.settleBound x t else h
  h.complete p.2.1 DONE (tWords t ++ [wd h.tb.epoch])

/-- When the first strobe of every change has come, all take effect in their order. -/
theorem Hub.excApply_all (h : Hub) (x : Nat) (t : T64) (hd : ∀ q ∈ (h.fe.exc.get x).pending, q.2.2 < h.tb.strobes) :
    h.excApply x t = (h.fe.exc.get x).pending.foldl (Hub.excTake x t) (h.setExc x { h.fe.exc.get x with pending := [] }) := by
  have due : (h.fe.exc.get x).pending.filter (fun p => decide (p.2.2 < h.tb.strobes)) = (h.fe.exc.get x).pending :=
    List.filter_eq_self.mpr fun q hq => decide_eq_true (hd q hq)
  have rest : (h.fe.exc.get x).pending.filter (fun p => !decide (p.2.2 < h.tb.strobes)) = [] :=
    List.filter_eq_nil_iff.mpr fun q hq => by simp [hd q hq]
  unfold Hub.excApply
  dsimp only
  rw [due, rest]
  rfl

/-- From `h` to `g` changes of output `x` took effect. -/
structure Hub.Switches (x : Nat) (h g : Hub) : Prop where
  only : h.onlyIn [.host, .fe, .flt, .tx] g
  pending : (g.fe.exc.get x).pending = (h.fe.exc.get x).pending
  others : ∀ k, k ≠ x → g.fe.exc.get k = h.fe.exc.get k

theorem Hub.Switches.refl (x : Nat) (h : Hub) : h.Switches x h := ⟨h.onlyIn_refl _, rfl, fun _ _ => rfl⟩

theorem Hub.Switches.trans {x : Nat} {h g t : Hub} (hg : h.Switches x g) (gt : g.Switches x t) : h.Switches x t :=
  ⟨Hub.onlyIn_trans hg.only gt.only, gt.pending.trans hg.pending, fun k hk => (gt.others k hk).trans (hg.others k hk)⟩

theorem Hub.Switches.foldl {α : Type} {x : Nat} {f : Hub → α → Hub} (hf : ∀ (g : Hub) a, g.Switches x (f g a)) (l : List α) (h : Hub) :
    h.Switches x (l.foldl f h) := by
  induction l generalizing h with
  | nil => exact .refl x h
  | cons a l ih => exact (hf h a).trans (ih _)

theorem Hub.excTake_switches (x : Nat) (t : T64) (h : Hub) (p : ExcCfg × Nat × Nat) :
    h.Switches x (h.excTake x t p) ∧ ((h.excTake x t p).fe.exc.get x).drive = p.1 := by
  have settled : ∀ (g : Hub) (b : Bool), g.onlyIn [.flt] (if b then g.settleBound x t else g) := by
    intro g b
    split
    · exact g.settleBound_onlyIn x t
    · exact g.onlyIn_refl _
  unfold Hub.excTake
  extract_lets e sw before old written after
  have hbefore : h.onlyIn [.flt] before := settled h sw
  have hafter : written.onlyIn [.host, .flt, .tx] (after.complete p.2.1 DONE (tWords t ++ [wd after.tb.epoch])) :=
    Hub.onlyIn_trans (Hub.onlyIn_mono (settled written sw) (by decide)) (Hub.onlyIn_mono (Hub.complete_onlyIn _ _ _ _) (by decide))
  have fe : (after.complete p.2.1 DONE (tWords t ++ [wd after.tb.epoch])).fe = written.fe := hafter .fe (by decide)
  have unsettled : before.fe = h.fe := hbefore .fe (by decide)
  refine ⟨⟨?_, ?_, fun k hk => ?_⟩, ?_⟩
  · exact Hub.onlyIn_trans (Hub.onlyIn_trans (Hub.onlyIn_mono hbefore (by decide)) (Hub.onlyIn_mono (Hub.setExc_onlyIn _ _ _) (by decide)))
      (Hub.onlyIn_mono hafter (by decide))
  · rw [fe]
    simp [written, old, unsettled]
  · rw [fe]
    simp [written, unsettled, hk]
  · rw [fe]
    simp [written]

/-- The last of the changes is the setting in force. -/
theorem Hub.excTakes_drive (x : Nat) (t : T64) (h : Hub) {l : List (ExcCfg × Nat × Nat)} {r : ExcCfg × Nat × Nat} (hr : l.getLast? = some r) :
    ((l.foldl (Hub.excTake x t) h).fe.exc.get x).drive = r.1 := by
  obtain ⟨ys, rfl⟩ := List.getLast?_eq_some_iff.mp hr
  rw [List.foldl_append]
  exact (Hub.excTake_switches x t _ r).2

theorem excSwitch_applies {h : Hub} {x : Nat} {r : ExcCfg × Nat × Nat} (hh : h.clk.held = false) (hv : h.visitBound x = false)
    (hr : (h.fe.exc.get x).pending.getLast? = some r) (hd : ∀ q ∈ (h.fe.exc.get x).pending, q.2.2 < h.tb.strobes) :
    excSwitch x h = h.excApply x h.sampleT := by
  have mem : r ∈ (h.fe.exc.get x).pending := List.mem_of_getLast? hr
  have due : (h.fe.exc.get x).pending.any (fun p => decide (p.2.2 < h.tb.strobes)) = true :=
    List.any_eq_true.mpr ⟨r, mem, decide_eq_true (hd r mem)⟩
  unfold excSwitch
  dsimp only
  rw [if_neg (by simpa using List.ne_nil_of_mem mem), if_pos (by simp [due, hh, hv])]

/-- Settles O53: each clause by what its row does to the fault, the chain or the output that it names. -/
theorem frontEndRows : Obligations.FrontEndRows := by
  unfold Obligations.FrontEndRows
  refine ⟨?_, ?_, ?_, ?_, ?_, ?_, ?_, ?_, ?_, ?_, ?_, ?_, ?_⟩
  · intro s ch pin above hp hh hf
    obtain ⟨g, data, hg, hrow⟩ := feFaultDeclare_declares pin above ch.isLt hh hf
    have clk : g.clk = s.hub.clk := hg .clk (by decide)
    have evt : g.evt = s.hub.evt := hg .evt (by decide)
    have cancels := ((g.raise 32 data).trigFault_cancels ch)
    have raised := g.raise_onlyIn 32 data
    have fault : ∀ k, ((g.raise 32 data).trigFault ch).fault k = if k = ch then s.hub.faultDeclared ch pin above else s.hub.fault k := by
      intro k
      rw [Hub.fault_of_onlyIn cancels.only (by decide), Hub.raise_fault, Hub.fault_of_onlyIn hg (by decide), Hub.setFault_fault]
    refine does_row rfl hp ?_ ?_ <;> rw [hrow]
    · exact Hub.onlyIn_trans (Hub.onlyIn_trans (Hub.onlyIn_trans (Hub.onlyIn_mono (s.hub.setFault_onlyIn ch _) (by decide))
        (Hub.onlyIn_mono hg (by decide))) (Hub.onlyIn_mono raised (by decide))) (Hub.onlyIn_mono cancels.only (by decide))
    · rw [fault ch, if_pos rfl]
      refine ⟨rfl, rfl, rfl, rfl, rfl, rfl, fun k hk => by rw [fault k, if_neg hk], ?_⟩
      rw [cancels.count 32 (by decide) (by decide), Hub.raise_count_self _ _ _ (by rw [clk, hh]), evt]
  · intro s ch pin above hp hf
    exact does_nothing rfl hp (feFaultDeclare_idle pin above hf)
  · intro s ch hp hh hf
    refine does_row rfl hp ?_ ?_ <;> rw [feFaultClearDeclare_clears ch.isLt hh hf]
    · exact Hub.onlyIn_trans (Hub.onlyIn_mono (s.hub.setFault_onlyIn ch _) (by decide)) (Hub.onlyIn_mono (Hub.raise_onlyIn _ _ _) (by decide))
    · exact ⟨by simp, fun k hk => by simp [hk], Hub.raise_count_self _ 33 _ hh⟩
  · intro s ch hp hh hf
    refine does_row rfl hp ?_ ?_ <;> rw [feExcursionEnd_counts ch.isLt hh hf]
    · exact s.hub.setFault_onlyIn ch _
    · simp +contextual
  · intro s m e first second out above pin ovrFirst ovrSecond refOk busy x hp hh hv he hd hx hdiv hper hrun hnext
    obtain ⟨g, w, q, hg, hrow⟩ := s.hub.posVisit_enters (visitValue first second) out above pin (ovrFirst || ovrSecond) hdiv hper hrun hnext
    have flt : g.flt = s.hub.flt := hg .flt (by decide)
    refine does_row (exec_scanVisitDone s m e out above pin ovrFirst ovrSecond refOk busy hv) hp ?_ ?_ <;>
      rw [scanVisitDone_position first second out above pin ovrFirst ovrSecond refOk busy hh hd he hx, hrow]
    · exact Hub.onlyIn_trans (Hub.onlyIn_mono hg (by decide)) (Hub.onlyIn_mono (g.setChain_onlyIn _ _) (by decide))
    · exact ⟨{ epoch := s.hub.tb.epoch, i := s.hub.scanPeriodNo m / 2 ^ x.divSel, n := 1, v := some w, q := q },
        by simp [Hub.enters, Hub.setChain, Hub.chain, flt], rfl, rfl, rfl, rfl⟩
  · intro s m e first second out above pin ovrFirst ovrSecond refOk busy hp hv hidle
    exact does_nothing (exec_scanVisitDone s m e out above pin ovrFirst ovrSecond refOk busy hv) hp
      (if_pos (by rcases hidle with h | h <;> simp [h]))
  · intro s x hp hh hm ho
    exact does_setExc_raise (data := excData x 1) rfl hp hh (if_pos ⟨hm, by simp [ho]⟩)
  · intro s x hp hh hm hc
    exact does_setExc_raise (data := excData x 1) rfl hp hh ((if_neg (by simp [hm])).trans (if_pos ⟨hm, by simp [hc]⟩))
  · intro s x hp hm
    exact does_nothing (f := excFaultOnset x) rfl hp (by simp [excFaultOnset, hm])
  · intro s x hp hh ho
    exact does_setExc_raise (data := excData x 0) rfl hp hh (if_pos ho)
  · intro s x hp ho hc
    exact does_nothing (f := excFaultEnd x) rfl hp (by simp [excFaultEnd, ho, hc])
  · intro s x r hp hh hv hr hd
    have switches : (s.hub.setExc x { s.hub.fe.exc.get x with pending := [] }).Switches x _ :=
      .foldl (fun g p => (g.excTake_switches x s.hub.sampleT p).1) (s.hub.fe.exc.get x).pending _
    refine does_row rfl hp ?_ ?_ <;> rw [excSwitch_applies hh hv hr hd, s.hub.excApply_all x _ hd]
    · exact Hub.onlyIn_trans (Hub.onlyIn_mono (s.hub.setExc_onlyIn x _) (by decide)) switches.only
    · exact ⟨switches.pending.trans (by simp), Hub.excTakes_drive x _ _ hr, fun k hk => (switches.others k hk).trans (by simp [hk])⟩
  · intro s x hp hn
    exact does_nothing (f := excSwitch x) rfl hp (by simp [excSwitch, hn])

end Sys2Proof.Machine

/-! PROOFS. Kelnen commands that are answered or accepted at once (R478, R481 to R486). -/
namespace Sys2Proof.Machine

/-! ### Responses -/

/-- A read within consecutive entries that were written. -/
theorem Tab.gets_puts_within {α : Type} [Inhabited α] [DecidableEq α] (t : Tab α) (i j n : Nat) (vs : List α) (hj : j + n ≤ vs.length) :
    (t.puts i vs).gets (i + j) n = (vs.drop j).take n := by
  apply List.ext_getElem
  · simp [Tab.gets]; omega
  · intro k h1 h2
    have hk : k < n := by simpa [Tab.gets] using h1
    simp only [Tab.gets, List.getElem_map, List.getElem_range, Tab.get_puts, List.getElem_take, List.getElem_drop]
    rw [if_pos (by omega), List.getD_eq_getElem _ _ (by omega)]
    congr 1; omega

/-- A response writes its own mailbox, and of the rest of the host interface pending bits alone. -/
theorem Hub.respond_host (h : Hub) (m status hd : Nat) (tag : Word) (ws : List Word) (crc : Bool) : ∃ w3 p,
    (h.respond m status hd tag ws crc).host = { h.host with
      pba := p
      mbs := h.host.mbs.upd m fun x => { x with
        resp := x.resp.puts 0 ([wd (status + hd * 2 ^ 16), tag, wd ws.length, w3] ++ ws.take 124)
        state := .ready, status := setBit x.status 0 } } := by
  unfold Hub.respond
  obtain ⟨p, e⟩ := Hub.edge_host _ _ _ _
  exact ⟨_, p, e⟩

theorem Hub.respond_response (h : Hub) (m status hd : Nat) (tag : Word) (ws : List Word) (crc : Bool) :
    (h.respond m status hd tag ws crc).response m status hd tag ws := by
  obtain ⟨w3, p, e⟩ := h.respond_host m status hd tag ws crc
  unfold Hub.response
  rw [e]
  simp only [Tab.get_upd, if_true]
  refine ⟨trivial, bit_setBit _ 0 (by decide), ?_, ?_⟩
  · exact (Tab.gets_puts_within _ 0 0 3 _ (by simp)).trans (by simp)
  · refine (Tab.gets_puts_within _ 0 4 _ _ ?_).trans ?_
    · simp; omega
    · simp [List.take_take, Nat.min_comm]

/-- Of the host interface but for mailbox `m`, what commands through it leave alone. -/
structure Hub.OwnMail (m : Nat) (h g : Hub) : Prop where
  mbs : ∀ k, k ≠ m → g.host.mbs.get k = h.host.mbs.get k
  cq : g.host.cq = h.host.cq
  cqWr : g.host.cqWr = h.host.cqWr

theorem Hub.OwnMail.trans {m : Nat} {h g t : Hub} (hg : h.OwnMail m g) (gt : g.OwnMail m t) : h.OwnMail m t :=
  ⟨fun k hk => (gt.mbs k hk).trans (hg.mbs k hk), gt.cq.trans hg.cq, gt.cqWr.trans hg.cqWr⟩

theorem Hub.ownMail_of_host {m : Nat} {h g : Hub} (e : g.host = h.host) : h.OwnMail m g :=
  ⟨fun k _ => by rw [e], by rw [e], by rw [e]⟩

theorem Hub.executing_ownMail (h : Hub) (c : CmdSpec) (m : Nat) (tag : Word) (pl : List Word) :
    h.OwnMail m (h.executing c m tag pl) ∧ (h.executing c m tag pl).host.slots = h.host.slots := by
  unfold Hub.executing Hub.taken Hub.mailed Hub.ring Hub.updMb
  exact ⟨⟨fun k hk => by simp [hk], rfl, rfl⟩, rfl⟩

theorem Hub.respond_ownMail (h : Hub) (m status hd : Nat) (tag : Word) (ws : List Word) (crc : Bool) :
    h.OwnMail m (h.respond m status hd tag ws crc) ∧ (h.respond m status hd tag ws crc).host.slots = h.host.slots := by
  obtain ⟨w3, p, e⟩ := h.respond_host m status hd tag ws crc
  rw [e]
  exact ⟨⟨fun k hk => by rw [e]; simp [hk], by rw [e], by rw [e]⟩, rfl⟩

theorem Hub.msix_tx (h : Hub) (v : Nat) : h.tx <+: (h.msix v).tx := by
  unfold Hub.msix
  split_ifs
  · exact List.prefix_refl _
  · exact List.prefix_refl _
  · exact List.prefix_append _ _

theorem Hub.edge_tx (h : Hub) (was on : Bool) (v : Nat) : h.tx <+: (h.edge was on v).tx := by
  unfold Hub.edge
  split
  · exact h.msix_tx v
  · exact List.prefix_refl _

theorem Hub.respond_tx (h : Hub) (m status hd : Nat) (tag : Word) (ws : List Word) (crc : Bool) :
    h.tx <+: (h.respond m status hd tag ws crc).tx := by
  unfold Hub.respond
  dsimp only
  exact (h.updMb m _).edge_tx _ _ _

/-! ### A command is answered -/

/-- The hub `h` in which a command has run, once the firmware has answered it (R481, R492, R526). -/
def Hub.answered (h : Hub) (m status hd : Nat) (tag : Word) (ws : List Word) (crc : Bool) : Hub :=
  ((h.noteTag m status tag).respond m status hd tag ws crc).openUsed

theorem Hub.answered_onlyIn (h : Hub) (m status hd : Nat) (tag : Word) (ws : List Word) (crc : Bool) :
    h.onlyIn [.host, .sys, .clk, .tx] (h.answered m status hd tag ws crc) := by
  simp [Hub.onlyIn_iff, Hub.answered]

theorem Hub.answered_response (h : Hub) (m status hd : Nat) (tag : Word) (ws : List Word) (crc : Bool) :
    (h.answered m status hd tag ws crc).response m status hd tag ws := Hub.respond_response _ m status hd tag ws crc

theorem Hub.answered_slots (h : Hub) (m status hd : Nat) (tag : Word) (ws : List Word) (crc : Bool) :
    (h.answered m status hd tag ws crc).host.slots = h.host.slots := by
  refine (Hub.respond_ownMail _ m status hd tag ws crc).2.trans ?_
  rw [Hub.noteTag_host]

theorem Hub.answered_ownMail (h : Hub) (m status hd : Nat) (tag : Word) (ws : List Word) (crc : Bool) :
    h.OwnMail m (h.answered m status hd tag ws crc) := by
  obtain ⟨mbs, cq, cqWr⟩ := ((h.noteTag m status tag).respond_ownMail m status hd tag ws crc).1
  exact (Hub.ownMail_of_host (h.noteTag_host m status tag)).trans ⟨mbs, cq, cqWr⟩

/-- A command that took effect and changed the chapters `cs` keeps the frame of R480 to R483 when it is answered. -/
theorem Hub.answered_mailFrame {h g : Hub} {cs : List Chapter} {m status : Nat} (hd : Nat) (tag : Word) (ws : List Word) (crc : Bool)
    (hg : h.onlyIn (.host :: cs) g) (hm : h.OwnMail m g) (hs : tookEffect status = true) :
    h.mailFrame cs m tag (g.answered m status hd tag ws crc) := by
  refine ⟨?_, fun hc => ?_, fun hc => ?_, fun _ => ?_, fun hc => ?_⟩
  · refine Hub.onlyIn_trans (Hub.onlyIn_mono hg ?_) (Hub.onlyIn_mono (g.answered_onlyIn m status hd tag ws crc) ?_)
    · exact List.cons_subset_cons _ (List.subset_append_right [.sys, .clk, .tx] cs)
    · exact List.subset_append_left _ _
  · have sys : g.sys = h.sys := hg .sys (by simp [hc])
    simp [Hub.answered, Hub.noteTag, hs, sys]
  · have clk : g.clk = h.clk := hg .clk (by simp [hc])
    have gates : (g.answered m status hd tag ws crc).clk.gates ⊆ g.clk.gates := by
      simp [Hub.answered, Hub.openUsed]
    refine ⟨?_, fun n hn => clk ▸ gates hn⟩
    simp [Hub.answered, Hub.openUsed, clk]
  · obtain ⟨mbs, cq, cqWr⟩ := hm.trans (g.answered_ownMail m status hd tag ws crc)
    exact ⟨mbs, cq, cqWr⟩
  · have tx : g.tx = h.tx := hg .tx (by simp [hc])
    have sent := (g.noteTag m status tag).respond_tx m status hd tag ws crc
    rwa [Hub.noteTag_tx, tx] at sent

/-! ### Commands that end at once, and long-running ones (R483 to R485) -/

/-- What a command that executes for mailbox `mb` is given. -/
def CmdIn.of (mb : Fin 8) (tag : Word) (pl : List Word) (hd : Nat) : CmdIn := { mb := mb, tag := tag, handle := hd, pl := pl }

theorem Hub.ran_short {g : Hub} {c : CmdSpec} {mb : Fin 8} {tag : Word} {pl : List Word} {r : CmdRes} (crc : Bool) (hl : c.long g pl = false)
    (hr : c.run g (.of mb tag pl 0) = r) (hw : r.wait = false) :
    (g.ran c mb tag pl crc).openUsed = r.hub.answered mb r.status 0 tag r.words crc := by
  unfold Hub.ran Hub.answered
  rw [hl, if_neg (by decide)]
  dsimp only
  rw [show c.run g { mb := mb, tag := tag, handle := 0, pl := pl } = r from hr, hw]
  rfl

theorem Hub.ran_long {g : Hub} {c : CmdSpec} {mb : Fin 8} {tag : Word} {pl : List Word} {k : Nat} (crc : Bool) (hl : c.long g pl = true)
    (hk : g.freeSlot mb = some k) : (g.ran c mb tag pl crc).openUsed =
      (c.run (g.allocSlot k c.opcode tag mb) (.of mb tag pl ((g.allocSlot k c.opcode tag mb).handleOf k))).hub.answered mb ACCEPTED
        ((g.allocSlot k c.opcode tag mb).handleOf k) tag
        (c.run (g.allocSlot k c.opcode tag mb) (.of mb tag pl ((g.allocSlot k c.opcode tag mb).handleOf k))).words crc := by
  unfold Hub.ran
  rw [hl, if_pos rfl, hk]
  rfl

/-- A long-running command passes the checks of R483 only while a slot is free. -/
theorem Hub.freeSlot_of_checkCmd {h : Hub} {c : CmdSpec} {m : Nat} {w0 w1 w2 w3 : Word} {pl : List Word} (hl : c.long h pl = true)
    (hc : h.checkCmd (some c) m w0 w1 w2 w3 pl = none) : ∃ k, h.freeSlot m = some k := by
  cases hk : h.freeSlot m with
  | some k => exact ⟨k, rfl⟩
  | none =>
    simp only [Hub.checkCmd, hl, hk, Option.isNone_none, Bool.and_self, if_true] at hc
    repeat' split at hc
    all_goals exact absurd hc nofun

theorem Hub.allocSlot_onlyIn (h : Hub) (k opcode : Nat) (tag : Word) (m : Nat) : h.onlyIn [.host] (h.allocSlot k opcode tag m) := by
  simp [Hub.onlyIn_iff, Hub.allocSlot]

theorem Hub.executing_onlyIn (h : Hub) (c : CmdSpec) (m : Nat) (tag : Word) (pl : List Word) : h.onlyIn [.host] (h.executing c m tag pl) := by
  simp [Hub.onlyIn_iff]

/-- The handle of the slot that a command takes is the next one of its mailbox (R485). -/
theorem Hub.nextHandle_executing {h : Hub} {c : CmdSpec} {m k : Nat} {tag : Word} {pl : List Word}
    (hk : (h.executing c m tag pl).freeSlot m = some k) :
    h.nextHandle m = some (((h.executing c m tag pl).allocSlot k c.opcode tag m).handleOf k) := by
  have slots := (h.executing_ownMail c m tag pl).2
  have free : h.freeSlot m = some k := by rw [← hk, Hub.freeSlot, Hub.freeSlot, slots]
  simp [Hub.nextHandle, free, Hub.handleOf, Hub.allocSlot, slots]

/-- A command that takes no handle, and changes the chapters `cs` alone, is answered with what it gives; `P` need look at nothing that the
mailbox path writes. -/
theorem answers_of_run {i : Instr} {s : State} {c : CmdSpec} {mb : Fin 8} {tag : Word} {pl : List Word} {cs : List Chapter}
    {P : List Word → Hub → Prop} {r : CmdRes} {status : Nat} (hi : exec i s = s.mailRow c mb tag pl) (ht : s.takes c mb tag pl = true)
    (hl : c.long (s.hub.executing c mb tag pl) pl = false) (hr : c.run (s.hub.executing c mb tag pl) (.of mb tag pl 0) = r)
    (hw : r.wait = false) (hs : r.status = status) (he : tookEffect status = true) (hc : .host ∉ cs)
    (hf : (s.hub.executing c mb tag pl).onlyIn cs r.hub)
    (hP : ∀ t, r.hub.onlyIn [.host, .sys, .clk, .tx] t → P r.words t) : Answers i s mb tag status cs P := by
  subst hs
  obtain ⟨own, slots⟩ := s.hub.executing_ownMail c mb tag pl
  have host : r.hub.host = (s.hub.executing c mb tag pl).host := hf .host hc
  have frame : s.hub.onlyIn (.host :: cs) r.hub :=
    Hub.onlyIn_trans (Hub.onlyIn_mono (s.hub.executing_onlyIn c mb tag pl) (by simp)) (Hub.onlyIn_mono hf (List.subset_cons_self _ _))
  refine ⟨_, r.words, hi.trans (s.mailRow_takes c mb tag pl ht), rfl, ?_⟩
  rw [Hub.ran_short _ hl hr hw]
  exact ⟨r.hub.answered_response .., Hub.answered_mailFrame 0 tag r.words _ frame (own.trans (Hub.ownMail_of_host host)) he,
    fun _ => (r.hub.answered_slots ..).trans (by rw [host, slots]), hP _ (r.hub.answered_onlyIn _ _ _ _ _ _)⟩

/-- A long-running command that changes the chapters `cs` alone is accepted with the next handle of its mailbox. -/
theorem accepts_of_run {i : Instr} {s : State} {c : CmdSpec} {mb : Fin 8} {tag : Word} {pl : List Word} {cs : List Chapter}
    {P : Nat → Hub → Prop} (hi : exec i s = s.mailRow c mb tag pl) (ht : s.takes c mb tag pl = true)
    (hl : c.long (s.hub.executing c mb tag pl) pl = true) (hc : .host ∉ cs)
    (hr : ∀ g hd, s.hub.onlyIn [.host] g → ∃ f, c.run g (.of mb tag pl hd) = { hub := f } ∧ g.onlyIn cs f ∧
      ∀ t, f.onlyIn [.host, .sys, .clk, .tx] t → P hd t) :
    Accepts i s mb tag cs P := by
  have checks := ht
  simp only [State.takes, Bool.and_eq_true, Option.isNone_iff_eq_none] at checks
  obtain ⟨k, hk⟩ := Hub.freeSlot_of_checkCmd hl checks.2
  have own := (s.hub.executing_ownMail c mb tag pl).1
  have alloc := (s.hub.executing c mb tag pl).allocSlot_onlyIn k c.opcode tag mb
  have taken : (s.hub.executing c mb tag pl).OwnMail mb ((s.hub.executing c mb tag pl).allocSlot k c.opcode tag mb) :=
    ⟨fun _ _ => rfl, rfl, rfl⟩
  have mailed := Hub.onlyIn_trans (s.hub.executing_onlyIn c mb tag pl) alloc
  have handle := Hub.nextHandle_executing hk
  refine ⟨_, _, hi.trans (s.mailRow_takes c mb tag pl ht), rfl, handle, ?_⟩
  rw [Hub.ran_long _ hl hk]
  generalize (s.hub.executing c mb tag pl).allocSlot k c.opcode tag mb = g at taken mailed
  obtain ⟨f, run, hf, hP⟩ := hr g (g.handleOf k) mailed
  have host : f.host = g.host := hf .host hc
  have frame : s.hub.onlyIn (.host :: cs) f :=
    Hub.onlyIn_trans (Hub.onlyIn_mono mailed (by simp)) (Hub.onlyIn_mono hf (List.subset_cons_self _ _))
  rw [run]
  exact ⟨f.answered_response .., Hub.answered_mailFrame _ tag _ _ frame ((own.trans taken).trans (Hub.ownMail_of_host host)) (by decide),
    hP _ (f.answered_onlyIn _ _ _ _ _ _)⟩

end Sys2Proof.Machine

/-! PROOFS. Front-end commands (O21). -/
namespace Sys2Proof.Machine

/-! ### Masks and pairs of words -/

theorem testBit_maskOf (l : List Nat) (i : Nat) : (maskOf l).testBit i = decide (i ∈ l) := by
  have fold : ∀ (l : List Nat) (a : Nat), (l.foldl (fun a i => a ||| 2 ^ i) a).testBit i = (a.testBit i || decide (i ∈ l)) := by
    intro l
    induction l with
    | nil => simp
    | cons x l ih =>
      intro a
      rw [List.foldl_cons, ih, Nat.testBit_or, Nat.testBit_two_pow]
      simp [Bool.or_assoc, eq_comm]
  simpa [maskOf] using fold l 0

/-- Bit `k` of word `n` of a number. -/
theorem bit_wd_div (x n k : Nat) (hk : k < 32) : bit (wd (x / 2 ^ n)) k = x.testBit (n + k) := by
  rw [bit, wd, BitVec.getLsbD_ofNat, Nat.testBit_div_two_pow, Nat.add_comm]
  simp [hk]

/-- A word of a list of pairs. -/
theorem getD_flatMap_pair (f : Nat → List Word) (hf : ∀ j, (f j).length = 2) {n j k : Nat} (hj : j < n) (hk : k < 2) :
    ((List.range n).flatMap f).getD (2 * j + k) 0 = (f j).getD k 0 := by
  induction n with
  | zero => exact absurd hj (by omega)
  | succ n ih =>
    have length : ((List.range n).flatMap f).length = 2 * n := by simp [List.length_flatMap, hf, Nat.mul_comm]
    rw [List.range_succ, List.flatMap_append, List.flatMap_singleton]
    rcases Nat.lt_succ_iff_lt_or_eq.mp hj with hlt | rfl
    · rw [List.getD_append _ _ _ _ (by omega), ih hlt]
    · rw [List.getD_append_right _ _ _ _ (by omega), length, Nat.add_sub_cancel_left]

/-! ### Settings of channels, lists and outputs (R79 to R81) -/

section
variable {s : State} {mb : Fin 8} {tag : Word} {pl : List Word}

theorem feFastSet_answers (ht : s.takes feFastSet mb tag pl = true) :
    Answers (.feFastSet mb tag pl) s mb tag DONE [.cfg] fun _ t => t.cfg =
      { s.hub.cfg with fe := { s.hub.cfg.fe with fast := s.hub.cfg.fe.fast.put (fld (pw pl 0) 5 0) (pwFast pl) } } := by
  refine answers_of_run (c := feFastSet) rfl ht rfl rfl rfl rfl (by decide) (by decide) ?_ fun t h => ?_
  · simp [Hub.onlyIn_iff, feFastSet, CmdIn.of]
  · rw [show t.cfg = _ from h .cfg (by decide)]
    simp [feFastSet, CmdIn.of]

theorem Hub.pwNeed_executing (h : Hub) (c : CmdSpec) (m : Nat) (tag : Word) (pl p : List Word) :
    (h.executing c m tag pl).pwNeed p = h.pwNeed p := by
  obtain ⟨_, e⟩ := h.executing_frame c m tag pl
  rw [e]
  rfl

theorem feScanSet_answers (ht : s.takes feScanSet mb tag pl = true) :
    Answers (.feScanSet mb tag pl) s mb tag DONE [.cfg] fun ws t => t.cfg =
      { s.hub.cfg with fe := { s.hub.cfg.fe with scan := s.hub.cfg.fe.scan.put (fld (pw pl 0) 2 0) (pwScan pl) } } ∧
      ws.take 2 = [wd (s.hub.pwNeed pl), wd (fld (pw pl 0) 31 16 * 3072 - s.hub.pwNeed pl)] := by
  refine answers_of_run (c := feScanSet) rfl ht rfl rfl rfl rfl (by decide) (by decide) ?_ fun t h => ⟨?_, ?_⟩
  · simp [Hub.onlyIn_iff, feScanSet, CmdIn.of]
  · rw [show t.cfg = _ from h .cfg (by decide)]
    simp [feScanSet, CmdIn.of]
  · change [wd (Hub.pwNeed _ pl), wd (_ * 3072 - Hub.pwNeed _ pl)] = _
    rw [Hub.pwNeed_executing]
    rfl

theorem feExcSet_accepts (ht : s.takes feExcSet mb tag pl = true) :
    Accepts (.feExcSet mb tag pl) s mb tag [.cfg, .fe] fun hd t => t.cfg =
      { s.hub.cfg with fe := { s.hub.cfg.fe with exc := s.hub.cfg.fe.exc.put (fld (pw pl 0) 2 0) (pwExc pl) } } ∧
      (t.fe.exc.get (fld (pw pl 0) 2 0)).drive = (s.hub.fe.exc.get (fld (pw pl 0) 2 0)).drive ∧
      (t.fe.exc.get (fld (pw pl 0) 2 0)).pending.getLast? = some (pwExc pl, hd, s.hub.tb.strobes) := by
  refine accepts_of_run (c := feExcSet) rfl ht rfl (by decide) fun g hd hg => ⟨_, rfl, ?_, fun t h => ?_⟩
  · simp [Hub.onlyIn_iff, Hub.setExc]
  · have cfg : g.cfg = s.hub.cfg := hg .cfg (by decide)
    have fe : g.fe = s.hub.fe := hg .fe (by decide)
    have tb : g.tb = s.hub.tb := hg .tb (by decide)
    rw [show t.cfg = _ from h .cfg (by decide), show t.fe = _ from h .fe (by decide)]
    simp [Hub.setExc, CmdIn.of, cfg, fe, tb]

/-! ### Linearisation tables (R82) -/

theorem feLinWrite_answers (ht : s.takes feLinWrite mb tag pl = true) :
    Answers (.feLinWrite mb tag pl) s mb tag DONE [.fe] fun _ t => t.fe =
      { s.hub.fe with stage := s.hub.fe.stage.puts (64 * fld (pw pl 0) 4 0 + fld (pw pl 0) 13 8) ((List.range (fld (pw pl 0) 22 16)).map
        fun j => some (signed 32 (pw pl (1 + 2 * j)).toNat, signed 32 (pw pl (2 + 2 * j)).toNat)) } := by
  refine answers_of_run (c := feLinWrite) rfl ht rfl rfl rfl rfl (by decide) (by decide) ?_ fun t h => ?_
  · simp [Hub.onlyIn_iff, feLinWrite, CmdIn.of]
  · rw [show t.fe = _ from h .fe (by decide)]
    simp [feLinWrite, CmdIn.of]

/-- The commit empties the table's staged points: all 64 of them. -/
theorem feLinCommit_answers (ht : s.takes feLinCommit mb tag pl = true) :
    Answers (.feLinCommit mb tag pl) s mb tag DONE [.cfg, .fe] fun _ t => (t.cfg.fe.lin.get (fld (pw pl 0) 4 0)).xy =
      (s.hub.staged (fld (pw pl 0) 4 0) (fld (pw pl 0) 14 8)).filterMap id ∧
      t.fe.stage.gets (64 * fld (pw pl 0) 4 0) 64 = List.replicate 64 none := by
  refine answers_of_run (c := feLinCommit) rfl ht rfl rfl rfl rfl (by decide) (by decide) ?_ fun t h => ⟨?_, ?_⟩
  · simp [Hub.onlyIn_iff, feLinCommit, CmdIn.of]
  · rw [show t.cfg = _ from h .cfg (by decide)]
    simp [feLinCommit, CmdIn.of, Hub.staged]
  · rw [show t.fe = _ from h .fe (by decide)]
    have stage := Tab.gets_puts (List.replicate 64 none) s.hub.fe.stage (64 * fld (pw pl 0) 4 0)
    rw [List.length_replicate] at stage
    simpa [feLinCommit, CmdIn.of] using stage

theorem feLinRead_answers (ht : s.takes feLinRead mb tag pl = true) :
    Answers (.feLinRead mb tag pl) s mb tag DONE [.free] fun ws _ =>
      ws.getD 0 0 = wd (s.hub.cfg.fe.lin.get (fld (pw pl 0) 4 0)).xy.length ∧
      ∀ j p, j < fld (pw pl 0) 22 16 → (s.hub.cfg.fe.lin.get (fld (pw pl 0) 4 0)).xy[fld (pw pl 0) 13 8 + j]? = some p →
      ws.getD (1 + 2 * j) 0 = wdInt p.1 ∧ ws.getD (2 + 2 * j) 0 = wdInt p.2 := by
  refine answers_of_run (c := feLinRead) rfl ht rfl rfl rfl rfl (by decide) (by decide) ?_ fun t _ => ⟨?_, fun j p hj hp => ?_⟩
  · simp [Hub.onlyIn_iff, feLinRead, CmdIn.of]
  · simp [feLinRead, CmdIn.of]
  · simp only [feLinRead, CmdIn.of, Hub.executing_cfg, Nat.add_comm 1, show 2 + 2 * j = 2 * j + 1 + 1 by omega, List.getD_cons_succ]
    constructor
    · rw [← Nat.add_zero (2 * j), getD_flatMap_pair _ (fun j => by split <;> rfl) hj (by decide), hp]
      rfl
    · rw [getD_flatMap_pair _ (fun j => by split <;> rfl) hj (by decide), hp]
      rfl

/-! ### Fault queries (R83, R84) -/

theorem Hub.fault_executing (h : Hub) (c : CmdSpec) (m : Nat) (tag : Word) (pl : List Word) (ch : Nat) :
    (h.executing c m tag pl).fault ch = h.fault ch := by simp [Hub.fault]

/-- A bit of one of the four words of a mask of the 128 channels. -/
theorem bit_word_of_mask (x y : Nat) {n k : Nat} (hn : n < 4) (hk : k < 32) :
    bit ([wd x, wd (x / 2 ^ 32), wd (x / 2 ^ 64), wd (x / 2 ^ 96), wd y].getD n 0) k = x.testBit (32 * n + k) := by
  match n, hn with
  | 0, _ => simpa using bit_wd_div x 0 k hk
  | 1, _ => exact bit_wd_div x 32 k hk
  | 2, _ => exact bit_wd_div x 64 k hk
  | 3, _ => exact bit_wd_div x 96 k hk

theorem feFaultStatus_answers (ht : s.takes feFaultStatus mb tag pl = true) :
    Answers (.feFaultStatus mb tag pl) s mb tag DONE [] fun ws _ => ws.length = 5 ∧
      ∀ ch : Nat, ch < 128 → (bit (ws.getD (ch / 32) 0) (ch % 32) = true ↔ (s.hub.fault ch).inFault = true) := by
  refine answers_of_run (c := feFaultStatus) rfl ht rfl rfl rfl rfl (by decide) (by decide) (Hub.onlyIn_refl _ _)
    fun t _ => ⟨rfl, fun ch hc => ?_⟩
  simp only [feFaultStatus, bit_word_of_mask _ _ (show ch / 32 < 4 by omega) (Nat.mod_lt ch (by decide)), Nat.div_add_mod, testBit_maskOf]
  simp [hc, Hub.fault_executing]

theorem feFaultDetail_answers (ht : s.takes feFaultDetail mb tag pl = true) :
    Answers (.feFaultDetail mb tag pl) s mb tag DONE [] fun ws _ => ws = [wd (flag (s.hub.fault (fld (pw pl 0) 9 0)).inFault 0 +
      (s.hub.fault (fld (pw pl 0) 9 0)).pin * 2 + flag (s.hub.fault (fld (pw pl 0) 9 0)).above 3)] ++
      tWords (s.hub.fault (fld (pw pl 0) 9 0)).t ++ [wd (s.hub.fault (fld (pw pl 0) 9 0)).epoch,
      wd (sat32 (s.hub.fault (fld (pw pl 0) 9 0)).excursions), wd (s.hub.fault (fld (pw pl 0) 9 0)).declared] := by
  refine answers_of_run (c := feFaultDetail) rfl ht rfl rfl rfl rfl (by decide) (by decide) (Hub.onlyIn_refl _ _) fun t _ => ?_
  simp [feFaultDetail, CmdIn.of, Hub.fault_executing]

end

/-- Settles O21: each command has its lemma above, over the one path by which a mailbox answers or accepts. -/
theorem frontEndCommands : Obligations.FrontEndCommands := by
  unfold Obligations.FrontEndCommands
  exact ⟨fun _ _ _ _ ht => feFastSet_answers ht, fun _ _ _ _ ht => feScanSet_answers ht, fun _ _ _ _ ht => feExcSet_accepts ht,
    fun _ _ _ _ ht => feLinWrite_answers ht, fun _ _ _ _ ht => feLinCommit_answers ht, fun _ _ _ _ ht => feLinRead_answers ht,
    fun _ _ _ _ ht => feFaultStatus_answers ht, fun _ _ _ _ ht => feFaultDetail_answers ht⟩

end Sys2Proof.Machine

/-! PROOFS. Calibration commands (O22). -/
namespace Sys2Proof.Machine

/-- The policy that CAL_POLICY_SET gives its groups (R109). -/
def pwCalGroup (pl : List Word) : CalGroupCfg where
  suspend := fld (pw pl 0) 29 28 == 1
  avg := fld (pw pl 0) 27 24
  dt := fld (pw pl 0) 23 16
  maxInt := (pw pl 1).toNat
  xfade := fld (pw pl 2) 31 16
  stepInt := fld (pw pl 2) 15 0
  stepLimit := fld (pw pl 3) 13 0

/-- A policy goes to the group that is named, and for 15 to all eight. -/
theorem get_calPolicies (t : Tab CalGroupCfg) (k : CalGroupCfg) (n : Nat) {g : Nat} (hg : g < 8) :
    ((if n = 15 then List.range 8 else [n]).foldl (fun t g => t.put g k) t).get g = if n = 15 ∨ n = g then k else t.get g := by
  by_cases hn : n = 15
  · rw [if_pos hn, if_pos (.inl hn)]
    exact Tab.get_foldl_put (fun _ => k) _ t g (List.mem_range.mpr hg)
  · simp [hn, Tab.get_put, eq_comm]

section
variable {s : State} {mb : Fin 8} {tag : Word} {pl : List Word}

theorem calRefSet_answers (ht : s.takes calRefSet mb tag pl = true) :
    Answers (.calRefSet mb tag pl) s mb tag DONE [.cfg] fun _ t => t.cfg =
      { s.hub.cfg with cal := { s.hub.cfg.cal with ref := some ((pw pl 0).toNat, (pw pl 1).toNat), unc := (pw pl 2).toNat } } := by
  refine answers_of_run (c := calRefSet) rfl ht rfl rfl rfl rfl (by decide) (by decide) ?_ fun t h => ?_
  · simp [Hub.onlyIn_iff, calRefSet, CmdIn.of]
  · rw [show t.cfg = _ from h .cfg (by decide)]
    simp [calRefSet, CmdIn.of]

theorem calPolicySet_answers (ht : s.takes calPolicySet mb tag pl = true) :
    Answers (.calPolicySet mb tag pl) s mb tag DONE [.cfg] fun _ t => ∀ g : Nat, g < 8 → t.cfg.cal.groups.get g =
      if fld (pw pl 0) 3 0 = 15 ∨ fld (pw pl 0) 3 0 = g then pwCalGroup pl else s.hub.cfg.cal.groups.get g := by
  refine answers_of_run (c := calPolicySet) rfl ht rfl rfl rfl rfl (by decide) (by decide) ?_ fun t h g hg => ?_
  · simp [Hub.onlyIn_iff, calPolicySet, CmdIn.of]
  · rw [show t.cfg = _ from h .cfg (by decide), ← get_calPolicies _ _ _ hg]
    simp [calPolicySet, CmdIn.of, pwCalGroup]

theorem calRun_accepts (ht : s.takes calRun mb tag pl = true) :
    Accepts (.calRun mb tag pl) s mb tag [.cal] fun hd t => t.cal = { s.hub.cal with
      pending := (bitsOf (pw pl 0).toNat 8).map (fun g => (s.hub.cal.pending.find? (·.1 == g)).getD (g, 2)) ++
        s.hub.cal.pending.filter (fun p => !(bitsOf (pw pl 0).toNat 8).contains p.1)
      cmds := s.hub.cal.cmds ++ [{ handle := hd, left := bitsOf (pw pl 0).toNat 8, started := [], done := [], abandoned := [] }] } := by
  refine accepts_of_run (c := calRun) rfl ht rfl (by decide) fun g hd hg => ⟨_, rfl, ?_, fun t h => ?_⟩
  · simp [Hub.onlyIn_iff]
  · rw [show t.cal = _ from h .cal (by decide), show g.cal = s.hub.cal from hg .cal (by decide)]
    rfl

/-- What CAL_RESULT_READ answers: the record that is kept for the channel, if there is one (R111). -/
def calResultWords (r : Option CalRec) : List Word := r.elim [] fun r => wordsOf 14 (b2 0x10 ++ r.bytes)

theorem calResultRead_run (h : Hub) (c : CmdIn) : calResultRead.run h c =
    { hub := h, words := calResultWords (h.cal.result.get (calKey (fld (pw c.pl 0) 9 0) (fld (pw c.pl 0) 18 16))) } := by
  dsimp only [calResultRead]
  cases h.cal.result.get (calKey (fld (pw c.pl 0) 9 0) (fld (pw c.pl 0) 18 16)) <;> rfl

theorem calResultRead_answers (ht : s.takes calResultRead mb tag pl = true) :
    Answers (.calResultRead mb tag pl) s mb tag DONE [] fun ws _ => ∀ r,
      s.hub.cal.result.get (calKey (fld (pw pl 0) 9 0) (fld (pw pl 0) 18 16)) = some r → ws = wordsOf 14 (b2 0x10 ++ r.bytes) := by
  refine answers_of_run (c := calResultRead) rfl ht rfl (calResultRead_run _ _) rfl rfl (by decide) (by decide) (Hub.onlyIn_refl _ _)
    fun t _ r hr => ?_
  simp only [Hub.executing_cal, CmdIn.of, hr]
  rfl

end

/-- Settles O22: each command has its lemma above, over the one path by which a mailbox answers or accepts. -/
theorem calibrationCommands : Obligations.CalibrationCommands := by
  unfold Obligations.CalibrationCommands
  exact ⟨fun _ _ _ _ ht => calRefSet_answers ht, fun _ _ _ _ ht => calPolicySet_answers ht, fun _ _ _ _ ht => calRun_accepts ht,
    fun _ _ _ _ ht => calResultRead_answers ht⟩

end Sys2Proof.Machine

/-! PROOFS. Modulator codes that no converter gives (O54). -/
namespace Sys2Proof.Machine

/-- A measurement with a code wider than the converter stops the command: no pin can spell it (log entry 9). -/
theorem exec_calMeasureDone_badCode (s : State) {zero plus minus : List Int} (ovrZero ovrVc : Bool)
    (hc : (zero ++ plus ++ minus).all codeOk = false) :
    exec (.calMeasureDone zero plus minus ovrZero ovrVc) s = .fault .badOperand :=
  if_neg (ne_true_of_eq_false hc)

/-- A hub that runs and calibrates nothing. -/
def idleCalibration : State where
  pending := []
  hub := { sys := { power := .run } }

/-- Refutes O54: the clauses on CAL_MEASURE_DONE take every list of integers, but a modulator's code has 4 bits (R19)
and a wider one stops the command. So the clause without a run, which concludes a next state, fails on a code 9 of ZERO. -/
theorem not_calibrationRows : ¬ Obligations.CalibrationRows := by
  unfold Obligations.CalibrationRows
  rintro ⟨-, -, -, -, -, -, -, -, withoutRun, -⟩
  obtain ⟨t, ht, -⟩ := withoutRun idleCalibration [9] [] [] false false (by decide) (by decide)
  rw [exec_calMeasureDone_badCode idleCalibration false false (by decide)] at ht
  exact absurd ht nofun

end Sys2Proof.Machine

/-! PROOFS. Filter commands (O23). -/
namespace Sys2Proof.Machine

section
variable {s : State} {mb : Fin 8} {tag : Word} {pl : List Word}

/-! ### Profiles and banks (R155 to R158) -/

theorem fltProfileSet_answers (ht : s.takes fltProfileSet mb tag pl = true) :
    Answers (.fltProfileSet mb tag pl) s mb tag DONE [.cfg] fun _ t =>
      t.cfg.flt.profiles = s.hub.cfg.flt.profiles.put (fld (pw pl 0) 4 0) (some (pwProfile pl)) ∧
      t.cfg = { s.hub.cfg with flt := { s.hub.cfg.flt with profiles := t.cfg.flt.profiles, banks := t.cfg.flt.banks } } := by
  refine answers_of_run (c := fltProfileSet) rfl ht rfl rfl rfl rfl (by decide) (by decide) ?_ fun t h => ?_
  · simp [Hub.onlyIn_iff, fltProfileSet, CmdIn.of]
  · rw [show t.cfg = _ from h .cfg (by decide)]
    simp [fltProfileSet, CmdIn.of]

theorem Hub.bank_executing (h : Hub) (c : CmdSpec) (m : Nat) (tag : Word) (pl : List Word) (p b : Nat) :
    (h.executing c m tag pl).bank p b = h.bank p b := by simp [Hub.bank]

theorem Hub.setBank_onlyIn (h : Hub) (p b : Nat) (k : Bank) : h.onlyIn [.cfg] (h.setBank p b k) := by
  simp [Hub.onlyIn_iff, Hub.setBank]

theorem fltCoefWrite_answers (ht : s.takes fltCoefWrite mb tag pl = true) :
    Answers (.fltCoefWrite mb tag pl) s mb tag DONE [.cfg] fun _ t => t.cfg.flt.banks =
      s.hub.cfg.flt.banks.put (4 * fld (pw pl 0) 4 0 + fld (pw pl 0) 6 5)
        { image := (s.hub.bank (fld (pw pl 0) 4 0) (fld (pw pl 0) 6 5)).image.puts (fld (pw pl 0) 23 16) (pl.drop 1), committed := false } := by
  refine answers_of_run (c := fltCoefWrite) rfl ht rfl rfl rfl rfl (by decide) (by decide) (Hub.setBank_onlyIn _ _ _ _) fun t h => ?_
  rw [show t.cfg = _ from h .cfg (by decide)]
  simp [fltCoefWrite, CmdIn.of, Hub.setBank, Hub.bank_executing]

theorem fltCoefCommit_answers (ht : s.takes fltCoefCommit mb tag pl = true) :
    Answers (.fltCoefCommit mb tag pl) s mb tag DONE [.cfg] fun _ t =>
      (t.bank (fld (pw pl 0) 4 0) (fld (pw pl 0) 6 5)).committed = true ∧
      (t.bank (fld (pw pl 0) 4 0) (fld (pw pl 0) 6 5)).image = (s.hub.bank (fld (pw pl 0) 4 0) (fld (pw pl 0) 6 5)).image := by
  refine answers_of_run (c := fltCoefCommit) rfl ht rfl rfl rfl rfl (by decide) (by decide) (Hub.setBank_onlyIn _ _ _ _) fun t h => ?_
  unfold Hub.bank
  rw [show t.cfg = _ from h .cfg (by decide)]
  simp [fltCoefCommit, CmdIn.of, Hub.setBank, Hub.bank]

theorem Hub.swapBegin_of_onlyIn {h g : Hub} {cs : List Chapter} (ho : h.onlyIn cs g) (hc : .cfg ∉ cs) (ht : .tb ∉ cs) (p b handle : Nat) :
    g.swapBegin p b handle = h.swapBegin p b handle := by
  have cfg : g.cfg = h.cfg := ho .cfg hc
  have tb : g.tb = h.tb := ho .tb ht
  simp [Hub.swapBegin, Hub.activeBank, cfg, tb]

/-- A request for another bank than the active one, with none current, becomes the current one (R122, R123). -/
theorem fltBankSwap_accepts (ht : s.takes fltBankSwap mb tag pl = true)
    (hn : s.hub.swapNow (fld (pw pl 0) 4 0) (fld (pw pl 0) 6 5) = false) (hc : (s.hub.flt.swap.get (fld (pw pl 0) 4 0)).cur = none) :
    Accepts (.fltBankSwap mb tag pl) s mb tag [.flt] fun hd t => (t.flt.swap.get (fld (pw pl 0) 4 0)).cur =
      (s.hub.swapBegin (fld (pw pl 0) 4 0) (fld (pw pl 0) 6 5) hd).cur := by
  have now : ∀ g, s.hub.onlyIn [.host] g → g.swapNow (fld (pw pl 0) 4 0) (fld (pw pl 0) 6 5) = false := by
    intro g hg
    have cfg : g.cfg = s.hub.cfg := hg .cfg (by decide)
    have flt : g.flt = s.hub.flt := hg .flt (by decide)
    rw [← hn]
    simp [Hub.swapNow, Hub.activeBank, cfg, flt]
  refine accepts_of_run (c := fltBankSwap) rfl ht ?_ (by decide) fun g hd hg => ?_
  · change (!Hub.swapNow _ (fld (pw pl 0) 4 0) (fld (pw pl 0) 6 5)) = true
    rw [now _ (Hub.executing_onlyIn _ _ _ _ _)]
    rfl
  · have flt : g.flt = s.hub.flt := hg .flt (by decide)
    refine ⟨g.setSwap (fld (pw pl 0) 4 0) (g.swapBegin (fld (pw pl 0) 4 0) (fld (pw pl 0) 6 5) hd), ?_, ?_, fun t h => ?_⟩
    · simp [fltBankSwap, CmdIn.of, now g hg, flt, hc]
    · simp [Hub.onlyIn_iff, Hub.setSwap]
    · rw [show t.flt = _ from h .flt (by decide)]
      simp [Hub.setSwap, Hub.swapBegin_of_onlyIn hg (by decide) (by decide)]

/-! ### Channels and synchronising resets (R159, R160) -/

theorem fltChanSet_answers (ht : s.takes fltChanSet mb tag pl = true) :
    Answers (.fltChanSet mb tag pl) s mb tag DONE [.cfg, .flt] fun _ t =>
      t.cfg.flt.chans.get (fld (pw pl 0) 9 0) = some (pwChan pl) ∧ ∀ ch : Nat, ch ≠ fld (pw pl 0) 9 0 →
      t.cfg.flt.chans.get ch = s.hub.cfg.flt.chans.get ch ∧ t.chain ch = s.hub.chain ch := by
  refine answers_of_run (c := fltChanSet) rfl ht rfl rfl rfl rfl (by decide) (by decide) ?_ fun t h => ?_
  · simp [Hub.onlyIn_iff, fltChanSet, CmdIn.of, Hub.setChain]
  · unfold Hub.chain
    rw [show t.cfg = _ from h .cfg (by decide), show t.flt = _ from h .flt (by decide)]
    simp +contextual [fltChanSet, CmdIn.of, Hub.setChain]

theorem fltSync_accepts (ht : s.takes fltSync mb tag pl = true) :
    Accepts (.fltSync mb tag pl) s mb tag [.flt] fun hd t => t.flt =
      { s.hub.flt with sync := s.hub.flt.sync ++ [{ mask := mask64 (pw pl 0) (pw pl 1), handle := hd, since := s.hub.tb.strobes }] } := by
  refine accepts_of_run (c := fltSync) rfl ht rfl (by decide) fun g hd hg => ⟨_, rfl, ?_, fun t h => ?_⟩
  · simp [Hub.onlyIn_iff]
  · rw [show t.flt = _ from h .flt (by decide), show g.flt = s.hub.flt from hg .flt (by decide), show g.tb = s.hub.tb from hg .tb (by decide)]
    rfl

/-! ### Delays (R161) -/

theorem Hub.geo_executing (h : Hub) (c : CmdSpec) (m : Nat) (tag : Word) (pl : List Word) (ch : Nat) :
    (h.executing c m tag pl).geo ch = h.geo ch := by
  obtain ⟨_, e⟩ := h.executing_frame c m tag pl
  rw [e]
  rfl

@[simp] theorem length_durWords (x : Fr) : (durWords x).length = 2 := rfl
@[simp] theorem length_freeWords (n : Nat) : (freeWords n).length = 2 := rfl

/-- What FLT_DELAY_READ does: it names free values, its answer has 14 words, and a channel with an input reports the delays of its profile. -/
theorem fltDelayRead_run (h : Hub) (c : CmdIn) : ∃ n ws, fltDelayRead.run h c = { hub := { h with free := n }, words := ws } ∧
    ws.length = 14 ∧ ∀ g, h.geo (fld (pw c.pl 0) 9 0) = some g → ws.take 4 = durWords (g.2.1.tauC g.2.2) ++ durWords (g.2.1.w g.2.2) := by
  dsimp only [fltDelayRead]
  split
  · next hg hp =>
    refine ⟨_, _, rfl, ?_, by simp [hg]⟩
    simp only [List.length_append]
    split_ifs <;> (split <;> simp)
  · next hg hp => exact ⟨_, _, rfl, rfl, by simp [hg]⟩
  · next hg =>
    refine ⟨_, _, rfl, ?_, ?_⟩
    · simp only [List.length_append]
      split <;> simp
    · rw [hg]
      rintro g ⟨⟩
      rfl

theorem fltDelayRead_answers (ht : s.takes fltDelayRead mb tag pl = true) :
    Answers (.fltDelayRead mb tag pl) s mb tag DONE [.free] fun ws _ => ws.length = 14 ∧ ∀ g, s.hub.geo (fld (pw pl 0) 9 0) = some g →
      ws.take 4 = durWords (g.2.1.tauC g.2.2) ++ durWords (g.2.1.w g.2.2) := by
  obtain ⟨n, ws, run, length, delays⟩ := fltDelayRead_run (s.hub.executing fltDelayRead mb tag pl) (.of mb tag pl 0)
  refine answers_of_run (c := fltDelayRead) rfl ht rfl run rfl rfl (by decide) (by decide) ?_ fun t _ => ⟨length, ?_⟩
  · simp [Hub.onlyIn_iff]
  · simpa [Hub.geo_executing, CmdIn.of] using delays

end

/-- Settles O23: each command has its lemma above, over the one path by which a mailbox answers or accepts. -/
theorem filterCommands : Obligations.FilterCommands := by
  unfold Obligations.FilterCommands
  exact ⟨fun _ _ _ _ ht => fltProfileSet_answers ht, fun _ _ _ _ ht => fltCoefWrite_answers ht, fun _ _ _ _ ht => fltCoefCommit_answers ht,
    fun _ _ _ _ ht hn hc => fltBankSwap_accepts ht hn hc, fun _ _ _ _ ht => fltChanSet_answers ht, fun _ _ _ _ ht => fltSync_accepts ht,
    fun _ _ _ _ ht => fltDelayRead_answers ht⟩

end Sys2Proof.Machine

/-! PROOFS. The time-interval unit (O52). -/
namespace Sys2Proof.Machine

theorem Hub.tiu_of_onlyIn {h g : Hub} {cs : List Chapter} (ho : h.onlyIn cs g) (hc : .tiu ∉ cs) : g.tiu = h.tiu := ho .tiu hc

theorem Hub.onlyIn_tiu (h : Hub) (x : TiuSt) : h.onlyIn [.tiu] { h with tiu := x } := by simp [Hub.onlyIn_iff]

/-! ### Results and counts (R287, R288, R292) -/

/-- From `h` to `g` interval units and inputs gave results: starts, stops, counters and queues may differ, and what landed. -/
structure Hub.Measures (h g : Hub) : Prop where
  only : h.onlyIn [.host, .evt, .jrn, .sto, .tiu, .tx] g
  tiu : g.tiu = { h.tiu with held := g.tiu.held, lastStop := g.tiu.lastStop, replaced := g.tiu.replaced, seq := g.tiu.seq,
                             queues := g.tiu.queues, counts := g.tiu.counts, gates := g.tiu.gates, landed := g.tiu.landed }

theorem Hub.Measures.refl (h : Hub) : h.Measures h := ⟨h.onlyIn_refl _, rfl⟩

theorem Hub.Measures.trans {h g t : Hub} (hg : h.Measures g) (gt : g.Measures t) : h.Measures t :=
  ⟨Hub.onlyIn_trans hg.only gt.only, gt.tiu.trans (by rw [hg.tiu])⟩

theorem Hub.Measures.foldl {α : Type} {f : Hub → α → Hub} (hf : ∀ (g : Hub) a, g.Measures (f g a)) (l : List α) (h : Hub) :
    h.Measures (l.foldl f h) := by
  induction l generalizing h with
  | nil => exact .refl h
  | cons a l ih => exact (hf h a).trans (ih _)

/-- A write of what may differ. -/
theorem Hub.measures_tiu (h : Hub) (x : TiuSt)
    (hx : x = { h.tiu with held := x.held, lastStop := x.lastStop, replaced := x.replaced, seq := x.seq, queues := x.queues,
                           counts := x.counts, gates := x.gates, landed := x.landed }) : h.Measures { h with tiu := x } :=
  ⟨Hub.onlyIn_mono (h.onlyIn_tiu x) (by decide), hx⟩

theorem Hub.Measures.of_tiu {h t : Hub} {x : TiuSt} (ht : ({ h with tiu := x } : Hub).Measures t)
    (hx : x = { h.tiu with held := x.held, lastStop := x.lastStop, replaced := x.replaced, seq := x.seq, queues := x.queues,
                           counts := x.counts, gates := x.gates, landed := x.landed }) : h.Measures t :=
  (h.measures_tiu x hx).trans ht

theorem Hub.Lands.measures {h g : Hub} (hg : h.Lands g) : h.Measures g :=
  ⟨Hub.onlyIn_mono hg.only (by decide), by rw [show g.tiu = h.tiu from hg.only .tiu (by decide)]⟩

theorem Hub.tiuCount_measures (h : Hub) (s i : Nat) : h.Measures (h.tiuCount s i) := h.measures_tiu _ rfl
theorem Hub.tiuUncount_measures (h : Hub) (s i : Nat) : h.Measures (h.tiuUncount s i) := h.measures_tiu _ rfl
theorem Hub.setHeld_measures (h : Hub) (u : Nat) (s : Option Stamp) : h.Measures (h.setHeld u s) := h.measures_tiu _ rfl
theorem Hub.setStop_measures (h : Hub) (u : Nat) (s : Option Stamp) : h.Measures (h.setStop u s) := h.measures_tiu _ rfl
theorem Hub.setReplaced_measures (h : Hub) (u : Nat) (s : Option Stamp) : h.Measures (h.setReplaced u s) := h.measures_tiu _ rfl
theorem Hub.gateCount_measures (h : Hub) (i : Nat) (x : Option Stamp) : h.Measures (h.gateCount i x) := h.measures_tiu _ rfl
theorem Hub.iuForget_measures (h : Hub) (u : Nat) : h.Measures (h.iuForget u) := h.measures_tiu _ rfl

theorem Hub.tiuLand_measures (h : Hub) (src : Nat) (s : Stamp) (e : List Byte) : h.Measures (h.tiuLand src s e) := by
  unfold Hub.tiuLand
  extract_lets sec l n
  split
  · exact h.tiuCount_measures src cSKIPPED
  · exact .of_tiu (Hub.land_lands _ _ _ _ _ _ _).measures rfl

theorem Hub.tiuResult_measures (h : Hub) (src q flags : Nat) (s : Stamp) (interval : Nat) (land : Bool) :
    h.Measures (h.tiuResult src q flags s interval land) := by
  unfold Hub.tiuResult
  dsimp only
  split
  · exact .of_tiu (Hub.tiuLand_measures _ _ _ _) rfl
  · exact h.measures_tiu _ rfl

theorem Hub.iuResult_measures (h : Hub) (u : Nat) (a b : Stamp) (d : Int) : h.Measures (h.iuResult u a b d) := by
  unfold Hub.iuResult
  exact (((h.setHeld_measures u none).trans (Hub.setStop_measures _ u none)).trans (Hub.setReplaced_measures _ u none)).trans
    (Hub.tiuResult_measures ..)

theorem Hub.iuPair_measures (h : Hub) (u : Nat) (a s : Stamp) : h.Measures (h.iuPair u a s) := by
  unfold Hub.iuPair
  extract_lets c d
  split_ifs
  · exact h.tiuCount_measures _ _
  · exact ((h.tiuCount_measures _ _).trans (Hub.iuForget_measures _ u)).trans (Hub.tiuCount_measures _ _ _)
  · exact h.iuResult_measures u a s d

theorem Hub.iuStart_measures (h : Hub) (u : Nat) (s : Stamp) : h.Measures (h.iuStart u s) := by
  unfold Hub.iuStart
  split
  · exact ((h.tiuCount_measures _ _).trans (Hub.setHeld_measures _ u _)).trans (Hub.setReplaced_measures _ u _)
  · split
    · have held := (h.setStop_measures u none).trans (Hub.setHeld_measures _ u (some s))
      have uncounted := held.trans (Hub.tiuUncount_measures _ (8 + u) cORPHAN)
      extract_lets _ d
      split_ifs
      · exact uncounted.trans (Hub.iuPair_measures ..)
      · exact uncounted.trans (Hub.iuResult_measures ..)
      · exact held
    · exact h.setHeld_measures u _

theorem Hub.iuStop_measures (h : Hub) (u : Nat) (s : Stamp) : h.Measures (h.iuStop u s) := by
  unfold Hub.iuStop
  split
  · exact (h.tiuCount_measures _ _).trans (Hub.setStop_measures _ u _)
  · next a _ =>
    extract_lets d
    split_ifs
    · exact h.iuPair_measures u a s
    · exact h.iuResult_measures u a s 0
    · split
      · next b _ =>
        split_ifs
        · exact h.tiuCount_measures _ _
        · have paired := ((h.tiuUncount_measures (8 + u) cRESTART).trans (Hub.setHeld_measures _ u (some b))).trans
            (Hub.iuPair_measures _ u b s)
          extract_lets r r' early r''
          have kept : r'.Measures r'' := by
            unfold r''
            split
            · exact r'.tiuCount_measures _ _
            · exact r'.setReplaced_measures u none
          exact (paired.trans kept).trans (Hub.setHeld_measures _ u _)
      · exact h.tiuCount_measures _ _

theorem Hub.iuEdge_measures (h : Hub) (i : Nat) (falling : Bool) (s : Stamp) : h.Measures (h.iuEdge i falling s) := by
  refine .foldl (fun g u => ?_) _ h
  extract_lets c
  split_ifs
  · exact .refl g
  · exact g.iuStart_measures u s
  · exact g.iuStop_measures u s
  · exact .refl g

/-! ### Edges on the inputs (R277, R280, R284, R285) -/

theorem Hub.prescale_one (h : Hub) {i : Nat} (hp : (h.tiuIn i).presc = 0) : h.prescale i = (h, true) := by
  simp [Hub.prescale, hp]

/-- The edge stamped `s` is the last of source `i`. -/
def Hub.edgeStamped (h : Hub) (i : Nat) (s : Stamp) : Hub := { h with tiu := { h.tiu with lastEdge := h.tiu.lastEdge.put i (some s) } }

/-- A stamp of a pulse is on its way to the filter engines. -/
def Hub.tachIn (h : Hub) (i : Nat) (raw s : Stamp) : Hub :=
  { h with tiu := { h.tiu with tach := h.tiu.tach ++ [(i, s.t, h.tiu.tachCut.contains i)], tachCut := h.tiu.tachCut.filter (· != i)
                               lastPulse := h.tiu.lastPulse.put i (some raw) } }

/-- What a stamp that has entered the FIFO gives: a count in the gates of its input, intervals, and in STAMP mode a result. -/
def Hub.edgeGives (h : Hub) (i : Nat) (falling : Bool) (s : Stamp) (c : TiuInCfg) : Hub :=
  let g := (h.gateCount i (some s)).iuEdge i falling s
  if c.mode = 2 then g.tiuResult i c.rq (flag s.spare 1 + flag falling 2) s 0 c.land else g

theorem Hub.edgeGives_measures (h : Hub) (i : Nat) (falling : Bool) (s : Stamp) (c : TiuInCfg) : h.Measures (h.edgeGives i falling s c) := by
  have edges := (h.gateCount_measures i (some s)).trans (Hub.iuEdge_measures _ i falling s)
  unfold Hub.edgeGives
  dsimp only
  split
  · exact edges.trans (Hub.tiuResult_measures ..)
  · exact edges

/-- What the row does with an edge that its input takes: the stamp enters the FIFO, or the FIFO has no room for it. -/
def Hub.edgeTaken (h : Hub) (i : Nat) (falling : Bool) (raw s : Stamp) (c : TiuInCfg) : Hub :=
  let b := (h.edgeStamped i raw).fifoTake i (if c.mode = 3 then 512 else 448)
  if !b.2 then
    let g := b.1.gateCount i none
    if c.mode = 3 then g.tachBreak i else g
  else
    let g := b.1.edgeGives i falling s c
    if c.mode = 3 then g.tachIn i raw s else g

section
variable {h : Hub} {i : Nat} {falling : Bool}

/-- An input without a prescaler takes the first edge of its kind. -/
theorem tiuEdge_eq_edgeTaken (tap drained : Nat) (hh : h.clk.held = false) (hc : h.tiu.calAll = false) (hm : (h.tiuIn i).mode ≠ 0)
    (hl : i ∉ h.tiu.lost) (he : (h.tiuIn i).edge = 2 ∨ ((h.tiuIn i).edge == 1) = falling) (hs : h.tiu.lastEdge.get i = none)
    (hp : h.tiu.lastPulse.get i = none) (hr : (h.tiuIn i).presc = 0) : tiuEdge i falling tap drained h =
      (h.fifoDrain drained).edgeTaken i falling (h.mkStamp i tap 0) (h.mkStamp i tap (h.tiuIn i).dly) (h.tiuIn i) := by
  have takes : ((h.fifoDrain drained).clk.held || (h.fifoDrain drained).tiu.calAll || (h.tiuIn i).mode == 0 ||
      (h.fifoDrain drained).tiu.lost.contains i || !((h.tiuIn i).edge == 2 || ((h.tiuIn i).edge == 1) == falling)) = false := by
    have edge : ((h.tiuIn i).edge == 2 || ((h.tiuIn i).edge == 1) == falling) = true := by
      rcases he with e | e <;> simp [e]
    simp [Hub.fifoDrain, hh, hc, hm, hl, edge]
  have first : ∀ (s : Stamp) (n per : Nat), s.within none n per = false := fun _ _ _ => rfl
  unfold tiuEdge
  dsimp only
  rw [if_neg (ne_true_of_eq_false takes), Hub.prescale_one (h.fifoDrain drained) hr,
    show (h.fifoDrain drained).tiu.lastPulse.get i = none from hp, show (h.fifoDrain drained).tiu.lastEdge.get i = none from hs, first, first,
    Bool.and_false, if_neg (by simp), if_neg (by decide), if_neg (by decide)]
  have same : ∀ (tap : Nat) (dly : Int), (h.fifoDrain drained).mkStamp i tap dly = h.mkStamp i tap dly := fun _ _ => rfl
  unfold Hub.edgeTaken Hub.edgeGives Hub.edgeStamped Hub.tachIn
  rw [same, same]
  by_cases h2 : (h.tiuIn i).mode = 2
  · simp [h2]
  · simp [h2]

/-- The FIFO with one entry more. -/
def Hub.fifoIn (h : Hub) : Hub := { h with tiu := { h.tiu with fifo := h.tiu.fifo + 1 } }

theorem Hub.fifoTake_room {h : Hub} {n : Nat} (s : Nat) (hn : h.tiu.fifo < n) : h.fifoTake s n = (h.fifoIn, true) := if_neg (by omega)

theorem Hub.fifoTake_full {h : Hub} {n : Nat} (s : Nat) (hn : n ≤ h.tiu.fifo) :
    h.fifoTake s n = ((h.tiuCount s cOVERFLOW).fifoOverflow, false) := if_pos hn

theorem Hub.edgeTaken_room {raw s : Stamp} {c : TiuInCfg} (hf : h.tiu.fifo < 448) : h.edgeTaken i falling raw s c =
    if c.mode = 3 then ((h.edgeStamped i raw).fifoIn.edgeGives i falling s c).tachIn i raw s
    else (h.edgeStamped i raw).fifoIn.edgeGives i falling s c := by
  have room : (h.edgeStamped i raw).tiu.fifo < if c.mode = 3 then 512 else 448 := by
    change h.tiu.fifo < _
    split <;> omega
  unfold Hub.edgeTaken
  dsimp only
  rw [Hub.fifoTake_room i room]
  rfl

theorem Hub.fifoOverflow_first {h : Hub} (ho : h.tiu.overflowRaised = false) :
    h.fifoOverflow = ({ h with tiu := { h.tiu with overflowRaised := true } }).raise 50 [] := if_neg (ne_true_of_eq_false ho)

/-- A stamp that meets a full FIFO is discarded and counted, and TIU_OVERFLOW raised. -/
theorem Hub.edgeTaken_full {raw s : Stamp} {c : TiuInCfg} (hm : c.mode ≠ 3) (hf : 448 ≤ h.tiu.fifo) :
    h.edgeTaken i falling raw s c = (((h.edgeStamped i raw).tiuCount i cOVERFLOW).fifoOverflow).gateCount i none := by
  unfold Hub.edgeTaken
  dsimp only
  rw [if_neg hm, Hub.fifoTake_full i (by exact hf), if_pos (by simp), if_neg hm]

theorem tiuEdge_idle (tap drained : Nat) (hi : (h.tiuIn i).mode = 0 ∨ h.clk.held = true) :
    tiuEdge i falling tap drained h = h.fifoDrain drained := by
  unfold tiuEdge
  exact if_pos (by rcases hi with e | e <;> simp [Hub.fifoDrain, e])

end

theorem iuWinTimeout_forgets {h : Hub} {u : Nat} {z : Stamp} (hz : h.tiu.held.get u = some z)
    (hw : (h.tiuUnit u).winMax * 2 ^ 40 ≤ (cyc40 h.tb.cycles - z.free) * 1000000000) :
    iuWinTimeout u h = (h.tiuCount (8 + u) cTIMEOUT).iuForget u := by
  unfold iuWinTimeout
  rw [hz]
  exact if_pos hw

/-! ### Frequency gates (R289) -/

/-- The gate that ends leaves, with any other of its input, and completes. -/
theorem tiuFreqGateEnd_ends {h : Hub} {i : Nat} {g : Gate}
    (hg : h.tiu.gates.find? (fun x => x.input == i && decide (x.cyc + x.ms * 122880 ≤ h.tb.cycles)) = some g)
    (hl : ∀ x ∈ h.tiu.gates, x.land = false) : ∃ handle status ws, tiuFreqGateEnd i h =
      ({ h.slewNote with tiu := { h.slewNote.tiu with gates := h.slewNote.tiu.gates.filter (·.input != i) } } : Hub).complete handle status ws := by
  have land : ((h.slewNote.tiu.gates.find? (·.input == i)).getD g).land = false := by
    cases hf : h.slewNote.tiu.gates.find? (·.input == i) with
    | none => exact hl g (List.mem_of_find?_eq_some hg)
    | some x =>
      obtain ⟨y, hy, rfl⟩ := List.mem_map.mp (List.mem_of_find?_eq_some hf)
      exact hl y hy
  unfold tiuFreqGateEnd
  rw [hg]
  dsimp only
  rw [land]
  split
  · exact ⟨_, _, _, rfl⟩
  · exact ⟨_, _, _, rfl⟩

theorem Hub.slewNote_gates_filter (h : Hub) (i : Nat) :
    (h.slewNote.tiu.gates.filter (·.input != i)).length = (h.tiu.gates.filter (·.input != i)).length := by
  simp only [Hub.slewNote, List.filter_map, List.length_map]
  rfl

/-! ### Lines and their calibration (R281 to R283) -/

/-- The line that serves each source when line `n` serves source `s`. -/
theorem Hub.tiuLine_put {h g : Hub} {s n : Nat} (e : g.tiu.line = h.tiu.line.put s (if n = s then 0 else n + 1)) (k : Nat) :
    g.tiuLine k = if k = s then n else h.tiuLine k := by
  unfold Hub.tiuLine
  rw [e, Tab.get_put]
  by_cases hk : k = s
  · subst hk
    by_cases hn : n = k <;> simp [hn]
  · simp [hk]

/-- A handover that ends: where every pair agrees, line `n` serves the source, and a line that the spare replaces is to be calibrated. -/
theorem tiuHandoverDone_ends {h : Hub} {pairs : List PairedStamp} {k n : Nat} {back : Bool} (hh : h.clk.held = false)
    (ho : h.tiu.handover = some (k, back)) (hp : pairs.length < 1024 → h.tiu.handoverAt + 49152 ≤ h.xoCycles)
    (hn : n = if back then k else 10) : tiuHandoverDone pairs h =
      { h with tiu := { h.tiu with
          handover := none
          line := if pairs.all (h.pairAgrees (h.tiuLine k) n) = true then h.tiu.line.put k (if n = k then 0 else n + 1) else h.tiu.line
          calLine := if pairs.all (h.pairAgrees (h.tiuLine k) n) = true ∧ back = false then some k else h.tiu.calLine } } := by
  unfold tiuHandoverDone
  rw [hh, if_neg (by decide), ho]
  dsimp only
  rw [if_neg (by omega), ← hn]
  cases hag : pairs.all (h.pairAgrees (h.tiuLine k) n)
  · simp
  · cases back
    · subst hn
      simp [Hub.setLine]
    · subst hn
      simp [Hub.setLine]

theorem tiuHandoverDone_early {h : Hub} {pairs : List PairedStamp} (hp : pairs.length < 1024) (hx : h.xoCycles < h.tiu.handoverAt + 49152) :
    tiuHandoverDone pairs h = h := by
  unfold tiuHandoverDone
  split
  · rfl
  · exact if_pos ⟨hp, hx⟩

theorem tiuHandoverDone_idle {h : Hub} (pairs : List PairedStamp) (hi : h.clk.held = true ∨ h.tiu.handover = none) :
    tiuHandoverDone pairs h = h := by
  unfold tiuHandoverDone
  have : (if h.clk.held then none else h.tiu.handover) = none := by rcases hi with e | e <;> simp [e]
  rw [this]

theorem tiuCalTimer_starts {h : Hub} (hh : h.clk.held = false) (hc : h.tiu.calAll = false) (hn : h.tiu.noSpare = false)
    (ho : h.tiu.handover = none) (hl : h.tiu.calLine = none) (hs : ∀ k < 10, h.tiuLine k ≠ 10)
    (hp : h.passed h.tiu.calAt (h.tiu.calUse * 4915200) = true) : tiuCalTimer h =
      { h with tiu := { h.tiu with handover := some (h.tiu.nextCal % 10, false), handoverAt := h.xoCycles, nextCal := (h.tiu.nextCal + 1) % 10,
                                   calAt := some h.xoCycles, calUse := h.cfg.tiu.calInt } } := by
  have own : (List.range 10).find? (fun s => h.tiuLine s == 10) = none := by
    simpa using hs
  unfold tiuCalTimer
  rw [if_neg (by simp [hh, hc, hn, ho, hl]), own]
  exact if_pos hp

theorem tiuCalDone_line {h : Hub} {k : Nat} (hits : List (List Nat)) (hh : h.clk.held = false) (hc : h.tiu.calAll = false)
    (hl : h.tiu.calLine = some k) : tiuCalDone hits h =
      let g : Hub := { h with tiu := { h.tiu with calLine := none } }
      if lineGood (hits.headD []) then (g.tiuLineCal k (hits.headD [])).handoverStart k true else g.tiuLineFail k := by
  unfold tiuCalDone
  rw [hh, hc, hl]
  rfl

theorem tiuLineFail_lost {h : Hub} {k : Nat} (hk : k ≠ 10) (hn : h.tiu.noSpare = true) : h.tiuLineFail k =
    { h.raise 51 [] with tiu := { h.tiu with failed := h.tiu.failed ++ [k], lost := h.tiu.lost ++ [k] } } := by
  unfold Hub.tiuLineFail
  simp [hk, hn]

/-- The taps of the lines `ls` when each has been calibrated with its hits. -/
def calTaps (hits : List (List Nat)) (ls : List Nat) (t : Tab (List Nat)) : Tab (List Nat) := ls.foldl (fun t l => t.put l (tapSums (hits.getD l []))) t

/-- The calibration of every line together gives each its taps. -/
theorem Hub.tiuCalAll_good {h : Hub} {hits : List (List Nat)} (hf : h.tiu.failed = []) (hg : ∀ l < 11, lineGood (hits.getD l []) = true) :
    h.tiuCalAll hits = { h with tiu := { h.tiu with calAll := false, taps := calTaps hits (List.range 11) h.tiu.taps } } := by
  have lines : ∀ (ls : List Nat) (g : Hub), (∀ l ∈ ls, l < 11) → g.tiu.failed = [] →
      ls.foldl (fun h l => if h.tiu.failed.contains l then h else h.tiuLineCal l (hits.getD l [])) g =
        { g with tiu := { g.tiu with taps := calTaps hits ls g.tiu.taps } } := by
    intro ls
    induction ls with
    | nil => exact fun _ _ _ => rfl
    | cons l ls ih =>
      intro g hl hg'
      rw [List.foldl_cons, hg', if_neg (by simp), Hub.tiuLineCal, if_pos (hg l (hl l (by simp))),
        ih _ (fun k hk => hl k (by simp [hk])) (by exact hg')]
      rfl
  exact lines _ _ (fun l hl => List.mem_range.mp hl) hf

/-! ### Tachometer stamps (R130, R285) -/

theorem tachPulse_onlyIn (i : Nat) (t : T64) (h : Hub) : h.onlyIn [.flt] (tachPulse i t h) := by
  refine Hub.onlyIn_foldl (fun g ch => ?_) _ h
  have chan : ∀ (c : ChanCfg) (x : Geo), g.onlyIn [.flt] (g.tachChan ch c x t) := by
    intro c x
    unfold Hub.tachChan
    dsimp only
    split
    · exact g.setChain_onlyIn _ _
    · split <;> exact g.setChain_onlyIn _ _
  split
  · split
    · split
      · split
        · exact chan _ _
        · exact g.onlyIn_refl _
      · exact g.onlyIn_refl _
    · exact g.onlyIn_refl _
  · exact g.onlyIn_refl _

theorem Hub.orderBreak_onlyIn (h : Hub) (i : Nat) : h.onlyIn [.flt] (h.orderBreak i) := by
  refine Hub.onlyIn_foldl (fun g ch => ?_) _ h
  split_ifs
  · dsimp only
    split
    · exact g.setChain_onlyIn _ _
    · exact g.onlyIn_refl _
  · exact g.onlyIn_refl _

theorem Hub.tachTake_onlyIn (h : Hub) (x : Nat × T64 × Bool) : h.onlyIn [.flt] (h.tachTake x) := by
  unfold Hub.tachTake
  split
  · exact Hub.onlyIn_trans (h.orderBreak_onlyIn x.1) (tachPulse_onlyIn _ _ _)
  · exact tachPulse_onlyIn _ _ _

/-- A stamp leaves its queue. -/
def Hub.tachOut (h : Hub) (x : Nat × T64 × Bool) : Hub := { h with tiu := { h.tiu with tach := h.tiu.tach.erase x } }
/-- No later stamp of the input carries the break of its interval. -/
def Hub.tachUncut (h : Hub) (i : Nat) : Hub := { h with tiu := { h.tiu with tachCut := h.tiu.tachCut.filter (· != i) } }

/-- From `h` to `g` stamps reached the filter engines, and `l` are on their way. -/
structure Hub.TachLeaves (h : Hub) (l : List (Nat × T64 × Bool)) (g : Hub) : Prop where
  only : h.onlyIn [.tiu, .flt] g
  tach : g.tiu.tach = l

theorem Hub.tachOut_leaves (h : Hub) (x : Nat × T64 × Bool) : h.TachLeaves (h.tiu.tach.erase x) ((h.tachOut x).tachTake x) := by
  have out : h.onlyIn [.tiu] (h.tachOut x) := h.onlyIn_tiu _
  have taken := (h.tachOut x).tachTake_onlyIn x
  exact ⟨Hub.onlyIn_trans (Hub.onlyIn_mono out (by decide)) (Hub.onlyIn_mono taken (by decide)),
    (congrArg TiuSt.tach (Hub.tiu_of_onlyIn taken (by decide))).trans rfl⟩

theorem Hub.TachLeaves.break {h g : Hub} {l : List (Nat × T64 × Bool)} (hg : h.TachLeaves l g) (i : Nat) :
    h.TachLeaves l ((g.tachUncut i).orderBreak i) := by
  have uncut : g.onlyIn [.tiu] (g.tachUncut i) := g.onlyIn_tiu _
  have broken := (g.tachUncut i).orderBreak_onlyIn i
  exact ⟨Hub.onlyIn_trans hg.only (Hub.onlyIn_trans (Hub.onlyIn_mono uncut (by decide)) (Hub.onlyIn_mono broken (by decide))),
    (congrArg TiuSt.tach (Hub.tiu_of_onlyIn broken (by decide))).trans hg.tach⟩

/-- The oldest stamp of the input leaves its queue. -/
theorem tachPulseRow_leaves {h : Hub} {i : Nat} {x : Nat × T64 × Bool} (hx : h.tiu.tach.find? (·.1 == i) = some x) :
    h.TachLeaves (h.tiu.tach.erase x) (tachPulseRow i h) := by
  have taken := h.tachOut_leaves x
  simp only [Hub.tachOut] at taken
  simp only [tachPulseRow, hx]
  generalize Hub.tachTake _ x = g at taken ⊢
  split
  · exact taken
  · exact taken.break i

/-- Settles O52: each clause by what its row does to the edge, the unit, the gate, the line or the queue that it names. -/
theorem tiuRows : Obligations.TiuRows := by
  unfold Obligations.TiuRows
  refine ⟨?_, ?_, ?_, ?_, ?_, ?_, ?_, ?_, ?_, ?_, ?_, ?_, ?_, ?_, ?_, ?_, ?_⟩
  · intro s i falling tap drained hp hh hc hm hl he hs hpl hr hf
    obtain ⟨only, tiu⟩ := ((((s.hub.fifoDrain drained).edgeStamped i (s.hub.mkStamp i tap 0)).fifoIn).edgeGives_measures i falling
      (s.hub.mkStamp i tap (s.hub.tiuIn i).dly) (s.hub.tiuIn i))
    have frame := Hub.onlyIn_trans (Hub.onlyIn_mono (s.hub.onlyIn_tiu _) (by decide)) only
    refine does_row rfl hp ?_ ?_ <;>
      rw [tiuEdge_eq_edgeTaken tap.val drained hh hc hm hl he hs hpl hr, Hub.edgeTaken_room (by exact hf)]
    · split
      · exact Hub.onlyIn_trans frame (Hub.onlyIn_mono (Hub.onlyIn_tiu _ _) (by decide))
      · exact frame
    · split
      · next h3 =>
        unfold Hub.tachIn
        rw [tiu]
        simp [h3, Hub.fifoIn, Hub.edgeStamped, Hub.fifoDrain]
      · next h3 =>
        rw [tiu]
        simp [h3, Hub.fifoIn, Hub.edgeStamped, Hub.fifoDrain]
  · intro s i falling tap drained hp hh hc hm hl he hs hpl hr h3 hf ho
    refine does_row rfl hp ?_ ?_ <;>
      rw [tiuEdge_eq_edgeTaken tap.val drained hh hc hm hl he hs hpl hr, Hub.edgeTaken_full h3 (by exact hf),
        Hub.fifoOverflow_first (by simp [Hub.tiuCount, Hub.edgeStamped, Hub.fifoDrain, ho])]
    · simp [Hub.onlyIn_iff, Hub.gateCount, Hub.tiuCount, Hub.edgeStamped, Hub.fifoDrain]
    · simp [Hub.gateCount, Hub.tiuCount, Hub.edgeStamped, Hub.fifoDrain, Hub.raise_count_self, hh]
  · intro s i falling tap drained hp hi
    refine does_row rfl hp ?_ ?_ <;> rw [tiuEdge_idle tap.val drained hi]
    · exact s.hub.onlyIn_tiu _
    · rfl
  · intro s u z hp hz hw
    refine does_row rfl hp ?_ ?_ <;> rw [iuWinTimeout_forgets hz hw]
    · simp [Hub.onlyIn_iff, Hub.iuForget, Hub.setHeld, Hub.setReplaced, Hub.tiuCount]
    · simp +contextual [Hub.iuForget, Hub.setHeld, Hub.setReplaced, Hub.tiuCount]
  · intro s u hp hz
    exact does_nothing (f := iuWinTimeout u) rfl hp (by simp [iuWinTimeout, hz])
  · intro s i g hp hg hl
    obtain ⟨handle, status, ws, hrow⟩ := tiuFreqGateEnd_ends hg hl
    refine does_row rfl hp ?_ ?_ <;> rw [hrow]
    · exact Hub.onlyIn_trans (Hub.onlyIn_mono (s.hub.onlyIn_tiu _) (by decide)) (Hub.onlyIn_mono (Hub.complete_onlyIn _ _ _ _) (by decide))
    · rw [Hub.complete_tiu]
      exact ⟨by simp, rfl, s.hub.slewNote_gates_filter i⟩
  · intro s i hp hg
    exact does_nothing (f := tiuFreqGateEnd i) rfl hp (by simp [tiuFreqGateEnd, hg])
  · intro s hp hh hc hn ho hl hs hpass
    refine does_row rfl hp ?_ ?_ <;> rw [tiuCalTimer_starts hh hc hn ho hl hs hpass]
    exact s.hub.onlyIn_tiu _
  · intro s hp hi
    exact does_nothing (f := tiuCalTimer) rfl hp (if_pos (by rcases hi with e | e | e <;> simp [e]))
  · intro s pairs k back hp hh ho hw
    refine does_row rfl hp ?_ ?_ <;> rw [tiuHandoverDone_ends hh ho hw rfl]
    · exact s.hub.onlyIn_tiu _
    · generalize (if back then k else 10) = n
      by_cases hag : pairs.all (s.hub.pairAgrees (s.hub.tiuLine k) n) = true
      · refine ⟨rfl, ?_, fun j hj => ?_, rfl⟩
        · rw [Hub.tiuLine_put (h := s.hub) (if_pos hag), if_pos rfl, if_pos hag]
        · rw [Hub.tiuLine_put (h := s.hub) (if_pos hag), if_neg hj]
      · refine ⟨rfl, ?_, fun j _ => ?_, rfl⟩
        · rw [if_neg hag, Hub.tiuLine, if_neg hag]
          rfl
        · rw [Hub.tiuLine, if_neg hag]
          rfl
  · intro s pairs hp hl hx
    exact does_nothing rfl hp (tiuHandoverDone_early hl hx)
  · intro s pairs hp hi
    exact does_nothing rfl hp (tiuHandoverDone_idle pairs hi)
  · intro s hits k hp hh hc hl hg
    refine does_row rfl hp ?_ ?_ <;> rw [tiuCalDone_line hits hh hc hl, if_pos hg, Hub.tiuLineCal, if_pos hg]
    · exact s.hub.onlyIn_tiu _
    · rfl
  · intro s hits k hp hh hc hl hg hk hn
    refine does_row rfl hp ?_ ?_ <;> rw [tiuCalDone_line hits hh hc hl, if_neg (ne_true_of_eq_false hg), tiuLineFail_lost hk (by exact hn)]
    · exact Hub.onlyIn_trans (Hub.onlyIn_trans (Hub.onlyIn_mono (s.hub.onlyIn_tiu _) (by decide))
        (Hub.onlyIn_mono (Hub.raise_onlyIn _ 51 []) (by decide))) (Hub.onlyIn_mono (Hub.onlyIn_tiu _ _) (by decide))
    · exact ⟨rfl, Hub.raise_count_self _ 51 [] hh⟩
  · intro s hits hp hh hc hf hg
    have all : tiuCalDone hits s.hub = s.hub.tiuCalAll hits := by simp [tiuCalDone, hh, hc]
    refine does_row rfl hp ?_ ?_ <;> rw [all, Hub.tiuCalAll_good hf hg]
    · exact s.hub.onlyIn_tiu _
    · exact ⟨rfl, fun l hl => Tab.get_foldl_put _ _ _ l (List.mem_range.mpr hl)⟩
  · intro s i x hp hx
    obtain ⟨frame, tach⟩ := tachPulseRow_leaves hx
    exact does_row rfl hp frame tach
  · intro s i hp hn
    have none : s.hub.tiu.tach.find? (·.1 == i.val) = none := by simpa using hn
    exact does_nothing (f := tachPulseRow i) rfl hp (by rw [tachPulseRow, none])

end Sys2Proof.Machine

/-! PROOFS. The landed marks after an output of a remote channel (O55). -/
namespace Sys2Proof.Machine

/-- A row of a powered hub gives what its operation makes of it. -/
theorem Gives.of_row {i : Instr} {s : State} {f : Hub → Hub} {g : Hub} (hg : Gives i s g) (hi : exec i s = s.row f)
    (hp : s.hub.powered = true) : f s.hub = g := by
  have row : s.row f = .next { s with hub := f s.hub } := by simp [State.row, State.powerRow, hp]
  exact congrArg State.hub (Host.Outcome.next.inj ((hi.trans row).symm.trans hg))

/-- The landed marks of the lanes advance after an output of a remote channel has left (R397). -/
theorem chainOutput_of_isRemote {h : Hub} {ch : Nat} {c : ChanCfg} {g : Geo} {v : Stage4} (hh : h.clk.held = false)
    (hg : h.geoOf ch = some (c, g)) (hr : (h.chain ch).running = true) (hv : (h.chain ch).stage4 g = some v)
    (ht : h.tachPast ch c v = true) (hm : isRemote ch = true) : chainOutput ch h = (h.chainStep ch c g v).slMarks := by
  simp [chainOutput, hg, hr, hh, hv, ht, hm]

/-- Settings, geometry and next output of the remote channel of `sampleOwed`. -/
def owedCfg : ChanCfg :=
  { profile := 6, linEn := false, linTable := 0, gain := 268435456, offset := 0, redN := 0, excSettle := 0, tiSel := 0, spr := 0, ppr := 0
    tachMax := 0 }
def owedGeo : Geo :=
  { p := { full := false, other := true, mode := 0, n := 3, d := 1, l := 0, m := 1, xf := 1, fOut := 0 }
    fin := fr 8000 1, sig := fr 0 524288000, fast := false, ph := 0 }
def owedOutput : Stage4 := { n := 1000, t := owedGeo.qT 1000, order := none, v := none }

/-- Remote channel 130, at 8,000 Sa/s in BYPASS, lands in group 5. The input at 125 ms is missing, so its next output, which is ready, is passed
over. Lane 0 is up and its frame 7 waits for the outcome of a sample at that instant alone. -/
def sampleOwed : State where
  pending := []
  hub :=
    { sys := { power := .run }
      cfg :=
        { slots := [(2, { enable := true, rate := 8000 })]
          flt := { profiles := [(6, some owedGeo.p)], chans := [(130, some owedCfg)] }
          jrn := { groups := [(5, { chans := [130] })] } }
      tb := { started := true, sec := 1 }
      flt := { ch := [(130, { running := true, nextOut := 1000, fir := [{ i := 1000, v := 0, q := 0 }]
                              missing := [{ a := fr 1 8, b := fr 1 8, cause := 3, detail := 0, unc := 0 }] })] }
      jrn := { groups := [(5, { acquiring := true })] }
      sl := { lanes := [(0, { st := .up, open_ := [{ seq := 7, left := [(130, 0, 0x20000000)] }] })] } }

theorem sampleOwed_geoOf : sampleOwed.hub.geoOf 130 = some (owedCfg, owedGeo) := by decide +kernel

theorem sampleOwed_stage4 : (sampleOwed.hub.chain 130).stage4 owedGeo = some owedOutput := by decide +kernel

/-- Stage 7 alone moves no landed mark. -/
theorem sampleOwed_landed : (sampleOwed.hub.chainStep 130 owedCfg owedGeo owedOutput |>.lane 0).landed = none := by decide +kernel

/-- With the instant declined, frame 7 leaves the lane's list. -/
theorem sampleOwed_landed_slMarks : ((sampleOwed.hub.chainStep 130 owedCfg owedGeo owedOutput).slMarks.lane 0).landed = some 7 := by
  decide +kernel

/-- Refutes O55: the clause that CHAIN_OUTPUT gives stage 7 of the output and nothing else leaves out that after an output of a remote channel
the landed marks of its lane advance and LANDED is sent (R397), here past the frame whose one sample the output's instant declines. -/
theorem not_chainRows : ¬ Obligations.ChainRows := by
  unfold Obligations.ChainRows
  rintro ⟨-, -, -, -, -, stageSeven, -⟩
  have stepOnly : chainOutput 130 sampleOwed.hub = sampleOwed.hub.chainStep 130 owedCfg owedGeo owedOutput :=
    (stageSeven sampleOwed 130 owedCfg owedGeo owedOutput rfl rfl sampleOwed_geoOf rfl sampleOwed_stage4 rfl).of_row rfl rfl
  have marks := chainOutput_of_isRemote (h := sampleOwed.hub) rfl sampleOwed_geoOf rfl sampleOwed_stage4 rfl rfl
  have same : some 7 = none := calc
    some 7 = ((sampleOwed.hub.chainStep 130 owedCfg owedGeo owedOutput).slMarks.lane 0).landed := sampleOwed_landed_slMarks.symm
    _ = ((sampleOwed.hub.chainStep 130 owedCfg owedGeo owedOutput).lane 0).landed := by rw [← marks, stepOnly]
    _ = none := sampleOwed_landed
  exact absurd same (by simp)

end Sys2Proof.Machine

/-! PROOFS. A segment's record beside a record that waits for a page (O57). -/
namespace Sys2Proof.Machine

/-- A segment in copy with no cause and no channel. -/
def copiedSeg : Seg :=
  { id := 0, anchor := 0, epoch := 0, status := 0, causes := [], endCause := 0, closeAt := some 0, truncated := [], copying := true }

/-- Capture group 0 copies its one segment while an EVENT record waits for a page. Writer 65 names page 0 as the page that it has filled, though
no page is in use. -/
def sharedPage : State where
  pending := []
  hub :=
    { sys := { power := .run }
      trg := { groups := [(0, { segs := [copiedSeg] })] }
      jrn :=
        { total := 4096
          writers := [(65, { page := some 0, fill := 65536 })]
          waiting := [{ ticket := 0, type := 4, flags := 0, group := 255, hub := 0, version := 2, epoch := 0, t := 0, body := [], block := none,
                        isOpen := false, pages := [] }] } }

/-- Writer 64 takes page 0 for the segment's record, ticket 0. As the record that waits lands, writer 65 closes page 0 for its next page, no
consumer holds it, and it is freed with the segment's record. -/
theorem sharedPage_segmentLanded_recs : ∀ r ∈ (segmentLanded (0 : Fin 32) [] sharedPage.hub).jrn.recs, r.ticket ≠ 0 := by decide +kernel

/-- Refutes O57: the clause on SEGMENT_LANDED holds the segment's record to be in the journal, but it asks of the pages only that one is free and
that writer 64 has none. Its hypotheses leave open that the filled page of writer 65 is the one that writer 64 takes, as no state in which each
writer's page is in use would have it. -/
theorem not_triggerActionRows : ¬ Obligations.TriggerActionRows := by
  unfold Obligations.TriggerActionRows
  rintro ⟨-, -, -, landed, -⟩
  obtain ⟨-, -, -, -, -, r, hr, ticket, -⟩ :=
    (landed sharedPage 0 [] copiedSeg rfl rfl rfl rfl rfl rfl (by decide) (by decide +kernel) rfl (by decide)).of_row rfl rfl
  exact sharedPage_segmentLanded_recs r hr ticket

end Sys2Proof.Machine

/-! PROOFS. Commands that raise events before they are answered. -/
namespace Sys2Proof.Machine

/-- From `h` to `g` the chapters `cs` changed and events were raised: of the host interface pending bits alone changed, and what was sent
stays sent. -/
structure Hub.Raises (h : Hub) (cs : List Chapter) (g : Hub) : Prop where
  only : h.onlyIn (.host :: .tx :: cs) g
  host : ∃ p, g.host = { h.host with pba := p }
  tx : h.tx <+: g.tx

theorem Hub.Raises.refl (h : Hub) (cs : List Chapter) : h.Raises cs h := ⟨h.onlyIn_refl _, ⟨_, rfl⟩, List.prefix_refl _⟩

theorem Hub.Raises.trans {h g t : Hub} {cs : List Chapter} (hg : h.Raises cs g) (gt : g.Raises cs t) : h.Raises cs t := by
  obtain ⟨p, hp⟩ := hg.host
  obtain ⟨q, hq⟩ := gt.host
  exact ⟨Hub.onlyIn_trans hg.only gt.only, ⟨q, by rw [hq, hp]⟩, hg.tx.trans gt.tx⟩

theorem Hub.Raises.mono {h g : Hub} {cs ds : List Chapter} (hg : h.Raises cs g) (hs : cs ⊆ ds) : h.Raises ds g :=
  ⟨Hub.onlyIn_mono hg.only (List.cons_subset_cons _ (List.cons_subset_cons _ hs)), hg.host, hg.tx⟩

theorem Hub.raise_tx (h : Hub) (ev : Nat) (data : List Byte) : h.tx <+: (h.raise ev data).tx := by
  have message : ∀ k : Hub, k.tx = h.tx → ∀ was on v, h.tx <+: (k.edge was on v).tx := fun k e was on v => e ▸ k.edge_tx was on v
  unfold Hub.raise
  dsimp only
  split
  · exact List.prefix_refl _
  · rw [Hub.raiseAt, Hub.logWrite_tx, Hub.raiseFlags]
    apply message
    rfl

theorem Hub.raise_raises (h : Hub) (j : JrnSt) (ev : Nat) (data : List Byte) :
    h.Raises [.jrn, .evt] (({ h with jrn := j } : Hub).raise ev data) :=
  ⟨by simp [Hub.onlyIn_iff], Hub.raise_host _ ev data, Hub.raise_tx { h with jrn := j } ev data⟩

theorem Hub.jrnDegrade_raises (h : Hub) : h.Raises [.jrn, .evt] h.jrnDegrade := by
  unfold Hub.jrnDegrade
  split
  · exact h.raise_raises _ _ _
  · exact .refl h _

theorem Hub.jrnState_raises (h : Hub) : h.Raises [.jrn, .evt] h.jrnState := by
  unfold Hub.jrnState
  dsimp only
  split_ifs
  · exact .refl h _
  · exact h.raise_raises _ _ _
  · exact h.raise_raises _ _ _
  · exact h.raise_raises _ _ _
  · exact h.raise_raises _ _ _
  · exact .refl h _

/-- A command that takes no handle and changes the chapters `cs`, and may raise events, is answered with what it gives; `P` need look at
nothing that the mailbox path writes. -/
theorem answers_of_raises {i : Instr} {s : State} {c : CmdSpec} {mb : Fin 8} {tag : Word} {pl : List Word} {cs : List Chapter}
    {P : List Word → Hub → Prop} {r : CmdRes} {status : Nat} (hi : exec i s = s.mailRow c mb tag pl) (ht : s.takes c mb tag pl = true)
    (hl : c.long (s.hub.executing c mb tag pl) pl = false) (hr : c.run (s.hub.executing c mb tag pl) (.of mb tag pl 0) = r)
    (hw : r.wait = false) (hs : r.status = status) (he : tookEffect status = true)
    (hf : (s.hub.executing c mb tag pl).Raises cs r.hub)
    (hP : ∀ t, r.hub.onlyIn [.host, .sys, .clk, .tx] t → P r.words t) : Answers i s mb tag status cs P := by
  subst hs
  obtain ⟨own, slots⟩ := s.hub.executing_ownMail c mb tag pl
  obtain ⟨p, host⟩ := hf.host
  have frame : s.hub.onlyIn (.host :: .tx :: cs) r.hub :=
    Hub.onlyIn_trans (Hub.onlyIn_mono (s.hub.executing_onlyIn c mb tag pl) (by simp)) hf.only
  have mail : s.hub.OwnMail mb r.hub := own.trans ⟨fun k _ => by rw [host], by rw [host], by rw [host]⟩
  have sent : s.hub.tx <+: (r.hub.answered mb r.status 0 tag r.words (bit (cmdHeader c.opcode pl.length) 16)).tx := by
    have before := (s.hub.executing_tx c mb tag pl) ▸ hf.tx
    have after := (r.hub.noteTag mb r.status tag).respond_tx mb r.status 0 tag r.words (bit (cmdHeader c.opcode pl.length) 16)
    rw [Hub.noteTag_tx] at after
    exact before.trans after
  obtain ⟨only, sys, clk, mbs, -⟩ :=
    Hub.answered_mailFrame 0 tag r.words (bit (cmdHeader c.opcode pl.length) 16) frame mail he
  refine ⟨_, r.words, hi.trans (s.mailRow_takes c mb tag pl ht), rfl, ?_⟩
  rw [Hub.ran_short _ hl hr hw]
  refine ⟨r.hub.answered_response .., ⟨?_, fun hc => sys ?_, fun hc => clk ?_, fun hc => mbs ?_, fun _ => sent⟩,
    fun _ => (r.hub.answered_slots ..).trans (by rw [host, slots]), hP _ (r.hub.answered_onlyIn _ _ _ _ _ _)⟩
  · refine Hub.onlyIn_mono only (List.append_subset.mpr ⟨List.subset_append_left _ _, List.cons_subset.mpr ⟨by simp, ?_⟩⟩)
    exact List.subset_append_right _ _
  · simpa using hc
  · simpa using hc
  · simpa using hc

end Sys2Proof.Machine
/-! PROOFS. Trigger and capture commands (O24). -/
namespace Sys2Proof.Machine

/-! ### Bits -/

/-- The bits of `m` are taken out of a number. -/
theorem testBit_sub_and (s m k : Nat) : (s - (s &&& m)).testBit k = (s.testBit k && !m.testBit k) := by
  induction k generalizing s m with
  | zero =>
    have low := @Nat.and_mod_two_eq_one s m
    have le := @Nat.and_le_left s m
    simp only [Nat.testBit_zero]
    grind
  | succ k ih =>
    have low := @Nat.and_mod_two_eq_one s m
    have le := @Nat.and_le_left s m
    have half : (s - (s &&& m)) / 2 = s / 2 - (s / 2 &&& m / 2) := by
      rw [← Nat.and_div_two]
      omega
    rw [Nat.testBit_succ, half, ih, Nat.testBit_succ, Nat.testBit_succ]

theorem testBit_fld (w : Word) {hi lo k : Nat} (hk : lo + k ≤ hi) : (fld w hi lo).testBit k = bit w (lo + k) := by
  have inside : k < hi + 1 - lo := by omega
  rw [fld, Nat.testBit_mod_two_pow, Nat.testBit_div_two_pow, bit, BitVec.testBit_toNat, Nat.add_comm k lo]
  simp [inside]

section
variable {s : State} {mb : Fin 8} {tag : Word} {pl : List Word}

/-! ### Units and their qualifiers (R193, R194) -/

/-- Of a unit's progress and setting, the setting alone reaches the unit's configuration. -/
theorem trgUnitSet_answers (ht : s.takes trgUnitSet mb tag pl = true) :
    Answers (.trgUnitSet mb tag pl) s mb tag DONE [.cfg, .trg] fun _ t =>
      t.unitCfg (fld (pw pl 0) 15 10) = pwUnit (s.hub.unitCfg (fld (pw pl 0) 15 10)) pl ∧
      ∀ u : Nat, u ≠ fld (pw pl 0) 15 10 → t.unitCfg u = s.hub.unitCfg u := by
  refine answers_of_run (c := trgUnitSet) rfl ht rfl rfl rfl rfl (by decide) (by decide) ?_ fun t h => ?_
  · dsimp only [trgUnitSet]
    split <;> simp [Hub.onlyIn_iff, Hub.setUnit]
  · have cfg : t.cfg = { s.hub.cfg with trg := { s.hub.cfg.trg with
        units := s.hub.cfg.trg.units.put (fld (pw pl 0) 15 10) (pwUnit (s.hub.unitCfg (fld (pw pl 0) 15 10)) pl) } } := by
      rw [show t.cfg = _ from h .cfg (by decide)]
      dsimp only [trgUnitSet]
      split <;> simp [Hub.setUnit, Hub.unitCfg, CmdIn.of]
    simp +contextual [Hub.unitCfg, cfg]

theorem trgQualSet_answers (ht : s.takes trgQualSet mb tag pl = true) :
    Answers (.trgQualSet mb tag pl) s mb tag DONE [.cfg] fun _ t =>
      t.unitCfg (fld (pw pl 0) 5 0) = { s.hub.unitCfg (fld (pw pl 0) 5 0) with mask := pw128 pl 1, value := pw128 pl 5 } ∧
      ∀ u : Nat, u ≠ fld (pw pl 0) 5 0 → t.unitCfg u = s.hub.unitCfg u := by
  refine answers_of_run (c := trgQualSet) rfl ht rfl rfl rfl rfl (by decide) (by decide) ?_ fun t h => ?_
  · simp [Hub.onlyIn_iff, trgQualSet]
  · unfold Hub.unitCfg
    rw [show t.cfg = _ from h .cfg (by decide)]
    simp +contextual [trgQualSet, Hub.unitCfg, CmdIn.of]

/-! ### Capture groups (R195) -/

/-- The setting that CAP_GROUP_SET describes. -/
def pwCap (p : List Word) : CapCfg where
  chans := pwChans (p.drop 7) (fld (pw p 0) 22 16)
  autoEn := bit (pw p 0) 7
  pepper := bit (pw p 0) 6
  pre := (pw p 1).toNat
  post := (pw p 2).toNat
  ringMs := fld (pw p 3) 31 16
  descMax := fld (pw p 3) 14 0
  autoT := (pw p 4).toNat
  coalesce := (pw p 5).toNat
  segLimit := fld (pw p 6) 31 16
  ctMask := fld (pw p 6) 15 0

/-- CAP_GROUP_SET changes settings, rings and pages; the journal then takes the state that its free pages give it, with its events. -/
theorem capGroupSet_run (h : Hub) (c : CmdIn) : ∃ k : Hub, capGroupSet.run h c = { hub := k.descFreed.jrnDegrade.jrnState } ∧
    k.cfg = { h.cfg with trg := { h.cfg.trg with groups := h.cfg.trg.groups.put (fld (pw c.pl 0) 4 0) (pwCap c.pl) } } ∧
    h.onlyIn [.cfg, .trg, .jrn] k := by
  refine ⟨_, rfl, rfl, ?_⟩
  simp [Hub.onlyIn_iff, Hub.setCg]

theorem Hub.raises_of_onlyIn {h g : Hub} {cs : List Chapter} (ho : h.onlyIn cs g) (hh : .host ∉ cs) (hx : .tx ∉ cs) : h.Raises cs g :=
  ⟨Hub.onlyIn_mono ho (by simp), ⟨h.host.pba, ho .host hh⟩, (ho .tx hx : g.tx = h.tx) ▸ List.prefix_refl _⟩

theorem capGroupSet_answers (ht : s.takes capGroupSet mb tag pl = true) :
    Answers (.capGroupSet mb tag pl) s mb tag DONE [.cfg, .trg, .jrn, .evt, .sto] fun _ t => t.cgCfg (fld (pw pl 0) 4 0) = pwCap pl := by
  obtain ⟨k, run, cfg, only⟩ := capGroupSet_run (s.hub.executing capGroupSet mb tag pl) (.of mb tag pl 0)
  have freed : k.onlyIn [.trg] k.descFreed := by simp [Hub.onlyIn_iff, Hub.descFreed]
  have state := k.descFreed.jrnDegrade_raises.trans (Hub.jrnState_raises _)
  refine answers_of_raises (c := capGroupSet) rfl ht rfl run rfl rfl (by decide) ?_ fun t h => ?_
  · refine .trans ?_ (state.mono (by decide))
    exact (Hub.raises_of_onlyIn (Hub.onlyIn_trans only (Hub.onlyIn_mono freed (by decide))) (by decide) (by decide)).mono (by decide)
  · have same : t.cfg = k.cfg := (h .cfg (by decide)).trans (state.only .cfg (by decide))
    rw [Hub.cgCfg, same, cfg]
    simp [CmdIn.of]

/-! ### Arming and soft lines (R196, R197) -/

/-- The strobe that ends the breaks decided reads the timebase, and whether the hub is the master. -/
theorem Hub.strobeAfter_congr {h g : Hub} (ht : g.tb = h.tb) (hs : g.sys = h.sys) (p : Nat) (bs : List PendBreak) :
    g.strobeAfter p bs = h.strobeAfter p bs := by
  induction bs generalizing h g p with
  | nil => simp [Hub.strobeAfter, ht]
  | cons b bs ih =>
    have renumbered : g.renumbered b = h.renumbered b := by simp [Hub.renumbered, Hub.isMaster, ht, hs]
    have epoch : g.breakEpoch b = h.breakEpoch b := by simp [Hub.breakEpoch, ht]
    rw [Hub.strobeAfter, Hub.strobeAfter, renumbered, ih ht hs]
    split
    · rfl
    · apply ih
      · rw [ht, epoch]
      · exact hs

theorem Hub.nextStrobe_executing (h : Hub) (c : CmdSpec) (m : Nat) (tag : Word) (pl : List Word) :
    (h.executing c m tag pl).nextStrobe = h.nextStrobe := by
  have after := Hub.strobeAfter_congr (h.executing_tb c m tag pl) (h.executing_sys c m tag pl)
  simp [Hub.nextStrobe, Hub.nextMark, after]

/-- TRG_ARM waits for the next frame strobe, and its answer names it. -/
theorem trgArm_answers (ht : s.takes trgArm mb tag pl = true) :
    Answers (.trgArm mb tag pl) s mb tag DONE [.trg] fun ws t => t.trg = { s.hub.trg with arm := s.hub.trg.arm ++
        [{ armU := mask64 (pw pl 0) (pw pl 1), disU := mask64 (pw pl 2) (pw pl 3), armG := (pw pl 4).toNat, disG := (pw pl 5).toNat,
           since := s.hub.tb.strobes }] } ∧
      ws = tWords s.hub.nextStrobe.1 ++ [wd s.hub.nextStrobe.2, 0] := by
  refine answers_of_run (c := trgArm) rfl ht rfl rfl rfl rfl (by decide) (by decide) ?_ fun t h => ⟨?_, ?_⟩
  · simp [Hub.onlyIn_iff, trgArm]
  · rw [show t.trg = _ from h .trg (by decide)]
    simp [trgArm, CmdIn.of]
  · simp [trgArm, Hub.strobeWords, Hub.nextStrobe_executing]

/-- Asking groups for a segment changes their progress alone. -/
theorem Hub.foldl_setCg (f : Hub → Nat → CapGroup) (l : List Nat) (h : Hub) :
    h.onlyIn [.trg] (l.foldl (fun h g => h.setCg g (f h g)) h) ∧ (l.foldl (fun h g => h.setCg g (f h g)) h).trg.soft = h.trg.soft := by
  induction l generalizing h with
  | nil => exact ⟨h.onlyIn_refl _, rfl⟩
  | cons g l ih =>
    obtain ⟨only, soft⟩ := ih (h.setCg g (f h g))
    exact ⟨Hub.onlyIn_trans (by simp [Hub.onlyIn_iff, Hub.setCg]) only, soft⟩

theorem trgSoft_answers (ht : s.takes trgSoft mb tag pl = true) :
    Answers (.trgSoft mb tag pl) s mb tag DONE [.trg] fun _ t => ∀ k : Nat, k < 16 →
      t.trg.soft.testBit k = ((s.hub.trg.soft.testBit k || bit (pw pl 0) k) && !bit (pw pl 0) (16 + k)) := by
  refine answers_of_run (c := trgSoft) rfl ht rfl rfl rfl rfl (by decide) (by decide) ?_ fun t h k hk => ?_
  · exact Hub.onlyIn_trans (by simp [Hub.onlyIn_iff]) (Hub.foldl_setCg (fun h g => { h.cg g with forceDue := 1 }) _ _).1
  · rw [show t.trg = _ from h .trg (by decide)]
    refine (congrArg (Nat.testBit · k) (Hub.foldl_setCg (fun h g => { h.cg g with forceDue := 1 }) _ _).2).trans ?_
    simp only [CmdIn.of, Hub.executing_trg, testBit_sub_and, Nat.testBit_or, testBit_fld (pw pl 0) (show 0 + k ≤ 15 by omega),
      testBit_fld (pw pl 0) (show 16 + k ≤ 31 by omega), Nat.zero_add]

/-! ### Status and pins (R198, R199) -/

/-- TRG_STATUS answers for a capture group. -/
theorem trgStatus_run_group (h : Hub) (c : CmdIn) (hg : bit (pw c.pl 0) 8 = true) : ∃ g ws, trgStatus.run h c = { hub := g, words := ws } ∧
    h.onlyIn [.trg] g ∧ ws.length = 7 ∧ ws.getD 1 0 = wd (h.cg (fld (pw c.pl 0) 5 0)).seq := by
  dsimp only [trgStatus]
  rw [if_pos hg]
  refine ⟨_, _, rfl, ?_, rfl, rfl⟩
  split <;> simp [Hub.onlyIn_iff, Hub.setCg]

/-- TRG_STATUS answers for a trigger unit. -/
theorem trgStatus_run_unit (h : Hub) (c : CmdIn) (hu : bit (pw c.pl 0) 8 = false) : ∃ g ws, trgStatus.run h c = { hub := g, words := ws } ∧
    h.onlyIn [.trg] g ∧ ws.length = 12 ∧
    (ws.drop 1).take 8 = (List.range 8).map fun j => wd ((h.unit (fld (pw c.pl 0) 5 0)).counts.get j) := by
  dsimp only [trgStatus]
  rw [if_neg (ne_true_of_eq_false hu)]
  refine ⟨_, _, rfl, ?_, rfl, rfl⟩
  split <;> simp [Hub.onlyIn_iff, Hub.setUnit]

theorem trgStatus_answers (ht : s.takes trgStatus mb tag pl = true) :
    Answers (.trgStatus mb tag pl) s mb tag DONE [.trg] fun ws _ => (bit (pw pl 0) 8 = false → ws.length = 12 ∧
      (ws.drop 1).take 8 = (List.range 8).map fun j => wd ((s.hub.unit (fld (pw pl 0) 5 0)).counts.get j)) ∧
      (bit (pw pl 0) 8 = true → ws.getD 1 0 = wd (s.hub.cg (fld (pw pl 0) 5 0)).seq ∧ ws.length = 7) := by
  cases hb : bit (pw pl 0) 8 with
  | false =>
    obtain ⟨g, ws, run, only, length, counts⟩ := trgStatus_run_unit (s.hub.executing trgStatus mb tag pl) (.of mb tag pl 0) hb
    refine answers_of_run (c := trgStatus) rfl ht rfl run rfl rfl (by decide) (by decide) only fun t _ => ?_
    simpa [Hub.unit, CmdIn.of, length] using counts
  | true =>
    obtain ⟨g, ws, run, only, length, seq⟩ := trgStatus_run_group (s.hub.executing trgStatus mb tag pl) (.of mb tag pl 0) hb
    refine answers_of_run (c := trgStatus) rfl ht rfl run rfl rfl (by decide) (by decide) only fun t _ => ?_
    simpa [Hub.cg, CmdIn.of, length] using seq

/-- The setting that TRG_IO_SET describes for a pin. -/
def pwPin (p : List Word) : PinCfg where
  activeLow := bit (pw p 0) 7
  early := bit (pw p 0) 6
  out := bit (pw p 0) 5
  width := (pw p 1).toNat
  mask := mask64 (pw p 2) (pw p 3)

theorem trgIoSet_answers (ht : s.takes trgIoSet mb tag pl = true) :
    Answers (.trgIoSet mb tag pl) s mb tag DONE [.cfg, .trg] fun _ t => (bit (pw pl 0) 31 = true →
      t.cfg.trg.hold = s.hub.cfg.trg.hold.put (fld (pw pl 0) 3 0) (pw pl 1).toNat ∧ t.cfg.trg.pins = s.hub.cfg.trg.pins ∧
      t.trg = s.hub.trg) ∧ (bit (pw pl 0) 31 = false →
      t.cfg.trg.pins = s.hub.cfg.trg.pins.put (fld (pw pl 0) 3 0) (pwPin pl) ∧ t.cfg.trg.hold = s.hub.cfg.trg.hold) := by
  cases hb : bit (pw pl 0) 31 with
  | false =>
    refine answers_of_run (c := trgIoSet) rfl ht rfl (if_neg (ne_true_of_eq_false hb)) rfl rfl (by decide) (by decide) ?_ fun t h => ?_
    · simp [Hub.onlyIn_iff]
    · rw [show t.cfg = _ from h .cfg (by decide)]
      simp [CmdIn.of, pwPin]
  | true =>
    refine answers_of_run (c := trgIoSet) rfl ht rfl (if_pos hb) rfl rfl (by decide) (by decide) ?_ fun t h => ?_
    · simp [Hub.onlyIn_iff]
    · rw [show t.cfg = _ from h .cfg (by decide), show t.trg = _ from h .trg (by decide)]
      simp [CmdIn.of]

end

/-- Settles O24: each command has its lemma above, over the path by which a mailbox answers. -/
theorem triggerCommands : Obligations.TriggerCommands := by
  unfold Obligations.TriggerCommands
  exact ⟨fun _ _ _ _ ht => trgUnitSet_answers ht, fun _ _ _ _ ht => trgQualSet_answers ht, fun _ _ _ _ ht => capGroupSet_answers ht,
    fun _ _ _ _ ht => trgArm_answers ht, fun _ _ _ _ ht => trgSoft_answers ht, fun _ _ _ _ ht => trgStatus_answers ht,
    fun _ _ _ _ ht => trgIoSet_answers ht⟩

end Sys2Proof.Machine

/-! PROOFS. Acknowledging records and freeing pages read nothing of the cascade. -/
namespace Sys2Proof.Machine

/-- The hub with the cascade chapter `c`. -/
def Hub.withCasc (c : CascSt) (h : Hub) : Hub := { h with casc := c }

/-- A choice maps to the choice of what is mapped. -/
theorem ite_eq_map {α β : Type} (F : α → β) {p q : Prop} [Decidable p] [Decidable q] {a b : β} {x y : α} (hpq : p ↔ q) (ha : a = F x)
    (hb : b = F y) : (if p then a else b) = F (if q then x else y) := by
  rw [apply_ite F]
  exact if_congr hpq ha hb

section
variable (c : CascSt)

theorem Hub.msix_withCasc (h : Hub) (v : Nat) : (h.withCasc c).msix v = (h.msix v).withCasc c :=
  ite_eq_map _ .rfl rfl (ite_eq_map _ .rfl rfl rfl)

theorem Hub.edge_withCasc (h : Hub) (was on : Bool) (v : Nat) : (h.withCasc c).edge was on v = (h.edge was on v).withCasc c :=
  ite_eq_map _ .rfl (h.msix_withCasc c v) rfl

theorem Hub.raise_withCasc (h : Hub) (ev : Nat) (data : List Byte) : (h.withCasc c).raise ev data = (h.raise ev data).withCasc c := by
  have message : ∀ (e : EvtSt) (was on : Bool) (v : Nat), ({ h.withCasc c with evt := e } : Hub).edge was on v =
      (({ h with evt := e } : Hub).edge was on v).withCasc c := fun e => Hub.edge_withCasc c { h with evt := e }
  have flags : (h.withCasc c).raiseFlags ev = (h.raiseFlags ev).withCasc c := message _ _ _ _
  refine ite_eq_map _ .rfl rfl ?_
  rw [Hub.raiseAt, flags]
  rfl

/-- A change of the journal with its event. -/
theorem Hub.raise_jrn_withCasc (h : Hub) (j : JrnSt) (ev : Nat) (data : List Byte) :
    ({ h.withCasc c with jrn := j } : Hub).raise ev data = (({ h with jrn := j } : Hub).raise ev data).withCasc c :=
  Hub.raise_withCasc c { h with jrn := j } ev data

theorem Hub.saveState_withCasc (h : Hub) (hd : Option Nat) : (h.withCasc c).saveState hd = (h.saveState hd).withCasc c :=
  ite_eq_map _ .rfl rfl rfl

theorem Hub.jrnDegrade_withCasc (h : Hub) : (h.withCasc c).jrnDegrade = h.jrnDegrade.withCasc c :=
  ite_eq_map _ .rfl (h.raise_jrn_withCasc c _ _ _) rfl

theorem Hub.jrnState_withCasc (h : Hub) : (h.withCasc c).jrnState = h.jrnState.withCasc c := by
  have raised := h.raise_jrn_withCasc c
  refine ite_eq_map _ .rfl rfl (ite_eq_map _ .rfl (raised _ _ _) (ite_eq_map _ .rfl ?_ (ite_eq_map _ .rfl (raised _ _ _) rfl)))
  exact ite_eq_map _ .rfl (raised _ _ _) (raised _ _ _)

theorem Hub.skipOn_withCasc (h : Hub) (k : Nat) : (h.withCasc c).skipOn k = (h.skipOn k).withCasc c :=
  ite_eq_map _ .rfl (h.raise_jrn_withCasc c _ _ _) rfl

theorem Hub.skipDropped_withCasc (h : Hub) (rs : List Rec) : (h.withCasc c).skipDropped rs = (h.skipDropped rs).withCasc c :=
  List.foldl_hom (Hub.withCasc c) fun g _ => ite_eq_map _ .rfl rfl (Hub.skipOn_withCasc c { g with jrn := _ } _)

theorem Hub.pagesFree_withCasc (h : Hub) : (h.withCasc c).pagesFree = h.pagesFree.withCasc c := by
  have retired : ∀ (l : List Nat) (g : Hub), l.foldl (fun g n => (g.raise 67 (b4 n)).saveState none) (g.withCasc c) =
      (l.foldl (fun g n => (g.raise 67 (b4 n)).saveState none) g).withCasc c := fun l g =>
    List.foldl_hom (Hub.withCasc c) fun g n => by rw [Hub.raise_withCasc, Hub.saveState_withCasc]
  refine ite_eq_map _ .rfl rfl ?_
  rw [← Hub.jrnState_withCasc, ← Hub.jrnDegrade_withCasc, ← retired, ← Hub.skipDropped_withCasc]
  rfl

theorem Hub.takeTicket_withCasc (h : Hub) : (h.withCasc c).takeTicket = h.takeTicket.map id (Hub.withCasc c) :=
  ite_eq_map (Prod.map id (Hub.withCasc c)) .rfl (congrArg (Prod.mk _) (Hub.saveState_withCasc c { h with jrn := _ } none)) rfl

/-- A hub that an operation may answer beside a value, with the cascade chapter `c`. -/
def onCasc {α : Type} : Option (α × Hub) → Option (α × Hub) := Option.map (Prod.map id (Hub.withCasc c))

theorem Hub.takePage_withCasc (h : Hub) (w t : Nat) (ss : List Share) : (h.withCasc c).takePage w ss t = onCasc c (h.takePage w ss t) := by
  have find : ss.find? (fun s => (h.withCasc c).freeOf s > 0) = ss.find? fun s => h.freeOf s > 0 := rfl
  unfold Hub.takePage
  rw [find]
  cases ss.find? fun s => h.freeOf s > 0 <;> rfl

theorem Hub.appendBytes_withCasc (h : Hub) (w t fuel n : Nat) (ss : List Share) (starts : Bool) (acc : List Nat) :
    (h.withCasc c).appendBytes w ss t starts fuel n acc = onCasc c (h.appendBytes w ss t starts fuel n acc) := by
  induction fuel generalizing h starts n acc with
  | zero => rfl
  | succ fuel ih =>
    have page : (match (h.withCasc c).takePage w ss t with
          | none => none
          | some (_, g) => g.appendBytes w ss t starts fuel n acc) =
        onCasc c (match h.takePage w ss t with
          | none => none
          | some (_, g) => g.appendBytes w ss t starts fuel n acc) := by
      rw [Hub.takePage_withCasc]
      cases h.takePage w ss t with
      | none => rfl
      | some r => exact ih r.2 _ _ _
    refine ite_eq_map _ .rfl rfl ?_
    rw [show (h.withCasc c).jrn = h.jrn from rfl]
    dsimp only
    cases (h.jrn.writers.get w).page with
    | none => exact page
    | some p => exact ite_eq_map _ .rfl (ih { h with jrn := _ } _ _ _) page

theorem Hub.tryLand_withCasc (h : Hub) (r : Rec) : (h.withCasc c).tryLand r = (h.tryLand r).map (Hub.withCasc c) := by
  unfold Hub.tryLand Hub.append
  simp only [Hub.takeTicket_withCasc, Prod.map, Hub.appendBytes_withCasc, id]
  cases h.takeTicket.2.appendBytes 65 [.normal, .sys] h.takeTicket.1 true (2 * ((32 + r.body.length + 7) / 8 * 8 / 65504 + 2))
      ((32 + r.body.length + 7) / 8 * 8) [] with
  | none => rfl
  | some x =>
    refine congrArg some ?_
    rw [← Hub.jrnState_withCasc, ← Hub.pagesFree_withCasc]
    rfl

theorem Hub.landRest_withCasc (h : Hub) (rs : List Rec) : (h.withCasc c).landRest rs = (h.landRest rs).withCasc c := by
  induction rs generalizing h with
  | nil => rfl
  | cons r rs ih =>
    unfold Hub.landRest
    rw [Hub.tryLand_withCasc]
    cases h.tryLand r with
    | none => rfl
    | some g => exact ih g

theorem Hub.freePages_withCasc (h : Hub) : (h.withCasc c).freePages = h.freePages.withCasc c := by
  rw [Hub.freePages, Hub.pagesFree_withCasc]
  exact Hub.landRest_withCasc c _ _

/-- An acknowledgement has the same effect whatever the cascade stands at. -/
theorem Hub.acknowledge_withCasc (h : Hub) (k o t : Nat) : (h.withCasc c).acknowledge k o t = (h.acknowledge k o t).withCasc c :=
  ite_eq_map _ .rfl rfl (ite_eq_map _ .rfl (h.raise_jrn_withCasc c _ _ _) (Hub.freePages_withCasc c { h with jrn := _ }))

end
end Sys2Proof.Machine

/-! PROOFS. Frames that a cascade hop sends. -/
namespace Sys2Proof.Machine

@[simp] theorem Hub.setCPort_cPort (h : Hub) (p j : Nat) (k : CascPort) : (h.setCPort p k).cPort j = if j = p then k else h.cPort j := by
  simp [Hub.setCPort, Hub.cPort]

@[simp] theorem Hub.send_cPort (h : Hub) (x : Tx) (j : Nat) : (h.send x).cPort j = h.cPort j := rfl

theorem Hub.setCPort_onlyIn (h : Hub) (p : Nat) (k : CascPort) : h.onlyIn [.casc] (h.setCPort p k) := by
  simp [Hub.onlyIn_iff, Hub.setCPort]

/-- A port but for what sending moves: the next SEQ, the frames that are held or wait, and their credit. -/
def CascPort.receiver (k : CascPort) : CascPort := { k with txSeq := 0, sent := [], waiting := [], txUsed := 0, lastOrigin := 0 }

/-- From `h` to `g` frames left on cascade ports. -/
structure Hub.SendsFrames (h g : Hub) : Prop where
  only : h.onlyIn [.casc, .tx] g
  casc : g.casc = { h.casc with ports := g.casc.ports }
  receiver : ∀ k, (g.cPort k).receiver = (h.cPort k).receiver

theorem Hub.SendsFrames.refl (h : Hub) : h.SendsFrames h := ⟨h.onlyIn_refl _, rfl, fun _ => rfl⟩

theorem Hub.SendsFrames.trans {h g t : Hub} (hg : h.SendsFrames g) (gt : g.SendsFrames t) : h.SendsFrames t :=
  ⟨Hub.onlyIn_trans hg.only gt.only, by rw [gt.casc, hg.casc], fun k => (gt.receiver k).trans (hg.receiver k)⟩

theorem Hub.SendsFrames.foldl {α : Type} {f : Hub → α → Hub} (hf : ∀ (g : Hub) a, g.SendsFrames (f g a)) (l : List α) (h : Hub) :
    h.SendsFrames (l.foldl f h) := by
  induction l generalizing h with
  | nil => exact .refl h
  | cons a l ih => exact (hf h a).trans (ih _)

/-- A write of a port that keeps its receiver. -/
theorem Hub.setCPort_sendsFrames (h : Hub) (p : Nat) (k : CascPort) (hk : k.receiver = (h.cPort p).receiver) :
    h.SendsFrames (h.setCPort p k) := by
  refine ⟨Hub.onlyIn_mono (h.setCPort_onlyIn p k) (by decide), rfl, fun j => ?_⟩
  rw [Hub.setCPort_cPort]
  split
  · next e => rw [hk, e]
  · rfl

theorem Hub.send_sendsFrames (h : Hub) (x : Tx) : h.SendsFrames (h.send x) := ⟨by simp [Hub.onlyIn_iff], rfl, fun _ => rfl⟩

theorem Hub.cascEmit_sendsFrames (h : Hub) (p type : Nat) (body : List Byte) : h.SendsFrames (h.cascEmit p type body) := by
  refine .trans (h.setCPort_sendsFrames p _ ?_) (Hub.send_sendsFrames _ _)
  rfl

theorem Hub.cascDrain_sendsFrames (h : Hub) (p n : Nat) : h.SendsFrames (h.cascDrain p n) := by
  induction n generalizing h with
  | zero => exact .refl h
  | succ n ih =>
    unfold Hub.cascDrain
    dsimp only
    split
    · split
      · refine .trans (.trans (h.setCPort_sendsFrames p _ ?_) (Hub.cascEmit_sendsFrames _ _ _ _)) (ih _)
        rfl
      · exact .refl h
    · exact .refl h

theorem Hub.cascSend_sendsFrames (h : Hub) (p type : Nat) (body : List Byte) : h.SendsFrames (h.cascSend p type body) := by
  unfold Hub.cascSend
  dsimp only
  split_ifs
  · exact h.send_sendsFrames _
  · refine .trans (h.setCPort_sendsFrames p _ ?_) (Hub.cascDrain_sendsFrames _ _ _)
    rfl
  · exact h.cascEmit_sendsFrames _ _ _

/-! ### CREDIT (R420, R421) -/

/-- The CREDIT frame that a port sends next. -/
def Hub.creditFrame (h : Hub) (p : Nat) : CFrame where
  seq := (h.cPort p).txSeq
  type := 7
  body := b4 (h.cascRoom p) ++ b4 (((h.cPort p).rxSeq + 2 ^ 32 - 1) % 2 ^ 32)

theorem Hub.cascEmit_cPort (h : Hub) (p type j : Nat) (body : List Byte) : (h.cascEmit p type body).cPort j = if j = p then
    { h.cPort p with txSeq := ((h.cPort p).txSeq + 1) % 2 ^ 32
                     sent := (h.cPort p).sent ++ [{ seq := (h.cPort p).txSeq, type := type, body := body }] } else h.cPort j := by
  rw [Hub.cascEmit, Hub.send_cPort, Hub.setCPort_cPort]

theorem Hub.cascEmit_tx (h : Hub) (p type : Nat) (body : List Byte) :
    ∃ c, (h.cascEmit p type body).tx = h.tx ++ [.casc p type (h.cPort p).txSeq c] := ⟨_, rfl⟩

/-- The hub whose port has the LIMIT of its next CREDIT. -/
def Hub.limitMoved (h : Hub) (p : Nat) : Hub := h.setCPort p { h.cPort p with rxLimit := h.cascRoom p, creditAt := h.xoCycles }

theorem Hub.cascCredit_eq (h : Hub) (p : Nat) : h.cascCredit p = (h.limitMoved p).cascEmit p 7 (h.creditFrame p).body := rfl

theorem Hub.cascCredit_cPort (h : Hub) (p j : Nat) : (h.cascCredit p).cPort j = if j = p then { h.cPort p with
    rxLimit := h.cascRoom p, creditAt := h.xoCycles, txSeq := ((h.cPort p).txSeq + 1) % 2 ^ 32
    sent := (h.cPort p).sent ++ [h.creditFrame p] } else h.cPort j := by
  have moved : (h.limitMoved p).cPort p = { h.cPort p with rxLimit := h.cascRoom p, creditAt := h.xoCycles } := by
    rw [Hub.limitMoved, Hub.setCPort_cPort, if_pos rfl]
  rw [Hub.cascCredit_eq, Hub.cascEmit_cPort, moved]
  by_cases hj : j = p
  · rw [if_pos hj, if_pos hj, Hub.creditFrame]
  · rw [if_neg hj, if_neg hj, Hub.limitMoved, Hub.setCPort_cPort, if_neg hj]

theorem Hub.cascCredit_tx (h : Hub) (p : Nat) : ∃ c, (h.cascCredit p).tx = h.tx ++ [.casc p 7 (h.cPort p).txSeq c] := by
  obtain ⟨c, e⟩ := (h.limitMoved p).cascEmit_tx p 7 (h.creditFrame p).body
  refine ⟨c, ?_⟩
  rw [Hub.cascCredit_eq, e, Hub.limitMoved, Hub.setCPort_cPort, if_pos rfl]
  rfl

theorem Hub.cascCredit_onlyIn (h : Hub) (p : Nat) : h.onlyIn [.casc, .tx] (h.cascCredit p) :=
  Hub.onlyIn_trans (Hub.onlyIn_mono (h.setCPort_onlyIn p _) (by decide)) (Hub.cascSend_sendsFrames _ _ _ _).only

theorem Hub.cascCredit_casc (h : Hub) (p : Nat) : (h.cascCredit p).casc = { h.casc with ports := (h.cascCredit p).casc.ports } :=
  (Hub.cascSend_sendsFrames (h.setCPort p _) p 7 _).casc

theorem Hub.cascRecredit_onlyIn (h : Hub) (p : Nat) : h.onlyIn [.casc, .tx] (h.cascRecredit p) := by
  unfold Hub.cascRecredit
  split
  · exact h.cascCredit_onlyIn p
  · exact h.onlyIn_refl _

theorem Hub.cascRecredit_cPort (h : Hub) {p j : Nat} (hj : j ≠ p) : (h.cascRecredit p).cPort j = h.cPort j := by
  unfold Hub.cascRecredit
  split
  · rw [Hub.cascCredit_cPort, if_neg hj]
  · rfl

end Sys2Proof.Machine

/-! PROOFS. Frames that a cascade hop receives (O60). -/
namespace Sys2Proof.Machine

/-! ### A frame arrives (R421, R433) -/

/-- A frame of a type with payload `b` arrives in SEQ order on a hop that is up, and its link checks pass. -/
structure Hub.Arrives (h : Hub) (type p : Nat) (intact : Bool) (frame b : List Byte) : Prop where
  powered : h.powered = true
  running : h.clk.held = false
  up : (h.cPort p).st = .up
  fault : cascFault type (h.cPort p).level intact frame = none
  seq : frameSeq frame = (h.cPort p).rxSeq
  pay : framePay frame = b

/-- The hub that counts the frame as received. -/
def Hub.heard (h : Hub) (p : Nat) : Hub := h.setCPort p { h.cPort p with rxSeq := ((h.cPort p).rxSeq + 1) % 2 ^ 32 }

theorem Hub.heard_onlyIn (h : Hub) (p : Nat) : h.onlyIn [.casc] (h.heard p) := h.setCPort_onlyIn p _

@[simp] theorem Hub.heard_cPort (h : Hub) (p j : Nat) : (h.heard p).cPort j =
    if j = p then { h.cPort p with rxSeq := ((h.cPort p).rxSeq + 1) % 2 ^ 32 } else h.cPort j := h.setCPort_cPort p j _

theorem leNat_lt (l : List Byte) : leNat l < 256 ^ l.length := by
  induction l with
  | nil => simp [leNat]
  | cons x l ih =>
    have := x.isLt
    simp only [leNat, List.length_cons, Nat.pow_succ]
    omega

theorem frameSeq_lt (f : List Byte) : frameSeq f < 2 ^ 32 := by
  have len : ((f.drop 4).take 4).length ≤ 4 := by simp
  calc frameSeq f < 256 ^ ((f.drop 4).take 4).length := leNat_lt _
    _ ≤ 256 ^ 4 := Nat.pow_le_pow_right (by decide) len
    _ = 2 ^ 32 := by decide

theorem diff32_self {a : Nat} (ha : a < 2 ^ 32) : diff32 a a = 0 := by
  rw [diff32, Nat.mod_eq_of_lt ha, Nat.add_sub_cancel_left]
  decide

/-- A hop that is up and already in use stays as it is when a frame is accepted. -/
theorem Hub.cascUpNow_up {h : Hub} {p : Nat} (hu : (h.cPort p).st = .up) : h.cascUpNow p = h := by
  simp [Hub.cascUpNow, hu]

/-- A frame that passes its type's checks takes effect, and CREDIT follows (log entry 38). -/
theorem Hub.cascRx_accepts {h : Hub} {c : CascRx} {p : Nat} {intact : Bool} {frame b : List Byte} (ha : h.Arrives c.type p intact frame b)
    (ht : c.type ≠ 1) (hs : c.stage = CascPort.carries) (hl : c.len b.length = true) (hc : c.check h p b = none)
    (hu : ((c.use (h.heard p) p b).cPort p).st = .up) : h.cascRx c p intact frame = (c.use (h.heard p) p b).cascCredit p := by
  obtain ⟨-, running, up, fault, seq, rfl⟩ := ha
  have order : diff32 (frameSeq frame) (h.cPort p).rxSeq = 0 := by rw [← seq, diff32_self (frameSeq_lt frame)]
  have stage : c.stage (h.cPort p) = true := by simp [hs, CascPort.carries, up]
  have first : (if (h.cPort p).step = 10 then (h.heard p).cascUpNow p else h.heard p) = h.heard p := by
    rw [Hub.cascUpNow_up (by simp [up]), ite_self]
  unfold Hub.cascRx
  dsimp only
  rw [if_neg (by simp [stage, running]), if_neg ht, fault]
  dsimp only
  rw [order, if_neg (by decide), if_neg (by decide), if_neg (by simp [hl]), hc]
  dsimp only
  rw [← Hub.heard, first, if_pos hu]

/-- What a row does with such a frame: its effect changes the chapters `cs`, and CREDIT follows. -/
theorem Hub.Arrives.does {i : Instr} {s : State} {c : CascRx} {p : Nat} {intact : Bool} {frame b : List Byte} {cs : List Chapter}
    {P : Hub → Prop} (ha : s.hub.Arrives c.type p intact frame b) (hi : exec i s = s.row fun h => h.cascRx c p intact frame)
    (ht : c.type ≠ 1) (hs : c.stage = CascPort.carries) (hl : c.len b.length = true) (hc : c.check s.hub p b = none)
    (hcs : [.casc, .tx] ⊆ cs) (hu : ((c.use (s.hub.heard p) p b).cPort p).st = .up)
    (ho : (s.hub.heard p).onlyIn cs (c.use (s.hub.heard p) p b)) (hP : P ((c.use (s.hub.heard p) p b).cascCredit p)) : Does i s cs P := by
  have accepts := Hub.cascRx_accepts ha ht hs hl hc hu
  refine does_row hi ha.powered ?_ (accepts ▸ hP)
  rw [accepts]
  refine Hub.onlyIn_trans (Hub.onlyIn_mono (s.hub.heard_onlyIn p) fun d hd => hcs (by simpa using .inl (by simpa using hd))) ?_
  exact Hub.onlyIn_trans ho (Hub.onlyIn_mono (Hub.cascCredit_onlyIn _ p) hcs)

/-- A hop that carries nothing ignores a frame. -/
theorem does_notCarried {i : Instr} {s : State} {c : CascRx} {p : Nat} {intact : Bool} {frame : List Byte}
    (hi : exec i s = s.row fun h => h.cascRx c p intact frame) (hs : c.stage = CascPort.carries) (hp : s.hub.powered = true)
    (hc : (s.hub.cPort p).carries = false) : Does i s [] fun _ => True :=
  does_nothing hi hp (by simp [Hub.cascRx, hs, hc])

end Sys2Proof.Machine

/-! PROOFS. Rosters and triggers on a cascade hop (O60). -/
namespace Sys2Proof.Machine

/-! ### ROSTER (R419) -/

/-- The entries of a ROSTER frame: HUB_ID, HOPS and LV_MAX. -/
def rosterEntries (b : List Byte) : List (Nat × Nat × Nat) :=
  (List.range (at_ b 0 1)).map fun i => (at_ b (4 + 4 * i) 1, at_ b (5 + 4 * i) 1, at_ b (6 + 4 * i) 1)

/-- The master keeps the roster and passes none on. -/
theorem rxRoster_use {h : Hub} (hm : h.isMaster = true) (p : Nat) (b : List Byte) : h.onlyIn [.casc] (rxRoster.use h p b) ∧
    ∀ k, (rxRoster.use h p b).cPort k = if k = p then { h.cPort p with roster := rosterEntries b } else h.cPort k := by
  dsimp only [rxRoster]
  split
  · next e =>
    refine ⟨h.onlyIn_refl _, fun k => ?_⟩
    split
    · next hk => rw [hk, rosterEntries, ← e]
    · rfl
  · have kept : ∀ k : CascPort, (h.setCPort p k).sendRoster = h.setCPort p k := fun k =>
      if_pos (by rw [show (h.setCPort p k).isMaster = true from hm]; rfl)
    rw [kept]
    exact ⟨h.setCPort_onlyIn p _, fun k => h.setCPort_cPort p k _⟩

section
variable {s : State} {p : Fin 2} {intact : Bool} {frame b : List Byte}

theorem cascRosterReceive_keeps (ha : s.hub.Arrives 9 p intact frame b) (hlen : b.length = 4 + 4 * at_ b 0 1) (hz : at_ b 1 3 = 0)
    (hm : s.hub.isMaster = true) (ht : s.hub.rosterTwice p ((List.range (at_ b 0 1)).map fun i => at_ b (4 + 4 * i) 1) = false)
    (he : ∀ i : Nat, i < at_ b 0 1 → at_ b (7 + 4 * i) 1 = 0) :
    Does (.cascRosterReceive p intact frame) s [.casc, .tx] fun t => (t.cPort p).rxSeq = ((s.hub.cPort p).rxSeq + 1) % 2 ^ 32 ∧
      (t.cPort p).roster = rosterEntries b ∧ ∀ k : Nat, k ≠ p.val → t.cPort k = s.hub.cPort k := by
  obtain ⟨only, ports⟩ := rxRoster_use (h := s.hub.heard p) hm p b
  have check : rxRoster.check s.hub p b = none := by simpa [rxRoster, hlen, hz, hm, ht, Hub.downEnd] using he
  refine ha.does (c := rxRoster) rfl (by decide) rfl (by simp [rxRoster]; omega) check (by decide) ?_ (Hub.onlyIn_mono only (by decide)) ?_
  · simp [ports, ha.up]
  · simp +contextual [Hub.cascCredit_cPort, ports]

end

/-! ### Triggers (R190, R426) -/

theorem Hub.setCg_onlyIn (h : Hub) (g : Nat) (x : CapGroup) : h.onlyIn [.host, .evt, .trg, .tx] (h.setCg g x) := by
  simp [Hub.onlyIn_iff, Hub.setCg]

theorem Hub.segsDead_onlyIn (h : Hub) (g : Nat) : h.onlyIn [.host, .evt, .trg, .tx] (h.segsDead g) := by
  have raised : ∀ (l : List Nat) (k : Hub), k.onlyIn [.host, .evt, .trg, .tx] (l.foldl (fun (h : Hub) _ => h.raise 44 (b1 g)) k) :=
    Hub.onlyIn_foldl fun k _ => Hub.onlyIn_mono (k.raise_onlyIn 44 _) (by decide)
  have freed : ∀ k : Hub, k.onlyIn [.host, .evt, .trg, .tx] k.descFreed := fun k => by simp [Hub.onlyIn_iff, Hub.descFreed]
  unfold Hub.segsDead
  dsimp only
  split
  · exact h.onlyIn_refl _
  · exact Hub.onlyIn_trans (Hub.onlyIn_trans (h.setCg_onlyIn g _) (raised _ _)) (freed _)

theorem Hub.segOpen_onlyIn (h : Hub) (g : Nat) (anchor : T64) (epoch status : Nat) (c : Cause) :
    h.onlyIn [.host, .evt, .trg, .tx] (h.segOpen g anchor epoch status c).1 := by
  have raised : ∀ (k : Hub) ev data, k.onlyIn [.host, .evt, .trg, .tx] (k.raise ev data) := fun k ev data =>
    Hub.onlyIn_mono (k.raise_onlyIn ev data) (by decide)
  unfold Hub.segOpen
  dsimp only
  split
  · dsimp only
    split
    · exact h.setCg_onlyIn _ _
    · exact Hub.onlyIn_trans (h.setCg_onlyIn _ _) (raised _ _ _)
  · dsimp only
    split
    · exact Hub.onlyIn_trans (h.setCg_onlyIn _ _) (Hub.onlyIn_trans (raised _ _ _) (Hub.segsDead_onlyIn _ _))
    · exact h.setCg_onlyIn _ _

theorem Hub.segGroup_onlyIn (h : Hub) (g : Nat) (w : SegDue) : h.onlyIn [.host, .evt, .trg, .tx] (h.segGroup g w).1 := by
  unfold Hub.segGroup
  dsimp only
  split
  · exact h.onlyIn_refl _
  · split
    · exact h.setCg_onlyIn _ _
    · split
      · exact h.setCg_onlyIn _ _
      · exact h.segOpen_onlyIn _ _ _ _ _

theorem Hub.noSegment_onlyIn (h : Hub) (u : Nat) (det : T64) : h.onlyIn [.host, .evt, .trg, .tx] (h.noSegment u det) := by
  simp [Hub.onlyIn_iff, Hub.noSegment, Hub.unitCount, Hub.setUnit]

theorem Hub.segDue_onlyIn (h : Hub) : h.onlyIn [.host, .evt, .trg, .tx] h.segDue := by
  refine Hub.onlyIn_foldl (fun k g => ?_) _ _
  dsimp only
  split
  · exact k.onlyIn_refl _
  · refine Hub.onlyIn_trans (k.setCg_onlyIn g _) (Hub.onlyIn_foldl (fun j w => ?_) _ _)
    split
    · exact Hub.onlyIn_trans (j.segGroup_onlyIn g w) (Hub.noSegment_onlyIn _ _ _)
    · exact j.segGroup_onlyIn g w

theorem Hub.segTrigger_onlyIn (h : Hub) (groups : Nat) (w : SegDue) : h.onlyIn [.host, .evt, .trg, .tx] (h.segTrigger groups w).1 := by
  have all : ∀ (l : List Nat) (k : Hub) (n : Nat), h.onlyIn [.host, .evt, .trg, .tx] k → h.onlyIn [.host, .evt, .trg, .tx]
      (l.foldl (fun (acc : Hub × Nat) g => let r := acc.1.segGroup g w; (r.1, acc.2 + if r.2 then 1 else 0)) (k, n)).1 := by
    intro l
    induction l with
    | nil => exact fun _ _ hk => hk
    | cons g l ih => exact fun k _ hk => ih _ _ (Hub.onlyIn_trans hk (k.segGroup_onlyIn g w))
  exact all (bitsOf groups 32) h.segDue 0 h.segDue_onlyIn

theorem Hub.ctApply_onlyIn (h : Hub) (line hub unit epoch : Nat) (cross : T64) :
    h.onlyIn [.host, .evt, .trg, .tx] (h.ctApply line hub unit epoch cross) := by
  unfold Hub.ctApply
  split
  · simp [Hub.onlyIn_iff]
  · exact Hub.onlyIn_trans (by simp [Hub.onlyIn_iff]) (Hub.segTrigger_onlyIn _ _ _)

/-- From `h` to `g` a trigger went on and took effect: what the ports have received and the messages seen stay. -/
structure Hub.Relays (h g : Hub) : Prop where
  only : h.onlyIn [.host, .evt, .trg, .casc, .tx] g
  receiver : ∀ k, (g.cPort k).receiver = (h.cPort k).receiver
  seen : g.casc.seen = h.casc.seen

theorem Hub.Relays.trans {h g t : Hub} (hg : h.Relays g) (gt : g.Relays t) : h.Relays t :=
  ⟨Hub.onlyIn_trans hg.only gt.only, fun k => (gt.receiver k).trans (hg.receiver k), gt.seen.trans hg.seen⟩

theorem Hub.SendsFrames.relays {h g : Hub} (hg : h.SendsFrames g) : h.Relays g :=
  ⟨Hub.onlyIn_mono hg.only (by decide), hg.receiver, by rw [hg.casc]⟩

theorem Hub.ctApply_relays (h : Hub) (line hub unit epoch : Nat) (cross : T64) : h.Relays (h.ctApply line hub unit epoch cross) := by
  have only := h.ctApply_onlyIn line hub unit epoch cross
  have casc : (h.ctApply line hub unit epoch cross).casc = h.casc := only .casc (by decide)
  exact ⟨Hub.onlyIn_mono only (by decide), fun k => by rw [Hub.cPort, casc]; rfl, by rw [casc]⟩

/-- A message that comes late is counted and raises its event (R427). -/
theorem Hub.ctLate_relays (h : Hub) (late : Bool) (n : Nat) :
    h.Relays (if late then ({ h with casc := { h.casc with ctLate := n } } : Hub).raise 47 [] else h) := by
  cases late with
  | false => exact ⟨h.onlyIn_refl _, fun _ => rfl, rfl⟩
  | true => exact ⟨by simp [Hub.onlyIn_iff], fun k => by simp [Hub.cPort], by simp⟩

/-- The hub that remembers a TRIGGER message, and those of the last second. -/
def Hub.remembers (h : Hub) (b : List Byte) : Hub :=
  let seen := h.casc.seen.filter fun s => decide (h.xoCycles ≤ 49152000 + s.2.2)
  { h with casc := { h.casc with seen := (at_ b 1 1, at_ b 16 4, h.xoCycles) :: seen } }

/-- A message of another hub that has not been seen is remembered, goes on and takes effect. -/
theorem rxTrigger_use {h : Hub} {b : List Byte} (hown : at_ b 1 1 ≠ h.sys.straps.hubId) (hops : at_ b 3 1 < 15)
    (hs : ∀ e ∈ h.casc.seen, e.1 ≠ at_ b 1 1) (p : Nat) : (h.remembers b).Relays (rxTrigger.use h p b) := by
  have fresh : ∀ f : Nat × Nat × Nat → Bool, ((h.casc.seen.filter f).any fun e => e.1 == at_ b 1 1 && e.2.1 == at_ b 16 4) = false := by
    intro f
    simp only [List.any_eq_false, List.mem_filter, Bool.and_eq_true, beq_iff_eq]
    exact fun e he heq => hs e he.1 heq.1
  have sent := Hub.SendsFrames.foldl (fun g q => g.cascSend_sendsFrames q 4 (b.take 3 ++ b1 (at_ b 3 1 + 1) ++ b.drop 4))
    ((h.remembers b).cascUp.filter (· != p)) (h.remembers b)
  dsimp only [rxTrigger]
  rw [if_neg (by rw [fresh]; simp [hown]; omega)]
  refine .trans ?_ (Hub.ctApply_relays _ _ _ _ _ _)
  exact sent.relays.trans (Hub.ctLate_relays _ _ _)

section
variable {s : State} {p : Fin 2} {intact : Bool} {frame b : List Byte}

theorem cascTriggerReceive_remembers (ha : s.hub.Arrives 4 p intact frame b) (hlen : b.length = 20) (hz : at_ b 6 2 = 0)
    (hline : at_ b 0 1 < 16) (hown : at_ b 1 1 ≠ s.hub.sys.straps.hubId) (hops : at_ b 3 1 < 15)
    (hs : ∀ e ∈ s.hub.casc.seen, e.1 ≠ at_ b 1 1) :
    Does (.cascTriggerReceive p intact frame) s [.host, .evt, .jrn, .trg, .casc, .tx] fun t =>
      (t.cPort p).rxSeq = ((s.hub.cPort p).rxSeq + 1) % 2 ^ 32 ∧ (at_ b 1 1, at_ b 16 4, s.hub.xoCycles) ∈ t.casc.seen := by
  have relays := rxTrigger_use (h := s.hub.heard p) hown hops hs p
  have receiver := relays.receiver p
  have port : ((s.hub.heard p).cPort p) = _ := (s.hub.heard_cPort p p).trans (if_pos rfl)
  have up : ((rxTrigger.use (s.hub.heard p) p b).cPort p).st = .up :=
    (congrArg CascPort.st receiver).trans ((congrArg CascPort.st port).trans ha.up)
  have rxSeq : ((rxTrigger.use (s.hub.heard p) p b).cPort p).rxSeq = ((s.hub.cPort p).rxSeq + 1) % 2 ^ 32 :=
    (congrArg CascPort.rxSeq receiver).trans (congrArg CascPort.rxSeq port)
  refine ha.does (c := rxTrigger) rfl (by decide) rfl (by simp [rxTrigger, hlen]) (by simp [rxTrigger, hz, hline]) (by decide) up ?_ ⟨?_, ?_⟩
  · exact Hub.onlyIn_trans (by simp [Hub.onlyIn_iff, Hub.remembers]) (Hub.onlyIn_mono relays.only (by decide))
  · rw [Hub.cascCredit_cPort, if_pos rfl]
    exact rxSeq
  · rw [Hub.cascCredit_casc, relays.seen]
    exact List.mem_cons_self

end
end Sys2Proof.Machine

/-! PROOFS. Records, acknowledgements, credit, epochs and health on a cascade hop (O60). -/
namespace Sys2Proof.Machine

/-! ### Records (R428, R429) -/

/-- The hub that counts a RECORD frame's units as used. -/
def Hub.recordUsed (h : Hub) (p : Nat) (b : List Byte) : Hub :=
  h.setCPort p { h.cPort p with rxUsed := (h.cPort p).rxUsed + creditCost b.length }

/-- That hub once it counts the frame's data as passed on. -/
def Hub.recordPassed (h : Hub) (p : Nat) (b : List Byte) : Hub :=
  { h.recordUsed p b with casc := { (h.recordUsed p b).casc with relayed := h.casc.relayed + (b.length - 4) } }

/-- A record that is put together changes what the port holds of it, and what is kept for the relay consumers. -/
theorem Hub.relayTake_keeps (h : Hub) (p o : Nat) (start : Bool) (data : List Byte) : ∃ ps j,
    ∀ k, (h.relayTake p o start data).cPort k = (if k = p then { h.cPort p with partials := ps } else h.cPort k) ∧
      h.relayTake p o start data = { h with jrn := j, casc := { h.casc with ports := (h.relayTake p o start data).casc.ports } } := by
  have own : ∀ k, h.cPort k = if k = p then { h.cPort p with partials := (h.cPort p).partials } else h.cPort k := by
    intro k
    split
    · next hk => rw [hk]
    · rfl
  unfold Hub.relayTake
  dsimp only
  split
  · exact ⟨_, _, fun k => ⟨own k, rfl⟩⟩
  · split
    · exact ⟨_, _, fun k => ⟨h.setCPort_cPort p k _, rfl⟩⟩
    · split
      · exact ⟨_, _, fun k => ⟨h.setCPort_cPort p k _, rfl⟩⟩
      · exact ⟨_, _, fun k => ⟨h.setCPort_cPort p k _, rfl⟩⟩

section
variable {s : State} {p : Fin 2} {intact : Bool} {frame b : List Byte}

theorem rxRecord_check {h : Hub} (hz : at_ b 2 2 = 0) (hf : at_ b 1 1 ≤ 1) (hl : (h.cPort p).rxUsed + creditCost b.length ≤ (h.cPort p).rxLimit)
    (ho : (h.cPort p).roster.any (fun e => e.1 == at_ b 0 1) = true) : rxRecord.check h p b = none := by
  dsimp only [rxRecord]
  rw [if_neg (by omega), if_neg (by rw [ho]; simp; omega)]

/-- The master takes the frame's data. -/
theorem cascRecordReceive_takes (ha : s.hub.Arrives 5 p intact frame b) (hlen : 4 < b.length) (hz : at_ b 2 2 = 0) (hf : at_ b 1 1 ≤ 1)
    (hl : (s.hub.cPort p).rxUsed + creditCost b.length ≤ (s.hub.cPort p).rxLimit)
    (ho : (s.hub.cPort p).roster.any (fun e => e.1 == at_ b 0 1) = true) (hm : s.hub.isMaster = true) :
    Does (.cascRecordReceive p intact frame) s [.jrn, .casc, .tx] fun t => (t.cPort p).rxSeq = ((s.hub.cPort p).rxSeq + 1) % 2 ^ 32 ∧
      (t.cPort p).rxUsed = (s.hub.cPort p).rxUsed + creditCost b.length ∧ t.casc.relayed = s.hub.casc.relayed ∧
      ∀ k : Nat, k ≠ p.val → t.cPort k = s.hub.cPort k := by
  have use : rxRecord.use (s.hub.heard p) p b =
      ((s.hub.heard p).recordUsed p b).relayTake p (at_ b 0 1) ((at_ b 1 1).testBit 0) (b.drop 4) := if_pos hm
  obtain ⟨ps, j, taken⟩ := ((s.hub.heard p).recordUsed p b).relayTake_keeps p (at_ b 0 1) ((at_ b 1 1).testBit 0) (b.drop 4)
  rw [← use] at taken
  have ports : ∀ k, (rxRecord.use (s.hub.heard p) p b).cPort k = _ := fun k => (taken k).1
  have eq := (taken 0).2
  have used : ∀ k, ((s.hub.heard p).recordUsed p b).cPort k = _ := fun k => Hub.setCPort_cPort _ p k _
  refine ha.does (c := rxRecord) rfl (by decide) rfl (decide_eq_true hlen) (rxRecord_check hz hf hl ho) (by decide) ?_ ?_ ⟨?_, ?_, ?_, ?_⟩
  · simp [ports, used, ha.up]
  · rw [eq]
    simp [Hub.onlyIn_iff, Hub.recordUsed, Hub.setCPort]
  · simp [Hub.cascCredit_cPort, ports, used]
  · simp [Hub.cascCredit_cPort, ports, used]
  · rw [Hub.cascCredit_casc, eq]
    rfl
  · intro k hk
    simp [Hub.cascCredit_cPort, ports, used, hk]

/-- A hub that is not the master passes the frame on upstream. -/
theorem cascRecordReceive_relays (ha : s.hub.Arrives 5 p intact frame b) (hlen : 4 < b.length) (hz : at_ b 2 2 = 0) (hf : at_ b 1 1 ≤ 1)
    (hl : (s.hub.cPort p).rxUsed + creditCost b.length ≤ (s.hub.cPort p).rxLimit)
    (ho : (s.hub.cPort p).roster.any (fun e => e.1 == at_ b 0 1) = true) (hm : s.hub.isMaster = false) :
    Does (.cascRecordReceive p intact frame) s [.casc, .tx] fun t => (t.cPort p).rxSeq = ((s.hub.cPort p).rxSeq + 1) % 2 ^ 32 ∧
      (t.cPort p).rxUsed = (s.hub.cPort p).rxUsed + creditCost b.length ∧
      t.casc.relayed = s.hub.casc.relayed + (b.length - 4) := by
  have sends : ((s.hub.heard p).recordPassed p b).SendsFrames (rxRecord.use (s.hub.heard p) p b) := by
    have use : rxRecord.use (s.hub.heard p) p b = _ := if_neg (ne_true_of_eq_false hm)
    rw [use]
    exact Hub.cascSend_sendsFrames _ _ _ _
  have port : ((s.hub.heard p).recordPassed p b).cPort p = { s.hub.cPort p with
      rxSeq := ((s.hub.cPort p).rxSeq + 1) % 2 ^ 32, rxUsed := (s.hub.cPort p).rxUsed + creditCost b.length } :=
    (Hub.setCPort_cPort _ p p _).trans (by simp)
  have receiver := sends.receiver p
  rw [port] at receiver
  refine ha.does (c := rxRecord) rfl (by decide) rfl (decide_eq_true hlen) (rxRecord_check hz hf hl ho) (by decide)
    ((congrArg CascPort.st receiver).trans ha.up) ?_ ⟨?_, ?_, ?_⟩
  · exact Hub.onlyIn_trans (by simp [Hub.onlyIn_iff, Hub.recordPassed, Hub.recordUsed, Hub.setCPort]) sends.only
  · rw [Hub.cascCredit_cPort, if_pos rfl]
    exact congrArg CascPort.rxSeq receiver
  · rw [Hub.cascCredit_cPort, if_pos rfl]
    exact congrArg CascPort.rxUsed receiver
  · rw [Hub.cascCredit_casc, sends.casc]
    rfl

/-! ### ACK (R323, R428) -/

/-- An entry for this hub alone is its consumer 2's acknowledgement, and nothing goes on. -/
theorem rxAck_use (h : Hub) (p : Nat) (hn : at_ b 0 1 = 1) (ho : at_ b 4 1 = h.sys.straps.hubId) :
    rxAck.use h p b = (h.acknowledge 2 h.sys.straps.hubId (at_ b 12 8)).slMarks := by
  have idle : ∀ g : Hub, g.forwardAcks [] = g := fun g => if_pos (by simp)
  dsimp only [rxAck]
  rw [hn]
  simp [ho, idle]

theorem cascAckReceive_acknowledges (ha : s.hub.Arrives 6 p intact frame b) (hlen : b.length = 20) (hn : at_ b 0 1 = 1) (hz : at_ b 1 3 = 0)
    (hd : s.hub.downEnd p = true) (ho : at_ b 4 1 = s.hub.sys.straps.hubId) (he : at_ b 5 7 = 0) :
    Does (.cascAckReceive p intact frame) s [.host, .evt, .jrn, .sto, .flt, .sl, .casc, .tx] fun t =>
      (t.cPort p).rxSeq = ((s.hub.cPort p).rxSeq + 1) % 2 ^ 32 ∧
      t.jrn = (s.hub.acknowledge 2 s.hub.sys.straps.hubId (at_ b 12 8)).jrn := by
  have use : rxAck.use (s.hub.heard p) p b = ((s.hub.heard p).acknowledge 2 s.hub.sys.straps.hubId (at_ b 12 8)).slMarks :=
    rxAck_use (s.hub.heard p) p hn ho
  have heard : (s.hub.heard p).acknowledge 2 s.hub.sys.straps.hubId (at_ b 12 8) =
      (s.hub.acknowledge 2 s.hub.sys.straps.hubId (at_ b 12 8)).withCasc (s.hub.heard p).casc :=
    Hub.acknowledge_withCasc (s.hub.heard p).casc s.hub 2 _ _
  have only : (s.hub.heard p).onlyIn [.host, .evt, .jrn, .sto, .flt, .sl, .tx] (rxAck.use (s.hub.heard p) p b) := by
    rw [use]
    exact Hub.onlyIn_trans (Hub.onlyIn_mono (Hub.acknowledge_onlyIn _ _ _ _) (by decide)) (Hub.onlyIn_mono (Hub.slMarks_onlyIn _) (by decide))
  have port : (rxAck.use (s.hub.heard p) p b).cPort p = _ :=
    (congrArg (fun c : CascSt => c.ports.get p) (only .casc (by decide))).trans ((s.hub.heard_cPort p p).trans (if_pos rfl))
  have check : rxAck.check s.hub p b = none := if_pos ⟨by omega, by split <;> omega, hz, by simp [hn, he], hd⟩
  refine ha.does (c := rxAck) rfl (by decide) rfl (by simp [rxAck, hlen]) check (by decide) ?_ (Hub.onlyIn_mono only (by decide)) ⟨?_, ?_⟩
  · rw [port, ha.up]
  · rw [Hub.cascCredit_cPort, if_pos rfl, port]
  · rw [show (Hub.cascCredit _ p).jrn = _ from Hub.cascCredit_onlyIn _ p .jrn (by decide), use,
      show (Hub.slMarks _).jrn = _ from Hub.slMarks_onlyIn _ .jrn (by decide), heard]
    rfl

/-! ### CREDIT and NAK (R421) -/

/-- A port once a CREDIT frame has moved its LIMIT and freed the frames that it acknowledges. -/
def CascPort.credited (k : CascPort) (b : List Byte) : CascPort :=
  { k with txLimit := k.txLimit + (diff32 (at_ b 0 4) k.txLimit).toNat
           sent := k.sent.filter fun f => decide (0 < diff32 f.seq (at_ b 4 4)) }

/-- Without frames that wait a CREDIT frame moves its own port, and from port U lets port D give credit. -/
theorem rxCredit_use {h : Hub} {p : Nat} (hw : (h.cPort p).waiting = []) (b : List Byte) : h.onlyIn [.casc, .tx] (rxCredit.use h p b) ∧
    (rxCredit.use h p b).cPort p = (h.cPort p).credited b ∧ (p = 1 → (rxCredit.use h p b).cPort 0 = h.cPort 0) := by
  have empty : (h.cPort p).waiting.length = 0 := congrArg List.length hw
  have use : rxCredit.use h p b = if p = 0 then (h.setCPort p ((h.cPort p).credited b)).cascRecredit 1 else
      h.setCPort p ((h.cPort p).credited b) := by
    dsimp only [rxCredit]
    rw [empty]
    rfl
  have moved : h.onlyIn [.casc, .tx] (h.setCPort p ((h.cPort p).credited b)) := Hub.onlyIn_mono (h.setCPort_onlyIn p _) (by decide)
  rw [use]
  split
  · next hp =>
    subst hp
    refine ⟨Hub.onlyIn_trans moved (Hub.cascRecredit_onlyIn _ 1), ?_, nofun⟩
    rw [Hub.cascRecredit_cPort _ (by decide), Hub.setCPort_cPort, if_pos rfl]
  · refine ⟨moved, ?_, ?_⟩
    · rw [Hub.setCPort_cPort, if_pos rfl]
    · rintro rfl
      rw [Hub.setCPort_cPort, if_neg (by decide)]

theorem cascCreditReceive_credits (ha : s.hub.Arrives 7 p intact frame b) (hlen : b.length = 8) (hw : (s.hub.cPort p).waiting = []) :
    Does (.cascCreditReceive p intact frame) s [.casc, .tx] fun t => (t.cPort p).rxSeq = ((s.hub.cPort p).rxSeq + 1) % 2 ^ 32 ∧
      (t.cPort p).txLimit = (s.hub.cPort p).txLimit + (diff32 (at_ b 0 4) (s.hub.cPort p).txLimit).toNat ∧
      (∃ f, f.type = 7 ∧
        (t.cPort p).sent = (s.hub.cPort p).sent.filter (fun f => decide (0 < diff32 f.seq (at_ b 4 4))) ++ [f]) ∧
      (p.val = 1 → t.cPort 0 = s.hub.cPort 0) := by
  have heard := (s.hub.heard_cPort p p).trans (if_pos rfl)
  obtain ⟨only, port, other⟩ := rxCredit_use (h := s.hub.heard p) (p := p) (by rw [heard]; exact hw) b
  rw [heard] at port
  refine ha.does (c := rxCredit) rfl (by decide) rfl (by simp [rxCredit, hlen]) rfl (by decide) ?_ only ⟨?_, ?_, ?_, fun hp => ?_⟩
  · rw [port]
    exact ha.up
  · rw [Hub.cascCredit_cPort, if_pos rfl, port]
    rfl
  · rw [Hub.cascCredit_cPort, if_pos rfl, port]
    rfl
  · refine ⟨(rxCredit.use (s.hub.heard p) p b).creditFrame p, rfl, ?_⟩
    rw [Hub.cascCredit_cPort, if_pos rfl, port]
    rfl
  · have far : (0 : Nat) ≠ p.val := by omega
    rw [Hub.cascCredit_cPort, if_neg far, other hp, Hub.heard_cPort, if_neg far]

/-- A held frame as it leaves again. -/
def Hub.resent (h : Hub) (p : Nat) (f : CFrame) : Tx := .casc p f.type f.seq (frameBytes f.type 0 f.seq (h.cPort p).level 0 f.body)

theorem Hub.foldl_resent (l : List CFrame) (h : Hub) (p : Nat) :
    l.foldl (fun g f => g.send (g.resent p f)) h = { h with tx := h.tx ++ l.map (h.resent p) } := by
  induction l generalizing h with
  | nil => simp
  | cons f l ih =>
    rw [List.foldl_cons, ih]
    exact congrArg (fun x => { h with tx := x }) (List.append_assoc h.tx [h.resent p f] (l.map (h.resent p)))

theorem cascNakReceive_resends (ha : s.hub.Arrives 8 p intact frame b) (hlen : b.length = 8) (hz : at_ b 5 3 = 0) :
    Does (.cascNakReceive p intact frame) s [.casc, .tx] fun t => (t.cPort p).rxSeq = ((s.hub.cPort p).rxSeq + 1) % 2 ^ 32 ∧
      (∃ c, t.tx = s.hub.tx ++ ((s.hub.cPort p).sent.filter fun f => decide (0 ≤ diff32 f.seq (at_ b 0 4))).map (s.hub.resent p) ++
        [.casc p 7 (s.hub.cPort p).txSeq c]) ∧
      (∀ k : Nat, k ≠ p.val → t.cPort k = s.hub.cPort k) := by
  have heard := (s.hub.heard_cPort p p).trans (if_pos rfl)
  have use : rxNak.use (s.hub.heard p) p b = { s.hub.heard p with
      tx := s.hub.tx ++ ((s.hub.cPort p).sent.filter fun f => decide (0 ≤ diff32 f.seq (at_ b 0 4))).map (s.hub.resent p) } := by
    refine (Hub.foldl_resent _ (s.hub.heard p) p).trans ?_
    rw [heard, show (s.hub.heard p).resent p = s.hub.resent p by funext f; rw [Hub.resent, heard]; rfl]
    rfl
  have port : ∀ k, (rxNak.use (s.hub.heard p) p b).cPort k = (s.hub.heard p).cPort k := fun k => by rw [use]; rfl
  refine ha.does (c := rxNak) rfl (by decide) rfl (by simp [rxNak, hlen]) (if_pos hz) (by decide) ?_ ?_ ⟨?_, ?_, fun k hk => ?_⟩
  · rw [port, heard, ha.up]
  · rw [use]
    simp [Hub.onlyIn_iff]
  · rw [Hub.cascCredit_cPort, if_pos rfl, port, heard]
  · obtain ⟨c, tx⟩ := Hub.cascCredit_tx (rxNak.use (s.hub.heard p) p b) p
    refine ⟨c, ?_⟩
    rw [tx, port, heard, use]
  · rw [Hub.cascCredit_cPort, if_neg hk, port, Hub.heard_cPort, if_neg hk]

/-! ### EPOCH_REQ and HOP_HEALTH (R234, R420, R425) -/

/-- The master renumbers with s = 0 into a later epoch, when no break is decided. -/
theorem rxEpochReq_use {h : Hub} (hm : h.isMaster = true) (he : 0 < epochDiff h.tb.epoch (at_ b 0 2)) (hp : h.tb.pendBreak = []) (p : Nat) :
    rxEpochReq.use h p b = { h with tb := { h.tb with
      pendBreak := [{ e := 0, s := 0, epoch := some (at_ b 0 2), kind := 6, since := h.tb.strobes }] } } := by
  dsimp only [rxEpochReq]
  rw [if_pos hm, hp, List.foldl_nil, if_pos he, List.nil_append]

theorem cascEpochReqReceive_renumbers (ha : s.hub.Arrives 10 p intact frame b) (hlen : b.length = 4) (hz : at_ b 3 1 = 0)
    (hm : s.hub.isMaster = true) (he : 0 < epochDiff s.hub.tb.epoch (at_ b 0 2)) (hp : s.hub.tb.pendBreak = []) :
    Does (.cascEpochReqReceive p intact frame) s [.tb, .casc, .tx] fun t => (t.cPort p).rxSeq = ((s.hub.cPort p).rxSeq + 1) % 2 ^ 32 ∧
      t.tb = { s.hub.tb with pendBreak := [{ e := 0, s := 0, epoch := some (at_ b 0 2), kind := 6, since := s.hub.tb.strobes }] } ∧
      (∀ k : Nat, k ≠ p.val → t.cPort k = s.hub.cPort k) := by
  have use := rxEpochReq_use (h := s.hub.heard p) hm he hp p
  have heard := (s.hub.heard_cPort p p).trans (if_pos rfl)
  have port : ∀ k, (rxEpochReq.use (s.hub.heard p) p b).cPort k = (s.hub.heard p).cPort k := fun k => by rw [use]; rfl
  refine ha.does (c := rxEpochReq) rfl (by decide) rfl (by simp [rxEpochReq, hlen]) (if_pos ⟨hz, by simp [Hub.downEnd, hm]⟩) (by decide) ?_ ?_
    ⟨?_, ?_, fun k hk => ?_⟩
  · rw [port, heard, ha.up]
  · rw [use]
    simp [Hub.onlyIn_iff]
  · rw [Hub.cascCredit_cPort, if_pos rfl, port, heard]
  · rw [show (Hub.cascCredit _ p).tb = _ from Hub.cascCredit_onlyIn _ p .tb (by decide), use]
    rfl
  · rw [Hub.cascCredit_cPort, if_neg hk, port, Hub.heard_cPort, if_neg hk]

theorem cascHopHealthReceive_keeps (ha : s.hub.Arrives 11 p intact frame b) (hlen : b.length = 16) (hl : 2 ≤ (s.hub.cPort p).level)
    (hz : at_ b 12 4 = 0) (hd : s.hub.downEnd p = false) :
    Does (.cascHopHealthReceive p intact frame) s [.casc, .tx] fun t => (t.cPort p).rxSeq = ((s.hub.cPort p).rxSeq + 1) % 2 ^ 32 ∧
      (t.cPort p).health = (at_ b 0 4, at_ b 4 4, at_ b 8 4) ∧ (∀ k : Nat, k ≠ p.val → t.cPort k = s.hub.cPort k) := by
  have ports : ∀ k, (rxHopHealth.use (s.hub.heard p) p b).cPort k = _ := fun k => Hub.setCPort_cPort _ p k _
  refine ha.does (c := rxHopHealth) rfl (by decide) rfl (by simp [rxHopHealth, hlen]) (if_pos ⟨hl, hz, by simp [hd]⟩) (by decide) ?_
    (Hub.onlyIn_mono (Hub.setCPort_onlyIn _ p _) (by decide)) ⟨?_, ?_, fun k hk => ?_⟩
  · simp [ports, ha.up]
  · simp [Hub.cascCredit_cPort, ports]
  · simp [Hub.cascCredit_cPort, ports]
  · simp [Hub.cascCredit_cPort, ports, hk]

end

/-- Settles O60: a hop that carries nothing ignores a frame; one in SEQ order on a hop that is up has the effect of its type, in the lemmas
above, and CREDIT follows it (log entry 38). -/
theorem cascadeFrameRows : Obligations.CascadeFrameRows := by
  unfold Obligations.CascadeFrameRows
  refine ⟨fun _ _ _ _ => does_notCarried rfl rfl, fun _ _ _ _ => does_notCarried rfl rfl, fun _ _ _ _ => does_notCarried rfl rfl,
    fun _ _ _ _ => does_notCarried rfl rfl, fun _ _ _ _ => does_notCarried rfl rfl, fun _ _ _ _ => does_notCarried rfl rfl,
    fun _ _ _ _ => does_notCarried rfl rfl, fun _ _ _ _ => does_notCarried rfl rfl,
    fun _ _ _ _ _ hp hh hu hf hs hb => cascRosterReceive_keeps ⟨hp, hh, hu, hf, hs, hb⟩,
    fun _ _ _ _ _ hp hh hu hf hs hb => cascTriggerReceive_remembers ⟨hp, hh, hu, hf, hs, hb⟩,
    fun _ _ _ _ _ hp hh hu hf hs hb => cascRecordReceive_takes ⟨hp, hh, hu, hf, hs, hb⟩,
    fun _ _ _ _ _ hp hh hu hf hs hb => cascRecordReceive_relays ⟨hp, hh, hu, hf, hs, hb⟩,
    fun _ _ _ _ _ hp hh hu hf hs hb => cascAckReceive_acknowledges ⟨hp, hh, hu, hf, hs, hb⟩,
    fun _ _ _ _ _ hp hh hu hf hs hb => cascCreditReceive_credits ⟨hp, hh, hu, hf, hs, hb⟩,
    fun _ _ _ _ _ hp hh hu hf hs hb => cascNakReceive_resends ⟨hp, hh, hu, hf, hs, hb⟩,
    fun _ _ _ _ _ hp hh hu hf hs hb => cascEpochReqReceive_renumbers ⟨hp, hh, hu, hf, hs, hb⟩,
    fun _ _ _ _ _ hp hh hu hf hs hb => cascHopHealthReceive_keeps ⟨hp, hh, hu, hf, hs, hb⟩⟩

end Sys2Proof.Machine

/-! PROOFS. What landing leaves as it is beside its chapters: the host interface but for pending bits, what was sent, and the OTP. -/
namespace Sys2Proof.Machine

/-- From `h` to `g` records landed and pages were freed: of the host interface pending bits alone changed, what was sent stays sent, and
nothing was programmed. -/
structure Hub.Records (h g : Hub) : Prop where
  raises : h.Raises [.jrn, .evt, .sto] g
  otp : g.sto.otp = h.sto.otp

theorem Hub.Records.refl (h : Hub) : h.Records h := ⟨.refl h _, rfl⟩

theorem Hub.Records.trans {h g t : Hub} (hg : h.Records g) (gt : g.Records t) : h.Records t :=
  ⟨hg.raises.trans gt.raises, gt.otp.trans hg.otp⟩

theorem Hub.Records.foldl {α : Type} {f : Hub → α → Hub} (hf : ∀ (g : Hub) a, g.Records (f g a)) (l : List α) (h : Hub) :
    h.Records (l.foldl f h) := by
  induction l generalizing h with
  | nil => exact .refl h
  | cons a l ih => exact (hf h a).trans (ih _)

/-- Landing may begin with a change of the journal. -/
theorem Hub.Records.of_jrn {h t : Hub} {j : JrnSt} (ht : ({ h with jrn := j } : Hub).Records t) : h.Records t :=
  have written : h.Records { h with jrn := j } := ⟨⟨by simp [Hub.onlyIn_iff], ⟨_, rfl⟩, List.prefix_refl _⟩, rfl⟩
  written.trans ht

theorem Hub.records_jrn (h : Hub) (j : JrnSt) : h.Records { h with jrn := j } := .of_jrn (.refl _)

theorem Hub.raise_records (h : Hub) (ev : Nat) (data : List Byte) : h.Records (h.raise ev data) :=
  ⟨(h.raise_raises h.jrn ev data).mono (by decide), by simp⟩

theorem Hub.raiseLimited_records (h : Hub) (ev : Nat) (data : List Byte) : h.Records (h.raiseLimited ev data) := by
  unfold Hub.raiseLimited
  dsimp only
  split
  · exact (h.raise_records ev data).trans
      ⟨(Hub.raises_of_onlyIn (cs := [.evt]) (by simp [Hub.onlyIn_iff]) (by decide) (by decide)).mono (by decide), rfl⟩
  · exact .refl h

theorem Hub.saveState_records (h : Hub) (handle : Option Nat) : h.Records (h.saveState handle) := by
  unfold Hub.saveState
  split
  · exact .refl h
  · exact ⟨Hub.raises_of_onlyIn (by simp [Hub.onlyIn_iff]) (by decide) (by decide), rfl⟩

theorem Hub.jrnDegrade_records (h : Hub) : h.Records h.jrnDegrade := ⟨h.jrnDegrade_raises.mono (by decide), by simp⟩
theorem Hub.jrnState_records (h : Hub) : h.Records h.jrnState := ⟨h.jrnState_raises.mono (by decide), by simp⟩

theorem Hub.skipOn_records (h : Hub) (c : Nat) : h.Records (h.skipOn c) := by
  unfold Hub.skipOn
  dsimp only
  split
  · exact .of_jrn (Hub.raise_records _ _ _)
  · exact .refl h

theorem Hub.skipDropped_records (h : Hub) (dropped : List Rec) : h.Records (h.skipDropped dropped) := by
  refine .foldl (fun g c => ?_) _ _
  dsimp only
  split
  · exact .refl g
  · exact .of_jrn (Hub.skipOn_records _ c)

theorem Hub.pagesFree_records (h : Hub) : h.Records h.pagesFree := by
  unfold Hub.pagesFree
  dsimp only
  split
  · exact .refl h
  · have retired : ∀ (l : List Nat) (g : Hub), g.Records (l.foldl (fun g n => (g.raise 67 (b4 n)).saveState none) g) :=
      .foldl fun g n => (g.raise_records _ _).trans (Hub.saveState_records _ _)
    exact .of_jrn ((((Hub.skipDropped_records _ _).trans (retired _ _)).trans (Hub.jrnDegrade_records _)).trans (Hub.jrnState_records _))

theorem Hub.takeTicket_records (h : Hub) : h.Records h.takeTicket.2 := by
  unfold Hub.takeTicket
  dsimp only
  split
  · exact .of_jrn (Hub.saveState_records _ none)
  · exact h.records_jrn _

theorem Hub.takePage_records {h g : Hub} {w t n : Nat} {ss : List Share} (e : h.takePage w ss t = some (n, g)) : h.Records g := by
  unfold Hub.takePage at e
  split at e
  · exact absurd e nofun
  · obtain ⟨-, rfl⟩ := Prod.mk.inj (Option.some.inj e)
    exact h.records_jrn _

theorem Hub.appendBytes_records {h g : Hub} {w t fuel n : Nat} {ss : List Share} {starts : Bool} {acc ps : List Nat}
    (e : h.appendBytes w ss t starts fuel n acc = some (ps, g)) : h.Records g := by
  induction fuel generalizing h starts n acc with
  | zero => obtain ⟨-, rfl⟩ := Prod.mk.inj (Option.some.inj e); exact .refl h
  | succ fuel ih =>
    unfold Hub.appendBytes at e
    dsimp only at e
    split at e
    · obtain ⟨-, rfl⟩ := Prod.mk.inj (Option.some.inj e); exact .refl h
    · split at e
      · split at e
        · exact .of_jrn (ih e)
        · split at e
          · exact absurd e nofun
          · next hp => exact (Hub.takePage_records hp).trans (ih e)
      · split at e
        · exact absurd e nofun
        · next hp => exact (Hub.takePage_records hp).trans (ih e)

theorem Hub.append_records {h g : Hub} {w t n : Nat} {ss : List Share} {starts : Bool} {ps : List Nat}
    (e : h.append w ss t n starts = some (ps, g)) : h.Records g := Hub.appendBytes_records e

theorem Hub.tryLand_records {h g : Hub} {r : Rec} (e : h.tryLand r = some g) : h.Records g := by
  unfold Hub.tryLand at e
  dsimp only at e
  split at e
  · next ha =>
    obtain rfl := Option.some.inj e
    exact (h.takeTicket_records.trans (Hub.append_records ha)).trans
      (.of_jrn ((Hub.pagesFree_records _).trans (Hub.jrnState_records _)))
  · exact absurd e nofun

theorem Hub.landWhole_records (h : Hub) (r : Rec) : h.Records (h.landWhole r) := by
  unfold Hub.landWhole
  split
  · exact .refl h
  · split
    · next g e =>
      split at e
      · exact Hub.tryLand_records e
      · exact absurd e nofun
    · split
      · exact .of_jrn (Hub.raiseLimited_records _ _ _)
      · exact h.records_jrn _

theorem Hub.land_records (h : Hub) (type flags group epoch : Nat) (t : T64) (body : List Byte) :
    h.Records (h.land type flags group epoch t body) := h.landWhole_records _

theorem Hub.landRest_records (h : Hub) (rs : List Rec) : h.Records (h.landRest rs) := by
  induction rs generalizing h with
  | nil => exact h.records_jrn _
  | cons r rs ih =>
    unfold Hub.landRest
    split
    · next e => exact (Hub.tryLand_records e).trans (ih _)
    · exact h.records_jrn _

theorem Hub.freePages_records (h : Hub) : h.Records h.freePages := h.pagesFree_records.trans (Hub.landRest_records _ _)

end Sys2Proof.Machine

/-! PROOFS. Action commands (O25). -/
namespace Sys2Proof.Machine

/-! ### Rules are armed and disarmed (R202, R216) -/

/-- From `h` to `g` pins changed and records of it landed: every rule stays armed or disarmed, and so does the deadman timer. -/
structure Hub.KeepsArmed (h g : Hub) : Prop where
  raises : h.Raises [.act, .jrn, .evt, .sto] g
  armed : ∀ r, (g.actRule r).armed = (h.actRule r).armed
  deadmanT : g.act.deadmanT = h.act.deadmanT

theorem Hub.KeepsArmed.refl (h : Hub) : h.KeepsArmed h := ⟨.refl h _, fun _ => rfl, rfl⟩

theorem Hub.KeepsArmed.trans {h g t : Hub} (hg : h.KeepsArmed g) (gt : g.KeepsArmed t) : h.KeepsArmed t :=
  ⟨hg.raises.trans gt.raises, fun r => (gt.armed r).trans (hg.armed r), gt.deadmanT.trans hg.deadmanT⟩

theorem Hub.KeepsArmed.foldl {α : Type} {f : Hub → α → Hub} (hf : ∀ (g : Hub) a, g.KeepsArmed (f g a)) (l : List α) (h : Hub) :
    h.KeepsArmed (l.foldl f h) := by
  induction l generalizing h with
  | nil => exact .refl h
  | cons a l ih => exact (hf h a).trans (ih _)

/-- A change of the action outputs alone. -/
theorem Hub.keepsArmed_act (h : Hub) (a : ActSt) (ha : ∀ r, (a.rules.get r).armed = (h.act.rules.get r).armed)
    (hd : a.deadmanT = h.act.deadmanT) : h.KeepsArmed { h with act := a } :=
  ⟨Hub.raises_of_onlyIn (by simp [Hub.onlyIn_iff]) (by decide) (by decide), ha, hd⟩

theorem Hub.Records.keepsArmed {h g : Hub} (hg : h.Records g) : h.KeepsArmed g :=
  have act : g.act = h.act := hg.raises.only .act (by decide)
  ⟨hg.raises.mono (by decide), fun r => by rw [Hub.actRule, act, Hub.actRule], by rw [act]⟩

theorem Hub.setRule_act (h : Hub) (r : Nat) (x : ActRule) : (h.setRule r x).act = { h.act with rules := h.act.rules.put r x } := rfl

theorem Hub.actRule_setRule (h : Hub) (r k : Nat) (x : ActRule) : (h.setRule r x).actRule k = if k = r then x else h.actRule k :=
  Tab.get_put ..

theorem Hub.setRule_raises (h : Hub) (r : Nat) (x : ActRule) : h.Raises [.act, .jrn, .evt, .sto] (h.setRule r x) :=
  Hub.raises_of_onlyIn (by simp [Hub.onlyIn_iff, Hub.setRule]) (by decide) (by decide)

theorem Hub.setRule_keepsArmed (h : Hub) (r : Nat) (x : ActRule) (hx : x.armed = (h.actRule r).armed) : h.KeepsArmed (h.setRule r x) := by
  refine ⟨h.setRule_raises r x, fun k => ?_, rfl⟩
  rw [Hub.actRule_setRule]
  split
  · next hk => rw [hx, hk]
  · rfl

theorem Hub.setPin_keepsArmed (h : Hub) (k : Nat) (x : PinCond) : h.KeepsArmed (h.setPin k x) :=
  h.keepsArmed_act _ (fun _ => rfl) rfl

theorem Hub.pinChange_keepsArmed (h : Hub) (c : PinChange) : h.KeepsArmed (h.pinChange c) := by
  unfold Hub.pinChange
  split
  · exact (h.land_records ..).keepsArmed
  · exact h.keepsArmed_act _ (fun _ => rfl) rfl

theorem Hub.logChange_keepsArmed (h : Hub) (c : PinChange) : h.KeepsArmed (h.logChange c) :=
  ⟨(Hub.raises_of_onlyIn (cs := [.evt]) (by simp [Hub.onlyIn_iff, Hub.logChange]) (by decide) (by decide)).mono (by decide),
    fun r => by simp [Hub.actRule, Hub.logChange], by simp [Hub.logChange]⟩

theorem Hub.actRelease_keepsArmed (h : Hub) (r cause : Nat) (t : T64) : h.KeepsArmed (h.actRelease r cause t) := by
  unfold Hub.actRelease
  extract_lets x k g p c
  have released : h.KeepsArmed g := h.setRule_keepsArmed r _ rfl
  have idle : h.KeepsArmed p := released.trans (g.setPin_keepsArmed k .idle)
  split
  · split
    · exact idle.trans (p.pinChange_keepsArmed c)
    · split
      · exact idle.trans (p.logChange_keepsArmed c)
      · split
        · exact idle.trans (p.setRule_keepsArmed r _ (idle.armed r).symm)
        · exact idle.trans (p.pinChange_keepsArmed c)
  · exact released

/-- What a run of rules that a command names has done: the rules in `l` are armed or not as `b` says, the others as they were. -/
structure Hub.Arms (h : Hub) (l : List Nat) (b : Bool) (g : Hub) : Prop where
  raises : h.Raises [.act, .jrn, .evt, .sto] g
  armed : ∀ r, (g.actRule r).armed = if r ∈ l then b else (h.actRule r).armed
  deadmanT : g.act.deadmanT = h.act.deadmanT

theorem Hub.Arms.foldl {f : Hub → Nat → Hub} {b : Bool} (hf : ∀ (g : Hub) r, g.Arms [r] b (f g r)) (l : List Nat) (h : Hub) :
    h.Arms l b (l.foldl f h) := by
  induction l generalizing h with
  | nil => exact ⟨.refl h _, fun _ => rfl, rfl⟩
  | cons a l ih =>
    obtain ⟨raises, armed, deadmanT⟩ := hf h a
    obtain ⟨restRaises, restArmed, restDeadmanT⟩ := ih (f h a)
    refine ⟨raises.trans restRaises, fun r => (restArmed r).trans ?_, restDeadmanT.trans deadmanT⟩
    rw [armed]
    by_cases hr : r ∈ l <;> simp [hr]

/-- A rule is armed or disarmed once its pin has been let go. -/
theorem Hub.KeepsArmed.setRule {h g : Hub} {b : Bool} (hg : h.KeepsArmed g) (r : Nat) (x : ActRule) (hx : x.armed = b) :
    h.Arms [r] b (g.setRule r x) := by
  refine ⟨hg.raises.trans (g.setRule_raises r x), fun k => ?_, hg.deadmanT⟩
  rw [Hub.actRule_setRule, apply_ite ActRule.armed, hg.armed, hx]
  simp

theorem mem_bitsOf_toNat (w : Word) {n r : Nat} (hr : r < n) : r ∈ bitsOf w.toNat n ↔ bit w r = true := by
  simp [bitsOf, bit, hr, BitVec.testBit_toNat]

/-! ### Settings (R214, R215) -/

/-- A command that its checks let pass has no operand out of range (R483). -/
theorem State.bad_of_takes {s : State} {c : CmdSpec} {mb : Fin 8} {tag : Word} {pl : List Word} (ht : s.takes c mb tag pl = true) :
    c.bad (s.hub.executing c mb tag pl) pl = none := by
  simp only [State.takes, Bool.and_eq_true, Option.isNone_iff_eq_none] at ht
  have checks := ht.2
  cases hb : c.bad (s.hub.executing c mb tag pl) pl with
  | none => rfl
  | some ws =>
    simp only [Hub.checkCmd, hb] at checks
    repeat' split at checks
    all_goals exact absurd checks nofun

/-- The rule that ACT_RULE_SET describes. -/
def pwRule (p : List Word) : ActRuleCfg where
  early := bit (pw p 0) 31
  deadman := bit (pw p 0) 30
  mode := fld (pw p 0) 29 28
  pin := fld (pw p 0) 11 8
  mask := mask64 (pw p 1) (pw p 2)
  width := (pw p 3).toNat

section
variable {s : State} {mb : Fin 8} {tag : Word} {pl : List Word}

theorem actRuleSet_answers (ht : s.takes actRuleSet mb tag pl = true) :
    Answers (.actRuleSet mb tag pl) s mb tag DONE [.cfg] fun _ t => t.cfg =
      { s.hub.cfg with act := { s.hub.cfg.act with rules := s.hub.cfg.act.rules.put (fld (pw pl 0) 4 0) (pwRule pl) } } := by
  refine answers_of_run (c := actRuleSet) rfl ht rfl rfl rfl rfl (by decide) (by decide) ?_ fun t h => ?_
  · simp [Hub.onlyIn_iff, actRuleSet]
  · rw [show t.cfg = _ from h .cfg (by decide)]
    simp [actRuleSet, CmdIn.of, pwRule]

theorem actPinSet_answers (ht : s.takes actPinSet mb tag pl = true) :
    Answers (.actPinSet mb tag pl) s mb tag DONE [.cfg] fun _ t => t.cfg =
      { s.hub.cfg with act := { s.hub.cfg.act with
        pins := s.hub.cfg.act.pins.put (fld (pw pl 0) 3 0) { drive := bit (pw pl 0) 5, pol := bit (pw pl 0) 4 } } } := by
  refine answers_of_run (c := actPinSet) rfl ht rfl rfl rfl rfl (by decide) (by decide) ?_ fun t h => ?_
  · simp [Hub.onlyIn_iff, actPinSet]
  · rw [show t.cfg = _ from h .cfg (by decide)]
    simp [actPinSet, CmdIn.of]

/-! ### Arming, clearing and status (R216 to R218) -/

/-- ACT_ARM disarms, releases pins from FAIL-SAFE and arms, in this order, and loads the deadman timer. -/
theorem actArm_run (h : Hub) (mb : Fin 8) (tag : Word) (pl : List Word) : ∃ d p a : Hub,
    h.Arms (bitsOf (pw pl 1).toNat 32) false d ∧ d.KeepsArmed p ∧ p.Arms (bitsOf (pw pl 0).toNat 32) true a ∧
    actArm.run h (.of mb tag pl 0) =
      { hub := { a with act := { a.act with deadmanT := a.newDeadman pl, deadmanAt := a.xoCycles, deadmanOut := false } } } := by
  refine ⟨_, _, _, .foldl (fun g r => ?_) _ h, .foldl (fun g k => ?_) _ _, .foldl (fun g r => ?_) _ _, rfl⟩
  · exact (g.actRelease_keepsArmed r 7 _).setRule r _ rfl
  · split
    · exact (g.setPin_keepsArmed k .idle).trans (Hub.pinChange_keepsArmed _ _)
    · exact .refl g
  · exact (Hub.KeepsArmed.refl g).setRule r _ rfl

/-- ACT_ARM names no rule both to be armed and to be disarmed. -/
theorem actArm_disjoint {h : Hub} {p : List Word} (hb : actArm.bad h p = none) {r : Nat} (hr : bit (pw p 1) r = true) :
    bit (pw p 0) r = false := by
  have apart : pw p 0 &&& pw p 1 = 0 := by
    simp [actArm, badIf] at hb
    obtain ⟨⟨⟨-, apart⟩, -⟩, -⟩ := hb
    exact apart
  have none := congrArg (bit · r) apart
  simpa [bit, show (pw p 1).getLsbD r = true from hr] using none

theorem actArm_answers (ht : s.takes actArm mb tag pl = true) :
    Answers (.actArm mb tag pl) s mb tag DONE [.act, .jrn, .evt, .sto] fun _ t =>
      (∀ r : Nat, r < 32 → bit (pw pl 0) r = true → (t.actRule r).armed = true) ∧
      (∀ r : Nat, r < 32 → bit (pw pl 1) r = true → (t.actRule r).armed = false) ∧
      t.act.deadmanT = s.hub.newDeadman pl ∧ t.act.deadmanAt = s.hub.xoCycles := by
  obtain ⟨d, p, a, disarms, pins, arms, run⟩ := actArm_run (s.hub.executing actArm mb tag pl) mb tag pl
  have raises := (disarms.raises.trans pins.raises).trans arms.raises
  have loaded : a.Raises [.act, .jrn, .evt, .sto]
      { a with act := { a.act with deadmanT := a.newDeadman pl, deadmanAt := a.xoCycles, deadmanOut := false } } :=
    Hub.raises_of_onlyIn (by simp [Hub.onlyIn_iff]) (by decide) (by decide)
  refine answers_of_raises (c := actArm) rfl ht rfl run rfl rfl (by decide) (raises.trans loaded) fun t h => ?_
  have act : t.act = { a.act with deadmanT := a.newDeadman pl, deadmanAt := a.xoCycles, deadmanOut := false } := h .act (by decide)
  have armed : ∀ r, (t.actRule r).armed = (a.actRule r).armed := fun r => by rw [Hub.actRule, act, Hub.actRule]
  refine ⟨fun r hr hb => ?_, fun r hr hb => ?_, ?_, ?_⟩
  · rw [armed, arms.armed, if_pos ((mem_bitsOf_toNat _ hr).mpr hb)]
  · have named : r ∉ bitsOf (pw pl 0).toNat 32 := by
      rw [mem_bitsOf_toNat _ hr, actArm_disjoint (State.bad_of_takes ht) hb]
      decide
    rw [armed, arms.armed, if_neg named, pins.armed, disarms.armed, if_pos ((mem_bitsOf_toNat _ hr).mpr hb)]
  · rw [act]
    change a.newDeadman pl = _
    rw [Hub.newDeadman, arms.deadmanT, pins.deadmanT, disarms.deadmanT, Hub.executing_act, Hub.newDeadman]
  · have tb : a.tb = s.hub.tb := (raises.only .tb (by decide)).trans (s.hub.executing_tb ..)
    rw [act]
    change a.xoCycles = _
    rw [Hub.xoCycles, tb, Hub.xoCycles]

theorem actClear_answers (ht : s.takes actClear mb tag pl = true) :
    Answers (.actClear mb tag pl) s mb tag DONE [.act, .jrn, .evt, .sto] fun _ t => ∀ r : Nat, r < 32 →
      (t.actRule r).armed = (s.hub.actRule r).armed := by
  have cleared : (s.hub.executing actClear mb tag pl).KeepsArmed
      (actClear.run (s.hub.executing actClear mb tag pl) (.of mb tag pl 0)).hub := by
    refine .foldl (fun g r => ?_) _ _
    dsimp only
    split
    · exact g.actRelease_keepsArmed r 3 _
    · exact .refl g
  refine answers_of_raises (c := actClear) rfl ht rfl rfl rfl rfl (by decide) cleared.raises fun t h r _ => ?_
  rw [Hub.actRule, show t.act = _ from h .act (by decide)]
  refine (cleared.armed r).trans ?_
  rw [Hub.actRule, Hub.executing_act, Hub.actRule]

theorem actStatus_answers (ht : s.takes actStatus mb tag pl = true) :
    Answers (.actStatus mb tag pl) s mb tag DONE [] fun ws _ => ws.length = 36 ∧
      ws.getD 1 0 = wd (maskOf ((List.range 32).filter fun r => (s.hub.actRule r).armed)) ∧ ws.getD 35 0 = s.hub.sto.otp.actCodes := by
  refine answers_of_run (c := actStatus) rfl ht rfl rfl rfl rfl (by decide) (by decide) (Hub.onlyIn_refl _ _) fun t _ => ⟨?_, ?_, ?_⟩
  · simp [actStatus]
  · simp [actStatus, Hub.actRule]
  · simp [actStatus]

/-! ### Programming the fail-safe codes (R219) -/

/-- The command leaves its mailbox BUSY and its job behind the others; nothing is answered yet. -/
theorem actFailsafeProgram_waits (ht : s.takes actFailsafeProgram mb tag pl = true) :
    ∃ t, exec (.actFailsafeProgram mb tag pl) s = .next t ∧ t.pending = s.pending ∧ (t.hub.host.mbs.get mb).state = .busy ∧
      t.hub.sto = { s.hub.sto with otpJobs := s.hub.sto.otpJobs ++ [.failSafe (pw pl 0).toNat mb.val tag] } ∧
      s.hub.onlyIn [.host, .sto, .clk, .tx] t.hub := by
  refine ⟨_, s.mailRow_takes actFailsafeProgram mb tag pl ht, rfl, ?_, ?_, ?_⟩
  · simp [Hub.ran, actFailsafeProgram, Hub.openUsed, Hub.executing, Hub.taken, Hub.mailed, Hub.ring, Hub.updMb]
  · simp [Hub.ran, actFailsafeProgram]
  · simp [Hub.ran, actFailsafeProgram, Hub.onlyIn_iff]

end

/-- Settles O25: each command has its lemma above; arming and clearing go over what a pin's change lands. -/
theorem actionCommands : Obligations.ActionCommands := by
  unfold Obligations.ActionCommands
  exact ⟨fun _ _ _ _ ht => actRuleSet_answers ht, fun _ _ _ _ ht => actPinSet_answers ht, fun _ _ _ _ ht => actArm_answers ht,
    fun _ _ _ _ ht => actClear_answers ht, fun _ _ _ _ ht => actStatus_answers ht, fun _ _ _ _ ht => actFailsafeProgram_waits ht⟩

end Sys2Proof.Machine

/-! PROOFS. OTP stays as it is in storage, in branches and in runs (O19). -/
namespace Sys2Proof.Machine

@[simp] theorem StoSt.powerOff_otp (s : StoSt) : s.powerOff.otp = s.otp := (rfl)

@[simp] theorem Hub.ite_otp (c : Prop) [Decidable c] (a b : Hub) :
    (if c then a else b).sto.otp = if c then a.sto.otp else b.sto.otp := apply_ite (fun g : Hub => g.sto.otp) _ _ _

/-- The next hub's OTP is the hub's. The name stands between a run's step and its OTP: a step applied to its arguments is compared
as it stands and is not evaluated. -/
def Hub.KeepsOtp (h g : Hub) : Prop := g.sto.otp = h.sto.otp

@[simp] theorem Hub.keepsOtp_iff {h g : Hub} : h.KeepsOtp g ↔ g.sto.otp = h.sto.otp := Iff.rfl

theorem Hub.KeepsOtp.trans {h g k : Hub} (hg : h.KeepsOtp g) (hk : g.KeepsOtp k) : h.KeepsOtp k := Eq.trans hk hg

@[simp] theorem Hub.foldl_otp {α : Type} {f : Hub → α → Hub} (hf : ∀ (g : Hub) a, g.KeepsOtp (f g a)) (l : List α) (h : Hub) :
    (l.foldl f h).sto.otp = h.sto.otp := by
  induction l generalizing h with
  | nil => rfl
  | cons a l ih => exact (ih _).trans (hf h a)

/-- A run that carries more than the hub. -/
@[simp] theorem Hub.foldl_fst_otp {α β : Type} {f : Hub × β → α → Hub × β} (hf : ∀ (p : Hub × β) a, p.1.KeepsOtp (f p a).1) (l : List α)
    (p : Hub × β) : (l.foldl f p).1.sto.otp = p.1.sto.otp := by
  induction l generalizing p with
  | nil => rfl
  | cons a l ih => exact (ih _).trans (hf p a)

end Sys2Proof.Machine

/-! PROOFS. What leaves OTP as it is: flags, mailboxes, records, clocks, time and storage (O19). -/
namespace Sys2Proof.Machine

/-! ## Functions of Machine/Flags.lean -/

/-! ### Status bits and interrupts -/
@[simp] theorem Hub.flushPending_otp (h : Hub) : h.flushPending.sto.otp = h.sto.otp := by simp [Hub.flushPending]

/-! ### Raising an event (R499 to R502) -/
@[simp] theorem Hub.drainLatched_otp (h : Hub) : h.drainLatched.sto.otp = h.sto.otp := by
  unfold Hub.drainLatched
  refine (Hub.foldl_fst_otp (fun p a => ?_) _ _).trans rfl
  split <;> simp

/-! ## Functions of Machine/Operands.lean -/

/-! ### Mailboxes -/
@[simp] theorem Hub.ring_otp (h : Hub) (m : Nat) : (h.ring m).sto.otp = h.sto.otp := (rfl)
@[simp] theorem Hub.mailed_otp (h : Hub) (c : CmdSpec) (m : Nat) (tag : Word) (pl : List Word) :
    (h.mailed c m tag pl).sto.otp = h.sto.otp := (rfl)

/-! ## Functions of Machine/Ops.lean -/

/-! ### Saved states (R553) -/
@[simp] theorem Hub.saveState_otp (h : Hub) (handle : Option Nat) :
    (h.saveState handle).sto.otp = h.sto.otp := (h.saveState_records handle).otp

/-! ### Journal pages (R302, R330, R332, R333) -/
theorem Hub.append_otp {h t : Hub} {w : Nat} {shares : List Share} {ticket n : Nat} {starts : Bool} {r : List Nat}
    (e : h.append w shares ticket n starts = some (r, t)) : t.sto.otp = h.sto.otp := (Hub.append_records e).otp

/-! ### Tickets (R321) -/
@[simp] theorem Hub.takeTicket_otp (h : Hub) : h.takeTicket.2.sto.otp = h.sto.otp := h.takeTicket_records.otp

/-! ### Records (R305, R306, R313) -/
@[simp] theorem Hub.landWhole_otp (h : Hub) (r : Rec) : (h.landWhole r).sto.otp = h.sto.otp := (h.landWhole_records r).otp
@[simp] theorem Hub.land_otp (h : Hub) (type flags group epoch : Nat) (t : T64) (body : List Byte) :
    (h.land type flags group epoch t body).sto.otp = h.sto.otp := (h.land_records ..).otp
@[simp] theorem Hub.freePages_otp (h : Hub) : h.freePages.sto.otp = h.sto.otp := h.freePages_records.otp
@[simp] theorem Hub.landEvent_otp (h : Hub) (subtype epoch : Nat) (t : T64) (body : List Byte) :
    (h.landEvent subtype epoch t body).sto.otp = h.sto.otp := by simp [Hub.landEvent]
@[simp] theorem Hub.landHealth_otp (h : Hub) (subtype epoch : Nat) (t : T64) (body : List Byte) :
    (h.landHealth subtype epoch t body).sto.otp = h.sto.otp := by simp [Hub.landHealth]
@[simp] theorem Hub.gapNote_otp (h : Hub) (chans : List Nat) (epoch : Nat) (first last : T64) :
    (h.gapNote chans epoch first last).sto.otp = h.sto.otp := (rfl)
@[simp] theorem Hub.landGap_otp (h : Hub) (type cause detail group unc epoch : Nat) (first last : T64) (chans : List Nat) :
    (h.landGap type cause detail group unc epoch first last chans).sto.otp = h.sto.otp := by simp [Hub.landGap]
@[simp] theorem Hub.landGapOpen_otp (h : Hub) (group : Nat) (chans : List Nat) (t : T64) :
    (h.landGapOpen group chans t).sto.otp = h.sto.otp := by simp [Hub.landGapOpen]
@[simp] theorem Hub.journalLost_otp (h : Hub) (first last : Nat) (boundOnly : Bool) :
    (h.journalLost first last boundOnly).sto.otp = h.sto.otp := by simp [Hub.journalLost]

/-! ### Acknowledgement (R323) -/
@[simp] theorem Hub.acknowledge_otp (h : Hub) (c o t : Nat) : (h.acknowledge c o t).sto.otp = h.sto.otp := by simp [Hub.acknowledge]

/-! ### Declared uncertainty and TIME MAP (R236 to R238) -/
@[simp] theorem Hub.landTimeMap_otp (h : Hub) (kind oldEpoch : Nat) (oldT newT : T64) (dead : Nat) (err resid : Int) :
    (h.landTimeMap kind oldEpoch oldT newT dead err resid).sto.otp = h.sto.otp := by simp [Hub.landTimeMap]
@[simp] theorem Hub.mapNow_otp (h : Hub) (kind : Nat) : (h.mapNow kind).sto.otp = h.sto.otp := by simp [Hub.mapNow]

/-! ## Functions of Machine/Clock.lean -/

@[simp] theorem Hub.fmcStop_otp (h : Hub) : h.fmcStop.sto.otp = h.sto.otp := by simp [Hub.fmcStop]
@[simp] theorem Hub.fmcCheck_otp (h : Hub) : h.fmcCheck.sto.otp = h.sto.otp := by simp [Hub.fmcCheck]
@[simp] theorem fmcComplete_otp (h : Hub) (n : Nat) : (fmcComplete n h).sto.otp = h.sto.otp := by simp [fmcComplete]

/-! ## Functions of Machine/Time.lean -/

/-! ### Sources (R224 to R226) -/
@[simp] theorem Hub.sourceChanged_otp (h : Hub) : h.sourceChanged.sto.otp = h.sto.otp := by simp [Hub.sourceChanged]
@[simp] theorem Hub.setY_otp (h : Hub) (y : Int) : (h.setY y).sto.otp = h.sto.otp := (rfl)
@[simp] theorem Hub.noteY_otp (h : Hub) (v : Int) : (h.noteY v).sto.otp = h.sto.otp := (rfl)
@[simp] theorem Hub.freezeY_otp (h : Hub) (now : Nat) : (h.freezeY now).sto.otp = h.sto.otp := (rfl)
@[simp] theorem Hub.enterHoldover_otp (h : Hub) : h.enterHoldover.sto.otp = h.sto.otp := by simp [Hub.enterHoldover]
@[simp] theorem Hub.sourceLost_otp (h : Hub) : h.sourceLost.sto.otp = h.sto.otp := by
  unfold Hub.sourceLost
  dsimp only
  split <;> simp
@[simp] theorem Hub.trackCand_otp (h : Hub) : h.trackCand.sto.otp = h.sto.otp := (rfl)
@[simp] theorem Hub.setQual_otp (h : Hub) (s : TimeSrc) (q : Bool) : (h.setQual s q).sto.otp = h.sto.otp := by
  unfold Hub.setQual
  split <;> simp

/-! ### Slew and break (R227, R228) -/
@[simp] theorem Hub.steerBy_otp (h : Hub) (e ySrc : Int) (epoch : Option Nat) : (h.steerBy e ySrc epoch).sto.otp = h.sto.otp := by
  unfold Hub.steerBy
  extract_lets
  split <;> rfl
@[simp] theorem Hub.measure_otp (h : Hub) (s : TimeSrc) (e ySrc : Int) (epoch : Option Nat) :
    (h.measure s e ySrc epoch).sto.otp = h.sto.otp := by simp [Hub.measure]

/-! ### Origins (R232) -/
@[simp] theorem Hub.startOrigin_otp (h : Hub) (total : Nat) (oldT : T64) :
    (h.startOrigin total oldT).sto.otp = h.sto.otp := by simp [Hub.startOrigin]
@[simp] theorem Hub.outageOrigin_otp (h : Hub) (src : Option SrcReading) (out extra : Nat) (lost : Bool) :
    (h.outageOrigin src out extra lost).sto.otp = h.sto.otp := by
  unfold Hub.outageOrigin
  dsimp only
  split <;> simp

/-! ### Compare units (R239, R240, R242) -/
@[simp] theorem Hub.cmpPolicy_otp (h : Hub) (n : Nat) : (h.cmpPolicy n).sto.otp = h.sto.otp := by simp [Hub.cmpPolicy]
@[simp] theorem Hub.cmpPolicies_otp (h : Hub) : h.cmpPolicies.sto.otp = h.sto.otp := by simp [Hub.cmpPolicies]
@[simp] theorem cmpCtrlWrite_otp (h : Hub) (n : Nat) (w : Word) : (cmpCtrlWrite n w h).sto.otp = h.sto.otp := by simp [cmpCtrlWrite]
@[simp] theorem cmpFire_otp (h : Hub) (n : Nat) : (cmpFire n h).sto.otp = h.sto.otp := by
  unfold cmpFire
  dsimp only
  split <;> simp
@[simp] theorem snapCtrlSnap_otp (h : Hub) : (snapCtrlSnap h).sto.otp = h.sto.otp := (rfl)

/-! ### Timed rows of chapter 08 -/
@[simp] theorem sourceHoldoffExpiry_otp (h : Hub) : (sourceHoldoffExpiry h).sto.otp = h.sto.otp := by
  unfold sourceHoldoffExpiry
  split <;> rfl
@[simp] theorem timeMapPeriodic_otp (h : Hub) : (timeMapPeriodic h).sto.otp = h.sto.otp := by
  unfold timeMapPeriodic
  split <;> simp
@[simp] theorem uncertaintyRecord_otp (h : Hub) : (uncertaintyRecord h).sto.otp = h.sto.otp := by
  unfold uncertaintyRecord
  split <;> simp
@[simp] theorem Hub.freeInt_otp (h : Hub) : h.freeInt.2.sto.otp = h.sto.otp := (rfl)
@[simp] theorem Hub.noteQ_otp (h : Hub) (casc : Bool) (q : Int) : (h.noteQ casc q).sto.otp = h.sto.otp := by
  unfold Hub.noteQ
  split <;> rfl
@[simp] theorem Hub.ppsCount_otp (h : Hub) (good : Bool) : (h.ppsCount good).sto.otp = h.sto.otp := by simp [Hub.ppsCount]
@[simp] theorem Hub.refTo_otp (h : Hub) (off : T64) : (h.refTo off).sto.otp = h.sto.otp := (rfl)
@[simp] theorem Hub.ppsStamp_otp (h : Hub) (stamp : T64) : (h.ppsStamp stamp).sto.otp = h.sto.otp := by
  unfold Hub.ppsStamp
  split <;> simp
@[simp] theorem timeRefTimeout_otp (h : Hub) : (timeRefTimeout h).sto.otp = h.sto.otp := by simp [timeRefTimeout]
@[simp] theorem ppsOutPulse_otp (h : Hub) : (ppsOutPulse h).sto.otp = h.sto.otp := by
  unfold ppsOutPulse
  dsimp only
  split <;> simp
@[simp] theorem ppsOutPulseEnd_otp (h : Hub) : (ppsOutPulseEnd h).sto.otp = h.sto.otp := by
  unfold ppsOutPulseEnd
  split <;> simp

/-! ## Functions of Machine/Sys.lean -/

/-! ### Security (R558 to R560) -/
@[simp] theorem Hub.draw_otp (h : Hub) : h.draw.2.sto.otp = h.sto.otp := (rfl)

/-! ### Firmware (R542 to R545, R561 to R563) -/
@[simp] theorem Hub.setSlot_otp (h : Hub) (b : Bool) (i : Slot) : (h.setSlot b i).sto.otp = h.sto.otp := by
  unfold Hub.setSlot
  split <;> rfl

/-! ### Flash, DRAM and self-tests (R553, R554, R564 to R566) -/
@[simp] theorem selftestDone_otp (h : Hub) (failed : Nat) : (selftestDone failed h).sto.otp = h.sto.otp := by
  unfold selftestDone
  split <;> simp
@[simp] theorem Hub.commitDone_otp (h : Hub) (b : Bool) (hd : Nat) : (h.commitDone b hd).sto.otp = h.sto.otp := by simp [Hub.commitDone]
@[simp] theorem flashOperationDone_otp (h : Hub) (ok : Bool) : (flashOperationDone ok h).sto.otp = h.sto.otp := by
  unfold flashOperationDone
  split
  · rfl
  · split
    · split <;> simp
    · simp
  · simp
  · simp
@[simp] theorem stateSaveTimer_otp (h : Hub) : (stateSaveTimer h).sto.otp = h.sto.otp := by simp [stateSaveTimer]

end Sys2Proof.Machine

/-! PROOFS. What leaves OTP as it is: actions, filters, excitation, live queues, codecs and the sending side of the cascade (O19). -/
namespace Sys2Proof.Machine

/-! ## Functions of Machine/Action.lean -/

@[simp] theorem Hub.setRule_otp (h : Hub) (r : Nat) (x : ActRule) : (h.setRule r x).sto.otp = h.sto.otp := (rfl)
@[simp] theorem Hub.setPin_otp (h : Hub) (k : Nat) (x : PinCond) : (h.setPin k x).sto.otp = h.sto.otp := (rfl)

/-! ### Records (R213) -/
@[simp] theorem Hub.landChange_otp (h : Hub) (c : PinChange) : (h.landChange c).sto.otp = h.sto.otp := by simp [Hub.landChange]
@[simp] theorem Hub.pinChange_otp (h : Hub) (c : PinChange) : (h.pinChange c).sto.otp = h.sto.otp := by simp [Hub.pinChange]
@[simp] theorem Hub.landUnlanded_otp (h : Hub) : h.landUnlanded.sto.otp = h.sto.otp := by simp [Hub.landUnlanded]
@[simp] theorem Hub.logChange_otp (h : Hub) (c : PinChange) : (h.logChange c).sto.otp = h.sto.otp := by simp [Hub.logChange]

/-! ### Assertion and release (R202 to R206) -/
@[simp] theorem Hub.awaitChange_otp (h : Hub) (u : Nat) (det : T64) (c : PinChange) : (h.awaitChange u det c).sto.otp = h.sto.otp := (rfl)
@[simp] theorem Hub.actAssert_otp (h : Hub) (r u : Nat) (det : T64) (prov : Bool) :
    (h.actAssert r u det prov).sto.otp = h.sto.otp := by simp [Hub.actAssert]
@[simp] theorem Hub.actRelease_otp (h : Hub) (r cause : Nat) (t : T64) : (h.actRelease r cause t).sto.otp = h.sto.otp := by
  unfold Hub.actRelease
  dsimp only
  split
  · split
    · simp
    · split
      · simp
      · split <;> simp
  · rfl
@[simp] theorem Hub.actProvisional_otp (h : Hub) (u : Nat) (tp : T64) :
    (h.actProvisional u tp).sto.otp = h.sto.otp := by simp [Hub.actProvisional]
@[simp] theorem Hub.actConfirm_otp (h : Hub) (u : Nat) (det : T64) (prov : Bool) : (h.actConfirm u det prov).sto.otp = h.sto.otp := by
  unfold Hub.actConfirm
  refine Hub.foldl_otp (fun g a => ?_) _ _
  dsimp only
  split <;> simp
@[simp] theorem Hub.actCrossed_otp (h : Hub) (u : Nat) (det cross : T64) :
    (h.actCrossed u det cross).sto.otp = h.sto.otp := by simp [Hub.actCrossed]
@[simp] theorem Hub.actCancel_otp (h : Hub) (u : Nat) (tp : T64) : (h.actCancel u tp).sto.otp = h.sto.otp := by
  unfold Hub.actCancel
  refine Hub.foldl_otp (fun g a => ?_) _ _
  dsimp only
  split <;> simp
@[simp] theorem Hub.actFollow_otp (h : Hub) (holds : Nat → Bool) : (h.actFollow holds).sto.otp = h.sto.otp := by simp [Hub.actFollow]

/-! ### FAIL-SAFE (R208 to R211) -/
@[simp] theorem Hub.pinFailSafe_otp (h : Hub) (k cause : Nat) : (h.pinFailSafe k cause).sto.otp = h.sto.otp := by simp [Hub.pinFailSafe]
@[simp] theorem Hub.failSafeAll_otp (h : Hub) (cause : Nat) : (h.failSafeAll cause).sto.otp = h.sto.otp := by simp [Hub.failSafeAll]
@[simp] theorem actDeadmanExpiry_otp (h : Hub) : (actDeadmanExpiry h).sto.otp = h.sto.otp := by simp [actDeadmanExpiry]
@[simp] theorem actPulseEnd_otp (h : Hub) (r : Nat) : (actPulseEnd r h).sto.otp = h.sto.otp := by simp [actPulseEnd]

/-! ## Functions of Machine/Filter.lean -/

/-! ### A channel's chain: rates and delays (R116, R133) -/
@[simp] theorem Hub.setChain_otp (h : Hub) (ch : Nat) (c : Chain) : (h.setChain ch c).sto.otp = h.sto.otp := (rfl)
@[simp] theorem Hub.setChg_otp (h : Hub) (g : Nat) (x : ChgSt) : (h.setChg g x).sto.otp = h.sto.otp := (rfl)

/-! ### CHANNEL DESCRIPTOR (R314) -/
@[simp] theorem Hub.landDescPar_otp (h : Hub) (ch bank : Nat) (t : T64) (k : ChanPar) (d : DescCfg) :
    (h.landDescPar ch bank t k d).sto.otp = h.sto.otp := by simp [Hub.landDescPar]
@[simp] theorem Hub.landDesc_otp (h : Hub) (ch bank : Nat) (t : T64) : (h.landDesc ch bank t).sto.otp = h.sto.otp := by simp [Hub.landDesc]
@[simp] theorem Hub.landDescs_otp (h : Hub) (groups : List Nat) (t : T64) :
    (h.landDescs groups t).sto.otp = h.sto.otp := by simp [Hub.landDescs]

/-! ### Bank swaps (R122, R123, R154) -/
@[simp] theorem Hub.setSwap_otp (h : Hub) (p : Nat) (s : Swap) : (h.setSwap p s).sto.otp = h.sto.otp := (rfl)
@[simp] theorem Hub.swapStart_otp (h : Hub) (p : Nat) : (h.swapStart p).sto.otp = h.sto.otp := by
  unfold Hub.swapStart
  dsimp only
  split
  · split
    · rfl
    · refine (Hub.foldl_otp (fun g a => ?_) _ _).trans ?_
      · simp
      · refine Hub.foldl_otp (fun g a => ?_) _ _
        rfl
  · rfl
@[simp] theorem Hub.swapReset_otp (h : Hub) (p ch : Nat) : (h.swapReset p ch).sto.otp = h.sto.otp := by simp [Hub.swapReset]
@[simp] theorem Hub.swapComplete_otp (h : Hub) (p : Nat) : (h.swapComplete p).sto.otp = h.sto.otp := by
  unfold Hub.swapComplete
  dsimp only
  split
  · split
    · split
      · split <;> simp
      · simp
    · rfl
  · rfl

/-! ### Filter commands (R155 to R161) -/
@[simp] theorem Hub.setBank_otp (h : Hub) (p b : Nat) (k : Bank) : (h.setBank p b k).sto.otp = h.sto.otp := (rfl)

/-! ## Functions of Machine/FrontEnd.lean -/

@[simp] theorem Hub.setExc_otp (h : Hub) (x : Nat) (e : ExcSt) : (h.setExc x e).sto.otp = h.sto.otp := (rfl)
@[simp] theorem Hub.setFault_otp (h : Hub) (ch : Nat) (f : FaultSt) : (h.setFault ch f).sto.otp = h.sto.otp := (rfl)

/-! ### Excitation (R64, R66, R81) -/
@[simp] theorem Hub.settleBound_otp (h : Hub) (x : Nat) (t : T64) : (h.settleBound x t).sto.otp = h.sto.otp := by simp [Hub.settleBound]
@[simp] theorem Hub.excApply_otp (h : Hub) (x : Nat) (t : T64) : (h.excApply x t).sto.otp = h.sto.otp := by simp [Hub.excApply]
@[simp] theorem Hub.excBlankOnly_otp (h : Hub) : h.excBlankOnly.sto.otp = h.sto.otp := by simp [Hub.excBlankOnly]
@[simp] theorem Hub.blankBound_otp (h : Hub) (x n : Nat) : (h.blankBound x n).sto.otp = h.sto.otp := by simp [Hub.blankBound]
@[simp] theorem Hub.frameChop_otp (h : Hub) : h.frameChop.sto.otp = h.sto.otp := by simp [Hub.frameChop]
@[simp] theorem Hub.excClear_otp (h : Hub) (x : Nat) : (h.excClear x).sto.otp = h.sto.otp := by simp [Hub.excClear]
@[simp] theorem Hub.excOff_otp (h : Hub) : h.excOff.sto.otp = h.sto.otp := by simp [Hub.excOff]
@[simp] theorem Hub.excRestore_otp (h : Hub) (t : T64) : (h.excRestore t).sto.otp = h.sto.otp := by simp [Hub.excRestore]

/-! ## Functions of Machine/Live.lean -/

/-! ### Live queues -/
@[simp] theorem Hub.setLive_otp (h : Hub) (q : Nat) (l : LiveQ) : (h.setLive q l).sto.otp = h.sto.otp := (rfl)
@[simp] theorem Hub.liveWrite_otp (h : Hub) (q type flags : Nat) (body : List Word) :
    (h.liveWrite q type flags body).sto.otp = h.sto.otp := (rfl)
@[simp] theorem lqFlush_otp (h : Hub) (q : Nat) : (lqFlush q h).sto.otp = h.sto.otp := (rfl)
@[simp] theorem Hub.liveBatch_otp (h : Hub) (s : Nat) : (h.liveBatch s).sto.otp = h.sto.otp := by simp [Hub.liveBatch]
@[simp] theorem Hub.liveOutput_otp (h : Hub) (ch : Nat) (pepper order : Bool) (n : Nat) (t : T64) (epoch : Nat) (v : Word) (q : Nat) :
    (h.liveOutput ch pepper order n t epoch v q).sto.otp = h.sto.otp := by simp [Hub.liveOutput]

/-! ### Journal commands -/
@[simp] theorem Hub.requireMove_otp (h : Hub) (c : Nat) : (h.requireMove c).sto.otp = h.sto.otp := by simp [Hub.requireMove]
@[simp] theorem Hub.newSession_otp (h : Hub) : h.newSession.sto.otp = h.sto.otp := (rfl)
@[simp] theorem Hub.ferryStart_otp (h : Hub) : h.ferryStart.sto.otp = h.sto.otp := by simp [Hub.ferryStart]

/-! ## Functions of Machine/Codec.lean -/

@[simp] theorem Hub.setStream_otp (h : Hub) (s : Nat) (x : CodStream) : (h.setStream s x).sto.otp = h.sto.otp := (rfl)
@[simp] theorem Hub.saveImages_otp (h : Hub) (s entry : Nat) (ticket : Option Nat) : (h.saveImages s entry ticket).sto.otp = h.sto.otp := by
  unfold Hub.saveImages
  split <;> simp
@[simp] theorem Hub.verifyFail_otp (h : Hub) (s : Nat) (ticket : Option Nat) :
    (h.verifyFail s ticket).sto.otp = h.sto.otp := by simp [Hub.verifyFail]
@[simp] theorem Hub.encode_otp (h : Hub) (s entry : Nat) (ticket : Option Nat) (params : List Word) (fails : List Nat) (more : List Int)
    (fuel i : Nat) (drop : Option Nat) (vals : List Int) : (h.encode s entry ticket params fails more fuel i drop vals).1.sto.otp = h.sto.otp := by
  induction fuel generalizing h i drop vals with
  | zero => rfl
  | succ fuel ih =>
    unfold Hub.encode
    dsimp only
    split
    · rfl
    · simp [ih]
@[simp] theorem Hub.encodePart_otp (h : Hub) (s entry : Nat) (ticket : Option Nat) (params : List Word) (fails : List Nat)
    (vals more : List Int) : (h.encodePart s entry ticket params fails vals more).1.sto.otp = h.sto.otp := by simp [Hub.encodePart]
@[simp] theorem Hub.endStream_otp (h : Hub) (s : Nat) : (h.endStream s).sto.otp = h.sto.otp := (rfl)
@[simp] theorem codecDemote_otp (h : Hub) (s : Nat) : (codecDemote s h).sto.otp = h.sto.otp := by simp [codecDemote]
@[simp] theorem codecPromote_otp (h : Hub) (s : Nat) : (codecPromote s h).sto.otp = h.sto.otp := by simp [codecPromote]

/-! ### CODEC_CHECK's decoding (R377) -/
@[simp] theorem codecCheckDone_otp (h : Hub) : (codecCheckDone h).sto.otp = h.sto.otp := by
  unfold codecCheckDone
  split <;> simp

/-! ## Functions of Machine/CascOps.lean -/

@[simp] theorem Hub.setCPort_otp (h : Hub) (p : Nat) (k : CascPort) : (h.setCPort p k).sto.otp = h.sto.otp := (rfl)
@[simp] theorem Hub.cascEmit_otp (h : Hub) (p type : Nat) (body : List Byte) : (h.cascEmit p type body).sto.otp = h.sto.otp := (rfl)
@[simp] theorem Hub.cascDrain_otp (h : Hub) (p n : Nat) : (h.cascDrain p n).sto.otp = h.sto.otp := by
  induction n generalizing h with
  | zero => rfl
  | succ n ih =>
    unfold Hub.cascDrain
    dsimp only
    split
    · simp [ih]
    · rfl
@[simp] theorem Hub.cascSend_otp (h : Hub) (p type : Nat) (body : List Byte) :
    (h.cascSend p type body).sto.otp = h.sto.otp := by simp [Hub.cascSend]
@[simp] theorem Hub.ctSend_otp (h : Hub) (line unit epoch : Nat) (cross : T64) :
    (h.ctSend line unit epoch cross).sto.otp = h.sto.otp := by simp [Hub.ctSend]

end Sys2Proof.Machine

/-! PROOFS. What leaves OTP as it is: triggers and sensor lanes (O19). -/
namespace Sys2Proof.Machine

/-! ## Functions of Machine/Trigger.lean -/

@[simp] theorem Hub.setUnit_otp (h : Hub) (u : Nat) (x : TrgUnit) : (h.setUnit u x).sto.otp = h.sto.otp := (rfl)
@[simp] theorem Hub.setCg_otp (h : Hub) (g : Nat) (x : CapGroup) : (h.setCg g x).sto.otp = h.sto.otp := (rfl)
@[simp] theorem Hub.unitCount_otp (h : Hub) (u i : Nat) : (h.unitCount u i).sto.otp = h.sto.otp := (rfl)

/-! ### Segments (R179 to R190) -/
@[simp] theorem Hub.descFreed_otp (h : Hub) : h.descFreed.sto.otp = h.sto.otp := (rfl)
@[simp] theorem Hub.segsDead_otp (h : Hub) (g : Nat) : (h.segsDead g).sto.otp = h.sto.otp := by simp [Hub.segsDead]
@[simp] theorem Hub.segOpen_otp (h : Hub) (g : Nat) (anchor : T64) (epoch status : Nat) (c : Cause) :
    (h.segOpen g anchor epoch status c).1.sto.otp = h.sto.otp := by
  unfold Hub.segOpen
  dsimp only
  split <;> simp
@[simp] theorem Hub.segGroup_otp (h : Hub) (g : Nat) (w : SegDue) : (h.segGroup g w).1.sto.otp = h.sto.otp := by
  unfold Hub.segGroup
  dsimp only
  split
  · rfl
  · split
    · rfl
    · split <;> simp
@[simp] theorem Hub.segCauses_otp (h : Hub) (f : Cause → Option Cause) : (h.segCauses f).sto.otp = h.sto.otp := by simp [Hub.segCauses]
@[simp] theorem Hub.noSegment_otp (h : Hub) (u : Nat) (det : T64) : (h.noSegment u det).sto.otp = h.sto.otp := (rfl)
@[simp] theorem Hub.segDue_otp (h : Hub) : h.segDue.sto.otp = h.sto.otp := by simp [Hub.segDue]
@[simp] theorem Hub.segTrigger_otp (h : Hub) (groups : Nat) (w : SegDue) :
    (h.segTrigger groups w).1.sto.otp = h.sto.otp := by simp [Hub.segTrigger]

/-! ### TRIG pins and live items -/
@[simp] theorem Hub.trigPins_otp (h : Hub) (u : Nat) (early late : Bool) :
    (h.trigPins u early late).sto.otp = h.sto.otp := by simp [Hub.trigPins]
@[simp] theorem Hub.trigItem_otp (h : Hub) (u type epoch : Nat) (tp : T64) (tail : List Word) :
    (h.trigItem u type epoch tp tail).sto.otp = h.sto.otp := by
  unfold Hub.trigItem
  dsimp only
  split <;> rfl

/-! ### Triggers (R172 to R177, R186, R187, R189) -/
@[simp] theorem Hub.trigFinish_otp (h : Hub) (u : Nat) (w : Waiting) (cross : T64) (linear : Bool) :
    (h.trigFinish u w cross linear).sto.otp = h.sto.otp := by simp [Hub.trigFinish]
@[simp] theorem Hub.trigConfirm_otp (h : Hub) (u : Nat) (p : Option Prov) (d : Det) (noSeg : Bool) :
    (h.trigConfirm u p d noSeg).sto.otp = h.sto.otp := by
  unfold Hub.trigConfirm
  dsimp only
  split <;> simp
@[simp] theorem Hub.trigCancel_otp (h : Hub) (u cause : Nat) : (h.trigCancel u cause).sto.otp = h.sto.otp := by
  unfold Hub.trigCancel
  dsimp only
  split <;> simp
@[simp] theorem Hub.trigAttach_otp (h : Hub) (u : Nat) (d : Det) : (h.trigAttach u d).sto.otp = h.sto.otp := by
  unfold Hub.trigAttach
  split <;> simp
@[simp] theorem Hub.trigNear_otp (h : Hub) (u : Nat) : (h.trigNear u).sto.otp = h.sto.otp := by
  unfold Hub.trigNear
  dsimp only
  split
  · split
    · split <;> simp
    · rfl
  · rfl
@[simp] theorem Hub.trigFire_otp (h : Hub) (u : Nat) (s : Seen) (rise : Bool) (lvl : Int) :
    (h.trigFire u s rise lvl).sto.otp = h.sto.otp := by
  unfold Hub.trigFire
  dsimp only
  split
  · split <;> simp
  · simp
@[simp] theorem Hub.trigCondition_otp (h : Hub) (u : Nat) (s : Seen) (rise : Bool) (lvl : Int) :
    (h.trigCondition u s rise lvl).sto.otp = h.sto.otp := by simp [Hub.trigCondition]
@[simp] theorem Hub.trigResolve_otp (h : Hub) (u j : Nat) : (h.trigResolve u j).sto.otp = h.sto.otp := by
  unfold Hub.trigResolve
  dsimp only
  split <;> simp
@[simp] theorem Hub.trigPepper_otp (h : Hub) (u : Nat) (s : Seen) : (h.trigPepper u s).sto.otp = h.sto.otp := by
  unfold Hub.trigPepper
  dsimp only
  split <;> simp
@[simp] theorem Hub.trigSaffron_otp (h : Hub) (u : Nat) (s : Seen) : (h.trigSaffron u s).sto.otp = h.sto.otp := by
  unfold Hub.trigSaffron
  dsimp only
  split
  · split <;> simp
  · split <;> simp
@[simp] theorem Hub.unitTurn_otp (h : Hub) (u : Nat) : (h.unitTurn u).sto.otp = h.sto.otp := by simp [Hub.unitTurn]
@[simp] theorem Hub.unitOutput_otp (h : Hub) (u : Nat) (pepper : Bool) (s : Seen) :
    (h.unitOutput u pepper s).sto.otp = h.sto.otp := by simp [Hub.unitOutput]
@[simp] theorem Hub.trigMissed_otp (h : Hub) (ch : Nat) : (h.trigMissed ch).sto.otp = h.sto.otp := by simp [Hub.trigMissed]
@[simp] theorem Hub.trigOutput_otp (h : Hub) (ch : Nat) (pepper : Bool) (n : Nat) (t : Fr) (epoch : Nat) (x : Int) (q : Nat) :
    (h.trigOutput ch pepper n t epoch x q).sto.otp = h.sto.otp := by simp [Hub.trigOutput]
@[simp] theorem Hub.trigFault_otp (h : Hub) (ch : Nat) : (h.trigFault ch).sto.otp = h.sto.otp := by simp [Hub.trigFault]

/-! ### The recent ring (R178, R182) -/
@[simp] theorem Hub.ringDrop_otp (h : Hub) (g : Nat) (gone : List StOut) : (h.ringDrop g gone).sto.otp = h.sto.otp := by simp [Hub.ringDrop]
@[simp] theorem Hub.ringPush_otp (h : Hub) (pepper : Bool) (o : StOut) : (h.ringPush pepper o).sto.otp = h.sto.otp := by simp [Hub.ringPush]

/-! ### Cascade messages, AUTO and FORCED (R188, R190) -/
@[simp] theorem Hub.segAtStrobe_otp (h : Hub) (g : Nat) (forced : Bool) :
    (h.segAtStrobe g forced).sto.otp = h.sto.otp := by simp [Hub.segAtStrobe]
@[simp] theorem Hub.segStrobe_otp (h : Hub) : h.segStrobe.sto.otp = h.sto.otp := by simp [Hub.segStrobe]
@[simp] theorem autoSegment_otp (h : Hub) (g : Nat) : (autoSegment g h).sto.otp = h.sto.otp := by simp [autoSegment]
@[simp] theorem Hub.ctApply_otp (h : Hub) (line hub unit epoch : Nat) (cross : T64) :
    (h.ctApply line hub unit epoch cross).sto.otp = h.sto.otp := by simp [Hub.ctApply]
@[simp] theorem ctHoldExpiry_otp (h : Hub) (line : Nat) : (ctHoldExpiry line h).sto.otp = h.sto.otp := by simp [ctHoldExpiry]
@[simp] theorem trigInputChange_otp (h : Hub) (k : Nat) (level : Bool) : (trigInputChange k level h).sto.otp = h.sto.otp := (rfl)
@[simp] theorem trigPulseEnd_otp (h : Hub) (k : Nat) : (trigPulseEnd k h).sto.otp = h.sto.otp := by simp [trigPulseEnd]

/-! ### Arming (R180, R196) -/
@[simp] theorem Hub.unitArm_otp (h : Hub) (u : Nat) : (h.unitArm u).sto.otp = h.sto.otp := by simp [Hub.unitArm]
@[simp] theorem Hub.unitDisarm_otp (h : Hub) (u : Nat) : (h.unitDisarm u).sto.otp = h.sto.otp := by simp [Hub.unitDisarm]
@[simp] theorem Hub.cgArm_otp (h : Hub) (g : Nat) : (h.cgArm g).sto.otp = h.sto.otp := by simp [Hub.cgArm]
@[simp] theorem Hub.cgDisarm_otp (h : Hub) (g : Nat) : (h.cgDisarm g).sto.otp = h.sto.otp := (rfl)
@[simp] theorem Hub.armApply_otp (h : Hub) : h.armApply.sto.otp = h.sto.otp := by simp [Hub.armApply]

/-! ### Epochs and resets (R192) -/
@[simp] theorem Hub.provHeld_otp (h : Hub) (d : T64) : (h.provHeld d).sto.otp = h.sto.otp := (rfl)
@[simp] theorem Hub.segClose_otp (h : Hub) (g epoch : Nat) (t : T64) (endCause : Nat) :
    (h.segClose g epoch t endCause).sto.otp = h.sto.otp := by simp [Hub.segClose]
@[simp] theorem Hub.segsClose_otp (h : Hub) (epoch : Nat) (t : T64) (endCause : Nat) :
    (h.segsClose epoch t endCause).sto.otp = h.sto.otp := by simp [Hub.segsClose]
@[simp] theorem Hub.segsStopped_otp (h : Hub) (t : T64) : (h.segsStopped t).sto.otp = h.sto.otp := by simp [Hub.segsStopped]
@[simp] theorem Hub.trigStop_otp (h : Hub) (cause : Nat) : (h.trigStop cause).sto.otp = h.sto.otp := by simp [Hub.trigStop]
@[simp] theorem Hub.unitsAnew_otp (h : Hub) (f : Path → Path) : (h.unitsAnew f).sto.otp = h.sto.otp := (rfl)
@[simp] theorem Hub.trigRestart_otp (h : Hub) : h.trigRestart.sto.otp = h.sto.otp := by simp [Hub.trigRestart]
@[simp] theorem Hub.trigEpoch_otp (h : Hub) : h.trigEpoch.sto.otp = h.sto.otp := by simp [Hub.trigEpoch]
@[simp] theorem Hub.trigTurn_otp (h : Hub) (old : Nat) (p first : T64) :
    (h.trigTurn old p first).sto.otp = h.sto.otp := by simp [Hub.trigTurn]
@[simp] theorem Hub.trigReset_otp (h : Hub) : h.trigReset.sto.otp = h.sto.otp := by simp [Hub.trigReset]
@[simp] theorem segmentComplete_otp (h : Hub) (g : Nat) : (segmentComplete g h).sto.otp = h.sto.otp := by
  unfold segmentComplete
  split <;> rfl

/-! ## Functions of Machine/SlOps.lean -/

/-! ### GAP episodes -/
@[simp] theorem Hub.gapEnd_otp (h : Hub) (ch : Nat) : (h.gapEnd ch).sto.otp = h.sto.otp := by simp [Hub.gapEnd]
@[simp] theorem Hub.gapEndBefore_otp (h : Hub) (ch : Nat) (i : Nat × T64) :
    (h.gapEndBefore ch i).sto.otp = h.sto.otp := by simp [Hub.gapEndBefore]
@[simp] theorem Hub.refusalEnd_otp (h : Hub) (ch : Nat) : (h.refusalEnd ch).sto.otp = h.sto.otp := by simp [Hub.refusalEnd]
@[simp] theorem Hub.gapInstant_otp (h : Hub) (ch cause detail unc epoch : Nat) (t : T64) :
    (h.gapInstant ch cause detail unc epoch t).sto.otp = h.sto.otp := by simp [Hub.gapInstant]

/-! ### Missing inputs (R142) -/
@[simp] theorem Hub.missInputs_otp (h : Hub) (ch i j cause detail unc : Nat) :
    (h.missInputs ch i j cause detail unc).sto.otp = h.sto.otp := by
  unfold Hub.missInputs
  split <;> simp

/-! ### Frames to a pod (R392) -/
@[simp] theorem Hub.setLane_otp (h : Hub) (n : Nat) (x : Lane) : (h.setLane n x).sto.otp = h.sto.otp := (rfl)
@[simp] theorem Hub.laneSend_otp (h : Hub) (n type sub : Nat) (payload : List Byte) :
    (h.laneSend n type sub payload).sto.otp = h.sto.otp := (rfl)
@[simp] theorem Hub.sendLanded_otp (h : Hub) (n : Nat) (all : Bool) : (h.sendLanded n all).sto.otp = h.sto.otp := (rfl)
@[simp] theorem Hub.fatesPass_otp (h : Hub) (fs : List OpenFrame) : (h.fatesPass fs).sto.otp = h.sto.otp := by simp [Hub.fatesPass]
@[simp] theorem Hub.slMarks_otp (h : Hub) : h.slMarks.sto.otp = h.sto.otp := by simp [Hub.slMarks]
@[simp] theorem Hub.chanDone_otp (h : Hub) (ch epoch : Nat) (t : T64) (landed : Bool) :
    (h.chanDone ch epoch t landed).sto.otp = h.sto.otp := (rfl)

/-! ## Functions of Machine/Lines.lean -/

@[simp] theorem Hub.tiuCount_otp (h : Hub) (s i : Nat) : (h.tiuCount s i).sto.otp = h.sto.otp := (rfl)

/-! ### The stamp FIFO (R280) -/
@[simp] theorem Hub.fifoDrain_otp (h : Hub) (drained : Nat) : (h.fifoDrain drained).sto.otp = h.sto.otp := (rfl)
@[simp] theorem Hub.fifoOverflow_otp (h : Hub) : h.fifoOverflow.sto.otp = h.sto.otp := by simp [Hub.fifoOverflow]
@[simp] theorem Hub.fifoTake_otp (h : Hub) (s n : Nat) : (h.fifoTake s n).1.sto.otp = h.sto.otp := by
  unfold Hub.fifoTake
  split <;> simp

/-! ### Round trips on line 9 (R291) -/
@[simp] theorem Hub.line9Trip_otp (h : Hub) (r : Nat) (e : RoundTrip) : (h.line9Trip r e).1.sto.otp = h.sto.otp := by simp [Hub.line9Trip]

/-! ## Functions of Machine/Lanes.lean -/

/-! ### Line 9 of the TIU (R291) -/
@[simp] theorem Hub.probeSend_otp (h : Hub) (r : Nat) : (h.probeSend r).sto.otp = h.sto.otp := by simp [Hub.probeSend]
@[simp] theorem Hub.line9Go_otp (h : Hub) (rs : List Nat) : (h.line9Go rs).sto.otp = h.sto.otp := by
  induction rs generalizing h with
  | nil => rfl
  | cons r rs ih => simp [Hub.line9Go, ih]
@[simp] theorem Hub.line9Next_otp (h : Hub) : h.line9Next.sto.otp = h.sto.otp := by simp [Hub.line9Next]
@[simp] theorem Hub.line9Free_otp (h : Hub) (r : Nat) : (h.line9Free r).sto.otp = h.sto.otp := by simp [Hub.line9Free]
@[simp] theorem Hub.line9Ask_otp (h : Hub) (r : Nat) : (h.line9Ask r).sto.otp = h.sto.otp := by simp [Hub.line9Ask]

/-! ### The steps of bring-up -/
@[simp] theorem Hub.laneStart_otp (h : Hub) (n : Nat) : (h.laneStart n).sto.otp = h.sto.otp := by simp [Hub.laneStart]
@[simp] theorem Hub.laneRetrain_otp (h : Hub) (n : Nat) : (h.laneRetrain n).sto.otp = h.sto.otp := by simp [Hub.laneRetrain]
@[simp] theorem Hub.raiseEach_otp (h : Hub) (key ev : Nat) (data : List Byte) :
    (h.raiseEach key ev data).sto.otp = h.sto.otp := by simp [Hub.raiseEach]
@[simp] theorem Hub.laneReset_otp (h : Hub) (n : Nat) : (h.laneReset n).sto.otp = h.sto.otp := by simp [Hub.laneReset]
@[simp] theorem Hub.laneNak_otp (h : Hub) (n cls : Nat) : (h.laneNak n cls).sto.otp = h.sto.otp := by simp [Hub.laneNak]
@[simp] theorem Hub.laneViolation_otp (h : Hub) (n cls : Nat) (nak : Bool) :
    (h.laneViolation n cls nak).sto.otp = h.sto.otp := by simp [Hub.laneViolation]
@[simp] theorem slLossOfLock_otp (h : Hub) (n : Nat) : (slLossOfLock n h).sto.otp = h.sto.otp := by simp [slLossOfLock]
@[simp] theorem slStepTimeout_otp (h : Hub) (n : Nat) (phy : Fin 4) : (slStepTimeout n phy h).sto.otp = h.sto.otp := by simp [slStepTimeout]
@[simp] theorem slRetryTimer_otp (h : Hub) (n : Nat) : (slRetryTimer n h).sto.otp = h.sto.otp := by simp [slRetryTimer]
@[simp] theorem slCommaAlignment_otp (h : Hub) (n : Nat) (inverted : Bool) :
    (slCommaAlignment n inverted h).sto.otp = h.sto.otp := by simp [slCommaAlignment]

/-! ### Frames received (R392, R405) -/
@[simp] theorem Hub.laneStatus_otp (h : Hub) (n sub len : Nat) (intact : Bool) (f : List Byte) :
    (h.laneStatus n sub len intact f).1.sto.otp = h.sto.otp := by
  unfold Hub.laneStatus
  dsimp only
  split
  · rfl
  · split
    · simp
    · split <;> simp
@[simp] theorem slHelloReceive_otp (h : Hub) (n : Nat) (intact : Bool) (f : List Byte) :
    (slHelloReceive n intact f h).sto.otp = h.sto.otp := by
  unfold slHelloReceive
  dsimp only
  split
  · rfl
  · split <;> simp

/-! ### Delay and strobe placement (R388, R389) -/
@[simp] theorem Hub.timing_otp (h : Hub) (n by_ : Nat) : (h.timing n by_).sto.otp = h.sto.otp := (rfl)
@[simp] theorem Hub.sendTiming_otp (h : Hub) (n : Nat) : (h.sendTiming n).sto.otp = h.sto.otp := (rfl)
@[simp] theorem slDelayEcho_otp (h : Hub) (n : Nat) (e : RoundTrip) (turn : Nat) : (slDelayEcho n e turn h).sto.otp = h.sto.otp := by
  unfold slDelayEcho
  dsimp only
  split
  · rfl
  · split
    · rfl
    · split <;> simp
@[simp] theorem slProbeTimer_otp (h : Hub) (n : Nat) : (slProbeTimer n h).sto.otp = h.sto.otp := by simp [slProbeTimer]
@[simp] theorem Hub.slStrobe_otp (h : Hub) (by_ cyc epoch idx : Nat) (discont noSample : Bool) (till : Option Nat) :
    (h.slStrobe by_ cyc epoch idx discont noSample till).sto.otp = h.sto.otp := by simp [Hub.slStrobe]

/-! ### Samples (R385, R393, R395, R396, R400, R401) -/
@[simp] theorem Hub.slFeed_otp (h : Hub) (ch : Nat) (x : Inp) : (h.slFeed ch x).sto.otp = h.sto.otp := by simp [Hub.slFeed]
@[simp] theorem Hub.slUnmapped_otp (h : Hub) (ch : Nat) : (h.slUnmapped ch).sto.otp = h.sto.otp := by simp [Hub.slUnmapped]
@[simp] theorem Hub.slSlot_otp (h : Hub) (n c : Nat) (hold : Bool) (e : SlotEnt) : (h.slSlot n c hold e).1.sto.otp = h.sto.otp := by
  unfold Hub.slSlot
  dsimp only
  refine Hub.foldl_fst_otp (fun p j => ?_) _ _
  split
  · simp
  · simp
@[simp] theorem Hub.holdEnd_otp (h : Hub) (n : Nat) : (h.holdEnd n).sto.otp = h.sto.otp := by
  unfold Hub.holdEnd
  dsimp only
  split <;> simp
@[simp] theorem Hub.holdFrame_otp (h : Hub) (n : Nat) (m : StrobeMap) : (h.holdFrame n m).sto.otp = h.sto.otp := by simp [Hub.holdFrame]
@[simp] theorem Hub.laneResetDone_otp (h : Hub) (n : Nat) : (h.laneResetDone n).sto.otp = h.sto.otp := by simp [Hub.laneResetDone]
@[simp] theorem Hub.sampleAccept_otp (h : Hub) (n seq c : Nat) (hold : Bool) (es : List SlotEnt) :
    (h.sampleAccept n seq c hold es).sto.otp = h.sto.otp := by
  unfold Hub.sampleAccept
  dsimp only
  split <;> simp
@[simp] theorem slSampleFrame_otp (h : Hub) (n : Nat) (intact : Bool) (f : List Byte) :
    (slSampleFrame n intact f h).sto.otp = h.sto.otp := by
  fun_cases slSampleFrame n intact f h <;> simp +zetaDelta
@[simp] theorem slAbortSymbol_otp (h : Hub) (_n : Nat) : (slAbortSymbol _n h).sto.otp = h.sto.otp := (rfl)
@[simp] theorem slLandedTimer_otp (h : Hub) (n : Nat) : (slLandedTimer n h).sto.otp = h.sto.otp := by simp [slLandedTimer]

/-! ### Other STATUS frames (R387, R394, R399, R410) -/
@[simp] theorem Hub.slLost_otp (h : Hub) (ch r c0 c1 : Nat) : (h.slLost ch r c0 c1).sto.otp = h.sto.otp := by simp [Hub.slLost]
@[simp] theorem slReleasedReceive_otp (h : Hub) (n : Nat) (intact : Bool) (f : List Byte) :
    (slReleasedReceive n intact f h).sto.otp = h.sto.otp := by
  unfold slReleasedReceive
  dsimp only
  split
  · rfl
  · split <;> simp
@[simp] theorem slSlipReceive_otp (h : Hub) (n : Nat) (intact : Bool) (f : List Byte) :
    (slSlipReceive n intact f h).sto.otp = h.sto.otp := by simp [slSlipReceive]
@[simp] theorem slPodHealthReceive_otp (h : Hub) (n : Nat) (intact : Bool) (f : List Byte) :
    (slPodHealthReceive n intact f h).sto.otp = h.sto.otp := by
  unfold slPodHealthReceive
  dsimp only
  split
  · rfl
  · split
    · simp
    · split <;> simp
@[simp] theorem slSlotSetTimeout_otp (h : Hub) (n slot : Nat) :
    (slSlotSetTimeout n slot h).sto.otp = h.sto.otp := by simp [slSlotSetTimeout]
@[simp] theorem slResetTimeout_otp (h : Hub) (n : Nat) : (slResetTimeout n h).sto.otp = h.sto.otp := by simp [slResetTimeout]

end Sys2Proof.Machine

/-! PROOFS. What leaves OTP as it is: landing and output instants (O19). -/
namespace Sys2Proof.Machine

/-! ## Functions of Machine/Landing.lean -/

/-! ### Refusals (R37, R331) -/
@[simp] theorem Hub.refuseInstant_otp (h : Hub) (ch epoch : Nat) (t : T64) :
    (h.refuseInstant ch epoch t).sto.otp = h.sto.otp := by simp [Hub.refuseInstant]

/-! ### Digests (R312, R331) -/
@[simp] theorem Hub.digestClose_otp (h : Hub) (g : Nat) : (h.digestClose g).sto.otp = h.sto.otp := by
  unfold Hub.digestClose
  dsimp only
  split <;> simp
@[simp] theorem Hub.digestEntry_otp (h : Hub) (g epoch : Nat) (t : T64) (entry : List Byte) :
    (h.digestEntry g epoch t entry).sto.otp = h.sto.otp := by simp [Hub.digestEntry]

/-! ### SAMPLE BLOCK (R307, R309, R310) -/
@[simp] theorem Hub.blockClose_otp (h : Hub) (g : Nat) : (h.blockClose g).sto.otp = h.sto.otp := by
  unfold Hub.blockClose
  dsimp only
  split
  · rfl
  · split
    · rfl
    · split <;> simp
@[simp] theorem Hub.partMake_otp (h : Hub) (g : Nat) (first : T64) (epoch : Nat) (cs : List (Nat × Bool)) (k0 : Nat) (fails : List Nat)
    (is : List Inst) : (h.partMake g first epoch cs k0 fails is).sto.otp = h.sto.otp := by simp [Hub.partMake]

/-! ### The landing of a part (R317, R330, R332) -/
@[simp] theorem Hub.enterFull_otp (h : Hub) : h.enterFull.sto.otp = h.sto.otp := by simp [Hub.enterFull]
theorem Hub.appendPart_otp {h t : Hub} {w ticket n : Nat} {starts : Bool} {r : List Nat} (e : h.appendPart w ticket n starts = some (r, t)) :
    t.sto.otp = h.sto.otp := by
  unfold Hub.appendPart at e
  split at e
  · next ha => exact Hub.append_otp (ha.trans e)
  · exact (Hub.append_otp e).trans (by simp)
@[simp] theorem Hub.partWrite_otp (h : Hub) : h.partWrite.sto.otp = h.sto.otp := by
  unfold Hub.partWrite
  dsimp only
  split
  · rfl
  · split
    · rfl
    · split
      · simp
      · next e =>
        have written := Hub.appendPart_otp e
        simp [written]
        split <;> simp
@[simp] theorem partLanded_otp (h : Hub) : (partLanded h).sto.otp = h.sto.otp := by simp [partLanded]
@[simp] theorem Hub.partsLand_otp (h : Hub) : h.partsLand.sto.otp = h.sto.otp := by simp [Hub.partsLand]
@[simp] theorem Hub.partsLandOf_otp (h : Hub) (ch : Nat) : (h.partsLandOf ch).sto.otp = h.sto.otp := by simp [Hub.partsLandOf]

/-! ### LATE records (R311) -/
@[simp] theorem Hub.landLate_otp (h : Hub) (ch : Nat) (outs : List StOut) : (h.landLate ch outs).sto.otp = h.sto.otp := by
  unfold Hub.landLate
  split <;> simp
@[simp] theorem Hub.lateLand_otp (h : Hub) (g ch : Nat) (take : StOut → Bool) :
    (h.lateLand g ch take).sto.otp = h.sto.otp := by simp [Hub.lateLand]
@[simp] theorem Hub.lateDue_otp (h : Hub) (g : Nat) : (h.lateDue g).sto.otp = h.sto.otp := by
  unfold Hub.lateDue
  refine Hub.foldl_otp (fun g a => ?_) _ _
  dsimp only
  split <;> simp
@[simp] theorem Hub.lateReturn_otp (h : Hub) (g : Nat) (i : Inst) : (h.lateReturn g i).sto.otp = h.sto.otp := by simp [Hub.lateReturn]

/-! ### Closing parts (R309 to R311, R331) -/
@[simp] theorem Hub.closeInsts_otp (h : Hub) (g : Nat) (fails : List Nat) (n : Nat) (is : List Inst) :
    (h.closeInsts g fails n is).sto.otp = h.sto.otp := by
  induction n generalizing h is with
  | zero => rw [Hub.closeInsts]
  | succ n ih =>
    cases is with
    | nil => rw [Hub.closeInsts]; simp
    | cons i is =>
      rw [Hub.closeInsts]
      extract_lets opened _ _ run made _ last next
      have hmade : made.sto.otp = h.sto.otp := by simp [made, opened]
      have hnext : next.sto.otp = made.sto.otp := by
        dsimp only [next]
        cases last <;> simp
      rw [Hub.ite_otp, ih, ih, hnext, hmade]
      simp [opened]
@[simp] theorem Hub.boundPass_otp (h : Hub) (g : Nat) : (h.boundPass g).sto.otp = h.sto.otp := by
  unfold Hub.boundPass
  split <;> simp
@[simp] theorem Hub.boundsClose_otp (h : Hub) (g : Nat) (fails : List Nat) (l : List ((Nat × T64) × Nat)) :
    (h.boundsClose g fails l).sto.otp = h.sto.otp := by
  induction l generalizing h with
  | nil => simp [Hub.boundsClose]
  | cons b r ih => simp [Hub.boundsClose, ih]
@[simp] theorem Hub.groupParts_otp (h : Hub) (g : Nat) (fails : List Nat) :
    (h.groupParts g fails).sto.otp = h.sto.otp := by simp [Hub.groupParts]
@[simp] theorem Hub.partsAll_otp (h : Hub) (g : Nat) (f : Inst → Bool) : (h.partsAll g f).sto.otp = h.sto.otp := by simp [Hub.partsAll]
@[simp] theorem Hub.recordDue_otp (h : Hub) (g : Nat) : (h.recordDue g).sto.otp = h.sto.otp := by simp [Hub.recordDue]
@[simp] theorem Hub.refuseTurn_otp (h : Hub) (g : Nat) : (h.refuseTurn g).sto.otp = h.sto.otp := by simp [Hub.refuseTurn]
@[simp] theorem partClose_otp (h : Hub) (fails : List (Nat × Nat)) : (partClose fails h).sto.otp = h.sto.otp := by simp [partClose]
@[simp] theorem lateWaitExpiry_otp (h : Hub) (g : Nat) (fails : List Nat) : (lateWaitExpiry g fails h).sto.otp = h.sto.otp := by
  unfold lateWaitExpiry
  dsimp only
  split <;> simp

/-! ### SEGMENT records (R181, R184, R315) -/
@[simp] theorem Hub.segChan_otp (h : Hub) (g entry ticket : Nat) (pepper : Bool) (ch : Nat) (outs : List StOut) (fails : List Nat) :
    (h.segChan g entry ticket pepper ch outs fails).1.sto.otp = h.sto.otp := by
  unfold Hub.segChan
  split <;> simp
@[simp] theorem segmentLanded_otp (g : Nat) (fails : List Nat) (h : Hub) : (segmentLanded g fails h).sto.otp = h.sto.otp := by
  unfold segmentLanded
  dsimp only
  split
  · rfl
  · split
    · simp
    · next e =>
      have written := Hub.append_otp e
      simp [written]

/-! ### Index and pages (R320, R333, R334) -/
@[simp] theorem indexScrub_otp (h : Hub) (ups : List IndexUpset) : (indexScrub ups h).sto.otp = h.sto.otp := by simp [indexScrub]
@[simp] theorem pageScrub_otp (h : Hub) (p n : Nat) : (pageScrub p n h).sto.otp = h.sto.otp := by simp [pageScrub]
@[simp] theorem Hub.losePage_otp (h : Hub) (p : Nat) : (h.losePage p).sto.otp = h.sto.otp := by simp [Hub.losePage]
@[simp] theorem Hub.loseRecs_otp (h : Hub) (ts : List Nat) : (h.loseRecs ts).sto.otp = h.sto.otp := by simp [Hub.loseRecs]
@[simp] theorem dramUncorrectable_otp (h : Hub) (p : Nat) : (dramUncorrectable p h).sto.otp = h.sto.otp := by simp [dramUncorrectable]
@[simp] theorem journalPageCheckDone_otp (h : Hub) (p : Nat) (ok : Bool) :
    (journalPageCheckDone p ok h).sto.otp = h.sto.otp := by simp [journalPageCheckDone]

/-! ## Functions of Machine/Output.lean -/

/-! ### Pepper (R112, R113, R120, R138, R141) -/
@[simp] theorem Hub.pepperOut_otp (h : Hub) (ch : Nat) (g : Geo) (x : Tap) :
    (h.pepperOut ch g x).sto.otp = h.sto.otp := by simp [Hub.pepperOut]
@[simp] theorem Hub.fadeSeen_otp (h : Hub) (p ch n xf : Nat) (t : T64) : (h.fadeSeen p ch n xf t).sto.otp = h.sto.otp := by
  unfold Hub.fadeSeen
  dsimp only
  split <;> rfl
@[simp] theorem Hub.mainTap_otp (h : Hub) (ch : Nat) (c : ChanCfg) (g : Geo) (x : Tap) : (h.mainTap ch c g x).sto.otp = h.sto.otp := by
  unfold Hub.mainTap
  dsimp only
  split
  · rfl
  · split <;> simp
@[simp] theorem Hub.feedInput_otp (h : Hub) (ch : Nat) (c : ChanCfg) (g : Geo) (v : Int) (fl : Nat) (pep : Option Tap) :
    (h.feedInput ch c g v fl pep).1.sto.otp = h.sto.otp := by
  unfold Hub.feedInput
  dsimp only
  split <;> simp
@[simp] theorem Hub.feedCode_otp (h : Hub) (ch : Nat) (c : ChanCfg) (g : Geo) (v : Int) (fl : Nat) (pep : Option Tap) :
    (h.feedCode ch c g v fl pep).sto.otp = h.sto.otp := by simp [Hub.feedCode]
@[simp] theorem Hub.feedShadow_otp (h : Hub) (ch : Nat) (c : ChanCfg) (g : Geo) (v : Int) (fl : Nat) :
    (h.feedShadow ch c g v fl).1.sto.otp = h.sto.otp := by
  unfold Hub.feedShadow
  dsimp only
  split
  · rfl
  · split <;> rfl
@[simp] theorem Hub.consume_otp (h : Hub) (ch : Nat) (c : ChanCfg) (g : Geo) (n : Nat) : (h.consume ch c g n).sto.otp = h.sto.otp := by
  induction n generalizing h with
  | zero => rfl
  | succ n ih =>
    unfold Hub.consume
    dsimp only
    split
    · rfl
    · split
      · rfl
      · split
        · simp [ih]
        · split
          · simp [ih]
          · split
            · simp [ih]
            · split <;> simp [ih]

/-! ### Stages 5 to 7 (R146 to R151) -/
@[simp] theorem Hub.digestEmit_otp (h : Hub) (ch : Nat) (isPart : Bool) : (h.digestEmit ch isPart).sto.otp = h.sto.otp := by
  unfold Hub.digestEmit
  dsimp only
  split <;> simp
@[simp] theorem Hub.digestAt_otp (h : Hub) (ch redN n : Nat) (order : Bool) (t : T64) :
    (h.digestAt ch redN n order t).1.sto.otp = h.sto.otp := by
  unfold Hub.digestAt
  dsimp only
  split
  · split <;> simp
  · rfl
@[simp] theorem Hub.digestAdd_otp (h : Hub) (ch redN n : Nat) (order : Bool) (t : T64) (y : Option (Int × Nat)) :
    (h.digestAdd ch redN n order t y).sto.otp = h.sto.otp := by simp [Hub.digestAdd]

/-! ### Staging (R32, R73, R331) -/
@[simp] theorem Hub.release_otp (h : Hub) (o : StOut) : (h.release o).sto.otp = h.sto.otp := by simp [Hub.release]
@[simp] theorem Hub.stageOut_otp (h : Hub) (o : StOut) : (h.stageOut o).sto.otp = h.sto.otp := by simp [Hub.stageOut]
@[simp] theorem stagingRelease_otp (h : Hub) (ch : Nat) : (stagingRelease ch h).sto.otp = h.sto.otp := by
  unfold stagingRelease
  dsimp only
  split <;> simp
@[simp] theorem Hub.stageEmpty_otp (h : Hub) (ch : Nat) : (h.stageEmpty ch).sto.otp = h.sto.otp := by simp [Hub.stageEmpty]

/-! ### Saffron outputs (R93, R136, R140 to R145, R147) -/
@[simp] theorem Hub.fadeBare_otp (h : Hub) (ch : Nat) : (h.fadeBare ch).sto.otp = h.sto.otp := by
  unfold Hub.fadeBare
  split <;> simp
@[simp] theorem Hub.parReach_otp (h : Hub) (ch : Nat) (t : T64) : (h.parReach ch t).sto.otp = h.sto.otp := by
  unfold Hub.parReach
  dsimp only
  split <;> simp
@[simp] theorem Hub.chainStep_otp (h : Hub) (ch : Nat) (c : ChanCfg) (g : Geo) (s : Stage4) :
    (h.chainStep ch c g s).sto.otp = h.sto.otp := by
  unfold Hub.chainStep
  dsimp only
  split
  · simp
  · split <;> simp
@[simp] theorem chainOutput_otp (h : Hub) (ch : Nat) : (chainOutput ch h).sto.otp = h.sto.otp := by
  unfold chainOutput
  dsimp only
  split
  · rfl
  · split
    · rfl
    · split <;> simp

/-! ### Synchronising resets (R137 to R141) -/
@[simp] theorem Hub.drain_otp (h : Hub) (ch : Nat) (c : ChanCfg) (g : Geo) (n : Nat) : (h.drain ch c g n).sto.otp = h.sto.otp := by
  induction n generalizing h with
  | zero => rfl
  | succ n ih =>
    unfold Hub.drain
    dsimp only
    split <;> simp [ih]
@[simp] theorem Hub.flushTail_otp (h : Hub) (ch : Nat) (c : ChanCfg) (g : Geo) (n : Nat) : (h.flushTail ch c g n).sto.otp = h.sto.otp := by
  induction n generalizing h with
  | zero => rfl
  | succ n ih => simp [Hub.flushTail, ih]
@[simp] theorem Hub.chainTail_otp (h : Hub) (ch : Nat) (c : ChanCfg) (g : Geo) (ts : Nat) :
    (h.chainTail ch c g ts).sto.otp = h.sto.otp := by simp [Hub.chainTail]
@[simp] theorem Hub.calRestart_otp (h : Hub) (ch : Nat) (g : Geo) (ts epoch wait : Nat) :
    (h.calRestart ch g ts epoch wait).sto.otp = h.sto.otp := by
  unfold Hub.calRestart
  split <;> rfl
@[simp] theorem Hub.syncNow_otp (h : Hub) (ch : Nat) (c : ChanCfg) (g : Geo) (ts : Nat) :
    (h.syncNow ch c g ts).sto.otp = h.sto.otp := by simp [Hub.syncNow]
@[simp] theorem Hub.chainSync_otp (h : Hub) (ch ts : Nat) : (h.chainSync ch ts).sto.otp = h.sto.otp := by
  unfold Hub.chainSync
  split <;> simp
@[simp] theorem Hub.chainStart_otp (h : Hub) (ch ts epoch : Nat) : (h.chainStart ch ts epoch).sto.otp = h.sto.otp := by
  unfold Hub.chainStart
  split <;> simp
@[simp] theorem Hub.restartNow_otp (h : Hub) (ch ts : Nat) (was : Option ChanCfg) : (h.restartNow ch ts was).sto.otp = h.sto.otp := by
  unfold Hub.restartNow
  split <;> simp
@[simp] theorem Hub.chainRestart_otp (h : Hub) (ch ts : Nat) : (h.chainRestart ch ts).sto.otp = h.sto.otp := by simp [Hub.chainRestart]
@[simp] theorem Hub.epochNow_otp (h : Hub) (ch : Nat) (c : ChanCfg) (g : Geo) (p ts epoch : Nat) (step : T64) :
    (h.epochNow ch c g p ts epoch step).sto.otp = h.sto.otp := by simp [Hub.epochNow]
@[simp] theorem Hub.chainEpoch_otp (h : Hub) (ch p ts epoch : Nat) (step : T64) :
    (h.chainEpoch ch p ts epoch step).sto.otp = h.sto.otp := by
  unfold Hub.chainEpoch
  split <;> simp
@[simp] theorem Hub.takeSyncs_otp (h : Hub) (ch n : Nat) : (h.takeSyncs ch n).sto.otp = h.sto.otp := by
  induction n generalizing h with
  | zero => rfl
  | succ n ih =>
    unfold Hub.takeSyncs
    dsimp only
    split
    · split
      · rfl
      · rw [ih]
        split <;> simp
    · rfl

/-! ### PEPPER_OUTPUT (R118 to R120) -/
@[simp] theorem pepperOutput_otp (h : Hub) (ch : Nat) (codes shadowCodes : List (Int × Bool)) :
    (pepperOutput ch codes shadowCodes h).sto.otp = h.sto.otp := by
  unfold pepperOutput
  dsimp only
  split <;> simp

/-! ### Tachometer pulses (R130 to R132) -/
@[simp] theorem Hub.tachChan_otp (h : Hub) (ch : Nat) (c : ChanCfg) (g : Geo) (t : T64) : (h.tachChan ch c g t).sto.otp = h.sto.otp := by
  unfold Hub.tachChan
  dsimp only
  split <;> simp
@[simp] theorem tachPulse_otp (h : Hub) (i : Nat) (t : T64) : (tachPulse i t h).sto.otp = h.sto.otp := by
  unfold tachPulse
  refine Hub.foldl_otp (fun g a => ?_) _ _
  split
  · split
    · split <;> simp
    · rfl
  · rfl

end Sys2Proof.Machine

/-! PROOFS. What leaves OTP as it is: calibration, scans and the timing inputs (O19). -/
namespace Sys2Proof.Machine

/-! ## Functions of Machine/Cal.lean -/

@[simp] theorem Hub.setCalGrp_otp (h : Hub) (g : Nat) (x : CalGrp) : (h.setCalGrp g x).sto.otp = h.sto.otp := (rfl)
@[simp] theorem Hub.setRun_otp (h : Hub) (r : Option CalRun) : (h.setRun r).sto.otp = h.sto.otp := (rfl)

/-! ### Results (R106) -/
@[simp] theorem Hub.calLand_otp (h : Hub) (ch : Nat) (r : CalRec) : (h.calLand ch r).sto.otp = h.sto.otp := by simp [Hub.calLand]

/-! ### Becoming pending (R90, R91, R104) -/
@[simp] theorem Hub.calSuspend_otp (h : Hub) (g : Nat) : (h.calSuspend g).sto.otp = h.sto.otp := by simp [Hub.calSuspend]
@[simp] theorem Hub.calWant_otp (h : Hub) (g trig : Nat) : (h.calWant g trig).sto.otp = h.sto.otp := by simp [Hub.calWant]
@[simp] theorem Hub.calWantAll_otp (h : Hub) : h.calWantAll.sto.otp = h.sto.otp := by simp [Hub.calWantAll]
@[simp] theorem calMaxIntExpiry_otp (h : Hub) (g : Nat) : (calMaxIntExpiry g h).sto.otp = h.sto.otp := by simp [calMaxIntExpiry]
@[simp] theorem Hub.calReview_otp (h : Hub) : h.calReview.sto.otp = h.sto.otp := by simp [Hub.calReview]
@[simp] theorem dieTempSample_otp (h : Hub) (t : List Int) : (dieTempSample t h).sto.otp = h.sto.otp := by simp [dieTempSample]

/-! ### The end of a group run (R90, R107, R110) -/
@[simp] theorem Hub.calCmdsDone_otp (h : Hub) : h.calCmdsDone.sto.otp = h.sto.otp := by simp [Hub.calCmdsDone]
@[simp] theorem Hub.calCmdGroup_otp (h : Hub) (g : Nat) (ok : Bool) : (h.calCmdGroup g ok).sto.otp = h.sto.otp := by simp [Hub.calCmdGroup]
@[simp] theorem Hub.calFinish_otp (h : Hub) (r : CalRun) : (h.calFinish r).sto.otp = h.sto.otp := by simp [Hub.calFinish]

/-! ### Shadow chains (R92, R93) -/
@[simp] theorem Hub.calExchange_otp (h : Hub) (ch : Nat) (r : CalRun) : (h.calExchange ch r).sto.otp = h.sto.otp := by
  unfold Hub.calExchange
  split <;> rfl

/-! ### Steps of a slot (R92, R107) -/
@[simp] theorem Hub.calApply_otp (h : Hub) (ch : Nat) (x : Ramp) : (h.calApply ch x).sto.otp = h.sto.otp := by
  unfold Hub.calApply
  split <;> simp
@[simp] theorem Hub.calSlotEnd_otp (h : Hub) (ch : Nat) (r : CalRun) : (h.calSlotEnd ch r).sto.otp = h.sto.otp := by
  unfold Hub.calSlotEnd
  split <;> simp
@[simp] theorem Hub.calSlotStart_otp (h : Hub) (ch : Nat) (r : CalRun) (first : Bool) :
    (h.calSlotStart ch r first).sto.otp = h.sto.otp := by simp [Hub.calSlotStart]
@[simp] theorem Hub.calNext_otp (h : Hub) (r : CalRun) : (h.calNext r).sto.otp = h.sto.otp := by
  unfold Hub.calNext
  split <;> simp
@[simp] theorem Hub.calBegin_otp (h : Hub) (refOk : Bool) : (h.calBegin refOk).sto.otp = h.sto.otp := by
  unfold Hub.calBegin
  split <;> simp
@[simp] theorem calSlotStep_otp (refOk : Bool) (h : Hub) : (calSlotStep refOk h).sto.otp = h.sto.otp := by
  unfold calSlotStep
  dsimp only
  split
  · rfl
  · split
    · simp
    · split
      · rfl
      · simp
      · split_ifs
        · simp
        · rfl
        · rfl
        · simp
        · simp
        · simp
        · rfl
        · split <;> simp
        · rfl
        · rfl

/-! ### Measurement (R96 to R98, R103 to R105) -/
@[simp] theorem Hub.calReconnect_otp (h : Hub) (ch : Nat) : (h.calReconnect ch).sto.otp = h.sto.otp := by
  unfold Hub.calReconnect
  dsimp only
  split
  · rfl
  · split <;> rfl
@[simp] theorem Hub.chainFlush_otp (h : Hub) (ch : Nat) : (h.chainFlush ch).sto.otp = h.sto.otp := by
  unfold Hub.chainFlush
  split <;> simp
@[simp] theorem Hub.lostGap_otp (h : Hub) (ch : Nat) (t : T64) : (h.lostGap ch t).sto.otp = h.sto.otp := by simp [Hub.lostGap]
@[simp] theorem Hub.calLose_otp (h : Hub) (ch : Nat) : (h.calLose ch).sto.otp = h.sto.otp := by simp [Hub.calLose]
@[simp] theorem Hub.calResult_otp (h : Hub) (ch : Nat) (r : CalRun) (m : Meas) : (h.calResult ch r m).sto.otp = h.sto.otp := by
  unfold Hub.calResult
  split
  · split <;> simp
  · split <;> simp
@[simp] theorem Hub.calModFail_otp (h : Hub) (ch : Nat) (r : CalRun) (m : Meas) :
    (h.calModFail ch r m).sto.otp = h.sto.otp := by simp [Hub.calModFail]
@[simp] theorem Hub.calMeasured_otp (h : Hub) (r : CalRun) (m : Meas) : (h.calMeasured r m).sto.otp = h.sto.otp := by
  unfold Hub.calMeasured
  split <;> simp
@[simp] theorem calMeasureDone_otp (h : Hub) (zero plus minus : List Int) (ovrZero ovrVc : Bool) :
    (calMeasureDone zero plus minus ovrZero ovrVc h).sto.otp = h.sto.otp := by
  unfold calMeasureDone
  split
  · rfl
  · split <;> simp

/-! ### The trim ramp (R99, R100) -/
@[simp] theorem trimStep_otp (h : Hub) (ch : Nat) : (trimStep ch h).sto.otp = h.sto.otp := by
  unfold trimStep
  split <;> simp

/-! ### A run that is abandoned (R107) -/
@[simp] theorem Hub.calAbort_otp (h : Hub) : h.calAbort.sto.otp = h.sto.otp := by
  unfold Hub.calAbort
  split
  · rfl
  · split <;> simp

/-! ## Functions of Machine/Scan.lean -/

/-! ### Faults on fast inputs (R69, R72 to R74) -/
@[simp] theorem Hub.stageFault_otp (h : Hub) (ch : Nat) (tf : T64) : (h.stageFault ch tf).sto.otp = h.sto.otp := by
  unfold Hub.stageFault
  split <;> rfl
@[simp] theorem feFaultDeclare_otp (h : Hub) (ch pin : Nat) (above : Bool) : (feFaultDeclare ch pin above h).sto.otp = h.sto.otp := by
  unfold feFaultDeclare
  dsimp only
  split
  · rfl
  · split <;> simp
@[simp] theorem feFaultClearDeclare_otp (h : Hub) (ch : Nat) :
    (feFaultClearDeclare ch h).sto.otp = h.sto.otp := by simp [feFaultClearDeclare]
@[simp] theorem feExcursionEnd_otp (h : Hub) (ch : Nat) : (feExcursionEnd ch h).sto.otp = h.sto.otp := by simp [feExcursionEnd]

/-! ### Excitation faults (R63, R67) -/
@[simp] theorem excFaultOnset_otp (h : Hub) (x : Nat) : (excFaultOnset x h).sto.otp = h.sto.otp := by simp [excFaultOnset]
@[simp] theorem excFaultEnd_otp (h : Hub) (x : Nat) : (excFaultEnd x h).sto.otp = h.sto.otp := by simp [excFaultEnd]

/-! ### The rotation of reference points (R101, R102) -/
@[simp] theorem Hub.setCalScan_otp (h : Hub) (m : Nat) (x : CalScan) : (h.setCalScan m x).sto.otp = h.sto.otp := (rfl)
@[simp] theorem Hub.scanLand_otp (h : Hub) (m : Nat) (recs : List CalRec) :
    (h.scanLand m recs).sto.otp = h.sto.otp := by simp [Hub.scanLand]
@[simp] theorem Hub.scanRotation_otp (h : Hub) (m : Nat) : (h.scanRotation m).sto.otp = h.sto.otp := by simp [Hub.scanRotation]
@[simp] theorem Hub.scanPeriod_otp (h : Hub) (m : Nat) : (h.scanPeriod m).sto.otp = h.sto.otp := by simp [Hub.scanPeriod]
@[simp] theorem Hub.refVisit_otp (h : Hub) (m : Nat) (v : Int) (noise : Nat) (ovr refOk busy : Bool) :
    (h.refVisit m v noise ovr refOk busy).sto.otp = h.sto.otp := by
  unfold Hub.refVisit
  dsimp only
  split
  · rfl
  · split
    · rfl
    · split
      · simp
      · split <;> simp

/-! ### Visits (R57 to R62, R75) -/
@[simp] theorem Hub.scanFault_otp (h : Hub) (ch : Nat) (out above : Bool) (pin deb : Nat) :
    (h.scanFault ch out above pin deb).sto.otp = h.sto.otp := by simp [Hub.scanFault]
@[simp] theorem Hub.posVisit_otp (h : Hub) (m : Nat) (e : ScanEntry) (v : Int) (out above : Bool) (pin : Nat) (ovr : Bool) :
    (h.posVisit m e v out above pin ovr).sto.otp = h.sto.otp := by simp [Hub.posVisit]
@[simp] theorem scanVisitDone_otp (m e : Nat) (first second : List Int) (out above : Bool) (pin : Nat)
    (ovrFirst ovrSecond refOk busy : Bool) (h : Hub) :
    (scanVisitDone m e first second out above pin ovrFirst ovrSecond refOk busy h).sto.otp = h.sto.otp := by
  unfold scanVisitDone
  extract_lets v ovr
  split
  · rfl
  · split
    · split
      · exact Hub.refVisit_otp ..
      · rfl
    · split
      · exact Hub.posVisit_otp ..
      · rfl

/-! ## Functions of Machine/Tiu.lean -/

/-! ### Results (R292) -/
@[simp] theorem Hub.tiuLand_otp (h : Hub) (src : Nat) (s : Stamp) (e : List Byte) :
    (h.tiuLand src s e).sto.otp = h.sto.otp := by simp [Hub.tiuLand]
@[simp] theorem Hub.tiuResult_otp (h : Hub) (src q flags : Nat) (s : Stamp) (interval : Nat) (land : Bool) :
    (h.tiuResult src q flags s interval land).sto.otp = h.sto.otp := by simp [Hub.tiuResult]

/-! ### Interval units (R287, R288) -/
@[simp] theorem Hub.setHeld_otp (h : Hub) (u : Nat) (s : Option Stamp) : (h.setHeld u s).sto.otp = h.sto.otp := (rfl)
@[simp] theorem Hub.setStop_otp (h : Hub) (u : Nat) (s : Option Stamp) : (h.setStop u s).sto.otp = h.sto.otp := (rfl)
@[simp] theorem Hub.setReplaced_otp (h : Hub) (u : Nat) (s : Option Stamp) : (h.setReplaced u s).sto.otp = h.sto.otp := (rfl)
@[simp] theorem Hub.iuForget_otp (h : Hub) (u : Nat) : (h.iuForget u).sto.otp = h.sto.otp := (rfl)
@[simp] theorem Hub.iuResult_otp (h : Hub) (u : Nat) (a b : Stamp) (d : Int) :
    (h.iuResult u a b d).sto.otp = h.sto.otp := by simp [Hub.iuResult]
@[simp] theorem Hub.tiuUncount_otp (h : Hub) (s i : Nat) : (h.tiuUncount s i).sto.otp = h.sto.otp := (rfl)
@[simp] theorem Hub.iuPair_otp (h : Hub) (u : Nat) (a s : Stamp) : (h.iuPair u a s).sto.otp = h.sto.otp := by simp [Hub.iuPair]
@[simp] theorem Hub.iuStart_otp (h : Hub) (u : Nat) (s : Stamp) : (h.iuStart u s).sto.otp = h.sto.otp := by
  unfold Hub.iuStart
  split
  · rfl
  · split <;> simp
@[simp] theorem Hub.iuStop_otp (h : Hub) (u : Nat) (s : Stamp) : (h.iuStop u s).sto.otp = h.sto.otp := by
  unfold Hub.iuStop
  split
  · rfl
  · split <;> simp
@[simp] theorem Hub.iuEdge_otp (h : Hub) (i : Nat) (falling : Bool) (s : Stamp) :
    (h.iuEdge i falling s).sto.otp = h.sto.otp := by simp [Hub.iuEdge]
@[simp] theorem Hub.iuDrop_otp (h : Hub) (u : Nat) : (h.iuDrop u).sto.otp = h.sto.otp := by simp [Hub.iuDrop]
@[simp] theorem iuWinTimeout_otp (h : Hub) (u : Nat) : (iuWinTimeout u h).sto.otp = h.sto.otp := by
  unfold iuWinTimeout
  split <;> simp

/-! ### Frequency gates (R289, R290) -/
@[simp] theorem tiuFreqGateEnd_otp (h : Hub) (i : Nat) : (tiuFreqGateEnd i h).sto.otp = h.sto.otp := by
  unfold tiuFreqGateEnd
  split <;> simp
@[simp] theorem Hub.tiuHold_otp (h : Hub) : h.tiuHold.sto.otp = h.sto.otp := by simp [Hub.tiuHold]
@[simp] theorem Hub.orderBreak_otp (h : Hub) (i : Nat) : (h.orderBreak i).sto.otp = h.sto.otp := by simp [Hub.orderBreak]
@[simp] theorem Hub.tachBreak_otp (h : Hub) (i : Nat) : (h.tachBreak i).sto.otp = h.sto.otp := by simp [Hub.tachBreak]
@[simp] theorem Hub.tachTake_otp (h : Hub) (x : Nat × T64 × Bool) : (h.tachTake x).sto.otp = h.sto.otp := by simp [Hub.tachTake]
@[simp] theorem Hub.tachDrain_otp (h : Hub) : h.tachDrain.sto.otp = h.sto.otp := by simp [Hub.tachDrain]

/-! ### Edges (R277, R280, R284) -/
@[simp] theorem ppsInEdge_otp (h : Hub) (falling : Bool) (e : LineEdge) : (ppsInEdge falling e h).sto.otp = h.sto.otp := by simp [ppsInEdge]
@[simp] theorem Hub.prescale_otp (h : Hub) (i : Nat) : (h.prescale i).1.sto.otp = h.sto.otp := by
  unfold Hub.prescale
  dsimp only
  split <;> rfl
@[simp] theorem Hub.gateCount_otp (h : Hub) (i : Nat) (x : Option Stamp) : (h.gateCount i x).sto.otp = h.sto.otp := (rfl)
@[simp] theorem tiuEdge_otp (h : Hub) (i : Nat) (falling : Bool) (tap drained : Nat) :
    (tiuEdge i falling tap drained h).sto.otp = h.sto.otp := by simp [tiuEdge]
@[simp] theorem tachPulseRow_otp (h : Hub) (i : Nat) : (tachPulseRow i h).sto.otp = h.sto.otp := by
  have cut (g : Hub) (x : TiuSt) : g.KeepsOtp (({ g with tiu := x } : Hub).orderBreak i) := Hub.orderBreak_otp ..
  have take (x : TiuSt) (p : Nat × T64 × Bool) : h.KeepsOtp (({ h with tiu := x } : Hub).tachTake p) := Hub.tachTake_otp ..
  change h.KeepsOtp _
  unfold tachPulseRow
  split
  · dsimp only
    split
    · exact take ..
    · exact (take ..).trans (cut ..)
  · rfl

/-! ### Calibration by code density (R281 to R283) -/
@[simp] theorem Hub.setLine_otp (h : Hub) (s n : Nat) : (h.setLine s n).sto.otp = h.sto.otp := (rfl)
@[simp] theorem Hub.tiuLineFail_otp (h : Hub) (l : Nat) : (h.tiuLineFail l).sto.otp = h.sto.otp := by simp [Hub.tiuLineFail]
@[simp] theorem Hub.handoverStart_otp (h : Hub) (s : Nat) (back : Bool) : (h.handoverStart s back).sto.otp = h.sto.otp := (rfl)
@[simp] theorem tiuCalTimer_otp (h : Hub) : (tiuCalTimer h).sto.otp = h.sto.otp := by
  unfold tiuCalTimer
  split
  · rfl
  · split <;> simp
@[simp] theorem tiuHandoverDone_otp (h : Hub) (pairs : List PairedStamp) : (tiuHandoverDone pairs h).sto.otp = h.sto.otp := by
  unfold tiuHandoverDone
  split <;> simp
@[simp] theorem Hub.tiuLineCal_otp (h : Hub) (l : Nat) (hits : List Nat) :
    (h.tiuLineCal l hits).sto.otp = h.sto.otp := by simp [Hub.tiuLineCal]
@[simp] theorem Hub.tiuCalAll_otp (h : Hub) (hits : List (List Nat)) : (h.tiuCalAll hits).sto.otp = h.sto.otp := by simp [Hub.tiuCalAll]
@[simp] theorem tiuCalDone_otp (h : Hub) (hits : List (List Nat)) : (tiuCalDone hits h).sto.otp = h.sto.otp := by
  unfold tiuCalDone
  split
  · rfl
  · split
    · simp
    · split <;> simp

end Sys2Proof.Machine

/-! PROOFS. What leaves OTP as it is: the network (O19). -/
namespace Sys2Proof.Machine

/-! ## Functions of Machine/NetOps.lean -/

@[simp] theorem Hub.setPort_otp (h : Hub) (p : Nat) (x : Port) : (h.setPort p x).sto.otp = h.sto.otp := (rfl)
@[simp] theorem Hub.setPtp_otp (h : Hub) (p : Nat) (x : Ptp) : (h.setPtp p x).sto.otp = h.sto.otp := (rfl)

/-! ### Health (R443, R456) -/
@[simp] theorem Hub.setCauses_otp (h : Hub) (n : Nat) : (h.setCauses n).sto.otp = h.sto.otp := (rfl)
@[simp] theorem Hub.noteCauses_otp (h : Hub) : h.noteCauses.sto.otp = h.sto.otp := (rfl)
@[simp] theorem Hub.portHealth_otp (h : Hub) (p : Nat) : (h.portHealth p).sto.otp = h.sto.otp := by simp [Hub.portHealth]
@[simp] theorem Hub.portTo_otp (h : Hub) (p : Nat) (s : PortState) : (h.portTo p s).sto.otp = h.sto.otp := by simp [Hub.portTo]

/-! ### Servo states (R224, R253) -/
@[simp] theorem Hub.servoTo_otp (h : Hub) (p : Nat) (s : Servo) : (h.servoTo p s).sto.otp = h.sto.otp := by simp [Hub.servoTo]
@[simp] theorem Hub.rrDone_otp (h : Hub) (r : RrResult) : (h.rrDone r).sto.otp = h.sto.otp := by simp [Hub.rrDone]
@[simp] theorem Hub.servoRestart_otp (h : Hub) (p : Nat) (s : Servo) (r : RrResult) :
    (h.servoRestart p s r).sto.otp = h.sto.otp := by simp [Hub.servoRestart]

/-! ### PTP messages (R248, R251, R252, R257, R262) -/
@[simp] theorem Hub.ptpSend_otp (h : Hub) (p type seq : Nat) (stamp : Int) : (h.ptpSend p type seq stamp).sto.otp = h.sto.otp := (rfl)

/-! ### What goes out on a port, and when (R260, R262) -/
@[simp] theorem Hub.ptpRequest_otp (h : Hub) (p : Nat) (lead : Int) : (h.ptpRequest p lead).sto.otp = h.sto.otp := by simp [Hub.ptpRequest]
@[simp] theorem Hub.msgWait_otp (h : Hub) (p : Nat) (m : PortMsg) : (h.msgWait p m).sto.otp = h.sto.otp := (rfl)
@[simp] theorem Hub.msgOut_otp (h : Hub) (p : Nat) (m : PortMsg) (lead : optParam Int 0) : (h.msgOut p m lead).sto.otp = h.sto.otp := by
  unfold Hub.msgOut
  split
  · rfl
  · split <;> simp
@[simp] theorem Hub.portDrain_otp (h : Hub) (p : Nat) (lead : optParam Int 0) :
    (h.portDrain p lead).sto.otp = h.sto.otp := by simp [Hub.portDrain]
@[simp] theorem Hub.ferrySend_otp (h : Hub) (kind flags : Nat) (plain : List Byte) :
    (h.ferrySend kind flags plain).sto.otp = h.sto.otp := by
  unfold Hub.ferrySend
  split <;> simp

/-! ## Functions of Machine/Ptp.lean -/

/-! ### Acceptance (R249, R250, R257, R258) -/
@[simp] theorem Hub.ptpAuthFail_otp (h : Hub) (p sender : Nat) : (h.ptpAuthFail p sender).sto.otp = h.sto.otp := by simp [Hub.ptpAuthFail]
@[simp] theorem Hub.ptpIgnore_otp (h : Hub) (p : Nat) : (h.ptpIgnore p).sto.otp = h.sto.otp := (rfl)
@[simp] theorem Hub.ptpAccept_otp (h : Hub) (p : Nat) (m : PtpHead) : (h.ptpAccept p m).1.sto.otp = h.sto.otp := by
  unfold Hub.ptpAccept
  dsimp only
  split
  · rfl
  · split
    · rfl
    · split
      · rfl
      · split <;> simp
@[simp] theorem Hub.ptpStamped_otp (h : Hub) (p : Nat) (m : PtpHead) : (h.ptpStamped p m).1.sto.otp = h.sto.otp := by simp [Hub.ptpStamped]
@[simp] theorem ptpMessageIgnored_otp (h : Hub) (p : Nat) : (ptpMessageIgnored p h).sto.otp = h.sto.otp := by simp [ptpMessageIgnored]

/-! ### Steering (R253) -/
@[simp] theorem Hub.netStep_otp (h : Hub) (p : Nat) (o : Int) : (h.netStep p o).sto.otp = h.sto.otp := (rfl)
@[simp] theorem Hub.netSteer_otp (h : Hub) : h.netSteer.sto.otp = h.sto.otp := (rfl)
@[simp] theorem Hub.servoUpdate_otp (h : Hub) (p : Nat) (o : Int) : (h.servoUpdate p o).sto.otp = h.sto.otp := by simp [Hub.servoUpdate]
@[simp] theorem Hub.ptpSync_otp (h : Hub) (p : Nat) (s : Int × Int × Int) : (h.ptpSync p s).sto.otp = h.sto.otp := by
  unfold Hub.ptpSync
  dsimp only
  split
  · simp
  · simp
  · simp
  · split <;> simp
  · split <;> simp
@[simp] theorem ptpSyncReceive_otp (h : Hub) (p : Nat) (m : PtpHead) (seq : Nat) (twoStep : Bool) (t1 corr : Int) :
    (ptpSyncReceive p m seq twoStep t1 corr h).sto.otp = h.sto.otp := by simp [ptpSyncReceive]
@[simp] theorem ptpFollowUpReceive_otp (h : Hub) (p : Nat) (m : PtpHead) (seq : Nat) (t1 corr : Int) :
    (ptpFollowUpReceive p m seq t1 corr h).sto.otp = h.sto.otp := by
  unfold ptpFollowUpReceive
  dsimp only
  split <;> simp

/-! ### Delay measurement and the re-route detector (R252, R254) -/
@[simp] theorem Hub.delayAccept_otp (h : Hub) (p : Nat) (d : Int) : (h.delayAccept p d).sto.otp = h.sto.otp := (rfl)
@[simp] theorem Hub.delayMeas_otp (h : Hub) (p : Nat) (d : Int) : (h.delayMeas p d).sto.otp = h.sto.otp := by
  unfold Hub.delayMeas
  dsimp only
  split <;> simp
@[simp] theorem ptpDelayRespReceive_otp (h : Hub) (p : Nat) (m : PtpHead) (seq : Nat) (t4 corr : Int) :
    (ptpDelayRespReceive p m seq t4 corr h).sto.otp = h.sto.otp := by
  unfold ptpDelayRespReceive
  dsimp only
  split <;> simp
@[simp] theorem ptpPdelayRespReceive_otp (h : Hub) (p : Nat) (m : PtpHead) (seq : Nat) (followUp twoStep : Bool) (t corr : Int) :
    (ptpPdelayRespReceive p m seq followUp twoStep t corr h).sto.otp = h.sto.otp := by
  unfold ptpPdelayRespReceive
  dsimp only
  split
  · simp
  · split
    · split <;> simp
    · split <;> simp
@[simp] theorem ptpPdelayReqReceive_otp (h : Hub) (p : Nat) (m : PtpHead) (seq : Nat) :
    (ptpPdelayReqReceive p m seq h).sto.otp = h.sto.otp := by simp [ptpPdelayReqReceive]
@[simp] theorem ptpDelayReqTimer_otp (h : Hub) (p : Nat) : (ptpDelayReqTimer p h).sto.otp = h.sto.otp := by simp [ptpDelayReqTimer]

/-! ### Masters (R248, R253) -/
@[simp] theorem ptpAnnounceReceive_otp (h : Hub) (p : Nat) (m : PtpHead) (ann : Announce) :
    (ptpAnnounceReceive p m ann h).sto.otp = h.sto.otp := by
  unfold ptpAnnounceReceive
  dsimp only
  split
  · simp
  · split <;> simp
@[simp] theorem servoSyncTimeout_otp (h : Hub) (p : Nat) (announce : Bool) :
    (servoSyncTimeout p announce h).sto.otp = h.sto.otp := by simp [servoSyncTimeout]

/-! ### Confirmation of a re-route (R255, R256) -/
@[simp] theorem Hub.newPath_otp (h : Hub) (p : Nat) (s : Servo) (unver : Bool) (r : RrResult) :
    (h.newPath p s unver r).sto.otp = h.sto.otp := by simp [Hub.newPath]
@[simp] theorem Hub.windowEnd_otp (h : Hub) (p : Nat) (x : Ptp) : (h.windowEnd p x).sto.otp = h.sto.otp := by
  unfold Hub.windowEnd
  split <;> simp
@[simp] theorem rrConfirmSecond_otp (h : Hub) : (rrConfirmSecond h).sto.otp = h.sto.otp := by
  unfold rrConfirmSecond
  dsimp only
  split
  · rfl
  · split
    · rfl
    · split <;> simp
@[simp] theorem rrHoldExpiry_otp (h : Hub) : (rrHoldExpiry h).sto.otp = h.sto.otp := by
  unfold rrHoldExpiry
  split <;> simp

/-! ### Commands (R267 to R270, R275, R276) -/
@[simp] theorem Hub.setPortCfg_otp (h : Hub) (p : Nat) (c : PortCfg) : (h.setPortCfg p c).sto.otp = h.sto.otp := (rfl)

/-! ## Functions of Machine/Paths.lean -/

/-! ### Frame buffers (R259, R260) -/
@[simp] theorem Hub.freeBuf_otp (h : Hub) (b : Nat) : (h.freeBuf b).sto.otp = h.sto.otp := (rfl)
@[simp] theorem Hub.txStamp_otp (h : Hub) (p tsId : Nat) (net sample : T64) :
    (h.txStamp p tsId net sample).sto.otp = h.sto.otp := by simp [Hub.txStamp]
@[simp] theorem frameTransmitDone_otp (h : Hub) (ago : T64) : (frameTransmitDone ago h).sto.otp = h.sto.otp := by
  unfold frameTransmitDone
  split <;> simp

/-! ### Launches (R261 to R266, R273) -/
@[simp] theorem Hub.launchAbort_otp (h : Hub) (p : Nat) : (h.launchAbort p).sto.otp = h.sto.otp := by simp [Hub.launchAbort]
@[simp] theorem Hub.pathCheck_otp (h : Hub) : h.pathCheck.sto.otp = h.sto.otp := by
  unfold Hub.pathCheck
  split <;> simp
@[simp] theorem launchGuardStart_otp (h : Hub) : (launchGuardStart h).sto.otp = h.sto.otp := by
  unfold launchGuardStart
  split
  · rfl
  · split <;> simp
@[simp] theorem launchTransmit_otp (h : Hub) : (launchTransmit h).sto.otp = h.sto.otp := by
  unfold launchTransmit
  split
  · rfl
  · split <;> simp

/-! ### Echoes, addresses and replies (R442, R453, R460) -/
@[simp] theorem Hub.echoSend_otp (h : Hub) (p : Nat) : (h.echoSend p).sto.otp = h.sto.otp := by simp [Hub.echoSend]
@[simp] theorem addressResolutionReply_otp (h : Hub) (p : Nat) :
    (addressResolutionReply p h).sto.otp = h.sto.otp := by simp [addressResolutionReply]
@[simp] theorem netAddrRequest_otp (h : Hub) (p : Nat) (v6 : Bool) (addr : List Word) (data : List Byte) :
    (netAddrRequest p v6 addr data h).sto.otp = h.sto.otp := by simp [netAddrRequest]
@[simp] theorem routerAdvertisementReceive_otp (h : Hub) (p : Nat) (router : List Byte) :
    (routerAdvertisementReceive p router h).sto.otp = h.sto.otp := by simp [routerAdvertisementReceive]

/-! ### Self-test (R453, R454) -/
@[simp] theorem Hub.testStart_otp (h : Hub) (p : Nat) : (h.testStart p).sto.otp = h.sto.otp := by simp [Hub.testStart]
@[simp] theorem selftestTimer_otp (h : Hub) (p : Nat) : (selftestTimer p h).sto.otp = h.sto.otp := by simp [selftestTimer]
@[simp] theorem Hub.testEnd_otp (h : Hub) (p : Nat) : (h.testEnd p).sto.otp = h.sto.otp := by simp [Hub.testEnd]
@[simp] theorem prbsTestDone_otp (h : Hub) (p errors : Nat) : (prbsTestDone p errors h).sto.otp = h.sto.otp := by simp [prbsTestDone]
@[simp] theorem echoReplyReceive_otp (h : Hub) (p seq : Nat) : (echoReplyReceive p seq h).sto.otp = h.sto.otp := by
  unfold echoReplyReceive
  dsimp only
  split <;> simp
@[simp] theorem echoTimeout_otp (h : Hub) (p : Nat) : (echoTimeout p h).sto.otp = h.sto.otp := by
  unfold echoTimeout
  dsimp only
  split <;> simp

/-! ### Suspicion (R443, R444) -/
@[simp] theorem Hub.setSuspect_otp (h : Hub) (b : Bool) : (h.setSuspect b).sto.otp = h.sto.otp := by
  unfold Hub.setSuspect
  split <;> simp
@[simp] theorem Hub.noteErrors_otp (h : Hub) (fcs : Nat) : (h.noteErrors fcs).sto.otp = h.sto.otp := by
  unfold Hub.noteErrors
  split <;> rfl
@[simp] theorem suspectDebounce_otp (h : Hub) (fcs : Nat) : (suspectDebounce fcs h).sto.otp = h.sto.otp := by simp [suspectDebounce]
@[simp] theorem suspectClear_otp (h : Hub) (fcs : Nat) : (suspectClear fcs h).sto.otp = h.sto.otp := by simp [suspectClear]
@[simp] theorem suspectDatagramTimer_otp (h : Hub) : (suspectDatagramTimer h).sto.otp = h.sto.otp := by simp [suspectDatagramTimer]

/-! ### The servo snapshot (R448 to R450) -/
@[simp] theorem snapshotTimer_otp (h : Hub) : (snapshotTimer h).sto.otp = h.sto.otp := by
  unfold snapshotTimer
  split <;> simp
@[simp] theorem Hub.servoLoad_otp (h : Hub) (p : Nat) (s : Snapshot) (seqs : Nat × Nat) :
    (h.servoLoad p s seqs).sto.otp = h.sto.otp := by simp [Hub.servoLoad]
@[simp] theorem Hub.servoFresh_otp (h : Hub) (p : Nat) : (h.servoFresh p).sto.otp = h.sto.otp := by simp [Hub.servoFresh]

/-! ### Failover (R447, R451) -/
@[simp] theorem Hub.failStart_otp (h : Hub) (b source : Nat) (handle : Option Nat) (pending : Bool) :
    (h.failStart b source handle pending).sto.otp = h.sto.otp := by
  unfold Hub.failStart
  dsimp only
  split <;> simp
@[simp] theorem failoverActivate_otp (h : Hub) : (failoverActivate h).sto.otp = h.sto.otp := by
  unfold failoverActivate
  split <;> simp
@[simp] theorem Hub.ignoreVerdict_otp (h : Hub) : h.ignoreVerdict.sto.otp = h.sto.otp := by simp [Hub.ignoreVerdict]
@[simp] theorem Hub.obey_otp (h : Hub) (p source : Nat) (handle : Option Nat) : (h.obey p source handle).sto.otp = h.sto.otp := by
  unfold Hub.obey
  split
  · split
    · split <;> simp
    · simp
  · split
    · split <;> simp
    · simp
@[simp] theorem Hub.verdictTake_otp (h : Hub) (p source : Nat) (handle : Option Nat) :
    (h.verdictTake p source handle).sto.otp = h.sto.otp := by
  unfold Hub.verdictTake
  split
  · split <;> simp
  · simp
@[simp] theorem Hub.verdictFrom_otp (h : Hub) (p source : Nat) : (h.verdictFrom p source).sto.otp = h.sto.otp := by simp [Hub.verdictFrom]
@[simp] theorem arbSelStable_otp (h : Hub) (level : Bool) : (arbSelStable level h).sto.otp = h.sto.otp := by simp [arbSelStable]
@[simp] theorem verdictDatagramReceive_otp (h : Hub) (p : Nat) (head : UdpHead) (plain cipher : List Byte) :
    (verdictDatagramReceive p head plain cipher h).sto.otp = h.sto.otp := by simp [verdictDatagramReceive]
@[simp] theorem failoverComplete_otp (h : Hub) : (failoverComplete h).sto.otp = h.sto.otp := by
  unfold failoverComplete
  dsimp only
  split
  · split
    · rfl
    · split
      · split <;> simp
      · split <;> simp
  · rfl
@[simp] theorem Hub.resumeVerdict_otp (h : Hub) : h.resumeVerdict.sto.otp = h.sto.otp := by
  unfold Hub.resumeVerdict
  split <;> simp

/-! ### Links (R441, R443, R453, R454) -/
@[simp] theorem netLinkChange_otp (h : Hub) (p : Nat) (up : Bool) : (netLinkChange p up h).sto.otp = h.sto.otp := by simp [netLinkChange]
@[simp] theorem pathHealthTimer_otp (h : Hub) (p fcs : Nat) : (pathHealthTimer p fcs h).sto.otp = h.sto.otp := by simp [pathHealthTimer]

end Sys2Proof.Machine

/-! PROOFS. What leaves OTP as it is: the cascade, consumers and the ferry (O19). -/
namespace Sys2Proof.Machine

/-! ## Functions of Machine/Cascade.lean -/

/-! ### Ends and frames (R27, R420, R421) -/
@[simp] theorem Hub.sendRoster_otp (h : Hub) : h.sendRoster.sto.otp = h.sto.otp := by simp [Hub.sendRoster]
@[simp] theorem Hub.cascCredit_otp (h : Hub) (p : Nat) : (h.cascCredit p).sto.otp = h.sto.otp := (rfl)
@[simp] theorem Hub.cascRecredit_otp (h : Hub) (p : Nat) : (h.cascRecredit p).sto.otp = h.sto.otp := by simp [Hub.cascRecredit]

/-! ### Loss and bring-up (R381, R382, R418, R434) -/
@[simp] theorem Hub.cascLost_otp (h : Hub) (p : Nat) : (h.cascLost p).sto.otp = h.sto.otp := by simp [Hub.cascLost]
@[simp] theorem Hub.cascBreak_otp (h : Hub) (p : Nat) : (h.cascBreak p).sto.otp = h.sto.otp := by simp [Hub.cascBreak]
@[simp] theorem Hub.cascStart_otp (h : Hub) (p : Nat) : (h.cascStart p).sto.otp = h.sto.otp := by simp [Hub.cascStart]
@[simp] theorem Hub.cascRetrain_otp (h : Hub) (p : Nat) : (h.cascRetrain p).sto.otp = h.sto.otp := by simp [Hub.cascRetrain]
@[simp] theorem Hub.cascReset_otp (h : Hub) (p : Nat) : (h.cascReset p).sto.otp = h.sto.otp := by simp [Hub.cascReset]
@[simp] theorem Hub.cascNak_otp (h : Hub) (p cls : Nat) : (h.cascNak p cls).sto.otp = h.sto.otp := by simp [Hub.cascNak]
@[simp] theorem Hub.cascViolation_otp (h : Hub) (p cls : Nat) : (h.cascViolation p cls).sto.otp = h.sto.otp := by simp [Hub.cascViolation]
@[simp] theorem Hub.cascUpNow_otp (h : Hub) (p : Nat) : (h.cascUpNow p).sto.otp = h.sto.otp := by simp [Hub.cascUpNow]
@[simp] theorem Hub.cascStep10_otp (h : Hub) (p : Nat) : (h.cascStep10 p).sto.otp = h.sto.otp := by simp [Hub.cascStep10]
@[simp] theorem cascLossOfLock_otp (h : Hub) (p : Nat) : (cascLossOfLock p h).sto.otp = h.sto.otp := by simp [cascLossOfLock]
@[simp] theorem cascCommaAlignment_otp (h : Hub) (p inverted : Nat) :
    (cascCommaAlignment p inverted h).sto.otp = h.sto.otp := by simp [cascCommaAlignment]
@[simp] theorem cascStepTimeout_otp (h : Hub) (p : Nat) (phy : Fin 4) :
    (cascStepTimeout p phy h).sto.otp = h.sto.otp := by simp [cascStepTimeout]
@[simp] theorem cascRetryTimer_otp (h : Hub) (p : Nat) : (cascRetryTimer p h).sto.otp = h.sto.otp := by simp [cascRetryTimer]
@[simp] theorem cascRefusedRetry_otp (h : Hub) (p : Nat) : (cascRefusedRetry p h).sto.otp = h.sto.otp := by simp [cascRefusedRetry]
@[simp] theorem cascAlignMarker_otp (h : Hub) (p lane g1 g2 skew : Nat) :
    (cascAlignMarker p lane g1 g2 skew h).sto.otp = h.sto.otp := by simp [cascAlignMarker]

/-! ### Frames received (R420, R421, R433) -/
/-- What the hub does with a frame of the kind leaves OTP as it was. -/
def CascRx.KeepsOtp (c : CascRx) : Prop := ∀ (h : Hub) p b, h.KeepsOtp (c.use h p b)

@[simp] theorem Hub.cascRx_otp {c : CascRx} (hc : c.KeepsOtp) (h : Hub) (p : Nat) (intact : Bool) (f : List Byte) :
    (h.cascRx c p intact f).sto.otp = h.sto.otp := by
  have hc (g : Hub) : (c.use g p (framePay f)).sto.otp = g.sto.otp := hc g p (framePay f)
  unfold Hub.cascRx
  dsimp only
  split
  · rfl
  · split
    · simp
    · split
      · rfl
      · split
        · simp
        · split
          · simp
          · split
            · simp
            · simp [hc]
theorem rxHello_keepsOtp : rxHello.KeepsOtp := fun h p b => by simp [rxHello]
@[simp] theorem cascHelloReceive_otp (h : Hub) (p : Nat) (intact : Bool) (f : List Byte) :
    (cascHelloReceive p intact f h).sto.otp = h.sto.otp := Hub.cascRx_otp rxHello_keepsOtp ..
theorem rxAuth_keepsOtp : rxAuth.KeepsOtp := fun h p b => by simp [rxAuth]
@[simp] theorem cascAuthReceive_otp (h : Hub) (p : Nat) (intact : Bool) (f : List Byte) :
    (cascAuthReceive p intact f h).sto.otp = h.sto.otp := Hub.cascRx_otp rxAuth_keepsOtp ..
theorem rxRoster_keepsOtp : rxRoster.KeepsOtp := fun h p b => by simp [rxRoster]
@[simp] theorem cascRosterReceive_otp (h : Hub) (p : Nat) (intact : Bool) (f : List Byte) :
    (cascRosterReceive p intact f h).sto.otp = h.sto.otp := Hub.cascRx_otp rxRoster_keepsOtp ..
theorem rxCredit_keepsOtp : rxCredit.KeepsOtp := fun h p b => by simp [rxCredit]
@[simp] theorem cascCreditReceive_otp (h : Hub) (p : Nat) (intact : Bool) (f : List Byte) :
    (cascCreditReceive p intact f h).sto.otp = h.sto.otp := Hub.cascRx_otp rxCredit_keepsOtp ..
theorem rxNak_keepsOtp : rxNak.KeepsOtp := fun h p b => by simp [rxNak]
@[simp] theorem cascNakReceive_otp (h : Hub) (p : Nat) (intact : Bool) (f : List Byte) :
    (cascNakReceive p intact f h).sto.otp = h.sto.otp := Hub.cascRx_otp rxNak_keepsOtp ..
@[simp] theorem cascCreditTimer_otp (h : Hub) (p : Nat) : (cascCreditTimer p h).sto.otp = h.sto.otp := by simp [cascCreditTimer]

/-! ### Time distribution (R422 to R424, R234) -/
@[simp] theorem Hub.cascAligns_otp (h : Hub) : h.cascAligns.sto.otp = h.sto.otp := by simp [Hub.cascAligns]
@[simp] theorem Hub.cascMarks_otp (h : Hub) (idx : Nat) : (h.cascMarks idx).sto.otp = h.sto.otp := by simp [Hub.cascMarks]
@[simp] theorem Hub.matchEpoch_otp (h : Hub) (takes : Bool) (e : Int) (em : Nat) :
    (h.matchEpoch takes e em).sto.otp = h.sto.otp := by simp [Hub.matchEpoch]
@[simp] theorem cascTimeMark_otp (h : Hub) (g : Nat) (arr : T64) (intact : Bool) (f : List Byte) :
    (cascTimeMark g arr intact f h).sto.otp = h.sto.otp := by
  unfold cascTimeMark
  dsimp only
  split
  · rfl
  · split
    · rfl
    · simp
    · split
      · simp
      · split
        · rfl
        · split
          · simp
          · split <;> simp
@[simp] theorem cascDelayEcho_otp (h : Hub) (e : RoundTrip) (turn : Nat) : (cascDelayEcho e turn h).sto.otp = h.sto.otp := by
  unfold cascDelayEcho
  dsimp only
  split
  · rfl
  · split
    · rfl
    · split <;> simp
@[simp] theorem cascProbeTimer_otp (h : Hub) : (cascProbeTimer h).sto.otp = h.sto.otp := by simp [cascProbeTimer]
@[simp] theorem Hub.sendEpochReq_otp (h : Hub) (epoch : Nat) : (h.sendEpochReq epoch).sto.otp = h.sto.otp := by simp [Hub.sendEpochReq]
theorem rxEpochReq_keepsOtp : rxEpochReq.KeepsOtp := fun h p b => by simp [rxEpochReq]
@[simp] theorem cascEpochReqReceive_otp (h : Hub) (p : Nat) (intact : Bool) (f : List Byte) :
    (cascEpochReqReceive p intact f h).sto.otp = h.sto.otp := Hub.cascRx_otp rxEpochReq_keepsOtp ..
@[simp] theorem cascHopHealthTimer_otp (h : Hub) : (cascHopHealthTimer h).sto.otp = h.sto.otp := by simp [cascHopHealthTimer]
theorem rxHopHealth_keepsOtp : rxHopHealth.KeepsOtp := fun h p b => by simp [rxHopHealth]
@[simp] theorem cascHopHealthReceive_otp (h : Hub) (p : Nat) (intact : Bool) (f : List Byte) :
    (cascHopHealthReceive p intact f h).sto.otp = h.sto.otp := Hub.cascRx_otp rxHopHealth_keepsOtp ..

/-! ### Triggers (R190, R426, R427) -/
theorem rxTrigger_keepsOtp : rxTrigger.KeepsOtp := fun h p b => by simp [rxTrigger]
@[simp] theorem cascTriggerReceive_otp (h : Hub) (p : Nat) (intact : Bool) (f : List Byte) :
    (cascTriggerReceive p intact f h).sto.otp = h.sto.otp := Hub.cascRx_otp rxTrigger_keepsOtp ..

/-! ### Aggregation (R428, R429) -/
@[simp] theorem Hub.relayPurge_otp (h : Hub) : h.relayPurge.sto.otp = h.sto.otp := by simp [Hub.relayPurge]
@[simp] theorem Hub.ackDown_otp (h : Hub) (o : Nat) (before : Option Nat) : (h.ackDown o before).sto.otp = h.sto.otp := by
  unfold Hub.ackDown
  split <;> simp
@[simp] theorem Hub.ackFrom_otp (h : Hub) (c o t : Nat) : (h.ackFrom c o t).sto.otp = h.sto.otp := by simp [Hub.ackFrom]
@[simp] theorem Hub.relayTake_otp (h : Hub) (p o : Nat) (start : Bool) (data : List Byte) :
    (h.relayTake p o start data).sto.otp = h.sto.otp := by
  unfold Hub.relayTake
  dsimp only
  split <;> simp
theorem rxRecord_keepsOtp : rxRecord.KeepsOtp := fun h p b => by simp [rxRecord]
@[simp] theorem cascRecordReceive_otp (h : Hub) (p : Nat) (intact : Bool) (f : List Byte) :
    (cascRecordReceive p intact f h).sto.otp = h.sto.otp := Hub.cascRx_otp rxRecord_keepsOtp ..
@[simp] theorem Hub.forwardAcks_otp (h : Hub) (es : List (Nat × Nat)) : (h.forwardAcks es).sto.otp = h.sto.otp := by simp [Hub.forwardAcks]
theorem rxAck_keepsOtp : rxAck.KeepsOtp := fun h p b => by simp [rxAck]
@[simp] theorem cascAckReceive_otp (h : Hub) (p : Nat) (intact : Bool) (f : List Byte) :
    (cascAckReceive p intact f h).sto.otp = h.sto.otp := Hub.cascRx_otp rxAck_keepsOtp ..

/-! ### Commands (R435 to R439) -/
@[simp] theorem cascLinkResetTimeout_otp (h : Hub) (p : Nat) :
    (cascLinkResetTimeout p h).sto.otp = h.sto.otp := by simp [cascLinkResetTimeout]

/-! ## Functions of Machine/Ferry.lean -/

@[simp] theorem Hub.setCons_otp (h : Hub) (c : Nat) (x : Consumer) : (h.setCons c x).sto.otp = h.sto.otp := (rfl)

/-! ### Host rings (R326, R466, R471) -/
@[simp] theorem Hub.ringWrite_otp (h : Hub) (addr : Nat) (bytes : List Byte) :
    (h.ringWrite addr bytes).sto.otp = h.sto.otp := by simp [Hub.ringWrite]
@[simp] theorem Hub.bufDone_otp (h : Hub) (c : Nat) (flushed : Bool) : (h.bufDone c flushed).sto.otp = h.sto.otp := by
  unfold Hub.bufDone
  dsimp only
  split <;> simp
@[simp] theorem Hub.bufPlace_otp (h : Hub) (c : Nat) : (h.bufPlace c).sto.otp = h.sto.otp := by
  unfold Hub.bufPlace
  dsimp only
  split <;> simp
@[simp] theorem Hub.ringBad_otp (h : Hub) : h.ringBad.sto.otp = h.sto.otp := (rfl)
@[simp] theorem Hub.ringFill_otp (h : Hub) (c : Nat) (l : List (Nat × Nat)) : (h.ringFill c l).sto.otp = h.sto.otp := by
  induction l generalizing h with
  | nil => simp [Hub.ringFill]
  | cons d l ih =>
    unfold Hub.ringFill
    dsimp only
    split
    · simp
    · split <;> simp [ih]
@[simp] theorem Hub.ringGo_otp (h : Hub) (c : Nat) (descs : List (Nat × Nat)) :
    (h.ringGo c descs).sto.otp = h.sto.otp := by simp [Hub.ringGo]
@[simp] theorem ringFlushTimeout_otp (h : Hub) (c : Nat) : (ringFlushTimeout c h).sto.otp = h.sto.otp := by simp [ringFlushTimeout]

/-! ### The network ferry (R328, R329) -/
@[simp] theorem Hub.ferryGo_otp (h : Hub) (start : Bool) (n : Nat) : (h.ferryGo start n).sto.otp = h.sto.otp := by
  induction n generalizing h start with
  | zero => rfl
  | succ n ih =>
    unfold Hub.ferryGo
    dsimp only
    split <;> simp [ih]

/-! ### The cascade stream (R420, R428) -/
@[simp] theorem Hub.cascRecord_otp (h : Hub) (b : List Byte) : (h.cascRecord b).sto.otp = h.sto.otp := by simp [Hub.cascRecord]

/-! ### Offering (R322, R429, R430) -/
@[simp] theorem recordOffer_otp (h : Hub) (c o : Nat) (descs : List (Nat × Nat)) : (recordOffer c o descs h).sto.otp = h.sto.otp := by
  unfold recordOffer
  dsimp only
  split
  · split
    · split <;> simp
    · simp
  · split
    · split
      · split <;> simp
      · simp
    · split
      · split <;> simp
      · rfl

/-! ### Acknowledgements (R323, R327, R329) -/
@[simp] theorem Hub.flightTrim_otp (h : Hub) : h.flightTrim.sto.otp = h.sto.otp := (rfl)
@[simp] theorem Hub.ferryFail_otp (h : Hub) : h.ferryFail.sto.otp = h.sto.otp := by simp [Hub.ferryFail]
@[simp] theorem ferryAckReceive_otp (h : Hub) (header plain cipher : List Byte) :
    (ferryAckReceive header plain cipher h).sto.otp = h.sto.otp := by simp [ferryAckReceive]
@[simp] theorem ferryAckTimeout_otp (h : Hub) : (ferryAckTimeout h).sto.otp = h.sto.otp := by simp [ferryAckTimeout]
@[simp] theorem Hub.ferryCtrl_otp (h : Hub) (c : Nat) (w : Word) : (h.ferryCtrl c w).sto.otp = h.sto.otp := by simp [Hub.ferryCtrl]
@[simp] theorem Hub.ferryTail_otp (h : Hub) (c : Nat) (w : Word) : (h.ferryTail c w).sto.otp = h.sto.otp := (rfl)
@[simp] theorem Hub.ferryAckLo_otp (h : Hub) (c o : Nat) (w : Word) : (h.ferryAckLo c o w).sto.otp = h.sto.otp := by simp [Hub.ferryAckLo]
@[simp] theorem Hub.ferryAckHi_otp (h : Hub) (c o : Nat) (w : Word) : (h.ferryAckHi c o w).sto.otp = h.sto.otp := by simp [Hub.ferryAckHi]

end Sys2Proof.Machine

/-! PROOFS. What leaves OTP as it is: strobes, control, restarts and holds (O19). -/
namespace Sys2Proof.Machine

/-! ## Functions of Machine/Strobe.lean -/

/-! ### The end of a group's acquisition (R301, R310) -/
@[simp] theorem Hub.stopGap_otp (h : Hub) (ch : Nat) (s : Nat × T64) : (h.stopGap ch s).sto.otp = h.sto.otp := by
  unfold Hub.stopGap
  split <;> simp
@[simp] theorem Hub.digestStop_otp (h : Hub) (ch : Nat) (s : Nat × T64) :
    (h.digestStop ch s).sto.otp = h.sto.otp := by simp [Hub.digestStop]
@[simp] theorem Hub.runClose_otp (h : Hub) (g : Nat) : (h.runClose g).sto.otp = h.sto.otp := by
  unfold Hub.runClose
  split <;> simp
@[simp] theorem Hub.chgFinish_otp (h : Hub) (g : Nat) : (h.chgFinish g).sto.otp = h.sto.otp := by simp [Hub.chgFinish]
@[simp] theorem Hub.runsClose_otp (h : Hub) (g : Nat) : (h.runsClose g).sto.otp = h.sto.otp := by simp [Hub.runsClose]
@[simp] theorem Hub.slotTurn_otp (h : Hub) (ch : Nat) : (h.slotTurn ch).sto.otp = h.sto.otp := by simp [Hub.slotTurn]
@[simp] theorem slSlotAckReceive_otp (h : Hub) (n : Nat) (intact : Bool) (f : List Byte) :
    (slSlotAckReceive n intact f h).sto.otp = h.sto.otp := by
  unfold slSlotAckReceive
  dsimp only
  split
  · rfl
  · split
    · simp
    · split
      · simp
      · split <;> simp
@[simp] theorem Hub.orderStart_otp (h : Hub) (ch : Nat) : (h.orderStart ch).sto.otp = h.sto.otp := by
  unfold Hub.orderStart
  split <;> rfl
@[simp] theorem Hub.chgStart_otp (h : Hub) (g : Nat) : (h.chgStart g).sto.otp = h.sto.otp := by simp [Hub.chgStart]
@[simp] theorem Hub.chgStop_otp (h : Hub) (g : Nat) : (h.chgStop g).sto.otp = h.sto.otp := by simp [Hub.chgStop]
@[simp] theorem Hub.chgStrobe_otp (h : Hub) : h.chgStrobe.sto.otp = h.sto.otp := by simp [Hub.chgStrobe]

/-! ### Chains at a strobe (R137, R147, R160) -/
@[simp] theorem Hub.chainStrobe_otp (h : Hub) : h.chainStrobe.sto.otp = h.sto.otp := by simp [Hub.chainStrobe]
@[simp] theorem Hub.parStrobe_otp (h : Hub) : h.parStrobe.sto.otp = h.sto.otp := by
  unfold Hub.parStrobe
  dsimp only
  refine Hub.foldl_otp (fun g a => ?_) _ _
  split <;> simp
@[simp] theorem Hub.syncStrobe_otp (h : Hub) : h.syncStrobe.sto.otp = h.sto.otp := by
  unfold Hub.syncStrobe
  dsimp only
  refine (Hub.foldl_otp (fun g a => ?_) _ _).trans ?_
  · simp
  · simp
@[simp] theorem Hub.swapStrobe_otp (h : Hub) : h.swapStrobe.sto.otp = h.sto.otp := by simp [Hub.swapStrobe]
@[simp] theorem Hub.descStrobe_otp (h : Hub) : h.descStrobe.sto.otp = h.sto.otp := by simp [Hub.descStrobe]
@[simp] theorem Hub.excStrobe_otp (h : Hub) : h.excStrobe.sto.otp = h.sto.otp := by simp [Hub.excStrobe]
@[simp] theorem Hub.scanStrobe_otp (h : Hub) : h.scanStrobe.sto.otp = h.sto.otp := by simp [Hub.scanStrobe]

/-! ### Per-block reset (R556) -/
@[simp] theorem Hub.resetGroup_otp (h : Hub) (g : Nat) : (h.resetGroup g).sto.otp = h.sto.otp := by
  unfold Hub.resetGroup
  dsimp only
  refine Hub.foldl_otp (fun g a => ?_) _ _
  split <;> simp
@[simp] theorem Hub.resetScan_otp (h : Hub) (m : Nat) : (h.resetScan m).sto.otp = h.sto.otp := by simp [Hub.resetScan]
@[simp] theorem Hub.resetTiu_otp (h : Hub) : h.resetTiu.sto.otp = h.sto.otp := by simp [Hub.resetTiu]
@[simp] theorem Hub.blockStrobe_otp (h : Hub) : h.blockStrobe.sto.otp = h.sto.otp := by
  unfold Hub.blockStrobe
  split
  · rfl
  · split <;> simp

/-! ### The strobe -/
@[simp] theorem Hub.strobeBody_otp (h : Hub) : h.strobeBody.sto.otp = h.sto.otp := by simp [Hub.strobeBody]

/-! ### Changes of epoch (R192, R229 to R234, R240, R245) -/
@[simp] theorem Hub.epochTurn_otp (h : Hub) (total epoch : Nat) (origin : Bool) (mark : Hub → Nat → T64 → Hub)
    (hm : ∀ (g : Hub) a b, g.KeepsOtp (mark g a b)) : (h.epochTurn total epoch origin mark).sto.otp = h.sto.otp := by
  unfold Hub.epochTurn
  dsimp only
  have hm (g : Hub) a b : (mark g a b).sto.otp = g.sto.otp := hm g a b
  split <;> simp [hm]
@[simp] theorem Hub.breakAt_otp (h : Hub) (b : PendBreak) : (h.breakAt b).sto.otp = h.sto.otp := by simp [Hub.breakAt]
@[simp] theorem Hub.breaksAt_otp (h : Hub) (l : List PendBreak) : (h.breaksAt l).sto.otp = h.sto.otp := by
  induction l generalizing h with
  | nil => rfl
  | cons b l ih => simp [Hub.breaksAt, ih]
@[simp] theorem Hub.timeSetAt_otp (h : Hub) (q : PendSet) : (h.timeSetAt q).sto.otp = h.sto.otp := by simp [Hub.timeSetAt]
@[simp] theorem Hub.strobeOrTurn_otp (h : Hub) : h.strobeOrTurn.sto.otp = h.sto.otp := by
  unfold Hub.strobeOrTurn
  dsimp only
  split
  · rfl
  · split <;> simp
@[simp] theorem Hub.frameStrobe_otp (h : Hub) : h.frameStrobe.sto.otp = h.sto.otp := by simp [Hub.frameStrobe]

/-! ### The rows -/
@[simp] theorem Hub.strobeIf_otp (h : Hub) (b : Bool) : (h.strobeIf b).sto.otp = h.sto.otp := by simp [Hub.strobeIf]
@[simp] theorem frameStrobeRow_otp (h : Hub) : (frameStrobeRow h).sto.otp = h.sto.otp := by simp [frameStrobeRow]
@[simp] theorem epochBreak_otp (h : Hub) : (epochBreak h).sto.otp = h.sto.otp := by simp [epochBreak]
@[simp] theorem timeSetOrigin_otp (h : Hub) : (timeSetOrigin h).sto.otp = h.sto.otp := by simp [timeSetOrigin]
@[simp] theorem syncApply_otp (h : Hub) : (syncApply h).sto.otp = h.sto.otp := by simp [syncApply]
@[simp] theorem chgRunApply_otp (h : Hub) : (chgRunApply h).sto.otp = h.sto.otp := by simp [chgRunApply]
@[simp] theorem trgArmApply_otp (h : Hub) : (trgArmApply h).sto.otp = h.sto.otp := by simp [trgArmApply]
@[simp] theorem bankFadeComplete_otp (h : Hub) (p : Nat) : (bankFadeComplete p h).sto.otp = h.sto.otp := by simp [bankFadeComplete]
@[simp] theorem bankSwapStart_otp (h : Hub) : (bankSwapStart h).sto.otp = h.sto.otp := by simp [bankSwapStart]
@[simp] theorem chanParamApply_otp (h : Hub) : (chanParamApply h).sto.otp = h.sto.otp := by simp [chanParamApply]
@[simp] theorem chanDescLand_otp (h : Hub) : (chanDescLand h).sto.otp = h.sto.otp := by simp [chanDescLand]
@[simp] theorem perBlockReset_otp (h : Hub) : (perBlockReset h).sto.otp = h.sto.otp := by simp [perBlockReset]
@[simp] theorem excSwitch_otp (h : Hub) (x : Nat) : (excSwitch x h).sto.otp = h.sto.otp := by simp [excSwitch]

/-! ## Functions of Machine/Control.lean -/

/-! ### Clock gates (R525, R526, R532) -/
@[simp] theorem Hub.gateSettle_otp (h : Hub) (n : Nat) (failed : Bool) : (h.gateSettle n failed).sto.otp = h.sto.otp := by
  unfold Hub.gateSettle
  split <;> simp
@[simp] theorem gateQuiesceAccept_otp (h : Hub) (n : Nat) : (gateQuiesceAccept n h).sto.otp = h.sto.otp := by simp [gateQuiesceAccept]
@[simp] theorem gateQuiesceTimeout_otp (h : Hub) (n : Nat) : (gateQuiesceTimeout n h).sto.otp = h.sto.otp := by simp [gateQuiesceTimeout]

/-! ### SYS_ABORT (R490, R498) -/
theorem Hub.abortFe_otp {h t : Hub} {hd : Nat} (e : h.abortFe hd = some t) : t.sto.otp = h.sto.otp := by
  unfold Hub.abortFe at e
  split at e
  · exact absurd e nofun
  · obtain rfl := Option.some.inj e
    simp
theorem Hub.abortCal_otp {h t : Hub} {hd : Nat} (e : h.abortCal hd = some t) : t.sto.otp = h.sto.otp := by
  unfold Hub.abortCal at e
  split at e
  · exact absurd e nofun
  · obtain rfl := Option.some.inj e
    simp
theorem Hub.abortSwap_otp {h t : Hub} {hd : Nat} (e : h.abortSwap hd = some t) : t.sto.otp = h.sto.otp := by
  unfold Hub.abortSwap at e
  split at e
  · exact absurd e nofun
  · obtain rfl := Option.some.inj e
    simp
theorem Hub.abortRef_otp {h t : Hub} {hd : Nat} (e : h.abortRef hd = some t) : t.sto.otp = h.sto.otp := by
  unfold Hub.abortRef at e
  split at e
  · obtain rfl := Option.some.inj e
    simp
  · exact absurd e nofun
theorem Hub.abortLaunch_otp {h t : Hub} {hd : Nat} (e : h.abortLaunch hd = some t) : t.sto.otp = h.sto.otp := by
  unfold Hub.abortLaunch at e
  split at e
  · exact absurd e nofun
  · dsimp only at e
    split at e
    · exact absurd e nofun
    · split at e
      · exact absurd e nofun
      · obtain rfl := Option.some.inj e
        simp
theorem Hub.abortFreq_otp {h t : Hub} {hd : Nat} (e : h.abortFreq hd = some t) : t.sto.otp = h.sto.otp := by
  unfold Hub.abortFreq at e
  split at e
  · obtain rfl := Option.some.inj e
    simp
  · exact absurd e nofun
theorem Hub.abortSave_otp {h t : Hub} {hd : Nat} (e : h.abortSave hd = some t) : t.sto.otp = h.sto.otp := by
  unfold Hub.abortSave at e
  split at e
  · exact absurd e nofun
  · obtain rfl := Option.some.inj e
    simp
theorem Hub.abortCheck_otp {h t : Hub} {hd : Nat} (e : h.abortCheck hd = some t) : t.sto.otp = h.sto.otp := by
  unfold Hub.abortCheck at e
  split at e
  · exact absurd e nofun
  · obtain rfl := Option.some.inj e
    simp
theorem Hub.abortFmc_otp {h t : Hub} {hd : Nat} (e : h.abortFmc hd = some t) : t.sto.otp = h.sto.otp := by
  unfold Hub.abortFmc at e
  split at e
  · obtain rfl := Option.some.inj e
    simp
  · exact absurd e nofun
theorem Hub.abort_otp {h t : Hub} {hd opcode : Nat} (e : h.abort hd opcode = some t) : t.sto.otp = h.sto.otp := by
  unfold Hub.abort at e
  split_ifs at e
  · exact Hub.abortFe_otp e
  · exact Hub.abortCal_otp e
  · exact Hub.abortSwap_otp e
  · exact Hub.abortRef_otp e
  · exact Hub.abortLaunch_otp e
  · exact Hub.abortFreq_otp e
  · exact Hub.abortSave_otp e
  · exact Hub.abortCheck_otp e
  · exact Hub.abortFmc_otp e

/-! ### Supplies and FOLLOW rules -/
@[simp] theorem supplyWarn_otp (h : Hub) (supply : Nat) : (supplyWarn supply h).sto.otp = h.sto.otp := by simp [supplyWarn]
@[simp] theorem followMinExpiry_otp (h : Hub) : (followMinExpiry h).sto.otp = h.sto.otp := by simp [followMinExpiry]

/-! ## Functions of Machine/Restart.lean -/

/-! ### What is accepted lands (R33) -/
@[simp] theorem Hub.stagesRelease_otp (h : Hub) : h.stagesRelease.sto.otp = h.sto.otp := by simp [Hub.stagesRelease]
@[simp] theorem Hub.chainsStop_otp (h : Hub) (f : Nat → Bool) : (h.chainsStop f).sto.otp = h.sto.otp := (rfl)
@[simp] theorem Hub.groupShut_otp (h : Hub) (g : Nat) (shut : Bool) : (h.groupShut g shut).sto.otp = h.sto.otp := by simp [Hub.groupShut]
@[simp] theorem Hub.landStaging_otp (h : Hub) (all : Bool) : (h.landStaging all).sto.otp = h.sto.otp := by simp [Hub.landStaging]
@[simp] theorem Hub.stagingLost_otp (h : Hub) : h.stagingLost.sto.otp = h.sto.otp := by simp [Hub.stagingLost]
@[simp] theorem Hub.rebuild_otp (h : Hub) : h.rebuild.sto.otp = h.sto.otp := by simp [Hub.rebuild]

/-! ### The GAP over an outage (R45, R313) -/
@[simp] theorem Hub.gapOutage_otp (h : Hub) (f : Nat → Bool) (cause unc : Nat) (t : T64) :
    (h.gapOutage f cause unc t).sto.otp = h.sto.otp := by
  unfold Hub.gapOutage
  refine Hub.foldl_otp (fun g a => ?_) _ _
  dsimp only
  split
  · rfl
  · refine (Hub.foldl_otp (fun g a => ?_) _ _).trans ?_
    · rfl
    · simp

/-! ### Datapath warm reset (R539) -/
@[simp] theorem Hub.datapathClear_otp (h : Hub) (all : Bool) : (h.datapathClear all).sto.otp = h.sto.otp := (rfl)
@[simp] theorem Hub.swapsPass_otp (h : Hub) : h.swapsPass.sto.otp = h.sto.otp := by simp [Hub.swapsPass]
@[simp] theorem Hub.datapathStop_otp (h : Hub) : h.datapathStop.sto.otp = h.sto.otp := by simp [Hub.datapathStop]
@[simp] theorem Hub.chainsStart_otp (h : Hub) (f : Nat → Bool) : (h.chainsStart f).sto.otp = h.sto.otp := by simp [Hub.chainsStart]
@[simp] theorem Hub.datapathStart_otp (h : Hub) (f : Nat → Bool) : (h.datapathStart f).sto.otp = h.sto.otp := by simp [Hub.datapathStart]
@[simp] theorem datapathWarmReset_otp (h : Hub) : (datapathWarmReset h).sto.otp = h.sto.otp := by simp [datapathWarmReset]

/-! ### The host link and the control reset (R467, R491, R538) -/
@[simp] theorem Hub.mailboxesTo_otp (h : Hub) (f : Nat → MbState) : (h.mailboxesTo f).sto.otp = h.sto.otp := (rfl)
@[simp] theorem Hub.mailboxesUp_otp (h : Hub) (f : Nat → MbState) : (h.mailboxesUp f).sto.otp = h.sto.otp := (rfl)
@[simp] theorem Hub.hostConsumersOff_otp (h : Hub) : h.hostConsumersOff.sto.otp = h.sto.otp := by simp [Hub.hostConsumersOff]
@[simp] theorem Hub.hostLinkReset_otp (h : Hub) : h.hostLinkReset.sto.otp = h.sto.otp := by simp [Hub.hostLinkReset]
@[simp] theorem Hub.linkRestart_otp (h : Hub) : h.linkRestart.sto.otp = h.sto.otp := by simp [Hub.linkRestart]
@[simp] theorem Hub.controlReset_otp (h : Hub) (cause : Nat) : (h.controlReset cause).sto.otp = h.sto.otp := by simp [Hub.controlReset]
@[simp] theorem Hub.slotSwitch_otp (h : Hub) (b : Bool) (trialS : Option Nat) :
    (h.slotSwitch b trialS).sto.otp = h.sto.otp := by simp [Hub.slotSwitch]
@[simp] theorem Hub.trialRevert_otp (h : Hub) : h.trialRevert.sto.otp = h.sto.otp := by simp [Hub.trialRevert]
@[simp] theorem Hub.controlFault_otp (h : Hub) (ev cause : Nat) :
    (h.controlFault ev cause).sto.otp = h.sto.otp := by simp [Hub.controlFault]
@[simp] theorem lockstepMismatch_otp (h : Hub) : (lockstepMismatch h).sto.otp = h.sto.otp := by simp [lockstepMismatch]
@[simp] theorem watchdogExpiry_otp (h : Hub) : (watchdogExpiry h).sto.otp = h.sto.otp := by simp [watchdogExpiry]
@[simp] theorem controlResetRow_otp (h : Hub) : (controlResetRow h).sto.otp = h.sto.otp := by
  unfold controlResetRow
  split
  · rfl
  · split <;> simp
@[simp] theorem trialRevertRow_otp (h : Hub) : (trialRevertRow h).sto.otp = h.sto.otp := by simp [trialRevertRow]
@[simp] theorem trialSExpiry_otp (h : Hub) : (trialSExpiry h).sto.otp = h.sto.otp := by simp [trialSExpiry]
@[simp] theorem Hub.enterRecovery_otp (h : Hub) : h.enterRecovery.sto.otp = h.sto.otp := (rfl)
@[simp] theorem Hub.writeDeferred_otp (h : Hub) : h.writeDeferred.sto.otp = h.sto.otp := by simp [Hub.writeDeferred]
@[simp] theorem Hub.fwLoad_otp (h : Hub) (c : FwCheck) : (h.fwLoad c).sto.otp = h.sto.otp := by
  unfold Hub.fwLoad
  dsimp only
  split <;> simp
@[simp] theorem firmwareReady_otp (h : Hub) (fastOk okThis okOther : Bool) :
    (firmwareReady fastOk okThis okOther h).sto.otp = h.sto.otp := by simp [firmwareReady]

/-! ### Entry to RETAIN (R546, R547, R555) -/
@[simp] theorem Hub.jobsLost_otp (h : Hub) : h.jobsLost.sto.otp = h.sto.otp := (rfl)
@[simp] theorem pfwWarning_otp (h : Hub) (complete : Bool) : (pfwWarning complete h).sto.otp = h.sto.otp := by simp [pfwWarning]

/-! ## Functions of Machine/Hold.lean -/

/-! ### Entry to STOPPED (R523) -/
@[simp] theorem Hub.laneResume_otp (h : Hub) (n : Nat) : (h.laneResume n).sto.otp = h.sto.otp := (rfl)
@[simp] theorem Hub.lanesDrop_otp (h : Hub) : h.lanesDrop.sto.otp = h.sto.otp := by simp [Hub.lanesDrop]
@[simp] theorem Hub.lanesStart_otp (h : Hub) : h.lanesStart.sto.otp = h.sto.otp := by simp [Hub.lanesStart]
@[simp] theorem Hub.enterStopped_otp (h : Hub) : h.enterStopped.sto.otp = h.sto.otp := by simp [Hub.enterStopped]

/-! ### Holds (R521) -/
@[simp] theorem rootPllUnlock_otp (h : Hub) : (rootPllUnlock h).sto.otp = h.sto.otp := by simp [rootPllUnlock]
@[simp] theorem Hub.missHeld_otp (h : Hub) (old new unc : Nat) : (h.missHeld old new unc).sto.otp = h.sto.otp := by
  unfold Hub.missHeld
  refine Hub.foldl_otp (fun g a => ?_) _ _
  dsimp only
  split
  · split
    · rfl
    · split
      · rfl
      · split <;> rfl
  · rfl
@[simp] theorem Hub.noteHold_otp (h : Hub) (d : Nat) : (h.noteHold d).sto.otp = h.sto.otp := by
  unfold Hub.noteHold
  rfl
@[simp] theorem Hub.gateOpen_otp (h : Hub) : h.gateOpen.sto.otp = h.sto.otp := by simp [Hub.gateOpen]
@[simp] theorem holdTimeoutStop_otp (h : Hub) : (holdTimeoutStop h).sto.otp = h.sto.otp := by simp [holdTimeoutStop]
@[simp] theorem stoppedRelockAttempt_otp (h : Hub) : (stoppedRelockAttempt h).sto.otp = h.sto.otp := by simp [stoppedRelockAttempt]

/-! ### The restart after an outage (R45, R232) -/
@[simp] theorem Hub.outageDone_otp (h : Hub) (ts : Nat) : (h.outageDone ts).sto.otp = h.sto.otp := by simp [Hub.outageDone]
@[simp] theorem Hub.outageMarks_otp (h : Hub) (n : Nat) (step : T64) : (h.outageMarks n step).sto.otp = h.sto.otp := (rfl)
@[simp] theorem Hub.outageRestart_otp (h : Hub) (cause unc : Nat) (src : Option SrcReading) (out extra : Nat) (lost : Bool) :
    (h.outageRestart cause unc src out extra lost).sto.otp = h.sto.otp := by simp [Hub.outageRestart]
@[simp] theorem Hub.autostartGroups_otp (h : Hub) : h.autostartGroups.sto.otp = h.sto.otp := by simp [Hub.autostartGroups]
@[simp] theorem Hub.bootOrigin_otp (h : Hub) : h.bootOrigin.sto.otp = h.sto.otp := by simp [Hub.bootOrigin]
@[simp] theorem stoppedRecovery_otp (h : Hub) (src : Option SrcReading) :
    (stoppedRecovery src h).sto.otp = h.sto.otp := by simp [stoppedRecovery]

/-! ### Source monitors (R516 to R518) -/
@[simp] theorem Hub.forceHost_otp (h : Hub) (d : Nat) : (h.forceHost d).sto.otp = h.sto.otp := by simp [Hub.forceHost]
@[simp] theorem Hub.srcFail_otp (h : Hub) (s : Nat) : (h.srcFail s).sto.otp = h.sto.otp := by
  unfold Hub.srcFail
  dsimp only
  split
  · split <;> simp
  · simp
@[simp] theorem Hub.srcOkNow_otp (h : Hub) (s : Nat) : (h.srcOkNow s).sto.otp = h.sto.otp := by simp [Hub.srcOkNow]
@[simp] theorem clkMonWindow_otp (h : Hub) (s count : Nat) : (clkMonWindow s count h).sto.otp = h.sto.otp := by simp [clkMonWindow]
@[simp] theorem clkStopDetect_otp (h : Hub) (s : Nat) : (clkStopDetect s h).sto.otp = h.sto.otp := by simp [clkStopDetect]
@[simp] theorem oscDelayExpiry_otp (h : Hub) : (oscDelayExpiry h).sto.otp = h.sto.otp := (rfl)
@[simp] theorem xoStartTimeout_otp (h : Hub) : (xoStartTimeout h).sto.otp = h.sto.otp := by simp [xoStartTimeout]
@[simp] theorem rootPllLock_otp (h : Hub) : (rootPllLock h).sto.otp = h.sto.otp := by simp [rootPllLock]
@[simp] theorem muxForcedSwitch_otp (h : Hub) (host : Bool) : (muxForcedSwitch host h).sto.otp = h.sto.otp := by simp [muxForcedSwitch]

end Sys2Proof.Machine

/-! PROOFS. What leaves OTP as it is: boot, registers and time (O19). -/
namespace Sys2Proof.Machine

/-! ## Functions of Machine/Boot.lean -/

/-! ### Resets (R537) -/
@[simp] theorem powerOnReset_otp (h : Hub) : (powerOnReset h).sto.otp = h.sto.otp := (rfl)
@[simp] theorem Hub.actReset_otp (h : Hub) : h.actReset.sto.otp = h.sto.otp := by simp [Hub.actReset]
@[simp] theorem resetNAssert_otp (h : Hub) : (resetNAssert h).sto.otp = h.sto.otp := by simp [resetNAssert]

/-! ### Cold boot (R540) -/
@[simp] theorem Hub.bootClocks_otp (h : Hub) (b : BootIn) : (h.bootClocks b).sto.otp = h.sto.otp := by simp [Hub.bootClocks]
@[simp] theorem Hub.restoreSaved_otp (h : Hub) : h.restoreSaved.sto.otp = h.sto.otp := by
  unfold Hub.restoreSaved
  split <;> rfl
@[simp] theorem Hub.bootSave_otp (h : Hub) (s : Saved) (fails : Nat) : (h.bootSave s fails).sto.otp = h.sto.otp := by simp [Hub.bootSave]
@[simp] theorem Hub.bootTickets_otp (h : Hub) (fails : Nat) : (h.bootTickets fails).sto.otp = h.sto.otp := by simp [Hub.bootTickets]
@[simp] theorem Hub.reportLost_otp (h : Hub) (saved : Option Saved) : (h.reportLost saved).sto.otp = h.sto.otp := by
  unfold Hub.reportLost
  dsimp only
  split
  · simp
  · refine (Hub.foldl_otp (fun g a => ?_) _ _).trans ?_
    · simp
    · split <;> simp
@[simp] theorem Hub.checkPages_otp (h : Hub) (bad : List Nat) : (h.checkPages bad).sto.otp = h.sto.otp := by simp [Hub.checkPages]
@[simp] theorem Hub.episodesLand_otp (h : Hub) : h.episodesLand.sto.otp = h.sto.otp := by simp [Hub.episodesLand]
@[simp] theorem Hub.bootJournal_otp (h : Hub) (b : BootIn) : (h.bootJournal b).sto.otp = h.sto.otp := by simp [Hub.bootJournal]
@[simp] theorem Hub.bootFirmware_otp (h : Hub) (b : BootIn) : (h.bootFirmware b).sto.otp = h.sto.otp := by
  unfold Hub.bootFirmware
  dsimp only
  split <;> simp
@[simp] theorem coldBoot_otp (h : Hub) (b : BootIn) : (coldBoot b h).sto.otp = h.sto.otp := by simp [coldBoot]
@[simp] theorem Hub.portsStart_otp (h : Hub) (snap : Bool) : (h.portsStart snap).sto.otp = h.sto.otp := by
  unfold Hub.portsStart
  dsimp only
  refine Hub.foldl_otp (fun g a => ?_) _ _
  split
  · rfl
  · split
    · split <;> simp
    · simp
@[simp] theorem bootComplete_otp (h : Hub) (arbSel : Bool) : (bootComplete arbSel h).sto.otp = h.sto.otp := by simp [bootComplete]

/-! ### Resume from RETAIN (R549) -/
@[simp] theorem Hub.handlesLost_otp (h : Hub) : h.handlesLost.sto.otp = h.sto.otp := (rfl)
@[simp] theorem Hub.recordsClose_otp (h : Hub) : h.recordsClose.sto.otp = h.sto.otp := by simp [Hub.recordsClose]
@[simp] theorem Hub.portsDrop_otp (h : Hub) : h.portsDrop.sto.otp = h.sto.otp := (rfl)
@[simp] theorem retainResume_otp (h : Hub) (b : ResumeIn) : (retainResume b h).sto.otp = h.sto.otp := by simp [retainResume]

/-! ## Functions of Machine/Regs.lean -/

/-! ### Reads -/
@[simp] theorem Hub.hostRead_otp (h : Hub) (a : Nat) : (h.hostRead a).2.sto.otp = h.sto.otp := by
  unfold Hub.hostRead
  dsimp only
  split <;> rfl

/-! ### Writes -/
@[simp] theorem Hub.resetCtrl_otp (h : Hub) (w : Word) : (h.resetCtrl w).sto.otp = h.sto.otp := by simp [Hub.resetCtrl]
@[simp] theorem Hub.msixWrite_otp (h : Hub) (v i : Nat) (w : Word) : (h.msixWrite v i w).sto.otp = h.sto.otp := by simp [Hub.msixWrite]
@[simp] theorem Hub.writeSys_otp (h : Hub) (o : Nat) (w : Word) : (h.writeSys o w).sto.otp = h.sto.otp := by simp [Hub.writeSys]
@[simp] theorem Hub.writeClks_otp (h : Hub) (o : Nat) (w : Word) : (h.writeClks o w).sto.otp = h.sto.otp := by simp [Hub.writeClks]
@[simp] theorem Hub.writeEnable_otp (h : Hub) (b : Nat) (w : Word) : (h.writeEnable b w).sto.otp = h.sto.otp := by simp [Hub.writeEnable]
@[simp] theorem Hub.writeRoute_otp (h : Hub) (e : Nat) (w : Word) : (h.writeRoute e w).sto.otp = h.sto.otp := by simp [Hub.writeRoute]
@[simp] theorem Hub.writeEvt_otp (h : Hub) (o : Nat) (w : Word) : (h.writeEvt o w).sto.otp = h.sto.otp := by simp [Hub.writeEvt]
@[simp] theorem Hub.writeCmp_otp (h : Hub) (n i : Nat) (w : Word) : (h.writeCmp n i w).sto.otp = h.sto.otp := (rfl)
@[simp] theorem Hub.writeTime_otp (h : Hub) (o : Nat) (w : Word) : (h.writeTime o w).sto.otp = h.sto.otp := by simp [Hub.writeTime]
@[simp] theorem Hub.pendingNow_otp (h : Hub) (m : Nat) : (h.pendingNow m).sto.otp = h.sto.otp := by
  unfold Hub.pendingNow
  split
  · rfl
  · split <;> simp
@[simp] theorem Hub.doorbell_otp (h : Hub) (m : Nat) : (h.doorbell m).sto.otp = h.sto.otp := by simp [Hub.doorbell]
@[simp] theorem Hub.releaseMb_otp (h : Hub) (m : Nat) : (h.releaseMb m).sto.otp = h.sto.otp := by simp [Hub.releaseMb]
@[simp] theorem Hub.cmdWrite_otp (h : Hub) (m i : Nat) (w : Word) : (h.cmdWrite m i w).sto.otp = h.sto.otp := by simp [Hub.cmdWrite]
@[simp] theorem Hub.writeMbx_otp (h : Hub) (o : Nat) (w : Word) : (h.writeMbx o w).sto.otp = h.sto.otp := by simp [Hub.writeMbx]
@[simp] theorem Hub.cqRdWrite_otp (h : Hub) (w : Word) : (h.cqRdWrite w).sto.otp = h.sto.otp := by simp [Hub.cqRdWrite]
@[simp] theorem Hub.writeCq_otp (h : Hub) (o : Nat) (w : Word) : (h.writeCq o w).sto.otp = h.sto.otp := by simp [Hub.writeCq]
@[simp] theorem Hub.writeFerry_otp (h : Hub) (o : Nat) (w : Word) : (h.writeFerry o w).sto.otp = h.sto.otp := by simp [Hub.writeFerry]
@[simp] theorem Hub.writeLive_otp (h : Hub) (o : Nat) (w : Word) : (h.writeLive o w).sto.otp = h.sto.otp := by simp [Hub.writeLive]
@[simp] theorem Hub.regWrite_otp (h : Hub) (a : Nat) (w : Word) : (h.regWrite a w).sto.otp = h.sto.otp := by simp [Hub.regWrite]
@[simp] theorem Hub.hostWrite_otp (h : Hub) (a : Nat) (w : Word) : (h.hostWrite a w).sto.otp = h.sto.otp := by simp [Hub.hostWrite]
@[simp] theorem rootGateOpen_otp (h : Hub) : (rootGateOpen h).sto.otp = h.sto.otp := by simp [rootGateOpen]

/-! ### Quad-SPI frames (R469, R470) -/
@[simp] theorem Hub.spiFault_otp (h : Hub) (b : Bool) (i : Nat) : (h.spiFault b i).sto.otp = h.sto.otp := by simp [Hub.spiFault]
@[simp] theorem Hub.spiCommit_otp (h : Hub) (a : Nat) (l : List Word) : (h.spiCommit a l).sto.otp = h.sto.otp := by
  induction l generalizing h a with
  | nil => rfl
  | cons w l ih => simp [Hub.spiCommit, ih]
@[simp] theorem Hub.spiFetch_otp (h : Hub) (a n : Nat) (acc : List Word) : (h.spiFetch a n acc).2.sto.otp = h.sto.otp := by
  induction n generalizing h a acc with
  | zero => rfl
  | succ n ih => simp [Hub.spiFetch, ih]
@[simp] theorem spiWriteFrame_otp (h : Hub) (a : Nat) (ws : List Word) (part : Bool) :
    (spiWriteFrame a ws part h).sto.otp = h.sto.otp := by simp [spiWriteFrame]
@[simp] theorem spiWriteCrcFrame_otp (h : Hub) (a : Nat) (ws : List Word) (crc : Word) (part : Bool) :
    (spiWriteCrcFrame a ws crc part h).sto.otp = h.sto.otp := by simp [spiWriteCrcFrame]
@[simp] theorem spiReadFrame_otp (h : Hub) (a n : Nat) (crc part : Bool) :
    (spiReadFrame a n crc part h).sto.otp = h.sto.otp := by simp [spiReadFrame]

/-! ### Rows of the host interface -/
@[simp] theorem mbCmdWrite_otp (h : Hub) (m i : Nat) (w : Word) : (mbCmdWrite m i w h).sto.otp = h.sto.otp := by simp [mbCmdWrite]
@[simp] theorem mbDoorbellRing_otp (h : Hub) (m : Nat) : (mbDoorbellRing m h).sto.otp = h.sto.otp := by simp [mbDoorbellRing]
@[simp] theorem mbRelease_otp (h : Hub) (m : Nat) : (mbRelease m h).sto.otp = h.sto.otp := by simp [mbRelease]
@[simp] theorem cqRdWrite_otp (h : Hub) (w : Word) : (cqRdWrite w h).sto.otp = h.sto.otp := by simp [cqRdWrite]
@[simp] theorem resetCtrlControl_otp (h : Hub) : (resetCtrlControl h).sto.otp = h.sto.otp := by simp [resetCtrlControl]
@[simp] theorem resetCtrlDatapath_otp (h : Hub) : (resetCtrlDatapath h).sto.otp = h.sto.otp := by simp [resetCtrlDatapath]
@[simp] theorem snapWrite_otp (h : Hub) : (snapWrite h).sto.otp = h.sto.otp := by simp [snapWrite]
@[simp] theorem cmpCtrlHost_otp (h : Hub) (n : Nat) (w : Word) : (cmpCtrlHost n w h).sto.otp = h.sto.otp := by simp [cmpCtrlHost]
@[simp] theorem evtEnableWrite_otp (h : Hub) (b : Nat) (w : Word) : (evtEnableWrite b w h).sto.otp = h.sto.otp := by simp [evtEnableWrite]
@[simp] theorem ferryAckWrite_otp (h : Hub) (c o : Nat) (lo hi : Word) :
    (ferryAckWrite c o lo hi h).sto.otp = h.sto.otp := by simp [ferryAckWrite]
@[simp] theorem ferryCtrlWrite_otp (h : Hub) (c : Nat) (w : Word) : (ferryCtrlWrite c w h).sto.otp = h.sto.otp := by simp [ferryCtrlWrite]
@[simp] theorem ferryTailWrite_otp (h : Hub) (c : Nat) (w : Word) (descs : List (Nat × Nat)) :
    (ferryTailWrite c w descs h).sto.otp = h.sto.otp := by simp [ferryTailWrite]
@[simp] theorem lqFlushWrite_otp (h : Hub) (q : Nat) : (lqFlushWrite q h).sto.otp = h.sto.otp := by simp [lqFlushWrite]
@[simp] theorem msixUnmask_otp (h : Hub) (v : Nat) : (msixUnmask v h).sto.otp = h.sto.otp := by simp [msixUnmask]
@[simp] theorem Hub.busRead_otp (h : Hub) (a n : Nat) : (h.busRead a n).sto.otp = h.sto.otp := by simp [Hub.busRead]
@[simp] theorem Hub.busWrite_otp (h : Hub) (a : Nat) (bytes : List (Option Byte)) : (h.busWrite a bytes).sto.otp = h.sto.otp := by
  unfold Hub.busWrite
  refine Hub.foldl_otp (fun g a => ?_) _ _
  split <;> simp
@[simp] theorem lqLostRead_otp (h : Hub) (r : BusRead) : (lqLostRead r h).sto.otp = h.sto.otp := by simp [lqLostRead]
@[simp] theorem registerWrite_otp (h : Hub) (a : Nat) (bytes : List (Option Byte)) :
    (registerWrite a bytes h).sto.otp = h.sto.otp := by simp [registerWrite]
@[simp] theorem hostLinkRestart_otp (h : Hub) (c : LinkCause) : (hostLinkRestart c h).sto.otp = h.sto.otp := by simp [hostLinkRestart]
@[simp] theorem pcieReady_otp (h : Hub) : (pcieReady h).sto.otp = h.sto.otp := by simp [pcieReady]
@[simp] theorem pcieConfigurationWrite_otp (h : Hub) (bme d0 : Bool) :
    (pcieConfigurationWrite bme d0 h).sto.otp = h.sto.otp := by simp [pcieConfigurationWrite]

/-! ## Functions of Machine/Rows.lean -/

@[simp] theorem Hub.tick_otp (h : Hub) : h.tick.sto.otp = h.sto.otp := by simp [Hub.tick]

end Sys2Proof.Machine

/-! PROOFS. Commands leave OTP as it is, and so does the mailbox that runs them (O19). -/
namespace Sys2Proof.Machine

/-- What the command does leaves OTP as it was. -/
def CmdSpec.KeepsOtp (c : CmdSpec) : Prop := ∀ (h : Hub) x, h.KeepsOtp (c.run h x).hub

@[simp] theorem CmdRes.ite_hub (c : Prop) [Decidable c] (a b : CmdRes) :
    (if c then a else b).hub = if c then a.hub else b.hub := apply_ite CmdRes.hub _ _ _

@[simp] theorem clkStatus_keepsOtp : clkStatus.KeepsOtp := fun h x => by simp [clkStatus]
@[simp] theorem clkFmc_keepsOtp : clkFmc.KeepsOtp := fun h x => by simp [clkFmc]
@[simp] theorem clkMonSet_keepsOtp : clkMonSet.KeepsOtp := fun h x => by simp [clkMonSet]
@[simp] theorem timeSrcSet_keepsOtp : timeSrcSet.KeepsOtp := fun h x => by simp [timeSrcSet]
@[simp] theorem timeRefSet_keepsOtp : timeRefSet.KeepsOtp := fun h x => by simp [timeRefSet]
@[simp] theorem timeSet_keepsOtp : timeSet.KeepsOtp := fun h x => by simp [timeSet]
@[simp] theorem timePpsOutSet_keepsOtp : timePpsOutSet.KeepsOtp := fun h x => by simp [timePpsOutSet]
@[simp] theorem timeStatusRead_keepsOtp : timeStatusRead.KeepsOtp := fun h x => by simp [timeStatusRead]
@[simp] theorem sysNop_keepsOtp : sysNop.KeepsOtp := fun h x => by simp [sysNop]
@[simp] theorem sysInfo_keepsOtp : sysInfo.KeepsOtp := fun h x => by simp [sysInfo]
@[simp] theorem sysHandleQuery_keepsOtp : sysHandleQuery.KeepsOtp := fun h x => by simp [sysHandleQuery]
@[simp] theorem sysReset_keepsOtp : sysReset.KeepsOtp := fun h x => by simp [sysReset]
@[simp] theorem sysStateSave_keepsOtp : sysStateSave.KeepsOtp := fun h x => by simp [sysStateSave]
@[simp] theorem logMark_keepsOtp : logMark.KeepsOtp := fun h x => by simp [logMark]
@[simp] theorem secStatus_keepsOtp : secStatus.KeepsOtp := fun h x => by simp [secStatus]
@[simp] theorem secJtagChallenge_keepsOtp : secJtagChallenge.KeepsOtp := fun h x => by simp [secJtagChallenge]
@[simp] theorem secJtagUnlock_keepsOtp : secJtagUnlock.KeepsOtp := fun h x => by simp [secJtagUnlock]
@[simp] theorem secOtpProgram_keepsOtp : secOtpProgram.KeepsOtp := fun h x => by simp [secOtpProgram]
@[simp] theorem fwWrite_keepsOtp : fwWrite.KeepsOtp := fun h x => by simp [fwWrite]
@[simp] theorem fwVerify_keepsOtp : fwVerify.KeepsOtp := fun h x => by simp [fwVerify]
@[simp] theorem fwSwitch_keepsOtp : fwSwitch.KeepsOtp := fun h x => by simp [fwSwitch]
@[simp] theorem flashStatus_keepsOtp : flashStatus.KeepsOtp := fun h x => by simp [flashStatus]
@[simp] theorem dramRetiredRead_keepsOtp : dramRetiredRead.KeepsOtp := fun h x => by simp [dramRetiredRead]
@[simp] theorem selftest_keepsOtp : selftest.KeepsOtp := fun h x => by simp [selftest]
@[simp] theorem actRuleSet_keepsOtp : actRuleSet.KeepsOtp := fun h x => by simp [actRuleSet]
@[simp] theorem actPinSet_keepsOtp : actPinSet.KeepsOtp := fun h x => by simp [actPinSet]
@[simp] theorem actArm_keepsOtp : actArm.KeepsOtp := fun h x => by simp [actArm]
@[simp] theorem actClear_keepsOtp : actClear.KeepsOtp := fun h x => by simp [actClear]
@[simp] theorem actStatus_keepsOtp : actStatus.KeepsOtp := fun h x => by simp [actStatus]
@[simp] theorem actFailsafeProgram_keepsOtp : actFailsafeProgram.KeepsOtp := fun h x => by simp [actFailsafeProgram]
@[simp] theorem fltProfileSet_keepsOtp : fltProfileSet.KeepsOtp := fun h x => by simp [fltProfileSet]
@[simp] theorem fltCoefWrite_keepsOtp : fltCoefWrite.KeepsOtp := fun h x => by simp [fltCoefWrite]
@[simp] theorem fltCoefCommit_keepsOtp : fltCoefCommit.KeepsOtp := fun h x => by simp [fltCoefCommit]
@[simp] theorem fltBankSwap_keepsOtp : fltBankSwap.KeepsOtp := fun h x => by
  dsimp only [fltBankSwap]
  split
  · simp
  · split
    · simp
    · split <;> simp
@[simp] theorem fltChanSet_keepsOtp : fltChanSet.KeepsOtp := fun h x => by simp [fltChanSet]
@[simp] theorem fltSync_keepsOtp : fltSync.KeepsOtp := fun h x => by simp [fltSync]
@[simp] theorem fltDelayRead_keepsOtp : fltDelayRead.KeepsOtp := fun h x => by
  dsimp only [fltDelayRead]
  split <;> simp
@[simp] theorem feFastSet_keepsOtp : feFastSet.KeepsOtp := fun h x => by simp [feFastSet]
@[simp] theorem feScanSet_keepsOtp : feScanSet.KeepsOtp := fun h x => by simp [feScanSet]
@[simp] theorem feExcSet_keepsOtp : feExcSet.KeepsOtp := fun h x => by simp [feExcSet]
@[simp] theorem feLinWrite_keepsOtp : feLinWrite.KeepsOtp := fun h x => by simp [feLinWrite]
@[simp] theorem feLinCommit_keepsOtp : feLinCommit.KeepsOtp := fun h x => by simp [feLinCommit]
@[simp] theorem feLinRead_keepsOtp : feLinRead.KeepsOtp := fun h x => by simp [feLinRead]
@[simp] theorem feFaultStatus_keepsOtp : feFaultStatus.KeepsOtp := fun h x => by simp [feFaultStatus]
@[simp] theorem feFaultDetail_keepsOtp : feFaultDetail.KeepsOtp := fun h x => by simp [feFaultDetail]
@[simp] theorem chgSet_keepsOtp : chgSet.KeepsOtp := fun h x => by simp [chgSet]
@[simp] theorem chgRun_keepsOtp : chgRun.KeepsOtp := fun h x => by simp [chgRun]
@[simp] theorem journalSet_keepsOtp : journalSet.KeepsOtp := fun h x => by simp [journalSet]
@[simp] theorem journalStatus_keepsOtp : journalStatus.KeepsOtp := fun h x => by simp [journalStatus]
@[simp] theorem ferryKeySet_keepsOtp : ferryKeySet.KeepsOtp := fun h x => by simp [ferryKeySet]
@[simp] theorem liveSet_keepsOtp : liveSet.KeepsOtp := fun h x => by simp [liveSet]
@[simp] theorem chanDescSet_keepsOtp : chanDescSet.KeepsOtp := fun h x => by simp [chanDescSet]
@[simp] theorem codecSet_keepsOtp : codecSet.KeepsOtp := fun h x => by simp [codecSet]
@[simp] theorem codecChanSet_keepsOtp : codecChanSet.KeepsOtp := fun h x => by simp [codecChanSet]
@[simp] theorem codecStatus_keepsOtp : codecStatus.KeepsOtp := fun h x => by simp [codecStatus]
@[simp] theorem codecStateSave_keepsOtp : codecStateSave.KeepsOtp := fun h x => by simp [codecStateSave]
@[simp] theorem codecStateRead_keepsOtp : codecStateRead.KeepsOtp := fun h x => by simp [codecStateRead]
@[simp] theorem codecStateWrite_keepsOtp : codecStateWrite.KeepsOtp := fun h x => by simp [codecStateWrite]
@[simp] theorem codecCheck_keepsOtp : codecCheck.KeepsOtp := fun h x => by simp [codecCheck]
@[simp] theorem trgArm_keepsOtp : trgArm.KeepsOtp := fun h x => by simp [trgArm]
@[simp] theorem trgUnitSet_keepsOtp : trgUnitSet.KeepsOtp := fun h x => by simp [trgUnitSet]
@[simp] theorem trgQualSet_keepsOtp : trgQualSet.KeepsOtp := fun h x => by simp [trgQualSet]
@[simp] theorem capGroupSet_keepsOtp : capGroupSet.KeepsOtp := fun h x => by simp [capGroupSet]
@[simp] theorem trgSoft_keepsOtp : trgSoft.KeepsOtp := fun h x => by simp [trgSoft]
@[simp] theorem trgStatus_keepsOtp : trgStatus.KeepsOtp := fun h x => by simp [trgStatus]
@[simp] theorem trgIoSet_keepsOtp : trgIoSet.KeepsOtp := fun h x => by simp [trgIoSet]
@[simp] theorem slLaneSet_keepsOtp : slLaneSet.KeepsOtp := fun h x => by simp [slLaneSet]
@[simp] theorem slSlotSet_keepsOtp : slSlotSet.KeepsOtp := fun h x => by simp [slSlotSet]
@[simp] theorem slKeySet_keepsOtp : slKeySet.KeepsOtp := fun h x => by simp [slKeySet]
@[simp] theorem slReset_keepsOtp : slReset.KeepsOtp := fun h x => by simp [slReset]
@[simp] theorem slQuarRelease_keepsOtp : slQuarRelease.KeepsOtp := fun h x => by simp [slQuarRelease]
@[simp] theorem slStatus_keepsOtp : slStatus.KeepsOtp := fun h x => by simp [slStatus]
@[simp] theorem calRefSet_keepsOtp : calRefSet.KeepsOtp := fun h x => by simp [calRefSet]
@[simp] theorem calPolicySet_keepsOtp : calPolicySet.KeepsOtp := fun h x => by simp [calPolicySet]
@[simp] theorem calRun_keepsOtp : calRun.KeepsOtp := fun h x => by simp [calRun]
@[simp] theorem calResultRead_keepsOtp : calResultRead.KeepsOtp := fun h x => by
  dsimp only [calResultRead]
  split <;> simp
@[simp] theorem tiuInputSet_keepsOtp : tiuInputSet.KeepsOtp := fun h x => by simp [tiuInputSet]
@[simp] theorem tiuIntervalSet_keepsOtp : tiuIntervalSet.KeepsOtp := fun h x => by simp [tiuIntervalSet]
@[simp] theorem tiuFreq_keepsOtp : tiuFreq.KeepsOtp := fun h x => by simp [tiuFreq]
@[simp] theorem tiuRead_keepsOtp : tiuRead.KeepsOtp := fun h x => by simp [tiuRead]
@[simp] theorem tiuStatus_keepsOtp : tiuStatus.KeepsOtp := fun h x => by simp [tiuStatus]
@[simp] theorem tiuCalSet_keepsOtp : tiuCalSet.KeepsOtp := fun h x => by simp [tiuCalSet]
@[simp] theorem netPtpSet_keepsOtp : netPtpSet.KeepsOtp := fun h x => by simp [netPtpSet]
@[simp] theorem netPortCompSet_keepsOtp : netPortCompSet.KeepsOtp := fun h x => by simp [netPortCompSet]
@[simp] theorem netRrConfirm_keepsOtp : netRrConfirm.KeepsOtp := fun h x => by simp [netRrConfirm]
@[simp] theorem netAuthKeySet_keepsOtp : netAuthKeySet.KeepsOtp := fun h x => by simp [netAuthKeySet]
@[simp] theorem netPtpStatus_keepsOtp : netPtpStatus.KeepsOtp := fun h x => by simp [netPtpStatus]
@[simp] theorem netQuarRelease_keepsOtp : netQuarRelease.KeepsOtp := fun h x => by simp [netQuarRelease]
@[simp] theorem netFrameWrite_keepsOtp : netFrameWrite.KeepsOtp := fun h x => by simp [netFrameWrite]
@[simp] theorem netFrameSend_keepsOtp : netFrameSend.KeepsOtp := fun h x => by simp [netFrameSend]
@[simp] theorem netLaunch_keepsOtp : netLaunch.KeepsOtp := fun h x => by
  dsimp only [netLaunch]
  split <;> simp
@[simp] theorem netTxtsRead_keepsOtp : netTxtsRead.KeepsOtp := fun h x => by simp [netTxtsRead]
@[simp] theorem netPortSet_keepsOtp : netPortSet.KeepsOtp := fun h x => by simp [netPortSet]
@[simp] theorem netPathSet_keepsOtp : netPathSet.KeepsOtp := fun h x => by simp [netPathSet]
@[simp] theorem netAddrSet_keepsOtp : netAddrSet.KeepsOtp := fun h x => by simp [netAddrSet]
@[simp] theorem netVerdict_keepsOtp : netVerdict.KeepsOtp := fun h x => by simp [netVerdict]
@[simp] theorem netPathStatus_keepsOtp : netPathStatus.KeepsOtp := fun h x => by simp [netPathStatus]
@[simp] theorem cascSet_keepsOtp : cascSet.KeepsOtp := fun h x => by simp [cascSet]
@[simp] theorem cascPortSet_keepsOtp : cascPortSet.KeepsOtp := fun h x => by simp [cascPortSet]
@[simp] theorem cascLinkReset_keepsOtp : cascLinkReset.KeepsOtp := fun h x => by simp [cascLinkReset]
@[simp] theorem cascQuarRelease_keepsOtp : cascQuarRelease.KeepsOtp := fun h x => by simp [cascQuarRelease]
@[simp] theorem cascStatus_keepsOtp : cascStatus.KeepsOtp := fun h x => by simp [cascStatus]
@[simp] theorem consumerSet_keepsOtp : consumerSet.KeepsOtp := fun h x => by simp [consumerSet]
@[simp] theorem clkGateSet_keepsOtp : clkGateSet.KeepsOtp := fun h x => by simp [clkGateSet]
@[simp] theorem sysAbort_keepsOtp : sysAbort.KeepsOtp := fun h x => by
  dsimp only [sysAbort]
  split
  · rfl
  · next y _ =>
    cases e : h.abort (fld (pw x.pl 0) 15 0) y.opcode with
    | none => rfl
    | some g => exact Hub.abort_otp e

theorem cmdIndex_keepsOtp : ∀ c ∈ cmdIndex, c.KeepsOtp := by
  unfold cmdIndex
  simp only [sysCmds, logCmds, clkCmds, feCmds, calCmds, fltCmds, trgCmds, capCmds, actCmds, timeCmds, netCmds, tiuCmds, chgCmds,
    consumerCmds, journalCmds, ferryCmds, liveCmds, chanCmds, codecCmds, slCmds, cascCmds, secCmds, fwCmds, flashCmds, dramCmds,
    selftestCmds, List.mem_append, List.mem_cons, List.not_mem_nil, or_false, or_imp, forall_and, forall_eq]
  simp

theorem cmdOf_keepsOtp {op : Nat} {c : CmdSpec} (e : cmdOf op = some c) : c.KeepsOtp :=
  cmdIndex_keepsOtp c (List.mem_of_find?_eq_some e)

theorem Hub.perform_otp {sp : Option CmdSpec} (hsp : ∀ c, sp = some c → c.KeepsOtp) (h : Hub) (m : Nat) (w0 w1 w2 w3 : Word)
    (pl : List Word) : (h.perform sp m w0 w1 w2 w3 pl).sto.otp = h.sto.otp := by
  unfold Hub.perform
  dsimp only
  split
  · simp
  · rfl
  · next c _ =>
    have hc (g : Hub) (x : CmdIn) : (c.run g x).hub.sto.otp = g.sto.otp := hsp c rfl g x
    split
    · simp [hc]
    · split <;> simp [hc]

theorem Hub.mail_otp {c : CmdSpec} (hc : c.KeepsOtp) (h : Hub) (m : Nat) (tag : Word) (pl : List Word) :
    (h.mail c m tag pl).sto.otp = h.sto.otp := by
  have performed (g : Hub) (w0 w2 w3 : Word) : (g.perform (some c) m w0 tag w2 w3 pl).sto.otp = g.sto.otp :=
    Hub.perform_otp (fun _ e => Option.some.inj e ▸ hc) ..
  simp [Hub.mail, performed]

@[simp] theorem mbCommandTake_otp (h : Hub) : (mbCommandTake h).sto.otp = h.sto.otp := by
  unfold mbCommandTake
  split
  · dsimp only
    split
    · exact (Hub.openUsed_sto _ ▸ Hub.perform_otp (fun _ => cmdOf_keepsOtp) ..)
    · rfl
  · rfl

end Sys2Proof.Machine

/-! PROOFS. Only OTP_PROGRAM_DONE writes OTP, and it unprograms nothing (O19). -/
namespace Sys2Proof.Machine

/-- Nothing that is programmed in the first is unprogrammed in the second. -/
structure Otp.Grows (o p : Otp) : Prop where
  keyHash0 : o.keyHash0.isSome = true → p.keyHash0.isSome = true
  keyHash1 : o.keyHash1.isSome = true → p.keyHash1.isSome = true
  jtagKey : o.jtagKey.isSome = true → p.jtagKey.isSome = true
  subsys : o.subsys.isSome = true → p.subsys.isSome = true
  revoked0 : o.revoked0 = true → p.revoked0 = true

@[simp] theorem Otp.grows_self (o : Otp) : o.Grows o := ⟨id, id, id, id, id⟩

@[simp] theorem Otp.grows_rollback (o : Otp) (n : Nat) : o.Grows { o with rollback := n } := ⟨id, id, id, id, id⟩

@[simp] theorem Otp.grows_actCodes (o : Otp) (w : Word) : o.Grows { o with actCodes := w } := ⟨id, id, id, id, id⟩

/-- Programming a field writes that field alone, and writes it as programmed. -/
@[simp] theorem Otp.grows_program (o : Otp) (f : Nat) (d : List Word) : o.Grows (o.program f d) := by
  unfold Otp.program
  split_ifs <;> constructor <;> simp

theorem Hub.KeepsOtp.grows {h g : Hub} (k : h.KeepsOtp g) : h.sto.otp.Grows g.sto.otp := by
  rw [Hub.keepsOtp_iff] at k
  simp [k]

/-- The one row that writes OTP: a field programs; the fail-safe codes and the rollback counter are other fields. -/
theorem otpProgramDone_grows (ok : Bool) (h : Hub) : h.sto.otp.Grows (otpProgramDone ok h).sto.otp := by
  unfold otpProgramDone
  dsimp only
  split
  case h_1 => simp
  case h_2 =>
    split
    · simp
    · split <;> simp
  case h_3 mb _ _ _ =>
    cases mb with
    | none => cases ok <;> simp
    | some m => cases ok <;> simp
  case h_4 => split <;> simp

/-- Nothing in OTP is unprogrammed from the first state to the second. -/
def State.Grows (s t : State) : Prop := s.hub.sto.otp.Grows t.hub.sto.otp

theorem State.powerRow_grows {s t : State} {f : Hub → Hub} (hf : ∀ h : Hub, h.sto.otp.Grows (f h).sto.otp)
    (e : s.powerRow f = .next t) : s.Grows t := by
  obtain rfl := Host.Outcome.next.inj e
  exact hf _

theorem State.row_grows {s t : State} {f : Hub → Hub} (hf : ∀ h : Hub, h.sto.otp.Grows (f h).sto.otp) (e : s.row f = .next t) :
    s.Grows t := by
  refine State.powerRow_grows (fun h => ?_) e
  split
  · exact hf h
  · simp

theorem checked_next {ok : Bool} {o : Host.Outcome State Fault Refusal} {t : State} (e : checked ok o = .next t) : o = .next t := by
  cases ok
  · exact absurd e nofun
  · exact e

theorem State.powerRow_keepsOtp {s t : State} {f : Hub → Hub} (hf : ∀ h : Hub, h.KeepsOtp (f h)) (e : s.powerRow f = .next t) :
    s.Grows t := State.powerRow_grows (fun h => (hf h).grows) e

theorem State.row_keepsOtp {s t : State} {f : Hub → Hub} (hf : ∀ h : Hub, h.KeepsOtp (f h)) (e : s.row f = .next t) : s.Grows t :=
  State.row_grows (fun h => (hf h).grows) e

theorem State.mailRow_keepsOtp {s t : State} {c : CmdSpec} {mb : Fin 8} {tag : Word} {pl : List Word} (hc : c.KeepsOtp)
    (e : s.mailRow c mb tag pl = .next t) : s.Grows t :=
  State.row_keepsOtp (fun h => by simp [Hub.mail_otp hc]) (checked_next e)

/-- Every row: a Kelnen command runs its specification, another row its hub operation, and only OTP_PROGRAM_DONE writes OTP. -/
theorem exec_grows {i : Instr} {s t : State} (e : exec i s = .next t) : s.Grows t := by
  cases i with
  | sysNop | sysInfo | sysHandleQuery | sysAbort | sysReset | sysStateSave | logMark | clkStatus | clkFmc
  | clkGateSet | clkMonSet | feFastSet | feScanSet | feExcSet | feLinWrite | feLinCommit | feLinRead | feFaultStatus
  | feFaultDetail | calRefSet | calPolicySet | calRun | calResultRead | fltProfileSet | fltCoefWrite | fltCoefCommit
  | fltBankSwap | fltChanSet | fltSync | fltDelayRead | trgUnitSet | trgQualSet | capGroupSet | trgArm | trgSoft
  | trgStatus | trgIoSet | actRuleSet | actPinSet | actArm | actClear | actStatus | actFailsafeProgram | timeSrcSet
  | timeRefSet | timeSet | timePpsOutSet | timeStatusRead | netPtpSet | netPortCompSet | netPortSet | netRrConfirm
  | netAuthKeySet | netFrameWrite | netFrameSend | netLaunch | netTxtsRead | netPtpStatus | netQuarRelease
  | netPathSet | netAddrSet | netVerdict | netPathStatus | tiuInputSet | tiuIntervalSet | tiuFreq | tiuRead
  | tiuStatus | tiuCalSet | chgSet | chgRun | consumerSet | journalSet | journalStatus | ferryKeySet | liveSet
  | chanDescSet | codecSet | codecChanSet | codecStatus | codecStateSave | codecStateRead | codecStateWrite
  | codecCheck | slLaneSet | slSlotSet | slKeySet | slReset | slQuarRelease | slStatus | cascSet | cascPortSet
  | cascLinkReset | cascQuarRelease | cascStatus | secStatus | secJtagChallenge | secJtagUnlock | secOtpProgram
  | fwWrite | fwVerify | fwSwitch | flashStatus | dramRetiredRead | selftest =>
    exact State.mailRow_keepsOtp (by simp) e
  | mbCmdWrite | mbDoorbellRing | mbRelease | mbCommandTake | cqRdWrite | resetCtrlControl | resetCtrlDatapath
  | snapCtrlSnap | cmpCtrlWrite | evtEnableWrite | ferryAckWrite | ferryCtrlWrite | ferryTailWrite | lqFlush
  | msixUnmask | registerWrite | spiWriteFrame | spiWriteCrcFrame | spiReadFrame | hostLinkRestart | pcieReady
  | bootComplete | controlReset | firmwareReady | lockstepMismatch | watchdogExpiry | trialRevert | datapathWarmReset
  | perBlockReset | pfwWarning | supplyWarn | stateSaveTimer | rootPllLock | rootPllUnlock | rootGateOpen
  | holdTimeoutStop | stoppedRelockAttempt | stoppedRecovery | clkMonWindow | clkStopDetect | oscDelayExpiry
  | xoStartTimeout | muxForcedSwitch | gateQuiesceAccept | gateQuiesceTimeout | fmcComplete | frameStrobe
  | epochBreak | timeSetOrigin | sourceHoldoffExpiry | timeMapPeriodic | uncertaintyRecord | cmpFire | ppsOutPulse
  | ppsInEdge | timeRefTimeout | ptpSyncReceive | ptpFollowUpReceive | ptpDelayRespReceive | ptpAnnounceReceive
  | ptpPdelayReqReceive | ptpPdelayRespReceive | ptpDelayReqTimer | servoSyncTimeout | rrConfirmSecond | rrHoldExpiry
  | frameTransmitDone | launchGuardStart | launchTransmit | ferryAckReceive | ferryAckTimeout
  | verdictDatagramReceive | suspectDatagramTimer | netLinkChange | suspectDebounce | suspectClear | arbSelStable
  | failoverActivate | failoverComplete | selftestTimer | prbsTestDone | echoReplyReceive | echoTimeout
  | snapshotTimer | pathHealthTimer | tiuEdge | iuWinTimeout | tiuFreqGateEnd | tiuCalTimer | tiuHandoverDone
  | tiuCalDone | tachPulse | feFaultDeclare | feFaultClearDeclare | excFaultOnset | excFaultEnd | excSwitch
  | calMaxIntExpiry | calSlotStep | trimStep | chainOutput | stagingRelease | partClose | partLanded | lateWaitExpiry
  | recordOffer | ringFlushTimeout | indexScrub | pageScrub | dramUncorrectable | segmentComplete | segmentLanded
  | autoSegment | codecDemote | codecPromote | syncApply | chgRunApply | trgArmApply | bankSwapStart
  | bankFadeComplete | chanParamApply | chanDescLand | trigInputChange | trigPulseEnd | ctHoldExpiry | actPulseEnd
  | actDeadmanExpiry | slLossOfLock | slStepTimeout | slRetryTimer | slHelloReceive | slSampleFrame
  | slSlotAckReceive | slSlotSetTimeout | slReleasedReceive | slSlipReceive | slPodHealthReceive | slDelayEcho
  | slProbeTimer | slLandedTimer | slAbortSymbol | cascLossOfLock | cascAlignMarker | cascHelloReceive
  | cascAuthReceive | cascRosterReceive | cascRefusedRetry | cascTimeMark | cascDelayEcho | cascTriggerReceive
  | cascRecordReceive | cascAckReceive | cascCreditReceive | cascNakReceive | cascEpochReqReceive
  | cascHopHealthReceive | cascCreditTimer | slCommaAlignment | cascCommaAlignment | cascStepTimeout | cascRetryTimer
  | cascProbeTimer | cascHopHealthTimer | ptpMessageIgnored | addressResolutionReply | feExcursionEnd
  | followMinExpiry | ppsOutPulseEnd | pcieConfigurationWrite | journalPageCheckDone | trialSExpiry | slResetTimeout
  | cascLinkResetTimeout | flashOperationDone | selftestDone | codecCheckDone =>
    exact State.row_keepsOtp (by simp) e
  | lqLostRead | netAddrRequest | scanVisitDone | dieTempSample | calMeasureDone | pepperOutput
  | routerAdvertisementReceive =>
    exact State.row_keepsOtp (by simp) (checked_next e)
  | powerOnReset | resetNAssert | retainResume =>
    exact State.powerRow_keepsOtp (by simp) e
  | coldBoot =>
    exact State.powerRow_keepsOtp (by simp) (checked_next e)
  | otpProgramDone =>
    exact State.row_grows (otpProgramDone_grows _) e

theorem State.idle_grows (s : State) : s.Grows s.idle := by
  refine Hub.KeepsOtp.grows ?_
  unfold State.idle
  dsimp only
  split <;> simp

/-- Settles O19: only OTP_PROGRAM_DONE writes OTP, and it programs a field and clears none. -/
theorem otpNeverUnprograms : Obligations.OtpNeverUnprograms := by
  intro s t e
  obtain ⟨hash0, hash1, jtag, subsys, revoked⟩ : s.Grows t := by
    unfold step at e
    split at e
    · exact Host.Outcome.next.inj e ▸ s.idle_grows
    · next rest _ => exact exec_grows (s := { s with pending := rest }) e
  exact ⟨hash0, hash1, jtag, subsys, revoked⟩

end Sys2Proof.Machine

/-! PROOFS. The reset state and steps without a command (O2, O3). -/
namespace Sys2Proof.Machine

/-- Settles O3: no entry of a table is listed at reset, so every mailbox, lane and port reads its default. -/
theorem resetValues : Obligations.ResetValues :=
  ⟨rfl, rfl, fun _ _ => rfl, rfl, rfl, rfl, rfl, rfl, fun _ _ => rfl, fun _ _ => rfl⟩

/-! ### A TIME cycle (R220, R221, R235) -/

/-- Without a segment that is due in any capture group none opens. -/
theorem Hub.segDue_idle {h : Hub} (hd : ∀ g < 32, (h.cg g).due = []) : h.segDue = h := by
  refine List.foldlRecOn (motive := (· = h)) _ _ rfl ?_
  rintro _ rfl g hg
  simp [hd g (List.mem_range.mp hg)]

/-- Away from the next strobe one TIME cycle passes, and segments that are due open. -/
theorem Hub.tick_of_not_strobe {h : Hub} (hs : h.tb.started = false ∨ h.clk.held = true ∨ 1 < h.tb.toStrobe) :
    h.tick = (h.passTime 1).segDue := by
  refine if_neg ?_
  rcases hs with hs | hs | hs
  · simp [hs]
  · simp [hs]
  · rw [decide_eq_false (by omega), Bool.and_false]
    exact nofun

/-- In a hold TB_LOCAL alone runs. -/
theorem Hub.passTime_held (h : Hub) (n : Nat) (hh : h.clk.held = true) : ∃ c p,
    h.passTime n = { h with tb := { h.tb with cmp := c, ppsLast := p, xo := h.tb.xo + n * xoPerTime h.tb.y } } := by
  obtain ⟨c, p, e⟩ := h.cmpEvaluated_tb
  refine ⟨c, p, ?_⟩
  unfold Hub.passTime
  rw [e]
  exact if_pos hh

/-- With an empty queue the hub idles. -/
theorem step_idle {s : State} (hp : s.pending = []) : step s = .next s.idle := by rw [step, hp]

/-- What TB_LOCAL, TB_SAMPLE and TB_NET read after one TIME cycle (R220, R221, R235). -/
structure TbSt.Cycle (t b : TbSt) (held : Bool) : Prop where
  xo : b.xo = t.xo + xoPerTime t.y
  stands : held = true → b.sec = t.sec ∧ b.cnt = t.cnt ∧ b.net = t.net
  runs : held = false → t.sec < 2 ^ 32 → t.cnt < 122880000 → b.cnt = (t.cnt + 1) % 122880000 ∧
    b.sec = if t.cnt + 1 = 122880000 then (t.sec + 1) % 2 ^ 32 else t.sec

theorem TbSt.Passes.cycle {t b : TbSt} (hb : t.Passes b 1) : t.Cycle b false := by
  obtain ⟨sec, cnt, xo, _, _, _, _, _, rfl, hsec, hcnt, hxo⟩ := hb
  refine ⟨hxo.trans (by rw [Nat.one_mul]), nofun, fun _ hs hc => ⟨?_, ?_⟩⟩
  · change cnt = _
    rw [hcnt, TbSt.total]
    omega
  · change sec = _
    rw [hsec, TbSt.total]
    split <;> omega

theorem Hub.passTime_cycle (h : Hub) : ∃ b, h.tb.Cycle b h.clk.held ∧ h.passTime 1 = { h with tb := b } := by
  cases hh : h.clk.held
  · obtain ⟨b, passes, e⟩ := h.passTime_passes 1 hh
    exact ⟨b, passes.cycle, e⟩
  · obtain ⟨c, p, e⟩ := h.passTime_held 1 hh
    exact ⟨{ h.tb with cmp := c, ppsLast := p, xo := h.tb.xo + 1 * xoPerTime h.tb.y }, ⟨by simp, fun _ => ⟨rfl, rfl, rfl⟩, nofun⟩, e⟩

/-- Unless a dead span follows, FRAME_STROBE is the next strobe or P alone. -/
theorem Hub.frameStrobe_of_live {h : Hub} (hd : h.strobeOrTurn.tb.dead = false) : h.frameStrobe = h.strobeOrTurn := by
  simp [Hub.frameStrobe, hd]

/-- Settles O2: a powered hub with an empty queue ticks. Away from a strobe its time passes one cycle, and the cycle that reaches one runs it
as FRAME_STROBE does. -/
theorem idleTick : Obligations.IdleTick := by
  unfold Obligations.IdleTick
  intro s hp
  refine ⟨fun off => ?_, fun on => ⟨s.idle, step_idle hp, hp, ?_⟩⟩
  · rw [step_idle hp, State.idle, off]
    rfl
  have idle : s.idle = { s with hub := s.hub.tick } := by rw [State.idle, if_pos on]
  rw [idle]
  dsimp only
  refine ⟨fun away due => ?_, fun away => ?_, fun started running near live => ?_⟩
  · obtain ⟨b, -, pass⟩ := s.hub.passTime_cycle
    have nothing : (s.hub.passTime 1).segDue = s.hub.passTime 1 := Hub.segDue_idle fun g hg => by
      rw [Hub.cg, Hub.passTime_trg]
      exact due g hg
    rw [Hub.tick_of_not_strobe away, nothing, pass]
    simp [Hub.onlyIn_iff]
  · obtain ⟨b, cycle, pass⟩ := s.hub.passTime_cycle
    have tb : s.hub.tick.tb = b := by
      rw [Hub.tick_of_not_strobe away, Hub.tb_of_still (Hub.segDue_still _), pass]
      rfl
    rw [tb]
    exact ⟨cycle.xo, cycle.stands, cycle.runs⟩
  · have tick : s.hub.tick = s.hub.strobeOrTurn := if_pos (by simp [started, running, near])
    have once : frameStrobeRow s.hub = s.hub.tick := (Hub.frameStrobe_of_live (tick ▸ live)).trans tick.symm
    change s.row frameStrobeRow = _
    rw [State.row, State.powerRow, if_pos on, once]

end Sys2Proof.Machine

/-! PROOFS. A provisional trigger over a hold (O44). -/
namespace Sys2Proof.Machine

/-- What a row of a powered hub does keeps its frame. -/
theorem Does.onlyIn_of_row {i : Instr} {s : State} {f : Hub → Hub} {cs : List Chapter} {P : Hub → Prop} (hd : Does i s cs P)
    (hi : exec i s = s.row f) (hp : s.hub.powered = true) : s.hub.onlyIn cs (f s.hub) := by
  obtain ⟨t, ht, -, frame, -⟩ := hd
  have row : s.row f = .next { s with hub := f s.hub } := by simp [State.row, State.powerRow, hp]
  obtain rfl := Host.Outcome.next.inj (ht.symm.trans (hi.trans row))
  exact frame

/-- A provisional trigger of unit 0, raised 1 ms into the epoch. -/
def provAtHold : Prov :=
  { tp := fr 1 1000, epoch := 0, inst := 0, rise := true, v := 0, near := none, noSegment := false, held := 0 }

/-- ROOT lost lock 2 ms into the epoch, at TB_LOCAL 0, while the confirmation window of that trigger was open, and has locked again
200 us later. -/
def provHeldOver : State where
  pending := []
  hub :=
    { sys := { power := .run }
      clk := { rootLock := true, held := true }
      tb := { started := true, cnt := 245760, holdSample := (0, 245760), xo := 9830 * 2 ^ 40 }
      trg := { units := [(0, { armed := true, prov := some provAtHold })] } }

/-- When the gate opens the window has the held span more. -/
theorem provHeldOver_rootGateOpen : ((rootGateOpen provHeldOver.hub).unit 0).prov ≠ some provAtHold := by decide +kernel

/-- Refutes O44: the frame of ROOT_GATE_OPEN leaves out the chapter of the triggers, but a held span does not count in a confirmation window
that is open (R192), so the gate's opening notes the span in each provisional trigger. -/
theorem not_holdRows : ¬ Obligations.HoldRows := by
  unfold Obligations.HoldRows
  rintro ⟨-, gateOpens, -⟩
  have frame := (gateOpens provHeldOver rfl rfl rfl rfl rfl).onlyIn_of_row rfl rfl
  have triggers : (rootGateOpen provHeldOver.hub).trg = provHeldOver.hub.trg := frame .trg (by decide)
  exact provHeldOver_rootGateOpen (congrArg (fun t => (t.units.get 0).prov) triggers)

end Sys2Proof.Machine

/-! PROOFS. A stamp FIFO that has drained (O47). -/
namespace Sys2Proof.Machine

/-- A hub that runs. TIU_OVERFLOW was raised when the stamp FIFO was full, and 300 of its entries were left at the last edge. -/
def fifoOverflowed : State where
  pending := []
  hub :=
    { sys := { power := .run }
      tiu := { fifo := 300, overflowRaised := true } }

/-- An edge of the other kind on PPS_IN finds half of the FIFO empty. -/
theorem fifoOverflowed_ppsInEdge : (ppsInEdge true ⟨0, 44⟩ fifoOverflowed.hub).tiu.overflowRaised = false := by decide

/-- Refutes O47: the clause on a PPS_IN edge that is not stamped says that of the TIU the FIFO's entries alone change, but TIU_OVERFLOW is raised
once until the FIFO has drained to half full (R280), and the edge that finds it so lets the event be raised again. -/
theorem not_timebaseRows : ¬ Obligations.TimebaseRows := by
  unfold Obligations.TimebaseRows
  rintro ⟨-, -, -, -, -, -, -, -, -, -, -, -, -, unstamped, -⟩
  have entriesAlone := (unstamped fifoOverflowed true ⟨0, 44⟩ rfl (.inr (by decide))).of_row rfl rfl
  have stillRaised : (ppsInEdge true ⟨0, 44⟩ fifoOverflowed.hub).tiu.overflowRaised = true := congrArg (·.overflowRaised) entriesAlone
  rw [fifoOverflowed_ppsInEdge] at stillRaised
  exact absurd stillRaised nofun

end Sys2Proof.Machine

/-! PROOFS. Time commands (O26). -/
namespace Sys2Proof.Machine

section
variable {s : State} {mb : Fin 8} {tag : Word} {pl : List Word}

/-- The settings that TIME_SRC_SET describes. -/
def pwSrc (p : List Word) : SrcCfg where
  srcEn := fld (pw p 0) 18 16
  slewMax := fld (pw p 0) 15 0
  breakLimit := (pw p 1).toNat
  breakQual := fld (pw p 2) 27 24
  holdoff := fld (pw p 2) 15 0
  holdStab := (pw p 3).toNat
  mapPeriod := fld (pw p 4) 31 16
  netUnc := fld (pw p 4) 15 0

theorem timeSrcSet_answers (ht : s.takes timeSrcSet mb tag pl = true) :
    Answers (.timeSrcSet mb tag pl) s mb tag DONE [.cfg] fun _ t =>
      t.cfg = { s.hub.cfg with tb := { s.hub.cfg.tb with src := pwSrc pl } } := by
  refine answers_of_run (c := timeSrcSet) rfl ht rfl rfl rfl rfl (by decide) (by decide) ?_ fun t h => ?_
  · simp [Hub.onlyIn_iff, timeSrcSet, CmdIn.of]
  · rw [show t.cfg = _ from h .cfg (by decide)]
    simp [timeSrcSet, CmdIn.of, pwSrc]

/-- What TIME_REF_SET sets of the timebases: the uncertainty of PPS, its edge and the delay of its cable. -/
def pwRef (p : List Word) (c : TbCfg) : TbCfg :=
  { c with ppsUnc := fld (pw p 1) 31 16, ppsFalling := bit (pw p 1) 15, cableDly := signed 32 (pw p 2).toNat }

theorem timeRefSet_accepts (ht : s.takes timeRefSet mb tag pl = true) :
    Accepts (.timeRefSet mb tag pl) s mb tag [.cfg, .tb] fun hd t => t.cfg = { s.hub.cfg with tb := pwRef pl s.hub.cfg.tb } ∧
      t.tb = { s.hub.tb with pendRef := s.hub.tb.pendRef ++ [{ seconds := (pw pl 0).toNat, handle := hd, since := s.hub.localT }] } := by
  refine accepts_of_run (c := timeRefSet) rfl ht rfl (by decide) fun g hd hg => ⟨_, rfl, ?_, fun t h => ?_⟩
  · simp [Hub.onlyIn_iff]
  · have cfg : g.cfg = s.hub.cfg := hg .cfg (by decide)
    have tb : g.tb = s.hub.tb := hg .tb (by decide)
    rw [show t.cfg = _ from h .cfg (by decide), show t.tb = _ from h .tb (by decide)]
    simp [CmdIn.of, pwRef, Hub.localT, Hub.xoCycles, cfg, tb]

theorem timeSet_accepts (ht : s.takes timeSet mb tag pl = true) :
    Accepts (.timeSet mb tag pl) s mb tag [.tb] fun hd t => t.tb = { s.hub.tb with
      pendSet := some { seconds := (pw pl 0).toNat, strobe := fld (pw pl 1) 12 0, unc := (pw pl 2).toNat, handle := hd,
                        since := s.hub.tb.strobes } } := by
  refine accepts_of_run (c := timeSet) rfl ht rfl (by decide) fun g hd hg => ⟨_, rfl, ?_, fun t h => ?_⟩
  · simp [Hub.onlyIn_iff]
  · have tb : g.tb = s.hub.tb := hg .tb (by decide)
    rw [show t.tb = _ from h .tb (by decide)]
    simp [CmdIn.of, tb]

/-- The settings that TIME_PPS_OUT_SET describes. -/
def pwPpsOut (p : List Word) : PpsOut where
  tb := fld (pw p 0) 31 30
  enable := bit (pw p 0) 29
  pol := bit (pw p 0) 28
  width := (pw p 1).toNat
  offset := signed 32 (pw p 2).toNat

theorem timePpsOutSet_answers (ht : s.takes timePpsOutSet mb tag pl = true) :
    Answers (.timePpsOutSet mb tag pl) s mb tag DONE [.cfg, .tb] fun _ t =>
      t.cfg = { s.hub.cfg with tb := { s.hub.cfg.tb with ppsOut := pwPpsOut pl } } ∧
      t.tb = { s.hub.tb with ppsPin := none, ppsLast := none } := by
  refine answers_of_run (c := timePpsOutSet) rfl ht rfl rfl rfl rfl (by decide) (by decide) ?_ fun t h => ?_
  · simp [Hub.onlyIn_iff, timePpsOutSet, CmdIn.of]
  · rw [show t.cfg = _ from h .cfg (by decide), show t.tb = _ from h .tb (by decide)]
    simp [timePpsOutSet, CmdIn.of, pwPpsOut]

/-- TIME_STATUS_READ reads settings, clocks and timebases. -/
theorem timeStatusRead_answers (ht : s.takes timeStatusRead mb tag pl = true) :
    Answers (.timeStatusRead mb tag pl) s mb tag DONE [] fun ws _ => ws.length = 10 ∧
      ws.take 4 = [s.hub.timeStatus, wd s.hub.tb.epoch, wd s.hub.uncWord, wdInt s.hub.tb.y] ∧ ws.getD 7 0 = wd s.hub.tb.breaks := by
  refine answers_of_run (c := timeStatusRead) rfl ht rfl rfl rfl rfl (by decide) (by decide) ?_ fun t h => ⟨rfl, ?_, ?_⟩
  · simp [Hub.onlyIn_iff, timeStatusRead]
  · rfl
  · rfl

end

/-- Settles O26: each command has its lemma above, over the one path by which a mailbox answers or accepts. -/
theorem timeCommands : Obligations.TimeCommands := by
  unfold Obligations.TimeCommands
  exact ⟨fun _ _ _ _ => timeSrcSet_answers, fun _ _ _ _ => timeRefSet_accepts, fun _ _ _ _ => timeSet_accepts,
    fun _ _ _ _ => timePpsOutSet_answers, fun _ _ _ _ => timeStatusRead_answers⟩

end Sys2Proof.Machine

/-! PROOFS. The work of a change of epoch: what it leaves of settings, clocks, network and timebases (O46). -/
namespace Sys2Proof.Machine

/-- From `h` to `g` the timebases come to read `b`, and settings, clocks and network stay. -/
structure Hub.Retimes (h : Hub) (b : TbSt) (g : Hub) : Prop where
  cfg : g.cfg = h.cfg
  clk : g.clk = h.clk
  net : g.net = h.net
  tb : g.tb = b

theorem Hub.Retimes.refl (h : Hub) : h.Retimes h.tb h := ⟨rfl, rfl, rfl, rfl⟩
theorem Hub.Retimes.trans {h g k : Hub} {b c : TbSt} (hg : h.Retimes b g) (gk : g.Retimes c k) : h.Retimes c k :=
  ⟨gk.cfg.trans hg.cfg, gk.clk.trans hg.clk, gk.net.trans hg.net, gk.tb⟩
theorem Hub.retimes_of_still {h g : Hub} (e : g.still = h.still) : h.Retimes h.tb g :=
  ⟨Hub.cfg_of_still e, Hub.clk_of_still e, Hub.net_of_still e, Hub.tb_of_still e⟩
theorem Hub.Retimes.of_eq {h g : Hub} {b c : TbSt} (hg : h.Retimes b g) (e : b = c) : h.Retimes c g := e ▸ hg
/-- What moves nothing of these may follow. -/
theorem Hub.Retimes.still {h g k : Hub} {b : TbSt} (hg : h.Retimes b g) (e : k.still = g.still) : h.Retimes b k :=
  hg.trans (hg.tb ▸ Hub.retimes_of_still e)
theorem Hub.Retimes.keeps {h g k : Hub} {b : TbSt} (hg : h.Retimes b g) (gk : g.Retimes g.tb k) : h.Retimes b k := hg.trans (hg.tb ▸ gk)
theorem Hub.retimes_foldl {α : Type} {f : Hub → α → Hub} (hf : ∀ (g : Hub) a, g.Retimes g.tb (f g a)) (l : List α) (h : Hub) :
    h.Retimes h.tb (l.foldl f h) :=
  List.foldlRecOn l f (.refl h) fun g hg a _ => hg.keeps (hf g a)
theorem Hub.Retimes.onlyIn {h g : Hub} {b : TbSt} (hg : h.Retimes b g) :
    h.onlyIn [.sys, .host, .evt, .tb, .jrn, .sto, .act, .fe, .flt, .cal, .trg, .cod, .tiu, .sl, .casc, .tx, .free] g := by
  simp [Hub.onlyIn_iff, hg.cfg, hg.clk, hg.net]
theorem Hub.Struck.retimes {h g : Hub} {b : TbSt} (hg : h.Struck b g) :
    h.Retimes { b with strobeXo := b.xo, afterHold := false, loaded := false, dead := false, strobes := b.strobes + 1 } g :=
  ⟨hg.cfg, hg.clk, hg.net, hg.tb⟩

/-! ### Triggers and chains leave the old epoch (R192, R229) -/

@[simp] theorem Hub.trigStop_still (h : Hub) (cause : Nat) : (h.trigStop cause).still = h.still := Hub.foldl_still (fun g u => by simp) _ h
@[simp] theorem Hub.segsClose_still (h : Hub) (epoch : Nat) (t : T64) (endCause : Nat) : (h.segsClose epoch t endCause).still = h.still :=
  Hub.foldl_still (fun g k => by simp) _ h
theorem Hub.retimes_trg (h : Hub) (x : TrgSt) : h.Retimes h.tb { h with trg := x } := ⟨rfl, rfl, rfl, rfl⟩
theorem Hub.trigEpoch_retimes (h : Hub) : h.Retimes h.tb h.trigEpoch :=
  (Hub.retimes_of_still (h.trigStop_still 3)).keeps (Hub.retimes_trg _ _)
theorem Hub.trigTurn_retimes (h : Hub) (old : Nat) (p first : T64) : h.Retimes h.tb (h.trigTurn old p first) :=
  (Hub.retimes_of_still (h.segsClose_still old (p - 1) 2)).keeps (Hub.retimes_trg _ _)
theorem Hub.epochNow_retimes (h : Hub) (ch : Nat) (c : ChanCfg) (g : Geo) (p ts epoch : Nat) (step : T64) :
    h.Retimes h.tb (h.epochNow ch c g p ts epoch step) := by
  have ended : h.Retimes h.tb (((h.chainTail ch c g p).digestEmit ch true).gapEnd ch) := Hub.retimes_of_still (by simp)
  have based : ∀ (k : Hub) (x : Chain) (f : FaultSt), k.Retimes k.tb ((k.setChain ch x).setFault ch f) := fun _ _ _ => ⟨rfl, rfl, rfl, rfl⟩
  exact (ended.keeps (based _ _ _)).still ((Hub.calRestart_still ..).trans (Hub.swapReset_still ..))
theorem Hub.chainEpoch_retimes (h : Hub) (ch p ts epoch : Nat) (step : T64) : h.Retimes h.tb (h.chainEpoch ch p ts epoch step) := by
  unfold Hub.chainEpoch
  split
  · exact .refl h
  · next c g _ =>
    dsimp only
    split
    · exact .refl h
    · split
      · exact ⟨rfl, rfl, rfl, rfl⟩
      · exact h.epochNow_retimes ch c g p ts epoch step

/-! ### Compare units and TIME MAP records (R237, R240) -/

theorem Hub.cmpPolicies_tb (h : Hub) : ∃ c : Tab Cmp, h.cmpPolicies = { h with tb := { h.tb with cmp := c } } := by
  refine List.foldlRecOn (motive := fun g => ∃ c : Tab Cmp, g = { h with tb := { h.tb with cmp := c } }) _ _ ⟨h.tb.cmp, rfl⟩ ?_
  rintro _ ⟨c, rfl⟩ n -
  unfold Hub.cmpPolicy
  dsimp only
  split
  · exact ⟨_, rfl⟩
  · exact ⟨c, rfl⟩
theorem Hub.landTimeMap_retimes (h : Hub) (kind oldEpoch : Nat) (oldT newT : T64) (dead : Nat) (err resid : Int) : ∃ m,
    h.Retimes { h.tb with lastMap := m } (h.landTimeMap kind oldEpoch oldT newT dead err resid) := by
  unfold Hub.landTimeMap
  dsimp only
  generalize hg : h.land _ _ _ _ _ _ = g
  have landed : h.Retimes h.tb g := .still (.refl h) (hg ▸ Hub.land_still ..)
  exact ⟨_, landed.cfg, landed.clk, landed.net, congrArg ({ · with lastMap := some (g.xoCycles, g.unc) }) landed.tb⟩
theorem Hub.sourceChanged_retimes (h : Hub) : ∃ m, h.Retimes { h.tb with lastMap := m } h.sourceChanged := by
  obtain ⟨m, landed⟩ := h.landTimeMap_retimes 2 h.tb.epoch h.sampleT h.sampleT 0 (if 2 = 2 then h.tb.lastErr else 0) 0
  exact ⟨m, landed.still (Hub.raise_still ..)⟩

/-! ### TB_SAMPLE is loaded at P (R229, R230) -/

/-- From `t` to `b` TB_SAMPLE has been loaded with `total` in epoch `epoch`, whose first frame strobe is still to come. -/
def TbSt.Turns (t b : TbSt) (total epoch : Nat) : Prop := ∃ sec cnt steps off cmp,
  b = { t with sec := sec, cnt := cnt, epoch := epoch % 65536, steps := steps, refOff := off, loaded := true, dead := true, cmp := cmp } ∧
  sec = total / 122880000 % 2 ^ 32 ∧ cnt = total % 122880000

/-- P: the mark of the new epoch is set once TB_SAMPLE is loaded, and changes the timebases further alone. -/
theorem Hub.epochTurn_retimes (h : Hub) (total epoch : Nat) (origin : Bool) (mark : Hub → Nat → T64 → Hub) : ∃ b g n t,
    h.tb.Turns b total epoch ∧ h.Retimes b g ∧ ∀ c, g.Retimes c (mark g n t) → h.Retimes c (h.epochTurn total epoch origin mark) := by
  unfold Hub.epochTurn
  extract_lets left old oldT oldEpoch by_ ts step e ended turned named gates chains tb fe flt tiu casc loaded anew marked
  clear_value old oldT oldEpoch by_ ts step e gates chains
  have drained : h.Retimes h.tb left := Hub.retimes_of_still h.tachDrain_still
  clear_value left
  have triggers : h.Retimes h.tb ended := drained.keeps left.trigEpoch_retimes
  clear_value ended
  have chainsTurn : h.Retimes h.tb turned :=
    triggers.keeps (Hub.retimes_foldl (fun (g : Hub) (c : Nat × Chain) => g.chainEpoch_retimes c.1 old ts e step) _ _)
  clear_value turned
  have renamed : h.Retimes { h.tb with epoch := epoch % 65536, steps := named.tb.steps } named := by
    have close := (turned.newEpoch epoch step origin).trigTurn_retimes oldEpoch oldT (cycT ts)
    refine ⟨close.cfg.trans chainsTurn.cfg, close.clk.trans chainsTurn.clk, close.net.trans chainsTurn.net, ?_⟩
    rw [← chainsTurn.tb]
    exact close.tb.trans (congrArg (fun x => { turned.tb with epoch := epoch % 65536, steps := x }) (congrArg TbSt.steps close.tb).symm)
  clear_value named
  have load : h.Retimes { h.tb with
      sec := total / 122880000 % 2 ^ 32, cnt := total % 122880000, epoch := epoch % 65536, steps := named.tb.steps,
      refOff := named.tb.refOff - step, loaded := true, dead := true } loaded :=
    ⟨renamed.cfg, renamed.clk, renamed.net, by dsimp only [loaded, tb, TbSt.load]; rw [renamed.tb]⟩
  clear_value loaded
  obtain ⟨c, policies⟩ := Hub.cmpPolicies_tb { loaded with tb := loaded.tb.refreshCmp (· == 1) }
  have units : h.Retimes { loaded.tb with cmp := c } anew := by
    rw [show anew = _ from policies]
    exact ⟨load.cfg, load.clk, load.net, rfl⟩
  rw [load.tb] at units
  clear_value anew
  refine ⟨_, anew, oldEpoch, oldT, ⟨_, _, _, _, _, rfl, rfl, rfl⟩, units, fun b hb => ?_⟩
  have saved : marked.still = (mark anew oldEpoch oldT).still := Hub.saveState_still _ _
  clear_value marked
  split <;> exact ((units.trans hb).still saved).still (Hub.slStrobe_still ..)

/-! ### Breaks of the hub's own (R228, R229) -/

/-- From `t` to `r` the break `b` of the hub's own has been executed at P. -/
structure TbSt.Breaks (t r : TbSt) (b : PendBreak) : Prop where
  epoch : r.epoch = (t.epoch + 1) % 65536
  breaks : r.breaks = sat32 (t.breaks + 1)
  total : r.total = Hub.breakTotal t.total b
  waits : r.pendBreak = t.pendBreak
  strobes : r.strobes = t.strobes
  dead : r.dead = true

theorem breakTotal_mod (p : Nat) (b : PendBreak) : Hub.breakTotal p b % (2 ^ 32 * 122880000) = Hub.breakTotal p b := by
  have positive : (0 : Int) < ((2 ^ 32 * 122880000 : Nat) : Int) := by norm_num
  refine Nat.mod_eq_of_lt (Int.ofNat_lt.mp ?_)
  rw [Hub.breakTotal, Int.toNat_of_nonneg (Int.emod_nonneg _ positive.ne')]
  exact Int.emod_lt_of_pos _ positive

/-- What the break `b` adds to the work at P: it counts itself and lands its TIME MAP record. -/
def Hub.markBreak (h : Hub) (b : PendBreak) (oldEpoch : Nat) (oldT : T64) : Hub :=
  let h := { h with tb := { h.tb with breaks := sat32 (h.tb.breaks + 1), lastBreak := h.sampleT } }
  (h.landTimeMap b.kind oldEpoch oldT h.sampleT h.tb.deadNs b.e (b.e - cycToT b.s)).raise 97 []

theorem Hub.markBreak_retimes (h : Hub) (b : PendBreak) (oldEpoch : Nat) (oldT : T64) : ∃ m,
    h.Retimes { h.tb with breaks := sat32 (h.tb.breaks + 1), lastBreak := h.sampleT, lastMap := m } (h.markBreak b oldEpoch oldT) := by
  unfold Hub.markBreak
  extract_lets before counted
  have count : h.Retimes { h.tb with breaks := sat32 (h.tb.breaks + 1), lastBreak := h.sampleT } counted := ⟨rfl, rfl, rfl, rfl⟩
  clear_value counted
  obtain ⟨m, landed⟩ := counted.landTimeMap_retimes b.kind oldEpoch oldT counted.sampleT counted.tb.deadNs b.e (b.e - cycToT b.s)
  refine ⟨m, .of_eq ((count.trans landed).still (Hub.raise_still ..)) ?_⟩
  rw [count.tb]

/-- A break that no master named leads into the next epoch and tells no one. -/
theorem Hub.breakAt_unnamed (h : Hub) {b : PendBreak} (he : b.epoch = none) : h.breakAt b =
    h.epochTurn (Hub.breakTotal h.tb.total b) ((h.tb.epoch + 1) % 65536) false fun g => g.markBreak b := by
  have next : h.breakEpoch b = ((h.tb.epoch + 1) % 65536, false) := by simp [Hub.breakEpoch, he]
  unfold Hub.breakAt
  dsimp only
  rw [next, if_neg (by simp [he])]
  rfl

theorem TbSt.Turns.breaks {t a : TbSt} {b : PendBreak} (ha : t.Turns a (Hub.breakTotal t.total b) ((t.epoch + 1) % 65536)) (l : T64)
    (m : Option (Nat × Option Nat)) : t.Breaks { a with breaks := sat32 (a.breaks + 1), lastBreak := l, lastMap := m } b := by
  obtain ⟨sec, cnt, _, _, _, rfl, hsec, hcnt⟩ := ha
  refine ⟨Nat.mod_mod _ _, rfl, ?_, rfl, rfl, rfl⟩
  rw [← breakTotal_mod, ← seconds_cycles, ← hsec, ← hcnt]
  rfl

theorem Hub.breakAt_retimes (h : Hub) {b : PendBreak} (he : b.epoch = none) : ∃ r, h.tb.Breaks r b ∧ h.Retimes r (h.breakAt b) := by
  obtain ⟨a, g, n, t, turns, turned, rest⟩ :=
    h.epochTurn_retimes (Hub.breakTotal h.tb.total b) ((h.tb.epoch + 1) % 65536) false fun g => g.markBreak b
  obtain ⟨m, marked⟩ := g.markBreak_retimes b n t
  rw [turned.tb] at marked
  rw [h.breakAt_unnamed he]
  exact ⟨_, turns.breaks _ m, rest _ marked⟩

/-- A break that is not the master's is executed at its P. -/
theorem Hub.breaksAt_own (h : Hub) {b : PendBreak} (hk : b.kind = 1) :
    h.breaksAt [b] = ({ h with tb := { h.tb with pendBreak := [] } } : Hub).breakAt b := by
  have own : Hub.renumbered { h with tb := { h.tb with pendBreak := [] } } b = false := by simp [Hub.renumbered, hk]
  unfold Hub.breaksAt
  dsimp only
  rw [own]
  simp [Hub.breaksAt]

/-! ### TIME_SET (R245) -/

/-- From `t` to `r` the TIME_SET `q` has taken effect at P. -/
structure TbSt.Sets (t r : TbSt) (q : PendSet) : Prop where
  epoch : r.epoch = (t.epoch + 1) % 65536
  pendSet : r.pendSet = none
  sec : r.sec = (q.seconds * 122880000 + q.strobe * 15360) / 122880000 % 2 ^ 32
  cnt : r.cnt = (q.seconds * 122880000 + q.strobe * 15360) % 122880000
  strobes : r.strobes = t.strobes

/-- A TIME MAP record leaves the origin as it is. -/
theorem TbSt.Sets.lastMap {t r : TbSt} {q : PendSet} (hr : t.Sets r q) (m : Option (Nat × Option Nat)) : t.Sets { r with lastMap := m } q :=
  ⟨hr.epoch, hr.pendSet, hr.sec, hr.cnt, hr.strobes⟩

theorem TbSt.Turns.sets {t k a : TbSt} {q : PendSet} {total : Nat} (ha : k.Turns a total (k.epoch + 1)) (e : k.epoch = t.epoch)
    (hset : k.pendSet = none) (hn : k.strobes = t.strobes) (ht : total = q.seconds * 122880000 + q.strobe * 15360) : t.Sets a q := by
  obtain ⟨sec, cnt, _, _, _, rfl, rfl, rfl⟩ := ha
  exact ⟨by rw [e], hset, by rw [ht], by rw [ht], hn⟩

theorem Hub.timeSetAt_retimes (h : Hub) (q : PendSet) : ∃ r, h.tb.Sets r q ∧ h.Retimes r (h.timeSetAt q) := by
  unfold Hub.timeSetAt
  extract_lets old was known tb steered total begun turned named answered
  have start : h.Retimes begun.tb begun := ⟨rfl, rfl, rfl, rfl⟩
  have kept : begun.tb.epoch = h.tb.epoch ∧ begun.tb.pendSet = none ∧ begun.tb.strobes = h.tb.strobes := by
    refine ⟨?_, rfl, ?_⟩ <;> dsimp only [begun, steered, tb] <;> split <;> rfl
  clear_value begun
  obtain ⟨epoch, none, strobes⟩ := kept
  obtain ⟨a, g, n, t, turns, ended, rest⟩ := begun.epochTurn_retimes total (begun.tb.epoch + 1) true
    fun h oldEpoch oldT => h.landTimeMap 0 oldEpoch oldT h.sampleT h.tb.deadNs 0 0
  obtain ⟨m, landed⟩ := g.landTimeMap_retimes 0 n t g.sampleT g.tb.deadNs 0 0
  have turn : ∃ r, h.tb.Sets r q ∧ h.Retimes r turned := by
    refine ⟨_, ?_, start.trans (rest _ landed)⟩
    rw [ended.tb]
    exact (turns.sets epoch none strobes rfl).lastMap m
  clear_value turned
  have source : ∃ r, h.tb.Sets r q ∧ h.Retimes r named := by
    dsimp only [named]
    split
    · exact turn
    · obtain ⟨r, sets, turn⟩ := turn
      obtain ⟨m, change⟩ := turned.sourceChanged_retimes
      rw [turn.tb] at change
      exact ⟨_, sets.lastMap m, turn.trans change⟩
  clear_value named
  obtain ⟨r, sets, source⟩ := source
  exact ⟨r, sets, (source.still (Hub.complete_still ..)).still (Hub.landDescs_still ..)⟩

/-! ### The strobe at P -/

/-- The timebases `t` once a frame strobe has been executed. -/
def TbSt.struck (t : TbSt) : TbSt :=
  { t with strobeXo := t.xo, afterHold := false, loaded := false, dead := false, strobes := t.strobes + 1 }

theorem Hub.Retimes.struck {h g : Hub} {r : TbSt} (hg : h.Retimes r g) : h.Retimes r.struck g.strobeBody :=
  hg.trans (hg.tb ▸ g.strobeBody_struck.retimes)
theorem TbSt.total_mod (t : TbSt) : t.total % 15360 = t.cnt % 15360 := by
  unfold TbSt.total
  omega
theorem TbSt.Passes.breaks {t b : TbSt} {n : Nat} (hb : t.Passes b n) : b.breaks = t.breaks := by
  obtain ⟨_, _, _, _, _, _, _, _, rfl, -⟩ := hb
  rfl
/-- The way to P changes the timebases alone. -/
theorem Hub.retimes_tb (h : Hub) (b : TbSt) : h.Retimes b { h with tb := b } := ⟨rfl, rfl, rfl, rfl⟩

theorem Hub.strobeOrTurn_break {h k : Hub} {b : PendBreak} (hh : h.clk.held = false) (hst : h.tb.started = true)
    (hk : h.passTime h.tb.toStrobe = k) (hset : k.tb.pendSet = none) (hbr : k.tb.pendBreak = [b]) :
    h.strobeOrTurn = if (k.breaksAt [b]).tb.cnt % 15360 = 0 then (k.breaksAt [b]).strobeBody else k.breaksAt [b] := by
  unfold Hub.strobeOrTurn
  rw [hh, hst, hk]
  dsimp only
  rw [hset, hbr]
  simp only [Bool.not_true, Bool.or_false, Bool.false_eq_true, if_false]
theorem Hub.strobeOrTurn_timeSet {h k : Hub} {q : PendSet} (hh : h.clk.held = false) (hst : h.tb.started = true)
    (hk : h.passTime h.tb.toStrobe = k) (hset : k.tb.pendSet = some q) :
    h.strobeOrTurn = if (k.timeSetAt q).tb.cnt % 15360 = 0 then (k.timeSetAt q).strobeBody else k.timeSetAt q := by
  unfold Hub.strobeOrTurn
  rw [hh, hst, hk]
  dsimp only
  rw [hset]
  simp only [Bool.not_true, Bool.or_false, Bool.false_eq_true, if_false]

/-- A break of the hub's own is executed at P, and P is a frame strobe only where the loaded count is one. -/
theorem Hub.strobeOrTurn_breaks {h : Hub} {b : PendBreak} (hh : h.clk.held = false) (hst : h.tb.started = true) (hset : h.tb.pendSet = none)
    (hbr : h.tb.pendBreak = [b]) (he : b.epoch = none) (hk : b.kind = 1) : ∃ p r, h.tb.Reaches p ∧ p.breaks = h.tb.breaks ∧
      ({ p with pendBreak := [] } : TbSt).Breaks r b ∧ h.Retimes (if r.cnt % 15360 = 0 then r.struck else r) h.strobeOrTurn := by
  obtain ⟨p, hp, pass⟩ := h.passTime_passes h.tb.toStrobe hh
  obtain ⟨pset, pbreak, -⟩ := hp.waits
  obtain ⟨r, breaks, turned⟩ := ({ h with tb := { p with pendBreak := [] } } : Hub).breakAt_retimes he
  have turn : h.Retimes r (({ h with tb := p } : Hub).breaksAt [b]) := by
    rw [Hub.breaksAt_own _ hk]
    exact (h.retimes_tb _).trans turned
  refine ⟨p, r, hp.reaches, hp.breaks, breaks, ?_⟩
  rw [Hub.strobeOrTurn_break hh hst pass (pset.trans hset) (pbreak.trans hbr), turn.tb]
  split
  · exact turn.struck
  · exact turn

/-- A TIME_SET puts P at its own frame strobe. -/
theorem Hub.frameStrobe_sets {h : Hub} {q : PendSet} (hh : h.clk.held = false) (hst : h.tb.started = true) (hset : h.tb.pendSet = some q) :
    ∃ p r, h.tb.Reaches p ∧ p.Sets r q ∧ h.Retimes r.struck h.frameStrobe := by
  obtain ⟨p, hp, pass⟩ := h.passTime_passes h.tb.toStrobe hh
  obtain ⟨pset, -, -⟩ := hp.waits
  obtain ⟨r, sets, turned⟩ := ({ h with tb := p } : Hub).timeSetAt_retimes q
  have turn : h.Retimes r (({ h with tb := p } : Hub).timeSetAt q) := (h.retimes_tb p).trans turned
  have aligned : r.cnt % 15360 = 0 := by
    rw [sets.cnt]
    omega
  have strobe : h.Retimes r.struck h.strobeOrTurn := by
    rw [Hub.strobeOrTurn_timeSet hh hst pass (pset.trans hset), turn.tb, if_pos aligned]
    exact turn.struck
  have live : h.strobeOrTurn.tb.dead = false := by
    rw [strobe.tb]
    rfl
  exact ⟨p, r, hp.reaches, sets, Hub.frameStrobe_of_live live ▸ strobe⟩

/-- Settles O46: time reaches P, where TB_SAMPLE is loaded and the epoch turns (`Hub.epochTurn_retimes`). With a break, P strobes if its
count is a multiple of 15,360 and waits for the first strobe otherwise; a TIME_SET names a strobe, so its P always strobes. -/
theorem epochRows : Obligations.EpochRows := by
  unfold Obligations.EpochRows
  refine ⟨?_, ?_⟩
  · intro s b hp hh hst _ _ hset hbr he hk _
    obtain ⟨p, r, reaches, counted, breaks, turned⟩ := Hub.strobeOrTurn_breaks hh hst hset hbr he hk
    have row : Machine.epochBreak s.hub = s.hub.strobeOrTurn := by simp [Machine.epochBreak, hbr, hset]
    refine does_row rfl hp (row ▸ turned.onlyIn) ?_
    rw [row, turned.tb, ← reaches.epoch, ← reaches.strobes, ← reaches.total, ← counted]
    split
    · next aligned =>
      exact ⟨breaks.epoch, breaks.waits, breaks.breaks, breaks.total, fun _ => ⟨congrArg (· + 1) breaks.strobes, rfl⟩,
        fun off => absurd (r.total_mod.trans aligned) off⟩
    · next off =>
      exact ⟨breaks.epoch, breaks.waits, breaks.breaks, breaks.total, fun aligned => absurd (r.total_mod.symm.trans aligned) off,
        fun _ => ⟨breaks.strobes, breaks.dead⟩⟩
  · intro s q hp hh hst _ _ hset hsec hstrobe _
    obtain ⟨p, r, reaches, sets, struck⟩ := Hub.frameStrobe_sets hh hst hset
    have row : Machine.timeSetOrigin s.hub = s.hub.frameStrobe := Hub.strobeIf_true _ (by rw [hset]; rfl)
    refine does_row rfl hp (row ▸ struck.onlyIn) ?_
    rw [row, struck.tb, ← reaches.epoch, ← reaches.strobes]
    have sec : r.sec = q.seconds := by
      rw [sets.sec]
      omega
    have cnt : r.cnt = q.strobe * 15360 := by
      rw [sets.cnt]
      omega
    exact ⟨sets.epoch, sets.pendSet, sec, cnt, congrArg (· + 1) sets.strobes⟩

end Sys2Proof.Machine

/-! PROOFS. A standby port is disabled while launches wait on a port without a link (O27). -/
namespace Sys2Proof.Machine

/-- A command that takes no handle and is answered in its mailbox leaves the completion queue alone, before its answer too. -/
theorem Answers.run_cqWr {i : Instr} {s : State} {c : CmdSpec} {mb : Fin 8} {tag : Word} {pl : List Word} {cs : List Chapter} {status : Nat}
    {P : List Word → Hub → Prop} {r : CmdRes} (ha : Answers i s mb tag status cs P) (hi : exec i s = s.mailRow c mb tag pl)
    (ht : s.takes c mb tag pl = true) (hl : c.long (s.hub.executing c mb tag pl) pl = false)
    (hr : c.run (s.hub.executing c mb tag pl) (.of mb tag pl 0) = r) (hw : r.wait = false) (hc : .host ∉ cs) :
    r.hub.host.cqWr = s.hub.host.cqWr := by
  obtain ⟨t, ws, ran, -, -, ⟨-, -, -, mail, -⟩, -⟩ := ha
  obtain ⟨-, -, kept⟩ := mail hc
  obtain rfl := Host.Outcome.next.inj ((hi.trans (s.mailRow_takes c mb tag pl ht)).symm.trans ran)
  rw [← kept, Hub.ran_short _ hl hr hw]
  exact (r.hub.answered_ownMail mb r.status 0 tag r.words _).cqWr.symm

/-- The launch entry of handle 0x1005. -/
def waitingLaunch : Launch :=
  { buf := 1, len := 64, onSample := true, send := false, target := 0x100000000, epoch := 0, tol := 100, handle := 0x1005 }

/-- Port 0 is active, has lost its link and holds that launch entry, since port 1 is in STANDBY and may take over. -/
def launchWithoutLink : State where
  pending := []
  hub :=
    { sys := { power := .run, fwReady := true }
      host :=
        { mbs := [(0, { state := .idle })]
          slots := [(5, { gen := 1, held := true, opcode := 0x090D, tag := 7, mb := 0 })] }
      cfg := { net := { ports := [(0, { enable := true }), (1, { enable := true })] } }
      net := { active := some 0, busy := [1], ports := [(0, { st := .active, launch := [waitingLaunch] }), (1, { st := .standby, link := true })] } }

/-- NET_PORT_SET of port 1 with ENABLE 0. -/
def disablePort1 : List Word := [0x00000001, 0, 0, 0x00640000]

/-- With port 1 OFF no standby is left, and the launch entry completes with ABORTED. -/
theorem launchWithoutLink_run :
    (netPortSet.run (launchWithoutLink.hub.executing netPortSet 0 9 disablePort1) (.of 0 9 disablePort1 0)).hub.host.cqWr = 1 := by decide +kernel

/-- Refutes O27: NET_PORT_SET is said to leave the completion queue alone, but where it disables the standby port while the active one has no
link, the active path is lost with no standby (R457), and every launch entry that waits completes with ABORTED (R266). -/
theorem not_ptpCommands : ¬ Obligations.PtpCommands := by
  unfold Obligations.PtpCommands
  rintro ⟨-, -, portSet, -⟩
  have takes : launchWithoutLink.takes netPortSet 0 9 disablePort1 = true := by decide +kernel
  have kept := (portSet launchWithoutLink 0 9 disablePort1 takes).run_cqWr (c := netPortSet) rfl takes rfl rfl (by decide +kernel) (by decide)
  have one : 1 = launchWithoutLink.hub.host.cqWr := launchWithoutLink_run.symm.trans kept
  exact absurd one (by decide)

end Sys2Proof.Machine

/-! PROOFS. Network ports, their servos and the source NET (O28, O48, O49). -/
namespace Sys2Proof.Machine

/-! ### Writes of a port (R441) -/

theorem Tab.del_del {α : Type} (t : Tab α) (i : Nat) : (t.del i).del i = t.del i := by
  induction t with
  | nil => rfl
  | cons e t ih =>
    by_cases hk : e.1 = i
    · simpa [Tab.del, hk] using ih
    · simpa [Tab.del, hk] using ih

theorem Tab.del_ins {α : Type} (t : Tab α) (i : Nat) (v : α) : (t.ins i v).del i = t.del i := by
  induction t with
  | nil => simp [Tab.ins, Tab.del]
  | cons e t ih =>
    unfold Tab.ins
    split
    · simp [Tab.del]
    · by_cases hk : e.1 = i <;> simp [Tab.del, hk, ih]

/-- Of two writes of one entry the second stays. -/
theorem Tab.put_put {α : Type} [Inhabited α] [DecidableEq α] (t : Tab α) (i : Nat) (v w : α) : (t.put i v).put i w = t.put i w := by
  have gone : (t.put i v).del i = t.del i := by
    unfold Tab.put
    split
    · exact t.del_del i
    · rw [Tab.del_ins, Tab.del_del]
  rw [Tab.put, gone, Tab.put]

@[simp] theorem Hub.setPort_setPort (h : Hub) (p : Nat) (x y : Port) : (h.setPort p x).setPort p y = h.setPort p y := by
  simp [Hub.setPort, Tab.put_put]

@[simp] theorem Hub.setPort_port (h : Hub) (p k : Nat) (x : Port) : (h.setPort p x).port k = if k = p then x else h.port k := by
  simp [Hub.port, Hub.setPort]
@[simp] theorem Hub.setPtp_port (h : Hub) (p k : Nat) (x : Ptp) :
    (h.setPtp p x).port k = if k = p then { h.port p with ptp := x } else h.port k := by simp [Hub.setPtp]
@[simp] theorem Hub.setPtp_setPtp (h : Hub) (p : Nat) (x y : Ptp) : (h.setPtp p x).setPtp p y = h.setPtp p y := by simp [Hub.setPtp]
theorem Hub.setPort_onlyIn (h : Hub) (p : Nat) (x : Port) : h.onlyIn [.net] (h.setPort p x) := by simp [Hub.onlyIn_iff, Hub.setPort]
theorem Hub.setPtp_onlyIn (h : Hub) (p : Nat) (x : Ptp) : h.onlyIn [.net] (h.setPtp p x) := h.setPort_onlyIn p _
@[simp] theorem Hub.setPort_portCfg (h : Hub) (p k : Nat) (x : Port) : (h.setPort p x).portCfg k = h.portCfg k := rfl
@[simp] theorem Hub.setPtp_portCfg (h : Hub) (p k : Nat) (x : Ptp) : (h.setPtp p x).portCfg k = h.portCfg k := rfl
@[simp] theorem Hub.setPort_xoCycles (h : Hub) (p : Nat) (x : Port) : (h.setPort p x).xoCycles = h.xoCycles := rfl
@[simp] theorem Hub.setPtp_xoCycles (h : Hub) (p : Nat) (x : Ptp) : (h.setPtp p x).xoCycles = h.xoCycles := rfl

/-! ### A change of source lands a TIME MAP record (R225, R237) -/

/-- A change of the timebases, or of what the time-interval unit notes with them. -/
theorem Hub.raises_of_time {h g : Hub} (ho : h.onlyIn [.tb, .tiu] g) : h.Raises [.tb, .tiu, .evt, .jrn, .sto] g :=
  (Hub.raises_of_onlyIn ho (by decide) (by decide)).mono (by decide)

theorem Hub.landTimeMap_raises (h : Hub) (kind oldEpoch : Nat) (oldT newT : T64) (dead : Nat) (err resid : Int) :
    h.Raises [.tb, .tiu, .evt, .jrn, .sto] (h.landTimeMap kind oldEpoch oldT newT dead err resid) := by
  unfold Hub.landTimeMap
  extract_lets body g
  have landed : h.Raises [.tb, .tiu, .evt, .jrn, .sto] g := (h.land_records ..).raises.mono (by decide)
  clear_value g
  exact landed.trans (Hub.raises_of_time (by simp [Hub.onlyIn_iff]))

theorem Hub.sourceChanged_raises (h : Hub) : h.Raises [.tb, .tiu, .evt, .jrn, .sto] h.sourceChanged :=
  (h.landTimeMap_raises ..).trans ((Hub.raise_records _ _ _).raises.mono (by decide))

theorem Hub.freezeY_onlyIn (h : Hub) (now : Nat) : h.onlyIn [.tb] (h.freezeY now) := by
  simp [Hub.onlyIn_iff, Hub.freezeY, Hub.noteY, Hub.setY]

theorem Hub.sourceLost_raises (h : Hub) : h.Raises [.tb, .tiu, .evt, .jrn, .sto] h.sourceLost := by
  have noted : ∀ k : Hub, k.onlyIn [.tb, .tiu] k.slewNote := fun k => by simp [Hub.onlyIn_iff]
  have frozen : ∀ (k : Hub) (now : Nat), k.onlyIn [.tb, .tiu] (k.freezeY now) := fun k now => Hub.onlyIn_mono (k.freezeY_onlyIn now) (by decide)
  unfold Hub.sourceLost
  extract_lets g u k _
  have lost : h.onlyIn [.tb, .tiu] g := noted h
  have kept : h.onlyIn [.tb, .tiu] k := Hub.onlyIn_trans lost (frozen g _)
  clear_value g k
  split
  · exact Hub.raises_of_time (Hub.onlyIn_trans kept (by simp [Hub.onlyIn_iff]))
  · unfold Hub.enterHoldover
    extract_lets j u k _ t
    have kept : h.onlyIn [.tb, .tiu] k := Hub.onlyIn_trans (Hub.onlyIn_trans lost (noted g)) (frozen j _)
    clear_value k
    exact (Hub.raises_of_time (Hub.onlyIn_trans kept (by simp [Hub.onlyIn_iff, t]))).trans (Hub.sourceChanged_raises t)

theorem Hub.setQual_net_raises (h : Hub) (q : Bool) : h.Raises [.tb, .tiu, .evt, .jrn, .sto] (h.setQual .net q) := by
  unfold Hub.setQual
  extract_lets _ g
  have marked : h.Raises [.tb, .tiu, .evt, .jrn, .sto] g := Hub.raises_of_time (by simp [Hub.onlyIn_iff, g])
  have tracked : ∀ k : Hub, k.Raises [.tb, .tiu, .evt, .jrn, .sto] k.trackCand := fun k =>
    Hub.raises_of_time (by simp [Hub.onlyIn_iff, Hub.trackCand])
  clear_value g
  split
  · exact (marked.trans g.sourceLost_raises).trans (tracked _)
  · exact marked.trans (tracked _)

/-! ### What the operations of a port change -/

/-- From `h` to `g` port `p` came to be `x`, the other ports stay, and events may have been raised. -/
structure Hub.Serves (p : Nat) (x : Port) (h g : Hub) : Prop where
  raises : h.Raises [.net, .tb, .tiu, .evt, .jrn, .sto] g
  own : g.port p = x
  others : ∀ k, k ≠ p → g.port k = h.port k
  vseq : g.net.vseq = h.net.vseq
  failovers : g.net.failovers = h.net.failovers

theorem Hub.Serves.trans {p : Nat} {x y : Port} {h g t : Hub} (hg : h.Serves p x g) (gt : g.Serves p y t) : h.Serves p y t :=
  ⟨hg.raises.trans gt.raises, gt.own, fun k hk => (gt.others k hk).trans (hg.others k hk), gt.vseq.trans hg.vseq,
    gt.failovers.trans hg.failovers⟩

/-- What moves nothing of the network may follow. -/
theorem Hub.Serves.keeps {p : Nat} {x : Port} {h g t : Hub} (hg : h.Serves p x g) (gt : g.Serves p (g.port p) t) : h.Serves p x t :=
  hg.own ▸ hg.trans gt

/-- The port comes to be the same by another name. -/
theorem Hub.Serves.of_eq {p : Nat} {x y : Port} {h g : Hub} (hg : h.Serves p x g) (e : x = y) : h.Serves p y g := e ▸ hg

/-- What leaves the network alone leaves the port as it is. -/
theorem Hub.serves_of_raises {h g : Hub} (p : Nat) (hr : h.Raises [.tb, .tiu, .evt, .jrn, .sto] g) : h.Serves p (h.port p) g := by
  have net : g.net = h.net := hr.only .net (by decide)
  have ports : ∀ k, g.port k = h.port k := fun k => by rw [Hub.port, Hub.port, net]
  exact ⟨hr.mono (by decide), ports p, fun k _ => ports k, by rw [net], by rw [net]⟩

/-- A change of the network that keeps the ports and the counts of verdicts. -/
theorem Hub.serves_net (h : Hub) (p : Nat) (n : NetSt) (hp : n.ports = h.net.ports) (hv : n.vseq = h.net.vseq)
    (hf : n.failovers = h.net.failovers) : h.Serves p (h.port p) { h with net := n } :=
  ⟨(Hub.raises_of_onlyIn (cs := [.net]) (by simp [Hub.onlyIn_iff]) (by decide) (by decide)).mono (by decide),
    congrArg (Tab.get · p) hp, fun k _ => congrArg (Tab.get · k) hp, hv, hf⟩

theorem Hub.setPort_serves (h : Hub) (p : Nat) (x : Port) : h.Serves p x (h.setPort p x) :=
  ⟨(Hub.raises_of_onlyIn (h.setPort_onlyIn p x) (by decide) (by decide)).mono (by decide), by simp, by simp +contextual, rfl, rfl⟩

theorem Hub.setPtp_serves (h : Hub) (p : Nat) (x : Ptp) : h.Serves p { h.port p with ptp := x } (h.setPtp p x) := h.setPort_serves p _

theorem Hub.raise_serves (h : Hub) (p ev : Nat) (data : List Byte) : h.Serves p (h.port p) (h.raise ev data) :=
  Hub.serves_of_raises p ((h.raise_records ev data).raises.mono (by decide))

theorem Hub.rrDone_serves (h : Hub) (p : Nat) (r : RrResult) : h.Serves p (h.port p) (h.rrDone r) := h.raise_serves p _ _

theorem Hub.setCauses_serves (h : Hub) (p n : Nat) : h.Serves p (h.port p) (h.setCauses n) := h.serves_net p _ rfl rfl rfl

theorem Hub.noteCauses_serves (h : Hub) (p : Nat) : h.Serves p (h.port p) h.noteCauses := h.setCauses_serves p _

/-! ### Servo states (R224, R253) -/

/-- A servo that changes to state `s` at XO count `now`. -/
def Ptp.to (x : Ptp) (s : Servo) (now : Nat) : Ptp :=
  { x with servo := s, lockRun := 0, outRun := 0, stepped := x.stepped && !(s == .acquiring), syncAt := if s == .acquiring then now else x.syncAt }

/-- On the active port the source NET and the path mark follow the servo. -/
theorem Hub.servoTo_serves (h : Hub) (p : Nat) (s : Servo) :
    h.Serves p { h.port p with ptp := (h.port p).ptp.to s h.xoCycles } (h.servoTo p s) := by
  have moved := h.setPtp_serves p ((h.port p).ptp.to s h.xoCycles)
  have follows : ∀ g : Hub, g.Serves p (g.port p) (if g.tb.qNet = s.qualified then g else g.setQual .net s.qualified) := by
    intro g
    split
    · exact Hub.serves_of_raises p (.refl g _)
    · exact Hub.serves_of_raises p (g.setQual_net_raises _)
  have marked : ∀ (g : Hub) (b : TbSt), g.Serves p (g.port p) { g with tb := b } := fun g b =>
    Hub.serves_of_raises p (Hub.raises_of_time (by simp [Hub.onlyIn_iff]))
  unfold Hub.servoTo
  extract_lets _ x acq g _ k m
  have moved : h.Serves p _ g := moved
  have net : g.Serves p (g.port p) m := (marked g _).keeps (follows k)
  clear_value g m
  split
  · exact (moved.keeps net).keeps (m.noteCauses_serves p)
  · exact moved

/-- What a master change, a change of path or NET_PTP_SET makes of a servo before it takes its new state. -/
def Ptp.restarted (x : Ptp) : Ptp :=
  { x with dHist := [], baseline := none, oHist := [], bad := [], back := 0, stepped := false, winSecs := 0, deltas := [], secO := [], secQ := []
           noWindow := false, sync := none }

theorem Hub.servoRestart_serves (h : Hub) (p : Nat) (s : Servo) (r : RrResult) :
    h.Serves p { h.port p with ptp := (h.port p).ptp.restarted.to s h.xoCycles } (h.servoRestart p s r) := by
  have moved : h.Serves p { h.port p with ptp := (h.port p).ptp.restarted.to s h.xoCycles } ((h.setPtp p (h.port p).ptp.restarted).servoTo p s) :=
    ((h.setPtp_serves p _).trans (Hub.servoTo_serves _ p s)).of_eq (by simp)
  unfold Hub.servoRestart
  extract_lets _ x held g k
  have moved : h.Serves p _ k := moved
  clear_value k
  split
  · exact moved.keeps (Hub.rrDone_serves _ p r)
  · exact moved

/-- A servo that takes its new path, whose asymmetry is verified or not (R255, R256). -/
def Ptp.rerouted (x : Ptp) (unver : Bool) : Ptp :=
  { x with d := x.bad.head?.or x.d, bad := [], back := 0, dHist := [], baseline := none, asymUnverified := unver, noWindow := false }

theorem Hub.newPath_serves (h : Hub) (p : Nat) (s : Servo) (unver : Bool) (r : RrResult) :
    h.Serves p { h.port p with ptp := ((h.port p).ptp.rerouted unver).to s h.xoCycles } (h.newPath p s unver r) :=
  (((h.setPtp_serves p ((h.port p).ptp.rerouted unver)).trans (Hub.servoTo_serves _ p s)).of_eq (by simp)).keeps (Hub.rrDone_serves _ p r)

end Sys2Proof.Machine

/-! PROOFS. PTP messages on a network port (O48). -/
namespace Sys2Proof.Machine

/-! ### Acceptance (R249, R250, R257, R258) -/

/-- A row that gives port `p` another PTP engine changes nothing else. -/
theorem does_setPtp {i : Instr} {s : State} {f : Hub → Hub} {p : Nat} {x : Ptp} (hi : exec i s = s.row f) (hp : s.hub.powered = true)
    (hf : f s.hub = s.hub.setPtp p x) :
    Does i s [.net] fun t => t.port p = { s.hub.port p with ptp := x } ∧ ∀ k, k ≠ p → t.port k = s.hub.port k :=
  does_row hi hp (hf ▸ s.hub.setPtp_onlyIn p x) (hf ▸ ⟨by simp, by simp +contextual⟩)

/-- A message that is accepted has come over a link. -/
theorem Hub.link_of_ptpAccept {h : Hub} {p : Nat} {m : PtpHead} (ha : h.ptpAccept p m = (h, true)) : (h.port p).link = true := by
  by_contra hl
  have dropped : h.ptpAccept p m = (h, false) := by simp [Hub.ptpAccept, hl]
  exact absurd (congrArg Prod.snd (dropped.symm.trans ha)) Bool.false_ne_true

/-- An accepted message is stamped unless ROOT's domains are held (R253). -/
theorem Hub.ptpStamped_of_ptpAccept {h : Hub} {p : Nat} {m : PtpHead} (ha : h.ptpAccept p m = (h, true)) :
    h.ptpStamped p m = (h, !h.clk.held) := by
  simp [Hub.ptpStamped, ha]

/-- A message of another domain is counted. -/
theorem Hub.ptpStamped_domain {h : Hub} {p : Nat} {m : PtpHead} (ha : h.net.active = some p) (he : (h.portCfg p).ptp.enable = true)
    (hl : (h.port p).link = true) (hd : m.domain ≠ (h.portCfg p).ptp.domain) : h.ptpStamped p m = (h.ptpIgnore p, false) := by
  simp [Hub.ptpStamped, Hub.ptpAccept, Hub.isActive, ha, he, hl, hd]

section
variable {h : Hub} {p : Nat} {m : PtpHead} {seq : Nat} {t1 corr : Int}

/-! ### Sync and Follow_Up (R252) -/

/-- In SUSPECT a complete Sync is kept and steers nothing (R254). -/
theorem Hub.ptpSync_suspect (s : Int × Int × Int) (hs : (h.port p).ptp.servo = .suspect) :
    h.ptpSync p s = h.setPtp p { (h.port p).ptp with lastSync := some s } := by
  simp [Hub.ptpSync, hs]

theorem ptpSyncReceive_twoStep (ha : h.ptpAccept p m = (h, true)) (hh : h.clk.held = false)
    (hm : (h.port p).ptp.master = some (m.sender, m.portNo)) : ptpSyncReceive p m seq true t1 corr h =
      h.setPtp p { (h.port p).ptp with sync := some (seq, h.ingress p, corr), syncAt := h.xoCycles, syncLog := m.logInt } := by
  simp [ptpSyncReceive, Hub.ptpStamped_of_ptpAccept ha, hh, hm]

theorem ptpSyncReceive_oneStep_suspect (ha : h.ptpAccept p m = (h, true)) (hh : h.clk.held = false)
    (hm : (h.port p).ptp.master = some (m.sender, m.portNo)) (hs : (h.port p).ptp.servo = .suspect) :
    ptpSyncReceive p m seq false t1 corr h =
      h.setPtp p { (h.port p).ptp with lastSync := some (t1, h.ingress p, corr), syncAt := h.xoCycles, syncLog := m.logInt } := by
  simp [ptpSyncReceive, Hub.ptpStamped_of_ptpAccept ha, hh, hm, Hub.ptpSync_suspect, hs]

theorem ptpSyncReceive_domain (twoStep : Bool) (ha : h.net.active = some p) (he : (h.portCfg p).ptp.enable = true)
    (hl : (h.port p).link = true) (hd : m.domain ≠ (h.portCfg p).ptp.domain) : ptpSyncReceive p m seq twoStep t1 corr h = h.ptpIgnore p := by
  simp [ptpSyncReceive, Hub.ptpStamped_domain ha he hl hd]

theorem ptpFollowUpReceive_suspect {t2 c : Int} (ha : h.ptpAccept p m = (h, true)) (hh : h.clk.held = false)
    (hm : (h.port p).ptp.master = some (m.sender, m.portNo)) (hq : (h.port p).ptp.sync = some (seq, t2, c))
    (hs : (h.port p).ptp.servo = .suspect) : ptpFollowUpReceive p m seq t1 corr h =
      h.setPtp p { (h.port p).ptp with sync := none, lastSync := some (t1, t2, c + corr) } := by
  simp [ptpFollowUpReceive, Hub.ptpStamped_of_ptpAccept ha, hh, hm, hq, Hub.ptpSync_suspect, hs]

theorem ptpFollowUpReceive_noSync (ha : h.ptpAccept p m = (h, true)) (hq : (h.port p).ptp.sync = none) :
    ptpFollowUpReceive p m seq t1 corr h = h := by
  simp [ptpFollowUpReceive, Hub.ptpStamped_of_ptpAccept ha, hq]

/-! ### Delay measurement (R252) -/

/-- While the servo acquires, every measurement is accepted (R254). -/
theorem Hub.delayMeas_acquiring (d : Int) (hs : (h.port p).ptp.servo = .acquiring) : h.delayMeas p d = h.delayAccept p d := by
  simp [Hub.delayMeas, hs]

/-- What an accepted measurement makes of a servo. -/
def Ptp.measured (x : Ptp) (d : Int) : Ptp :=
  { x with d := some d, dHist := (d :: x.dHist).take 16
           baseline := if ((d :: x.dHist).take 16).length = 16 then some (meanOf ((d :: x.dHist).take 16)) else x.baseline }

theorem Hub.delayAccept_eq (d : Int) : h.delayAccept p d = h.setPtp p ((h.port p).ptp.measured d) := rfl

theorem ptpDelayRespReceive_acquiring {t4 a1 a2 c : Int} {r : DelReq} (ha : h.ptpAccept p m = (h, true)) (hh : h.clk.held = false)
    (hm : (h.port p).ptp.master = some (m.sender, m.portNo)) (hr : (h.port p).ptp.req = some r) (hq : r.seq = seq)
    (hl : (h.port p).ptp.lastSync = some (a1, a2, c)) (he : (h.portCfg p).ptp.p2p = false) (hs : (h.port p).ptp.servo = .acquiring) :
    ptpDelayRespReceive p m seq t4 corr h =
      h.setPtp p (Ptp.measured { (h.port p).ptp with req := none } (roundDiv ((a2 - r.t3) + (t4 - a1) - c - corr) 2)) := by
  simp [ptpDelayRespReceive, Hub.ptpStamped_of_ptpAccept ha, hh, hm, hr, hq, hl, he, Hub.delayMeas_acquiring, Hub.delayAccept_eq, hs]

theorem ptpPdelayRespReceive_twoStep {t0 : Int} {r : DelReq} (ha : h.ptpAccept p m = (h, true)) (hh : h.clk.held = false)
    (he : (h.portCfg p).ptp.p2p = true) (hr : (h.port p).ptp.req = some r) (hq : r.seq = seq) :
    ptpPdelayRespReceive p m seq false true t0 corr h =
      h.setPtp p { (h.port p).ptp with pResp := some (seq, h.ingress p, t0, corr) } := by
  simp [ptpPdelayRespReceive, Hub.ptpStamped_of_ptpAccept ha, hh, he, hr, hq]

theorem ptpPdelayRespReceive_followUp_acquiring {t0 a4 a2 c : Int} {r : DelReq} (twoStep : Bool) (ha : h.ptpAccept p m = (h, true))
    (hh : h.clk.held = false) (he : (h.portCfg p).ptp.p2p = true) (hr : (h.port p).ptp.req = some r) (hq : r.seq = seq)
    (hl : (h.port p).ptp.pResp = some (seq, a4, a2, c)) (hs : (h.port p).ptp.servo = .acquiring) :
    ptpPdelayRespReceive p m seq true twoStep t0 corr h =
      h.setPtp p (Ptp.measured { (h.port p).ptp with pResp := none, req := none } (roundDiv ((a4 - r.t3) - (t0 - a2) - c - corr) 2)) := by
  simp [ptpPdelayRespReceive, Hub.ptpStamped_of_ptpAccept ha, hh, he, hr, hq, hl, Hub.delayMeas_acquiring, Hub.delayAccept_eq, hs]

/-! ### Masters (R248, R253) -/

/-- The master that an Announce describes, heard now; `prev` is when its Announce before came. -/
def Hub.hears (h : Hub) (m : PtpHead) (ann : Announce) (prev : Option Nat) : Heard :=
  { ann := { ann with id := m.sender, port := m.portNo }, at_ := h.xoCycles, prev := prev, logInt := m.logInt }

/-- A master heard for the first time does not yet qualify (log entry 14). -/
theorem ptpAnnounceReceive_first (ann : Announce) (ha : h.ptpAccept p m = (h, true)) (hm : (h.port p).ptp.masters = []) :
    ptpAnnounceReceive p m ann h = h.setPtp p { (h.port p).ptp with masters := [h.hears m ann none] } := by
  simp [ptpAnnounceReceive, ha, hm, Hub.qualifies, bestMaster, Hub.hears]

/-- The one master heard qualifies with its second Announce within 4 intervals (log entry 14), and is taken. -/
theorem ptpAnnounceReceive_better {ann : Announce} {o : Heard} (ha : h.ptpAccept p m = (h, true)) (hm : (h.port p).ptp.masters = [o])
    (hi : o.ann.id = m.sender) (hn : o.ann.port = m.portNo) (hs : ann.steps < 255)
    (hq : h.xoCycles ≤ o.at_ + intervalXo 4 (h.annLog p (h.hears m ann (some o.at_)))) (hd : (h.port p).ptp.master ≠ some (m.sender, m.portNo)) :
    ptpAnnounceReceive p m ann h =
      (h.setPtp p { (h.port p).ptp with masters := [h.hears m ann (some o.at_)], master := some (m.sender, m.portNo), d := none, req := none,
                                        lastSync := none }).servoRestart p .acquiring .abandoned := by
  have qualifies : ∀ x : Ptp, (h.setPtp p x).qualifies p (h.hears m ann (some o.at_)) = true := fun x => by
    rw [Hub.qualifies]
    exact Bool.and_eq_true_iff.mpr ⟨decide_eq_true hs, decide_eq_true hq⟩
  simp only [Hub.hears] at qualifies ⊢
  simp [ptpAnnounceReceive, ha, hm, hi, hn, hd, qualifies, bestMaster]

/-! ### Messages that leave (R248, R252, R262) -/

@[simp] theorem Hub.send_guardBlocks (x : Tx) (len : Nat) (lead : Int) : (h.send x).guardBlocks p len lead = h.guardBlocks p len lead := rfl
@[simp] theorem Hub.send_ptpLen (x : Tx) (type : Nat) : (h.send x).ptpLen p type = h.ptpLen p type := rfl
theorem Hub.send_onlyIn (h : Hub) (x : Tx) : h.onlyIn [.tx] (h.send x) := by simp [Hub.onlyIn_iff]

/-- A port's engine holds none of its launches. -/
@[simp] theorem Hub.setPtp_guardBlocks (x : Ptp) (len : Nat) (lead : Int) : (h.setPtp p x).guardBlocks p len lead = h.guardBlocks p len lead := by
  have own : (h.setPtp p x).port p = { h.port p with ptp := x } := by simp
  unfold Hub.guardBlocks Hub.launchNext
  rw [own]
  rfl
@[simp] theorem Hub.setPtp_ptpLen (x : Ptp) (type : Nat) : (h.setPtp p x).ptpLen p type = h.ptpLen p type := rfl

theorem Hub.ptpSend_send (h : Hub) (p type seq : Nat) (stamp : Int) : ∃ a b, h.ptpSend p type seq stamp = h.send (.ptp p a type b) := ⟨_, _, rfl⟩

/-- A message of PTP waits for the guard of a launch alone. -/
theorem Hub.msgWaits_of_not_ferry {x : PortMsg} (lead : Int) (hx : x.isFerry = false) :
    h.msgWaits p x lead = ((h.port p).link && h.guardBlocks p (h.msgLen p x) lead) := by
  simp [Hub.msgWaits, hx]

/-- Where no guard blocks it, a Pdelay_Resp leaves one-step, or with its Follow_Up, which has the same length. -/
theorem Hub.msgOut_pdelayResp (t2 : Int) (hg : h.guardBlocks p (h.ptpLen p 3) = false) :
    ((h.portCfg p).ptp.oneStep = true → ∃ a b, h.msgOut p (.pdelayResp seq t2) = h.send (.ptp p a 3 b)) ∧
    ((h.portCfg p).ptp.oneStep = false → ∃ a b c d, h.msgOut p (.pdelayResp seq t2) = (h.send (.ptp p a 3 b)).send (.ptp p c 10 d)) := by
  have goes : h.msgWaits p (.pdelayResp seq t2) 0 = false := by
    rw [Hub.msgWaits_of_not_ferry 0 rfl]
    simp [Hub.msgLen, hg]
  constructor
  · intro one
    simp only [Hub.msgOut, goes, one, if_true, Bool.false_eq_true, if_false]
    exact h.ptpSend_send p 3 seq _
  · intro two
    simp only [Hub.msgOut, goes, two, Bool.false_eq_true, if_false]
    obtain ⟨a, b, resp⟩ := h.ptpSend_send p 3 seq t2
    rw [resp]
    have follows : (h.send (.ptp p a 3 b)).msgWaits p (.followUp seq (h.egress p + 0)) 0 = false := by
      rw [Hub.msgWaits_of_not_ferry 0 rfl]
      have same : h.ptpLen p 10 = h.ptpLen p 3 := rfl
      simp [Hub.msgLen, same, hg]
    rw [if_neg (ne_true_of_eq_false follows)]
    obtain ⟨c, d, follow⟩ := Hub.ptpSend_send (h.send (.ptp p a 3 b)) p 10 seq (h.egress p + 0)
    exact ⟨a, b, c, d, follow⟩

theorem ptpPdelayReqReceive_accepted (ha : h.ptpAccept p m = (h, true)) (hh : h.clk.held = false) (he : (h.portCfg p).ptp.p2p = true) :
    ptpPdelayReqReceive p m seq h = h.msgOut p (.pdelayResp seq (h.ingress p)) := by
  simp [ptpPdelayReqReceive, Hub.ptpStamped_of_ptpAccept ha, hh, he]

theorem Hub.msgOut_pdelayResp_waits (t2 : Int) (hl : (h.port p).link = true) (hg : h.guardBlocks p (h.ptpLen p 3) = true) :
    h.msgOut p (.pdelayResp seq t2) = h.setPort p { h.port p with defer := (h.port p).defer ++ [.pdelayResp seq t2] } := by
  have waits : h.msgWaits p (.pdelayResp seq t2) 0 = true := by
    rw [Hub.msgWaits_of_not_ferry 0 rfl]
    simp [Hub.msgLen, hl, hg]
  rw [Hub.msgOut, if_pos waits, Hub.msgWait]

theorem ptpPdelayReqReceive_e2e (ha : h.ptpAccept p m = (h, true)) (he : (h.portCfg p).ptp.p2p = false) : ptpPdelayReqReceive p m seq h = h := by
  simp [ptpPdelayReqReceive, Hub.ptpStamped_of_ptpAccept ha, he]

/-- The request interval has passed, and the next request leaves with the next sequenceId. -/
theorem ptpDelayReqTimer_requests (ha : h.net.active = some p) (he : (h.portCfg p).ptp.enable = true) (hh : h.clk.held = false)
    (hl : (h.port p).link = true) (hm : (h.portCfg p).ptp.p2p = true ∨ (h.port p).ptp.master.isSome = true)
    (hd : ∀ a, (h.port p).ptp.reqAt = some a → a + intervalXo 1 (h.portCfg p).ptp.logDelay ≤ h.xoCycles)
    (hg : h.guardBlocks p (h.msgLen p .request) = false) :
    ptpDelayReqTimer p h = (h.setPtp p { (h.port p).ptp with reqAt := some h.xoCycles }).ptpRequest p 0 := by
  have due : (match (h.port p).ptp.reqAt with | some t => decide (t + intervalXo 1 (h.portCfg p).ptp.logDelay ≤ h.xoCycles) | none => true) = true := by
    split
    · next a ht => exact decide_eq_true (hd a ht)
    · rfl
  have master : (!(h.portCfg p).ptp.p2p && (h.port p).ptp.master.isNone) = false := by
    rcases hm with e | e <;> simp [e]
  unfold ptpDelayReqTimer
  extract_lets c x d
  rw [show d = true from due, if_neg (by simp [Hub.isActive, ha, c, he, hl, hh, x, master])]
  have free : (h.setPtp p { x with reqAt := some h.xoCycles }).guardBlocks p (h.msgLen p .request) 0 = false :=
    (Hub.setPtp_guardBlocks _ _ _).trans hg
  have goes : (h.setPtp p { x with reqAt := some h.xoCycles }).msgWaits p .request 0 = false :=
    (Hub.msgWaits_of_not_ferry 0 rfl).trans ((congrArg _ free).trans (Bool.and_false _))
  simp only [Hub.msgOut, goes, Bool.false_eq_true, if_false]

/-- A request that leaves is a Pdelay_Req or a Delay_Req, with the next sequenceId of its kind. -/
theorem Hub.ptpRequest_leaves (h : Hub) (p : Nat) (lead : Int) : ∃ x type a b, h.ptpRequest p lead = (h.setPtp p x).send (.ptp p a type b) ∧
    x.req.isSome = true ∧ x.reqAt = (h.port p).ptp.reqAt ∧
    ((h.portCfg p).ptp.p2p = true → type = 2 ∧ x.pdreqSeq = ((h.port p).ptp.pdreqSeq + 1) % 65536) ∧
    ((h.portCfg p).ptp.p2p = false → type = 1 ∧ x.dreqSeq = ((h.port p).ptp.dreqSeq + 1) % 65536) := by
  unfold Hub.ptpRequest
  cases he : (h.portCfg p).ptp.p2p with
  | true => exact ⟨_, _, _, _, rfl, rfl, rfl, fun _ => ⟨rfl, rfl⟩, nofun⟩
  | false => exact ⟨_, _, _, _, rfl, rfl, rfl, nofun, fun _ => ⟨rfl, rfl⟩⟩

@[simp] theorem Hub.send_port (x : Tx) (k : Nat) : (h.send x).port k = h.port k := rfl
theorem Hub.setPtp_send_onlyIn (h : Hub) (p : Nat) (x : Ptp) (m : Tx) : h.onlyIn [.net, .tx] ((h.setPtp p x).send m) :=
  Hub.onlyIn_trans (Hub.onlyIn_mono (h.setPtp_onlyIn p x) (by decide)) (Hub.onlyIn_mono (Hub.send_onlyIn _ m) (by decide))

end

/-- Settles O48: the row of each message gives port `p` another engine, and a better master restarts its servo (`Hub.servoRestart_serves`). What
the port answers leaves unless the guard of a launch lets it wait. -/
theorem ptpRows : Obligations.PtpRows := by
  unfold Obligations.PtpRows
  refine ⟨?_, ?_, ?_, ?_, ?_, ?_, ?_, ?_, ?_, ?_, ?_, ?_, ?_, ?_, ?_, ?_⟩
  · intro s p m seq twoStep t1 corr hp ha hh hm htwo
    subst htwo
    exact does_setPtp rfl hp (ptpSyncReceive_twoStep ha hh hm)
  · intro s p m seq twoStep t1 corr hp ha hh hm hone hs
    subst hone
    exact does_setPtp rfl hp (ptpSyncReceive_oneStep_suspect ha hh hm hs)
  · intro s p m seq twoStep t1 corr hp ha he _ hl hd
    exact does_setPtp rfl hp (ptpSyncReceive_domain twoStep ha he hl hd)
  · intro s p m seq t1 corr t2 c hp ha hh hm hq hs
    exact does_setPtp rfl hp (ptpFollowUpReceive_suspect ha hh hm hq hs)
  · intro s p m seq t1 corr hp ha hq
    exact does_nothing rfl hp (ptpFollowUpReceive_noSync ha hq)
  · intro s p m seq t4 corr r a1 a2 c hp ha hh hm hr hq hl he hs
    refine does_row rfl hp ?_ ?_ <;> rw [ptpDelayRespReceive_acquiring ha hh hm hr hq hl he hs]
    · exact s.hub.setPtp_onlyIn _ _
    · simp +contextual [Ptp.measured, hs]
  · intro s p m ann hp ha hm
    exact does_setPtp rfl hp (ptpAnnounceReceive_first ann ha hm)
  · intro s p m ann o hp ha hm hi hn hs hq hd
    have restart := (s.hub.setPtp_serves p _).trans (Hub.servoRestart_serves (s.hub.setPtp p { (s.hub.port p).ptp with
      masters := [s.hub.hears m ann (some o.at_)], master := some (m.sender, m.portNo), d := none, req := none, lastSync := none }) p .acquiring
      .abandoned)
    rw [← ptpAnnounceReceive_better ha hm hi hn hs hq hd] at restart
    refine does_row rfl hp (Hub.onlyIn_mono restart.raises.only (by decide)) ?_
    rw [restart.own]
    exact ⟨by simp [Ptp.to, Ptp.restarted], rfl, by simp [Ptp.to, Ptp.restarted], rfl, by simp [Ptp.to, Ptp.restarted, Hub.hears], restart.others⟩
  · intro s p m seq hp ha hh he hg
    obtain ⟨one, two⟩ := Hub.msgOut_pdelayResp (seq := seq) (s.hub.ingress p) hg
    rw [← ptpPdelayReqReceive_accepted ha hh he] at one two
    cases hone : (s.hub.portCfg p).ptp.oneStep with
    | true =>
      obtain ⟨a, b, sent⟩ := one hone
      exact does_row rfl hp (sent ▸ Hub.send_onlyIn _ _) ⟨fun _ => ⟨a, b, by rw [sent]; rfl⟩, nofun⟩
    | false =>
      obtain ⟨a, b, c, d, sent⟩ := two hone
      exact does_row rfl hp (sent ▸ Hub.onlyIn_trans (Hub.send_onlyIn _ _) (Hub.send_onlyIn _ _))
        ⟨nofun, fun _ => ⟨a, b, c, d, by rw [sent]; simp [Hub.send]⟩⟩
  · intro s p m seq hp ha hh he hg
    have waits := (ptpPdelayReqReceive_accepted (seq := seq) ha hh he).trans (Hub.msgOut_pdelayResp_waits _ (Hub.link_of_ptpAccept ha) hg)
    refine does_row rfl hp ?_ ?_ <;> rw [waits]
    · exact s.hub.setPort_onlyIn _ _
    · simp +contextual
  · intro s p m seq hp ha he
    exact does_nothing rfl hp (ptpPdelayReqReceive_e2e ha he)
  · intro s p m seq followUp twoStep t0 corr r hp ha hh he hf ht hr hq
    subst hf ht
    exact does_setPtp rfl hp (ptpPdelayRespReceive_twoStep ha hh he hr hq)
  · intro s p m seq followUp twoStep t0 corr r a4 a2 c hp ha hh he hf hr hq hl hs
    subst hf
    refine does_row rfl hp ?_ ?_ <;> rw [ptpPdelayRespReceive_followUp_acquiring twoStep ha hh he hr hq hl hs]
    · exact s.hub.setPtp_onlyIn _ _
    · simp +contextual [Ptp.measured]
  · intro s p hp ha he hh hl hm hd hg
    have requests := ptpDelayReqTimer_requests ha he hh hl hm hd hg
    obtain ⟨x, type, a, b, leaves, req, reqAt, peer, endToEnd⟩ :=
      Hub.ptpRequest_leaves (s.hub.setPtp p { (s.hub.port p).ptp with reqAt := some s.hub.xoCycles }) p 0
    rw [← requests, Hub.setPtp_setPtp] at leaves
    simp only [Hub.setPtp_port, if_true] at reqAt peer endToEnd
    refine does_row rfl hp ?_ ?_ <;> rw [leaves]
    · exact s.hub.setPtp_send_onlyIn _ _ _
    · simp only [Hub.send_port, Hub.setPtp_port, if_true]
      refine ⟨fun he => ?_, fun he => ?_, req, reqAt, fun k hk => if_neg hk⟩
      · obtain ⟨rfl, next⟩ := peer he
        exact ⟨next, a, b, rfl⟩
      · obtain ⟨rfl, next⟩ := endToEnd he
        exact ⟨next, a, b, rfl⟩
  · intro s p hp ha he
    exact does_setPtp rfl hp (by simp [ptpMessageIgnored, Hub.isActive, ha, he, Hub.ptpIgnore])
  · intro s p hp ha
    exact does_nothing rfl hp (by simp [ptpMessageIgnored, Hub.isActive, ha])

end Sys2Proof.Machine

/-! PROOFS. What goes out on a network port (O49). -/
namespace Sys2Proof.Machine

/-! ### What waited on a port goes out (R260, R262) -/

/-- A port but for its engine and what waits to leave it. -/
def Port.rest (x : Port) : Port := { x with ptp := {}, defer := [] }

theorem Port.eq_of_rest {x y : Port} (hr : x.rest = y.rest) (hp : x.ptp = y.ptp) : x = { y with defer := x.defer } := by
  cases x
  cases y
  simp_all [Port.rest]

/-- From `h` to `g` messages of port `p` left or waited: no host frame went out. -/
structure Hub.Drains (p : Nat) (h g : Hub) : Prop where
  only : h.onlyIn [.net, .tx] g
  sent : h.tx <+: g.tx
  frames : ∀ q b, .frame q b ∈ g.tx → .frame q b ∈ h.tx
  own : (g.port p).rest = (h.port p).rest
  others : ∀ k, k ≠ p → g.port k = h.port k
  queue : g.net.queue = h.net.queue
  busy : g.net.busy = h.net.busy

theorem Hub.Drains.refl (p : Nat) (h : Hub) : h.Drains p h :=
  ⟨h.onlyIn_refl _, List.prefix_refl _, fun _ _ hb => hb, rfl, fun _ _ => rfl, rfl, rfl⟩

theorem Hub.Drains.trans {p : Nat} {h g t : Hub} (hg : h.Drains p g) (gt : g.Drains p t) : h.Drains p t :=
  ⟨Hub.onlyIn_trans hg.only gt.only, hg.sent.trans gt.sent, fun q b hb => hg.frames q b (gt.frames q b hb), gt.own.trans hg.own,
    fun k hk => (gt.others k hk).trans (hg.others k hk), gt.queue.trans hg.queue, gt.busy.trans hg.busy⟩

theorem Hub.send_drains (h : Hub) (p : Nat) {x : Tx} (hx : ∀ q b, x ≠ .frame q b) : h.Drains p (h.send x) := by
  refine ⟨by simp [Hub.onlyIn_iff], List.prefix_append _ _, fun q b hb => ?_, rfl, fun _ _ => rfl, rfl, rfl⟩
  rcases List.mem_append.mp hb with old | new
  · exact old
  · exact absurd (List.mem_singleton.mp new).symm (hx q b)

theorem Hub.setPort_drains (h : Hub) (p : Nat) {x : Port} (hx : x.rest = (h.port p).rest) : h.Drains p (h.setPort p x) :=
  ⟨Hub.onlyIn_mono (h.setPort_onlyIn p x) (by decide), List.prefix_refl _, fun _ _ hb => hb, by simpa using hx, by simp +contextual, rfl, rfl⟩

theorem Hub.ptpSend_drains (h : Hub) (p type seq : Nat) (stamp : Int) : h.Drains p (h.ptpSend p type seq stamp) := h.send_drains p nofun

theorem Hub.ptpRequest_drains (h : Hub) (p : Nat) (lead : Int) : h.Drains p (h.ptpRequest p lead) := by
  obtain ⟨x, type, a, b, leaves, -⟩ := h.ptpRequest_leaves p lead
  have written : h.Drains p (h.setPtp p x) := h.setPort_drains p rfl
  rw [leaves]
  exact written.trans (Hub.send_drains _ p nofun)

theorem Hub.msgWait_drains (h : Hub) (p : Nat) (m : PortMsg) : h.Drains p (h.msgWait p m) := h.setPort_drains p rfl

theorem Hub.msgOut_drains (h : Hub) (p : Nat) (m : PortMsg) (lead : Int) : h.Drains p (h.msgOut p m lead) := by
  unfold Hub.msgOut
  split
  · exact h.msgWait_drains p m
  · cases m with
    | request => exact h.ptpRequest_drains p lead
    | pdelayResp seq t2 =>
      dsimp only
      split
      · exact h.ptpSend_drains p _ _ _
      · split
        · exact (h.ptpSend_drains p _ _ _).trans (Hub.msgWait_drains _ p _)
        · exact (h.ptpSend_drains p _ _ _).trans (Hub.ptpSend_drains _ p _ _ _)
    | followUp seq t3 => exact h.ptpSend_drains p _ _ _
    | ferry kind n dest header body => exact h.send_drains p nofun
    | net kind v6 body => exact h.send_drains p nofun

theorem Hub.portDrain_drains (h : Hub) (p : Nat) (lead : Int) : h.Drains p (h.portDrain p lead) := by
  unfold Hub.portDrain
  extract_lets l
  refine List.foldlRecOn (motive := fun a : Hub × Int => h.Drains p a.1) _ _ (h.setPort_drains p rfl) fun a ha m _ => ?_
  exact ha.trans (Hub.msgOut_drains _ p m _)

/-- What is no event message leaves the engine alone. -/
theorem Hub.msgOut_ptp (h : Hub) (p : Nat) {m : PortMsg} (lead : Int) (hm : m.event = false) :
    ((h.msgOut p m lead).port p).ptp = (h.port p).ptp := by
  unfold Hub.msgOut
  split
  · simp [Hub.msgWait]
  · cases m with
    | request => exact nomatch (show true = false from hm)
    | pdelayResp seq t2 => exact nomatch (show true = false from hm)
    | followUp seq t3 => rfl
    | ferry kind n dest header body => rfl
    | net kind v6 body => rfl

theorem Hub.portDrain_ptp (h : Hub) (p : Nat) (lead : Int) (hd : (h.port p).defer.any PortMsg.event = false) :
    ((h.portDrain p lead).port p).ptp = (h.port p).ptp := by
  have quiet : ∀ m ∈ (h.port p).defer, m.event = false := by simpa using hd
  unfold Hub.portDrain
  extract_lets l x
  refine List.foldlRecOn (motive := fun a : Hub × Int => (a.1.port p).ptp = (h.port p).ptp) _ _ (by simp [x]) fun a ha m hm => ?_
  have member : m ∈ (h.port p).defer := by
    rcases List.mem_append.mp hm with e | e
    · exact (List.mem_filter.mp e).1
    · exact (List.mem_filter.mp e).1
  exact (a.1.msgOut_ptp p a.2 (quiet m member)).trans ha

theorem Hub.portDrain_nil (h : Hub) (p : Nat) (lead : Int) (hd : (h.port p).defer = []) :
    h.portDrain p lead = h.setPort p { h.port p with defer := [] } := by
  simp [Hub.portDrain, hd]

end Sys2Proof.Machine

/-! PROOFS. The servo, re-routes, transmit stamps and launches (O49). -/
namespace Sys2Proof.Machine

section
variable {h : Hub} {p : Nat}

/-! ### A servo without Sync (R253) -/

/-- A servo whose master has fallen silent loses it; one whose Syncs alone stay out keeps it. -/
def Ptp.silenced (x : Ptp) (announce : Bool) : Ptp :=
  if announce then { x with masters := x.masters.filter fun o => x.master != some (o.ann.id, o.ann.port), master := none, bad := [], back := 0 }
  else { x with bad := [], back := 0 }

theorem servoSyncTimeout_holdover {announce : Bool} (ha : h.net.active = some p) (he : (h.portCfg p).ptp.enable = true)
    (hh : h.clk.held = false) (hm : announce = true → h.announceOut p = true)
    (hs : announce = false → (h.port p).ptp.syncAt + intervalXo 4 (h.port p).ptp.syncLog ≤ h.xoCycles)
    (hl : (h.port p).ptp.servo = .locked ∨ (h.port p).ptp.servo = .acquiring) :
    servoSyncTimeout p announce h = (h.setPtp p ((h.port p).ptp.silenced announce)).servoTo p .holdover := by
  have runs : ¬((h.port p).ptp.servo = .disabled ∨ (h.port p).ptp.servo = .holdover) := by rcases hl with e | e <;> simp [e]
  have free : ((h.port p).ptp.servo == .suspect || (h.port p).ptp.servo == .qualHold) = false := by rcases hl with e | e <;> simp [e]
  cases announce with
  | true => simp [servoSyncTimeout, Hub.isActive, ha, he, hh, hm rfl, runs, free, Ptp.silenced]
  | false => simp [servoSyncTimeout, Hub.isActive, ha, he, hh, hs rfl, runs, free, Ptp.silenced]

theorem servoSyncTimeout_idle (announce : Bool)
    (hi : h.net.active ≠ some p ∨ (h.portCfg p).ptp.enable = false ∨ h.clk.held = true) : servoSyncTimeout p announce h = h := by
  unfold servoSyncTimeout
  extract_lets x due
  refine if_pos ?_
  rcases hi with e | e | e <;> simp [Hub.isActive, e]

/-! ### The confirmation window (R255) -/

theorem roundDiv_one (a : Int) : roundDiv a 1 = a := by
  unfold roundDiv
  split <;> omega

theorem meanOf_singleton (z : Int) : meanOf [z] = z := by simp [meanOf, roundDiv_one]

/-- Without a second source the window starts again. -/
theorem rrConfirmSecond_noSource (ha : h.net.active = some p) (hs : (h.port p).ptp.servo = .qualHold) (hw : (h.port p).ptp.noWindow = false)
    (hh : h.clk.held = false) (ht : (h.port p).ptp.winAt + 49152000 ≤ h.xoCycles) (hq : h.tb.qPps = false) (hc : h.tb.qCasc = false) :
    rrConfirmSecond h = h.setPtp p { (h.port p).ptp with winAt := (h.port p).ptp.winAt + 49152000, winSecs := 0, deltas := [], secO := [],
                                                         secQ := [] } := by
  simp [rrConfirmSecond, ha, hs, hw, hh, Nat.not_lt.mpr ht, Hub.secondSrc, hq, hc, Ptp.winRestart]

/-- A second of the window with one measurement of PPS, which agrees. -/
theorem rrConfirmSecond_pps {q z : Int} (ha : h.net.active = some p) (hs : (h.port p).ptp.servo = .qualHold)
    (hw : (h.port p).ptp.noWindow = false) (hh : h.clk.held = false) (ht : (h.port p).ptp.winAt + 49152000 ≤ h.xoCycles)
    (hq : h.tb.qPps = true) (hpre : (h.port p).ptp.qPre.1 = some q) (ho : (h.port p).ptp.secO ≠ []) (hz : (h.port p).ptp.secQ = [(false, z)])
    (hg : overNs (z - q) (h.portCfg p).ptp.rrAgree = false) (hn : (h.port p).ptp.winSecs + 1 < (h.portCfg p).ptp.rrConfirm) :
    rrConfirmSecond h = h.setPtp p { (h.port p).ptp with
      winAt := (h.port p).ptp.winAt + 49152000, winSecs := (h.port p).ptp.winSecs + 1
      deltas := (h.port p).ptp.deltas ++ [2 * (meanOf (h.port p).ptp.secO - ((h.port p).ptp.oPre + (z - q)))], secO := [], secQ := [] } := by
  simp [rrConfirmSecond, ha, hs, hw, hh, Nat.not_lt.mpr ht, Hub.secondSrc, hq, hpre, ho, hz, meanOf_singleton, hg, hn]

theorem rrConfirmSecond_idle (hi : h.net.active = none ∨ ∃ p, h.net.active = some p ∧ (h.port p).ptp.servo ≠ .qualHold) :
    rrConfirmSecond h = h := by
  rcases hi with ha | ⟨p, ha, hs⟩
  · simp [rrConfirmSecond, ha]
  · simp [rrConfirmSecond, ha, hs]

/-- After RR_HOLD the new path is taken unverified (R256). -/
theorem rrHoldExpiry_expires (ha : h.net.active = some p) (hs : (h.port p).ptp.servo = .qualHold)
    (ht : (h.port p).ptp.holdSince + (h.portCfg p).ptp.rrHold * 49152000 ≤ h.xoCycles)
    (hw : (h.port p).ptp.noWindow = true ∨ h.tb.qPps = false ∧ h.tb.qCasc = false) :
    rrHoldExpiry h = h.newPath p .acquiring true .unverified := by
  have alone : (h.port p).ptp.noWindow = true ∨ (h.secondSrc (h.port p).ptp).isNone = true := by
    rcases hw with e | ⟨hq, hc⟩
    · exact .inl e
    · exact .inr (by simp [Hub.secondSrc, hq, hc])
  simp only [rrHoldExpiry, ha]
  exact if_pos ⟨hs, ht, alone⟩

/-! ### Frames and their stamps (R251, R260) -/

/-- The stamp that R260 takes of a frame whose timestamp point crossed `ago` before. -/
def Hub.stampOf (h : Hub) (p : Nat) (f : OutFrame) (ago : T64) : TxStamp :=
  { tsId := f.tsId, net := h.netT - ago + BitVec.ofInt 64 (h.egressLat p), sample := h.sampleT - ago + BitVec.ofInt 64 (h.egressLat p)
    epoch := h.tb.epoch }

/-- The oldest frame of the queue has left, and its buffer is free. -/
def Hub.frameGone (h : Hub) (p : Nat) (f : OutFrame) (r : List OutFrame) : Hub :=
  { h with net := { h.net with queue := r, busy := h.net.busy.erase f.buf }, tx := h.tx ++ [.frame p (h.frameOf f.buf f.len)] }

/-- With it its stamp has joined the port's queue, when one was wanted. -/
def Hub.frameLeft (h : Hub) (p : Nat) (f : OutFrame) (r : List OutFrame) (ago : T64) : Hub :=
  if f.ts then (h.frameGone p f r).setPort p { h.port p with txts := (h.port p).txts ++ [h.stampOf p f ago] } else h.frameGone p f r

section
variable (f : OutFrame) (r : List OutFrame) (ago : T64)

theorem Hub.frameLeft_onlyIn : h.onlyIn [.net, .tx] (h.frameLeft p f r ago) := by
  unfold Hub.frameLeft
  split <;> simp [Hub.onlyIn_iff, Hub.frameGone, Hub.setPort]
theorem Hub.frameLeft_tx : (h.frameLeft p f r ago).tx = h.tx ++ [.frame p (h.frameOf f.buf f.len)] := by
  unfold Hub.frameLeft
  split <;> rfl
theorem Hub.frameLeft_queue : (h.frameLeft p f r ago).net.queue = r := by
  unfold Hub.frameLeft
  split <;> rfl
theorem Hub.frameLeft_busy : (h.frameLeft p f r ago).net.busy = h.net.busy.erase f.buf := by
  unfold Hub.frameLeft
  split <;> rfl
theorem Hub.frameLeft_port : (h.frameLeft p f r ago).port p =
    if f.ts then { h.port p with txts := (h.port p).txts ++ [h.stampOf p f ago] } else h.port p := by
  unfold Hub.frameLeft
  split
  · simp
  · rfl

end

theorem frameTransmitDone_leaves {ago : T64} {f : OutFrame} {r : List OutFrame} (hh : h.clk.held = false) (ha : h.net.active = some p)
    (hl : (h.port p).link = true) (hg : h.guardBroken p ago = false) (hd : (h.port p).defer.any PortMsg.event = false)
    (hq : h.net.queue = f :: r) (ht : f.ts = false ∨ (h.port p).txts.length < 16) : frameTransmitDone ago h = (h.frameLeft p f r ago).portDrain p := by
  have stamped : ∀ a b, (h.port p).txts.length < 16 → (h.frameGone p f r).txStamp p f.tsId a b = (h.frameGone p f r).setPort p
      { h.port p with txts := (h.port p).txts ++ [{ tsId := f.tsId, net := a, sample := b, epoch := h.tb.epoch }] } := fun a b room => if_pos room
  unfold frameTransmitDone
  rw [hq, ha]
  dsimp only
  rw [if_neg (by simp [hl, hh, hg, hd])]
  change (if f.ts = true then (h.frameGone p f r).txStamp p f.tsId _ _ else h.frameGone p f r).portDrain p = _
  unfold Hub.frameLeft
  cases hts : f.ts with
  | false => rfl
  | true =>
    rw [if_pos rfl, if_pos rfl, stamped _ _ (by simpa [hts] using ht)]
    rfl

theorem frameTransmitDone_idle (ago : T64) (hi : h.net.queue = [] ∨ h.clk.held = true) : frameTransmitDone ago h = h := by
  unfold frameTransmitDone
  split
  · next f r p hq ha =>
    rcases hi with e | e
    · exact absurd (hq.symm.trans e) nofun
    · exact if_pos (by simp [e])
  · rfl

/-! ### Launches (R262 to R264) -/

theorem launchGuardStart_guards {l : Launch} (hh : h.clk.held = false) (ha : h.net.active = some p) (hn : h.launchNext p = some l)
    (hl : h.launchLeft l ≤ (fr 12304 1000000000).t) : launchGuardStart h = h.setPort p { h.port p with guarded := true } := by
  unfold launchGuardStart
  rw [ha]
  dsimp only
  rw [hn]
  exact if_pos ⟨hl, by simp [hh]⟩

theorem launchGuardStart_idle (hi : h.net.active = none ∨ h.clk.held = true) : launchGuardStart h = h := by
  unfold launchGuardStart
  split
  · rfl
  · next p ha =>
    have held : h.clk.held = true := hi.resolve_left (by simp [ha])
    split
    · exact if_neg fun e => e.2 held
    · rfl

/-- A launch entry leaves its queue, and its buffer is free. -/
def Hub.launchGone (h : Hub) (p : Nat) (l : Launch) : Hub :=
  (h.setPort p { h.port p with launch := (h.port p).launch.erase l, guarded := false }).freeBuf l.buf

/-- An entry in time, or one that is sent though late (R263, R264). -/
theorem launchTransmit_sends {l : Launch} (hh : h.clk.held = false) (ha : h.net.active = some p) (hk : (h.port p).link = true)
    (hn : h.launchNext p = some l) (hl : h.launchLeft l ≤ h.egressLat p)
    (ht : l.send = true ∨ (h.egressLat p - h.launchLeft l) * 1000000000 ≤ l.tol * 2 ^ 32) : ∃ ws lead,
    launchTransmit h = (((h.launchGone p l).send (.frame p (h.frameOf l.buf l.len))).complete l.handle DONE ws).portDrain p lead := by
  have inTime : (decide ((l.tol : Int) * 2 ^ 32 < -(h.launchLeft l - h.egressLat p) * 1000000000) && !l.send) = false := by
    rw [Int.neg_sub]
    rcases ht with e | e
    · simp [e]
    · rw [decide_eq_false (Int.not_lt.mpr e), Bool.false_and]
  unfold launchTransmit
  rw [ha]
  dsimp only
  rw [hn]
  dsimp only
  rw [if_neg (by simp [hh, hk, hl]), if_neg (ne_true_of_eq_false inTime)]
  exact ⟨_, _, rfl⟩

/-- An entry that is too late to send (R264). -/
theorem launchTransmit_late {l : Launch} (hh : h.clk.held = false) (ha : h.net.active = some p) (hk : (h.port p).link = true)
    (hn : h.launchNext p = some l) (hs : l.send = false) (ht : l.tol * 2 ^ 32 < (h.egressLat p - h.launchLeft l) * 1000000000)
    (hl : h.launchLeft l ≤ h.egressLat p) : ∃ ws lead,
    launchTransmit h = (((h.launchGone p l).complete l.handle TIMED_OUT ws).raise 104 []).portDrain p lead := by
  have late : (decide ((l.tol : Int) * 2 ^ 32 < -(h.launchLeft l - h.egressLat p) * 1000000000) && !l.send) = true := by
    rw [Int.neg_sub, decide_eq_true ht, hs]
    rfl
  unfold launchTransmit
  rw [ha]
  dsimp only
  rw [hn]
  dsimp only
  rw [if_neg (by simp [hh, hk, hl]), if_pos late]
  exact ⟨_, _, rfl⟩

theorem launchTransmit_idle (hi : h.net.active = none ∨ h.clk.held = true) : launchTransmit h = h := by
  unfold launchTransmit
  split
  · rfl
  · next p ha =>
    have held : h.clk.held = true := hi.resolve_left (by simp [ha])
    split
    · rfl
    · exact if_pos (by simp [held])

end

/-! ### Of what is sent to the host, nothing is a frame -/

/-- From `h` to `g` at most a message to the host went out. -/
def Hub.Tells (h g : Hub) : Prop := g.tx = h.tx ∨ ∃ v, g.tx = h.tx ++ [.msix v]

theorem Hub.Tells.sent {h g : Hub} (hg : h.Tells g) : h.tx <+: g.tx := by
  rcases hg with e | ⟨v, e⟩ <;> simp [e]
theorem Hub.Tells.frames {h g : Hub} (hg : h.Tells g) {q : Nat} {b : List Byte} (hb : .frame q b ∈ g.tx) : .frame q b ∈ h.tx := by
  rcases hg with e | ⟨v, e⟩
  · exact e ▸ hb
  · simpa [e] using hb

theorem Hub.msix_tells (h : Hub) (v : Nat) : h.Tells (h.msix v) := by
  unfold Hub.msix
  split_ifs
  · exact .inl rfl
  · exact .inl rfl
  · exact .inr ⟨v, rfl⟩
theorem Hub.edge_tells {h k : Hub} (hk : k.tx = h.tx) (was on : Bool) (v : Nat) : h.Tells (k.edge was on v) := by
  unfold Hub.edge Hub.Tells
  rw [← hk]
  split
  · exact k.msix_tells v
  · exact .inl rfl
theorem Hub.complete_tells (h : Hub) (hd status : Nat) (ws : List Word) : h.Tells (h.complete hd status ws) := by
  unfold Hub.complete Hub.cqWrite
  dsimp only
  split
  · split
    · exact .inl rfl
    · split
      · exact .inl rfl
      · exact Hub.edge_tells (by simp) _ _ _
  · exact .inl rfl
theorem Hub.raise_tells (h : Hub) (ev : Nat) (data : List Byte) : h.Tells (h.raise ev data) := by
  unfold Hub.raise
  dsimp only
  split
  · exact .inl rfl
  · unfold Hub.Tells
    rw [Hub.raiseAt, Hub.logWrite_tx]
    exact Hub.edge_tells (by simp) _ _ _

/-! ### The rows -/

@[simp] theorem Hub.complete_port (h : Hub) (hd status : Nat) (ws : List Word) (k : Nat) : (h.complete hd status ws).port k = h.port k := by
  simp [Hub.port]
@[simp] theorem Hub.raise_port (h : Hub) (ev : Nat) (data : List Byte) (k : Nat) : (h.raise ev data).port k = h.port k := by simp [Hub.port]

theorem Hub.launchGone_onlyIn (h : Hub) (p : Nat) (l : Launch) : h.onlyIn [.net] (h.launchGone p l) := by
  simp [Hub.onlyIn_iff, Hub.launchGone, Hub.freeBuf, Hub.setPort]
@[simp] theorem Hub.launchGone_port (h : Hub) (p k : Nat) (l : Launch) : (h.launchGone p l).port k =
    if k = p then { h.port p with launch := (h.port p).launch.erase l, guarded := false } else h.port k := h.setPort_port p k _

/-- What a launch entry leaves behind, when what follows drains the port. -/
theorem Hub.Drains.launchGone {h k g : Hub} {p : Nat} {l : Launch} (hk : k.net = (h.launchGone p l).net) (kg : k.Drains p g) :
    (g.port p).launch = (h.port p).launch.erase l ∧ (g.port p).guarded = false ∧ g.net.busy = h.net.busy.erase l.buf ∧
      ∀ j, j ≠ p → g.port j = h.port j := by
  have ports : ∀ j, k.port j = (h.launchGone p l).port j := fun j => by rw [Hub.port, Hub.port, hk]
  have own := kg.own
  rw [ports, Hub.launchGone_port, if_pos rfl] at own
  refine ⟨congrArg Port.launch own, congrArg Port.guarded own, kg.busy.trans (congrArg NetSt.busy hk), fun j hj => ?_⟩
  rw [kg.others j hj, ports, Hub.launchGone_port, if_neg hj]

/-- Settles O49: a servo that runs out of Syncs or of RR_HOLD changes state (`Hub.servoTo_serves`), and a frame or a launch entry that leaves
its queue lets what waited on the port go out behind it (`Hub.portDrain_drains`). -/
theorem servoRows : Obligations.ServoRows := by
  unfold Obligations.ServoRows
  refine ⟨?_, ?_, ?_, ?_, ?_, ?_, ?_, ?_, ?_, ?_, ?_, ?_, ?_, ?_⟩
  · intro s p announce hp ha he hh hm hs hl
    have holds := (s.hub.setPtp_serves p ((s.hub.port p).ptp.silenced announce)).trans (Hub.servoTo_serves _ p .holdover)
    rw [← servoSyncTimeout_holdover ha he hh hm hs hl] at holds
    refine does_row rfl hp (Hub.onlyIn_mono holds.raises.only (by decide)) ?_
    rw [holds.own]
    cases announce with
    | true => exact ⟨rfl, fun _ => by simp [Ptp.to, Ptp.silenced], nofun, by simp [Ptp.to, Ptp.silenced], holds.others⟩
    | false => exact ⟨rfl, nofun, fun _ => by simp [Ptp.to, Ptp.silenced], by simp [Ptp.to, Ptp.silenced], holds.others⟩
  · intro s p announce hp hi
    exact does_nothing rfl hp (servoSyncTimeout_idle announce hi)
  · intro s p hp ha hs hw hh ht hq hc
    exact does_setPtp rfl hp (rrConfirmSecond_noSource ha hs hw hh ht hq hc)
  · intro s p q z hp ha hs hw hh ht hq hpre ho hz hg hn
    exact does_setPtp rfl hp (rrConfirmSecond_pps ha hs hw hh ht hq hpre ho hz hg hn)
  · intro s hp hi
    exact does_nothing rfl hp (rrConfirmSecond_idle hi)
  · intro s p hp ha hs ht hw
    have path := s.hub.newPath_serves p .acquiring true .unverified
    rw [← rrHoldExpiry_expires ha hs ht hw] at path
    refine does_row rfl hp (Hub.onlyIn_mono path.raises.only (by decide)) ?_
    rw [path.own]
    exact ⟨rfl, rfl, rfl, rfl, path.others⟩
  · intro s hp ha
    exact does_nothing rfl hp (by simp [rrHoldExpiry, ha])
  · intro s ago p f r hp hh ha hl hg hd hq ht
    have leaves := frameTransmitDone_leaves hh ha hl hg hd hq ht
    have drains := (s.hub.frameLeft p f r ago).portDrain_drains p 0
    have port := s.hub.frameLeft_port (p := p) f r ago
    have waiting : ((s.hub.frameLeft p f r ago).port p).defer = (s.hub.port p).defer := by rw [port]; split <;> rfl
    refine does_row rfl hp ?_ ⟨?_, ?_, ?_, fun hts => ?_, fun hts => ?_, fun none => ?_⟩ <;> rw [leaves]
    · exact Hub.onlyIn_trans (Hub.frameLeft_onlyIn f r ago) drains.only
    · exact Hub.frameLeft_tx f r ago ▸ drains.sent
    · exact drains.queue.trans (Hub.frameLeft_queue f r ago)
    · exact drains.busy.trans (Hub.frameLeft_busy f r ago)
    · rw [if_pos hts] at port
      exact congrArg Port.txts (port ▸ drains.own)
    · rw [if_neg (ne_true_of_eq_false hts)] at port
      have engine := (s.hub.frameLeft p f r ago).portDrain_ptp p 0 (by rw [waiting, hd])
      exact Port.eq_of_rest (port ▸ drains.own) (port ▸ engine)
    · rw [Hub.portDrain_nil _ p 0 (waiting.trans none)]
      exact Hub.frameLeft_tx f r ago
  · intro s ago hp hi
    exact does_nothing rfl hp (frameTransmitDone_idle ago hi)
  · intro s p l hp hh ha hn hl
    refine does_row rfl hp ?_ ?_ <;> rw [launchGuardStart_guards hh ha hn hl]
    · exact s.hub.setPort_onlyIn p _
    · simp +contextual
  · intro s hp hi
    exact does_nothing rfl hp (launchGuardStart_idle hi)
  · intro s p l hp hh ha hk hn hl ht
    obtain ⟨ws, lead, sends⟩ := launchTransmit_sends hh ha hk hn hl ht
    have told := Hub.complete_tells ((s.hub.launchGone p l).send (.frame p (s.hub.frameOf l.buf l.len))) l.handle DONE ws
    have drains := Hub.portDrain_drains (((s.hub.launchGone p l).send (.frame p (s.hub.frameOf l.buf l.len))).complete l.handle DONE ws) p lead
    refine does_row rfl hp ?_ ?_ <;> rw [sends]
    · exact Hub.onlyIn_trans (Hub.onlyIn_trans (Hub.onlyIn_trans (Hub.onlyIn_mono (s.hub.launchGone_onlyIn p l) (by decide))
        (Hub.onlyIn_mono (Hub.send_onlyIn _ _) (by decide))) (Hub.onlyIn_mono (Hub.complete_onlyIn _ _ _ _) (by decide)))
        (Hub.onlyIn_mono drains.only (by decide))
    · exact ⟨told.sent.trans drains.sent, drains.launchGone (by simp)⟩
  · intro s p l hp hh ha hk hn hs ht hl
    obtain ⟨ws, lead, late⟩ := launchTransmit_late hh ha hk hn hs ht hl
    have completed := (s.hub.launchGone p l).complete_tells l.handle TIMED_OUT ws
    have raised := ((s.hub.launchGone p l).complete l.handle TIMED_OUT ws).raise_tells 104 []
    have drains := Hub.portDrain_drains (((s.hub.launchGone p l).complete l.handle TIMED_OUT ws).raise 104 []) p lead
    have gone := drains.launchGone (h := s.hub) (l := l) (by simp)
    refine does_row rfl hp ?_ ?_ <;> rw [late]
    · exact Hub.onlyIn_trans (Hub.onlyIn_trans (Hub.onlyIn_trans (Hub.onlyIn_mono (s.hub.launchGone_onlyIn p l) (by decide))
        (Hub.onlyIn_mono (Hub.complete_onlyIn _ _ _ _) (by decide))) (Hub.onlyIn_mono (Hub.raise_onlyIn _ _ _) (by decide)))
        (Hub.onlyIn_mono drains.only (by decide))
    · obtain ⟨launch, guarded, busy, others⟩ := gone
      refine ⟨fun b hb => completed.frames (raised.frames (drains.frames p b hb)), launch, guarded, busy, others, ?_⟩
      rw [show Hub.evt _ = _ from drains.only .evt (by decide), Hub.raise_count_self _ 104 [] (by simp [Hub.launchGone, Hub.freeBuf, Hub.setPort, hh])]
      simp [Hub.launchGone, Hub.freeBuf, Hub.setPort]
  · intro s hp hi
    exact does_nothing rfl hp (launchTransmit_idle hi)

end Sys2Proof.Machine

/-! PROOFS. Commands that raise events and may complete others before they are answered (R481, R483, R491). -/
namespace Sys2Proof.Machine

/-- A command that took effect, changed the chapters `cs` and let nothing sent be unsent keeps the frame of R480 to R483 when it is answered. -/
theorem Hub.answered_mailFrame_of_tx {h g : Hub} {cs : List Chapter} {m status : Nat} (hd : Nat) (tag : Word) (ws : List Word) (crc : Bool)
    (hg : h.onlyIn (.host :: .tx :: cs) g) (hm : .host ∉ cs → h.OwnMail m g) (hx : h.tx <+: g.tx) (hs : tookEffect status = true) :
    h.mailFrame cs m tag (g.answered m status hd tag ws crc) := by
  refine ⟨Hub.onlyIn_trans (Hub.onlyIn_mono hg ?_) (Hub.onlyIn_mono (g.answered_onlyIn m status hd tag ws crc) ?_),
    fun hc => ?_, fun hc => ?_, fun hc => ?_, fun _ => ?_⟩
  · exact List.cons_subset_cons _ (List.cons_subset.mpr ⟨by simp, List.subset_append_right [.sys, .clk, .tx] cs⟩)
  · exact List.subset_append_left _ _
  · have sys : g.sys = h.sys := hg .sys (by simp [hc])
    simp [Hub.answered, Hub.noteTag, hs, sys]
  · have clk : g.clk = h.clk := hg .clk (by simp [hc])
    have gates : (g.answered m status hd tag ws crc).clk.gates ⊆ g.clk.gates := by simp [Hub.answered, Hub.openUsed]
    exact ⟨by simp [Hub.answered, Hub.openUsed, clk], fun n hn => clk ▸ gates hn⟩
  · obtain ⟨mbs, cq, cqWr⟩ := (hm hc).trans (g.answered_ownMail m status hd tag ws crc)
    exact ⟨mbs, cq, cqWr⟩
  · have sent := (g.noteTag m status tag).respond_tx m status hd tag ws crc
    rw [Hub.noteTag_tx] at sent
    exact hx.trans sent

/-- A command that takes no handle and may complete others is answered with what it gives; `P` need look at nothing that the mailbox path
writes. -/
theorem answers_of_completes {i : Instr} {s : State} {c : CmdSpec} {mb : Fin 8} {tag : Word} {pl : List Word} {cs : List Chapter}
    {P : List Word → Hub → Prop} {r : CmdRes} {status : Nat} (hi : exec i s = s.mailRow c mb tag pl) (ht : s.takes c mb tag pl = true)
    (hl : c.long (s.hub.executing c mb tag pl) pl = false) (hr : c.run (s.hub.executing c mb tag pl) (.of mb tag pl 0) = r)
    (hw : r.wait = false) (hs : r.status = status) (he : tookEffect status = true) (hc : .host ∈ cs)
    (hf : (s.hub.executing c mb tag pl).onlyIn (.host :: .tx :: cs) r.hub) (hx : (s.hub.executing c mb tag pl).tx <+: r.hub.tx)
    (hP : ∀ t, r.hub.onlyIn [.host, .sys, .clk, .tx] t → P r.words t) : Answers i s mb tag status cs P := by
  subst hs
  have frame : s.hub.onlyIn (.host :: .tx :: cs) r.hub :=
    Hub.onlyIn_trans (Hub.onlyIn_mono (s.hub.executing_onlyIn c mb tag pl) (by simp)) hf
  refine ⟨_, r.words, hi.trans (s.mailRow_takes c mb tag pl ht), rfl, ?_⟩
  rw [Hub.ran_short _ hl hr hw]
  exact ⟨r.hub.answered_response .., Hub.answered_mailFrame_of_tx 0 tag r.words _ frame (absurd hc) (s.hub.executing_tx c mb tag pl ▸ hx) he,
    absurd hc, hP _ (r.hub.answered_onlyIn _ _ _ _ _ _)⟩

/-- A long-running command that changes the chapters `cs`, and may raise events, is accepted with the next handle of its mailbox. -/
theorem accepts_of_raises {i : Instr} {s : State} {c : CmdSpec} {mb : Fin 8} {tag : Word} {pl : List Word} {cs : List Chapter}
    {P : Nat → Hub → Prop} (hi : exec i s = s.mailRow c mb tag pl) (ht : s.takes c mb tag pl = true)
    (hl : c.long (s.hub.executing c mb tag pl) pl = true)
    (hr : ∀ g hd, s.hub.onlyIn [.host] g → ∃ f, c.run g (.of mb tag pl hd) = { hub := f } ∧ g.Raises cs f ∧
      ∀ t, f.onlyIn [.host, .sys, .clk, .tx] t → P hd t) :
    Accepts i s mb tag cs P := by
  have checks := ht
  simp only [State.takes, Bool.and_eq_true, Option.isNone_iff_eq_none] at checks
  obtain ⟨k, hk⟩ := Hub.freeSlot_of_checkCmd hl checks.2
  have own := (s.hub.executing_ownMail c mb tag pl).1
  have taken : (s.hub.executing c mb tag pl).OwnMail mb ((s.hub.executing c mb tag pl).allocSlot k c.opcode tag mb) :=
    ⟨fun _ _ => rfl, rfl, rfl⟩
  have mailed := Hub.onlyIn_trans (s.hub.executing_onlyIn c mb tag pl) (Hub.allocSlot_onlyIn _ k c.opcode tag mb)
  have handle := Hub.nextHandle_executing hk
  refine ⟨_, _, hi.trans (s.mailRow_takes c mb tag pl ht), rfl, handle, ?_⟩
  rw [Hub.ran_long _ hl hk]
  generalize (s.hub.executing c mb tag pl).allocSlot k c.opcode tag mb = g at taken mailed
  obtain ⟨f, run, hf, hP⟩ := hr g (g.handleOf k) mailed
  obtain ⟨p, host⟩ := hf.host
  have tx : g.tx = s.hub.tx := mailed .tx (by decide)
  rw [run]
  exact ⟨f.answered_response .., Hub.answered_mailFrame_of_tx _ tag _ _ (Hub.onlyIn_trans (Hub.onlyIn_mono mailed (by simp)) hf.only)
      (fun _ => (own.trans taken).trans ⟨fun _ _ => by rw [host], by rw [host], by rw [host]⟩) (tx ▸ hf.tx) (by decide),
    hP _ (f.answered_onlyIn _ _ _ _ _ _)⟩

end Sys2Proof.Machine

/-! PROOFS. Frame, launch, path and address commands (O28). -/
namespace Sys2Proof.Machine

/-! ### A failover starts (R447, R450) -/

/-- From `h` to `g` ports and the path changed and events may have been raised; the verdicts seen are those of before. -/
structure Hub.Reroutes (h g : Hub) : Prop where
  raises : h.Raises [.net, .tb, .tiu, .evt, .jrn, .sto] g
  vseq : g.net.vseq = h.net.vseq
  failovers : g.net.failovers = h.net.failovers

theorem Hub.Reroutes.refl (h : Hub) : h.Reroutes h := ⟨.refl h _, rfl, rfl⟩

theorem Hub.Reroutes.trans {h g t : Hub} (hg : h.Reroutes g) (gt : g.Reroutes t) : h.Reroutes t :=
  ⟨hg.raises.trans gt.raises, gt.vseq.trans hg.vseq, gt.failovers.trans hg.failovers⟩

theorem Hub.Serves.reroutes {p : Nat} {x : Port} {h g : Hub} (hg : h.Serves p x g) : h.Reroutes g := ⟨hg.raises, hg.vseq, hg.failovers⟩

theorem Hub.setPort_reroutes (h : Hub) (p : Nat) (x : Port) : h.Reroutes (h.setPort p x) := (h.setPort_serves p x).reroutes
theorem Hub.setPtp_reroutes (h : Hub) (p : Nat) (x : Ptp) : h.Reroutes (h.setPtp p x) := (h.setPtp_serves p x).reroutes
theorem Hub.servoTo_reroutes (h : Hub) (p : Nat) (s : Servo) : h.Reroutes (h.servoTo p s) := (h.servoTo_serves p s).reroutes

theorem Hub.reroutes_tb (h : Hub) (b : TbSt) : h.Reroutes { h with tb := b } :=
  (Hub.serves_of_raises 0 (Hub.raises_of_time (by simp [Hub.onlyIn_iff]))).reroutes

theorem Hub.portHealth_serves (h : Hub) (p : Nat) : h.Serves p (h.port p) (h.portHealth p) := by
  unfold Hub.portHealth
  extract_lets x act
  split
  · exact Hub.serves_of_raises p (.refl h _)
  · exact Hub.serves_of_raises p ((h.land_records ..).raises.mono (by decide))

theorem Hub.portTo_reroutes (h : Hub) (p : Nat) (s : PortState) : h.Reroutes (h.portTo p s) := by
  unfold Hub.portTo
  split
  · exact .refl h
  · exact (h.setPort_reroutes p _).trans (Hub.portHealth_serves _ p).reroutes

theorem Hub.servoLoad_reroutes (h : Hub) (p : Nat) (s : Snapshot) (seqs : Nat × Nat) : h.Reroutes (h.servoLoad p s seqs) := by
  unfold Hub.servoLoad
  extract_lets inc _ g t k
  have loaded : h.Reroutes k := (h.reroutes_tb _).trans (g.setPtp_reroutes p _)
  clear_value k
  split <;> exact loaded.trans (k.servoTo_reroutes p _)

theorem Hub.servoFresh_reroutes (h : Hub) (p : Nat) : h.Reroutes (h.servoFresh p) :=
  ((h.reroutes_tb _).trans (Hub.setPtp_reroutes _ p _)).trans (Hub.servoTo_reroutes _ p _)

/-- The verdict's port is where the path goes, and the failover is counted. -/
structure Hub.Fails (h : Hub) (b source : Nat) (handle : Option Nat) (g : Hub) : Prop where
  raises : h.Raises [.net, .tb, .tiu, .evt, .jrn, .sto] g
  vseq : g.net.vseq = h.net.vseq
  failovers : g.net.failovers = sat32 (h.net.failovers + 1)
  failover : ∃ f, g.net.failover = some f ∧ f.dest = b ∧ f.source = source ∧ f.handle = handle

theorem Hub.failStart_fails (h : Hub) (b source : Nat) (handle : Option Nat) (pending : Bool) :
    h.Fails b source handle (h.failStart b source handle pending) := by
  unfold Hub.failStart
  extract_lets a x y held f launch _ k₁ k₂ _ k₃ k₄ _ g₁ g₂ _ g₃ g₄ _
  have ended : k₁.Reroutes k₂ := by
    unfold k₂
    split
    · exact (k₁.rrDone_serves a .abandoned).reroutes
    · exact .refl k₁
  have stopped : h.Reroutes g₁ := by
    unfold g₁
    split
    · have silent : h.Reroutes k₃ := (((h.setPtp_reroutes a _).trans (Hub.servoTo_reroutes _ a .disabled)).trans ended).trans (k₂.setPort_reroutes a _)
      have quiet : h.Reroutes k₄ := silent.trans (k₃.setCauses_serves a 0).reroutes
      clear_value k₄
      exact quiet.trans (k₄.serves_net a _ (by rfl) (by rfl) (by rfl)).reroutes
    · exact .refl h
  have left : g₁.Reroutes g₂ := by
    unfold g₂
    split
    · exact g₁.portTo_reroutes a .testing
    · exact .refl g₁
  have loaded : g₃.Reroutes g₄ := by
    unfold g₄
    split
    · exact g₃.servoLoad_reroutes b _ _
    · exact g₃.servoFresh_reroutes b
  obtain ⟨raises, vseq, failovers⟩ := ((stopped.trans left).trans (g₂.setPort_reroutes b _)).trans loaded
  clear_value g₄
  exact ⟨raises.trans ((Hub.raises_of_onlyIn (cs := [.net]) (by simp [Hub.onlyIn_iff]) (by decide) (by decide)).mono (by decide)), vseq,
    congrArg (fun n => sat32 (n + 1)) failovers, f, rfl, rfl, rfl, rfl⟩

/-! ### Verdicts (R445, R447, R457) -/

/-- From `h` to `g` a verdict was taken: commands may have completed and a failover begun, and the last verdict seen is that of before. -/
structure Hub.Obeys (h g : Hub) : Prop where
  only : h.onlyIn [.host, .tx, .net, .tb, .tiu, .evt, .jrn, .sto] g
  tx : h.tx <+: g.tx
  vseq : g.net.vseq = h.net.vseq

theorem Hub.Obeys.refl (h : Hub) : h.Obeys h := ⟨h.onlyIn_refl _, List.prefix_refl _, rfl⟩

theorem Hub.Obeys.trans {h g t : Hub} (hg : h.Obeys g) (gt : g.Obeys t) : h.Obeys t :=
  ⟨Hub.onlyIn_trans hg.only gt.only, hg.tx.trans gt.tx, gt.vseq.trans hg.vseq⟩

theorem Hub.complete_obeys (h : Hub) (hd status : Nat) (ws : List Word) : h.Obeys (h.complete hd status ws) :=
  ⟨Hub.onlyIn_mono (h.complete_onlyIn hd status ws) (by decide), (h.complete_tells hd status ws).sent, by simp⟩

theorem Hub.obeys_net (h : Hub) (n : NetSt) (hv : n.vseq = h.net.vseq) : h.Obeys { h with net := n } :=
  ⟨by simp [Hub.onlyIn_iff], List.prefix_refl _, hv⟩

theorem Hub.ignoreVerdict_obeys (h : Hub) : h.Obeys h.ignoreVerdict := by
  have raised : ∀ g : Hub, g.Obeys (g.raise 107 []) := fun g =>
    ⟨Hub.onlyIn_mono (g.raise_records 107 []).raises.only (by decide), (g.raise_records 107 []).raises.tx, by simp⟩
  exact (h.obeys_net _ (by rfl)).trans (raised _)

theorem Hub.obey_obeys (h : Hub) (p source : Nat) (handle : Option Nat) : h.Obeys (h.obey p source handle) := by
  unfold Hub.obey
  extract_lets done g _
  have ends : ∀ (k : Hub) (st : Nat), k.Obeys (done k st) := by
    intro k st
    unfold done
    split
    · exact k.complete_obeys _ st []
    · exact .refl k
  have aborted : h.Obeys g := by
    unfold g
    split
    · exact h.complete_obeys _ _ _
    · exact .refl h
  clear_value done g
  split_ifs
  · exact aborted.trans (g.obeys_net _ rfl)
  · exact ends h DONE
  · exact h.ignoreVerdict_obeys.trans (ends _ BAD_STATE)
  · obtain ⟨raises, vseq, -, -⟩ := h.failStart_fails p source handle false
    exact ⟨raises.only, raises.tx, vseq⟩

theorem Hub.verdictTake_obeys (h : Hub) (p source : Nat) (handle : Option Nat) : h.Obeys (h.verdictTake p source handle) := by
  unfold Hub.verdictTake
  extract_lets g _
  have aborted : h.Obeys g := by
    unfold g
    split
    · exact h.complete_obeys _ _ _
    · exact .refl h
  clear_value g
  split_ifs
  · exact aborted.trans (g.obeys_net _ rfl)
  · exact h.obey_obeys p source handle

/-! ### Commands -/

section
variable {s : State} {mb : Fin 8} {tag : Word} {pl : List Word}

theorem netFrameWrite_answers (ht : s.takes netFrameWrite mb tag pl = true) :
    Answers (.netFrameWrite mb tag pl) s mb tag DONE [.net] fun _ t => t.net =
      { s.hub.net with frames := s.hub.net.frames.puts (384 * fld (pw pl 0) 4 0 + fld (pw pl 0) 23 16) (pl.drop 1) } := by
  refine answers_of_run (c := netFrameWrite) rfl ht rfl rfl rfl rfl (by decide) (by decide) ?_ fun t h => ?_
  · simp [Hub.onlyIn_iff, netFrameWrite]
  · rw [show t.net = _ from h .net (by decide)]
    simp [netFrameWrite, CmdIn.of]

theorem netFrameSend_answers (ht : s.takes netFrameSend mb tag pl = true) :
    Answers (.netFrameSend mb tag pl) s mb tag DONE [.net] fun _ t => t.net =
      { s.hub.net with
        queue := s.hub.net.queue ++ [{ buf := fld (pw pl 0) 4 0, len := fld (pw pl 1) 10 0, tsId := fld (pw pl 0) 31 16, ts := bit (pw pl 0) 15 }]
        busy := s.hub.net.busy ++ [fld (pw pl 0) 4 0] } := by
  refine answers_of_run (c := netFrameSend) rfl ht rfl rfl rfl rfl (by decide) (by decide) ?_ fun t h => ?_
  · simp [Hub.onlyIn_iff, netFrameSend]
  · rw [show t.net = _ from h .net (by decide)]
    simp [netFrameSend, CmdIn.of]

/-- While the active port has its link, launches stay. -/
theorem Hub.pathCheck_of_link {h : Hub} (hl : ∀ p, h.net.active = some p → (h.port p).link = true) : h.pathCheck = h := by
  unfold Hub.pathCheck
  split
  · next p ha => exact if_neg (by simp [hl p ha])
  · rfl

/-- A command that passes the checks of R483 passes those of its own chapter. -/
theorem Hub.refuse_of_checkCmd {h : Hub} {c : CmdSpec} {m : Nat} {w0 w1 w2 w3 : Word} {pl : List Word}
    (hc : h.checkCmd (some c) m w0 w1 w2 w3 pl = none) : c.refuse h { mb := m, tag := w1, handle := 0, pl := pl } = none := by
  cases hr : c.refuse h { mb := m, tag := w1, handle := 0, pl := pl } with
  | none => rfl
  | some r =>
    simp only [Hub.checkCmd, hr] at hc
    repeat' split at hc
    all_goals exact absurd hc nofun

/-- A launch is refused without an active port (R273). -/
theorem active_of_takes_netLaunch (ht : s.takes netLaunch mb tag pl = true) : ∃ p, s.hub.net.active = some p := by
  simp only [State.takes, Bool.and_eq_true, Option.isNone_iff_eq_none] at ht
  have passes := Hub.refuse_of_checkCmd ht.2
  cases ha : s.hub.net.active with
  | some p => exact ⟨p, rfl⟩
  | none => simp [netLaunch, ha] at passes

/-- The order of a launch queue is that of its targets from now. -/
theorem Hub.launchInsert_congr {h g : Hub} (ht : g.tb = h.tb) (l : Launch) (q : List Launch) : g.launchInsert l q = h.launchInsert l q := by
  have left : ∀ e, g.launchLeft e = h.launchLeft e := fun e => by simp only [Hub.launchLeft, Hub.launchNow, Hub.sampleT, Hub.netT, ht]
  simp only [Hub.launchInsert, left]

/-- An entry joins a port's launch queue, and its buffer is busy. -/
def Hub.launchQueued (h : Hub) (p : Nat) (l : Launch) : Hub :=
  let g := h.setPort p { h.port p with launch := h.launchInsert l (h.port p).launch, guarded := false }
  { g with net := { g.net with busy := g.net.busy ++ [l.buf] } }

@[simp] theorem Hub.launchQueued_port (h : Hub) (p k : Nat) (l : Launch) : (h.launchQueued p l).port k =
    if k = p then { h.port p with launch := h.launchInsert l (h.port p).launch, guarded := false } else h.port k := h.setPort_port p k _
theorem Hub.launchQueued_onlyIn (h : Hub) (p : Nat) (l : Launch) : h.onlyIn [.net] (h.launchQueued p l) := by
  simp [Hub.onlyIn_iff, Hub.launchQueued, Hub.setPort]

theorem netLaunch_run {g : Hub} {p : Nat} (x : CmdIn) (ha : g.net.active = some p) (hl : (g.port p).link = true) :
    netLaunch.run g x = { hub := g.launchQueued p (pwLaunch x.pl x.handle) } := by
  have stays : (g.launchQueued p (pwLaunch x.pl x.handle)).pathCheck = g.launchQueued p (pwLaunch x.pl x.handle) := by
    refine Hub.pathCheck_of_link fun k hk => ?_
    obtain rfl : p = k := Option.some.inj (ha.symm.trans hk)
    simp [hl]
  unfold netLaunch
  dsimp only
  rw [ha]
  exact congrArg (fun k : Hub => ({ hub := k } : CmdRes)) stays

theorem netLaunch_accepts (ht : s.takes netLaunch mb tag pl = true) (hk : ∀ p, s.hub.net.active = some p → (s.hub.port p).link = true) :
    Accepts (.netLaunch mb tag pl) s mb tag [.net] fun hd t => ∃ p, s.hub.net.active = some p ∧
      (t.port p).launch = s.hub.launchInsert (pwLaunch pl hd) (s.hub.port p).launch ∧ t.net.busy = s.hub.net.busy ++ [fld (pw pl 0) 4 0] := by
  obtain ⟨p, ha⟩ := active_of_takes_netLaunch ht
  refine accepts_of_run (c := netLaunch) rfl ht rfl (by decide) fun g hd hg => ?_
  have net : g.net = s.hub.net := hg .net (by decide)
  have port : g.port p = s.hub.port p := by rw [Hub.port, Hub.port, net]
  refine ⟨_, netLaunch_run _ (net ▸ ha) (port ▸ hk p ha), g.launchQueued_onlyIn p _, fun t h => ⟨p, ha, ?_, ?_⟩⟩
  · rw [Hub.port, show t.net = _ from h .net (by decide)]
    change ((g.launchQueued p _).port p).launch = _
    rw [Hub.launchQueued_port, if_pos rfl, ← Hub.launchInsert_congr (hg .tb (by decide)), port]
    rfl
  · rw [show t.net = _ from h .net (by decide), ← net]
    rfl

/-- The settings that NET_PATH_SET gives (R459). -/
def pwPath (n : NetCfg) (pl : List Word) : NetCfg :=
  { n with arbMode := fld (pw pl 0) 31 30, preferred := fld (pw pl 0) 29 29, suspMask := fld (pw pl 0) 20 16, suspDeb := fld (pw pl 0) 15 0
           arbDeb := fld (pw pl 1) 31 16, selfInt := fld (pw pl 1) 15 0, echoTo := fld (pw pl 2) 31 16, healthInt := fld (pw pl 2) 15 0
           verdictPort := fld (pw pl 3) 15 0 }

/-- NET_PATH_SET but for the verdict that the pin's level may be: without a cause held before, the clearance starts (R444), and the last
verdict seen may be forgotten (R446). -/
def Hub.pathSet (h : Hub) (pl : List Word) : Hub :=
  let g := { h with cfg := { h.cfg with net := pwPath h.cfg.net pl } }
  let g := if h.causeHeld && !g.causeHeld then { g with net := { g.net with clearAt := g.xoCycles } } else g
  if bit (pw pl 0) 28 then { g with net := { g.net with vseq := 0 } } else g

theorem Hub.pathSet_onlyIn (h : Hub) (pl : List Word) : h.onlyIn [.cfg, .net] (h.pathSet pl) := by
  unfold Hub.pathSet
  dsimp only
  split_ifs <;> simp [Hub.onlyIn_iff]
theorem Hub.pathSet_cfg (h : Hub) (pl : List Word) : (h.pathSet pl).cfg = { h.cfg with net := pwPath h.cfg.net pl } := by
  unfold Hub.pathSet
  dsimp only
  split_ifs <;> rfl
theorem Hub.pathSet_vseq (h : Hub) {pl : List Word} (hb : bit (pw pl 0) 28 = true) : (h.pathSet pl).net.vseq = 0 := by
  unfold Hub.pathSet
  dsimp only
  rw [if_pos hb]

theorem netPathSet_obeys (g : Hub) (x : CmdIn) : (g.pathSet x.pl).Obeys (netPathSet.run g x).hub := by
  change (g.pathSet x.pl).Obeys (if _ then (g.pathSet x.pl).verdictFrom _ 1 else g.pathSet x.pl)
  split
  · exact Hub.verdictTake_obeys _ _ 1 none
  · exact .refl _

theorem netPathSet_answers (ht : s.takes netPathSet mb tag pl = true) :
    Answers (.netPathSet mb tag pl) s mb tag DONE [.cfg, .net, .evt, .jrn, .sto, .tb, .tiu, .host] fun _ t =>
      t.cfg = { s.hub.cfg with net := pwPath s.hub.cfg.net pl } ∧ (bit (pw pl 0) 28 = true → t.net.vseq = 0) := by
  have obeys := netPathSet_obeys (s.hub.executing netPathSet mb tag pl) (.of mb tag pl 0)
  have written := (s.hub.executing netPathSet mb tag pl).pathSet_onlyIn pl
  refine answers_of_completes (c := netPathSet) rfl ht rfl rfl rfl rfl (by decide) (by decide)
    (Hub.onlyIn_trans (Hub.onlyIn_mono written (by decide)) (Hub.onlyIn_mono obeys.only (by decide))) ?_ fun t h => ⟨?_, fun hb => ?_⟩
  · exact (written .tx (by decide) : _ = _) ▸ obeys.tx
  · rw [show t.cfg = _ from h .cfg (by decide), show Hub.cfg _ = _ from obeys.only .cfg (by decide), Hub.pathSet_cfg]
    simp [CmdIn.of]
  · rw [show t.net = _ from h .net (by decide), obeys.vseq]
    exact Hub.pathSet_vseq _ hb

theorem netAddrSet_answers (ht : s.takes netAddrSet mb tag pl = true) :
    Answers (.netAddrSet mb tag pl) s mb tag DONE [.cfg, .net] fun _ t => t.cfg =
      { s.hub.cfg with net := { s.hub.cfg.net with ipv6En := bit (pw pl 0) 31, echoV6 := bit (pw pl 0) 30, prefix4 := fld (pw pl 0) 5 0,
                                                   ipv4 := pw pl 1, gateway4 := pw pl 2, ipv6 := (pl.drop 3).take 4,
                                                   echoAddr := (pl.drop 7).take 4 } } := by
  refine answers_of_run (c := netAddrSet) rfl ht rfl rfl rfl rfl (by decide) (by decide) ?_ fun t h => ?_
  · simp [Hub.onlyIn_iff, netAddrSet, List.range_succ, Hub.setPort]
  · rw [show t.cfg = _ from h .cfg (by decide)]
    simp [netAddrSet, CmdIn.of, List.range_succ, Hub.setPort]

theorem Hub.verdictWaits_congr {h g : Hub} (hc : g.cfg = h.cfg) (hn : g.net = h.net) (p : Nat) : g.verdictWaits p = h.verdictWaits p := by
  simp only [Hub.verdictWaits, Hub.portCfg, Hub.isActive, hc, hn]

theorem Hub.verdictWaits_executing (h : Hub) (c : CmdSpec) (m : Nat) (tag : Word) (p : Nat) :
    (h.executing c m tag pl).verdictWaits p = h.verdictWaits p := Hub.verdictWaits_congr (by simp) (by simp) p

/-- A verdict for the port that is active, with no failover under way, changes nothing (R461). -/
theorem netVerdict_run_active {g : Hub} {x : CmdIn} (hm : g.cfg.net.arbMode = 0) (he : (g.portCfg (fld (pw x.pl 0) 0 0)).enable = true)
    (hw : g.verdictWaits (fld (pw x.pl 0) 0 0) = false) : netVerdict.run g x = { hub := g } := by
  simp [netVerdict, hm, he, hw]

theorem netVerdict_run_waits {g : Hub} {x : CmdIn} (hh : g.clk.held = false) (hw : g.verdictWaits (fld (pw x.pl 0) 0 0) = true) :
    netVerdict.run g x = { hub := g.obey (fld (pw x.pl 0) 0 0) 0 (some x.handle) } := by
  have waits := hw
  simp only [Hub.verdictWaits, Bool.and_eq_true, beq_iff_eq] at waits
  obtain ⟨⟨mode, enable⟩, -⟩ := waits
  simp [netVerdict, mode, enable, hw, Hub.verdictTake, hh]

theorem netVerdict_answers (ht : s.takes netVerdict mb tag pl = true) (hm : s.hub.cfg.net.arbMode = 0)
    (he : (s.hub.portCfg (fld (pw pl 0) 0 0)).enable = true) (hw : s.hub.verdictWaits (fld (pw pl 0) 0 0) = false) :
    Answers (.netVerdict mb tag pl) s mb tag DONE [] fun _ t => t.net = s.hub.net := by
  have waits : netVerdict.long (s.hub.executing netVerdict mb tag pl) pl = false := (Hub.verdictWaits_executing ..).trans hw
  have run : netVerdict.run _ (.of mb tag pl 0) = _ := netVerdict_run_active (g := s.hub.executing netVerdict mb tag pl) (by simpa using hm)
    (by simpa [Hub.portCfg, CmdIn.of] using he) waits
  refine answers_of_run (c := netVerdict) rfl ht waits run rfl rfl (by decide) (by decide) (Hub.onlyIn_refl _ _) fun t h => ?_
  rw [show t.net = _ from h .net (by decide)]
  simp

/-- A verdict during a failover waits for its end (R447). -/
theorem Hub.obey_during {h : Hub} (p source : Nat) (handle : Option Nat) (hf : h.net.failover.isSome = true) (hv : h.net.verdict = none) :
    h.obey p source handle = { h with net := { h.net with verdict := some (p, source, handle) } } := by
  simp [Hub.obey, hf, hv]

theorem Hub.obey_fails {h : Hub} {p : Nat} (source : Nat) (handle : Option Nat) (hw : h.verdictWaits p = true) (hf : h.net.failover = none) :
    h.obey p source handle = h.failStart p source handle false := by
  simp only [Hub.verdictWaits, hf, Option.isSome_none, Bool.false_or, Bool.and_eq_true, Bool.not_eq_true'] at hw
  obtain ⟨⟨-, enable⟩, idle⟩ := hw
  simp [Hub.obey, hf, idle, enable]

theorem netVerdict_accepts_during (ht : s.takes netVerdict mb tag pl = true) (hh : s.hub.clk.held = false)
    (hw : s.hub.verdictWaits (fld (pw pl 0) 0 0) = true) (hf : s.hub.net.failover.isSome = true) (hv : s.hub.net.verdict = none) :
    Accepts (.netVerdict mb tag pl) s mb tag [.net] fun hd t =>
      t.net = { s.hub.net with verdict := some (fld (pw pl 0) 0 0, 0, some hd) } := by
  refine accepts_of_run (c := netVerdict) rfl ht ((Hub.verdictWaits_executing ..).trans hw) (by decide) fun g hd hg => ?_
  have net : g.net = s.hub.net := hg .net (by decide)
  have clk : g.clk = s.hub.clk := hg .clk (by decide)
  have waits := (Hub.verdictWaits_congr (hg .cfg (by decide)) net (fld (pw pl 0) 0 0)).trans hw
  have run := (netVerdict_run_waits (x := .of mb tag pl hd) (clk ▸ hh) waits).trans
    (congrArg (fun k : Hub => ({ hub := k } : CmdRes)) (Hub.obey_during _ _ _ (net ▸ hf) (net ▸ hv)))
  refine ⟨_, run, by simp [Hub.onlyIn_iff], fun t h => ?_⟩
  rw [show t.net = _ from h .net (by decide), ← net]
  rfl

theorem netVerdict_accepts_fails (ht : s.takes netVerdict mb tag pl = true) (hh : s.hub.clk.held = false)
    (hw : s.hub.verdictWaits (fld (pw pl 0) 0 0) = true) (hf : s.hub.net.failover = none) :
    Accepts (.netVerdict mb tag pl) s mb tag [.net, .tb, .tiu, .evt, .jrn, .sto] fun hd t => ∃ f, t.net.failover = some f ∧
      f.dest = fld (pw pl 0) 0 0 ∧ f.source = 0 ∧ f.handle = some hd ∧ t.net.failovers = sat32 (s.hub.net.failovers + 1) := by
  refine accepts_of_raises (c := netVerdict) rfl ht ((Hub.verdictWaits_executing ..).trans hw) fun g hd hg => ?_
  have net : g.net = s.hub.net := hg .net (by decide)
  have clk : g.clk = s.hub.clk := hg .clk (by decide)
  have waits := (Hub.verdictWaits_congr (hg .cfg (by decide)) net (fld (pw pl 0) 0 0)).trans hw
  have run := (netVerdict_run_waits (x := .of mb tag pl hd) (clk ▸ hh) waits).trans
    (congrArg (fun k : Hub => ({ hub := k } : CmdRes)) (Hub.obey_fails 0 (some hd) waits (net ▸ hf)))
  obtain ⟨raises, -, failovers, f, failover, dest, source, handle⟩ := g.failStart_fails (fld (pw pl 0) 0 0) 0 (some hd) false
  refine ⟨_, run, raises, fun t h => ?_⟩
  rw [show t.net = _ from h .net (by decide), ← net]
  exact ⟨f, failover, dest, source, handle, failovers⟩

theorem netPathStatus_answers (ht : s.takes netPathStatus mb tag pl = true) :
    Answers (.netPathStatus mb tag pl) s mb tag DONE [] fun ws _ => ws.length = 11 ∧ ws.getD 2 0 = wd s.hub.net.vseq ∧
      (ws.drop 3).take 4 = [wd s.hub.net.failovers, wd s.hub.net.ignored, wd s.hub.net.rejects, wd s.hub.net.suspects] := by
  refine answers_of_run (c := netPathStatus) rfl ht rfl rfl rfl rfl (by decide) (by decide) (Hub.onlyIn_refl _ _) fun t _ => ⟨rfl, ?_, ?_⟩
  · simp [netPathStatus]
  · simp [netPathStatus]

end

/-- Settles O28: each command by what its run writes; NET_PATH_SET may obey the pin (`Hub.verdictTake_obeys`), and a verdict for the other port
starts a failover (`Hub.failStart_fails`). -/
theorem networkCommands : Obligations.NetworkCommands := by
  unfold Obligations.NetworkCommands
  exact ⟨fun _ _ _ _ => netFrameWrite_answers, fun _ _ _ _ => netFrameSend_answers, fun _ _ _ _ => netLaunch_accepts,
    fun _ _ _ _ => netPathSet_answers, fun _ _ _ _ => netAddrSet_answers, fun _ _ _ _ => netVerdict_answers,
    fun _ _ _ _ => netVerdict_accepts_during, fun _ _ _ _ => netVerdict_accepts_fails, fun _ _ _ _ => netPathStatus_answers⟩

end Sys2Proof.Machine

/-! PROOFS. Time-interval commands (O29). -/
namespace Sys2Proof.Machine

/-! ### What the settings of an input or a unit end (R285, R288, R293, R294) -/

theorem Hub.tachBreak_onlyIn (h : Hub) (i : Nat) : h.onlyIn [.flt, .tiu] (h.tachBreak i) := by
  unfold Hub.tachBreak
  split
  · exact Hub.onlyIn_mono (h.onlyIn_tiu _) (by decide)
  · exact Hub.onlyIn_mono (h.orderBreak_onlyIn i) (by decide)

/-- Input `i` is about to be set to `c`: an input that leaves TACH mode breaks its interval, and the prescaler starts anew. -/
def Hub.inputLeft (h : Hub) (i : Nat) (c : TiuInCfg) : Hub :=
  let g := if (h.tiuIn i).mode = 3 ∧ c.mode ≠ 3 then h.tachBreak i else h
  { g with tiu := { g.tiu with presc := g.tiu.presc.put i 0 } }

theorem Hub.inputLeft_onlyIn (h : Hub) (i : Nat) (c : TiuInCfg) : h.onlyIn [.flt, .tiu] (h.inputLeft i c) := by
  refine Hub.onlyIn_trans (g := if (h.tiuIn i).mode = 3 ∧ c.mode ≠ 3 then h.tachBreak i else h) ?_
    (Hub.onlyIn_mono (Hub.onlyIn_tiu _ _) (by decide))
  split
  · exact h.tachBreak_onlyIn i
  · exact h.onlyIn_refl _

/-- Interval unit `u` is about to be set: the start that it holds is dropped, and the edges that it remembers are forgotten. -/
def Hub.unitLeft (h : Hub) (u : Nat) : Hub := ((h.iuDrop u).setStop u none).setReplaced u none

theorem Hub.tiuCount_onlyIn (h : Hub) (s i : Nat) : h.onlyIn [.tiu] (h.tiuCount s i) := h.onlyIn_tiu _
theorem Hub.setHeld_onlyIn (h : Hub) (u : Nat) (s : Option Stamp) : h.onlyIn [.tiu] (h.setHeld u s) := h.onlyIn_tiu _
theorem Hub.setStop_onlyIn (h : Hub) (u : Nat) (s : Option Stamp) : h.onlyIn [.tiu] (h.setStop u s) := h.onlyIn_tiu _
theorem Hub.setReplaced_onlyIn (h : Hub) (u : Nat) (s : Option Stamp) : h.onlyIn [.tiu] (h.setReplaced u s) := h.onlyIn_tiu _
theorem Hub.iuForget_onlyIn (h : Hub) (u : Nat) : h.onlyIn [.tiu] (h.iuForget u) :=
  Hub.onlyIn_trans (h.setHeld_onlyIn u none) (Hub.setReplaced_onlyIn _ u none)

theorem Hub.iuDrop_onlyIn (h : Hub) (u : Nat) : h.onlyIn [.tiu] (h.iuDrop u) := by
  unfold Hub.iuDrop
  split
  · exact Hub.onlyIn_trans (h.tiuCount_onlyIn _ _) (Hub.iuForget_onlyIn _ u)
  · exact h.onlyIn_refl _

theorem Hub.unitLeft_onlyIn (h : Hub) (u : Nat) : h.onlyIn [.tiu] (h.unitLeft u) :=
  Hub.onlyIn_trans (h.iuDrop_onlyIn u) (Hub.onlyIn_trans (Hub.setStop_onlyIn _ u none) (Hub.setReplaced_onlyIn _ u none))

/-! ### Settings (R293, R294, R298) -/

/-- The unit's settings become `f` of what they are. -/
def Hub.updTiuCfg (h : Hub) (f : TiuCfg → TiuCfg) : Hub := { h with cfg := { h.cfg with tiu := f h.cfg.tiu } }

theorem Hub.updTiuCfg_onlyIn (h : Hub) (f : TiuCfg → TiuCfg) : h.onlyIn [.cfg] (h.updTiuCfg f) := by simp [Hub.onlyIn_iff, Hub.updTiuCfg]

theorem tiuInputSet_run (h : Hub) (x : CmdIn) : tiuInputSet.run h x = {
    hub := (h.inputLeft (fld (pw x.pl 0) 2 0) (pwTiuIn x.pl)).updTiuCfg fun k => { k with
      inputs := k.inputs.put (fld (pw x.pl 0) 2 0) (pwTiuIn x.pl) } } := rfl
theorem tiuIntervalSet_run (h : Hub) (x : CmdIn) : tiuIntervalSet.run h x = {
    hub := (h.unitLeft (fld (pw x.pl 0) 2 0)).updTiuCfg fun k => { k with
      units := k.units.put (fld (pw x.pl 0) 2 0) (pwTiuUnit x.pl) } } := rfl
theorem tiuCalSet_run (h : Hub) (x : CmdIn) : tiuCalSet.run h x = { hub := h.updTiuCfg fun k => { k with calInt := fld (pw x.pl 0) 11 0 } } := rfl

section
variable {s : State} {mb : Fin 8} {tag : Word} {pl : List Word}

/-- A command that changes the chapters `cs` and then the unit's settings by `f` is answered, and the settings are `f` of what they were. -/
theorem answers_of_updTiuCfg {i : Instr} {c : CmdSpec} {cs : List Chapter} {f : TiuCfg → TiuCfg} {g : Hub}
    (hi : exec i s = s.mailRow c mb tag pl) (ht : s.takes c mb tag pl = true) (hl : c.long (s.hub.executing c mb tag pl) pl = false)
    (hr : c.run (s.hub.executing c mb tag pl) (.of mb tag pl 0) = { hub := g.updTiuCfg f })
    (hg : (s.hub.executing c mb tag pl).onlyIn cs g) (hc : .cfg ∉ cs) (hm : .host ∉ cs) :
    Answers i s mb tag DONE (.cfg :: cs) fun _ t => t.cfg = { s.hub.cfg with tiu := f s.hub.cfg.tiu } := by
  have cfg : g.cfg = s.hub.cfg := (hg .cfg hc).trans (s.hub.executing_cfg c mb tag pl)
  refine answers_of_run hi ht hl hr rfl rfl (by decide) (by simp [hm]) ?_ fun t h => ?_
  · exact Hub.onlyIn_trans (Hub.onlyIn_mono hg (List.subset_cons_self _ _)) (Hub.onlyIn_mono (g.updTiuCfg_onlyIn f) (by simp))
  · rw [show t.cfg = _ from h .cfg (by decide), ← cfg]
    rfl

theorem tiuInputSet_answers (ht : s.takes tiuInputSet mb tag pl = true) :
    Answers (.tiuInputSet mb tag pl) s mb tag DONE [.cfg, .flt, .tiu] fun _ t => t.cfg = { s.hub.cfg with
      tiu := { s.hub.cfg.tiu with inputs := s.hub.cfg.tiu.inputs.put (fld (pw pl 0) 2 0) (pwTiuIn pl) } } := by
  have answered := answers_of_updTiuCfg (i := .tiuInputSet mb tag pl) rfl ht rfl (tiuInputSet_run _ _) (Hub.inputLeft_onlyIn _ _ _)
    (by decide) (by decide)
  exact answered

theorem tiuIntervalSet_answers (ht : s.takes tiuIntervalSet mb tag pl = true) :
    Answers (.tiuIntervalSet mb tag pl) s mb tag DONE [.cfg, .tiu] fun _ t => t.cfg = { s.hub.cfg with
      tiu := { s.hub.cfg.tiu with units := s.hub.cfg.tiu.units.put (fld (pw pl 0) 2 0) (pwTiuUnit pl) } } := by
  have answered := answers_of_updTiuCfg (i := .tiuIntervalSet mb tag pl) rfl ht rfl (tiuIntervalSet_run _ _) (Hub.unitLeft_onlyIn _ _)
    (by decide) (by decide)
  exact answered

theorem tiuCalSet_answers (ht : s.takes tiuCalSet mb tag pl = true) :
    Answers (.tiuCalSet mb tag pl) s mb tag DONE [.cfg] fun _ t => t.cfg = { s.hub.cfg with
      tiu := { s.hub.cfg.tiu with calInt := fld (pw pl 0) 11 0 } } := by
  have answered := answers_of_updTiuCfg (i := .tiuCalSet mb tag pl) rfl ht rfl (tiuCalSet_run _ _) (Hub.onlyIn_refl _ []) (by decide) (by decide)
  exact answered

/-! ### Gates, results and counters (R295 to R297) -/

theorem tiuFreq_accepts (ht : s.takes tiuFreq mb tag pl = true) :
    Accepts (.tiuFreq mb tag pl) s mb tag [.tiu] fun hd t => ∃ g : Gate, t.tiu.gates = s.hub.tiu.gates ++ [g] ∧ g.input = fld (pw pl 0) 2 0 ∧
      g.handle = hd ∧ g.land = bit (pw pl 0) 15 ∧ g.ms = (pw pl 1).toNat ∧ g.points = [] := by
  refine accepts_of_run (c := tiuFreq) rfl ht rfl (by decide) fun k hd hk => ⟨_, rfl, k.onlyIn_tiu _, fun t h => ?_⟩
  rw [show t.tiu = _ from h .tiu (by decide), ← show k.tiu = s.hub.tiu from hk .tiu (by decide)]
  exact ⟨_, rfl, rfl, rfl, rfl, rfl, rfl⟩

theorem tiuRead_answers (ht : s.takes tiuRead mb tag pl = true) :
    Answers (.tiuRead mb tag pl) s mb tag DONE [.tiu] fun ws t =>
      ws = wd (((s.hub.tiu.queues.get (fld (pw pl 0) 2 0)).entries.take 15).length +
        (s.hub.tiu.queues.get (fld (pw pl 0) 2 0)).lost * 65536) ::
        ((s.hub.tiu.queues.get (fld (pw pl 0) 2 0)).entries.take 15).flatten ∧
      (t.tiu.queues.get (fld (pw pl 0) 2 0)).lost = 0 ∧
      (t.tiu.queues.get (fld (pw pl 0) 2 0)).entries = (s.hub.tiu.queues.get (fld (pw pl 0) 2 0)).entries.drop 15 := by
  refine answers_of_run (c := tiuRead) rfl ht rfl rfl rfl rfl (by decide) (by decide) (Hub.onlyIn_tiu _ _) fun t h => ⟨?_, ?_⟩
  · simp [tiuRead, CmdIn.of]
  · rw [show t.tiu = _ from h .tiu (by decide)]
    simp [tiuRead, CmdIn.of]

theorem tiuStatus_answers (ht : s.takes tiuStatus mb tag pl = true) :
    Answers (.tiuStatus mb tag pl) s mb tag DONE [.tiu] fun ws t => ws.length = 9 ∧ (bit (pw pl 0) 8 = false →
      ws.drop 1 = (List.range 8).map fun k => wd (s.hub.tiu.counts.get (16 * fld (pw pl 0) 2 0 + k))) ∧ (bit (pw pl 0) 9 = false →
      t.tiu.counts = s.hub.tiu.counts) := by
  refine answers_of_run (c := tiuStatus) rfl ht rfl rfl rfl rfl (by decide) (by decide) (Hub.onlyIn_tiu _ _)
    fun t h => ⟨rfl, fun input => ?_, fun keep => ?_⟩
  · simp [tiuStatus, CmdIn.of, input]
  · rw [show t.tiu = _ from h .tiu (by decide)]
    simp [tiuStatus, CmdIn.of, keep]

end

/-- Settles O29: the three settings go over `answers_of_updTiuCfg`; a gate is accepted and the reads are answered
by what their run gives. -/
theorem timeIntervalCommands : Obligations.TimeIntervalCommands := by
  unfold Obligations.TimeIntervalCommands
  exact ⟨fun _ _ _ _ => tiuInputSet_answers, fun _ _ _ _ => tiuIntervalSet_answers, fun _ _ _ _ => tiuFreq_accepts,
    fun _ _ _ _ => tiuRead_answers, fun _ _ _ _ => tiuStatus_answers, fun _ _ _ _ => tiuCalSet_answers⟩

end Sys2Proof.Machine

/-! PROOFS. Journal, delivery and live-queue commands (O30). -/
namespace Sys2Proof.Machine

/-! ### Tables and masks -/

/-- A table whose listed entries are each changed once. -/
theorem Tab.get_foldl_upd {α : Type} [Inhabited α] [DecidableEq α] (f : Nat → α → α) {l : List Nat} (hl : l.Nodup) (t : Tab α) (m : Nat) :
    (l.foldl (fun t k => t.upd k (f k)) t).get m = if m ∈ l then f m (t.get m) else t.get m := by
  induction l generalizing t with
  | nil => rfl
  | cons k l ih =>
    obtain ⟨hk, hl⟩ := List.nodup_cons.mp hl
    rw [List.foldl_cons, ih hl, Tab.get_upd]
    by_cases e : m = k
    · simp [e, hk]
    · simp [e]

theorem mem_bitsOf (x : Nat) {n k : Nat} (hk : k < n) : k ∈ bitsOf x n ↔ x.testBit k = true := by
  simp [bitsOf, hk]

theorem nodup_bitsOf (x n : Nat) : (bitsOf x n).Nodup := List.nodup_range.filter _

/-- No bit is in both of two masks that have none in common. -/
theorem testBit_of_disjoint {a b k : Nat} (hd : a &&& b = 0) (ha : a.testBit k = true) : b.testBit k = false := by
  have both := congrArg (Nat.testBit · k) hd
  simpa [ha] using both

/-! ### Settings that the commands describe (R340, R342, R346, R347) -/

def pwChg (pl : List Word) : ChgCfg where
  thin := bit (pw pl 0) 31
  uDrop := bit (pw pl 0) 30
  lateWait := fld (pw pl 0) 29 26
  recordMs := fld (pw pl 0) 25 16
  chans := pwChans (pl.drop 1) (fld (pw pl 0) 13 7)

/-- The consumer that CONSUMER_SET describes; the window and the timeout are those of consumer 1 alone, and others keep theirs in `old`. -/
def pwConsumer (old : ConsCfg) (pl : List Word) : ConsCfg where
  enable := bit (pw pl 0) 31
  required := bit (pw pl 0) 30
  typeMask := fld (pw pl 0) 24 16
  groupMask := mask64 (pw pl 1) (pw pl 2)
  ipv6 := bit (pw pl 3) 31
  dstPort := fld (pw pl 3) 15 0
  srcPort := fld (pw pl 4) 15 0
  dst := (pl.drop 5).take 4
  window := if fld (pw pl 0) 1 0 = 1 then fld (pw pl 9) 31 16 else old.window
  ackTimeout := if fld (pw pl 0) 1 0 = 1 then fld (pw pl 9) 15 0 else old.ackTimeout

def pwLive (pl : List Word) : LiveCfg where
  enable := bit (pw pl 0) 31
  pepper := bit (pw pl 0) 30
  queue := fld (pw pl 0) 23 20
  ch := fld (pw pl 0) 9 0
  batch := fld (pw pl 1) 23 16
  decim := fld (pw pl 1) 15 0

def pwDesc (pl : List Word) : DescCfg where
  fullScale := BitVec.ofNat 64 (mask64 (pw pl 1) (pw pl 2))
  units := pl.drop 3

/-! ### A consumer starts and moves (R325, R328, R339) -/

theorem Hub.requireMove_records (h : Hub) (c : Nat) : h.Records (h.requireMove c) := by
  unfold Hub.requireMove
  dsimp only
  split
  · exact .refl h
  · exact .of_jrn (Hub.raise_records _ _ _)

theorem Hub.restartConsumer_records (h : Hub) (c : Nat) : h.Records (h.restartConsumer c) := .of_jrn (Hub.skipOn_records _ c)

theorem Hub.newSession_onlyIn (h : Hub) : h.onlyIn [.jrn, .free] h.newSession := by simp [Hub.onlyIn_iff, Hub.newSession]

theorem Hub.sendLanded_tx (h : Hub) (n : Nat) (all : Bool) : h.tx <+: (h.sendLanded n all).tx := List.prefix_append _ _

/-- The landed marks advance, and what was sent stays sent. -/
theorem Hub.slMarks_raises (h : Hub) : h.Raises [.flt, .sl] h.slMarks := by
  refine ⟨Hub.onlyIn_mono h.slMarks_onlyIn (by decide), ⟨h.host.pba, h.slMarks_onlyIn .host (by decide)⟩, ?_⟩
  refine List.foldlRecOn (motive := fun g : Hub => h.tx <+: g.tx) _ _ (List.prefix_refl _) fun g hg n _ => ?_
  dsimp only
  have passed : ∀ (y : Lane) fs, h.tx <+: ((g.setLane n y).fatesPass fs).tx := fun y fs =>
    ((g.setLane n y).fatesPass_onlyIn fs .tx (by decide) : _ = g.tx) ▸ hg
  split_ifs
  · exact hg
  · exact (passed _ _).trans (Hub.sendLanded_tx _ n false)
  · exact passed _ _

/-- Pages are freed and the landed marks follow. -/
theorem Hub.freed_raises (h : Hub) : h.Raises [.jrn, .evt, .sto, .flt, .sl] h.freePages.slMarks :=
  (h.freePages_records.raises.mono (by decide)).trans (h.freePages.slMarks_raises.mono (by decide))

/-- The hub in which consumer `n` has the settings `k`. -/
def Hub.consumerPut (h : Hub) (n : Nat) (k : ConsCfg) : Hub :=
  { h with cfg := { h.cfg with jrn := { h.cfg.jrn with consumers := h.cfg.jrn.consumers.put n k } } }

theorem Hub.consumerPut_onlyIn (h : Hub) (n : Nat) (k : ConsCfg) : h.onlyIn [.cfg] (h.consumerPut n k) := by
  simp [Hub.onlyIn_iff, Hub.consumerPut]

/-- Consumer `n`, whose settings were `old`, moves when it has become REQUIRED and starts when it has become enabled. -/
def Hub.consumerStarts (h : Hub) (n : Nat) (old : ConsCfg) : Hub :=
  let g := if (h.cons n).required && !old.required then h.requireMove n else h
  if (g.cons n).enable && !old.enable then if n = 1 then (g.restartConsumer n).newSession else g.restartConsumer n else g

theorem Hub.consumerStarts_raises (h : Hub) (n : Nat) (old : ConsCfg) : h.Raises [.jrn, .evt, .sto, .free] (h.consumerStarts n old) := by
  unfold Hub.consumerStarts
  extract_lets g
  have moved : h.Raises [.jrn, .evt, .sto, .free] g := by
    unfold g
    split
    · exact (h.requireMove_records n).raises.mono (by decide)
    · exact .refl h _
  have started : g.Raises [.jrn, .evt, .sto, .free] (g.restartConsumer n) := (g.restartConsumer_records n).raises.mono (by decide)
  have session : ∀ k : Hub, k.Raises [.jrn, .evt, .sto, .free] k.newSession := fun k =>
    (Hub.raises_of_onlyIn k.newSession_onlyIn (by decide) (by decide)).mono (by decide)
  split_ifs
  · exact moved.trans (started.trans (session _))
  · exact moved.trans started
  · exact moved

/-- The hub in which CONSUMER_SET has taken effect for consumer `n`: it frees what no one holds any more. -/
def Hub.consumerTaken (h : Hub) (n : Nat) (k : ConsCfg) : Hub := ((h.consumerPut n k).consumerStarts n (h.cons n)).freePages.slMarks

theorem Hub.consumerTaken_raises (h : Hub) (n : Nat) (k : ConsCfg) :
    h.Raises [.cfg, .jrn, .evt, .sto, .free, .flt, .sl] (h.consumerTaken n k) :=
  (((Hub.raises_of_onlyIn (h.consumerPut_onlyIn n k) (by decide) (by decide)).mono (by decide)).trans
    ((Hub.consumerStarts_raises _ n _).mono (by decide))).trans ((Hub.freed_raises _).mono (by decide))

theorem Hub.consumerTaken_cfg (h : Hub) (n : Nat) (k : ConsCfg) : (h.consumerTaken n k).cfg.jrn.consumers.get n = k := by
  have cfg : (h.consumerTaken n k).cfg = (h.consumerPut n k).cfg :=
    ((Hub.freed_raises _).only .cfg (by decide)).trans ((Hub.consumerStarts_raises _ n _).only .cfg (by decide))
  rw [cfg]
  simp [Hub.consumerPut]

theorem consumerSet_run (h : Hub) (x : CmdIn) : consumerSet.run h x = {
    hub := h.consumerTaken (fld (pw x.pl 0) 1 0) (pwConsumer (h.cons (fld (pw x.pl 0) 1 0)) x.pl) } := rfl

/-- On the master consumer 2 is neither enabled nor REQUIRED (R429). -/
theorem Hub.cons_master {h : Hub} (hm : h.isMaster = true) : (h.cons 2).enable = false ∧ (h.cons 2).required = false := by
  simp [Hub.cons, hm]

section
variable {s : State} {mb : Fin 8} {tag : Word} {pl : List Word}

/-- A command that leaves SYS alone leaves the straps as they were. -/
theorem Answers.with_straps {i : Instr} {m status : Nat} {cs : List Chapter} {P Q : List Word → Hub → Prop} (ha : Answers i s m tag status cs P)
    (hc : .sys ∉ cs) (hQ : ∀ ws t, t.sys.straps = s.hub.sys.straps → P ws t → Q ws t) : Answers i s m tag status cs Q := by
  obtain ⟨t, ws, runs, pending, response, frame, slots, holds⟩ := ha
  have sys := frame.2.1 hc
  exact ⟨t, ws, runs, pending, response, frame, slots, hQ ws t.hub (by rw [sys]) holds⟩

theorem consumerSet_answers (ht : s.takes consumerSet mb tag pl = true) :
    Answers (.consumerSet mb tag pl) s mb tag DONE [.cfg, .jrn, .evt, .sto, .free, .flt, .sl] fun _ t =>
      (t.cfg.jrn.consumers.get (fld (pw pl 0) 1 0)).enable = bit (pw pl 0) 31 ∧
      (t.cfg.jrn.consumers.get (fld (pw pl 0) 1 0)).required = bit (pw pl 0) 30 ∧
      (t.cfg.jrn.consumers.get (fld (pw pl 0) 1 0)).typeMask = fld (pw pl 0) 24 16 ∧
      (t.cfg.jrn.consumers.get (fld (pw pl 0) 1 0)).groupMask = mask64 (pw pl 1) (pw pl 2) ∧
      (s.hub.isMaster = true → (t.cons 2).enable = false ∧ (t.cons 2).required = false) := by
  refine Answers.with_straps (P := fun _ t => ∃ old, t.cfg.jrn.consumers.get (fld (pw pl 0) 1 0) = pwConsumer old pl) ?_ (by decide) ?_
  · refine answers_of_raises (c := consumerSet) rfl ht rfl (consumerSet_run _ _) rfl rfl (by decide) ?_ fun t h => ?_
    · dsimp only
      exact Hub.consumerTaken_raises _ _ _
    · dsimp only at h
      have cfg : t.cfg = Hub.cfg (Hub.consumerTaken _ _ _) := h .cfg (by decide)
      rw [cfg]
      exact ⟨_, Hub.consumerTaken_cfg _ _ _⟩
  · rintro ws t straps ⟨old, cons⟩
    rw [cons]
    exact ⟨rfl, rfl, rfl, rfl, fun hm => Hub.cons_master (by rw [Hub.isMaster, straps]; exact hm)⟩

/-! ### Channel groups (R340, R341) -/

theorem chgSet_answers (ht : s.takes chgSet mb tag pl = true) :
    Answers (.chgSet mb tag pl) s mb tag DONE [.cfg, .jrn] fun _ t => t.cfg = { s.hub.cfg with
      jrn := { s.hub.cfg.jrn with groups := s.hub.cfg.jrn.groups.put (fld (pw pl 0) 5 0) (pwChg pl) } } := by
  refine answers_of_run (c := chgSet) rfl ht rfl rfl rfl rfl (by decide) (by decide) ?_ fun t h => ?_
  · simp [Hub.onlyIn_iff, chgSet]
  · rw [show t.cfg = _ from h .cfg (by decide)]
    simp [chgSet, CmdIn.of, pwChg]

/-- What CHG_RUN asks of a group by the masks of its starts and stops (R341). -/
def ChgSt.asked (starts stops strobes g : Nat) (x : ChgSt) : ChgSt := { x with
  startReq := if starts.testBit g then true else if stops.testBit g then false else x.startReq,
  stopReq := if stops.testBit g then true else if starts.testBit g then false else x.stopReq,
  reqSince := strobes }

theorem chgRun_run (h : Hub) (x : CmdIn) : chgRun.run h x = {
    hub := { h with jrn := { h.jrn with
      groups := (bitsOf (mask64 (pw x.pl 0) (pw x.pl 1) ||| mask64 (pw x.pl 2) (pw x.pl 3)) 64).foldl (fun t g => t.upd g
        (ChgSt.asked (mask64 (pw x.pl 0) (pw x.pl 1)) (mask64 (pw x.pl 2) (pw x.pl 3)) h.tb.strobes g)) h.jrn.groups } },
    words := h.strobeWords } := rfl

/-- No group is both started and stopped. -/
theorem chgRun_disjoint (ht : s.takes chgRun mb tag pl = true) : mask64 (pw pl 0) (pw pl 1) &&& mask64 (pw pl 2) (pw pl 3) = 0 := by
  have good := State.bad_of_takes ht
  simp only [chgRun, badIf] at good
  by_contra hd
  simp [hd] at good

theorem chgRun_answers (ht : s.takes chgRun mb tag pl = true) :
    Answers (.chgRun mb tag pl) s mb tag DONE [.jrn] fun ws t =>
      (∀ g : Nat, g < 64 → (mask64 (pw pl 0) (pw pl 1)).testBit g = true → (t.chg g).startReq = true ∧ (t.chg g).stopReq = false) ∧
      (∀ g : Nat, g < 64 → (mask64 (pw pl 2) (pw pl 3)).testBit g = true → (t.chg g).stopReq = true ∧ (t.chg g).startReq = false) ∧
      ws = tWords s.hub.nextStrobe.1 ++ [wd s.hub.nextStrobe.2] := by
  have disjoint := chgRun_disjoint ht
  refine answers_of_run (c := chgRun) rfl ht rfl (chgRun_run _ _) rfl rfl (by decide) (by decide) (by simp [Hub.onlyIn_iff]) fun t h => ?_
  have group : ∀ g, t.chg g = _ := fun g => (congrArg (fun j : JrnSt => j.groups.get g) (h .jrn (by decide))).trans
    (Tab.get_foldl_upd _ (nodup_bitsOf _ 64) _ g)
  refine ⟨fun g hg starts => ?_, fun g hg stops => ?_, by simp [Hub.strobeWords, Hub.nextStrobe_executing]⟩
  · rw [group, if_pos ((mem_bitsOf _ hg).mpr (by simp [CmdIn.of, starts]))]
    simp [ChgSt.asked, CmdIn.of, starts, testBit_of_disjoint disjoint starts]
  · rw [group, if_pos ((mem_bitsOf _ hg).mpr (by simp [CmdIn.of, stops]))]
    simp [ChgSt.asked, CmdIn.of, stops, testBit_of_disjoint (Nat.and_comm .. ▸ disjoint) stops]

/-! ### The journal, keys, live queues and descriptors (R343 to R347) -/

theorem journalSet_answers (ht : s.takes journalSet mb tag pl = true) :
    Answers (.journalSet mb tag pl) s mb tag DONE [.cfg, .jrn, .evt] fun _ t => t.cfg = { s.hub.cfg with jrn := { s.hub.cfg.jrn with
      hwPct := fld (pw pl 0) 31 24, resumePages := fld (pw pl 0) 15 0, floor := (pw pl 1).toNat, versionCompat := bit (pw pl 2) 8,
      retireCe := fld (pw pl 2) 7 0 } } := by
  refine answers_of_raises (c := journalSet) rfl ht rfl rfl rfl rfl (by decide) ?_ fun t h => ?_
  · exact ((Hub.raises_of_onlyIn (cs := [.cfg]) (by simp [Hub.onlyIn_iff]) (by decide) (by decide)).mono (by decide)).trans
      (((Hub.jrnDegrade_raises _).trans (Hub.jrnState_raises _)).mono (by decide))
  · rw [show t.cfg = _ from h .cfg (by decide)]
    simp [journalSet, CmdIn.of]

theorem Hub.jFree_executing (h : Hub) (c : CmdSpec) (m : Nat) (tag : Word) (pl : List Word) : (h.executing c m tag pl).jFree = h.jFree := by
  obtain ⟨_, e⟩ := h.executing_frame c m tag pl
  rw [e]
  rfl

theorem journalStatus_answers (ht : s.takes journalStatus mb tag pl = true) :
    Answers (.journalStatus mb tag pl) s mb tag DONE [] fun ws _ => ws.length = 12 ∧
      ws.take 3 = [wd s.hub.capacity, wd s.hub.jFree, wd s.hub.retiredPages.length] ∧
      (ws.drop 5).take 2 = [lo32 s.hub.jrn.nextTicket, hi32 s.hub.jrn.nextTicket] := by
  refine answers_of_run (c := journalStatus) rfl ht rfl rfl rfl rfl (by decide) (by decide) (Hub.onlyIn_refl _ _) fun t _ => ⟨rfl, ?_, ?_⟩
  · simp [journalStatus, Hub.capacity, Hub.jFree_executing, Hub.retiredPages]
  · simp [journalStatus]

/-- The key slots after FERRY_KEY_SET (R345). -/
def pwFerryKeys (keys : Tab KeySlot) (pl : List Word) : Tab KeySlot :=
  let put := keys.put (fld (pw pl 0) 8 8)
    { id := fld (pw pl 0) 23 16, key := pl.drop 1, active := bit (pw pl 0) 9 || (keys.get (fld (pw pl 0) 8 8)).active }
  if bit (pw pl 0) 9 then put.upd (1 - fld (pw pl 0) 8 8) fun x => { x with active := false } else put

/-- A key that encrypts starts a new SESSION. -/
theorem ferryKeySet_run (h : Hub) (x : CmdIn) : ∃ g, ferryKeySet.run h x = { hub := g } ∧ h.onlyIn [.sto, .jrn, .free] g ∧
    g.sto.ferryKeys = pwFerryKeys h.sto.ferryKeys x.pl := by
  refine ⟨_, rfl, ?_⟩
  split
  · exact ⟨by simp [Hub.onlyIn_iff, Hub.newSession], rfl⟩
  · exact ⟨by simp [Hub.onlyIn_iff], rfl⟩

theorem ferryKeySet_answers (ht : s.takes ferryKeySet mb tag pl = true) :
    Answers (.ferryKeySet mb tag pl) s mb tag DONE [.sto, .jrn, .free] fun _ t =>
      (t.sto.ferryKeys.get (fld (pw pl 0) 8 8)).key = pl.drop 1 ∧ (t.sto.ferryKeys.get (fld (pw pl 0) 8 8)).id = fld (pw pl 0) 23 16 ∧
      (bit (pw pl 0) 9 = true → (t.sto.ferryKeys.get (fld (pw pl 0) 8 8)).active = true ∧
        (t.sto.ferryKeys.get (1 - fld (pw pl 0) 8 8)).active = false) := by
  obtain ⟨g, run, only, keys⟩ := ferryKeySet_run (s.hub.executing ferryKeySet mb tag pl) (.of mb tag pl 0)
  refine answers_of_run (c := ferryKeySet) rfl ht rfl run rfl rfl (by decide) (by decide) only fun t h => ?_
  have other : fld (pw pl 0) 8 8 ≠ 1 - fld (pw pl 0) 8 8 := by omega
  rw [show t.sto.ferryKeys = _ from (congrArg StoSt.ferryKeys (h .sto (by decide))).trans keys]
  cases tx : bit (pw pl 0) 9 <;> simp [pwFerryKeys, CmdIn.of, tx, other]

theorem Hub.liveBatch_onlyIn (h : Hub) (k : Nat) : h.onlyIn [.jrn] (h.liveBatch k) := by
  unfold Hub.liveBatch
  extract_lets a c g
  have written : h.onlyIn [.jrn] g := by
    unfold g
    split
    · exact h.onlyIn_refl _
    · exact h.liveWrite_onlyIn _ _ _ _
  exact Hub.onlyIn_trans written (by simp [Hub.onlyIn_iff])

/-- Live source `k` has the settings `c`, and its next batch begins. -/
def Hub.livePut (h : Hub) (k : Nat) (c : LiveCfg) : Hub :=
  { h with cfg := { h.cfg with jrn := { h.cfg.jrn with live := h.cfg.jrn.live.put k c } }
           jrn := { h.jrn with liveAcc := h.jrn.liveAcc.put k {} } }

theorem liveSet_run (h : Hub) (x : CmdIn) :
    liveSet.run h x = { hub := (h.liveBatch (fld (pw x.pl 0) 29 24)).livePut (fld (pw x.pl 0) 29 24) (pwLive x.pl) } := rfl

theorem liveSet_answers (ht : s.takes liveSet mb tag pl = true) :
    Answers (.liveSet mb tag pl) s mb tag DONE [.cfg, .jrn] fun _ t => t.cfg = { s.hub.cfg with
      jrn := { s.hub.cfg.jrn with live := s.hub.cfg.jrn.live.put (fld (pw pl 0) 29 24) (pwLive pl) } } := by
  have batch := (s.hub.executing liveSet mb tag pl).liveBatch_onlyIn (fld (pw pl 0) 29 24)
  have cfg : Hub.cfg (Hub.liveBatch _ _) = s.hub.cfg := (batch .cfg (by decide)).trans (s.hub.executing_cfg ..)
  refine answers_of_run (c := liveSet) rfl ht rfl (liveSet_run _ _) rfl rfl (by decide) (by decide) ?_ fun t h => ?_
  · exact Hub.onlyIn_trans (Hub.onlyIn_mono batch (by decide)) (by simp [Hub.onlyIn_iff, Hub.livePut, CmdIn.of])
  · rw [show t.cfg = _ from h .cfg (by decide), ← cfg]
    rfl

theorem chanDescSet_answers (ht : s.takes chanDescSet mb tag pl = true) :
    Answers (.chanDescSet mb tag pl) s mb tag DONE [.cfg, .jrn] fun _ t =>
      t.cfg = { s.hub.cfg with jrn := { s.hub.cfg.jrn with desc := s.hub.cfg.jrn.desc.put (fld (pw pl 0) 9 0) (pwDesc pl) } } ∧
      t.jrn = { s.hub.jrn with descReq := s.hub.jrn.descReq ++ [(fld (pw pl 0) 9 0, s.hub.tb.strobes, pwDesc pl)] } := by
  refine answers_of_run (c := chanDescSet) rfl ht rfl rfl rfl rfl (by decide) (by decide) ?_ fun t h => ⟨?_, ?_⟩
  · simp [Hub.onlyIn_iff, chanDescSet]
  · rw [show t.cfg = _ from h .cfg (by decide)]
    simp [chanDescSet, CmdIn.of, pwDesc]
  · rw [show t.jrn = _ from h .jrn (by decide)]
    simp [chanDescSet, CmdIn.of, pwDesc]

end

/-- Settles O30: each command has its lemma above, over the paths by which a mailbox answers. -/
theorem journalCommands : Obligations.JournalCommands := by
  unfold Obligations.JournalCommands
  exact ⟨fun _ _ _ _ => chgSet_answers, fun _ _ _ _ => chgRun_answers, fun _ _ _ _ => consumerSet_answers,
    fun _ _ _ _ => journalSet_answers, fun _ _ _ _ => journalStatus_answers, fun _ _ _ _ => ferryKeySet_answers,
    fun _ _ _ _ => liveSet_answers, fun _ _ _ _ => chanDescSet_answers⟩

end Sys2Proof.Machine

/-! PROOFS. Ferry acknowledgements and verdicts (O50). -/
namespace Sys2Proof.Machine

/-! ### Landing leaves the network ferry alone (R324, R332) -/

theorem Hub.foldl_ferry {α : Type} {f : Hub → α → Hub} (hf : ∀ (g : Hub) a, (f g a).jrn.ferry = g.jrn.ferry) (l : List α) (h : Hub) :
    (l.foldl f h).jrn.ferry = h.jrn.ferry :=
  List.foldlRecOn (motive := fun g : Hub => g.jrn.ferry = h.jrn.ferry) _ _ rfl fun g hg a _ => (hf g a).trans hg

@[simp] theorem Hub.jrnState_ferry (h : Hub) : h.jrnState.jrn.ferry = h.jrn.ferry := by
  unfold Hub.jrnState
  dsimp only
  split_ifs <;> simp

@[simp] theorem Hub.jrnDegrade_ferry (h : Hub) : h.jrnDegrade.jrn.ferry = h.jrn.ferry := by
  unfold Hub.jrnDegrade
  split <;> simp

@[simp] theorem Hub.skipOn_ferry (h : Hub) (c : Nat) : (h.skipOn c).jrn.ferry = h.jrn.ferry := by
  unfold Hub.skipOn
  dsimp only
  split <;> simp

theorem Hub.skipDropped_ferry (h : Hub) (dropped : List Rec) : (h.skipDropped dropped).jrn.ferry = h.jrn.ferry := by
  refine Hub.foldl_ferry (fun g c => ?_) _ h
  dsimp only
  split <;> simp

@[simp] theorem Hub.pagesFree_ferry (h : Hub) : h.pagesFree.jrn.ferry = h.jrn.ferry := by
  unfold Hub.pagesFree
  dsimp only
  split
  · rfl
  · rw [Hub.jrnState_ferry, Hub.jrnDegrade_ferry, Hub.foldl_ferry (fun g n => by simp), Hub.skipDropped_ferry]

@[simp] theorem Hub.takeTicket_ferry (h : Hub) : h.takeTicket.2.jrn.ferry = h.jrn.ferry := by
  unfold Hub.takeTicket
  dsimp only
  split <;> simp

theorem Hub.takePage_ferry {h g : Hub} {w t n : Nat} {ss : List Share} (e : h.takePage w ss t = some (n, g)) : g.jrn.ferry = h.jrn.ferry := by
  unfold Hub.takePage at e
  split at e
  · exact absurd e nofun
  · obtain ⟨-, rfl⟩ := Prod.mk.inj (Option.some.inj e)
    rfl

theorem Hub.appendBytes_ferry {h g : Hub} {w t fuel n : Nat} {ss : List Share} {starts : Bool} {acc ps : List Nat}
    (e : h.appendBytes w ss t starts fuel n acc = some (ps, g)) : g.jrn.ferry = h.jrn.ferry := by
  induction fuel generalizing h starts n acc with
  | zero => obtain ⟨-, rfl⟩ := Prod.mk.inj (Option.some.inj e); rfl
  | succ fuel ih =>
    unfold Hub.appendBytes at e
    dsimp only at e
    split at e
    · obtain ⟨-, rfl⟩ := Prod.mk.inj (Option.some.inj e); rfl
    · split at e
      · split at e
        · exact (ih e :)
        · split at e
          · exact absurd e nofun
          · next hp => exact (ih e).trans (Hub.takePage_ferry hp)
      · split at e
        · exact absurd e nofun
        · next hp => exact (ih e).trans (Hub.takePage_ferry hp)

theorem Hub.tryLand_ferry {h g : Hub} {r : Rec} (e : h.tryLand r = some g) : g.jrn.ferry = h.jrn.ferry := by
  unfold Hub.tryLand at e
  dsimp only at e
  split at e
  · next ha =>
    obtain rfl := Option.some.inj e
    rw [Hub.jrnState_ferry, Hub.pagesFree_ferry]
    exact (Hub.appendBytes_ferry ha).trans h.takeTicket_ferry
  · exact absurd e nofun

theorem Hub.landRest_ferry (h : Hub) (rs : List Rec) : (h.landRest rs).jrn.ferry = h.jrn.ferry := by
  induction rs generalizing h with
  | nil => rfl
  | cons r rs ih =>
    unfold Hub.landRest
    split
    · next e => exact (ih _).trans (Hub.tryLand_ferry e)
    · rfl

theorem Hub.freePages_ferry (h : Hub) : h.freePages.jrn.ferry = h.jrn.ferry := (Hub.landRest_ferry _ _).trans h.pagesFree_ferry

theorem Hub.acknowledge_ferry (h : Hub) (c o t : Nat) : (h.acknowledge c o t).jrn.ferry = h.jrn.ferry := by
  unfold Hub.acknowledge
  dsimp only
  split
  · rfl
  · split
    · simp
    · exact Hub.freePages_ferry _

theorem Hub.restartConsumer_ferry (h : Hub) : (h.restartConsumer 1).jrn.ferry = { h.jrn.ferry with flight := [], restart := true } :=
  Hub.skipOn_ferry _ 1

/-! ### What a datagram of acknowledgements moves (R323, R328, R329, R429) -/

/-- From `h` to `g` acknowledgements were taken and what they make room for was sent: which datagrams have been heard stays. -/
structure Hub.Heard (h g : Hub) : Prop where
  only : h.onlyIn [.host, .evt, .jrn, .sto, .flt, .sl, .net, .casc, .tx] g
  rxSeq : g.jrn.ferry.rxSeq = h.jrn.ferry.rxSeq
  authFail : g.jrn.ferry.authFail = h.jrn.ferry.authFail

theorem Hub.Heard.refl (h : Hub) : h.Heard h := ⟨h.onlyIn_refl _, rfl, rfl⟩

theorem Hub.Heard.trans {h g t : Hub} (hg : h.Heard g) (gt : g.Heard t) : h.Heard t :=
  ⟨Hub.onlyIn_trans hg.only gt.only, gt.rxSeq.trans hg.rxSeq, gt.authFail.trans hg.authFail⟩

theorem Hub.Heard.foldl {α : Type} {f : Hub → α → Hub} (hf : ∀ (g : Hub) a, g.Heard (f g a)) (l : List α) (h : Hub) :
    h.Heard (l.foldl f h) := by
  induction l generalizing h with
  | nil => exact .refl h
  | cons a l ih => exact (hf h a).trans (ih _)

/-- What leaves the journal alone changes nothing that was heard. -/
theorem Hub.heard_of_onlyIn {h g : Hub} {cs : List Chapter} (hg : h.onlyIn cs g)
    (hs : cs ⊆ [.host, .evt, .sto, .flt, .sl, .net, .casc, .tx]) : h.Heard g := by
  have jrn : g.jrn = h.jrn := hg .jrn fun hc => absurd (hs hc) (by decide)
  exact ⟨Hub.onlyIn_mono hg (List.Subset.trans hs (by decide)), by rw [jrn], by rw [jrn]⟩

/-- A change of the journal that keeps what was heard. -/
theorem Hub.heard_jrn (h : Hub) (j : JrnSt) (hr : j.ferry.rxSeq = h.jrn.ferry.rxSeq) (ha : j.ferry.authFail = h.jrn.ferry.authFail) :
    h.Heard { h with jrn := j } := ⟨by simp [Hub.onlyIn_iff], hr, ha⟩

/-- Acknowledging may begin with such a change. -/
theorem Hub.Heard.of_jrn {h t : Hub} {j : JrnSt} (ht : ({ h with jrn := j } : Hub).Heard t) (hr : j.ferry.rxSeq = h.jrn.ferry.rxSeq)
    (ha : j.ferry.authFail = h.jrn.ferry.authFail) : h.Heard t := (h.heard_jrn j hr ha).trans ht

theorem Hub.acknowledge_heard (h : Hub) (c o t : Nat) : h.Heard (h.acknowledge c o t) :=
  ⟨Hub.onlyIn_mono (h.acknowledge_onlyIn c o t) (by decide), by rw [h.acknowledge_ferry], by rw [h.acknowledge_ferry]⟩

theorem Hub.relayPurge_heard (h : Hub) : h.Heard h.relayPurge := by
  unfold Hub.relayPurge
  dsimp only
  split
  · exact .refl h
  · exact .of_jrn (.foldl (fun g p => Hub.heard_of_onlyIn (g.cascCredit_onlyIn p) (by decide)) _ _) rfl rfl

theorem Hub.ackDown_heard (h : Hub) (o : Nat) (before : Option Nat) : h.Heard (h.ackDown o before) := by
  unfold Hub.ackDown
  split
  · split
    · exact Hub.heard_of_onlyIn (h.cascSend_sendsFrames _ _ _).only (by decide)
    · exact .refl h
  · exact .refl h

theorem Hub.ackFrom_heard (h : Hub) (c o t : Nat) : h.Heard (h.ackFrom c o t) := by
  have taken : h.Heard (h.acknowledge c o t).slMarks :=
    (h.acknowledge_heard c o t).trans (Hub.heard_of_onlyIn (Hub.slMarks_onlyIn _) (by decide))
  unfold Hub.ackFrom
  dsimp only
  split
  · exact taken
  · exact (taken.trans (Hub.ackDown_heard _ o _)).trans (Hub.relayPurge_heard _)

theorem Hub.setCauses_onlyIn (h : Hub) (n : Nat) : h.onlyIn [.net] (h.setCauses n) := by simp [Hub.onlyIn_iff, Hub.setCauses]
theorem Hub.noteCauses_onlyIn (h : Hub) : h.onlyIn [.net] h.noteCauses := h.setCauses_onlyIn _

theorem Hub.ferrySend_heard (h : Hub) (kind flags : Nat) (plain : List Byte) : h.Heard (h.ferrySend kind flags plain) := by
  unfold Hub.ferrySend
  split
  · next k p _ _ =>
    have out : ∀ (g : Hub) m, g.Heard (g.msgOut p m) := fun g m => Hub.heard_of_onlyIn (g.msgOut_drains p m 0).only (by decide)
    exact .of_jrn (out _ _) rfl rfl
  · exact .refl h

theorem Hub.ferryGo_heard (h : Hub) (start : Bool) (fuel : Nat) : h.Heard (h.ferryGo start fuel) := by
  induction fuel generalizing h start with
  | zero => exact .refl h
  | succ fuel ih =>
    unfold Hub.ferryGo
    dsimp only
    split
    · exact .refl h
    · exact .of_jrn ((Hub.ferrySend_heard _ _ _ _).trans (ih _ _)) rfl rfl

theorem Hub.flightTrim_heard (h : Hub) : h.Heard h.flightTrim := h.heard_jrn _ rfl rfl

/-! ### The rows of the network ferry (R328, R329) -/

theorem ferryAckReceive_short (h : Hub) {header : List Byte} (plain cipher : List Byte) (hl : header.length ≠ 20) :
    ferryAckReceive header plain cipher h = h := by
  simp [ferryAckReceive, hl]

/-- A header of KIND 1 that the ferry takes while its clock runs (R328). -/
structure Hub.HeardAs (h : Hub) (header : List Byte) : Prop where
  running : h.clk.held = false
  length : header.length = 20
  magic : at_ header 0 2 = 0x4653
  version : at_ header 2 1 = 1
  kind : at_ header 3 1 = 1

theorem ferryAckReceive_forged {h : Hub} {header plain cipher : List Byte} (hh : h.HeardAs header)
    (ha : h.ferryAuth header plain cipher = false) : ferryAckReceive header plain cipher h = h.ferryFail := by
  obtain ⟨running, length, magic, version, kind⟩ := hh
  simp [ferryAckReceive, *]

theorem Hub.ferryFail_onlyIn (h : Hub) : h.onlyIn [.jrn, .host, .evt, .tx] h.ferryFail := by simp [Hub.onlyIn_iff, Hub.ferryFail]

/-- The hub in which the datagram `seq` of session `ses` is the last that was heard. -/
def Hub.ferryHears (h : Hub) (ses seq : Nat) : Hub :=
  { h with jrn := { h.jrn with ferry := { h.jrn.ferry with rxSeq := h.jrn.ferry.rxSeq.put ses (seq + 1) } } }

theorem Hub.ferryHears_onlyIn (h : Hub) (ses seq : Nat) : h.onlyIn [.jrn] (h.ferryHears ses seq) := by
  simp [Hub.onlyIn_iff, Hub.ferryHears]

/-- What the acknowledgements `plain` move once their datagram is heard. -/
def Hub.ferryAcks (h : Hub) (plain : List Byte) : Hub :=
  let before : Tab Nat := (h.jrn.consumers.get 1).ackTo
  let h := (List.range (plain.length / 16)).foldl (fun h i => h.ackFrom 1 (at_ plain (16 * i) 1) (at_ plain (16 * i + 8) 8)) h
  let h := if (h.jrn.consumers.get 1).ackTo == before then h
    else ({ h with net := { h.net with resends := 0 }, jrn := { h.jrn with ferry := { h.jrn.ferry with since := h.xoCycles } } }).noteCauses
  h.flightTrim.ferryGo false h.ferryFuel

theorem ferryAckReceive_heard {h : Hub} {header plain cipher : List Byte} (hh : h.HeardAs header)
    (ha : h.ferryAuth header plain cipher = true) (hs : h.jrn.ferry.rxSeq.get (at_ header 8 4) ≤ at_ header 12 8) :
    ferryAckReceive header plain cipher h = (h.ferryHears (at_ header 8 4) (at_ header 12 8)).ferryAcks plain := by
  obtain ⟨running, length, magic, version, kind⟩ := hh
  simp only [ferryAckReceive, running, length, magic, version, kind, ha, Nat.not_lt.mpr hs, decide_false, Bool.not_true, Bool.or_false, ne_eq,
    not_true_eq_false, or_false, Bool.false_eq_true, if_false]
  rfl

theorem Hub.ferryAcks_heard (h : Hub) (plain : List Byte) : h.Heard (h.ferryAcks plain) := by
  unfold Hub.ferryAcks
  extract_lets before g _ _ _ k
  have taken : h.Heard g := .foldl (fun g i => g.ackFrom_heard 1 _ _) _ h
  have noted : g.Heard k := by
    unfold k
    split
    · exact .refl g
    · have reset : g.Heard { g with net := { g.net with resends := 0 },
                                    jrn := { g.jrn with ferry := { g.jrn.ferry with since := g.xoCycles } } } :=
        ⟨by simp [Hub.onlyIn_iff], rfl, rfl⟩
      exact reset.trans (Hub.heard_of_onlyIn (Hub.noteCauses_onlyIn _) (by decide))
  exact ((taken.trans noted).trans k.flightTrim_heard).trans (Hub.ferryGo_heard _ false _)

theorem ferryAckTimeout_idle {h : Hub} (hi : h.jrn.ferry.flight = [] ∨ h.clk.held = true) : ferryAckTimeout h = h := by
  rcases hi with flight | held
  · simp [ferryAckTimeout, flight]
  · simp [ferryAckTimeout, held]

/-- The hub in which one more timeout of the ferry is counted. -/
def Hub.resendCounted (h : Hub) : Hub := { h with net := { h.net with resends := h.net.resends + 1 } }

theorem Hub.resendCounted_onlyIn (h : Hub) : h.onlyIn [.net] h.resendCounted := by simp [Hub.onlyIn_iff, Hub.resendCounted]

theorem Hub.noteCauses_resends (h : Hub) : h.noteCauses.net.resends = h.net.resends := rfl

theorem ferryAckTimeout_fires {h : Hub} (hf : h.jrn.ferry.flight ≠ []) (hh : h.clk.held = false)
    (ht : h.jrn.ferry.since + (h.cons 1).ackTimeout * 49152 ≤ h.xoCycles) :
    ferryAckTimeout h = (h.restartConsumer 1).resendCounted.noteCauses := by
  unfold ferryAckTimeout
  rw [if_neg (by simp [hf, hh, Hub.passed, ht])]
  rfl

theorem ferryAckTimeout_resends {s : State} (hp : s.hub.powered = true) (hf : s.hub.jrn.ferry.flight ≠ []) (hh : s.hub.clk.held = false)
    (ht : s.hub.jrn.ferry.since + (s.hub.cons 1).ackTimeout * 49152 ≤ s.hub.xoCycles) :
    Does (.ferryAckTimeout) s [.host, .evt, .jrn, .net, .tx] fun t => t.jrn.ferry.flight = [] ∧ t.jrn.ferry.restart = true ∧
      (t.jrn.consumers.get 1).next = (s.hub.jrn.consumers.get 1).ackTo ∧ (t.jrn.consumers.get 1).ackTo = (s.hub.jrn.consumers.get 1).ackTo ∧
      t.net.resends = s.hub.net.resends + 1 := by
  have row := ferryAckTimeout_fires hf hh ht
  have restarted : s.hub.onlyIn [.host, .evt, .jrn, .tx] (s.hub.restartConsumer 1) := by simp [Hub.onlyIn_iff]
  obtain ⟨-, -, next, -, ackTo⟩ := s.hub.restartConsumer_consumers 1
  have ferry := s.hub.restartConsumer_ferry
  have net := s.hub.restartConsumer_net 1
  generalize s.hub.restartConsumer 1 = g at row restarted next ackTo ferry net
  have counted := Hub.onlyIn_trans g.resendCounted_onlyIn (Hub.noteCauses_onlyIn _)
  have jrn : g.resendCounted.noteCauses.jrn = g.jrn := counted .jrn (by decide)
  refine does_row (f := ferryAckTimeout) rfl hp ?_ ?_
  · rw [row]
    exact Hub.onlyIn_trans (Hub.onlyIn_mono restarted (by decide)) (Hub.onlyIn_mono counted (by decide))
  · rw [row, jrn, ferry, Hub.noteCauses_resends]
    exact ⟨rfl, rfl, next, ackTo, congrArg (fun n : NetSt => n.resends + 1) net⟩

/-! ### Verdict datagrams (R328, R445, R446) -/

/-- A datagram that comes to the verdict port of a hub port whose link is up. -/
structure Hub.VerdictComes (h : Hub) (p : Nat) (head : UdpHead) : Prop where
  on : (h.port p).st ≠ .off
  link : (h.port p).link = true
  port : head.port = h.cfg.net.verdictPort

/-- A verdict datagram that authenticates and passes its checks: for this hub, and newer than the last (R446). -/
structure Hub.VerdictPasses (h : Hub) (p : Nat) (head : UdpHead) (plain cipher : List Byte) : Prop extends h.VerdictComes p head where
  auth : h.ferryAuth head.bytes plain cipher = true
  kind : head.bytes.take 4 = [0x53, 0x46, 1, 2]
  header : head.bytes.length = 20
  body : plain.length = 16
  source : at_ head.bytes 4 1 = 255
  hub : at_ plain 0 1 = h.sys.straps.hubId
  newer : 0 < diff32 (at_ plain 4 4) h.net.vseq

/-- The hub in which `v` is the last verdict that was seen. -/
def Hub.verdictSeen (h : Hub) (v : Nat) : Hub := { h with net := { h.net with vseq := v } }

theorem verdictDatagramReceive_forged {h : Hub} {p : Nat} {head : UdpHead} {plain cipher : List Byte} (hc : h.VerdictComes p head)
    (ha : h.ferryAuth head.bytes plain cipher = false) : verdictDatagramReceive p head plain cipher h =
      ({ h with net := { h.net with rejects := sat32 (h.net.rejects + 1) } }).raiseLimited 108 [] := by
  obtain ⟨on, link, port⟩ := hc
  simp [verdictDatagramReceive, *]

theorem verdictDatagramReceive_passes {h : Hub} {p : Nat} {head : UdpHead} {plain cipher : List Byte}
    (hv : h.VerdictPasses p head plain cipher) : verdictDatagramReceive p head plain cipher h =
      if h.cfg.net.arbMode = 2 then (h.verdictSeen (at_ plain 4 4)).verdictFrom (at_ plain 1 1 % 2) 2
      else (h.verdictSeen (at_ plain 4 4)).ignoreVerdict := by
  obtain ⟨⟨on, link, port⟩, auth, kind, header, body, source, hub, newer⟩ := hv
  have source : leNat ((head.bytes.drop 4).take 1) = 255 := source
  have hub : leNat (plain.take 1) = h.sys.straps.hubId := hub
  have newer : 0 < diff32 (leNat ((plain.drop 4).take 4)) h.net.vseq := newer
  unfold verdictDatagramReceive
  dsimp only
  rw [if_neg (by simp [on, link, port]), if_neg (by simp [auth, kind, header, body, source, hub, newer])]
  rfl

theorem Hub.ignoreVerdict_net (h : Hub) : h.ignoreVerdict.net = { h.net with ignored := sat32 (h.net.ignored + 1) } := by
  simp [Hub.ignoreVerdict]

theorem Hub.ignoreVerdict_onlyIn (h : Hub) : h.onlyIn [.net, .host, .evt, .tx] h.ignoreVerdict := by simp [Hub.onlyIn_iff, Hub.ignoreVerdict]

theorem Hub.ignoreVerdict_count (h : Hub) (hh : h.clk.held = false) : h.ignoreVerdict.evt.count.get 107 = h.evt.count.get 107 + 1 :=
  Hub.raise_count_self _ 107 [] hh

theorem Hub.verdictSeen_onlyIn (h : Hub) (v : Nat) : h.onlyIn [.net] (h.verdictSeen v) := by simp [Hub.onlyIn_iff, Hub.verdictSeen]

/-- A verdict while the datapath runs is obeyed at once. -/
theorem Hub.verdictFrom_running {h : Hub} (p source : Nat) (hh : h.clk.held = false) : h.verdictFrom p source = h.obey p source none := by
  simp [Hub.verdictFrom, Hub.verdictTake, hh]

/-- In PEER mode a verdict that passes its checks is obeyed. -/
theorem verdictDatagramReceive_peer {h : Hub} {p : Nat} {head : UdpHead} {plain cipher : List Byte} (hv : h.VerdictPasses p head plain cipher)
    (hm : h.cfg.net.arbMode = 2) (hh : h.clk.held = false) :
    verdictDatagramReceive p head plain cipher h = (h.verdictSeen (at_ plain 4 4)).obey (at_ plain 1 1 % 2) 2 none :=
  ((verdictDatagramReceive_passes hv).trans (if_pos hm)).trans (Hub.verdictFrom_running _ _ hh)

theorem Hub.obey_inactive {h : Hub} {p : Nat} (source : Nat) (handle : Option Nat) (hf : h.net.failover = none) (ha : h.isActive p = false)
    (he : (h.portCfg p).enable = true) : h.obey p source handle = h.failStart p source handle false := by
  simp [Hub.obey, hf, ha, he]

theorem Hub.obey_active {h : Hub} {p : Nat} (source : Nat) (hf : h.net.failover = none) (ha : h.isActive p = true) :
    h.obey p source none = h := by
  simp [Hub.obey, hf, ha]

/-- The failover that a verdict starts notes the path left, the causes held and the verdict's instant (R451). -/
theorem Hub.failStart_failover (h : Hub) (b source : Nat) (handle : Option Nat) (pending : Bool) :
    ∃ f, (h.failStart b source handle pending).net.failover = some f ∧ f.dest = b ∧ f.from_ = h.net.active.getD (otherPort b) ∧
      f.source = source ∧ f.handle = handle ∧ f.causes = h.net.causes ∧ f.verdictT = h.sampleT ∧ f.active = false :=
  ⟨_, rfl, rfl, rfl, rfl, rfl, rfl, rfl, rfl⟩

section
variable {s : State} {p : Fin 2} {head : UdpHead} {plain cipher : List Byte}

theorem verdictDatagramReceive_ignored (hp : s.hub.powered = true) (hv : s.hub.VerdictPasses p head plain cipher) (hm : s.hub.cfg.net.arbMode ≠ 2) :
    Does (.verdictDatagramReceive p head plain cipher) s [.net, .host, .evt, .tx] fun t => t.net =
      { s.hub.net with vseq := at_ plain 4 4, ignored := sat32 (s.hub.net.ignored + 1) } := by
  have row := (verdictDatagramReceive_passes hv).trans (if_neg hm)
  refine does_row (f := verdictDatagramReceive p head plain cipher) rfl hp ?_ ?_
  · rw [row]
    exact Hub.onlyIn_trans (Hub.onlyIn_mono (s.hub.verdictSeen_onlyIn _) (by decide)) (Hub.ignoreVerdict_onlyIn _)
  · rw [row, Hub.ignoreVerdict_net]
    rfl

theorem verdictDatagramReceive_fails (hp : s.hub.powered = true) (hv : s.hub.VerdictPasses p head plain cipher) (hm : s.hub.cfg.net.arbMode = 2)
    (hh : s.hub.clk.held = false) (hf : s.hub.net.failover = none) (ha : s.hub.isActive (at_ plain 1 1 % 2) = false)
    (he : (s.hub.portCfg (at_ plain 1 1 % 2)).enable = true) :
    Does (.verdictDatagramReceive p head plain cipher) s [.host, .evt, .tb, .jrn, .sto, .tiu, .net, .tx] fun t => t.net.vseq = at_ plain 4 4
      ∧ t.net.failovers = sat32 (s.hub.net.failovers + 1) ∧ ∃ f, t.net.failover = some f ∧ f.dest = at_ plain 1 1 % 2 ∧
      f.from_ = s.hub.net.active.getD (otherPort (at_ plain 1 1 % 2)) ∧ f.source = 2 ∧ f.handle = none ∧ f.causes = s.hub.net.causes ∧
      f.verdictT = s.hub.sampleT ∧ f.active = false := by
  have row : verdictDatagramReceive p head plain cipher s.hub =
      (s.hub.verdictSeen (at_ plain 4 4)).failStart (at_ plain 1 1 % 2) 2 none false :=
    (verdictDatagramReceive_peer hv hm hh).trans (Hub.obey_inactive 2 none hf ha he)
  obtain ⟨raises, vseq, failovers, -⟩ := (s.hub.verdictSeen (at_ plain 4 4)).failStart_fails (at_ plain 1 1 % 2) 2 none false
  refine does_row (f := verdictDatagramReceive p head plain cipher) rfl hp ?_ ?_
  · rw [row]
    exact Hub.onlyIn_trans (Hub.onlyIn_mono (s.hub.verdictSeen_onlyIn _) (by decide)) (Hub.onlyIn_mono raises.only (by decide))
  · rw [row]
    exact ⟨vseq, failovers, Hub.failStart_failover _ _ _ _ _⟩

theorem verdictDatagramReceive_active (hp : s.hub.powered = true) (hv : s.hub.VerdictPasses p head plain cipher) (hm : s.hub.cfg.net.arbMode = 2)
    (hh : s.hub.clk.held = false) (hf : s.hub.net.failover = none) (ha : s.hub.isActive (at_ plain 1 1 % 2) = true) :
    Does (.verdictDatagramReceive p head plain cipher) s [.net] fun t => t.net = { s.hub.net with vseq := at_ plain 4 4 } := by
  have row : verdictDatagramReceive p head plain cipher s.hub = s.hub.verdictSeen (at_ plain 4 4) :=
    (verdictDatagramReceive_peer hv hm hh).trans (Hub.obey_active 2 hf ha)
  refine does_row (f := verdictDatagramReceive p head plain cipher) rfl hp ?_ ?_
  · rw [row]
    exact s.hub.verdictSeen_onlyIn _
  · rw [row]
    rfl

end

/-! ### SUSPECT datagrams (R444) -/

/-- The hub in which the ferry's session has sent one more datagram. -/
def Hub.ferryCounted (h : Hub) : Hub := { h with jrn := { h.jrn with ferry := { h.jrn.ferry with seq := h.jrn.ferry.seq + 1 } } }

/-- With a key and an active port a datagram that nothing holds back leaves at once. -/
theorem Hub.ferrySend_sends {h : Hub} {p : Nat} {k : KeySlot} (kind flags : Nat) {plain : List Byte} (hk : h.ferryKey = some k)
    (ha : h.net.active = some p) (hw : h.msgWaits p (.ferry kind plain.length h.ferryDest [] []) = false) :
    ∃ a b, h.ferrySend kind flags plain = h.ferryCounted.send (.ferry p kind h.ferryDest a b) := by
  have free : ∀ a b, ¬ h.ferryCounted.msgWaits p (.ferry kind plain.length h.ferryDest a b) = true := fun _ _ => ne_true_of_eq_false hw
  have out : ∀ a b, h.ferryCounted.msgOut p (.ferry kind plain.length h.ferryDest a b) = h.ferryCounted.send (.ferry p kind h.ferryDest a b) :=
    fun a b => if_neg (free a b)
  unfold Hub.ferrySend
  simp only [hk, ha]
  exact ⟨_, _, out _ _⟩

/-- The hub that notes that it sends a datagram of SUSPECT now. -/
def Hub.suspectNoted (h : Hub) : Hub := { h with net := { h.net with suspectAt := some h.xoCycles } }

theorem suspectDatagramTimer_quiet {h : Hub} (hq : h.net.suspect = false ∨ h.cfg.net.arbMode ≠ 2) : suspectDatagramTimer h = h := by
  rcases hq with calm | mode
  · simp [suspectDatagramTimer, calm]
  · simp [suspectDatagramTimer, mode]

theorem suspectDatagramTimer_sends {h : Hub} {p : Nat} {k : KeySlot} (hs : h.net.suspect = true) (hm : h.cfg.net.arbMode = 2)
    (ht : ∀ a, h.net.suspectAt = some a → a + 49152000 ≤ h.xoCycles) (ha : h.net.active = some p) (hk : h.ferryKey = some k)
    (hw : h.msgWaits p (.ferry 3 16 h.ferryDest [] []) = false) :
    ∃ a b, suspectDatagramTimer h = h.suspectNoted.ferryCounted.send (.ferry p 3 h.ferryDest a b) := by
  have due : h.passed h.net.suspectAt 49152000 = true := by
    unfold Hub.passed
    split
    · next a e => exact decide_eq_true (ht a e)
    · rfl
  unfold suspectDatagramTimer
  rw [if_pos (by simp [hs, hm, due])]
  exact Hub.ferrySend_sends (h := h.suspectNoted) 3 0 hk ha hw

/-! ### ARB_SEL (R445) -/

/-- The hub that has taken the level of ARB_SEL. -/
def Hub.arbTaken (h : Hub) (level : Bool) : Hub := { h with net := { h.net with arbSel := level } }

theorem Hub.arbTaken_onlyIn (h : Hub) (level : Bool) : h.onlyIn [.net] (h.arbTaken level) := by simp [Hub.onlyIn_iff, Hub.arbTaken]

theorem arbSelStable_ignored {h : Hub} (level : Bool) (hm : h.cfg.net.arbMode ≠ 1) : arbSelStable level h = (h.arbTaken level).ignoreVerdict :=
  if_neg hm

theorem arbSelStable_pin {h : Hub} (level : Bool) (hm : h.cfg.net.arbMode = 1) :
    arbSelStable level h = (h.arbTaken level).verdictFrom (flag level 0) 1 := if_pos hm

/-- A verdict during a hold waits for its end; one that waited already completes (R447, R457). -/
theorem Hub.verdictFrom_held {h : Hub} (p source : Nat) (hh : h.clk.held = true) :
    h.onlyIn [.net, .host, .tx] (h.verdictFrom p source) ∧
    (h.verdictFrom p source).net = { h.net with heldVerdict := some (p, source, none) } := by
  unfold Hub.verdictFrom Hub.verdictTake
  rw [if_pos hh]
  split
  · next q r hd _ =>
    have ended := h.complete_onlyIn hd ABORTED []
    have net : (h.complete hd ABORTED []).net = h.net := ended .net (by decide)
    generalize h.complete hd ABORTED [] = g at ended net
    exact ⟨Hub.onlyIn_trans (Hub.onlyIn_mono ended (by decide)) (by simp [Hub.onlyIn_iff]), by rw [← net]⟩
  · exact ⟨by simp [Hub.onlyIn_iff], rfl⟩

/-- Settles O50: each row is put as one step of the hub in its case, and the step's frame and what it writes are read off. Of an authentic
datagram that is new, no acknowledgement and nothing sent after it changes which datagrams have been heard. -/
theorem ferryRows : Obligations.FerryRows := by
  unfold Obligations.FerryRows
  refine ⟨?_, ?_, ?_, ?_, ?_, ?_, ?_, ?_, ?_, ?_, ?_, ?_, ?_⟩
  · intro s header plain cipher hp hl
    exact does_nothing rfl hp (ferryAckReceive_short s.hub plain cipher hl)
  · intro s header plain cipher hp hh hl hm hv hk ha
    have row := ferryAckReceive_forged ⟨hh, hl, hm, hv, hk⟩ ha
    refine does_row (f := ferryAckReceive header plain cipher) rfl hp ?_ ?_
    · rw [row]
      exact s.hub.ferryFail_onlyIn
    · rw [row]
      simp [Hub.ferryFail]
  · intro s header plain cipher hp hh hl hm hv hk ha hs
    have row := ferryAckReceive_heard ⟨hh, hl, hm, hv, hk⟩ ha hs
    obtain ⟨only, rxSeq, authFail⟩ := (s.hub.ferryHears (at_ header 8 4) (at_ header 12 8)).ferryAcks_heard plain
    refine does_row (f := ferryAckReceive header plain cipher) rfl hp ?_ ?_
    · rw [row]
      exact Hub.onlyIn_trans (Hub.onlyIn_mono (s.hub.ferryHears_onlyIn _ _) (by decide)) only
    · rw [row, rxSeq, authFail]
      simp [Hub.ferryHears]
  · intro s hp hf hh ht
    exact ferryAckTimeout_resends hp hf hh ht
  · intro s hp hi
    exact does_nothing rfl hp (ferryAckTimeout_idle hi)
  · intro s p head plain cipher hp hon hl hport ha
    have row := verdictDatagramReceive_forged ⟨hon, hl, hport⟩ ha
    refine does_row (f := verdictDatagramReceive p head plain cipher) rfl hp ?_ ?_
    · rw [row]
      simp [Hub.onlyIn_iff]
    · rw [row]
      simp
  · intro s p head plain cipher hp hon hl hport ha hkind hlen hbody hsrc hhub hnew hm
    exact verdictDatagramReceive_ignored hp ⟨⟨hon, hl, hport⟩, ha, hkind, hlen, hbody, hsrc, hhub, hnew⟩ hm
  · intro s p head plain cipher hp hon hl hport ha hkind hlen hbody hsrc hhub hnew hm
    exact verdictDatagramReceive_fails hp ⟨⟨hon, hl, hport⟩, ha, hkind, hlen, hbody, hsrc, hhub, hnew⟩ hm
  · intro s p head plain cipher hp hon hl hport ha hkind hlen hbody hsrc hhub hnew hm
    exact verdictDatagramReceive_active hp ⟨⟨hon, hl, hport⟩, ha, hkind, hlen, hbody, hsrc, hhub, hnew⟩ hm
  · intro s p k hp hs hm ht ha hk hw
    obtain ⟨a, b, row⟩ := suspectDatagramTimer_sends hs hm ht ha hk hw
    refine does_row (f := suspectDatagramTimer) rfl hp ?_ ?_
    · rw [row]
      simp [Hub.onlyIn_iff, Hub.ferryCounted, Hub.suspectNoted]
    · rw [row]
      exact ⟨rfl, rfl, a, b, rfl⟩
  · intro s hp hq
    exact does_nothing rfl hp (suspectDatagramTimer_quiet hq)
  · intro s level hp hm hh
    have row := arbSelStable_ignored level hm
    refine does_row (f := arbSelStable level) rfl hp ?_ ?_
    · rw [row]
      exact Hub.onlyIn_trans (Hub.onlyIn_mono (s.hub.arbTaken_onlyIn level) (by decide)) (Hub.ignoreVerdict_onlyIn _)
    · rw [row]
      exact ⟨Hub.ignoreVerdict_net _, Hub.ignoreVerdict_count (s.hub.arbTaken level) hh⟩
  · intro s level hp hm hh
    have row := arbSelStable_pin level hm
    obtain ⟨only, net⟩ := Hub.verdictFrom_held (h := s.hub.arbTaken level) (flag level 0) 1 hh
    refine does_row (f := arbSelStable level) rfl hp ?_ ?_
    · rw [row]
      exact Hub.onlyIn_trans (Hub.onlyIn_mono (s.hub.arbTaken_onlyIn level) (by decide)) only
    · rw [row]
      exact net

end Sys2Proof.Machine

/-! PROOFS. The map of residues to unsigned values (O17). -/
namespace Sys2Proof.Machine

theorem zig_of_nonneg {z : Int} (hz : 0 ≤ z) : zig z = 2 * z.toNat := if_pos hz

theorem zig_of_neg {z : Int} (hz : z < 0) : zig z = 2 * (-z).toNat - 1 := if_neg (by omega)

theorem ushiftRight_31_of_msb {e : BitVec 32} (sign : e.msb = false) : e >>> 31 = 0#32 := by
  have small := BitVec.msb_eq_false_iff_two_mul_lt.mp sign
  apply BitVec.eq_of_toNat_eq
  simp only [BitVec.toNat_ushiftRight, Nat.shiftRight_eq_div_pow, BitVec.toNat_ofNat]
  omega

/-- A word shifted right by 31 with its sign is all sign bits. -/
theorem sshiftRight_31 (e : BitVec 32) : e.sshiftRight 31 = if e.msb then BitVec.allOnes 32 else 0#32 := by
  cases sign : e.msb
  · rw [BitVec.sshiftRight_eq_of_msb_false sign, ushiftRight_31_of_msb sign]
    rfl
  · rw [BitVec.sshiftRight_eq_of_msb_true sign, ushiftRight_31_of_msb (by simp [sign])]
    rfl

/-- The map is the shifted word, with every bit turned when the sign is set. -/
theorem zig_toInt (e : BitVec 32) : zig e.toInt = ((e <<< 1) ^^^ (e.sshiftRight 31)).toNat := by
  have below := e.isLt
  have double : (e <<< 1).toNat = e.toNat * 2 % 2 ^ 32 := by simp [Nat.shiftLeft_eq]
  rw [sshiftRight_31]
  cases sign : e.msb
  · have small : 2 * e.toNat < 2 ^ 32 := by simpa using BitVec.msb_eq_false_iff_two_mul_lt.mp sign
    have value : e.toInt = e.toNat := BitVec.toInt_eq_toNat_of_msb sign
    rw [zig_of_nonneg (by omega), if_neg (by decide), BitVec.xor_zero, double, value]
    omega
  · have large : 2 ^ 32 ≤ 2 * e.toNat := BitVec.msb_eq_true_iff_two_mul_ge.mp sign
    have value : e.toInt = (e.toNat : Int) - 2 ^ 32 := by rw [BitVec.toInt_eq_msb_cond, sign]; norm_num
    rw [zig_of_neg (by omega), if_pos rfl, BitVec.xor_allOnes, BitVec.toNat_not, double, value]
    omega

theorem s32_eq_bmod (z : Int) : s32 z = z.bmod (2 ^ 32) := by
  have word : BitVec.ofNat 32 (unsigned 32 z) = BitVec.ofInt 32 z := BitVec.eq_of_toNat_eq (by simp [unsigned]; omega)
  rw [s32, signed_eq_toInt, word, BitVec.toInt_ofInt]

theorem s32_toInt (e : BitVec 32) : s32 e.toInt = e.toInt := by
  rw [s32_eq_bmod, e.toInt_bmod_cancel]

theorem unzig_double {n : Nat} (hn : n < 2 ^ 31) : unzig (2 * n) = s32 n := by
  rw [unzig, if_pos (by omega), Nat.mod_eq_of_lt (by omega), Nat.mul_div_cancel_left n (by decide)]

theorem unzig_double_pred {n : Nat} (h0 : 0 < n) (hn : n ≤ 2 ^ 31) : unzig (2 * n - 1) = s32 (-n) := by
  have half : (2 * n - 1) % 2 ^ 32 / 2 + 1 = n := by omega
  rw [unzig, if_neg (by omega), half]

theorem unzig_zig (e : BitVec 32) : unzig (zig e.toInt) = e.toInt := by
  have upper : e.toInt < 2 ^ 31 := e.toInt_lt
  have lower : -2 ^ 31 ≤ e.toInt := e.le_toInt
  rcases Int.lt_or_le e.toInt 0 with hz | hz
  · rw [zig_of_neg hz, unzig_double_pred (by omega) (by omega), Int.toNat_of_nonneg (by omega), neg_neg, s32_toInt]
  · rw [zig_of_nonneg hz, unzig_double (by omega), Int.toNat_of_nonneg hz, s32_toInt]

/-- Settles O17: by the sign of the residue, which decides whether the shifted word is kept or turned. -/
theorem residueMap : Obligations.ResidueMap := by
  unfold Obligations.ResidueMap
  exact ⟨zig_toInt, unzig_zig, by decide⟩

end Sys2Proof.Machine

/-! PROOFS. Codec commands (O31). -/
namespace Sys2Proof.Machine

/-! ### Streams and the settings that the commands describe (R372, R373, R377) -/

@[simp] theorem Hub.stream_setStream (h : Hub) (n : Nat) (x : CodStream) : (h.setStream n x).stream n = x := by
  simp [Hub.stream, Hub.setStream]

theorem Hub.setStream_onlyIn (h : Hub) (n : Nat) (x : CodStream) : h.onlyIn [.cod] (h.setStream n x) := by
  simp [Hub.onlyIn_iff, Hub.setStream]

/-- Streams stay as they are where the codec's chapter does. -/
theorem Hub.stream_of_onlyIn {h g : Hub} {cs : List Chapter} (ho : h.onlyIn cs g) (hc : .cod ∉ cs) (n : Nat) : g.stream n = h.stream n := by
  rw [Hub.stream, show g.cod = h.cod from ho .cod hc, Hub.stream]

theorem Hub.stream_executing (h : Hub) (c : CmdSpec) (m : Nat) (tag : Word) (pl : List Word) (n : Nat) :
    (h.executing c m tag pl).stream n = h.stream n := Hub.stream_of_onlyIn (h.executing_onlyIn c m tag pl) (by decide) n

/-- The stream that CODEC_SET describes. -/
def pwStream (pl : List Word) : StreamCfg where
  level := fld (pw pl 0) 26 24
  kInit := fld (pw pl 0) 20 16
  order := fld (pw pl 0) 15 14
  blockBytes := fld (pw pl 1) 31 16
  demoteUs := fld (pw pl 1) 15 0
  promoteMs := fld (pw pl 2) 31 16

/-- The channel that CODEC_CHAN_SET describes. -/
def pwCodChan (pl : List Word) : CodChan where
  order := fld (pw pl 0) 25 24
  beta := fld (pw pl 0) 23 16
  kInit := fld (pw pl 0) 15 11
  nb := if bit (pw pl 0) 10 then some (fld (pw pl 1) 9 0) else none

/-- The check that CODEC_CHECK describes, with its handle. -/
def pwCheck (hd : Nat) (pl : List Word) : CodCheck where
  handle := hd
  slot := if bit (pw pl 0) 31 then some (fld (pw pl 0) 1 0) else none
  entry := fld (pw pl 0) 23 16
  ticket := mask64 (pw pl 1) (pw pl 2)
  startSeq := fld (pw pl 3) 15 0

/-- The codec's settings become `f` of what they are. -/
def Hub.updCodCfg (h : Hub) (f : CodCfg → CodCfg) : Hub := { h with cfg := { h.cfg with cod := f h.cfg.cod } }

theorem Hub.updCodCfg_onlyIn (h : Hub) (f : CodCfg → CodCfg) : h.onlyIn [.cfg] (h.updCodCfg f) := by simp [Hub.onlyIn_iff, Hub.updCodCfg]

theorem codecSet_run (h : Hub) (x : CmdIn) : codecSet.run h x = {
    hub := (h.setStream (fld (pw x.pl 0) 6 0) { h.stream (fld (pw x.pl 0) 6 0) with
      window := decide (fld (pw x.pl 0) 26 24 ≠ 0) }).updCodCfg fun k => { k with
        streams := k.streams.put (fld (pw x.pl 0) 6 0) (pwStream x.pl) } } := rfl

theorem codecChanSet_run (h : Hub) (x : CmdIn) : codecChanSet.run h x = {
    hub := h.updCodCfg fun k => { k with chans := k.chans.put (fld (pw x.pl 0) 9 0) (some (pwCodChan x.pl)) } } := rfl

section
variable {s : State} {mb : Fin 8} {tag : Word} {pl : List Word}

/-! ### Streams and channels (R372, R373) -/

theorem codecSet_answers (ht : s.takes codecSet mb tag pl = true) :
    Answers (.codecSet mb tag pl) s mb tag DONE [.cfg, .cod] fun _ t =>
      t.cfg = { s.hub.cfg with cod := { s.hub.cfg.cod with
        streams := s.hub.cfg.cod.streams.put (fld (pw pl 0) 6 0) (pwStream pl) } } ∧
      ((t.stream (fld (pw pl 0) 6 0)).window = true ↔ fld (pw pl 0) 26 24 ≠ 0) := by
  refine answers_of_run (c := codecSet) rfl ht rfl (codecSet_run _ _) rfl rfl (by decide) (by decide) ?_ fun t h => ⟨?_, ?_⟩
  · exact Hub.onlyIn_trans (Hub.onlyIn_mono (Hub.setStream_onlyIn _ _ _) (by decide)) (Hub.onlyIn_mono (Hub.updCodCfg_onlyIn _ _) (by decide))
  · rw [show t.cfg = _ from h .cfg (by decide)]
    simp [Hub.updCodCfg, Hub.setStream, CmdIn.of]
  · rw [Hub.stream_of_onlyIn h (by decide), Hub.stream_of_onlyIn (Hub.updCodCfg_onlyIn _ _) (by decide), CmdIn.of, Hub.stream_setStream]
    exact decide_eq_true_iff

theorem codecChanSet_answers (ht : s.takes codecChanSet mb tag pl = true) :
    Answers (.codecChanSet mb tag pl) s mb tag DONE [.cfg] fun _ t =>
      t.cfg = { s.hub.cfg with cod := { s.hub.cfg.cod with
        chans := s.hub.cfg.cod.chans.put (fld (pw pl 0) 9 0) (some (pwCodChan pl)) } } := by
  refine answers_of_run (c := codecChanSet) rfl ht rfl (codecChanSet_run _ _) rfl rfl (by decide) (by decide) (Hub.updCodCfg_onlyIn _ _)
    fun t h => ?_
  rw [show t.cfg = _ from h .cfg (by decide)]
  simp [Hub.updCodCfg, CmdIn.of]

/-! ### Counters (R374) -/

/-- The counters of stream `n` are cleared. -/
def Hub.countsCleared (h : Hub) (n : Nat) : Hub := h.setStream n { h.stream n with counts := [], values := 0, bytes := 0 }

/-- What CODEC_STATUS does: it reports the counters in words 2 to 8, and clears them when it is told to. -/
theorem codecStatus_run (h : Hub) (x : CmdIn) : ∃ a b ws, codecStatus.run h x = {
    hub := if bit (pw x.pl 0) 8 then h.countsCleared (fld (pw x.pl 0) 6 0) else h,
    words := [a, b] ++ (List.range 5).map (fun k => wd ((h.stream (fld (pw x.pl 0) 6 0)).counts.get k)) ++
      [lo32 (h.stream (fld (pw x.pl 0) 6 0)).values, hi32 (h.stream (fld (pw x.pl 0) 6 0)).values] ++ ws } :=
  ⟨_, _, [_, _], rfl⟩

theorem codecStatus_answers (ht : s.takes codecStatus mb tag pl = true) :
    Answers (.codecStatus mb tag pl) s mb tag DONE [.cod] fun ws t =>
      (ws.drop 2).take 5 = (List.range 5).map (fun k => wd ((s.hub.stream (fld (pw pl 0) 6 0)).counts.get k)) ∧
      (ws.drop 7).take 2 = [lo32 (s.hub.stream (fld (pw pl 0) 6 0)).values, hi32 (s.hub.stream (fld (pw pl 0) 6 0)).values] ∧
      (bit (pw pl 0) 8 = true → (t.stream (fld (pw pl 0) 6 0)).counts = [] ∧ (t.stream (fld (pw pl 0) 6 0)).values = 0) := by
  obtain ⟨a, b, ws, run⟩ := codecStatus_run (s.hub.executing codecStatus mb tag pl) (.of mb tag pl 0)
  simp only [Hub.stream_executing] at run
  refine answers_of_run (c := codecStatus) rfl ht rfl run rfl rfl (by decide) (by decide) ?_ fun t h => ⟨rfl, rfl, fun clear => ?_⟩
  · dsimp only
    split
    · exact Hub.setStream_onlyIn _ _ _
    · exact Hub.onlyIn_refl _ _
  · simp only [CmdIn.of, clear, if_true] at h
    rw [Hub.stream_of_onlyIn h (by decide), Hub.countsCleared, Hub.stream_setStream]
    exact ⟨rfl, rfl⟩

/-! ### The save area (R375, R376) -/

theorem codecStateSave_accepts (ht : s.takes codecStateSave mb tag pl = true) :
    Accepts (.codecStateSave mb tag pl) s mb tag [.cod] fun hd t =>
      (t.stream (fld (pw pl 0) 6 0)).saves = (s.hub.stream (fld (pw pl 0) 6 0)).saves ++ [(hd, fld (pw pl 0) 9 8)] ∧
      t.cod.save = s.hub.cod.save := by
  refine accepts_of_run (c := codecStateSave) rfl ht rfl (by decide) fun g hd hg => ⟨_, rfl, Hub.setStream_onlyIn _ _ _, fun t h => ?_⟩
  refine ⟨?_, ?_⟩
  · rw [Hub.stream_of_onlyIn h (by decide), CmdIn.of, Hub.stream_setStream, Hub.stream_of_onlyIn hg (by decide)]
  · rw [show t.cod = _ from h .cod (by decide), ← show g.cod = s.hub.cod from hg .cod (by decide)]
    rfl

theorem codecStateRead_answers (ht : s.takes codecStateRead mb tag pl = true) :
    Answers (.codecStateRead mb tag pl) s mb tag DONE [] fun ws _ =>
      ws = s.hub.cod.save.gets (1024 * fld (pw pl 0) 1 0 + fld (pw pl 0) 17 8) (fld (pw pl 0) 31 24) := by
  refine answers_of_run (c := codecStateRead) rfl ht rfl rfl rfl rfl (by decide) (by decide) (Hub.onlyIn_refl _ _) fun t _ => ?_
  simp [codecStateRead, CmdIn.of]

theorem codecStateWrite_answers (ht : s.takes codecStateWrite mb tag pl = true) :
    Answers (.codecStateWrite mb tag pl) s mb tag DONE [.cod] fun _ t => t.cod = { s.hub.cod with
      save := s.hub.cod.save.puts (1024 * fld (pw pl 0) 1 0 + fld (pw pl 0) 17 8) (pl.drop 1) } := by
  refine answers_of_run (c := codecStateWrite) rfl ht rfl rfl rfl rfl (by decide) (by decide) ?_ fun t h => ?_
  · simp [Hub.onlyIn_iff, codecStateWrite]
  · rw [show t.cod = _ from h .cod (by decide)]
    simp [codecStateWrite, CmdIn.of]

/-! ### Checks (R377) -/

theorem codecCheck_accepts (ht : s.takes codecCheck mb tag pl = true) :
    Accepts (.codecCheck mb tag pl) s mb tag [.cod] fun hd t =>
      t.cod = { s.hub.cod with checks := s.hub.cod.checks ++ [pwCheck hd pl] } := by
  refine accepts_of_run (c := codecCheck) rfl ht rfl (by decide) fun g hd hg => ⟨_, rfl, ?_, fun t h => ?_⟩
  · simp [Hub.onlyIn_iff]
  · rw [show t.cod = _ from h .cod (by decide), ← show g.cod = s.hub.cod from hg .cod (by decide)]
    rfl

end

/-- Settles O31: each command has its lemma above, over the two paths by which a mailbox answers or accepts. -/
theorem codecCommands : Obligations.CodecCommands := by
  unfold Obligations.CodecCommands
  exact ⟨fun _ _ _ _ => codecSet_answers, fun _ _ _ _ => codecChanSet_answers, fun _ _ _ _ => codecStatus_answers,
    fun _ _ _ _ => codecStateSave_accepts, fun _ _ _ _ => codecStateRead_answers, fun _ _ _ _ => codecStateWrite_answers,
    fun _ _ _ _ => codecCheck_accepts⟩

end Sys2Proof.Machine

/-! PROOFS. What a command of the table does to the state: its operand check, its hub operation and the queue (O5 to O9). -/
namespace Sys2Proof.Machine

/-- Every row checks its operands and applies an operation of the hub. -/
theorem exec_powerRow (i : Instr) : ∃ f : Hub → Hub, ∀ s, exec i s = checked i.wellFormed (s.powerRow f) := by
  cases i <;> exact ⟨_, fun _ => rfl⟩

/-- Settles O7: a row answers the state that its operation gives once its operands are checked. -/
theorem onlyIllFormedStops : Obligations.OnlyIllFormedStops := by
  intro i s
  obtain ⟨f, row⟩ := exec_powerRow i
  rw [row]
  exact ⟨fun bad => by rw [bad]; rfl, fun good => by rw [good]; exact ⟨_, rfl⟩⟩

/-- Settles O8: the operation of a row is on the hub. -/
theorem queueLeftAlone : Obligations.QueueLeftAlone := by
  intro i s t run
  obtain ⟨f, row⟩ := exec_powerRow i
  rw [row] at run
  exact Host.Outcome.next.inj (checked_next run) ▸ rfl

/-- Settles O4: no command waits at State.reset. -/
theorem resetIsSendable : Obligations.ResetIsSendable := rfl

/-- Settles O1: a step runs the command at the front. -/
theorem stepRunsTheFront : Obligations.StepRunsTheFront := fun _ _ => rfl

theorem State.sendable_cons {s : State} {c : Instr} {rest : List Instr} (hp : s.pending = c :: rest) :
    s.sendable = true ↔ c.wellFormed = true ∧ State.sendable { s with pending := rest } = true := by
  simp [State.sendable, hp]

theorem step_cons {s : State} {c : Instr} {rest : List Instr} (hp : s.pending = c :: rest) :
    step s = exec c { s with pending := rest } := by rw [step, hp]

/-- A step with a command that can be sent at the front answers a state in which the rest of the queue waits. -/
theorem step_sendable {s : State} {c : Instr} {rest : List Instr} (hp : s.pending = c :: rest) (hc : c.wellFormed = true) :
    ∃ t, step s = .next t ∧ t.pending = rest := by
  obtain ⟨t, run⟩ := (onlyIllFormedStops c { s with pending := rest }).2 hc
  exact ⟨t, (step_cons hp).trans run, queueLeftAlone _ _ _ run⟩

/-- Settles O5: the front of the queue can be sent, so it runs, and the rest of the queue is as it was. -/
theorem sendableKept : Obligations.SendableKept := by
  intro s hs
  cases hp : s.pending with
  | nil =>
    have idle := step_idle hp
    refine ⟨⟨_, idle⟩, fun t run => ?_⟩
    obtain rfl := Host.Outcome.next.inj (idle.symm.trans run)
    exact hs
  | cons c rest =>
    obtain ⟨hc, hr⟩ := (State.sendable_cons hp).mp hs
    obtain ⟨t, run, waits⟩ := step_sendable hp hc
    refine ⟨⟨t, run⟩, fun u other => ?_⟩
    obtain rfl := Host.Outcome.next.inj (run.symm.trans other)
    rwa [State.sendable, waits]

theorem run_succ {M : Host.Core} {k : Nat} {s t : M.State} (run : M.step s = .next t) : M.run (k + 1) s = M.run k t := by
  rw [Host.Core.run, run]

theorem run_sendable {q : List Instr} {s : State} (hq : s.pending = q) (hs : q.all Instr.wellFormed = true) :
    ∃ t : State, Host.Core.run core q.length s = .next t ∧ t.pending = [] := by
  induction q generalizing s with
  | nil => exact ⟨s, rfl, hq⟩
  | cons c rest ih =>
    obtain ⟨hc, hr⟩ := Bool.and_eq_true_iff.mp hs
    obtain ⟨t, run, waits⟩ := step_sendable hq hc
    obtain ⟨u, runs, drained⟩ := ih waits hr
    exact ⟨u, (run_succ (M := core) run).trans runs, drained⟩

/-- Settles O6: as many steps as commands wait take them one after the other from the front. -/
theorem queueDrains : Obligations.QueueDrains := fun _ hs => run_sendable rfl hs

/-- The rows that act on a hub without power (R537, R546, R549). -/
def isPowerRow : Instr → Bool
  | .powerOnReset | .resetNAssert | .coldBoot _ | .retainResume _ => true
  | _ => false

/-- Every other row applies its operation to a powered hub alone. -/
theorem exec_row (i : Instr) (hi : isPowerRow i = false) : ∃ f : Hub → Hub, ∀ s, exec i s = checked i.wellFormed (s.row f) := by
  cases i with
  | powerOnReset | resetNAssert | coldBoot | retainResume => exact nomatch hi
  | _ => exact ⟨_, fun _ => rfl⟩

theorem State.row_unpowered {s : State} (hp : s.hub.powered = false) (f : Hub → Hub) : s.row f = .next s := by
  rw [State.row, State.powerRow, hp]
  rfl

/-- Settles O9: the rows that act without power are the four of R537, R546 and R549. -/
theorem unpoweredHubIgnores : Obligations.UnpoweredHubIgnores := by
  intro i s off good notPor notReset notBoot notResume
  have other : isPowerRow i = false := by
    cases i with
    | powerOnReset => exact absurd rfl notPor
    | resetNAssert => exact absurd rfl notReset
    | coldBoot b => exact absurd rfl (notBoot b)
    | retainResume b => exact absurd rfl (notResume b)
    | _ => rfl
  obtain ⟨f, row⟩ := exec_row i other
  rw [row, good]
  exact State.row_unpowered off f

end Sys2Proof.Machine

/-! PROOFS. A Kelnen command at its mailbox: ignored, waiting, refused or taken (O10 to O14). -/
namespace Sys2Proof.Machine

/-- The row of a Kelnen command writes it into its mailbox and rings. -/
theorem exec_kelnen {i : Instr} {k : Kelnen} (hk : kelnenOf i = some k) (s : State) : exec i s = s.mailRow k.spec k.mb k.tag k.pl := by
  cases i <;> cases hk <;> rfl

/-- A Kelnen command whose payload can be spelled, on a powered hub. -/
theorem State.mailRow_powered {s : State} {pl : List Word} (c : CmdSpec) (mb : Fin 8) (tag : Word) (hp : s.hub.powered = true)
    (hl : payloadOk pl = true) : s.mailRow c mb tag pl = .next { s with hub := (s.hub.mail c mb tag pl).openUsed } := by
  simp [State.mailRow, checked, hl, State.row, State.powerRow, hp]

theorem Hub.openUsed_clk (h : Hub) : { h.openUsed.clk with gates := h.clk.gates } = h.clk ∧ ∀ n ∈ h.openUsed.clk.gates, n ∈ h.clk.gates :=
  ⟨rfl, fun _ => List.mem_of_mem_filter⟩

theorem Hub.openUsed_onlyIn (h : Hub) : h.onlyIn [.clk] h.openUsed := by simp [Hub.onlyIn_iff, Hub.openUsed]

/-! ### A mailbox that is not IDLE (R480) -/

/-- Settles O11: the write and the RING are ignored and noted. -/
theorem mailboxNotIdle : Obligations.MailboxNotIdle := by
  intro i k s hk hp hl busy
  refine ⟨_, (exec_kelnen hk s).trans (State.mailRow_powered _ _ _ hp hl), rfl, ?_⟩
  rw [Hub.mail, if_neg busy]
  refine ⟨?_, ?_, rfl⟩
  · simp [Hub.onlyIn_iff, Hub.openUsed]
  · refine ⟨by simp [Hub.openUsed, Hub.updMb], fun m hm => by simp [Hub.openUsed, Hub.updMb, hm], rfl⟩

/-! ### A command that waits (R480, R482) -/

/-- What the host's write and RING leave of the host interface. -/
theorem Hub.mailed_mbs (h : Hub) (c : CmdSpec) (m j : Nat) (tag : Word) (pl : List Word) : (h.mailed c m tag pl).host.mbs.get j =
    if j = m then { h.host.mbs.get m with state := .posted,
                                          cmd := (h.host.mbs.get m).cmd.puts 0 ([cmdHeader c.opcode pl.length, tag, 0, 0] ++ pl.take 124) }
    else h.host.mbs.get j := by
  by_cases hj : j = m <;> simp [Hub.mailed, Hub.ring, Hub.updMb, hj]

theorem Hub.mailed_posted (h : Hub) (c : CmdSpec) (m : Nat) (tag : Word) (pl : List Word) :
    (h.mailed c m tag pl).host.posted = h.host.posted ++ [m] := rfl

theorem Hub.canTake_of_mailed {h : Hub} {c : CmdSpec} {m : Nat} {tag : Word} {pl : List Word} (hi : (h.host.mbs.get m).state = .idle)
    (ht : (h.mailed c m tag pl).canTake = true) : h.canTake = true := by
  simp only [Hub.canTake, Bool.and_eq_true, List.all_eq_true, Hub.mailed_mbs] at ht ⊢
  refine ⟨ht.1, fun j hj => ?_⟩
  by_cases hm : j = m
  · simp [hm, hi]
  · simpa [hm] using ht.2 j hj

/-- A mailbox that does not stand first is not the next to be taken (R482). -/
theorem Hub.nextPosted_ne {h : Hub} {m : Nat} (h7 : m ≠ 7) {ps : List Nat} (hp : h.host.posted = ps ++ [m]) (hm : m ∉ ps) (hn : ps ≠ []) :
    h.nextPosted ≠ some m := by
  rw [Hub.nextPosted, hp]
  split
  · exact fun e => h7 (Option.some.inj e).symm
  · cases ps with
    | nil => exact absurd rfl hn
    | cons p ps => exact fun e => hm (Option.some.inj e ▸ List.mem_cons_self)

/-- The command area of the mailbox holds the header, the tag and the payload (R477). -/
theorem Hub.mailed_cmd (h : Hub) (c : CmdSpec) (m : Nat) (tag : Word) (pl : List Word) :
    ((h.mailed c m tag pl).host.mbs.get m).cmd.gets 0 4 = [cmdHeader c.opcode pl.length, tag, 0, 0] ∧
    ((h.mailed c m tag pl).host.mbs.get m).cmd.gets 4 (min pl.length 124) = pl.take 124 := by
  rw [Hub.mailed_mbs, if_pos rfl]
  constructor
  · exact (Tab.gets_puts_within _ 0 0 4 _ (by simp)).trans (by simp)
  · refine (Tab.gets_puts_within _ 0 4 _ _ ?_).trans ?_
    · simp; omega
    · simp [List.take_take, Nat.min_comm]

/-- Settles O12: the command stands written and rung, and the firmware takes none or another one. -/
theorem postedCommandWaits : Obligations.PostedCommandWaits := by
  intro i k s hk hp hl idle waits
  have stays : ((s.hub.mailed k.spec k.mb k.tag k.pl).canTake && (s.hub.mailed k.spec k.mb k.tag k.pl).nextPosted == some k.mb.val) = false := by
    rw [Bool.and_eq_false_iff]
    rcases waits with stands | ⟨h7, hm, hn⟩
    · exact .inl (Bool.eq_false_iff.mpr fun takes => absurd (Hub.canTake_of_mailed idle takes) (by simp [stands]))
    · exact .inr (beq_eq_false_iff_ne.mpr (Hub.nextPosted_ne h7 (Hub.mailed_posted ..) hm hn))
  refine ⟨_, (exec_kelnen hk s).trans (State.mailRow_powered _ _ _ hp hl), rfl, ?_⟩
  rw [Hub.mail, if_pos idle]
  dsimp only
  rw [stays, if_neg (by decide)]
  obtain ⟨head, payload⟩ := s.hub.mailed_cmd k.spec k.mb k.tag k.pl
  refine ⟨?_, ?_, rfl, ?_, payload, ?_, fun m hm => ?_, rfl⟩
  · simp [Hub.onlyIn_iff, Hub.openUsed, Hub.mailed, Hub.ring]
  · exact congrArg Mailbox.state (s.hub.mailed_mbs k.spec k.mb k.mb k.tag k.pl) |>.trans (by rw [if_pos rfl])
  · exact congrArg (List.take 2) head
  · exact congrArg Mailbox.resp (s.hub.mailed_mbs k.spec k.mb k.mb k.tag k.pl) |>.trans (by rw [if_pos rfl])
  · exact (s.hub.mailed_mbs k.spec k.mb m k.tag k.pl).trans (if_neg hm)

/-! ### A command that the firmware takes (R482, R483) -/

/-- What a command that reaches the firmware finds. -/
structure State.Reaches (s : State) (mb : Fin 8) (pl : List Word) : Prop where
  powered : s.hub.powered = true
  payload : payloadOk pl = true
  idle : (s.hub.host.mbs.get mb).state = .idle
  alone : s.hub.host.posted = []
  canTake : s.hub.canTake = true

theorem State.reaches_iff (s : State) (mb : Fin 8) (pl : List Word) : s.reaches mb pl = true ↔ s.Reaches mb pl := by
  simp only [State.reaches, Bool.and_eq_true, beq_iff_eq, List.isEmpty_iff]
  exact ⟨fun ⟨⟨⟨⟨p, l⟩, i⟩, a⟩, t⟩ => ⟨p, l, i, a, t⟩, fun ⟨p, l, i, a, t⟩ => ⟨⟨⟨⟨p, l⟩, i⟩, a⟩, t⟩⟩

/-- A command that reaches the firmware is taken and executed at once. -/
theorem Hub.mail_performs {s : State} {mb : Fin 8} {pl : List Word} (hr : s.Reaches mb pl) (c : CmdSpec) (tag : Word) :
    s.hub.mail c mb tag pl = (s.hub.mailed c mb tag pl).perform (some c) mb (cmdHeader c.opcode pl.length) tag 0 0 pl := by
  rw [Hub.mail, if_pos hr.idle]
  simp [Hub.canTake_mailed _ c mb tag pl hr.canTake, Hub.nextPosted_mailed _ c mb tag pl hr.alone]

theorem State.mailRow_reaches {s : State} {mb : Fin 8} {pl : List Word} (hr : s.Reaches mb pl) (c : CmdSpec) (tag : Word) :
    s.mailRow c mb tag pl = .next { s with
      hub := ((s.hub.mailed c mb tag pl).perform (some c) mb (cmdHeader c.opcode pl.length) tag 0 0 pl).openUsed } :=
  (State.mailRow_powered c mb tag hr.powered hr.payload).trans (by rw [Hub.mail_performs hr])

/-- A command that a check of R483 refuses is answered with the check's code. -/
theorem Hub.perform_refuses {h : Hub} {sp : Option CmdSpec} {m st : Nat} {w0 w1 w2 w3 : Word} {pl ws : List Word}
    (hc : (h.taken m).checkCmd sp m w0 w1 w2 w3 pl = some (st, ws)) :
    h.perform sp m w0 w1 w2 w3 pl = (h.taken m).respond m st 0 w1 ws (bit w0 16) := by
  unfold Hub.taken at hc
  dsimp only at hc
  simp only [Hub.perform, hc]
  rfl

theorem State.mailRow_refuses {s : State} {c : CmdSpec} {mb : Fin 8} {tag : Word} {pl ws : List Word} {st : Nat}
    (hr : s.refuses c mb tag pl st ws) : s.mailRow c mb tag pl = .next { s with
      hub := ((s.hub.executing c mb tag pl).respond mb st 0 tag ws (bit (cmdHeader c.opcode pl.length) 16)).openUsed } := by
  obtain ⟨reaches, refused⟩ := hr
  rw [State.mailRow_reaches ((s.reaches_iff _ _).mp reaches), Hub.perform_refuses refused]
  rfl

theorem Hub.respond_posted (h : Hub) (m status hd : Nat) (tag : Word) (ws : List Word) (crc : Bool) :
    (h.respond m status hd tag ws crc).host.posted = h.host.posted := by
  obtain ⟨_, _, e⟩ := h.respond_host m status hd tag ws crc
  rw [e]

theorem Hub.executing_posted {h : Hub} (ha : h.host.posted = []) (c : CmdSpec) (m : Nat) (tag : Word) (pl : List Word) :
    (h.executing c m tag pl).host.posted = [] := by
  change (h.host.posted ++ [m]).filter (· != m) = []
  simp [ha]

/-- Settles O10: the check's code is the whole answer. -/
theorem refusedCommandOnlyAnswers : Obligations.RefusedCommandOnlyAnswers := by
  intro i k s st ws hk hr
  refine ⟨_, (exec_kelnen hk s).trans (State.mailRow_refuses hr), rfl, ?_⟩
  have alone := ((s.reaches_iff _ _).mp hr.1).alone
  obtain ⟨own, slots⟩ := s.hub.executing_ownMail k.spec k.mb k.tag k.pl
  have posted := Hub.executing_posted alone k.spec k.mb k.tag k.pl
  have frame : s.hub.onlyIn [.host] (s.hub.executing k.spec k.mb k.tag k.pl) := s.hub.executing_onlyIn _ _ _ _
  generalize s.hub.executing k.spec k.mb k.tag k.pl = g at own slots posted frame
  generalize bit (cmdHeader k.spec.opcode k.pl.length) 16 = crc
  obtain ⟨own', slots'⟩ := g.respond_ownMail k.mb st 0 k.tag ws crc
  obtain ⟨mbs, cq, cqWr⟩ := own.trans own'
  have clk : (g.respond k.mb st 0 k.tag ws crc).clk = s.hub.clk := (Hub.respond_clk ..).trans (frame .clk (by decide))
  refine ⟨Hub.respond_response .., ?_, mbs, (Hub.respond_posted ..).trans posted, slots'.trans slots, cq, cqWr, ?_⟩
  · refine Hub.onlyIn_trans (Hub.onlyIn_mono frame (by simp)) (Hub.onlyIn_trans (g := g.respond k.mb st 0 k.tag ws crc) ?_ ?_)
    · simp [Hub.onlyIn_iff]
    · exact Hub.onlyIn_mono (Hub.openUsed_onlyIn _) (by simp)
  · exact clk ▸ Hub.openUsed_clk _

/-! ### MB_COMMAND_TAKE (R480, R482) -/

/-- The header's opcode and length read back (R477). -/
theorem fld_cmdHeader {op len : Nat} (ho : op < 2 ^ 16) (hl : len < 2 ^ 8) :
    fld (cmdHeader op len) 15 0 = op ∧ fld (cmdHeader op len) 31 24 = len := by
  unfold fld cmdHeader wd
  rw [BitVec.toNat_ofNat]
  constructor <;> omega

/-- The command index lists every row's command under its opcode (R494). -/
theorem cmdOf_kelnen {i : Instr} {k : Kelnen} (hk : kelnenOf i = some k) : cmdOf k.spec.opcode = some k.spec := by
  cases i <;> cases hk <;> rfl

theorem opcode_lt {c : CmdSpec} (hc : c ∈ cmdIndex) : c.opcode < 2 ^ 16 := by
  have all : cmdIndex.all (fun c => decide (c.opcode < 2 ^ 16)) = true := by decide
  exact of_decide_eq_true (List.all_eq_true.mp all c hc)

/-- Beyond 124 words the length in the header alone refuses a command (R479, R483). -/
theorem Hub.perform_long {h : Hub} {sp : Option CmdSpec} {m : Nat} {w0 w1 w2 w3 : Word} {pl ql : List Word} (hl : 124 < fld w0 31 24) :
    h.perform sp m w0 w1 w2 w3 pl = h.perform sp m w0 w1 w2 w3 ql := by
  have refused : ∀ p, (h.taken m).checkCmd sp m w0 w1 w2 w3 p = some (BAD_LENGTH, []) := fun p => if_pos hl
  rw [Hub.perform_refuses (refused pl), Hub.perform_refuses (refused ql)]

/-- Settles O13: the command area holds the command that the row wrote there, and the index knows it. -/
theorem takeRunsThePostedCommand : Obligations.TakeRunsThePostedCommand := by
  intro i k s hk reaches
  have hr := (s.reaches_iff _ _).mp reaches
  refine ⟨_, ?_, (exec_kelnen hk s).trans (State.mailRow_reaches hr _ _)⟩
  have index := cmdOf_kelnen hk
  have width := opcode_lt (List.mem_of_find?_eq_some index)
  have short : k.pl.length < 2 ^ 8 := Nat.lt_succ_of_le (of_decide_eq_true hr.payload)
  obtain ⟨op, len⟩ := fld_cmdHeader width short
  obtain ⟨head, payload⟩ := s.hub.mailed_cmd k.spec k.mb k.tag k.pl
  simp only [Tab.gets, List.range_succ, List.range_zero, List.nil_append, List.map_cons, List.map_nil, List.cons_append,
    List.cons.injEq, Nat.zero_add, and_true] at head
  obtain ⟨w0, w1, w2, w3⟩ := head
  have take : mbCommandTake (s.hub.mailed k.spec k.mb k.tag k.pl) =
      ((s.hub.mailed k.spec k.mb k.tag k.pl).perform (some k.spec) k.mb (cmdHeader k.spec.opcode k.pl.length) k.tag 0 0
        (k.pl.take 124)).openUsed := by
    unfold mbCommandTake
    rw [Hub.nextPosted_mailed _ _ _ _ _ hr.alone]
    dsimp only
    rw [if_pos (Hub.canTake_mailed _ _ _ _ _ hr.canTake), w0, w1, w2, w3, op, len, index, Nat.min_comm, payload]
  have same : (s.hub.mailed k.spec k.mb k.tag k.pl).perform (some k.spec) k.mb (cmdHeader k.spec.opcode k.pl.length) k.tag 0 0
      (k.pl.take 124) =
      (s.hub.mailed k.spec k.mb k.tag k.pl).perform (some k.spec) k.mb (cmdHeader k.spec.opcode k.pl.length) k.tag 0 0 k.pl := by
    rcases Nat.lt_or_ge 124 k.pl.length with long | fits
    · exact Hub.perform_long (by rw [len]; exact long)
    · rw [List.take_of_length_le fits]
  have power : (s.hub.mailed k.spec k.mb k.tag k.pl).powered = true := hr.powered
  change State.row _ mbCommandTake = _
  simp only [State.row, State.powerRow, power, if_true, take, same]

/-! ### SYS_NOP (R495) -/

theorem sysNop_answers {s : State} {mb : Fin 8} {tag : Word} {pl : List Word} (ht : s.takes sysNop mb tag pl = true) :
    Answers (.sysNop mb tag pl) s mb tag DONE [] fun ws _ => ws = pl :=
  answers_of_run (c := sysNop) rfl ht rfl rfl rfl rfl (by decide) (by decide) (Hub.onlyIn_refl _ _) fun _ _ => rfl

/-- What the checks of R483 have found of a command that none refuses. -/
theorem State.len_of_takes {s : State} {c : CmdSpec} {mb : Fin 8} {tag : Word} {pl : List Word} (ht : s.takes c mb tag pl = true) :
    c.len pl = true := by
  simp only [State.takes, Bool.and_eq_true, Option.isNone_iff_eq_none, Hub.checkCmd] at ht
  by_contra hl
  rw [Bool.not_eq_true] at hl
  simp only [hl, Bool.not_false, if_true] at ht
  split_ifs at ht
  all_goals exact nomatch ht.2

/-- Settles O14: the payload is the response. -/
theorem nopReturnsItsPayload : Obligations.NopReturnsItsPayload := by
  refine ⟨fun pl => decide_eq_true_iff, rfl, fun s mb tag pl ht => ?_⟩
  have fits : pl.length ≤ 124 := of_decide_eq_true (State.len_of_takes ht)
  obtain ⟨t, ws, run, queue, response, frame, slots, rfl⟩ := sysNop_answers ht
  obtain ⟨-, -, -, payload⟩ := id response
  rw [Nat.min_eq_left fits, List.take_of_length_le fits] at payload
  exact ⟨t, ws, run, queue, response, frame, slots, rfl, fits, payload⟩

end Sys2Proof.Machine

/-! PROOFS. System, log and clock commands (O20). -/
namespace Sys2Proof.Machine

/-! ### Answers in full -/

/-- A command that takes no handle is answered with what it gives; `P` may look at all of the hub in which it is answered. -/
theorem answers_in_full {i : Instr} {s : State} {c : CmdSpec} {mb : Fin 8} {tag : Word} {pl : List Word} {cs : List Chapter}
    {P : List Word → Hub → Prop} {r : CmdRes} {status : Nat} (hi : exec i s = s.mailRow c mb tag pl) (ht : s.takes c mb tag pl = true)
    (hl : c.long (s.hub.executing c mb tag pl) pl = false) (hr : c.run (s.hub.executing c mb tag pl) (.of mb tag pl 0) = r)
    (hw : r.wait = false) (hs : r.status = status) (he : tookEffect status = true)
    (hf : (s.hub.executing c mb tag pl).onlyIn (.tx :: cs) r.hub) (hx : (s.hub.executing c mb tag pl).tx <+: r.hub.tx)
    (hP : ∀ crc, P r.words (r.hub.answered mb status 0 tag r.words crc)) : Answers i s mb tag status cs P := by
  subst hs
  obtain ⟨own, slots⟩ := s.hub.executing_ownMail c mb tag pl
  have host : .host ∉ cs → r.hub.host = (s.hub.executing c mb tag pl).host := fun hc => hf .host (by simpa using hc)
  have frame : s.hub.onlyIn (.host :: .tx :: cs) r.hub :=
    Hub.onlyIn_trans (Hub.onlyIn_mono (s.hub.executing_onlyIn c mb tag pl) (by simp)) (Hub.onlyIn_mono hf (List.subset_cons_self _ _))
  refine ⟨_, r.words, hi.trans (s.mailRow_takes c mb tag pl ht), rfl, ?_⟩
  rw [Hub.ran_short _ hl hr hw]
  exact ⟨r.hub.answered_response .., Hub.answered_mailFrame_of_tx 0 tag r.words _ frame (fun hc => own.trans (Hub.ownMail_of_host (host hc)))
    (s.hub.executing_tx c mb tag pl ▸ hx) he, fun hc => (r.hub.answered_slots ..).trans (by rw [host hc, slots]), hP _⟩

/-- A long-running command that sends nothing is accepted with the next handle of its mailbox; `P` may look at all of the hub in which it is. -/
theorem accepts_in_full {i : Instr} {s : State} {c : CmdSpec} {mb : Fin 8} {tag : Word} {pl : List Word} {cs : List Chapter}
    {P : Nat → Hub → Prop} (hi : exec i s = s.mailRow c mb tag pl) (ht : s.takes c mb tag pl = true)
    (hl : c.long (s.hub.executing c mb tag pl) pl = true) (hc : .host ∉ cs)
    (hr : ∀ g hd, s.hub.onlyIn [.host] g → ∃ f, c.run g (.of mb tag pl hd) = { hub := f } ∧ g.onlyIn cs f ∧ f.tx = g.tx ∧
      ∀ crc, P hd (f.answered mb ACCEPTED hd tag [] crc)) :
    Accepts i s mb tag cs P := by
  have checks := ht
  simp only [State.takes, Bool.and_eq_true, Option.isNone_iff_eq_none] at checks
  obtain ⟨k, hk⟩ := Hub.freeSlot_of_checkCmd hl checks.2
  have own := (s.hub.executing_ownMail c mb tag pl).1
  have taken : (s.hub.executing c mb tag pl).OwnMail mb ((s.hub.executing c mb tag pl).allocSlot k c.opcode tag mb) :=
    ⟨fun _ _ => rfl, rfl, rfl⟩
  have mailed := Hub.onlyIn_trans (s.hub.executing_onlyIn c mb tag pl) (Hub.allocSlot_onlyIn _ k c.opcode tag mb)
  have handle := Hub.nextHandle_executing hk
  refine ⟨_, _, hi.trans (s.mailRow_takes c mb tag pl ht), rfl, handle, ?_⟩
  rw [Hub.ran_long _ hl hk]
  generalize (s.hub.executing c mb tag pl).allocSlot k c.opcode tag mb = g at taken mailed
  obtain ⟨f, run, hf, sent, hP⟩ := hr g (g.handleOf k) mailed
  have tx : g.tx = s.hub.tx := mailed .tx (by decide)
  have frame : s.hub.onlyIn (.host :: .tx :: cs) f :=
    Hub.onlyIn_trans (Hub.onlyIn_mono mailed (by simp)) (Hub.onlyIn_mono hf (by simp))
  rw [run]
  exact ⟨f.answered_response .., Hub.answered_mailFrame_of_tx _ tag _ _ frame
    (fun _ => (own.trans taken).trans (Hub.ownMail_of_host (hf .host hc))) (by rw [sent, tx]) (by decide), hP _⟩

/-- An answer leaves the clocks but for gates that open. -/
theorem Hub.answered_clk (h : Hub) (m status hd : Nat) (tag : Word) (ws : List Word) (crc : Bool) :
    (h.answered m status hd tag ws crc).clk = { h.clk with gates := (h.answered m status hd tag ws crc).clk.gates } ∧
    ∀ n ∈ (h.answered m status hd tag ws crc).clk.gates, n ∈ h.clk.gates := by
  simp only [Hub.answered, Hub.openUsed, Hub.respond_clk, Hub.noteTag_clk, List.mem_filter]
  exact ⟨trivial, fun _ hn => hn.1⟩

/-- Of SYS an answer writes LAST_TAG alone. -/
theorem Hub.answered_sys (h : Hub) (m status hd : Nat) (tag : Word) (ws : List Word) (crc : Bool) :
    (h.answered m status hd tag ws crc).sys = { h.sys with lastTag := (h.answered m status hd tag ws crc).sys.lastTag } := by
  simp only [Hub.answered, Hub.openUsed, Hub.respond_sys, Hub.noteTag]
  split <;> rfl

theorem Hub.slotOf_congr {h g : Hub} (e : g.host.slots = h.host.slots) (hd : Nat) : g.slotOf hd = h.slotOf hd := by
  simp only [Hub.slotOf, e]

theorem Hub.slotOf_executing (h : Hub) (c : CmdSpec) (m : Nat) (tag : Word) (pl : List Word) (hd : Nat) :
    (h.executing c m tag pl).slotOf hd = h.slotOf hd := Hub.slotOf_congr (h.executing_ownMail c m tag pl).2 hd

/-- A command that its checks let pass is not refused by its own chapter (R483). -/
theorem State.refuse_of_takes {s : State} {c : CmdSpec} {mb : Fin 8} {tag : Word} {pl : List Word} (ht : s.takes c mb tag pl = true) :
    c.refuse (s.hub.executing c mb tag pl) (.of mb tag pl 0) = none := by
  simp only [State.takes, Bool.and_eq_true, Option.isNone_iff_eq_none] at ht
  have checks := ht.2
  cases hr : c.refuse (s.hub.executing c mb tag pl) (.of mb tag pl 0) with
  | none => rfl
  | some r =>
    simp only [Hub.checkCmd, show c.refuse _ { mb := mb.val, tag := tag, handle := 0, pl := pl } = some r from hr] at checks
    repeat' split at checks
    all_goals exact absurd checks nofun

/-! ### SYS_ABORT (R490, R498) -/

/-- From `h` to `g` the chapters `cs` changed, and what was sent stays sent. -/
structure Hub.Sends (h : Hub) (cs : List Chapter) (g : Hub) : Prop where
  only : h.onlyIn (.tx :: cs) g
  tx : h.tx <+: g.tx

theorem Hub.Sends.trans {h g t : Hub} {cs : List Chapter} (hg : h.Sends cs g) (gt : g.Sends cs t) : h.Sends cs t :=
  ⟨Hub.onlyIn_trans hg.only gt.only, hg.tx.trans gt.tx⟩

theorem Hub.Sends.refl (h : Hub) (cs : List Chapter) : h.Sends cs h := ⟨h.onlyIn_refl _, List.prefix_refl _⟩

theorem Hub.Sends.mono {h g : Hub} {cs ds : List Chapter} (hg : h.Sends cs g) (hs : cs ⊆ ds) : h.Sends ds g :=
  ⟨Hub.onlyIn_mono hg.only (List.cons_subset_cons _ hs), hg.tx⟩

/-- What changes the chapters `cs` alone, and a command completes. -/
theorem Hub.Sends.complete {h g : Hub} {cs : List Chapter} (hg : h.onlyIn cs g) (hx : .tx ∉ cs) (hc : .host ∈ cs) (hd status : Nat)
    (ws : List Word) : h.Sends cs (g.complete hd status ws) :=
  ⟨Hub.onlyIn_trans (Hub.onlyIn_mono hg (List.subset_cons_self _ _))
      (Hub.onlyIn_mono (g.complete_onlyIn hd status ws) (List.cons_subset.mpr ⟨by simp [hc], by simp⟩)),
    (hg .tx hx) ▸ (g.complete_tells hd status ws).sent⟩

/-- The chapters that an abort may change. -/
def abortChapters : List Chapter := [.host, .cfg, .clk, .fe, .cal, .flt, .tb, .net, .tiu, .cod, .free, .evt]

theorem Hub.abortFe_sends {h g : Hub} {hd : Nat} (e : h.abortFe hd = some g) : h.Sends abortChapters g := by
  unfold Hub.abortFe at e
  split at e
  · exact nomatch e
  · obtain rfl := Option.some.inj e
    exact .complete (by simp [Hub.onlyIn_iff, abortChapters, Hub.setExc]) (by decide) (by decide) _ _ _

theorem Hub.calCmdsDone_sends (h : Hub) : h.Sends [.cal, .host] h.calCmdsDone := by
  unfold Hub.calCmdsDone
  refine List.foldlRecOn (motive := fun g => h.Sends [.cal, .host] g) _ _ ⟨by simp [Hub.onlyIn_iff], List.prefix_refl _⟩ fun g hg c _ => ?_
  exact hg.trans (.complete (g.onlyIn_refl _) (by decide) (by decide) _ _ _)

theorem Hub.abortCal_sends {h g : Hub} {hd : Nat} (e : h.abortCal hd = some g) : h.Sends abortChapters g := by
  unfold Hub.abortCal at e
  split at e
  · exact nomatch e
  · obtain rfl := Option.some.inj e
    refine Hub.Sends.trans (cs := abortChapters) ⟨?_, ?_⟩ ((Hub.calCmdsDone_sends _).mono (ds := abortChapters) (by decide))
    · simp [Hub.onlyIn_iff, abortChapters]
    · exact List.prefix_refl _

theorem Hub.abortSwap_sends {h g : Hub} {hd : Nat} (e : h.abortSwap hd = some g) : h.Sends abortChapters g := by
  unfold Hub.abortSwap at e
  split at e
  · exact nomatch e
  · obtain rfl := Option.some.inj e
    exact .complete (by simp [Hub.onlyIn_iff, abortChapters, Hub.setSwap]) (by decide) (by decide) _ _ _

theorem Hub.abortRef_sends {h g : Hub} {hd : Nat} (e : h.abortRef hd = some g) : h.Sends abortChapters g := by
  unfold Hub.abortRef at e
  split at e
  · obtain rfl := Option.some.inj e
    exact .complete (by simp [Hub.onlyIn_iff, abortChapters]) (by decide) (by decide) _ _ _
  · exact nomatch e

theorem Hub.abortLaunch_sends {h g : Hub} {hd : Nat} (e : h.abortLaunch hd = some g) : h.Sends abortChapters g := by
  unfold Hub.abortLaunch at e
  split at e
  · exact nomatch e
  · next p _ =>
    dsimp only at e
    split at e
    · exact nomatch e
    · next l _ =>
      split at e
      · exact nomatch e
      · obtain rfl := Option.some.inj e
        have taken : h.onlyIn abortChapters (h.setPort p { h.port p with launch := (h.port p).launch.filter (·.handle != hd) }) :=
          Hub.onlyIn_mono (h.setPort_onlyIn p _) (by decide)
        have freed : ∀ k : Hub, k.Sends abortChapters (k.freeBuf l.buf) := fun k =>
          ⟨by simp [Hub.onlyIn_iff, abortChapters, Hub.freeBuf], List.prefix_refl _⟩
        have drained : ∀ k : Hub, k.Sends abortChapters (k.portDrain p) := fun k =>
          have drains := k.portDrain_drains p 0
          ⟨Hub.onlyIn_mono drains.only (by decide), drains.sent⟩
        exact ((Hub.Sends.complete taken (by decide) (by decide) _ _ _).trans (freed _)).trans (drained _)

theorem Hub.abortFreq_sends {h g : Hub} {hd : Nat} (e : h.abortFreq hd = some g) : h.Sends abortChapters g := by
  unfold Hub.abortFreq at e
  split at e
  · obtain rfl := Option.some.inj e
    exact .complete (by simp [Hub.onlyIn_iff, abortChapters]) (by decide) (by decide) _ _ _
  · exact nomatch e

theorem Hub.abortSave_sends {h g : Hub} {hd : Nat} (e : h.abortSave hd = some g) : h.Sends abortChapters g := by
  unfold Hub.abortSave at e
  split at e
  · exact nomatch e
  · obtain rfl := Option.some.inj e
    exact .complete (Hub.onlyIn_mono (h.setStream_onlyIn _ _) (by decide)) (by decide) (by decide) _ _ _

theorem Hub.abortCheck_sends {h g : Hub} {hd : Nat} (e : h.abortCheck hd = some g) : h.Sends abortChapters g := by
  unfold Hub.abortCheck at e
  split at e
  · exact nomatch e
  · obtain rfl := Option.some.inj e
    exact .complete (by simp [Hub.onlyIn_iff, abortChapters]) (by decide) (by decide) _ _ _

theorem Hub.fmcStop_sends (h : Hub) : h.Sends [.clk, .host] h.fmcStop := by
  unfold Hub.fmcStop
  split
  · exact .complete (by simp [Hub.onlyIn_iff]) (by decide) (by decide) _ _ _
  · exact .refl h _

theorem Hub.abortFmc_sends {h g : Hub} {hd : Nat} (e : h.abortFmc hd = some g) : h.Sends abortChapters g := by
  unfold Hub.abortFmc at e
  split at e
  · obtain rfl := Option.some.inj e
    exact h.fmcStop_sends.mono (by decide)
  · exact nomatch e

/-- The abort of a command of any opcode. -/
theorem Hub.abort_sends {h g : Hub} {hd opcode : Nat} (e : h.abort hd opcode = some g) : h.Sends abortChapters g := by
  unfold Hub.abort at e
  split_ifs at e
  · exact Hub.abortFe_sends e
  · exact Hub.abortCal_sends e
  · exact Hub.abortSwap_sends e
  · exact Hub.abortRef_sends e
  · exact Hub.abortLaunch_sends e
  · exact Hub.abortFreq_sends e
  · exact Hub.abortSave_sends e
  · exact Hub.abortCheck_sends e
  · exact Hub.abortFmc_sends e

/-- While the firmware or the boot ROM answers, a command that completes is done (R486, R491). -/
theorem Hub.complete_done {h : Hub} {hd : Nat} (status : Nat) (ws : List Word) (hr : (h.sys.fwReady || h.sys.recovery) = true) :
    ((h.complete hd status ws).slotOf hd).all (·.done) = true := by
  unfold Hub.complete
  dsimp only
  rw [if_pos hr]
  unfold Hub.cqWrite
  dsimp only
  split
  · next free => rw [free]; rfl
  · next x held =>
    split
    · next done => rw [held]; exact done
    · obtain ⟨p, host⟩ := Hub.edge_host (h := { h with host := { h.host with
        cq := h.host.cq.puts (8 * (h.host.cqWr % 256)) (cqEntry hd status x ws h.host.cqWr h.tb.epoch h.sampleT)
        cqWr := (h.host.cqWr + 1) % 2 ^ 32
        cqStatus := setBit h.host.cqStatus 0
        slots := h.host.slots.put (hd % 4096) { x with done := true, seq := h.host.cqWr % 65536, result := ws } } })
        (bit h.host.cqStatus 0) (bit h.host.cqCtrl 8) (fld h.host.cqCtrl 3 0)
      simp only [Hub.slotOf, host, Tab.get_put, if_true]
      split <;> rfl

/-- The stop of a measurement that runs (R490). -/
theorem Hub.fmcStop_stopped {h : Hub} (hb : h.clk.fmc.busy = true) (hr : (h.sys.fwReady || h.sys.recovery) = true) :
    h.fmcStop.clk.fmc.busy = false ∧ (h.fmcStop.slotOf h.clk.fmc.handle).all (·.done) = true := by
  unfold Hub.fmcStop
  rw [if_pos hb]
  exact ⟨by simp, Hub.complete_done ABORTED [] hr⟩

section
variable {s : State} {mb : Fin 8} {tag : Word} {pl : List Word}

theorem sysInfo_answers (ht : s.takes sysInfo mb tag pl = true) :
    Answers (.sysInfo mb tag pl) s mb tag DONE [] fun ws _ => ws.drop 3 = 1 :: ((List.range 8).map fun m => s.hub.sys.lastTag.get m) ++ [wd
      s.hub.sys.ctrlResets, Config.revision, lo32 Config.serial.toNat, hi32 Config.serial.toNat] ∧
      ws.getD 1 0 = wd (flag s.hub.sys.slotB 0 + flag s.hub.sto.trialFailed 1 + s.hub.sto.otp.rollback * 256) := by
  refine answers_of_run (c := sysInfo) rfl ht rfl rfl rfl rfl (by decide) (by decide) (Hub.onlyIn_refl _ _) fun t _ => ?_
  simp [sysInfo]

theorem sysHandleQuery_answers (ht : s.takes sysHandleQuery mb tag pl = true) :
    Answers (.sysHandleQuery mb tag pl) s mb tag DONE [] fun ws _ => ∀ x, s.hub.slotOf (fld (pw pl 0) 15 0) = some x →
      ws = [wd ((if x.done then 2 else 1) + x.opcode * 65536), x.tag, wd (x.mb + if x.done then x.seq * 65536 else 0)] := by
  refine answers_of_run (c := sysHandleQuery) rfl ht rfl rfl rfl rfl (by decide) (by decide) (Hub.onlyIn_refl _ _) fun t _ x hx => ?_
  simp [sysHandleQuery, CmdIn.of, pwHandle, Hub.slotOf_executing, hx]

/-- SYS_ABORT passes its checks only with the handle of a command that can still be aborted (R498). -/
theorem sysAbort_finds (ht : s.takes sysAbort mb tag pl = true) : ∃ x g, s.hub.slotOf (fld (pw pl 0) 15 0) = some x ∧
    (s.hub.executing sysAbort mb tag pl).abort (fld (pw pl 0) 15 0) x.opcode = some g := by
  have passes := State.refuse_of_takes ht
  simp only [sysAbort, CmdIn.of, Hub.slotOf_executing] at passes
  split at passes
  · exact nomatch passes
  · next x held =>
    cases abort : (s.hub.executing sysAbort mb tag pl).abort (fld (pw pl 0) 15 0) x.opcode with
    | none =>
      rw [refuseIf, if_pos] at passes
      · exact nomatch passes
      · exact Bool.or_eq_true_iff.mpr (.inr (congrArg Option.isNone abort))
    | some g => exact ⟨x, g, held, abort⟩

theorem sysAbort_answers (ht : s.takes sysAbort mb tag pl = true) :
    Answers (.sysAbort mb tag pl) s mb tag DONE [.host, .cfg, .clk, .fe, .cal, .flt, .tb, .net, .tiu, .cod, .free, .evt] fun _ t => ∀ x,
      s.hub.slotOf (fld (pw pl 0) 15 0) = some x → x.opcode = 0x0202 → t.clk.fmc.busy = false ∧
      (t.slotOf (fld (pw pl 0) 15 0)).all (fun y => y.done) := by
  obtain ⟨x, g, held, abort⟩ := sysAbort_finds ht
  have run : sysAbort.run (s.hub.executing sysAbort mb tag pl) (.of mb tag pl 0) = { hub := g } := by
    simp only [sysAbort, CmdIn.of, Hub.slotOf_executing, held]
    exact congrArg (fun o => ({ hub := Option.getD o _ } : CmdRes)) abort
  have sends := Hub.abort_sends abort
  refine answers_in_full (c := sysAbort) rfl ht rfl run rfl rfl (by decide) sends.only sends.tx fun crc y hy op => ?_
  obtain rfl := Option.some.inj (held.symm.trans hy)
  have canTake := ((s.reaches_iff _ _).mp (Bool.and_eq_true_iff.mp ht).1).canTake
  have ready : (s.hub.sys.fwReady || s.hub.sys.recovery) = true := by
    simp only [Hub.canTake, Bool.and_eq_true] at canTake
    exact canTake.1.1
  have stop : (s.hub.executing sysAbort mb tag pl).abortFmc (fld (pw pl 0) 15 0) = some g := by
    rw [← abort, op]
    rfl
  unfold Hub.abortFmc at stop
  split at stop
  · next runs =>
    simp only [Bool.and_eq_true, beq_iff_eq] at runs
    obtain ⟨busy, handle⟩ := runs
    obtain rfl := Option.some.inj stop
    obtain ⟨stopped, done⟩ := Hub.fmcStop_stopped busy (by simpa using ready)
    obtain ⟨clk, -⟩ := Hub.answered_clk (s.hub.executing sysAbort mb tag pl).fmcStop mb DONE 0 tag [] crc
    rw [Hub.slotOf_congr (Hub.answered_slots ..), clk, ← handle]
    exact ⟨stopped, done⟩
  · exact nomatch stop

/-! ### Resets that are asked for (R556) -/

theorem sysReset_kind (ht : s.takes sysReset mb tag pl = true) : fld (pw pl 0) 1 0 ≠ 0 := by
  have good := State.bad_of_takes ht
  simp only [sysReset, badIf] at good
  split at good
  · exact nomatch good
  · next ok =>
    simp only [Bool.not_eq_true', Bool.not_eq_false, Bool.and_eq_true, bne_iff_ne] at ok
    exact ok.1.2

/-- The reset that KIND 1 and KIND 2 ask for. -/
def askedReset (kind : Nat) : PendReset := if kind = 1 then .control 4 else .datapath

theorem sysReset_run (h : Hub) (x : CmdIn) (hk : fld (pw x.pl 0) 1 0 = 1 ∨ fld (pw x.pl 0) 1 0 = 2) : sysReset.run h x = {
    hub := { h with sys := { h.sys with
      pendingReset := some (askedReset (fld (pw x.pl 0) 1 0)), pendingMb := x.mb, resetDue := h.xoCycles + 49152 } } } := by
  rcases hk with hk | hk <;> simp [sysReset, askedReset, hk]

theorem sysReset_answers (ht : s.takes sysReset mb tag pl = true) (h3 : fld (pw pl 0) 1 0 ≠ 3) :
    Answers (.sysReset mb tag pl) s mb tag DONE [.sys] fun _ t => (fld (pw pl 0) 1 0 = 1 → t.sys.pendingReset = some (.control 4) ∧
      t.sys.pendingMb = mb.val) ∧ (fld (pw pl 0) 1 0 = 2 → t.sys.pendingReset = some .datapath ∧ t.sys.pendingMb = mb.val) ∧
      t.sys.resetDue = s.hub.xoCycles + 49152 := by
  have kind : fld (pw pl 0) 1 0 = 1 ∨ fld (pw pl 0) 1 0 = 2 := by
    have := sysReset_kind ht
    have : fld (pw pl 0) 1 0 < 4 := Nat.mod_lt _ (by decide)
    omega
  refine answers_in_full (c := sysReset) rfl ht rfl (sysReset_run _ _ kind) rfl rfl (by decide) ?_ (List.prefix_refl _) fun crc => ?_
  · simp [Hub.onlyIn_iff]
  · rw [Hub.answered_sys]
    refine ⟨fun h1 => ⟨?_, rfl⟩, fun h2 => ⟨?_, rfl⟩, ?_⟩
    · simp [CmdIn.of, askedReset, h1]
    · simp [CmdIn.of, askedReset, h2]
    · simp [Hub.xoCycles]

/-- A per-block reset leaves its mailbox BUSY until the next strobe. -/
theorem sysReset_waits (ht : s.takes sysReset mb tag pl = true) (h3 : fld (pw pl 0) 1 0 = 3) :
    ∃ t, exec (.sysReset mb tag pl) s = .next t ∧ t.pending = s.pending ∧ (t.hub.host.mbs.get mb).state = .busy ∧
      t.hub.sys = { s.hub.sys with blockReset := some { block := fld (pw pl 0) 12 8, mb := mb.val, tag := tag, since := s.hub.tb.strobes } }
      ∧ s.hub.onlyIn [.host, .sys, .clk, .tx] t.hub := by
  refine ⟨_, s.mailRow_takes sysReset mb tag pl ht, rfl, ?_, ?_, ?_⟩
  · simp [Hub.ran, sysReset, h3, Hub.openUsed, Hub.executing, Hub.taken, Hub.mailed, Hub.ring, Hub.updMb]
  · simp [Hub.ran, sysReset, h3]
  · simp [Hub.ran, sysReset, h3, Hub.onlyIn_iff]

/-! ### Saved states and log marks (R497, R557) -/

theorem sysStateSave_accepts (ht : s.takes sysStateSave mb tag pl = true) :
    Accepts (.sysStateSave mb tag pl) s mb tag [.cfg, .sto] fun _ t => t.cfg = { s.hub.cfg with autostart := bit (pw pl 0) 31,
                                                                                                saveInt := fld (pw pl 0) 15 0 } ∧
      t.sto.jobs.length = s.hub.sto.jobs.length + 1 := by
  have enabled : s.hub.sto.saveDisabled = false := by
    have passes := State.refuse_of_takes ht
    simp only [sysStateSave, refuseIf, Hub.executing_sto] at passes
    split at passes
    · exact nomatch passes
    · next off => exact Bool.eq_false_iff.mpr off
  refine accepts_of_run (c := sysStateSave) rfl ht rfl (by decide) fun g hd hg => ⟨_, rfl, ?_, fun t h => ?_⟩
  · obtain ⟨_, e⟩ := Hub.saveState_frame { g with cfg := { g.cfg with autostart := bit (pw pl 0) 31, saveInt := fld (pw pl 0) 15 0 } } (some hd)
    simp only [CmdIn.of, e]
    simp [Hub.onlyIn_iff]
  · have cfg : g.cfg = s.hub.cfg := hg .cfg (by decide)
    have sto : g.sto = s.hub.sto := hg .sto (by decide)
    rw [show t.cfg = _ from h .cfg (by decide), show t.sto = _ from h .sto (by decide)]
    simp [CmdIn.of, Hub.saveState, cfg, sto, enabled]

theorem length_bytesOf (ws : List Word) : (bytesOf ws).length = 4 * ws.length := by
  simp [bytesOf, List.length_flatMap, Nat.mul_comm]

theorem padTo_of_length {n : Nat} {bs : List Byte} (h : bs.length = n) : padTo n bs = bs := by simp [padTo, h]

/-- A log entry and where it goes (R506). -/
theorem Hub.logNow_entry (h : Hub) (ev sev : Nat) (data : List Byte) : (h.logNow ev sev data).evt.logNext = (h.evt.logNext + 1) % 2 ^ 32 ∧
    ((h.logNow ev sev data).evt.log.get (h.evt.logNext % 4096)).event = ev ∧
    ((h.logNow ev sev data).evt.log.get (h.evt.logNext % 4096)).data = padTo 16 (data.take 16) := by
  unfold Hub.logNow Hub.logWrite
  split <;> simp

theorem logMark_answers (ht : s.takes logMark mb tag pl = true) :
    Answers (.logMark mb tag pl) s mb tag DONE [.evt] fun ws t => ws = [wd s.hub.evt.logNext] ∧
      t.evt.logNext = (s.hub.evt.logNext + 1) % 2 ^ 32 ∧ (t.evt.log.get (s.hub.evt.logNext % 4096)).event = 0xF0 ∧
      (t.evt.log.get (s.hub.evt.logNext % 4096)).data = (bytesOf (pl.drop 1)).take 16 := by
  have five : pl.length = 5 := by simpa [logMark, lenIs] using State.len_of_takes ht
  refine answers_of_run (c := logMark) rfl ht rfl rfl rfl rfl (by decide) (by decide) ?_ fun t h => ⟨?_, ?_⟩
  · simp [Hub.onlyIn_iff, logMark]
  · simp [logMark]
  · obtain ⟨next, event, data⟩ := Hub.logNow_entry (s.hub.executing logMark mb tag pl) 0xF0 (fld (pw pl 0) 1 0 + 64) (bytesOf (pl.drop 1))
    rw [Hub.executing_evt, padTo_of_length (by simp [length_bytesOf, five])] at data
    rw [Hub.executing_evt] at next event
    rw [show t.evt = _ from h .evt (by decide)]
    exact ⟨next, event, data⟩

/-! ### Clock commands (R530 to R533) -/

theorem clkStatus_answers (ht : s.takes clkStatus mb tag pl = true) :
    Answers (.clkStatus mb tag pl) s mb tag DONE [] fun ws _ => ws.take 5 = [s.hub.clkStatusWord, s.hub.clk.fault, s.hub.muxState,
      s.hub.gatesWord false, s.hub.gatesWord true] ∧ (ws.drop 5).take 5 = (List.range 5).map fun k => wd (s.hub.clk.mon.get k).count := by
  refine answers_of_run (c := clkStatus) rfl ht rfl rfl rfl rfl (by decide) (by decide) (Hub.onlyIn_refl _ _) fun t _ => ?_
  simp [clkStatus, Hub.clkStatusWord, Hub.muxState, Hub.gatesWord]

theorem clkFmc_accepts (ht : s.takes clkFmc mb tag pl = true) :
    Accepts (.clkFmc mb tag pl) s mb tag [.clk] fun hd t => t.clk.fmc = { s.hub.clk.fmc with busy := true, meas := fld (pw pl 0) 5 0,
                                                                                             ref := fld (pw pl 0) 13 8,
                                                                                             log2 := fld (pw pl 0) 20 16, handle := hd,
                                                                                             start := s.hub.localT } := by
  refine accepts_in_full (c := clkFmc) rfl ht rfl (by decide) fun g hd hg => ⟨_, rfl, ?_, rfl, fun crc => ?_⟩
  · simp [Hub.onlyIn_iff]
  · have clk : g.clk = s.hub.clk := hg .clk (by decide)
    have tb : g.tb = s.hub.tb := hg .tb (by decide)
    rw [(Hub.answered_clk ..).1]
    simp [CmdIn.of, clk, Hub.localT, Hub.xoCycles, tb]

theorem clkGateSet_answers (ht : s.takes clkGateSet mb tag pl = true) (hc : bitsOf (mask64 (pw pl 0) (pw pl 1)) 37 = []) :
    Answers (.clkGateSet mb tag pl) s mb tag DONE [.clk] fun ws t => ws = [0, 0] ∧ (∀ n, n ∈ bitsOf (mask64 (pw pl 2) (pw pl 3)) 37 →
      n ∉ t.clk.gates) := by
  have run : ∀ h : Hub, clkGateSet.run h (.of mb tag pl 0) = {
      hub := { h with clk := { h.clk with gates := h.clk.gates.filter fun n => !(bitsOf (mask64 (pw pl 2) (pw pl 3)) 37).contains n } }
      words := [0, 0] } := fun h => by simp [clkGateSet, CmdIn.of, hc, stayedOpen, maskOf, lo32, hi32, wd]
  refine answers_in_full (c := clkGateSet) rfl ht rfl (run _) rfl rfl (by decide) ?_ (List.prefix_refl _) fun crc => ⟨rfl, fun n hn gate => ?_⟩
  · simp [Hub.onlyIn_iff]
  · have kept := (Hub.answered_clk _ _ _ _ _ _ _).2 n gate
    simp [hn] at kept

theorem clkMonSet_answers (ht : s.takes clkMonSet mb tag pl = true) :
    Answers (.clkMonSet mb tag pl) s mb tag DONE [.cfg] fun _ t => t.cfg = { s.hub.cfg with clk := { xoTol := fld (pw pl 0) 31 24,
                                                                                                     failWin := fld (pw pl 0) 23 20,
                                                                                                     okWin := fld (pw pl 0) 19 12,
                                                                                                     refTol := fld (pw pl 1) 31 16,
                                                                                                     xoDecl := fld (pw pl 1) 15 0 } } := by
  refine answers_of_run (c := clkMonSet) rfl ht rfl rfl rfl rfl (by decide) (by decide) ?_ fun t h => ?_
  · simp [Hub.onlyIn_iff, clkMonSet, CmdIn.of]
  · rw [show t.cfg = _ from h .cfg (by decide)]
    simp [clkMonSet, CmdIn.of]

end

/-- Settles O20: each command has its lemma above, over the one path by which a mailbox answers or accepts. -/
theorem systemCommands : Obligations.SystemCommands := by
  unfold Obligations.SystemCommands
  exact ⟨fun _ _ _ _ ht => sysNop_answers ht, fun _ _ _ _ ht => sysInfo_answers ht, fun _ _ _ _ ht => sysHandleQuery_answers ht,
    fun _ _ _ _ ht => sysAbort_answers ht, fun _ _ _ _ ht h3 => sysReset_answers ht h3, fun _ _ _ _ ht h3 => sysReset_waits ht h3,
    fun _ _ _ _ ht => sysStateSave_accepts ht, fun _ _ _ _ ht => logMark_answers ht, fun _ _ _ _ ht => clkStatus_answers ht,
    fun _ _ _ _ ht => clkFmc_accepts ht, fun _ _ _ _ ht hc => clkGateSet_answers ht hc, fun _ _ _ _ ht => clkMonSet_answers ht⟩

end Sys2Proof.Machine

/-! PROOFS. The slot rates of a sensor lane (O18). -/
namespace Sys2Proof.Machine

/-- A rate of whole samples per strobe (R386). -/
theorem multiple_rate_iff (r : Nat) : (r % 8000 == 0 && inR (r / 8000) 1 8) = true ↔ ∃ m, 1 ≤ m ∧ m ≤ 8 ∧ r = 8000 * m := by
  simp only [inR, Bool.and_eq_true, beq_iff_eq, decide_eq_true_eq]
  constructor
  · rintro ⟨whole, one, eight⟩
    exact ⟨r / 8000, one, eight, by omega⟩
  · rintro ⟨m, one, eight, rfl⟩
    omega

/-- The strobes from one sample to the next at a rate below one sample per strobe (R386). -/
theorem fraction_rate_iff (r : Nat) :
    (decide (0 < r) && 8000 % r == 0 && inR (8000 / r) 2 64 && decide (8000 / r ∈ [2, 4, 8, 16, 32, 64])) = true ↔
      ∃ e, 1 ≤ e ∧ e ≤ 6 ∧ r * 2 ^ e = 8000 := by
  simp only [inR, Bool.and_eq_true, beq_iff_eq, decide_eq_true_eq]
  constructor
  · rintro ⟨⟨⟨positive, whole⟩, -⟩, power⟩
    have product : r * (8000 / r) = 8000 := Nat.mul_div_cancel' (Nat.dvd_of_mod_eq_zero whole)
    obtain ⟨e, one, six, two⟩ : ∃ e, 1 ≤ e ∧ e ≤ 6 ∧ 8000 / r = 2 ^ e := by
      simp only [List.mem_cons, List.not_mem_nil, or_false] at power
      rcases power with q | q | q | q | q | q
      · exact ⟨1, by decide, by decide, q⟩
      · exact ⟨2, by decide, by decide, q⟩
      · exact ⟨3, by decide, by decide, q⟩
      · exact ⟨4, by decide, by decide, q⟩
      · exact ⟨5, by decide, by decide, q⟩
      · exact ⟨6, by decide, by decide, q⟩
    exact ⟨e, one, six, two ▸ product⟩
  · rintro ⟨e, one, six, product⟩
    interval_cases e
    all_goals
      obtain rfl : r = 8000 / _ := (Nat.div_eq_of_eq_mul_left (by decide) product.symm).symm
      decide

theorem rateOk_iff {level r : Nat} (hl : level ≤ 3) : rateOk level r = true ↔
    (∃ m, 1 ≤ m ∧ m ≤ 8 ∧ r = 8000 * m) ∨ (level = 3 ∧ ∃ e, 1 ≤ e ∧ e ≤ 6 ∧ r * 2 ^ e = 8000) := by
  have three : decide (3 ≤ level) = decide (level = 3) := by simp only [decide_eq_decide]; omega
  rw [rateOk, Bool.or_eq_true, multiple_rate_iff, three, Bool.and_assoc, Bool.and_assoc, Bool.and_assoc, Bool.and_eq_true, decide_eq_true_eq,
    ← Bool.and_assoc, ← Bool.and_assoc, fraction_rate_iff]

/-- Settles O18: whole multiples of 8,000, and at level 3 its halves down to 125. -/
theorem slotRates : Obligations.SlotRates := by
  refine ⟨fun _ _ hl => rateOk_iff hl, fun h p good => ?_⟩
  simp only [slSlotSet, badIf] at good
  split at good
  · exact nomatch good
  · next ok =>
    simp only [Bool.not_eq_true', Bool.not_eq_false, Bool.and_eq_true] at ok
    exact ok.2

end Sys2Proof.Machine

/-! PROOFS. An echo on line 9 of a master (O59). -/
namespace Sys2Proof.Machine

/-- The master of a cascade, with port U at the head of line 9's requesters and an empty stamp FIFO. -/
def masterAsksLine9 : State where
  pending := []
  hub :=
    { sys := { power := .run, straps := { cascMaster := true } }
      tiu := { calAll := false, line9 := [16] } }

/-- A probe and its echo 100 TIME cycles later. -/
def line9Echo : RoundTrip := { probe := 0, echo := 0, cycles := 100, drained := 0 }

/-- The stamps of the probe and of the echo stay in the FIFO. -/
theorem masterAsksLine9_cascDelayEcho : (cascDelayEcho line9Echo 0 masterAsksLine9.hub).tiu.fifo = 2 := by decide

/-- Refutes O59: the clause on a DELAY_ECHO that does not apply says that nothing changes at a hub that is not the downstream end of its hop, but
its hypotheses leave open that line 9 serves port U there. Line 9 then stamps the probe and the echo, and the two stamps take entries of the stamp
FIFO (R280, R291) before the hop's direction is looked at. -/
theorem not_cascadeLinkRows : ¬ Obligations.CascadeLinkRows := by
  unfold Obligations.CascadeLinkRows
  rintro ⟨-, -, -, -, -, -, -, -, -, -, -, -, -, -, -, -, -, -, -, -, -, -, -, -, -, -, -, -, echoIgnored, -⟩
  have frame := (echoIgnored masterAsksLine9 line9Echo 0 rfl rfl (by decide) (.inl rfl)).onlyIn_of_row rfl rfl
  have kept : (cascDelayEcho line9Echo 0 masterAsksLine9.hub).tiu = masterAsksLine9.hub.tiu := frame .tiu (by decide)
  have none : 2 = 0 := masterAsksLine9_cascDelayEcho.symm.trans (congrArg (·.fifo) kept)
  exact absurd none (by decide)

end Sys2Proof.Machine

/-! PROOFS. Links, suspicion, failover, self-tests and path health (O51). -/
namespace Sys2Proof.Machine

/-- Operands that can be spelled leave the row as it is. -/
theorem checked_of_ok {ok : Bool} {o : Host.Outcome State Fault Refusal} (h : ok = true) : checked ok o = o := if_pos h

/-! ### Rows that write one port -/

/-- A row that makes port `p` another changes nothing else. -/
theorem does_setPort {i : Instr} {s : State} {f : Hub → Hub} {p : Nat} {x : Port} (hi : exec i s = s.row f) (hp : s.hub.powered = true)
    (hf : f s.hub = s.hub.setPort p x) : Does i s [.net] fun t => t.port p = x ∧ ∀ k, k ≠ p → t.port k = s.hub.port k :=
  does_row hi hp (hf ▸ s.hub.setPort_onlyIn p x) (hf ▸ ⟨by simp, by simp +contextual⟩)

/-- The same with the causes noted after it. -/
theorem does_setPort_noteCauses {i : Instr} {s : State} {f : Hub → Hub} {p : Nat} {x : Port} (hi : exec i s = s.row f)
    (hp : s.hub.powered = true) (hf : f s.hub = (s.hub.setPort p x).noteCauses) :
    Does i s [.net] fun t => t.port p = x ∧ ∀ k, k ≠ p → t.port k = s.hub.port k := by
  have written : s.hub.Serves p x (f s.hub) := hf ▸ (s.hub.setPort_serves p x).keeps (Hub.noteCauses_serves _ p)
  exact does_row hi hp (hf ▸ Hub.onlyIn_trans (s.hub.setPort_onlyIn p x) (Hub.noteCauses_onlyIn _)) ⟨written.own, written.others⟩

@[simp] theorem Hub.setPort_isActive (h : Hub) (p k : Nat) (x : Port) : (h.setPort p x).isActive k = h.isActive k := rfl

theorem Hub.isActive_of_ne {h : Hub} {p : Nat} (ha : h.net.active ≠ some p) : h.isActive p = false := by simp [Hub.isActive, ha]

theorem Hub.isActive_of_eq {h : Hub} {p : Nat} (ha : h.net.active = some p) : h.isActive p = true := by simp [Hub.isActive, ha]

/-! ### Links (R441) -/

section
variable {h : Hub} {p : Nat}

theorem netLinkChange_up_standby (hm : (h.clk.mon.get 4).failed = false) (hl : (h.port p).link = false) (hs : (h.port p).st = .standby)
    (ha : h.net.active ≠ some p) : netLinkChange p true h = h.setPort p { h.port p with link := true } := by
  simp [netLinkChange, hm, hl, hs, Hub.isActive_of_ne ha]

/-- A standby port whose link has dropped. -/
def Port.dropped (x : Port) : Port :=
  { x with link := false, linkSince := x.tests == 0, resolved := false, linkLoss := x.linkLoss + 1, prbs := false, echoAt := none, resolve := none }

/-- Launches end when the active path is lost, and only then (R266). -/
theorem Hub.pathCheck_of_active (ha : ∀ a, h.net.active = some a → (h.port a).link = true ∨ (h.port a).launch = []) : h.pathCheck = h := by
  unfold Hub.pathCheck
  split
  · next a active =>
    refine if_neg ?_
    rcases ha a active with link | idle
    · simp [link]
    · simp [idle]
  · rfl

theorem Hub.portTo_serves (h : Hub) (p : Nat) (s : PortState) : h.Serves p { h.port p with st := s } (h.portTo p s) := by
  unfold Hub.portTo
  split
  · next same => exact (Hub.serves_of_raises p (.refl h _)).of_eq (by rw [← same])
  · exact (h.setPort_serves p _).keeps (Hub.portHealth_serves _ p)

theorem Hub.portHealth_records (h : Hub) (p : Nat) : h.Records (h.portHealth p) := by
  unfold Hub.portHealth
  extract_lets x act
  split
  · exact .refl h
  · exact h.land_records ..

theorem Hub.portTo_net (h : Hub) (p : Nat) (s : PortState) : (h.portTo p s).net = { h.net with ports := (h.portTo p s).net.ports } := by
  unfold Hub.portTo
  split
  · rfl
  · have kept : ∀ g : Hub, (g.portHealth p).net = g.net := fun g => (g.portHealth_records p).raises.only .net (by decide)
    rw [kept]
    rfl

theorem Hub.portTo_raises (h : Hub) (p : Nat) (s : PortState) : h.Raises [.evt, .jrn, .sto, .net] (h.portTo p s) := by
  unfold Hub.portTo
  split
  · exact .refl h _
  · have written : ∀ x, h.Raises [.evt, .jrn, .sto, .net] (h.setPort p x) := fun x =>
      (Hub.raises_of_onlyIn (h.setPort_onlyIn p x) (by decide) (by decide)).mono (by decide)
    exact (written _).trans ((Hub.portHealth_records _ p).raises.mono (by decide))

/-- A standby port whose link drops is FAULTED. -/
theorem netLinkChange_down_standby (hl : (h.port p).link = true) (hs : (h.port p).st = .standby) (ha : h.net.active ≠ some p) :
    netLinkChange p false h = ((((h.setPort p (h.port p).dropped).portTo p .faulted).raise 110 []).pathCheck) := by
  simp [netLinkChange, hl, hs, Hub.isActive_of_ne ha, Port.dropped]

theorem netLinkChange_same {up : Bool} (hl : (h.port p).link = up) : netLinkChange p up h = h := by simp [netLinkChange, hl]

end

theorem netLinkChange_faults {s : State} {p : Fin 2} {up : Bool} (hp : s.hub.powered = true) (hu : up = false)
    (hl : (s.hub.port p).link = true) (hs : (s.hub.port p).st = .standby) (ha : s.hub.net.active ≠ some p.val)
    (hk : ∀ a, s.hub.net.active = some a → (s.hub.port a).link = true ∨ (s.hub.port a).launch = []) :
    Does (.netLinkChange p up) s [.host, .evt, .jrn, .sto, .net, .tx] fun t => t.port p = { (s.hub.port p).dropped with st := .faulted } ∧
      ∀ k : Nat, k ≠ p.val → t.port k = s.hub.port k := by
  subst hu
  let faulted := (s.hub.setPort p (s.hub.port p).dropped).portTo p .faulted
  have served : s.hub.Serves p { (s.hub.port p).dropped with st := .faulted } (faulted.raise 110 []) :=
    (((s.hub.setPort_serves p _).trans (Hub.portTo_serves _ p .faulted)).of_eq (by simp)).keeps (Hub.raise_serves _ p 110 [])
  have active : (faulted.raise 110 []).net.active = s.hub.net.active := by
    rw [Hub.raise_net, show faulted.net = _ from Hub.portTo_net _ p .faulted]
    rfl
  have goesOn : (faulted.raise 110 []).pathCheck = faulted.raise 110 [] := Hub.pathCheck_of_active fun a e => by
    rw [active] at e
    rw [served.others a fun same => ha (same ▸ e)]
    exact hk a e
  refine does_row rfl hp ?_ ?_
  · rw [netLinkChange_down_standby hl hs ha, goesOn]
    have written := s.hub.setPort_onlyIn p (s.hub.port p).dropped
    exact Hub.onlyIn_trans (Hub.onlyIn_mono written (by decide)) (Hub.onlyIn_mono
      ((Hub.portTo_raises _ p .faulted).trans ((Hub.raise_records _ 110 []).raises.mono (by decide))).only (by decide))
  · rw [netLinkChange_down_standby hl hs ha, goesOn]
    exact ⟨served.own, served.others⟩

/-! ### Addresses and routers (R442, R460) -/

section
variable {h : Hub} {p : Nat}

/-- Where no launch blocks it, a message of the host leaves. -/
theorem Hub.msgOut_net {kind : Nat} {v6 : Bool} {body : List Byte} (hg : h.guardBlocks p (h.msgLen p (.net kind v6 body)) = false) :
    h.msgOut p (.net kind v6 body) = h.send (.net p kind body) := by
  simp [Hub.msgOut, Hub.msgWaits, hg, PortMsg.isFerry]

theorem netAddrRequest_answered {v6 : Bool} {addr : List Word} {data : List Byte} (ha : h.net.active = some p) (hl : (h.port p).link = true)
    (hm : if v6 then h.cfg.net.ipv6En = true ∧ addr = h.cfg.net.ipv6 else addr = [h.cfg.net.ipv4]) :
    netAddrRequest p v6 addr data h = h.msgOut p (.net 4 v6 ((h.portCfg p).mac ++ bytesOf addr ++ data)) := by
  cases v6 <;> simp_all [netAddrRequest, Hub.isActive]

theorem netAddrRequest_ignored {v6 : Bool} {addr : List Word} {data : List Byte} (hd : h.net.active ≠ some p ∨ (h.port p).link = false) :
    netAddrRequest p v6 addr data h = h := by
  rcases hd with away | unlinked
  · simp [netAddrRequest, Hub.isActive_of_ne away]
  · simp [netAddrRequest, unlinked]

theorem routerAdvertisementReceive_active {router : List Byte} (ha : h.net.active = some p) (he : h.cfg.net.ipv6En = true) :
    routerAdvertisementReceive p router h = { h with net :=
      { h.net with routers := if router ∈ h.net.routers then h.net.routers else h.net.routers ++ [router] } } := by
  have active : h.isActive p = true := Hub.isActive_of_eq ha
  by_cases known : router ∈ h.net.routers
  · simp [routerAdvertisementReceive, known]
  · simp [routerAdvertisementReceive, active, he, known]

/-! ### Self-tests (R453, R454) -/

/-- An interval timer has passed. -/
theorem Hub.passed_of_forall {since : Option Nat} {n : Nat} (hs : ∀ a, since = some a → a + n ≤ h.xoCycles) : h.passed since n = true := by
  cases since with
  | none => rfl
  | some a => exact decide_eq_true (hs a rfl)

theorem selftestTimer_starts (he : (h.portCfg p).enable = true) (hl : (h.port p).link = true) (hs : (h.port p).st ≠ .off)
    (ha : h.net.active ≠ some p) (hd : ∀ a, (h.port p).testAt = some a → a + h.cfg.net.selfInt * 49152000 ≤ h.xoCycles) :
    selftestTimer p h = h.setPort p { h.port p with prbs := true, prbsOk := false, echoOk := false, echoAt := none, resolve := none,
                                                    testAt := some h.xoCycles, tests := (h.port p).tests + 1, testT := h.sampleT } := by
  rw [selftestTimer, if_pos (Hub.passed_of_forall hd)]
  simp [Hub.testStart, he, hl, hs, Hub.isActive_of_ne ha]
  rfl

/-- A port but for its engine, what waits to leave it and its echo request. -/
def Port.unechoed (x : Port) : Port := { x.rest with echoAt := none, echoSeq := 0, resolve := none }

/-- From `h` to `g` port `p` may have sent an echo request: nothing else changed. -/
structure Hub.Echoes (p : Nat) (h g : Hub) : Prop where
  only : h.onlyIn [.net, .tx] g
  own : (g.port p).unechoed = (h.port p).unechoed
  others : ∀ k, k ≠ p → g.port k = h.port k

theorem Hub.echoSend_echoes (h : Hub) (p : Nat) : h.Echoes p (h.echoSend p) := by
  have leaves : ∀ (x : Port) (m : PortMsg), x.unechoed = (h.port p).unechoed → h.Echoes p ((h.setPort p x).msgOut p m) := by
    intro x m same
    obtain ⟨only, -, -, own, others, -, -⟩ := (h.setPort p x).msgOut_drains p m 0
    have rest : (((h.setPort p x).msgOut p m).port p).rest = x.rest := by simpa using own
    refine ⟨Hub.onlyIn_trans (Hub.onlyIn_mono (h.setPort_onlyIn p x) (by decide)) only, ?_, fun k hk => ?_⟩
    · rw [← same, Port.unechoed, rest, Port.unechoed]
    · simpa [hk] using others k hk
  unfold Hub.echoSend
  extract_lets x v6 seq
  split_ifs
  · exact ⟨h.onlyIn_refl _, rfl, fun _ _ => rfl⟩
  · exact leaves _ _ rfl
  · exact leaves _ _ rfl

theorem prbsTestDone_running {errors : Nat} (hr : (h.port p).prbs = true) (ha : h.net.active ≠ some p) :
    prbsTestDone p errors h = (h.setPort p { h.port p with prbs := false, prbsErr := errors, prbsOk := errors == 0 }).echoSend p := by
  simp [prbsTestDone, hr, Hub.isActive_of_ne ha]

/-! ### Echoes (R443, R454) -/

theorem echoReplyReceive_inTime {seq n : Nat} (ha : h.net.active = some p) (hn : (h.port p).echoAt = some n) (hq : seq = (h.port p).echoSeq)
    (ht : (h.xoCycles - n) * 1000000 / 49152000 ≤ h.cfg.net.echoTo * 1000) : echoReplyReceive p seq h =
      (h.setPort p { h.port p with echoAt := none, echoOk := true, rtt := (h.xoCycles - n) * 1000000 / 49152000, echoMiss := 0 }).noteCauses := by
  have inTime : ¬ (seq ≠ (h.port p).echoSeq ∨ h.cfg.net.echoTo * 1000 < (h.xoCycles - n) * 1000000 / 49152000) := by omega
  simp only [echoReplyReceive, hn, if_neg inTime]
  exact if_pos (Hub.isActive_of_eq (h := h) ha)

theorem echoTimeout_passed {n : Nat} (ha : h.net.active = some p) (hn : (h.port p).echoAt = some n)
    (ht : n + h.cfg.net.echoTo * 49152 ≤ h.xoCycles) : echoTimeout p h =
      (h.setPort p { h.port p with echoAt := none, resolve := none, echoOk := false, rtt := 0xFFFFFFFF, echoMiss := (h.port p).echoMiss + 1 }).noteCauses := by
  simp only [echoTimeout, hn, Option.some_or, if_neg (Nat.not_lt.mpr ht)]
  exact if_pos (Hub.isActive_of_eq (h := h) ha)

/-- What a port sends once ECHO_ADDR has answered. -/
theorem addressResolutionReply_echoes (hr : (h.port p).resolve.isSome = true) (hl : (h.port p).link = true) (hs : (h.port p).st ≠ .off)
    (hg : h.guardBlocks p (if h.cfg.net.echoV6 then 86 else 60) = false) : ∃ b, addressResolutionReply p h =
      (h.setPort p { h.port p with resolved := true, echoAt := some h.xoCycles, echoSeq := ((h.port p).echoSeq + 1) % 65536, resolve := none }).send
        (.net p 3 b) := by
  have replied : ((h.port p).resolve.isSome && (h.port p).link && ((h.port p).st != .off)) = true := by simp [hr, hl, hs]
  rw [addressResolutionReply, if_pos replied]
  simp only [Hub.echoSend, Hub.setPort_port, if_true, hl, Bool.not_true, Bool.false_eq_true, if_false, Hub.setPort_setPort]
  refine ⟨_, Hub.msgOut_net ?_⟩
  rw [← hg]
  simp [Hub.guardBlocks, Hub.msgLen, Hub.launchNext]
  rfl

end

/-! ### Suspicion (R443, R444) -/

section
variable {h : Hub} {p fcs : Nat}

theorem Hub.noteErrors_onlyIn (h : Hub) (fcs : Nat) : h.onlyIn [.net] (h.noteErrors fcs) := by
  unfold Hub.noteErrors
  split
  · exact h.onlyIn_refl _
  · exact h.setCauses_onlyIn _

/-- The frames that failed their FCS tell the causes that hold, and nothing else. -/
theorem Hub.noteErrors_net (h : Hub) (fcs : Nat) : (h.noteErrors fcs).net =
    { h.net with causes := (h.noteErrors fcs).net.causes, causeAt := (h.noteErrors fcs).net.causeAt, clearAt := (h.noteErrors fcs).net.clearAt } := by
  unfold Hub.noteErrors
  split <;> rfl

theorem Hub.noteErrors_cfg (h : Hub) (fcs : Nat) : (h.noteErrors fcs).cfg = h.cfg := h.noteErrors_onlyIn fcs .cfg (by decide)
theorem Hub.noteErrors_xoCycles (h : Hub) (fcs : Nat) : (h.noteErrors fcs).xoCycles = h.xoCycles :=
  congrArg (fun t : TbSt => t.xo / 2 ^ 40) (h.noteErrors_onlyIn fcs .tb (by decide))

/-- The path of an active port becomes SUSPECT, or is so no longer. -/
theorem Hub.setSuspect_of_ne {b : Bool} (ha : h.net.active = some p) (hb : h.net.suspect ≠ b) :
    h.onlyIn [.host, .evt, .jrn, .sto, .net, .tx] (h.setSuspect b) ∧ (h.setSuspect b).net =
      { h.net with suspect := b, suspects := if b then sat32 (h.net.suspects + 1) else h.net.suspects, suspectAt := none } := by
  have told : ∀ (g : Hub) q, g.Records ((if b then g.raise 105 (b1 g.net.causes) else g.raise 106 []).portHealth q) := by
    intro g q
    refine .trans ?_ (Hub.portHealth_records _ q)
    split
    · exact g.raise_records _ _
    · exact g.raise_records _ _
  unfold Hub.setSuspect
  split
  · next e => exact absurd (e.symm.trans ha) nofun
  · next q _ =>
    rw [if_neg hb]
    extract_lets _ g
    have written : h.onlyIn [.net] g := by simp [Hub.onlyIn_iff, g]
    have raises := (told g q).raises
    exact ⟨Hub.onlyIn_trans (Hub.onlyIn_mono written (by decide)) (Hub.onlyIn_mono raises.only (by decide)), raises.only .net (by decide)⟩

/-- Some enabled cause has held for SUSPECT_DEB. -/
def Hub.heldLong (h : Hub) : Bool :=
  (List.range 5).any fun i => (h.net.causes &&& h.cfg.net.suspMask).testBit i && decide (h.net.causeAt.get i + h.suspectDeb ≤ h.xoCycles)

theorem suspectDebounce_eq (h : Hub) (fcs : Nat) :
    suspectDebounce fcs h = if (h.noteErrors fcs).heldLong then (h.noteErrors fcs).setSuspect true else h.noteErrors fcs := rfl

theorem Hub.heldLong_iff : h.heldLong = true ↔
    ∃ i < 5, (h.net.causes &&& h.cfg.net.suspMask).testBit i = true ∧ h.net.causeAt.get i + h.suspectDeb ≤ h.xoCycles := by
  simp [Hub.heldLong, -Nat.testBit_and]

end

section
variable {s : State} {fcs : Nat}

theorem suspectDebounce_suspects {p i : Nat} (hp : s.hub.powered = true) (ha : s.hub.net.active = some p) (hs : s.hub.net.suspect = false)
    (hi : i < 5) (hc : ((s.hub.noteErrors fcs).net.causes &&& s.hub.cfg.net.suspMask).testBit i = true)
    (ht : (s.hub.noteErrors fcs).net.causeAt.get i + s.hub.cfg.net.suspDeb * 49152 ≤ s.hub.xoCycles) :
    Does (.suspectDebounce fcs) s [.host, .evt, .jrn, .sto, .net, .tx] fun t => t.net.suspect = true ∧
      t.net.suspects = sat32 (s.hub.net.suspects + 1) ∧ t.net.causes = (s.hub.noteErrors fcs).net.causes ∧ t.net.ports = s.hub.net.ports := by
  have long : (s.hub.noteErrors fcs).heldLong = true :=
    Hub.heldLong_iff.mpr ⟨i, hi, by rwa [Hub.noteErrors_cfg], by rwa [Hub.suspectDeb, Hub.noteErrors_cfg, Hub.noteErrors_xoCycles]⟩
  have net := s.hub.noteErrors_net fcs
  obtain ⟨frame, after⟩ := Hub.setSuspect_of_ne (h := s.hub.noteErrors fcs) (p := p) (b := true) (by rw [net]; exact ha) (by rw [net]; simp [hs])
  have row : suspectDebounce fcs s.hub = (s.hub.noteErrors fcs).setSuspect true := by rw [suspectDebounce_eq, if_pos long]
  refine does_row rfl hp ?_ ?_
  · rw [row]
    exact Hub.onlyIn_trans (Hub.onlyIn_mono (s.hub.noteErrors_onlyIn fcs) (by decide)) frame
  · rw [row, after]
    refine ⟨rfl, ?_, rfl, ?_⟩
    · rw [net]
      rfl
    · rw [net]

theorem suspectDebounce_waits (hp : s.hub.powered = true)
    (hw : ∀ i : Nat, i < 5 → ((s.hub.noteErrors fcs).net.causes &&& s.hub.cfg.net.suspMask).testBit i = true →
      s.hub.xoCycles < (s.hub.noteErrors fcs).net.causeAt.get i + s.hub.cfg.net.suspDeb * 49152) :
    Does (.suspectDebounce fcs) s [.net] fun t => t = s.hub.noteErrors fcs ∧
      t.net = { s.hub.net with causes := t.net.causes, causeAt := t.net.causeAt, clearAt := t.net.clearAt } := by
  have short : ¬ (s.hub.noteErrors fcs).heldLong = true := by
    rw [Hub.heldLong_iff, Hub.suspectDeb, Hub.noteErrors_cfg, Hub.noteErrors_xoCycles]
    rintro ⟨i, hi, hc, ht⟩
    exact absurd (hw i hi hc) (Nat.not_lt.mpr ht)
  have row : suspectDebounce fcs s.hub = s.hub.noteErrors fcs := by rw [suspectDebounce_eq, if_neg short]
  refine does_row rfl hp (row ▸ s.hub.noteErrors_onlyIn fcs) ?_
  rw [row]
  exact ⟨rfl, s.hub.noteErrors_net fcs⟩

theorem suspectClear_clears {p : Nat} (hp : s.hub.powered = true) (ha : s.hub.net.active = some p) (hs : s.hub.net.suspect = true)
    (hc : (s.hub.noteErrors fcs).causeHeld = false) (ht : (s.hub.noteErrors fcs).net.clearAt + s.hub.cfg.net.suspDeb * 49152 ≤ s.hub.xoCycles) :
    Does (.suspectClear fcs) s [.host, .evt, .jrn, .sto, .net, .tx] fun t => t.net.suspect = false ∧
      t.net.suspects = s.hub.net.suspects ∧ t.net.ports = s.hub.net.ports := by
  have net := s.hub.noteErrors_net fcs
  obtain ⟨frame, after⟩ := Hub.setSuspect_of_ne (h := s.hub.noteErrors fcs) (p := p) (b := false) (by rw [net]; exact ha) (by rw [net]; simp [hs])
  have passed : ¬ (s.hub.noteErrors fcs).xoCycles < (s.hub.noteErrors fcs).net.clearAt + (s.hub.noteErrors fcs).suspectDeb := by
    rw [Hub.suspectDeb, Hub.noteErrors_cfg, Hub.noteErrors_xoCycles]
    exact Nat.not_lt.mpr ht
  have row : suspectClear fcs s.hub = (s.hub.noteErrors fcs).setSuspect false := if_neg (by simpa [hc] using passed)
  refine does_row rfl hp ?_ ?_
  · rw [row]
    exact Hub.onlyIn_trans (Hub.onlyIn_mono (s.hub.noteErrors_onlyIn fcs) (by decide)) frame
  · rw [row, after]
    refine ⟨rfl, ?_, ?_⟩
    · rw [net]
      rfl
    · rw [net]

end

/-! ### The readings of the timebases (R220, R221) -/

/-- The counts of NET and TB_SAMPLE. -/
def TbSt.readings (t : TbSt) : Nat × Nat × Nat := (t.net, t.sec, t.cnt)

theorem Hub.launchNow_of_readings {h g : Hub} (hr : g.tb.readings = h.tb.readings) (l : Launch) : g.launchNow l = h.launchNow l := by
  obtain ⟨net, sec, cnt⟩ : g.tb.net = h.tb.net ∧ g.tb.sec = h.tb.sec ∧ g.tb.cnt = h.tb.cnt := by simpa [TbSt.readings] using hr
  simp [Hub.launchNow, Hub.sampleT, Hub.netT, net, sec, cnt]

theorem Hub.sourceChanged_readings (h : Hub) : h.sourceChanged.tb.readings = h.tb.readings := by
  have landed : ∀ type flags group epoch t body, (h.land type flags group epoch t body).tb = h.tb := fun _ _ _ _ _ _ =>
    (h.land_records ..).raises.only .tb (by decide)
  simp [Hub.sourceChanged, Hub.mapNow, Hub.landTimeMap, TbSt.readings, landed]

theorem Hub.freezeY_readings (h : Hub) (now : Nat) : (h.freezeY now).tb.readings = h.tb.readings := by
  simp [Hub.freezeY, Hub.noteY, Hub.setY, TbSt.readings]

theorem Hub.enterHoldover_readings (h : Hub) : h.enterHoldover.tb.readings = h.tb.readings := by
  unfold Hub.enterHoldover
  extract_lets g u k _ t
  have frozen : k.tb.readings = h.tb.readings := g.freezeY_readings _
  clear_value k
  rw [Hub.sourceChanged_readings, ← frozen]
  rfl

theorem Hub.sourceLost_readings (h : Hub) : h.sourceLost.tb.readings = h.tb.readings := by
  unfold Hub.sourceLost
  extract_lets g u k _
  have frozen : k.tb.readings = h.tb.readings := g.freezeY_readings _
  clear_value k
  split
  · exact frozen
  · exact g.enterHoldover_readings

/-- A source that gains or loses its qualification moves no reading. -/
theorem Hub.setQual_net_readings (h : Hub) (q : Bool) : (h.setQual .net q).tb.readings = h.tb.readings := by
  unfold Hub.setQual
  extract_lets _ g
  have tracked : ∀ k : Hub, k.trackCand.tb.readings = k.tb.readings := fun _ => rfl
  rw [tracked]
  split
  · rw [Hub.sourceLost_readings]
    rfl
  · rfl

theorem Hub.servoTo_readings (h : Hub) (p : Nat) (s : Servo) : (h.servoTo p s).tb.readings = h.tb.readings := by
  unfold Hub.servoTo
  extract_lets x acq g _ k m
  have noted : m.noteCauses.tb = m.tb := m.noteCauses_onlyIn .tb (by decide)
  have follows : m.tb.readings = h.tb.readings := by
    unfold m
    split
    · rfl
    · rw [Hub.setQual_net_readings]
      rfl
  split
  · rw [noted, follows]
  · rfl

/-- Of the path itself a servo's state changes only the causes. -/
theorem Hub.servoTo_net (h : Hub) (p : Nat) (s : Servo) : (h.servoTo p s).net =
    { h.net with ports := (h.servoTo p s).net.ports, causes := (h.servoTo p s).net.causes, causeAt := (h.servoTo p s).net.causeAt
                 clearAt := (h.servoTo p s).net.clearAt } := by
  unfold Hub.servoTo
  extract_lets x acq g _ k m
  have follows : m.net = k.net := by
    unfold m
    split
    · rfl
    · exact (k.setQual_net_raises _).only .net (by decide)
  have kept : m.net = { h.net with ports := m.net.ports } := by
    rw [follows]
    rfl
  split
  · unfold Hub.noteCauses Hub.setCauses
    dsimp only
    rw [kept]
  · rfl

/-! ### Failover (R447, R451) -/

/-- The path as the failover's new port becomes the active one. -/
def Hub.pathMoved (h : Hub) (f : Failover) : Hub :=
  { h with net := { h.net with active := some f.dest, failover := some { f with active := true, traffic := some h.sampleT } } }

/-- The new port is ACTIVE, and its servo goes on in the state that it has. -/
def Hub.activated (h : Hub) (f : Failover) : Hub := ((h.pathMoved f).portTo f.dest .active).servoTo f.dest (h.port f.dest).ptp.servo

section
variable {h : Hub} {f : Failover}

theorem Hub.activated_serves (h : Hub) (f : Failover) : (h.pathMoved f).Serves f.dest
    { h.port f.dest with st := .active, ptp := (h.port f.dest).ptp.to (h.port f.dest).ptp.servo h.xoCycles } (h.activated f) := by
  have active := (h.pathMoved f).portTo_serves f.dest .active
  have xo : ((h.pathMoved f).portTo f.dest .active).xoCycles = h.xoCycles :=
    congrArg (fun t : TbSt => t.xo / 2 ^ 40) (((h.pathMoved f).portTo_raises f.dest .active).only .tb (by decide))
  exact (active.trans (Hub.servoTo_serves _ f.dest _)).of_eq (by rw [active.own, xo]; rfl)

theorem Hub.activated_readings (h : Hub) (f : Failover) : (h.activated f).tb.readings = h.tb.readings := by
  rw [Hub.activated, Hub.servoTo_readings, show ((h.pathMoved f).portTo f.dest .active).tb = _ from
    ((h.pathMoved f).portTo_raises f.dest .active).only .tb (by decide)]
  rfl

theorem Hub.activated_net (h : Hub) (f : Failover) : (h.activated f).net.active = some f.dest ∧
    (h.activated f).net.failover = some { f with active := true, traffic := some h.sampleT } := by
  rw [Hub.activated, Hub.servoTo_net, Hub.portTo_net]
  exact ⟨rfl, rfl⟩

theorem Hub.activated_cfg (h : Hub) (f : Failover) : (h.activated f).cfg = h.cfg := (h.activated_serves f).raises.only .cfg (by decide)

/-- What no launch blocks before the new port is ACTIVE, none blocks after. -/
theorem Hub.activated_guardBlocks (h : Hub) (f : Failover) (len : Nat) : (h.activated f).guardBlocks f.dest len = h.guardBlocks f.dest len := by
  have now := Hub.launchNow_of_readings (h.activated_readings f)
  simp only [Hub.guardBlocks, Hub.launchNext, Hub.launchLeft, now, Hub.portCfg, h.activated_cfg f, (h.activated_serves f).own]
  rfl

/-- What the new port says of its addresses as it becomes active. -/
def Hub.announced (h : Hub) (f : Failover) : Hub :=
  let g := (h.activated f).msgOut f.dest (.net 0 false ((h.portCfg f.dest).mac ++ leBytes 4 h.cfg.net.ipv4.toNat))
  if h.cfg.net.ipv6En then g.msgOut f.dest (.net 1 true ((h.portCfg f.dest).mac ++ bytesOf h.cfg.net.ipv6)) else g

theorem failoverActivate_of_link (hf : h.net.failover = some f) (ha : f.active = false) (hl : (h.port f.dest).link = true) :
    failoverActivate h = h.announced f := by
  have active := (h.pathMoved f).portTo_serves f.dest .active
  have servo : (((h.pathMoved f).portTo f.dest .active).port f.dest).ptp.servo = (h.port f.dest).ptp.servo := by
    rw [active.own]
    rfl
  have link : ((h.activated f).port f.dest).link = true := by
    rw [(h.activated_serves f).own]
    exact hl
  have cfg := h.activated_cfg f
  have portCfg : (h.activated f).portCfg f.dest = h.portCfg f.dest := by rw [Hub.portCfg, cfg, Hub.portCfg]
  have drained : ∀ m, ((h.activated f).msgOut f.dest m).portCfg f.dest = h.portCfg f.dest := fun m => by
    rw [Hub.portCfg, show ((h.activated f).msgOut f.dest m).cfg = _ from ((h.activated f).msgOut_drains f.dest m 0).only .cfg (by decide), cfg,
      Hub.portCfg]
  unfold failoverActivate
  split
  · next f' e =>
    obtain rfl : f = f' := Option.some.inj (hf.symm.trans e)
    rw [if_neg (by simp [ha])]
    extract_lets b _ g k t n a
    have moved : g = h.pathMoved f := by
      simp only [g, b, hl, if_true]
      rfl
    have came : t = h.activated f := by simp only [t, k, b, moved, servo, Hub.activated]
    clear_value t
    subst came
    simp only [a, n, b, link, if_true, portCfg, drained, cfg, Hub.announced]
  · next e => exact absurd (hf.symm.trans e) nofun

/-- Of the path itself a message of the host changes nothing. -/
theorem Hub.msgOut_net_net (h : Hub) (p kind : Nat) (v6 : Bool) (body : List Byte) :
    (h.msgOut p (.net kind v6 body)).net = { h.net with ports := (h.msgOut p (.net kind v6 body)).net.ports } := by
  unfold Hub.msgOut
  split <;> rfl

/-- What a hub announces leaves its path and its servo as they are. -/
structure Hub.Announces (p : Nat) (h g : Hub) : Prop where
  only : h.onlyIn [.net, .tx] g
  sent : h.tx <+: g.tx
  net : g.net = { h.net with ports := g.net.ports }
  st : (g.port p).st = (h.port p).st
  ptp : (g.port p).ptp = (h.port p).ptp

theorem Hub.Announces.trans {p : Nat} {h g t : Hub} (hg : h.Announces p g) (gt : g.Announces p t) : h.Announces p t :=
  ⟨Hub.onlyIn_trans hg.only gt.only, hg.sent.trans gt.sent, by rw [gt.net, hg.net], gt.st.trans hg.st, gt.ptp.trans hg.ptp⟩

theorem Hub.msgOut_announces (h : Hub) (p kind : Nat) (v6 : Bool) (body : List Byte) : h.Announces p (h.msgOut p (.net kind v6 body)) :=
  have out := h.msgOut_drains p (.net kind v6 body) 0
  ⟨out.only, out.sent, h.msgOut_net_net p kind v6 body, (congrArg Port.st out.own :), h.msgOut_ptp p 0 rfl⟩

theorem Hub.announced_announces (h : Hub) (f : Failover) : (h.activated f).Announces f.dest (h.announced f) := by
  unfold Hub.announced
  extract_lets g
  have first : (h.activated f).Announces f.dest g := Hub.msgOut_announces ..
  clear_value g
  split
  · exact first.trans (g.msgOut_announces ..)
  · exact first

theorem Hub.announced_sent (hg : h.guardBlocks f.dest 60 = false) : ∃ b, .net f.dest 0 b ∈ (h.announced f).tx := by
  have goes : ∀ body, (h.activated f).msgOut f.dest (.net 0 false body) = (h.activated f).send (.net f.dest 0 body) := fun body => by
    refine Hub.msgOut_net ?_
    rw [show (h.activated f).msgLen f.dest (.net 0 false body) = 60 by simp [Hub.msgLen], h.activated_guardBlocks f, hg]
  refine ⟨(h.portCfg f.dest).mac ++ leBytes 4 h.cfg.net.ipv4.toNat, ?_⟩
  unfold Hub.announced
  rw [goes]
  dsimp only
  split
  · exact (Hub.msgOut_drains _ f.dest _ 0).sent.subset (List.mem_append_right _ (List.mem_singleton_self _))
  · exact List.mem_append_right _ (List.mem_singleton_self _)

end

theorem failoverActivate_does {s : State} {f : Failover} (hp : s.hub.powered = true) (hf : s.hub.net.failover = some f) (ha : f.active = false)
    (hl : (s.hub.port f.dest).link = true) (hg : s.hub.guardBlocks f.dest 60 = false) :
    Does (.failoverActivate) s [.host, .evt, .tb, .jrn, .sto, .tiu, .net, .tx] fun t => t.net.active = some f.dest ∧
      t.net.failover = some { f with active := true, traffic := some s.hub.sampleT } ∧ (t.port f.dest).st = .active ∧
      (t.port f.dest).ptp.servo = (s.hub.port f.dest).ptp.servo ∧ ∃ b, .net f.dest 0 b ∈ t.tx := by
  have row := failoverActivate_of_link hf ha hl
  have served := s.hub.activated_serves f
  have told := s.hub.announced_announces f
  obtain ⟨active, failover⟩ := s.hub.activated_net f
  have moved : s.hub.onlyIn [.net] (s.hub.pathMoved f) := by simp [Hub.onlyIn_iff, Hub.pathMoved]
  refine does_row rfl hp ?_ ?_
  · rw [row]
    exact Hub.onlyIn_trans (Hub.onlyIn_mono moved (by decide)) (Hub.onlyIn_trans (Hub.onlyIn_mono served.raises.only (by decide))
      (Hub.onlyIn_mono told.only (by decide)))
  · rw [row]
    refine ⟨?_, ?_, ?_, ?_, Hub.announced_sent hg⟩
    · rw [told.net]
      exact active
    · rw [told.net]
      exact failover
    · rw [told.st, served.own]
    · rw [told.ptp, served.own]
      rfl

/-- Delivery to the network starts again. -/
theorem Hub.ferryStart_onlyIn (h : Hub) : h.onlyIn [.host, .evt, .jrn, .sto, .tx, .free] h.ferryStart := by
  unfold Hub.ferryStart
  split
  · have session : ∀ g : Hub, g.onlyIn [.jrn, .free] g.newSession := fun g => by simp [Hub.onlyIn_iff, Hub.newSession]
    exact Hub.onlyIn_trans (Hub.onlyIn_mono (h.restartConsumer_records 1).raises.only (by decide)) (Hub.onlyIn_mono (session _) (by decide))
  · exact h.onlyIn_refl _

/-- Step 5 of a failover that leaves no verdict to obey. -/
theorem failoverComplete_onlyIn {h : Hub} {f : Failover} (hf : h.net.failover = some f) (ha : f.active = true) (hv : h.net.verdict = none) :
    ({ h with net := { h.net with failover := none, resends := 0 } } : Hub).onlyIn [.host, .evt, .jrn, .sto, .tx, .free] (failoverComplete h) := by
  unfold failoverComplete
  split
  · next f' e =>
    obtain rfl : f = f' := Option.some.inj (hf.symm.trans e)
    rw [if_neg (by simp [ha])]
    extract_lets t _ g k m n
    have started : g.onlyIn [.host, .evt, .jrn, .sto, .tx, .free] k := g.ferryStart_onlyIn
    have landed : k.onlyIn [.host, .evt, .jrn, .sto, .tx, .free] m := Hub.onlyIn_mono (k.land_records ..).raises.only (by decide)
    have told : m.onlyIn [.host, .evt, .jrn, .sto, .tx, .free] n := by
      unfold n
      split
      · exact Hub.onlyIn_mono (m.complete_onlyIn _ _ _) (by decide)
      · exact m.onlyIn_refl _
    have ended := Hub.onlyIn_trans (Hub.onlyIn_trans started landed) told
    have verdict : n.net.verdict = none := by
      rw [show n.net = g.net from ended .net (by decide)]
      exact hv
    split
    · next e' => exact absurd (verdict.symm.trans e') nofun
    · exact ended
  · next e => exact absurd (hf.symm.trans e) nofun

theorem failoverComplete_does {s : State} {f : Failover} (hp : s.hub.powered = true) (hf : s.hub.net.failover = some f) (ha : f.active = true)
    (hv : s.hub.net.verdict = none) : Does (.failoverComplete) s [.host, .evt, .tb, .jrn, .sto, .tiu, .net, .tx, .free] fun t =>
      t.net = { s.hub.net with failover := none, resends := 0 } := by
  have ended := failoverComplete_onlyIn hf ha hv
  have written : ∀ n, s.hub.onlyIn [.net] { s.hub with net := n } := fun n => by simp [Hub.onlyIn_iff]
  exact does_row rfl hp (Hub.onlyIn_trans (Hub.onlyIn_mono (written _) (by decide)) (Hub.onlyIn_mono ended (by decide))) (ended .net (by decide))

/-! ### Snapshots and path health (R448, R456) -/

theorem snapshotTimer_takes {s : State} {p : Nat} (hp : s.hub.powered = true) (ha : s.hub.net.active = some p)
    (hl : (s.hub.port p).ptp.servo = .locked) (hs : s.hub.net.suspect = false)
    (hz : ∀ z, s.hub.net.snap = some z → z.at_ + 49152000 ≤ s.hub.xoCycles) :
    Does (.snapshotTimer) s [.net] fun t => t.net = { s.hub.net with snap := t.net.snap, snapSeq := s.hub.net.snapSeq + 1 } ∧
      ∃ z, t.net.snap = some z ∧ z.seq = s.hub.net.snapSeq + 1 ∧ z.port = p ∧ z.inc = s.hub.tb.netInc ∧ z.net = s.hub.netT ∧
      z.loc = s.hub.localT := by
  have due : (s.hub.net.snap.all fun z => decide (s.hub.xoCycles < z.at_) || s.hub.passed (some z.at_) 49152000) = true := by
    cases hn : s.hub.net.snap with
    | none => rfl
    | some z => simp [Hub.passed, hz z hn]
  have row : ∃ z : Snapshot, snapshotTimer s.hub = { s.hub with net := { s.hub.net with snap := some z, snapSeq := s.hub.net.snapSeq + 1 } } ∧
      z.seq = s.hub.net.snapSeq + 1 ∧ z.port = p ∧ z.inc = s.hub.tb.netInc ∧ z.net = s.hub.netT ∧ z.loc = s.hub.localT := by
    unfold snapshotTimer
    split
    · next e => exact absurd (e.symm.trans ha) nofun
    · next q e =>
      obtain rfl : p = q := Option.some.inj (ha.symm.trans e)
      rw [if_pos ⟨hl, by simp [hs], due⟩]
      exact ⟨_, rfl, rfl, rfl, rfl, rfl, rfl⟩
  obtain ⟨z, row, fields⟩ := row
  refine does_row rfl hp (row ▸ by simp [Hub.onlyIn_iff]) ?_
  rw [row]
  exact ⟨rfl, z, rfl, fields⟩

theorem snapshotTimer_idle {h : Hub} (hi : h.net.active = none ∨ h.net.suspect = true) : snapshotTimer h = h := by
  unfold snapshotTimer
  split
  · rfl
  · next p e => exact if_neg fun ⟨_, quiet, _⟩ => by simp_all

theorem pathHealthTimer_lands {s : State} {p : Fin 2} {fcs : Nat} (hp : s.hub.powered = true) (hs : (s.hub.port p).st ≠ .off)
    (hd : ∀ a, (s.hub.port p).healthAt = some a → a + s.hub.cfg.net.healthInt * 49152000 ≤ s.hub.xoCycles) :
    Does (.pathHealthTimer p fcs) s [.host, .evt, .jrn, .sto, .net, .tx] fun t => t.port p =
      { s.hub.port p with fcsErr := (s.hub.port p).fcsErr + fcs, healthAt := some s.hub.xoCycles } ∧ (∀ k : Nat, k ≠ p.val →
      t.port k = s.hub.port k) := by
  have row : pathHealthTimer p fcs s.hub = (s.hub.setPort p
      { s.hub.port p with fcsErr := (s.hub.port p).fcsErr + fcs, healthAt := some s.hub.xoCycles }).portHealth p :=
    if_neg (by simp [hs, Hub.passed_of_forall hd])
  have served := (s.hub.setPort_serves p { s.hub.port p with fcsErr := (s.hub.port p).fcsErr + fcs, healthAt := some s.hub.xoCycles }).keeps
    (Hub.portHealth_serves _ p)
  have written := s.hub.setPort_onlyIn p { s.hub.port p with fcsErr := (s.hub.port p).fcsErr + fcs, healthAt := some s.hub.xoCycles }
  refine does_row rfl hp ?_ ?_
  · rw [row]
    exact Hub.onlyIn_trans (Hub.onlyIn_mono written (by decide)) (Hub.onlyIn_mono (Hub.portHealth_records _ p).raises.only (by decide))
  · rw [row]
    exact ⟨served.own, served.others⟩

/-- Settles O51: link changes, addresses, suspicion, failover steps, self-tests, snapshots and path health, each by its lemma above. -/
theorem pathRows : Obligations.PathRows := by
  unfold Obligations.PathRows
  refine ⟨fun s p up hp hu hm hl hs ha => ?_, fun s p up hp hu hl hs ha hk => netLinkChange_faults hp hu hl hs ha hk,
    fun s p up hp hl => does_nothing rfl hp (netLinkChange_same hl), fun s p v6 addr data hp ho ha hl hm hg => ?_,
    fun s p v6 addr data hp ho hd => ?_, fun s p router hp ho ha he => ?_,
    fun s fcs p i hp ha hs hi hc ht => suspectDebounce_suspects hp ha hs hi hc ht, fun s fcs hp hw => suspectDebounce_waits hp hw,
    fun s fcs p hp ha hs hc ht => suspectClear_clears hp ha hs hc ht, fun s f hp hf ha hl hg => failoverActivate_does hp hf ha hl hg,
    fun s hp hf => does_nothing rfl hp (by simp [failoverActivate, hf]), fun s f hp hf ha hv => failoverComplete_does hp hf ha hv,
    fun s hp hf => does_nothing rfl hp (by simp [failoverComplete, hf]),
    fun s p hp he hl hs ha hd => does_setPort rfl hp (selftestTimer_starts he hl hs ha hd), fun s p errors hp hr ha => ?_,
    fun s p errors hp hr => does_nothing rfl hp (by simp [prbsTestDone, hr]),
    fun s p seq n hp ha hn hq ht => does_setPort_noteCauses rfl hp (echoReplyReceive_inTime ha hn hq ht),
    fun s p seq hp hn => does_nothing rfl hp (by simp [echoReplyReceive, hn]),
    fun s p n hp ha hn ht => does_setPort_noteCauses rfl hp (echoTimeout_passed ha hn ht),
    fun s p hp hn hr => does_nothing rfl hp (by simp [echoTimeout, hn, hr]), fun s p hp hr hg hl hs => ?_,
    fun s p hp ha hl hs hz => snapshotTimer_takes hp ha hl hs hz, fun s hp hi => does_nothing rfl hp (snapshotTimer_idle hi),
    fun s p fcs hp hs hd => pathHealthTimer_lands hp hs hd, fun s p fcs hp hs => does_nothing rfl hp (by simp [pathHealthTimer, hs])⟩
  · subst hu
    exact does_setPort rfl hp (netLinkChange_up_standby hm hl hs ha)
  · have row := (netAddrRequest_answered (data := data) ha hl hm).trans (Hub.msgOut_net hg)
    have runs : exec (.netAddrRequest p v6 addr data) s = s.row (netAddrRequest p v6 addr data) := checked_of_ok ho
    exact does_row runs hp (by rw [row]; simp [Hub.onlyIn_iff]) (by rw [row]; rfl)
  · exact does_nothing (checked_of_ok ho) hp (netAddrRequest_ignored (data := data) hd)
  · have row := routerAdvertisementReceive_active (router := router) ha he
    have runs : exec (.routerAdvertisementReceive p router) s = s.row (routerAdvertisementReceive p router) := checked_of_ok ho
    exact does_row runs hp (by rw [row]; simp [Hub.onlyIn_iff]) (by rw [row])
  · have row := prbsTestDone_running (errors := errors) hr ha
    obtain ⟨only, own, others⟩ := (s.hub.setPort p { s.hub.port p with prbs := false, prbsErr := errors, prbsOk := errors == 0 }).echoSend_echoes p
    rw [Hub.setPort_port, if_pos rfl] at own
    refine does_row rfl hp ?_ ?_
    · rw [row]
      exact Hub.onlyIn_trans (Hub.onlyIn_mono (s.hub.setPort_onlyIn p _) (by decide)) only
    · rw [row]
      exact ⟨(congrArg Port.prbs own :), (congrArg Port.prbsErr own :), (congrArg Port.prbsOk own :), (congrArg Port.st own :),
        fun k hk => by simpa [hk] using others k hk⟩
  · obtain ⟨b, row⟩ := addressResolutionReply_echoes hr hl hs hg
    refine does_row rfl hp ?_ ?_
    · rw [row]
      have out : ∀ g : Hub, g.onlyIn [.net, .tx] (g.send (.net p 3 b)) := fun g => by simp [Hub.onlyIn_iff]
      exact Hub.onlyIn_trans (Hub.onlyIn_mono (s.hub.setPort_onlyIn p _) (by decide)) (out _)
    · rw [row]
      have written : ∀ (g : Hub) (x : Tx) (k : Nat), (g.send x).port k = g.port k := fun _ _ _ => rfl
      simp only [written, Hub.setPort_port, if_true]
      exact ⟨trivial, trivial, trivial, ⟨b, rfl⟩, fun k hk => if_neg hk⟩

end Sys2Proof.Machine

/-! PROOFS. Mailbox writes of the host (O35). -/
namespace Sys2Proof.Machine

/-! ### RING and RELEASE (R480, R481) -/

theorem Hub.doorbell_onlyIn (h : Hub) (m : Nat) : h.onlyIn [.host] (h.doorbell m) := by
  unfold Hub.doorbell
  split <;> simp [Hub.onlyIn_iff, Hub.ring, Hub.updMb]

theorem Hub.doorbell_host (h : Hub) (m : Nat) : (∀ k, k ≠ m → (h.doorbell m).host.mbs.get k = h.host.mbs.get k) ∧
    (h.doorbell m).host.mbs.get m = (if (h.host.mbs.get m).state = .idle then { h.host.mbs.get m with state := .posted } else
      { h.host.mbs.get m with status := setBit (h.host.mbs.get m).status 1 }) ∧
    (h.doorbell m).host = { h.host with
      mbs := (h.doorbell m).host.mbs, posted := if (h.host.mbs.get m).state = .idle then h.host.posted ++ [m] else h.host.posted } := by
  unfold Hub.doorbell
  split <;> simp +contextual [Hub.ring, Hub.updMb]

/-- No reset waits for the RELEASE of this mailbox. -/
theorem Hub.releaseMb_plain {h : Hub} {m : Nat} (hm : h.sys.pendingMb ≠ m) :
    h.releaseMb m = if (h.host.mbs.get m).state = .ready then h.updMb m fun x => { x with state := .idle } else h := by
  have waits : ∀ g : Hub, g.sys.pendingMb ≠ m → g.pendingNow m = g := fun g hg => by simp [Hub.pendingNow, hg]
  unfold Hub.releaseMb
  split
  · exact waits _ hm
  · rfl

/-! ### MB_COMMAND_TAKE (R480, R482) -/

/-- The words that a command area holds of its payload. -/
def Mailbox.payload (x : Mailbox) : List Word := x.cmd.gets 4 (min 124 (fld (x.cmd.get 0) 31 24))

theorem Mailbox.payload_length (x : Mailbox) : x.payload.length ≤ 124 := by simp [Mailbox.payload, Tab.gets]

/-- The checks of R483 on what the command area of mailbox `m` holds, once it is taken. -/
def Hub.checkPosted (h : Hub) (m : Nat) : Option (Nat × List Word) :=
  let x := (h.host.mbs.get m).cmd
  (h.taken m).checkCmd (cmdOf (fld (x.get 0) 15 0)) m (x.get 0) (x.get 1) (x.get 2) (x.get 3) (h.host.mbs.get m).payload

section
variable {h : Hub} {m : Nat}

theorem mbCommandTake_posted (ht : h.canTake = true) (hn : h.nextPosted = some m) : mbCommandTake h =
    (h.perform (cmdOf (fld ((h.host.mbs.get m).cmd.get 0) 15 0)) m ((h.host.mbs.get m).cmd.get 0) ((h.host.mbs.get m).cmd.get 1)
      ((h.host.mbs.get m).cmd.get 2) ((h.host.mbs.get m).cmd.get 3) (h.host.mbs.get m).payload).openUsed := by
  unfold mbCommandTake
  rw [hn]
  exact if_pos ht

theorem mbCommandTake_idle (hi : h.canTake = false ∨ h.host.posted = []) : mbCommandTake h = h := by
  unfold mbCommandTake
  rcases hi with stands | none
  · split
    · exact if_neg (by simp [stands])
    · rfl
  · simp [Hub.nextPosted, none]

/-- The firmware has taken the command of mailbox `m` and may have changed its slots: nothing of the other mailboxes. -/
theorem Hub.taken_mbs (h : Hub) (m k : Nat) : (h.taken m).host.mbs.get k = if k = m then
    { h.host.mbs.get m with state := .busy, taken := ((h.host.mbs.get m).taken + 1) % 256 } else h.host.mbs.get k := by
  by_cases hk : k = m <;> simp [Hub.taken, Hub.updMb, hk]

theorem Hub.taken_onlyIn (h : Hub) (m : Nat) : h.onlyIn [.host] (h.taken m) := by simp [Hub.onlyIn_iff, Hub.taken, Hub.updMb]

theorem Hub.not_mem_taken_posted (h : Hub) (m : Nat) : m ∉ (h.taken m).host.posted := by simp [Hub.taken]

/-- What the answer to a command that was taken leaves of the host interface. -/
theorem Hub.respond_taken (h g : Hub) (hg : g.host = (h.taken m).host) (st : Nat) (tag : Word) (ws : List Word) (crc : Bool) :
    ((g.respond m st 0 tag ws crc).host.mbs.get m).taken = ((h.host.mbs.get m).taken + 1) % 256 ∧
    m ∉ (g.respond m st 0 tag ws crc).host.posted ∧ (∀ k, k ≠ m → (g.respond m st 0 tag ws crc).host.mbs.get k = h.host.mbs.get k) ∧
    (g.respond m st 0 tag ws crc).host.slots = h.host.slots := by
  obtain ⟨w3, p, host⟩ := g.respond_host m st 0 tag ws crc
  rw [host, hg]
  refine ⟨?_, h.not_mem_taken_posted m, fun k hk => ?_, rfl⟩
  · rw [Tab.get_upd, if_pos rfl, h.taken_mbs m m, if_pos rfl]
  · rw [Tab.get_upd, if_neg hk, h.taken_mbs m k, if_neg hk]

/-- SYS_NOP is answered with its payload (R495). -/
theorem Hub.perform_sysNop {w0 w1 w2 w3 : Word} {pl : List Word} (hc : (h.taken m).checkCmd (some sysNop) m w0 w1 w2 w3 pl = none) :
    h.perform (some sysNop) m w0 w1 w2 w3 pl = ((h.taken m).noteTag m DONE w1).respond m DONE 0 w1 pl (bit w0 16) := by
  unfold Hub.taken at hc
  dsimp only at hc
  simp only [Hub.perform, hc]
  rfl

end

section
variable {s : State} {m : Nat}

theorem mbCommandTake_sysNop (hp : s.hub.powered = true) (ht : s.hub.canTake = true) (hn : s.hub.nextPosted = some m)
    (hc : s.hub.checkPosted m = none) (ho : fld ((s.hub.host.mbs.get m).cmd.get 0) 15 0 = 0x0101) :
    Does (.mbCommandTake) s [.host, .sys, .clk, .tx] fun t =>
      t.response m DONE 0 ((s.hub.host.mbs.get m).cmd.get 1) (s.hub.host.mbs.get m).payload ∧
      t.sys = { s.hub.sys with lastTag := s.hub.sys.lastTag.put m ((s.hub.host.mbs.get m).cmd.get 1) } ∧
      (t.host.mbs.get m).taken = ((s.hub.host.mbs.get m).taken + 1) % 256 ∧ m ∉ t.host.posted ∧
      (∀ k : Nat, k ≠ m → t.host.mbs.get k = s.hub.host.mbs.get k) ∧ t.host.slots = s.hub.host.slots := by
  have index : cmdOf (fld ((s.hub.host.mbs.get m).cmd.get 0) 15 0) = some sysNop := by
    rw [ho]
    rfl
  have row := mbCommandTake_posted ht hn
  unfold Hub.checkPosted at hc
  dsimp only at hc
  rw [index] at hc
  rw [index, Hub.perform_sysNop hc] at row
  generalize bit ((s.hub.host.mbs.get m).cmd.get 0) 16 = crc at row
  have noted : ((s.hub.taken m).noteTag m DONE ((s.hub.host.mbs.get m).cmd.get 1)).host = (s.hub.taken m).host := Hub.noteTag_host ..
  refine does_row rfl hp ?_ ?_
  · rw [row]
    exact Hub.onlyIn_trans (Hub.onlyIn_mono (s.hub.taken_onlyIn m) (by decide)) (Hub.answered_onlyIn _ m DONE 0 _ _ crc)
  · rw [row]
    exact ⟨Hub.respond_response _ m DONE 0 _ _ crc, Hub.respond_sys .., Hub.respond_taken s.hub _ noted DONE _ _ crc⟩

theorem mbCommandTake_refused {st : Nat} {ws : List Word} (hp : s.hub.powered = true) (ht : s.hub.canTake = true)
    (hn : s.hub.nextPosted = some m) (hc : s.hub.checkPosted m = some (st, ws)) :
    Does (.mbCommandTake) s [.host, .clk, .tx] fun t => t.response m st 0 ((s.hub.host.mbs.get m).cmd.get 1) ws ∧
      (t.host.mbs.get m).taken = ((s.hub.host.mbs.get m).taken + 1) % 256 ∧ m ∉ t.host.posted ∧
      (∀ k : Nat, k ≠ m → t.host.mbs.get k = s.hub.host.mbs.get k) ∧ t.host.slots = s.hub.host.slots := by
  have row := mbCommandTake_posted ht hn
  rw [Hub.perform_refuses hc] at row
  generalize bit ((s.hub.host.mbs.get m).cmd.get 0) 16 = crc at row
  have responds : ∀ g : Hub, g.onlyIn [.host, .clk, .tx] (g.respond m st 0 ((s.hub.host.mbs.get m).cmd.get 1) ws crc).openUsed := fun g => by
    simp [Hub.onlyIn_iff, Hub.openUsed]
  refine does_row rfl hp ?_ ?_
  · rw [row]
    exact Hub.onlyIn_trans (Hub.onlyIn_mono (s.hub.taken_onlyIn m) (by decide)) (responds _)
  · rw [row]
    exact ⟨Hub.respond_response _ m st 0 _ ws crc, Hub.respond_taken s.hub _ rfl st _ ws crc⟩

end

/-- Settles O35: a write, a RING and a RELEASE by the state of their mailbox, and the command that is taken by the checks of R483. -/
theorem hostMailboxRows : Obligations.HostMailboxRows := by
  unfold Obligations.HostMailboxRows
  refine ⟨fun s mb i w hp => does_row rfl hp (s.hub.cmdWrite_onlyIn _ _ _) (s.hub.cmdWrite_onlyMb _ _ _),
    fun s mb hp => does_row rfl hp (s.hub.doorbell_onlyIn mb) (s.hub.doorbell_host mb), fun s mb hp hm => ?_,
    fun s m hp ht hn _ hc ho => mbCommandTake_sysNop hp ht hn hc ho, fun s m st ws hp ht hn _ hc => ?_,
    fun s hp hi => does_nothing rfl hp (mbCommandTake_idle hi)⟩
  · have row : mbRelease mb s.hub = _ := Hub.releaseMb_plain hm
    refine does_row rfl hp ?_ ?_ <;> rw [row] <;> split
    · simp [Hub.onlyIn_iff, Hub.updMb]
    · exact s.hub.onlyIn_refl _
    · exact ⟨by simp [Hub.updMb], by simp +contextual [Hub.updMb], rfl⟩
    · exact ⟨rfl, fun _ _ => rfl, rfl⟩
  · obtain ⟨t, run, queue, frame, response, rest⟩ := mbCommandTake_refused hp ht hn hc
    exact ⟨t, run, queue, frame, fun _ => response, rest⟩

end Sys2Proof.Machine

/-! PROOFS. What a control reset does (R467, R491, R538). -/
namespace Sys2Proof.Machine

/-! ### Completions leave the mailboxes -/

/-- From `h` to `g` the mailboxes and the order in which they were rung stay. -/
structure Hub.KeepsBoxes (h g : Hub) : Prop where
  mbs : g.host.mbs = h.host.mbs
  posted : g.host.posted = h.host.posted

theorem Hub.KeepsBoxes.refl (h : Hub) : h.KeepsBoxes h := ⟨rfl, rfl⟩

theorem Hub.KeepsBoxes.trans {h g t : Hub} (hg : h.KeepsBoxes g) (gt : g.KeepsBoxes t) : h.KeepsBoxes t :=
  ⟨gt.mbs.trans hg.mbs, gt.posted.trans hg.posted⟩

theorem Hub.KeepsBoxes.foldl {α : Type} {f : Hub → α → Hub} (hf : ∀ (g : Hub) a, g.KeepsBoxes (f g a)) (l : List α) (h : Hub) :
    h.KeepsBoxes (l.foldl f h) := by
  induction l generalizing h with
  | nil => exact .refl h
  | cons a l ih => exact (hf h a).trans (ih _)

theorem Hub.keepsBoxes_of_pba {h g : Hub} (hg : ∃ p, g.host = { h.host with pba := p }) : h.KeepsBoxes g := by
  obtain ⟨p, host⟩ := hg
  constructor <;> rw [host]

/-- An entry of the completion queue changes the queue, the slots and pending bits. -/
theorem Hub.cqWrite_host (h : Hub) (d : Deferred) : ∃ cq wr st slots p,
    (h.cqWrite d).host = { h.host with cq := cq, cqWr := wr, cqStatus := st, slots := slots, pba := p } := by
  unfold Hub.cqWrite
  split
  · exact ⟨_, _, _, _, _, rfl⟩
  · split
    · exact ⟨_, _, _, _, _, rfl⟩
    · unfold Hub.edge
      dsimp only
      split
      · obtain ⟨p, host⟩ := Hub.msix_host { h with host := _ } _
        exact ⟨_, _, _, _, p, host⟩
      · exact ⟨_, _, _, _, _, rfl⟩

theorem Hub.complete_keepsBoxes (h : Hub) (hd status : Nat) (ws : List Word) : h.KeepsBoxes (h.complete hd status ws) := by
  unfold Hub.complete
  dsimp only
  split
  · obtain ⟨_, _, _, _, _, host⟩ := h.cqWrite_host _
    constructor <;> rw [host]
  · exact ⟨rfl, rfl⟩

/-! ### The host link's part (R467) -/

theorem Hub.hostLinkReset_onlyIn (h : Hub) : h.onlyIn [.host, .evt, .jrn, .tx] h.hostLinkReset :=
  Hub.onlyIn_trans h.hostConsumersOff_onlyIn (by simp [Hub.onlyIn_iff, Hub.hostLinkReset])

theorem Hub.hostLinkReset_host (h : Hub) : h.hostLinkReset.host = { h.host with msix := [], pba := 0 } := by
  obtain ⟨p, host⟩ := h.hostConsumersOff_host
  simp only [Hub.hostLinkReset, host]

theorem Hub.hostLinkReset_keepsBoxes (h : Hub) : h.KeepsBoxes h.hostLinkReset := by
  constructor <;> rw [h.hostLinkReset_host]

/-- A consumer that moves on raises CONSUMER_LAG alone (R324). -/
theorem Hub.skipOn_count (h : Hub) (c : Nat) {ev : Nat} (he : ev ≠ 74) : (h.skipOn c).evt.count.get ev = h.evt.count.get ev := by
  unfold Hub.skipOn
  dsimp only
  split
  · rw [Hub.raise_count_other _ _ _ he]
  · rfl

theorem Hub.consumerOff_count (h : Hub) (c : Nat) {ev : Nat} (he : ev ≠ 74) :
    (h.consumerOff c).evt.count.get ev = h.evt.count.get ev := by
  rw [Hub.consumerOff, Hub.restartConsumer, Hub.skipOn_count _ _ he]
  rfl

theorem Hub.hostLinkReset_count (h : Hub) {ev : Nat} (he : ev ≠ 74) : h.hostLinkReset.evt.count.get ev = h.evt.count.get ev := by
  simp only [Hub.hostLinkReset, Hub.hostConsumersOff_eq, Hub.consumerOff_count _ _ he]

/-! ### The reset itself (R491, R538) -/

/-- The chapters that a control reset may change. -/
def controlParts : List Chapter := [.sys, .host, .evt, .clk, .jrn, .sto, .tx]

/-- SYS after a control reset: `block` and `pend` are what goes on of a block reset and of a reset that waits. -/
def SysSt.reset (x : SysSt) (cause : Nat) (block : Option BlockReset) (pend : Option PendReset) : SysSt :=
  { x with resetCause := setBit x.resetCause cause, ctrlResets := sat32 (x.ctrlResets + 1), blockReset := block
           fwReady := false, pendingReset := pend }

/-- `t` is `h` after a control reset with its bit of RESET_CAUSE. -/
structure Hub.ResetBy (h : Hub) (cause : Nat) (t : Hub) : Prop where
  only : h.onlyIn controlParts t
  sys : ∃ block pend, t.sys = h.sys.reset cause block pend
  sto : t.sto = { h.sto with otpJobs := h.sto.otpJobs.map OtpJob.unasked }
  mbs : ∀ m, m < 8 → (t.host.mbs.get m).state = .offline
  posted : t.host.posted = []
  clk : ∃ gate, t.clk = { h.clk with gateCmd := gate }
  other : ∀ ev, ev ≠ 74 → ev ≠ 10 → t.evt.count.get ev = h.evt.count.get ev
  counted : h.clk.held = false → t.evt.count.get 10 = h.evt.count.get 10 + 1

/-- The control reset up to the handles: the registers, the mailboxes and the host link. -/
def Hub.controlDown (h : Hub) (sys : SysSt) (slots : Tab HSlot) (gate : Option GateCmd) : Hub :=
  (({ h with sys := sys, host := { h.host with slots := slots }, clk := { h.clk with gateCmd := gate } } : Hub).mailboxesTo
    fun _ => .offline).hostLinkReset

/-- The handles of a control reset: what does not run on ends with ABORTED. -/
def Hub.abortHeld (h : Hub) (held : List Nat) : Hub :=
  held.foldl (fun (h : Hub) s => if runsOn (h.host.slots.get s).opcode then h else h.complete (h.handleOf s) ABORTED []) h

theorem Hub.abortHeld_onlyIn (h : Hub) (held : List Nat) : h.onlyIn [.host, .tx] (h.abortHeld held) := by
  refine Hub.onlyIn_foldl (fun g s => ?_) held h
  split
  · exact g.onlyIn_refl _
  · exact g.complete_onlyIn _ _ _

theorem Hub.abortHeld_keepsBoxes (h : Hub) (held : List Nat) : h.KeepsBoxes (h.abortHeld held) := by
  refine .foldl (fun g s => ?_) held h
  split
  · exact .refl g
  · exact g.complete_keepsBoxes _ _ _

section
variable (h : Hub) (sys : SysSt) (slots : Tab HSlot) (gate : Option GateCmd)

theorem Hub.controlDown_onlyIn : h.onlyIn controlParts (h.controlDown sys slots gate) := by
  have registers : h.onlyIn controlParts { h with sys := sys, host := { h.host with slots := slots }, clk := { h.clk with gateCmd := gate } } := by
    simp [Hub.onlyIn_iff, controlParts]
  exact Hub.onlyIn_trans (Hub.onlyIn_trans registers (Hub.onlyIn_mono (Hub.mailboxesTo_onlyIn _ _) (by decide)))
    (Hub.onlyIn_mono (Hub.hostLinkReset_onlyIn _) (by decide))

theorem Hub.controlDown_sys : (h.controlDown sys slots gate).sys = sys := Hub.hostLinkReset_onlyIn _ .sys (by decide)

theorem Hub.controlDown_sto : (h.controlDown sys slots gate).sto = { h.sto with otpJobs := h.sto.otpJobs.map OtpJob.unasked } :=
  Hub.hostLinkReset_onlyIn _ .sto (by decide)

theorem Hub.controlDown_clk : (h.controlDown sys slots gate).clk = { h.clk with gateCmd := gate } :=
  Hub.hostLinkReset_onlyIn _ .clk (by decide)

theorem Hub.controlDown_mbs {m : Nat} (hm : m < 8) : ((h.controlDown sys slots gate).host.mbs.get m).state = .offline := by
  rw [Hub.controlDown, (Hub.hostLinkReset_keepsBoxes _).mbs, Hub.mailboxesTo_state _ _ _ hm]

theorem Hub.controlDown_posted : (h.controlDown sys slots gate).host.posted = [] := (Hub.hostLinkReset_keepsBoxes _).posted

theorem Hub.controlDown_count {ev : Nat} (he : ev ≠ 74) : (h.controlDown sys slots gate).evt.count.get ev = h.evt.count.get ev :=
  Hub.hostLinkReset_count _ he

end

/-- A control reset is its registers, its handles and FW_RESET. -/
theorem Hub.controlReset_eq (h : Hub) (cause : Nat) : ∃ (block : Option BlockReset) (pend : Option PendReset) (slots : Tab HSlot)
    (gate : Option GateCmd) (held : List Nat), h.controlReset cause =
      ((h.controlDown (h.sys.reset cause block pend) slots gate).abortHeld held).raise 10 [] := ⟨_, _, _, _, _, rfl⟩

theorem Hub.controlReset_resetBy (h : Hub) (cause : Nat) : h.ResetBy cause (h.controlReset cause) := by
  obtain ⟨block, pend, slots, gate, held, reset⟩ := h.controlReset_eq cause
  rw [reset]
  generalize e : h.sys.reset cause block pend = sys
  have down : h.onlyIn controlParts (h.controlDown sys slots gate) := h.controlDown_onlyIn sys slots gate
  have ended := (h.controlDown sys slots gate).abortHeld_onlyIn held
  have after := Hub.onlyIn_trans (Hub.onlyIn_mono ended (by decide)) (((h.controlDown sys slots gate).abortHeld held).raise_onlyIn 10 [])
  have boxes := ((h.controlDown sys slots gate).abortHeld_keepsBoxes held).trans (Hub.keepsBoxes_of_pba (Hub.raise_host _ 10 []))
  have count : ((h.controlDown sys slots gate).abortHeld held).evt = (h.controlDown sys slots gate).evt := ended .evt (by decide)
  have clk : ((h.controlDown sys slots gate).abortHeld held).clk = (h.controlDown sys slots gate).clk := ended .clk (by decide)
  exact {
    only := Hub.onlyIn_trans down (Hub.onlyIn_mono after (by decide))
    sys := ⟨block, pend, ((after .sys (by decide)).trans (h.controlDown_sys sys slots gate)).trans e.symm⟩
    sto := (after .sto (by decide)).trans (h.controlDown_sto ..)
    mbs := fun m hm => by rw [boxes.mbs, h.controlDown_mbs _ _ _ hm]
    posted := boxes.posted.trans (h.controlDown_posted ..)
    clk := ⟨gate, (after .clk (by decide)).trans (h.controlDown_clk ..)⟩
    other := fun ev he ho => by rw [Hub.raise_count_other _ _ _ ho, count, h.controlDown_count _ _ _ he]
    counted := fun hh => by
      rw [Hub.raise_count_self _ _ _ (by rw [clk, h.controlDown_clk]; exact hh), count, h.controlDown_count _ _ _ (by decide)] }

end Sys2Proof.Machine

/-! PROOFS. The host's queue reads, reset requests and time registers (O36). -/
namespace Sys2Proof.Machine

/-! ### CQ_RD (R489) -/

/-- A slot that is free again. -/
def HSlot.freed (x : HSlot) : HSlot := { (default : HSlot) with gen := x.gen }

/-- Slots that a list names are freed, some of them perhaps twice. -/
theorem Tab.get_foldl_freed (l : List Nat) (t : Tab HSlot) (k : Nat) :
    (l.foldl (fun (t : Tab HSlot) s => t.upd s HSlot.freed) t).get k = if k ∈ l then (t.get k).freed else t.get k := by
  induction l generalizing t with
  | nil => rfl
  | cons a l ih =>
    have twice : (t.get k).freed.freed = (t.get k).freed := rfl
    rw [List.foldl_cons, ih, Tab.get_upd]
    by_cases hk : k = a
    · subst hk
      simp [twice]
    · simp [hk]

/-- The handle slots that the queue entries from CQ_RD up to `w` name. -/
def Hub.passedSlots (h : Hub) (w : Word) : List Nat :=
  (List.range (diff32 w.toNat h.host.cqRd).toNat).map fun j => fld (h.host.cq.get (8 * ((h.host.cqRd + j) % 256))) 11 0

theorem Hub.cqRdWrite_within {h : Hub} {w : Word} (hw : 0 ≤ diff32 w.toNat h.host.cqRd ∧ diff32 w.toNat h.host.cqWr ≤ 0) :
    h.cqRdWrite w = { h with host := { h.host with
      cqRd := w.toNat, slots := (h.passedSlots w).foldl (fun (t : Tab HSlot) s => t.upd s HSlot.freed) h.host.slots } } := if_pos hw

theorem Hub.cqRdWrite_outside {h : Hub} {w : Word} (hw : ¬ (0 ≤ diff32 w.toNat h.host.cqRd ∧ diff32 w.toNat h.host.cqWr ≤ 0)) :
    h.cqRdWrite w = { h with host := { h.host with cqStatus := setBit h.host.cqStatus 1 } } := if_neg hw

theorem Hub.cqRdWrite_onlyIn (h : Hub) (w : Word) : h.onlyIn [.host] (h.cqRdWrite w) := by
  unfold Hub.cqRdWrite
  dsimp only
  split <;> simp [Hub.onlyIn_iff]

/-! ### RESET_CTRL (R475, R539) -/

theorem resetCtrlControl_eq (h : Hub) : resetCtrlControl h = h.controlReset 4 := Hub.hostWrite_sys h 0x18 _ (by decide)

theorem resetCtrlDatapath_eq (h : Hub) : resetCtrlDatapath h =
    { h with sys := { h.sys with acq := if h.sys.acq = .running then .warmReset else h.sys.acq } } := by
  have write : resetCtrlDatapath h = if h.sys.acq = .running then { h with sys := { h.sys with acq := .warmReset } } else h := by
    rw [resetCtrlDatapath, Hub.hostWrite_sys h 0x18 _ (by decide)]
    simp [Hub.writeSys, Hub.resetCtrl, fld]
  rw [write]
  split <;> rfl

/-! ### TIME (R242) -/

theorem Hub.regWrite_time (h : Hub) (o : Nat) (w : Word) (ho : o < 0x10000) : h.regWrite (0x30000 + o) w = h.writeTime o w := by
  unfold Hub.regWrite
  dsimp only
  rw [if_neg (by omega), if_neg (by omega), if_neg (by omega), if_pos (by omega), show (0x30000 + o) % 65536 = o by omega]

theorem snapWrite_eq {h : Hub} (hh : h.clk.held = false) : snapWrite h = snapCtrlSnap h := by
  rw [snapWrite, Hub.hostWrite_running _ _ _ hh, Hub.regWrite_time h 0 _ (by decide)]
  rfl

theorem cmpCtrlHost_eq {h : Hub} (n : Fin 8) (w : Word) (hh : h.clk.held = false) : cmpCtrlHost n w h = cmpCtrlWrite n w h := by
  have hn := n.isLt
  rw [cmpCtrlHost, Hub.hostWrite_running _ _ _ hh, show 0x30100 + 32 * n.val = 0x30000 + (0x100 + 32 * n.val) by omega,
    Hub.regWrite_time _ _ _ (by omega)]
  unfold Hub.writeTime
  dsimp only
  rw [if_neg (by omega), if_pos (by omega), if_pos (by omega), show (0x100 + 32 * n.val - 0x100) / 32 = n.val by omega]

theorem flag_add (b : Bool) (n m : Nat) : flag b (n + m) = 2 ^ n * flag b m := by cases b <;> simp [flag, pow_add]

theorem testBit_flags (q r : Bool) : (flag q 0 + flag r 1).testBit 0 = q ∧ (flag q 0 + flag r 1).testBit 1 = r := by
  cases q <;> cases r <;> exact ⟨rfl, rfl⟩

/-- The lower and the upper half of a word. -/
theorem wd_halves (e x : Nat) (he : e < 65536) :
    fld (wd (e + 65536 * x)) 15 0 = e ∧ ∀ k, k < 16 → bit (wd (e + 65536 * x)) (k + 16) = x.testBit k := by
  refine ⟨?_, fun k hk => ?_⟩
  · simp only [fld, wd, BitVec.toNat_ofNat]
    omega
  · have quotient : (e + 65536 * x) / 2 ^ 16 = x := by omega
    rw [bit, wd, BitVec.getLsbD_ofNat, ← Nat.testBit_div_two_pow (n := 16), quotient]
    simp [show k + 16 < 32 by omega]

/-- The fields of the word that SNAP latches beside the timebases. -/
theorem snapWord (e : Nat) (q r : Bool) (he : e < 65536) :
    fld (wd (e + flag q 16 + flag r 17)) 15 0 = e ∧ bit (wd (e + flag q 16 + flag r 17)) 16 = q ∧
    bit (wd (e + flag q 16 + flag r 17)) 17 = r := by
  have sum : e + flag q 16 + flag r 17 = e + 65536 * (flag q 0 + flag r 1) := by
    rw [flag_add q 16 0, flag_add r 16 1, Nat.add_assoc, ← Nat.mul_add]
    norm_num
  obtain ⟨low, high⟩ := wd_halves e (flag q 0 + flag r 1) he
  obtain ⟨hq, hr⟩ := testBit_flags q r
  rw [sum]
  exact ⟨low, (high 0 (by decide)).trans hq, (high 1 (by decide)).trans hr⟩

/-- While a compare unit is armed ARM alone is written (R242). -/
theorem cmpCtrlWrite_armed {h : Hub} {n : Nat} (w : Word) (ha : bit (h.tb.cmp.get n).ctrl 0 = true) : cmpCtrlWrite n w h =
    if bit w 0 then h else
      { h with tb := { h.tb with cmp := h.tb.cmp.put n { h.tb.cmp.get n with ctrl := w1c (h.tb.cmp.get n).ctrl 1 } } } := if_pos ha

theorem cmpCtrlWrite_disarmed {h : Hub} {n : Nat} (w : Word) (ha : bit (h.tb.cmp.get n).ctrl 0 = false) : cmpCtrlWrite n w h =
    ({ h with tb := { h.tb with cmp := h.tb.cmp.put n { h.tb.cmp.get n with ctrl := w &&& cmpMask, fresh := true } } } : Hub).cmpPolicy n :=
  if_neg (by simp [ha])

/-- From `h` to `g` compare unit `n` alone changed. -/
structure Hub.OnlyCmp (h : Hub) (n : Nat) (g : Hub) : Prop where
  only : h.onlyIn [.tb] g
  other : ∀ k, k ≠ n → g.tb.cmp.get k = h.tb.cmp.get k
  tb : g.tb = { h.tb with cmp := g.tb.cmp }

theorem Hub.OnlyCmp.refl (h : Hub) (n : Nat) : h.OnlyCmp n h := ⟨h.onlyIn_refl _, fun _ _ => rfl, rfl⟩

theorem Hub.OnlyCmp.trans {h g t : Hub} {n : Nat} (hg : h.OnlyCmp n g) (gt : g.OnlyCmp n t) : h.OnlyCmp n t :=
  ⟨Hub.onlyIn_trans hg.only gt.only, fun k hk => (gt.other k hk).trans (hg.other k hk), by rw [gt.tb, hg.tb]⟩

theorem Hub.onlyCmp_put (h : Hub) (n : Nat) (c : Cmp) : h.OnlyCmp n { h with tb := { h.tb with cmp := h.tb.cmp.put n c } } :=
  ⟨by simp [Hub.onlyIn_iff], fun k hk => by simp [hk], rfl⟩

theorem Hub.cmpPolicy_onlyCmp (h : Hub) (n : Nat) : h.OnlyCmp n (h.cmpPolicy n) := by
  unfold Hub.cmpPolicy
  dsimp only
  split
  · exact h.onlyCmp_put n _
  · exact .refl h n

theorem cmpCtrlWrite_onlyCmp (n : Nat) (w : Word) (h : Hub) : h.OnlyCmp n (cmpCtrlWrite n w h) := by
  cases ha : bit (h.tb.cmp.get n).ctrl 0
  · rw [cmpCtrlWrite_disarmed w ha]
    exact (h.onlyCmp_put n _).trans (Hub.cmpPolicy_onlyCmp _ n)
  · rw [cmpCtrlWrite_armed w ha]
    split
    · exact .refl h n
    · exact h.onlyCmp_put n _

theorem Hub.cmpPolicy_of_plain {h : Hub} {n : Nat}
    (hc : (bit (h.tb.cmp.get n).ctrl 0 && fld (h.tb.cmp.get n).ctrl 3 2 == 1) = false) : h.cmpPolicy n = h := by
  unfold Hub.cmpPolicy
  dsimp only
  rw [hc]
  rfl

/-- ARM and TB of CMPn_CTRL are not reserved. -/
theorem cmpMask_fields (w : Word) : bit (w &&& cmpMask) 0 = bit w 0 ∧ fld (w &&& cmpMask) 3 2 = fld w 3 2 := by
  constructor
  · simp [bit, cmpMask]
  · have field : ∀ x : Word, fld x 3 2 = (x.extractLsb' 2 2).toNat := fun x => by
      simp [fld, BitVec.extractLsb'_toNat, Nat.shiftRight_eq_div_pow]
    rw [field, field, BitVec.extractLsb'_and, show (cmpMask.extractLsb' 2 2) = BitVec.allOnes 2 by decide, BitVec.and_allOnes]

/-! ### ENABLE (R499, R501) -/

theorem evtEnableWrite_eq {h : Hub} (b : Fin 4) (w : Word) (hh : h.clk.held = false) : evtEnableWrite b w h = h.writeEnable b w := by
  have hb := b.isLt
  rw [evtEnableWrite, Hub.hostWrite_running _ _ _ hh]
  unfold Hub.regWrite
  dsimp only
  rw [if_neg (by omega), if_neg (by omega), if_pos (by omega), show (0x20004 + 256 * b.val) % 65536 = 4 + 256 * b.val by omega]
  unfold Hub.writeEvt
  dsimp only
  rw [if_neg (by omega), if_neg (by omega), if_pos (by omega), show (4 + 256 * b.val) / 256 = b.val by omega]

theorem bit_bankMask (b j : Nat) (hj : j < 32) : bit (bankMask b) j = (evClass (32 * b + j)).isSome := by
  have word := bit_wd_div (maskOf ((List.range 32).filter fun j => (evClass (32 * b + j)).isSome)) 0 j hj
  rw [Nat.pow_zero, Nat.div_one, Nat.zero_add, testBit_maskOf] at word
  rw [bankMask, word]
  simp [hj]

theorem bit_fixedEnable (b j : Nat) (hj : j < 32) : bit (if b = 0 then 0xF else 0) j = decide (b = 0 ∧ j < 4) := by
  by_cases hb : b = 0
  · have nibble : ∀ j : Fin 32, bit 0xF j = decide (j.val < 4) := by decide
    simpa only [hb, if_true, true_and] using nibble ⟨j, hj⟩
  · simp [hb, bit]

/-- The listed bits of a bank, and those that read 1, are in force after the write. -/
theorem bit_evEnable_of_written {h : Hub} {b : Nat} {w : Word} (hb : h.evt.enable.get b = some (w &&& bankMask b)) {j : Nat} (hj : j < 32) :
    bit (h.evEnable b) j = ((bit w j && (evClass (32 * b + j)).isSome) || decide (b = 0 ∧ j < 4)) := by
  rw [← bit_bankMask b j hj, ← bit_fixedEnable b j hj, Hub.evEnable, hb]
  simp [bit]

/-- After the write newly enabled events send their messages. -/
theorem Hub.writeEnable_onlyIn (h : Hub) (b : Nat) (w : Word) :
    ({ h with evt := { h.evt with enable := h.evt.enable.put b (some (w &&& bankMask b)) } } : Hub).onlyIn [.host, .tx] (h.writeEnable b w) := by
  refine Hub.onlyIn_foldl (fun g j => ?_) _ _
  split
  · simp [Hub.onlyIn_iff]
  · exact g.onlyIn_refl _

/-- Settles O36: each write reaches its register, which is written as the clause says. -/
theorem hostQueueAndResetRows : Obligations.HostQueueAndResetRows := by
  unfold Obligations.HostQueueAndResetRows
  refine ⟨fun s w hp => ?_, fun s hp => ?_, fun s hp => ?_, fun s hp hh => ?_, fun s n w hp hh => ?_, fun s bank w hp hh => ?_⟩
  · refine does_row rfl hp (s.hub.cqRdWrite_onlyIn w) ⟨fun within => ?_, fun outside => ?_⟩
    · have freed : ∀ j : Nat, (j : Int) < diff32 w.toNat s.hub.host.cqRd →
          fld (s.hub.host.cq.get (8 * ((s.hub.host.cqRd + j) % 256))) 11 0 ∈ s.hub.passedSlots w :=
        fun j hj => List.mem_map.mpr ⟨j, List.mem_range.mpr (by omega), rfl⟩
      rw [show cqRdWrite w s.hub = _ from Hub.cqRdWrite_within within]
      refine ⟨rfl, fun j hj => ?_, rfl⟩
      rw [Tab.get_foldl_freed, if_pos (freed j hj), HSlot.freed]
    · rw [show cqRdWrite w s.hub = _ from Hub.cqRdWrite_outside outside]
  · have reset := s.hub.controlReset_resetBy 4
    obtain ⟨block, pend, sys⟩ := reset.sys
    refine does_row rfl hp ?_ ?_
    · rw [resetCtrlControl_eq]
      exact Hub.onlyIn_mono reset.only (by decide)
    · rw [resetCtrlControl_eq, sys]
      exact ⟨reset.sto, rfl, rfl, rfl, rfl, reset.mbs, reset.posted, rfl, rfl⟩
  · refine does_row rfl hp ?_ ?_
    · rw [resetCtrlDatapath_eq]
      simp [Hub.onlyIn_iff]
    · rw [resetCtrlDatapath_eq]
  · refine does_row rfl hp ?_ ?_
    · rw [snapWrite_eq hh]
      simp [Hub.onlyIn_iff, snapCtrlSnap]
    · rw [snapWrite_eq hh]
      exact ⟨rfl, rfl, rfl, rfl, rfl, snapWord _ _ _⟩
  · have unit := cmpCtrlWrite_onlyCmp n w s.hub
    refine does_row rfl hp ?_ ?_
    · rw [cmpCtrlHost_eq n w hh]
      exact unit.only
    · rw [cmpCtrlHost_eq n w hh]
      refine ⟨unit.other, unit.tb, fun armed => ?_, fun disarmed plain => ?_⟩
      · rw [cmpCtrlWrite_armed w armed]
        split <;> simp
      · obtain ⟨arm, tb⟩ := cmpMask_fields w
        rw [cmpCtrlWrite_disarmed w disarmed, Hub.cmpPolicy_of_plain (by simpa [arm, tb] using plain)]
        simp [cmpMask]
  · have sent := s.hub.writeEnable_onlyIn bank w
    have evt : (s.hub.writeEnable bank w).evt = { s.hub.evt with enable := s.hub.evt.enable.put bank (some (w &&& bankMask bank)) } :=
      sent .evt (by decide)
    refine does_row rfl hp ?_ ?_
    · rw [evtEnableWrite_eq bank w hh]
      exact Hub.onlyIn_trans (by simp [Hub.onlyIn_iff]) (Hub.onlyIn_mono sent (by decide))
    · rw [evtEnableWrite_eq bank w hh]
      have written : (s.hub.writeEnable bank w).evt.enable.get bank = some (w &&& bankMask bank) := by simp [evt]
      refine ⟨fun j hj => bit_evEnable_of_written written hj, by rw [evt], fun k hk => ?_⟩
      rw [evt, Tab.get_put, if_neg hk]

end Sys2Proof.Machine

/-! PROOFS. Control resets and what brings them (O40). -/
namespace Sys2Proof.Machine

/-! ### Landing queues writes of the saved state and changes nothing else of the flash (R33, R321) -/

/-- From `h` to `g` of flash and OTP the queue of writes alone changed. -/
def Hub.KeepsFlash (h g : Hub) : Prop := ∃ jobs, g.sto = { h.sto with jobs := jobs }

theorem Hub.KeepsFlash.of_sto {h g : Hub} (e : g.sto = h.sto) : h.KeepsFlash g := ⟨h.sto.jobs, e⟩

theorem Hub.KeepsFlash.refl (h : Hub) : h.KeepsFlash h := .of_sto rfl

theorem Hub.KeepsFlash.trans {h g t : Hub} (hg : h.KeepsFlash g) (gt : g.KeepsFlash t) : h.KeepsFlash t := by
  obtain ⟨_, e⟩ := hg
  obtain ⟨jobs, f⟩ := gt
  exact ⟨jobs, by rw [f, e]⟩

theorem Hub.KeepsFlash.foldl {α : Type} {f : Hub → α → Hub} (hf : ∀ (g : Hub) a, g.KeepsFlash (f g a)) (l : List α) (h : Hub) :
    h.KeepsFlash (l.foldl f h) := by
  induction l generalizing h with
  | nil => exact .refl h
  | cons a l ih => exact (hf h a).trans (ih _)

/-- The journal may change first. -/
theorem Hub.KeepsFlash.of_jrn {h t : Hub} {j : JrnSt} (ht : ({ h with jrn := j } : Hub).KeepsFlash t) : h.KeepsFlash t := ht

theorem Hub.saveState_keepsFlash (h : Hub) (handle : Option Nat) : h.KeepsFlash (h.saveState handle) := by
  unfold Hub.saveState
  split
  · exact .refl h
  · exact ⟨_, rfl⟩

theorem Hub.skipDropped_keepsFlash (h : Hub) (dropped : List Rec) : h.KeepsFlash (h.skipDropped dropped) := by
  refine .foldl (fun g c => ?_) _ h
  dsimp only
  split
  · exact .refl g
  · exact .of_jrn (.of_sto (Hub.skipOn_sto _ c))

theorem Hub.jrnState_keepsFlash (h : Hub) : h.KeepsFlash h.jrnState := .of_sto h.jrnState_sto
theorem Hub.jrnDegrade_keepsFlash (h : Hub) : h.KeepsFlash h.jrnDegrade := .of_sto h.jrnDegrade_sto

theorem Hub.pagesFree_keepsFlash (h : Hub) : h.KeepsFlash h.pagesFree := by
  unfold Hub.pagesFree
  dsimp only
  split
  · exact .refl h
  · have retired : ∀ (l : List Nat) (g : Hub), g.KeepsFlash (l.foldl (fun g n => (g.raise 67 (b4 n)).saveState none) g) :=
      .foldl fun g n => (Hub.KeepsFlash.of_sto (by simp)).trans (Hub.saveState_keepsFlash _ _)
    exact .of_jrn ((((Hub.skipDropped_keepsFlash _ _).trans (retired _ _)).trans (Hub.jrnDegrade_keepsFlash _)).trans
      (Hub.jrnState_keepsFlash _))

theorem Hub.takeTicket_keepsFlash (h : Hub) : h.KeepsFlash h.takeTicket.2 := by
  unfold Hub.takeTicket
  dsimp only
  split
  · exact Hub.saveState_keepsFlash _ none
  · exact .of_sto rfl

theorem Hub.takePage_onlyIn {h g : Hub} {w t n : Nat} {ss : List Share} (e : h.takePage w ss t = some (n, g)) : h.onlyIn [.jrn] g := by
  unfold Hub.takePage at e
  split at e
  · exact absurd e nofun
  · obtain ⟨-, rfl⟩ := Prod.mk.inj (Option.some.inj e)
    simp [Hub.onlyIn_iff]

/-- Bytes are written into pages of the journal alone. -/
theorem Hub.appendBytes_onlyIn {h g : Hub} {w t fuel n : Nat} {ss : List Share} {starts : Bool} {acc ps : List Nat}
    (e : h.appendBytes w ss t starts fuel n acc = some (ps, g)) : h.onlyIn [.jrn] g := by
  induction fuel generalizing h starts n acc with
  | zero => obtain ⟨-, rfl⟩ := Prod.mk.inj (Option.some.inj e); exact h.onlyIn_refl _
  | succ fuel ih =>
    have paged : ∀ {k : Hub} {p m : Nat} {b : Bool} {l : List Nat}, h.takePage w ss t = some (p, k) →
        k.appendBytes w ss t b fuel m l = some (ps, g) → h.onlyIn [.jrn] g := fun hp e => Hub.onlyIn_trans (Hub.takePage_onlyIn hp) (ih e)
    unfold Hub.appendBytes at e
    dsimp only at e
    split at e
    · obtain ⟨-, rfl⟩ := Prod.mk.inj (Option.some.inj e); exact h.onlyIn_refl _
    · split at e
      · split at e
        · exact Hub.onlyIn_trans (by simp [Hub.onlyIn_iff]) (ih e)
        · split at e
          · exact absurd e nofun
          · next hp => exact paged hp e
      · split at e
        · exact absurd e nofun
        · next hp => exact paged hp e

theorem Hub.tryLand_keepsFlash {h g : Hub} {r : Rec} (e : h.tryLand r = some g) : h.KeepsFlash g := by
  unfold Hub.tryLand at e
  dsimp only at e
  split at e
  · next ha =>
    obtain rfl := Option.some.inj e
    have room : h.takeTicket.2.KeepsFlash _ := .of_sto (Hub.appendBytes_onlyIn ha .sto (by decide))
    exact (h.takeTicket_keepsFlash.trans room).trans (.of_jrn ((Hub.pagesFree_keepsFlash _).trans (Hub.jrnState_keepsFlash _)))
  · exact absurd e nofun

theorem Hub.landWhole_keepsFlash (h : Hub) (r : Rec) : h.KeepsFlash (h.landWhole r) := by
  unfold Hub.landWhole
  split
  · exact .refl h
  · split
    · next g e =>
      split at e
      · exact Hub.tryLand_keepsFlash e
      · exact absurd e nofun
    · split
      · exact .of_sto (by simp)
      · exact .of_sto rfl

/-! ### Pending calibration runs are reviewed (R107, R491) -/

/-- From `h` to `g` records landed and pending runs changed: of the host interface pending bits alone, of flash and OTP the queue of writes
alone. -/
structure Hub.Reviews (h g : Hub) : Prop where
  raises : h.Raises [.jrn, .evt, .sto, .cal] g
  flash : h.KeepsFlash g

theorem Hub.Reviews.refl (h : Hub) : h.Reviews h := ⟨.refl h _, .refl h⟩

theorem Hub.Reviews.trans {h g t : Hub} (hg : h.Reviews g) (gt : g.Reviews t) : h.Reviews t :=
  ⟨hg.raises.trans gt.raises, hg.flash.trans gt.flash⟩

theorem Hub.Reviews.foldl {α : Type} {f : Hub → α → Hub} (hf : ∀ (g : Hub) a, g.Reviews (f g a)) (l : List α) (h : Hub) :
    h.Reviews (l.foldl f h) := by
  induction l generalizing h with
  | nil => exact .refl h
  | cons a l ih => exact (hf h a).trans (ih _)

theorem Hub.reviews_cal (h : Hub) (c : CalSt) : h.Reviews { h with cal := c } :=
  ⟨Hub.raises_of_onlyIn (by simp [Hub.onlyIn_iff]) (by decide) (by decide), .refl h⟩

theorem Hub.calLand_reviews (h : Hub) (ch : Nat) (r : CalRec) : h.Reviews (h.calLand ch r) :=
  (h.reviews_cal _).trans ⟨(Hub.land_records _ ..).raises.mono (by decide), Hub.landWhole_keepsFlash _ _⟩

theorem Hub.calSuspend_reviews (h : Hub) (g : Nat) : h.Reviews (h.calSuspend g) := by
  have landed : ∀ (l : List Nat) (k : Hub), k.Reviews (l.foldl (fun h ch =>
      h.calLand ch { h.calRec ch 6 with start := h.sampleT, startEpoch := h.tb.epoch, temp := h.cal.temp.get g }) k) :=
    .foldl fun k ch => k.calLand_reviews ch _
  have raised : ∀ k : Hub, k.Reviews (k.raise 39 (b1 g)) :=
    fun k => ⟨(k.raise_records 39 (b1 g)).raises.mono (by decide), .of_sto (by simp)⟩
  unfold Hub.calSuspend
  dsimp only
  split
  · exact landed _ h
  · exact (landed _ h).trans ((Hub.reviews_cal _ _).trans (raised _))

theorem Hub.calWant_reviews (h : Hub) (g trig : Nat) : h.Reviews (h.calWant g trig) := by
  unfold Hub.calWant
  dsimp only
  split
  · exact .refl h
  · split
    · exact .refl h
    · split
      · exact h.calSuspend_reviews g
      · exact h.reviews_cal _

theorem Hub.calReview_reviews (h : Hub) : h.Reviews h.calReview := by
  refine (h.reviews_cal _).trans (.foldl (fun k g => ?_) _ _)
  split_ifs
  · exact .refl k
  · exact k.calWant_reviews g 0
  · exact k.calWant_reviews g 1
  · exact .refl k

/-! ### The completions that waited for the firmware (R491) -/

theorem Hub.writeDeferred_onlyIn (h : Hub) : h.onlyIn [.host, .tx] h.writeDeferred := by
  have entries : ∀ (l : List Deferred) (g : Hub), g.onlyIn [.host, .tx] (l.foldl (fun (h : Hub) d => h.cqWrite d) g) :=
    fun l g => Hub.onlyIn_foldl (fun g d => by simp [Hub.onlyIn_iff]) l g
  exact Hub.onlyIn_trans (by simp [Hub.onlyIn_iff]) (entries _ _)

theorem Hub.writeDeferred_host (h : Hub) : h.writeDeferred.host.mbs = h.host.mbs ∧ h.writeDeferred.host.deferred = [] := by
  have entries : ∀ (l : List Deferred) (g : Hub), (l.foldl (fun (h : Hub) d => h.cqWrite d) g).host.mbs = g.host.mbs ∧
      (l.foldl (fun (h : Hub) d => h.cqWrite d) g).host.deferred = g.host.deferred := by
    intro l
    induction l with
    | nil => exact fun _ => ⟨rfl, rfl⟩
    | cons d l ih =>
      intro g
      obtain ⟨_, _, _, _, _, host⟩ := g.cqWrite_host d
      obtain ⟨mbs, deferred⟩ := ih (g.cqWrite d)
      exact ⟨mbs.trans (by rw [host]), deferred.trans (by rw [host])⟩
  exact entries h.host.deferred { h with host := { h.host with deferred := [] } }

/-! ### Slot switches, faults and trials (R538, R544, R545) -/

/-- A control reset after a change of SYS and of the trial. -/
theorem Hub.slotSwitch_resetBy (h : Hub) (b : Bool) (r : Option Nat) :
    h.onlyIn controlParts (h.slotSwitch b r) ∧ (∃ block pend, (h.slotSwitch b r).sys = ({ h.sys with slotB := b } : SysSt).reset 5 block pend) ∧
    (h.slotSwitch b r).sto = { h.sto with otpJobs := h.sto.otpJobs.map OtpJob.unasked, trial := r.isSome, trialArmed := r.isSome,
                                          trialAt := r.map fun _ => h.xoCycles, trialS := r.getD 0 } ∧
    (∀ m, m < 8 → ((h.slotSwitch b r).host.mbs.get m).state = .offline) := by
  have reset := Hub.controlReset_resetBy { h with
    sys := { h.sys with slotB := b }
    sto := { h.sto with trial := r.isSome, trialArmed := r.isSome, trialAt := r.map fun _ => h.xoCycles, trialS := r.getD 0 } } 5
  exact ⟨Hub.onlyIn_trans (by simp [Hub.onlyIn_iff, controlParts]) reset.only, reset.sys, reset.sto, reset.mbs⟩

/-- The hub that reverts to the default slot has raised EV17. -/
theorem Hub.trialRevert_parts (h : Hub) : h.onlyIn [.sys, .host, .evt, .sto, .tx] h.trialRevert ∧
    h.trialRevert.sys = { h.sys with slotB := h.sto.defaultB } ∧
    h.trialRevert.sto = { h.sto with trialFailed := true, trial := false, trialArmed := false } := by
  simp [Hub.onlyIn_iff, Hub.trialRevert]

/-- A fault without an armed trial raises its event and resets the control side. -/
theorem Hub.controlFault_resetBy {h : Hub} {ev : Nat} (cause : Nat) (ht : h.sto.trialArmed = false) (hh : h.clk.held = false)
    (he : ev ≠ 74) (ho : ev ≠ 10) : h.onlyIn controlParts (h.controlFault ev cause) ∧
    (∃ block pend, (h.controlFault ev cause).sys = h.sys.reset cause block pend) ∧
    (h.controlFault ev cause).sto = { h.sto with otpJobs := h.sto.otpJobs.map OtpJob.unasked } ∧
    (∀ m, m < 8 → ((h.controlFault ev cause).host.mbs.get m).state = .offline) ∧
    (h.controlFault ev cause).evt.count.get ev = h.evt.count.get ev + 1 ∧
    (h.controlFault ev cause).evt.count.get 10 = h.evt.count.get 10 + 1 := by
  have fault : h.controlFault ev cause = (h.raise ev []).controlReset cause := by simp [Hub.controlFault, ht]
  have reset := (h.raise ev []).controlReset_resetBy cause
  have sys := reset.sys
  have sto := reset.sto
  rw [Hub.raise_sys] at sys
  rw [Hub.raise_sto] at sto
  rw [fault]
  refine ⟨Hub.onlyIn_trans (Hub.onlyIn_mono (h.raise_onlyIn ev []) (by decide)) reset.only, sys, sto, reset.mbs, ?_, ?_⟩
  · rw [reset.other ev he ho, h.raise_count_self ev [] hh]
  · rw [reset.counted (by rw [Hub.raise_clk, hh]), h.raise_count_other ev [] (Ne.symm ho)]

/-! ### The firmware reloads (R491, R538, R541, R542) -/

theorem Hub.mailboxesUp_get (h : Hub) (f : Nat → MbState) {m : Nat} (hm : m < 8) :
    (h.mailboxesUp f).host.mbs.get m = { h.host.mbs.get m with state := f m } := by
  unfold Hub.mailboxesUp
  dsimp only
  rw [Tab.get_foldl_upd (fun m (x : Mailbox) => { x with state := f m }) List.nodup_range, if_pos (List.mem_range.mpr hm)]

/-- The hub at work again: with the completions that waited written and the pending runs reviewed. -/
theorem Hub.writeDeferred_calReview (g : Hub) : g.onlyIn [.host, .evt, .jrn, .sto, .cal, .tx] g.writeDeferred.calReview ∧
    g.writeDeferred.calReview.sys = g.sys ∧ g.KeepsFlash g.writeDeferred.calReview ∧
    g.writeDeferred.calReview.host.mbs = g.host.mbs ∧ g.writeDeferred.calReview.host.deferred = [] := by
  have entries := g.writeDeferred_onlyIn
  have review := g.writeDeferred.calReview_reviews
  have after := Hub.onlyIn_trans (Hub.onlyIn_mono entries (by decide)) review.raises.only
  obtain ⟨p, host⟩ := review.raises.host
  obtain ⟨mbs, deferred⟩ := g.writeDeferred_host
  refine ⟨Hub.onlyIn_mono after (by decide), after .sys (by decide), ?_, ?_, ?_⟩
  · exact (Hub.KeepsFlash.of_sto (entries .sto (by decide))).trans review.flash
  · rw [host, mbs]
  · rw [host, deferred]

section
variable {h : Hub} {fastOk okThis okOther : Bool}

/-- The firmware of slot `b` runs, and every mailbox is IDLE. -/
def Hub.runSlot (h : Hub) (b : Bool) : Hub := ({ h with sys := { h.sys with slotB := b, fwReady := true } } : Hub).mailboxesUp fun _ => .idle

theorem Hub.runSlot_onlyIn (h : Hub) (b : Bool) : h.onlyIn [.sys, .host] (h.runSlot b) := by
  simp [Hub.onlyIn_iff, Hub.runSlot, Hub.mailboxesUp]

theorem Hub.runSlot_mbs (h : Hub) (b : Bool) {m : Nat} (hm : m < 8) :
    (h.runSlot b).host.mbs.get m = { h.host.mbs.get m with state := .idle } := Hub.mailboxesUp_get _ _ hm

theorem firmwareReady_reloads (hr : h.sys.recovery = false) (hf : h.sys.fwReady = false) (h8 : h.sys.bootStep8 = false)
    (ha : h.sys.acq ≠ .boot) : firmwareReady fastOk okThis okOther h =
      if (h.fwLoad { fast := fastOk, this := okThis, other := okOther }).sys.fwReady then
        (h.fwLoad { fast := fastOk, this := okThis, other := okOther }).writeDeferred.calReview
      else h.fwLoad { fast := fastOk, this := okThis, other := okOther } := by
  simp [firmwareReady, hr, hf, h8, ha]

/-- A slot that runs after the reload puts the hub to work again. -/
theorem firmwareReady_runs (hr : h.sys.recovery = false) (hf : h.sys.fwReady = false) (h8 : h.sys.bootStep8 = false)
    (ha : h.sys.acq ≠ .boot) {g : Hub} {b : Bool} (hl : h.fwLoad { fast := fastOk, this := okThis, other := okOther } = g.runSlot b) :
    firmwareReady fastOk okThis okOther h = (g.runSlot b).writeDeferred.calReview := by
  rw [firmwareReady_reloads hr hf h8 ha, hl]
  exact if_pos rfl

theorem Hub.fwLoad_same (hc : (fastOk || (okThis && h.fwFit h.sys.slotB)) = true) :
    h.fwLoad { fast := fastOk, this := okThis, other := okOther } = h.runSlot h.sys.slotB := by
  simp [Hub.fwLoad, Hub.fwPick, hc, Hub.runSlot]

/-- EV17, and a trial in the running slot has failed. -/
def Hub.slotFails (h : Hub) : Hub :=
  ({ h with sto := { h.sto with trialFailed := h.sto.trialFailed || h.sto.trialArmed, trial := false, trialArmed := false } } : Hub).raise 17 []

theorem Hub.slotFails_onlyIn (h : Hub) : h.onlyIn [.host, .evt, .sto, .tx] h.slotFails := by simp [Hub.onlyIn_iff, Hub.slotFails]

theorem Hub.slotFails_sto (h : Hub) : h.slotFails.sto =
    { h.sto with trialFailed := h.sto.trialFailed || h.sto.trialArmed, trial := false, trialArmed := false } := Hub.raise_sto ..

theorem Hub.slotFails_mbs (h : Hub) : h.slotFails.host.mbs = h.host.mbs := (Hub.keepsBoxes_of_pba (Hub.raise_host _ 17 [])).mbs

theorem Hub.fwLoad_other (hc : (fastOk || (okThis && h.fwFit h.sys.slotB)) = false) (ho : (okOther && h.fwFit !h.sys.slotB) = true) :
    h.fwLoad { fast := fastOk, this := okThis, other := okOther } = h.slotFails.runSlot !h.sys.slotB := by
  have turned : ∀ b : Bool, (!b) ≠ b := by decide
  have pick : h.fwPick { fast := fastOk, this := okThis, other := okOther } = some !h.sys.slotB := by simp only [Hub.fwPick, hc, ho]; rfl
  simp only [Hub.fwLoad, pick, Option.some.injEq, turned, if_false, Hub.slotFails, Hub.runSlot]

theorem Hub.fwLoad_none (hc : (fastOk || (okThis && h.fwFit h.sys.slotB)) = false) (ho : (okOther && h.fwFit !h.sys.slotB) = false) :
    h.fwLoad { fast := fastOk, this := okThis, other := okOther } = h.slotFails.enterRecovery := by
  have pick : h.fwPick { fast := fastOk, this := okThis, other := okOther } = none := by simp only [Hub.fwPick, hc, ho]; rfl
  simp only [Hub.fwLoad, pick, reduceCtorEq, if_false, Hub.slotFails]

theorem Hub.enterRecovery_mbs (h : Hub) {m : Nat} (hm : m < 8) :
    (h.enterRecovery.host.mbs.get m).state = if m = 7 then .idle else .offline :=
  congrArg Mailbox.state (h.mailboxesUp_get (fun m => if m = 7 then .idle else .offline) hm)

theorem Hub.enterRecovery_onlyIn (h : Hub) : h.onlyIn [.sys, .host] h.enterRecovery := by
  simp [Hub.onlyIn_iff, Hub.enterRecovery, Hub.mailboxesUp]

theorem Hub.enterRecovery_sto (h : Hub) : h.enterRecovery.sto = h.sto := h.enterRecovery_onlyIn .sto (by decide)

theorem Hub.enterRecovery_sys (h : Hub) : h.enterRecovery.sys = { h.sys with recovery := true, fwReady := false } := rfl

end

section
variable {s : State} {f t o : Bool}

theorem firmwareReady_same (hp : s.hub.powered = true) (down : s.hub.sys.fwReady = false) (rec : s.hub.sys.recovery = false)
    (boot : s.hub.sys.bootStep8 = false) (acq : s.hub.sys.acq ≠ .boot)
    (fit : (f || (t && s.hub.fwFit s.hub.sys.slotB)) = true) :
    Does (.firmwareReady f t o) s [.sys, .host, .evt, .jrn, .sto, .cal, .tx] fun g => g.sys = { s.hub.sys with fwReady := true } ∧
      (∀ m : Nat, m < 8 → g.host.mbs.get m = { s.hub.host.mbs.get m with state := .idle }) ∧ g.host.deferred = [] := by
  have row := firmwareReady_runs rec down boot acq (Hub.fwLoad_same (okOther := o) fit)
  obtain ⟨only, sys, -, mbs, deferred⟩ := (s.hub.runSlot s.hub.sys.slotB).writeDeferred_calReview
  refine does_row rfl hp ?_ ?_
  · rw [row]
    exact Hub.onlyIn_trans (Hub.onlyIn_mono (s.hub.runSlot_onlyIn _) (by decide)) (Hub.onlyIn_mono only (by decide))
  · rw [row, sys, mbs]
    exact ⟨rfl, fun m hm => s.hub.runSlot_mbs _ hm, deferred⟩

theorem firmwareReady_other (hp : s.hub.powered = true) (down : s.hub.sys.fwReady = false) (rec : s.hub.sys.recovery = false)
    (boot : s.hub.sys.bootStep8 = false) (acq : s.hub.sys.acq ≠ .boot)
    (fails : (f || (t && s.hub.fwFit s.hub.sys.slotB)) = false) (other : (o && s.hub.fwFit !s.hub.sys.slotB) = true) :
    Does (.firmwareReady f t o) s [.sys, .host, .evt, .jrn, .sto, .cal, .tx] fun g => g.sto.trial = false ∧ g.sto.trialArmed = false ∧
      g.sto.trialFailed = (s.hub.sto.trialFailed || s.hub.sto.trialArmed) ∧
      g.sys = { s.hub.sys with fwReady := true, slotB := !s.hub.sys.slotB } ∧
      (∀ m : Nat, m < 8 → g.host.mbs.get m = { s.hub.host.mbs.get m with state := .idle }) ∧ g.host.deferred = [] := by
  have row := firmwareReady_runs rec down boot acq (Hub.fwLoad_other fails other)
  have fail := s.hub.slotFails_onlyIn
  have failed : s.hub.slotFails.sys = s.hub.sys := fail .sys (by decide)
  obtain ⟨only, sys, ⟨jobs, sto⟩, mbs, deferred⟩ := (s.hub.slotFails.runSlot !s.hub.sys.slotB).writeDeferred_calReview
  have runs : (s.hub.slotFails.runSlot !s.hub.sys.slotB).sys = { s.hub.slotFails.sys with slotB := !s.hub.sys.slotB, fwReady := true } := rfl
  have flash : _ = { s.hub.slotFails.sto with jobs := jobs } := sto
  rw [s.hub.slotFails_sto] at flash
  refine does_row rfl hp ?_ ?_
  · rw [row]
    exact Hub.onlyIn_trans (Hub.onlyIn_mono fail (by decide))
      (Hub.onlyIn_trans (Hub.onlyIn_mono (Hub.runSlot_onlyIn _ _) (by decide)) (Hub.onlyIn_mono only (by decide)))
  · rw [row, sys, mbs, flash, runs, failed]
    refine ⟨rfl, rfl, rfl, rfl, fun m hm => ?_, deferred⟩
    rw [Hub.runSlot_mbs _ _ hm, s.hub.slotFails_mbs]

theorem firmwareReady_none (hp : s.hub.powered = true) (down : s.hub.sys.fwReady = false) (rec : s.hub.sys.recovery = false)
    (boot : s.hub.sys.bootStep8 = false) (acq : s.hub.sys.acq ≠ .boot)
    (fails : (f || (t && s.hub.fwFit s.hub.sys.slotB)) = false) (none : (o && s.hub.fwFit !s.hub.sys.slotB) = false) :
    Does (.firmwareReady f t o) s [.sys, .host, .evt, .sto, .tx] fun g => g.sto.trial = false ∧ g.sto.trialArmed = false ∧
      g.sto.trialFailed = (s.hub.sto.trialFailed || s.hub.sto.trialArmed) ∧ g.sys = { s.hub.sys with recovery := true } ∧
      (g.host.mbs.get 7).state = .idle ∧ (∀ m : Nat, m < 7 → (g.host.mbs.get m).state = .offline) := by
  have loaded := Hub.fwLoad_none fails none
  have fail := s.hub.slotFails_onlyIn
  have failed : s.hub.slotFails.sys = s.hub.sys := fail .sys (by decide)
  have row := firmwareReady_reloads (fastOk := f) (okThis := t) (okOther := o) rec down boot acq
  rw [loaded, if_neg (by simp [Hub.enterRecovery_sys])] at row
  refine does_row rfl hp ?_ ?_
  · rw [row]
    exact Hub.onlyIn_trans (Hub.onlyIn_mono fail (by decide)) (Hub.onlyIn_mono (Hub.enterRecovery_onlyIn _) (by decide))
  · rw [row, Hub.enterRecovery_sto, s.hub.slotFails_sto, Hub.enterRecovery_sys, failed]
    refine ⟨rfl, rfl, rfl, ?_, ?_, fun m hm => ?_⟩
    · rw [← down]
    · rw [Hub.enterRecovery_mbs _ (by decide), if_pos rfl]
    · rw [Hub.enterRecovery_mbs _ (by omega), if_neg (by omega)]

end

/-- Settles O40: every row is its control reset, its trial's end or its reload. -/
theorem controlResetRows : Obligations.ControlResetRows := by
  unfold Obligations.ControlResetRows
  refine ⟨fun s c hp pend due => ?_, fun s b r hp pend due => ?_, fun s hp trial run => ?_, fun s hp trial run => ?_,
    fun s hp armed down late => ?_, fun s hp late => ?_, fun s hp early => ?_, fun s f t o hp down rec boot acq fit => ?_,
    fun s f t o hp down rec boot acq fails other => ?_, fun s f t o hp down rec boot acq fails none => ?_, fun s f t o hp rec off => ?_⟩
  · have row : controlResetRow s.hub = s.hub.controlReset c := by simp [controlResetRow, pend, Nat.not_lt.mpr due]
    have reset := s.hub.controlReset_resetBy c
    obtain ⟨block, rest, sys⟩ := reset.sys
    refine does_row rfl hp ?_ ?_
    · rw [row]
      exact reset.only
    · rw [row, sys]
      exact ⟨rfl, reset.mbs, rfl, rfl, reset.sto, rfl⟩
  · have row : controlResetRow s.hub = s.hub.slotSwitch b r := by simp [controlResetRow, pend, Nat.not_lt.mpr due]
    obtain ⟨only, ⟨block, rest, sys⟩, sto, mbs⟩ := s.hub.slotSwitch_resetBy b r
    refine does_row rfl hp ?_ ?_
    · rw [row]
      exact only
    · rw [row, sys]
      exact ⟨rfl, mbs, rfl, rfl, rfl, rfl, sto⟩
  · obtain ⟨only, ⟨block, rest, sys⟩, sto, mbs, raised, counted⟩ :=
      Hub.controlFault_resetBy (ev := 3) 2 trial run (by decide) (by decide)
    refine does_row rfl hp only ?_
    rw [lockstepMismatch, sys]
    exact ⟨rfl, mbs, rfl, rfl, sto, rfl, raised, counted⟩
  · obtain ⟨only, ⟨block, rest, sys⟩, sto, mbs, raised, counted⟩ :=
      Hub.controlFault_resetBy (ev := 4) 3 trial run (by decide) (by decide)
    refine does_row rfl hp only ?_
    rw [watchdogExpiry, sys]
    exact ⟨rfl, mbs, rfl, rfl, sto, rfl, raised, counted⟩
  · have row : trialRevertRow s.hub = s.hub.trialRevert.controlReset 5 := by simp [trialRevertRow, armed, down, late]
    have reset := s.hub.trialRevert.controlReset_resetBy 5
    obtain ⟨only, sysOf, stoOf⟩ := s.hub.trialRevert_parts
    obtain ⟨block, rest, sys⟩ := reset.sys
    have sto := reset.sto
    rw [sysOf] at sys
    rw [stoOf] at sto
    refine does_row rfl hp ?_ ?_
    · rw [row]
      exact Hub.onlyIn_trans (Hub.onlyIn_mono only (by decide)) reset.only
    · rw [row, sys]
      exact ⟨rfl, reset.mbs, rfl, rfl, rfl, rfl, sto⟩
  · have row : trialSExpiry s.hub = { s.hub with sto := { s.hub.sto with trialArmed := false } } := if_pos late
    refine does_row rfl hp ?_ ?_
    · rw [row]
      simp [Hub.onlyIn_iff]
    · rw [row]
  · exact does_nothing (f := trialSExpiry) rfl hp (if_neg (by simp [early]))
  · exact firmwareReady_same hp down rec boot acq fit
  · exact firmwareReady_other hp down rec boot acq fails other
  · exact firmwareReady_none hp down rec boot acq fails none
  · have row : firmwareReady f t o s.hub = s.hub.enterRecovery := by simp [firmwareReady, rec, off]
    refine does_row rfl hp ?_ ?_
    · rw [row]
      exact s.hub.enterRecovery_onlyIn
    · rw [row, Hub.enterRecovery_sys]
      refine ⟨by rw [← rec], ?_, fun m hm => ?_⟩
      · rw [Hub.enterRecovery_mbs _ (by decide), if_pos rfl]
      · rw [Hub.enterRecovery_mbs _ (by omega), if_neg (by omega)]

end Sys2Proof.Machine

/-! PROOFS. Clock monitors, muxes, gates and the frequency counter (O43). -/
namespace Sys2Proof.Machine

/-! ### Faults, captured raises and the frequency counter (R499, R511, R527, R528) -/

theorem bit_setBit_of_bit {w : Word} {k : Nat} (i : Nat) (hw : bit w k = true) : bit (setBit w i) k = true := by
  rw [bit] at hw
  rw [bit, setBit, BitVec.getLsbD_or, hw, Bool.true_or]

theorem Hub.clkFault_onlyIn (h : Hub) (i : Nat) : h.onlyIn [.clk] (h.clkFault i) := by simp [Hub.onlyIn_iff, Hub.clkFault]

theorem Hub.drainLatched_onlyIn (h : Hub) : h.onlyIn [.host, .evt, .tx] h.drainLatched := by
  let drain : Hub × List Nat → LatchedRaise → Hub × List Nat := fun acc x =>
    if acc.2.contains x.ev then
      let g := acc.1.raiseFlags x.ev
      ({ g with evt := { g.evt with logMerged := sat32 (g.evt.logMerged + 1) } }, acc.2)
    else (acc.1.raiseAt x.ev x.data x.t x.epoch x.isLocal, x.ev :: acc.2)
  have taken : ∀ (l : List LatchedRaise) (a : Hub × List Nat), a.1.onlyIn [.host, .evt, .tx] (l.foldl drain a).1 := by
    intro l
    induction l with
    | nil => exact fun a => a.1.onlyIn_refl _
    | cons x l ih =>
      refine fun a => Hub.onlyIn_trans ?_ (ih _)
      simp only [drain]
      split <;> simp [Hub.onlyIn_iff]
  exact Hub.onlyIn_trans (by simp [Hub.onlyIn_iff]) (taken h.evt.latched ({ h with evt := { h.evt with latched := [] } }, []))

theorem Hub.fmcCheck_parts (h : Hub) : h.onlyIn [.host, .clk, .tx] h.fmcCheck ∧ ∃ f, h.fmcCheck.clk = { h.clk with fmc := f } := by
  have stop : h.onlyIn [.host, .clk, .tx] h.fmcStop ∧ ∃ f, h.fmcStop.clk = { h.clk with fmc := f } := by
    unfold Hub.fmcStop
    split
    · exact ⟨by simp [Hub.onlyIn_iff], _, Hub.complete_clk _ _ _ _⟩
    · exact ⟨h.onlyIn_refl _, _, rfl⟩
  unfold Hub.fmcCheck
  split
  · exact stop
  · exact ⟨h.onlyIn_refl _, _, rfl⟩

/-! ### The HOST mux is forced (R467, R520) -/

theorem Hub.forceHost_parts (h : Hub) (dest : Nat) : h.onlyIn [.sys, .host, .evt, .clk, .jrn, .sto, .tx] (h.forceHost dest) ∧
    (h.forceHost dest).clk = { h.clk with muxHost := dest, fault := setBit h.clk.fault 6 } ∧
    (h.forceHost dest).sys = { h.sys with resetCause := setBit h.sys.resetCause 7 } ∧
    (h.forceHost dest).sto = { h.sto with otpJobs := h.sto.otpJobs.map OtpJob.unasked } := by
  let g := (({ h with clk := { h.clk with muxHost := dest } } : Hub).clkFault 6).raise 5 []
  have forced : h.forceHost dest = g.linkRestart := rfl
  have noted : h.onlyIn [.host, .evt, .clk, .tx] g := by simp [Hub.onlyIn_iff, g, Hub.clkFault]
  have clk : g.clk = { h.clk with muxHost := dest, fault := setBit h.clk.fault 6 } := Hub.raise_clk _ 5 []
  have sys : g.sys = h.sys := noted .sys (by decide)
  have sto : g.sto = h.sto := noted .sto (by decide)
  rw [forced, g.linkRestart_sys, g.linkRestart_sto, g.linkRestart_onlyIn .clk (by decide), sys, sto]
  exact ⟨Hub.onlyIn_trans (Hub.onlyIn_mono noted (by decide)) (Hub.onlyIn_mono g.linkRestart_onlyIn (by decide)), clk, rfl, rfl⟩

/-! ### Gates (R525, R526, R532) -/

theorem mem_addGate (n k : Nat) (l : List Nat) : k ∈ addGate n l ↔ k = n ∨ k ∈ l := by
  simp only [addGate, List.mem_append, List.mem_cons, List.mem_filter, decide_eq_true_eq]
  constructor
  · rintro (⟨hl, -⟩ | rfl | ⟨hl, -⟩)
    · exact .inr hl
    · exact .inl rfl
    · exact .inr hl
  · rintro (rfl | hl)
    · exact .inr (.inl rfl)
    · rcases Nat.lt_trichotomy k n with lt | rfl | gt
      · exact .inl ⟨hl, lt⟩
      · exact .inr (.inl rfl)
      · exact .inr (.inr ⟨hl, gt⟩)

/-- A handshake that ends is waited for no more, and of the clocks the command alone changes. -/
theorem Hub.gateSettle_parts (h : Hub) (n : Nat) (failed : Bool) : h.onlyIn [.clk, .sys, .host, .tx] (h.gateSettle n failed) ∧
    (h.gateSettle n failed).clk = { h.clk with gateCmd := (h.gateSettle n failed).clk.gateCmd } ∧
    (h.gateSettle n failed).gateWaits n = false := by
  have quiet : ∀ g : Hub, (g.clk.gateCmd.any fun c => c.waiting.contains n) = false → g.gateWaits n = false := fun g hg => by
    simp only [Hub.gateWaits, hg, Bool.false_and]
  unfold Hub.gateSettle
  split
  · next none => exact ⟨h.onlyIn_refl _, rfl, quiet h (by simp [none])⟩
  · next c _ =>
    dsimp only
    generalize (if failed then addGate n c.failed else c.failed) = open_
    split
    · exact ⟨by simp [Hub.onlyIn_iff], rfl, quiet _ (by simp)⟩
    · split
      · exact ⟨by simp [Hub.onlyIn_iff], by simp, quiet _ (by simp)⟩
      · exact ⟨by simp [Hub.onlyIn_iff], rfl, quiet _ (by simp)⟩

/-- What a gate's block is used for does not turn on the clocks. -/
theorem Hub.gateUsed_clk (h : Hub) (c : ClkSt) (n : Nat) : ({ h with clk := c } : Hub).gateUsed n = h.gateUsed n := rfl

theorem Hub.openUsed_gates (h : Hub) (n : Nat) : n ∈ h.openUsed.clk.gates ↔ n ∈ h.clk.gates ∧ h.gateUsed n = false := by
  simp [Hub.openUsed]

section
variable {s : State}

/-- A failure of the PCIe reference clock forces the HOST mux (R520). -/
theorem Hub.srcFail_refclk (h : Hub) : h.srcFail 3 = ((h.clkFault 3).forceHost 1).fmcCheck := by
  unfold Hub.srcFail
  extract_lets g _ _ _ _ _ _ k
  have forced : k = g.forceHost 1 := by
    unfold k
    rw [if_neg (by decide), if_neg (by decide), if_pos rfl]
  rw [forced]

/-- The PCIe reference clock stops: its monitor, the forced HOST mux and the check of the frequency counter. -/
theorem clkStopDetect_refclk {src : Fin 5} (hp : s.hub.powered = true) (ref : src.val = 3) (pcie : s.hub.sys.straps.hostSel = false)
    (runs : (s.hub.clk.mon.get 3).failed = false) :
    Does (.clkStopDetect src) s [.sys, .host, .evt, .clk, .jrn, .sto, .tx] fun t => t.sto =
      { s.hub.sto with otpJobs := s.hub.sto.otpJobs.map OtpJob.unasked } ∧ (t.clk.mon.get 3).failed = true ∧ (t.clk.mon.get 3).ok = false ∧
      t.clk.muxHost = 1 ∧ bit t.clk.fault 3 = true ∧ bit t.clk.fault 6 = true ∧ t.sys.resetCause = setBit s.hub.sys.resetCause 7 := by
  let failing := ({ s.hub with clk := { s.hub.clk with
    mon := s.hub.clk.mon.put 3 { s.hub.clk.mon.get 3 with ok := false, failed := true, oks := 0 } } } : Hub).clkFault 3
  have row : clkStopDetect src s.hub = (failing.forceHost 1).fmcCheck := by
    unfold clkStopDetect
    dsimp only
    rw [ref, if_neg (by simp [pcie, runs]), Hub.srcFail_refclk]
  have noted : s.hub.onlyIn [.clk] failing := by simp [Hub.onlyIn_iff, failing, Hub.clkFault]
  have mon : (failing.clk.mon.get 3).failed = true ∧ (failing.clk.mon.get 3).ok = false := by simp [failing, Hub.clkFault]
  have fault : failing.clk.fault = setBit s.hub.clk.fault 3 := rfl
  have sys : failing.sys = s.hub.sys := rfl
  have sto : failing.sto = s.hub.sto := rfl
  have faults : bit (setBit (setBit s.hub.clk.fault 3) 6) 3 = true ∧ bit (setBit (setBit s.hub.clk.fault 3) 6) 6 = true :=
    ⟨bit_setBit_of_bit 6 (bit_setBit _ 3 (by decide)), bit_setBit _ 6 (by decide)⟩
  generalize failing = g at *
  obtain ⟨forced, clk, sysOf, stoOf⟩ := g.forceHost_parts 1
  obtain ⟨checked, f, clkOf⟩ := (g.forceHost 1).fmcCheck_parts
  refine does_row rfl hp ?_ ?_
  · rw [row]
    exact Hub.onlyIn_trans (Hub.onlyIn_mono noted (by decide)) (Hub.onlyIn_trans forced (Hub.onlyIn_mono checked (by decide)))
  · rw [row, clkOf, checked .sto (by decide), checked .sys (by decide), clk, sysOf, stoOf, sys, sto, fault]
    exact ⟨rfl, mon.1, mon.2, rfl, faults.1, faults.2, rfl⟩

/-- The processor's mux switches, and the control side is reset. -/
theorem muxForcedSwitch_cpu {host : Bool} (hp : s.hub.powered = true) (mux : host = false)
    (locked : s.hub.clk.muxCpu = 1 → s.hub.clk.rootLock = true) :
    Does (.muxForcedSwitch host) s [.sys, .host, .evt, .clk, .jrn, .sto, .tx] fun t => t.sto =
      { s.hub.sto with otpJobs := s.hub.sto.otpJobs.map OtpJob.unasked } ∧ t.clk.muxCpu = 1 - s.hub.clk.muxCpu ∧
      t.clk.fault = setBit s.hub.clk.fault 5 ∧ t.sys.resetCause = setBit s.hub.sys.resetCause 9 ∧ t.sys.fwReady = false ∧
      (∀ m : Nat, m < 8 → (t.host.mbs.get m).state = .offline) := by
  subst mux
  let g := ({ s.hub with clk := { s.hub.clk with muxCpu := 1 - s.hub.clk.muxCpu } } : Hub).clkFault 5
  have row : muxForcedSwitch false s.hub = (g.drainLatched.raise 5 []).controlReset 9 := by
    simp only [muxForcedSwitch, Bool.false_eq_true, if_false]
    exact if_neg fun ⟨rc, unlocked⟩ => unlocked (locked rc)
  have noted : g.onlyIn [.host, .evt, .tx] (g.drainLatched.raise 5 []) := Hub.onlyIn_trans g.drainLatched_onlyIn (Hub.raise_onlyIn _ 5 [])
  have switched : s.hub.onlyIn [.clk] g := by simp [Hub.onlyIn_iff, g, Hub.clkFault]
  have reset := (g.drainLatched.raise 5 []).controlReset_resetBy 9
  obtain ⟨block, pend, sys⟩ := reset.sys
  obtain ⟨gate, clk⟩ := reset.clk
  have sto := reset.sto
  rw [noted .sys (by decide), switched .sys (by decide)] at sys
  rw [noted .clk (by decide)] at clk
  rw [noted .sto (by decide), switched .sto (by decide)] at sto
  refine does_row rfl hp ?_ ?_
  · rw [row]
    exact Hub.onlyIn_trans (Hub.onlyIn_mono switched (by decide)) (Hub.onlyIn_trans (Hub.onlyIn_mono noted (by decide)) reset.only)
  · rw [row, sto, clk, sys]
    exact ⟨rfl, rfl, rfl, rfl, rfl, reset.mbs⟩

theorem gateQuiesceAccept_waits {gate : Fin 64} (hp : s.hub.powered = true) (waits : s.hub.gateWaits gate = true) :
    Does (.gateQuiesceAccept gate) s [.clk, .sys, .host, .tx] fun t => (gate.val ∈ t.clk.gates ↔ s.hub.gateUsed gate = false) ∧
      t.clk = { s.hub.clk with gates := t.clk.gates, gateCmd := t.clk.gateCmd } ∧ t.gateWaits gate = false := by
  let closed : Hub := { s.hub with clk := { s.hub.clk with gates := addGate gate s.hub.clk.gates } }
  have row : gateQuiesceAccept gate s.hub = closed.openUsed.gateSettle gate false := if_pos waits
  have mem : gate.val ∈ closed.openUsed.clk.gates ↔ s.hub.gateUsed gate = false := by
    have added : gate.val ∈ closed.clk.gates := (mem_addGate _ _ _).mpr (.inl rfl)
    rw [Hub.openUsed_gates, Hub.gateUsed_clk]
    exact and_iff_right added
  obtain ⟨only, clk, quiet⟩ := closed.openUsed.gateSettle_parts gate false
  have gates : (closed.openUsed.gateSettle gate false).clk.gates = closed.openUsed.clk.gates := by rw [clk]
  refine does_row rfl hp ?_ ?_
  · rw [row]
    exact Hub.onlyIn_trans (by simp [Hub.onlyIn_iff, closed, Hub.openUsed]) only
  · rw [row]
    exact ⟨gates ▸ mem, by rw [clk]; rfl, quiet⟩

theorem gateQuiesceTimeout_late {gate : Fin 64} (hp : s.hub.powered = true) (waits : s.hub.gateWaits gate = true)
    (late : s.hub.gateLate gate = true) (run : s.hub.clk.held = false) :
    Does (.gateQuiesceTimeout gate) s [.clk, .sys, .host, .evt, .tx] fun t => t.clk.gates = s.hub.clk.gates ∧ t.gateWaits gate = false ∧
      bit t.clk.fault 7 = true ∧ t.evt.count.get 6 = s.hub.evt.count.get 6 + 1 := by
  have row : gateQuiesceTimeout gate s.hub = ((s.hub.clkFault 7).raise 6 (b4 gate)).gateSettle gate true := if_pos (by simp [waits, late])
  have raised := (s.hub.clkFault 7).raise_onlyIn 6 (b4 gate)
  have count := (s.hub.clkFault 7).raise_count_self 6 (b4 gate) run
  have clkOf := (s.hub.clkFault 7).raise_clk 6 (b4 gate)
  have noted : s.hub.onlyIn [.clk, .sys, .host, .evt, .tx] ((s.hub.clkFault 7).raise 6 (b4 gate)) :=
    Hub.onlyIn_trans (Hub.onlyIn_mono (s.hub.clkFault_onlyIn 7) (by decide)) (Hub.onlyIn_mono raised (by decide))
  obtain ⟨only, clk, quiet⟩ := ((s.hub.clkFault 7).raise 6 (b4 gate)).gateSettle_parts gate true
  rw [clkOf] at clk
  refine does_row rfl hp ?_ ?_
  · rw [row]
    exact Hub.onlyIn_trans noted (Hub.onlyIn_mono only (by decide))
  · rw [row]
    refine ⟨by rw [clk]; rfl, quiet, by rw [clk]; exact bit_setBit _ 7 (by decide), ?_⟩
    rw [only .evt (by decide), count]
    rfl

end

/-- Settles O43: each row is its monitor, mux or gate and what that brings. -/
theorem clockRows : Obligations.ClockRows := by
  unfold Obligations.ClockRows
  refine ⟨fun s hp lock ok osc relock => ?_, fun s hp locked => ?_, fun s src count hp ref osc holds same => ?_,
    fun s src hp ref pcie runs => ?_, fun s src hp failed => ?_, fun s hp => ?_, fun s host hp mux => ?_, fun s host hp mux locked => ?_,
    fun s host hp mux rc lock => ?_, fun s gate hp waits => ?_, fun s gate hp waits late run => ?_, fun s gate hp early => ?_,
    fun s gate hp idle => ?_, fun s edges hp busy => ?_⟩
  · have row : rootPllLock s.hub = { s.hub with clk := { s.hub.clk with
        rootLock := true, rootSince := s.hub.xoCycles, memLock := true, rootEver := true
        muxCpu := if s.hub.clk.stopped || s.hub.clk.held then s.hub.clk.muxCpu else 0 } } := by
      have attempted : (s.hub.clk.stopped && s.hub.clk.relockAt.isNone) = false := by
        cases stops : s.hub.clk.stopped
        · rfl
        · simpa using relock stops
      simp only [rootPllLock, lock, ok, osc, attempted]
      rfl
    refine does_row rfl hp ?_ ?_
    · rw [row]
      simp [Hub.onlyIn_iff]
    · rw [row]
  · refine does_nothing (f := rootPllLock) rfl hp (if_pos ?_)
    rcases locked with locked | bad <;> simp [*]
  · have row : clkMonWindow src count s.hub =
        { s.hub with clk := { s.hub.clk with mon := s.hub.clk.mon.put src (s.hub.monWindow src count).1 } } := by
      have monitored : ¬ ((src.val = 3 ∧ s.hub.sys.straps.hostSel = true) ∨ (src.val = 0 ∧ s.hub.clk.oscWait = true)) := by
        rintro (⟨h3, spi⟩ | ⟨h0, waits⟩)
        · exact absurd spi (by simp [ref h3])
        · exact absurd waits (by simp [(osc h0).1])
      have judged : ¬ (src.val = 0 ∧ (s.hub.clk.mon.get src).failed = true ∧ ¬ s.hub.clk.oscSeen = true) := by
        rintro ⟨h0, failed, -⟩
        exact absurd (h0 ▸ failed) (by simp [(osc h0).2])
      unfold clkMonWindow
      dsimp only
      rw [if_neg monitored, if_neg judged, holds, same]
      rfl
    have counted : (s.hub.monWindow src count).1.count = count := by
      unfold Hub.monWindow
      dsimp only
      split <;> rfl
    refine does_row rfl hp ?_ ?_
    · rw [row]
      simp [Hub.onlyIn_iff]
    · rw [row]
      exact ⟨rfl, by simp [counted], fun k hk => by simp [hk]⟩
  · exact clkStopDetect_refclk hp ref pcie runs
  · exact does_nothing (f := clkStopDetect src) rfl hp (if_pos (.inr (.inl failed)))
  · exact does_row rfl hp (by simp [Hub.onlyIn_iff, oscDelayExpiry]) rfl
  · subst mux
    obtain ⟨only, clk, sys, sto⟩ := s.hub.forceHost_parts
      (if s.hub.clk.muxHost = 0 then 1 else if s.hub.clk.muxHost = 1 then 2 else if s.hub.sys.straps.hostSel then 1 else 0)
    refine does_row (f := muxForcedSwitch true) rfl hp only ⟨sto, ?_, ?_, sys⟩
    · exact congrArg ClkSt.muxHost clk
    · exact congrArg ClkSt.fault clk
  · exact muxForcedSwitch_cpu hp mux locked
  · subst mux
    exact does_nothing (f := muxForcedSwitch false) rfl hp (by simp [muxForcedSwitch, rc, lock])
  · exact gateQuiesceAccept_waits hp waits
  · exact gateQuiesceTimeout_late hp waits late run
  · exact does_nothing (f := gateQuiesceTimeout gate) rfl hp (if_neg (by simp [early]))
  · exact does_nothing (f := gateQuiesceAccept gate) rfl hp (if_neg (by simp [idle]))
  · have row : fmcComplete edges s.hub = _ := if_pos busy
    refine does_row rfl hp ?_ ?_
    · rw [row]
      simp [Hub.onlyIn_iff]
    · rw [row]
      simp

end Sys2Proof.Machine

/-! PROOFS. An OTP job whose field an earlier job has programmed (O42). -/
namespace Sys2Proof.Machine

/-- Two jobs for key hash 0 waited. The first has programmed it; the second is at its turn. -/
def secondKeyHash : State where
  pending := []
  hub := { sys := { power := .run }, sto := { otp := { keyHash0 := some [1] }, otpJobs := [.field 0 [2] 0] } }

/-- The second job is refused at its turn, and the field keeps its value (R560). -/
theorem secondKeyHash_otpProgramDone : (otpProgramDone true secondKeyHash.hub).sto.otp.keyHash0 = some [1] := by decide +kernel

/-- Refutes O42: the clause on OTP_PROGRAM_DONE writes the field of every job, whatever stands in it; a field is programmed once (R560), and a
job that finds it programmed is refused with the field as it is. -/
theorem not_flashRows : ¬ Obligations.FlashRows := by
  unfold Obligations.FlashRows
  rintro ⟨-, -, -, -, -, -, field, -⟩
  have written := (field secondKeyHash true 0 [2] 0 [] rfl rfl).of_row rfl rfl
  have same : some [(2 : Word)] = some [1] := calc
    some [(2 : Word)] = (otpProgramDone true secondKeyHash.hub).sto.otp.keyHash0 := by rw [written]; rfl
    _ = some [1] := secondKeyHash_otpProgramDone
  exact absurd same (by decide)

end Sys2Proof.Machine

/-! PROOFS. Security, firmware and self-test commands (O34). -/
namespace Sys2Proof.Machine

/-! ### Handles that complete as they are accepted (R485, R486) -/

/-- While the firmware or the boot ROM answers, a handle that is open completes with its result. -/
theorem Hub.complete_result {h : Hub} {hd : Nat} {x : HSlot} (status : Nat) (ws : List Word) (hr : (h.sys.fwReady || h.sys.recovery) = true)
    (hx : h.slotOf hd = some x) (open_ : x.done = false) :
    ∃ y, (h.complete hd status ws).slotOf hd = some y ∧ y.done = true ∧ y.result = ws := by
  have slot : ((h.host.slots.get (hd % 4096)).held && (h.host.slots.get (hd % 4096)).gen == hd / 4096 && decide (hd % 4096 < 256)) = true ∧
      h.host.slots.get (hd % 4096) = x := by
    unfold Hub.slotOf at hx
    dsimp only at hx
    split at hx
    · next good => exact ⟨good, Option.some.inj hx⟩
    · exact nomatch hx
  obtain ⟨good, rfl⟩ := slot
  unfold Hub.complete
  dsimp only
  rw [if_pos hr]
  unfold Hub.cqWrite
  dsimp only
  rw [hx]
  dsimp only
  rw [if_neg (by simp [open_])]
  obtain ⟨p, host⟩ := Hub.edge_host (h := { h with host := { h.host with
    cq := h.host.cq.puts (8 * (h.host.cqWr % 256)) (cqEntry hd status (h.host.slots.get (hd % 4096)) ws h.host.cqWr h.tb.epoch h.sampleT)
    cqWr := (h.host.cqWr + 1) % 2 ^ 32
    cqStatus := setBit h.host.cqStatus 0
    slots := h.host.slots.put (hd % 4096) { h.host.slots.get (hd % 4096) with done := true, seq := h.host.cqWr % 65536, result := ws } } })
    (bit h.host.cqStatus 0) (bit h.host.cqCtrl 8) (fld h.host.cqCtrl 3 0)
  simp only [Hub.slotOf, host, Tab.get_put, if_true]
  exact ⟨_, if_pos good, rfl, rfl⟩

theorem Hub.freeSlot_lt {h : Hub} {m k : Nat} (hk : h.freeSlot m = some k) : k < 256 := by
  have mem := List.mem_of_find?_eq_some hk
  unfold slotRange at mem
  split at mem
  · obtain ⟨j, hj, rfl⟩ := List.mem_map.mp mem
    have := List.mem_range.mp hj
    omega
  · have := List.mem_range.mp mem
    omega

/-- The slot that a command takes is open under the command's handle. -/
theorem Hub.slotOf_allocSlot {h : Hub} {k : Nat} (hk : k < 256) (opcode : Nat) (tag : Word) (m : Nat) :
    ∃ x, (h.allocSlot k opcode tag m).slotOf ((h.allocSlot k opcode tag m).handleOf k) = some x ∧ x.done = false := by
  have low : ((h.allocSlot k opcode tag m).handleOf k) % 4096 = k := by
    simp only [Hub.handleOf]
    omega
  have high : ((h.allocSlot k opcode tag m).handleOf k) / 4096 = ((h.allocSlot k opcode tag m).host.slots.get k).gen := by
    simp only [Hub.handleOf]
    omega
  simp only [Hub.slotOf, low, high]
  exact ⟨_, if_pos (by simp [Hub.allocSlot, hk]), by simp [Hub.allocSlot]⟩

/-- A long-running command that changes the chapters `cs`, the host interface among them, and lets nothing sent be unsent is accepted with the
next handle of its mailbox; `P` may look at all of the hub in which it is. -/
theorem accepts_of_completes {i : Instr} {s : State} {c : CmdSpec} {mb : Fin 8} {tag : Word} {pl : List Word} {cs : List Chapter}
    {P : Nat → Hub → Prop} (hi : exec i s = s.mailRow c mb tag pl) (ht : s.takes c mb tag pl = true)
    (hl : c.long (s.hub.executing c mb tag pl) pl = true) (hc : .host ∈ cs)
    (hr : ∀ g hd x, s.hub.onlyIn [.host] g → g.slotOf hd = some x → x.done = false → ∃ f, c.run g (.of mb tag pl hd) = { hub := f } ∧
      g.Sends cs f ∧ ∀ crc, P hd (f.answered mb ACCEPTED hd tag [] crc)) :
    Accepts i s mb tag cs P := by
  have checks := ht
  simp only [State.takes, Bool.and_eq_true, Option.isNone_iff_eq_none] at checks
  obtain ⟨k, hk⟩ := Hub.freeSlot_of_checkCmd hl checks.2
  have mailed := Hub.onlyIn_trans (s.hub.executing_onlyIn c mb tag pl) (Hub.allocSlot_onlyIn _ k c.opcode tag mb)
  obtain ⟨x, held, open_⟩ := (s.hub.executing c mb tag pl).slotOf_allocSlot (Hub.freeSlot_lt hk) c.opcode tag mb
  have handle := Hub.nextHandle_executing hk
  refine ⟨_, _, hi.trans (s.mailRow_takes c mb tag pl ht), rfl, handle, ?_⟩
  rw [Hub.ran_long _ hl hk]
  generalize (s.hub.executing c mb tag pl).allocSlot k c.opcode tag mb = g at mailed held
  obtain ⟨f, run, sends, hP⟩ := hr g (g.handleOf k) x mailed held open_
  have tx : g.tx = s.hub.tx := mailed .tx (by decide)
  have frame : s.hub.onlyIn (.host :: .tx :: cs) f :=
    Hub.onlyIn_trans (Hub.onlyIn_mono mailed (by simp)) (Hub.onlyIn_mono sends.only (List.subset_cons_self _ _))
  rw [run]
  exact ⟨f.answered_response .., Hub.answered_mailFrame_of_tx _ tag _ _ frame (absurd hc) (tx ▸ sends.tx) (by decide), hP _⟩

/-- An event among what a command does. -/
theorem Hub.raise_sends (h : Hub) (ev : Nat) (data : List Byte) : h.Sends [.host, .evt] (h.raise ev data) :=
  ⟨Hub.onlyIn_mono (h.raise_onlyIn ev data) (by decide), h.raise_tx ev data⟩

theorem Hub.complete_sends (h : Hub) (hd status : Nat) (ws : List Word) : h.Sends [.host] (h.complete hd status ws) :=
  .complete (h.onlyIn_refl [.host]) (by decide) (by decide) hd status ws

theorem Hub.Sends.of_onlyIn {h g : Hub} {cs : List Chapter} (hg : h.onlyIn cs g) (hx : .tx ∉ cs) : h.Sends cs g :=
  ⟨Hub.onlyIn_mono hg (List.subset_cons_self _ _), (hg .tx hx : g.tx = h.tx) ▸ List.prefix_refl _⟩

/-- The firmware, or the boot ROM, answers when a command is taken. -/
theorem State.ready_of_takes {s : State} {c : CmdSpec} {mb : Fin 8} {tag : Word} {pl : List Word} (ht : s.takes c mb tag pl = true) :
    (s.hub.sys.fwReady || s.hub.sys.recovery) = true := by
  have canTake := ((s.reaches_iff _ _).mp (Bool.and_eq_true_iff.mp ht).1).canTake
  simp only [Hub.canTake, Bool.and_eq_true] at canTake
  exact canTake.1.1

section
variable {s : State} {mb : Fin 8} {tag : Word} {pl : List Word}

/-! ### Security (R558 to R560) -/

theorem secStatus_answers (ht : s.takes secStatus mb tag pl = true) :
    Answers (.secStatus mb tag pl) s mb tag DONE [] fun ws _ => ws.drop 1 = [wd s.hub.sto.otp.rollback, wd s.hub.sto.jtagFails] := by
  refine answers_of_run (c := secStatus) rfl ht rfl rfl rfl rfl (by decide) (by decide) (Hub.onlyIn_refl _ _) fun t _ => ?_
  simp [secStatus]

theorem secJtagChallenge_answers (ht : s.takes secJtagChallenge mb tag pl = true) :
    Answers (.secJtagChallenge mb tag pl) s mb tag DONE [.sto, .free] fun ws t => t.sto =
      { s.hub.sto with nonce := some (Config.random s.hub.free, s.hub.xoCycles) } ∧ ws = wordsOf 4 (Config.random s.hub.free) ++ [lo32
      Config.serial.toNat, hi32 Config.serial.toNat] ∧ t.free = s.hub.free + 1 := by
  refine answers_of_run (c := secJtagChallenge) rfl ht rfl rfl rfl rfl (by decide) (by decide) ?_ fun t h => ?_
  · simp [Hub.onlyIn_iff, secJtagChallenge, Hub.draw]
  · rw [show t.sto = _ from h .sto (by decide), show t.free = _ from h .free (by decide)]
    simp [secJtagChallenge, Hub.draw, Hub.xoCycles]

/-- The MAC of a SEC_JTAG_UNLOCK is right, and the lock can be opened. -/
def Hub.jtagGood (h : Hub) (pl : List Word) : Bool := h.jtagState != 3 && decide (h.sto.jtagFails < 3) && h.jtagMac == some (bytesOf pl)

theorem Hub.jtagGood_congr {h g : Hub} (pl : List Word) (hs : g.sto = h.sto) (ht : g.tb = h.tb) : g.jtagGood pl = h.jtagGood pl := by
  unfold Hub.jtagGood Hub.jtagState Hub.jtagMac Hub.xoCycles
  rw [hs, ht]

theorem secJtagUnlock_run (g : Hub) : secJtagUnlock.run g (.of mb tag pl 0) =
    if g.jtagGood pl then { hub := ({ g with sto := { g.sto with unlocked := true } }).raise 18 [] }
    else { hub := { g with sto := { g.sto with jtagFails := g.sto.jtagFails + 1 } }, status := NOT_PERMITTED } := rfl

theorem secJtagUnlock_wait (g : Hub) (c : CmdIn) : (secJtagUnlock.run g c).wait = false := by
  simp only [secJtagUnlock]
  split <;> rfl

/-- SEC_JTAG_UNLOCK unlocks with the right MAC, and counts a failure otherwise (R559). -/
theorem secJtagUnlock_responds (ht : s.takes secJtagUnlock mb tag pl = true) :
    ∃ t ws, exec (.secJtagUnlock mb tag pl) s = .next t ∧ t.pending = s.pending ∧ t.hub.response mb.val (if s.hub.jtagState ≠ 3 ∧
      s.hub.sto.jtagFails < 3 ∧ s.hub.jtagMac = some (bytesOf pl) then DONE else NOT_PERMITTED) 0 tag ws ∧
      (t.hub.sto = if s.hub.jtagState ≠ 3 ∧ s.hub.sto.jtagFails < 3 ∧
      s.hub.jtagMac = some (bytesOf pl) then { s.hub.sto with unlocked := true } else
      { s.hub.sto with jtagFails := s.hub.sto.jtagFails + 1 }) ∧ s.hub.onlyIn [.host, .sys, .clk, .tx, .sto, .evt] t.hub := by
  have ran := Hub.ran_short (g := s.hub.executing secJtagUnlock mb tag pl) (mb := mb) (tag := tag) (pl := pl)
    (bit (cmdHeader secJtagUnlock.opcode pl.length) 16) rfl rfl (secJtagUnlock_wait _ _)
  refine ⟨_, (secJtagUnlock.run (s.hub.executing secJtagUnlock mb tag pl) (.of mb tag pl 0)).words,
    State.mailRow_takes s secJtagUnlock mb tag pl ht, rfl, ?_⟩
  rw [ran]
  have good : s.hub.jtagGood pl = true ↔ s.hub.jtagState ≠ 3 ∧ s.hub.sto.jtagFails < 3 ∧ s.hub.jtagMac = some (bytesOf pl) := by
    simp [Hub.jtagGood, and_assoc]
  have same := Hub.jtagGood_congr pl (Hub.executing_sto s.hub secJtagUnlock mb tag pl) (Hub.executing_tb s.hub secJtagUnlock mb tag pl)
  have sto : (s.hub.executing secJtagUnlock mb tag pl).sto = s.hub.sto := Hub.executing_sto ..
  have taken := s.hub.executing_onlyIn secJtagUnlock mb tag pl
  generalize s.hub.executing secJtagUnlock mb tag pl = g at *
  rw [secJtagUnlock_run, same]
  split
  · next ok =>
    rw [if_pos (good.mp ok), if_pos (good.mp ok)]
    refine ⟨Hub.answered_response .., ?_, ?_⟩
    · rw [show Hub.sto _ = _ from Hub.answered_onlyIn _ _ _ _ _ _ _ .sto (by decide), Hub.raise_sto, sto]
    · exact Hub.onlyIn_trans (Hub.onlyIn_mono taken (by decide)) (Hub.onlyIn_trans (by simp [Hub.onlyIn_iff])
        (Hub.onlyIn_mono (Hub.answered_onlyIn _ _ _ _ _ _ _) (by decide)))
  · next bad =>
    rw [if_neg (mt good.mpr bad), if_neg (mt good.mpr bad)]
    refine ⟨Hub.answered_response .., ?_, ?_⟩
    · rw [show Hub.sto _ = _ from Hub.answered_onlyIn _ _ _ _ _ _ _ .sto (by decide), sto]
    · exact Hub.onlyIn_trans (Hub.onlyIn_mono taken (by decide)) (Hub.onlyIn_trans (by simp [Hub.onlyIn_iff])
        (Hub.onlyIn_mono (Hub.answered_onlyIn _ _ _ _ _ _ _) (by decide)))

theorem secOtpProgram_accepts (ht : s.takes secOtpProgram mb tag pl = true) (key : pw pl 1 = 0x0A5C0E04)
    (fits : s.hub.sto.otp.refuses (fld (pw pl 0) 2 0) (pl.drop 2) = false) :
    Accepts (.secOtpProgram mb tag pl) s mb tag [.sto] fun hd t => t.sto =
      { s.hub.sto with otpJobs := s.hub.sto.otpJobs ++ [.field (fld (pw pl 0) 2 0) (pl.drop 2) hd] } := by
  refine accepts_of_run (c := secOtpProgram) rfl ht rfl (by decide) fun g hd hg => ?_
  have sto : g.sto = s.hub.sto := hg .sto (by decide)
  have run : secOtpProgram.run g (.of mb tag pl hd) = { hub := { g with sto := { g.sto with
      otpJobs := g.sto.otpJobs ++ [.field (fld (pw pl 0) 2 0) (pl.drop 2) hd] } } } := by
    simp only [secOtpProgram, CmdIn.of, key, sto, fits, Bool.and_false]
    rfl
  refine ⟨_, run, by simp [Hub.onlyIn_iff], fun t h => ?_⟩
  rw [show t.sto = _ from h .sto (by decide), sto]

/-! ### Firmware (R561 to R563) -/

theorem fwWrite_answers (ht : s.takes fwWrite mb tag pl = true) :
    Answers (.fwWrite mb tag pl) s mb tag DONE [.sto] fun _ t => t.sto =
      { s.hub.sto with fwStage := s.hub.sto.fwStage.puts (pw pl 1).toNat (pl.drop 2) } := by
  refine answers_of_run (c := fwWrite) rfl ht rfl rfl rfl rfl (by decide) (by decide) ?_ fun t h => ?_
  · simp [Hub.onlyIn_iff, fwWrite]
  · rw [show t.sto = _ from h .sto (by decide)]
    simp [fwWrite, CmdIn.of]

/-- The checks of an image read the staging area and the OTP (R542, R562). -/
theorem Hub.verifyReason_congr {h g : Hub} (e : g.sto = h.sto) : g.verifyReason = h.verifyReason ∧ g.stageSlot = h.stageSlot := by
  unfold Hub.verifyReason Hub.stageSlot Hub.stageBytes
  rw [e]
  exact ⟨rfl, rfl⟩

/-- The slot that FW_VERIFY programs: in recovery the one named, else the one that does not run. -/
def Hub.verifySlot (h : Hub) (pl : List Word) : Bool := if h.sys.recovery then bit (pw pl 0) 0 else !h.sys.slotB

/-- Slot `b` is invalid until its image is programmed. -/
def Hub.programs (h : Hub) (b : Bool) (i : Slot) (hd : Nat) : Hub :=
  let k := h.setSlot b {}
  { k with sto := { k.sto with jobs := k.sto.jobs ++ [.image b i hd] } }

theorem Hub.programs_onlyIn (h : Hub) (b : Bool) (i : Slot) (hd : Nat) : h.onlyIn [.sto] (h.programs b i hd) := by
  simp [Hub.onlyIn_iff, Hub.programs, Hub.setSlot]

theorem Hub.programs_jobs (h : Hub) (b : Bool) (i : Slot) (hd : Nat) : (h.programs b i hd).sto.jobs = h.sto.jobs ++ [.image b i hd] := by
  cases b <;> rfl

theorem fwVerify_good {g : Hub} {hd : Nat} (good : g.verifyReason = 0) :
    fwVerify.run g (.of mb tag pl hd) = { hub := g.programs (g.verifySlot pl) g.stageSlot hd } := if_neg (by simp [good])

theorem fwVerify_bad {g : Hub} {hd : Nat} (bad : g.verifyReason ≠ 0) : fwVerify.run g (.of mb tag pl hd) =
    { hub := (g.raise 16 []).complete hd HW_FAULT (verifyResult g.verifyReason (g.verifySlot pl) g.stageSlot) } := if_pos bad

theorem fwVerify_accepts (ht : s.takes fwVerify mb tag pl = true) :
    Accepts (.fwVerify mb tag pl) s mb tag [.sto, .evt, .host] fun hd t => (s.hub.verifyReason = 0 →
      t.sto.jobs = s.hub.sto.jobs ++ [.image (if s.hub.sys.recovery then bit (pw pl 0) 0 else !s.hub.sys.slotB) s.hub.stageSlot hd]) ∧
      (s.hub.verifyReason ≠ 0 → t.sto = s.hub.sto ∧ (t.slotOf hd).all fun y => y.done && y.result.getD 0 0 == wd s.hub.verifyReason) := by
  refine accepts_of_completes (c := fwVerify) rfl ht rfl (by decide) fun g hd x hg held open_ => ?_
  have sto : g.sto = s.hub.sto := hg .sto (by decide)
  have sys : g.sys = s.hub.sys := hg .sys (by decide)
  obtain ⟨reason, slot⟩ := Hub.verifyReason_congr sto
  have named : g.verifySlot pl = if s.hub.sys.recovery then bit (pw pl 0) 0 else !s.hub.sys.slotB := by rw [Hub.verifySlot, sys]
  by_cases good : g.verifyReason = 0
  · refine ⟨_, fwVerify_good good, .of_onlyIn (Hub.onlyIn_mono (g.programs_onlyIn _ _ hd) (by decide)) (by decide),
      fun crc => ⟨fun _ => ?_, fun bad => absurd (reason ▸ good) bad⟩⟩
    rw [show Hub.sto _ = _ from Hub.answered_onlyIn _ _ _ _ _ _ crc .sto (by decide), g.programs_jobs, ← named, ← slot, ← sto]
  · have ready : ((g.raise 16 []).sys.fwReady || (g.raise 16 []).sys.recovery) = true := by
      rw [Hub.raise_sys, sys]
      exact State.ready_of_takes ht
    have slots : (g.raise 16 []).host.slots = g.host.slots := by
      obtain ⟨p, host⟩ := g.raise_host 16 []
      rw [host]
    obtain ⟨y, done, ends, result⟩ := Hub.complete_result HW_FAULT (verifyResult g.verifyReason (g.verifySlot pl) g.stageSlot) ready
      ((Hub.slotOf_congr slots hd).trans held) open_
    refine ⟨_, fwVerify_bad good, ?_, fun crc => ⟨fun none => absurd (reason.trans none) good, fun _ => ⟨?_, ?_⟩⟩⟩
    · exact ((g.raise_sends 16 []).mono (by decide)).trans ((Hub.complete_sends _ _ _ _).mono (by decide))
    · rw [show Hub.sto _ = _ from Hub.answered_onlyIn _ _ _ _ _ _ crc .sto (by decide), Hub.complete_sto, Hub.raise_sto, sto]
    · rw [Hub.slotOf_congr (Hub.answered_slots ..), done]
      simp [ends, result, verifyResult, reason]

/-- FW_SWITCH into a slot: it completes, and the control reset into the slot is asked for (R563). -/
def Hub.switches (h : Hub) (b : Bool) (t : Option Nat) (hd : Nat) : Hub :=
  let k := ({ h with sto := { h.sto with trialFailed := false } } : Hub)
  let k := k.complete hd DONE (k.switchResult b)
  ({ k with sys := { k.sys with pendingReset := some (.slotSwitch b t), pendingMb := 8, resetDue := k.xoCycles + 49152 } } : Hub).raise 15 []

theorem Hub.switches_sends (h : Hub) (b : Bool) (t : Option Nat) (hd : Nat) : h.Sends [.sto, .evt, .host, .sys] (h.switches b t hd) := by
  have cleared : h.Sends [.sto, .evt, .host, .sys] { h with sto := { h.sto with trialFailed := false } } :=
    .of_onlyIn (by simp [Hub.onlyIn_iff]) (by decide)
  have asked : ∀ (k : Hub) (x : SysSt), k.Sends [.sto, .evt, .host, .sys] { k with sys := x } := fun k x =>
    .of_onlyIn (by simp [Hub.onlyIn_iff]) (by decide)
  have completes : ∀ (k : Hub) ws, k.Sends [.sto, .evt, .host, .sys] (k.complete hd DONE ws) := fun k ws =>
    (k.complete_sends hd DONE ws).mono (by decide)
  exact ((cleared.trans (completes _ _)).trans (asked _ _)).trans ((Hub.raise_sends _ _ _).mono (by decide))

theorem Hub.switches_pendingReset (h : Hub) (b : Bool) (t : Option Nat) (hd : Nat) :
    (h.switches b t hd).sys.pendingReset = some (.slotSwitch b t) := by
  simp [Hub.switches]

/-- FW_SWITCH into the other slot on trial, or back into the default slot. -/
theorem fwSwitch_switches {g : Hub} {hd : Nat} (hm : fld (pw pl 0) 1 0 ≠ 1) : fwSwitch.run g (.of mb tag pl hd) =
    { hub := g.switches (if fld (pw pl 0) 1 0 = 0 then !g.sys.slotB else g.sto.defaultB)
        (if fld (pw pl 0) 1 0 = 0 then some (pw pl 1).toNat else none) hd } := if_neg hm

/-- A COMMIT writes the boot selection. -/
theorem fwSwitch_commits {g : Hub} {hd : Nat} (hm : fld (pw pl 0) 1 0 = 1) : fwSwitch.run g (.of mb tag pl hd) =
    { hub := { g with sto := { g.sto with trialFailed := false, jobs := g.sto.jobs ++
        [.bootCtl 1 (if g.sys.recovery then g.sto.recVerified.getD false else g.sys.slotB) 0 hd] } } } := if_pos hm

theorem fwSwitch_accepts (ht : s.takes fwSwitch mb tag pl = true) :
    Accepts (.fwSwitch mb tag pl) s mb tag [.sto, .evt, .host, .sys] fun hd t => (fld (pw pl 0) 1 0 = 1 →
      t.sto.jobs = s.hub.sto.jobs ++ [.bootCtl 1 (if s.hub.sys.recovery then s.hub.sto.recVerified.getD false else s.hub.sys.slotB) 0 hd] ∧
      t.sys.pendingReset = s.hub.sys.pendingReset) ∧ (fld (pw pl 0) 1 0 = 0 → t.sys.pendingReset = some (.slotSwitch (!s.hub.sys.slotB)
      (some (pw pl 1).toNat))) ∧ (fld (pw pl 0) 1 0 = 2 → t.sys.pendingReset = some (.slotSwitch s.hub.sto.defaultB none)) := by
  refine accepts_of_completes (c := fwSwitch) rfl ht rfl (by decide) fun g hd x hg _ _ => ?_
  have sto : g.sto = s.hub.sto := hg .sto (by decide)
  have sys : g.sys = s.hub.sys := hg .sys (by decide)
  by_cases hm : fld (pw pl 0) 1 0 = 1
  · refine ⟨_, fwSwitch_commits hm, .of_onlyIn (by simp [Hub.onlyIn_iff]) (by decide), fun crc => ⟨fun _ => ⟨?_, ?_⟩, fun h0 => ?_, fun h2 => ?_⟩⟩
    · rw [show Hub.sto _ = _ from Hub.answered_onlyIn _ _ _ _ _ _ crc .sto (by decide), sto, sys]
    · rw [Hub.answered_sys, sys]
    · exact absurd (hm.symm.trans h0) (by decide)
    · exact absurd (hm.symm.trans h2) (by decide)
  · refine ⟨_, fwSwitch_switches hm, g.switches_sends _ _ hd, fun crc => ⟨fun h1 => absurd h1 hm, fun h0 => ?_, fun h2 => ?_⟩⟩
    · rw [Hub.answered_sys, if_pos h0, g.switches_pendingReset, sys, if_pos h0]
    · rw [Hub.answered_sys, if_neg (by omega), g.switches_pendingReset, sto, if_neg (by omega)]

/-! ### Flash, DRAM and self-tests (R564 to R566) -/

theorem flashStatus_answers (ht : s.takes flashStatus mb tag pl = true) :
    Answers (.flashStatus mb tag pl) s mb tag DONE [] fun ws _ => ws.length = 8 ∧ ws.getD 0 0 = wd (flag s.hub.sto.saveDisabled 0 +
      s.hub.sto.spares * 256 + flag s.hub.sto.slotA.valid 16 + flag s.hub.sto.slotB.valid 17 + flag s.hub.sto.defaultB 18) := by
  refine answers_of_run (c := flashStatus) rfl ht rfl rfl rfl rfl (by decide) (by decide) (Hub.onlyIn_refl _ _) fun t _ => ?_
  simp [flashStatus, tWords]

theorem dramRetiredRead_answers (ht : s.takes dramRetiredRead mb tag pl = true) :
    Answers (.dramRetiredRead mb tag pl) s mb tag DONE [] fun ws _ => ws = wd s.hub.retiredPages.length :: ((s.hub.retiredPages.drop (fld
      (pw pl 0) 19 0)).take (fld (pw pl 0) 31 24)).map wd := by
  refine answers_of_run (c := dramRetiredRead) rfl ht rfl rfl rfl rfl (by decide) (by decide) (Hub.onlyIn_refl _ _) fun t _ => ?_
  simp [dramRetiredRead, CmdIn.of, Hub.retiredPages]

theorem selftest_accepts (ht : s.takes selftest mb tag pl = true) :
    Accepts (.selftest mb tag pl) s mb tag [.sto] fun hd t => t.sto =
      { s.hub.sto with selftests := s.hub.sto.selftests ++ [(hd, fld (pw pl 0) 4 0)] } := by
  refine accepts_of_run (c := selftest) rfl ht rfl (by decide) fun g hd hg => ⟨_, rfl, by simp [Hub.onlyIn_iff], fun t h => ?_⟩
  rw [show t.sto = _ from h .sto (by decide), show g.sto = _ from hg .sto (by decide)]
  rfl

end

/-- Settles O34: each command is answered or accepted as its lemma says. -/
theorem securityCommands : Obligations.SecurityCommands :=
  ⟨fun _ _ _ _ ht => secStatus_answers ht, fun _ _ _ _ ht => secJtagChallenge_answers ht, fun _ _ _ _ ht => secJtagUnlock_responds ht,
    fun _ _ _ _ ht key fits => secOtpProgram_accepts ht key fits, fun _ _ _ _ ht => fwWrite_answers ht, fun _ _ _ _ ht => fwVerify_accepts ht,
    fun _ _ _ _ ht => fwSwitch_accepts ht, fun _ _ _ _ ht => flashStatus_answers ht, fun _ _ _ _ ht => dramRetiredRead_answers ht,
    fun _ _ _ _ ht => selftest_accepts ht⟩

end Sys2Proof.Machine


/-! PROOFS. Line 9 of the time-interval unit, and the lanes and ports that measure on it (R291, R389, R409, R418). -/
namespace Sys2Proof.Machine

/-! ### Lanes and their frames (R392) -/

@[simp] theorem Hub.setLane_lane (h : Hub) (n k : Nat) (x : Lane) : (h.setLane n x).lane k = if k = n then x else h.lane k := by
  simp [Hub.setLane, Hub.lane]

@[simp] theorem Hub.setLane_cPort (h : Hub) (n p : Nat) (x : Lane) : (h.setLane n x).cPort p = h.cPort p := rfl
@[simp] theorem Hub.setCPort_lane (h : Hub) (p n : Nat) (k : CascPort) : (h.setCPort p k).lane n = h.lane n := rfl
@[simp] theorem Hub.send_lane (h : Hub) (x : Tx) (n : Nat) : (h.send x).lane n = h.lane n := rfl
@[simp] theorem Hub.setLane_laneCfg (h : Hub) (n k : Nat) (x : Lane) : (h.setLane n x).laneCfg k = h.laneCfg k := rfl
@[simp] theorem Hub.setLane_xoCycles (h : Hub) (n : Nat) (x : Lane) : (h.setLane n x).xoCycles = h.xoCycles := rfl
@[simp] theorem Hub.setLane_tiu (h : Hub) (n : Nat) (x : Lane) : (h.setLane n x).tiu = h.tiu := rfl
@[simp] theorem Hub.setLane_tx (h : Hub) (n : Nat) (x : Lane) : (h.setLane n x).tx = h.tx := rfl

@[simp] theorem Hub.laneSend_lane (h : Hub) (n type sub k : Nat) (payload : List Byte) :
    (h.laneSend n type sub payload).lane k = if k = n then { h.lane n with cseq := ((h.lane n).cseq + 1) % 2 ^ 32 } else h.lane k := by
  simp [Hub.laneSend]

@[simp] theorem Hub.laneSend_tiu (h : Hub) (n type sub : Nat) (payload : List Byte) : (h.laneSend n type sub payload).tiu = h.tiu := rfl
@[simp] theorem Hub.laneSend_xoCycles (h : Hub) (n type sub : Nat) (payload : List Byte) :
    (h.laneSend n type sub payload).xoCycles = h.xoCycles := rfl

theorem Hub.laneSend_onlyIn (h : Hub) (n type sub : Nat) (payload : List Byte) : h.onlyIn [.sl, .tx] (h.laneSend n type sub payload) := by
  simp [Hub.onlyIn_iff, Hub.laneSend, Hub.setLane]

/-- One frame with the lane's next CSEQ leaves. -/
theorem Hub.laneSend_tx (h : Hub) (n type sub : Nat) (payload : List Byte) :
    ∃ b, (h.laneSend n type sub payload).tx = h.tx ++ [.lane n type sub (h.lane n).cseq b] := ⟨_, rfl⟩

theorem Hub.sends_eq (h : Hub) {α : Type} (l : List α) (x : Tx) :
    l.foldl (fun h _ => h.send x) h = { h with tx := h.tx ++ List.replicate l.length x } := by
  induction l generalizing h with
  | nil => simp
  | cons a l ih => rw [List.foldl_cons, ih]; simp [Hub.send, List.replicate_succ]

/-! ### Probes (R389, R409, R436) -/

/-- A lane but for what a probe moves on it. -/
def Lane.steady (x : Lane) : Lane := { x with unanswered := 0, stepAt := 0, use := { x.use with asym := 0 } }
/-- A cascade port but for what a probe moves on it. -/
def CascPort.steady (k : CascPort) : CascPort := { k with unanswered := 0, stepAt := 0, use := { k.use with asym := 0 } }

/-- A lane whose probes have left. -/
def Hub.probedLane (h : Hub) (r : Nat) : Lane :=
  { h.lane r with
    unanswered := if h.probesOf r == 1 then (h.lane r).unanswered + 1 else (h.lane r).unanswered
    stepAt := if h.probesOf r == 1 then (h.lane r).stepAt else h.xoCycles
    use := { (h.lane r).use with asym := (h.laneCfg r).asym } }
/-- Port U when its probes have left. -/
def Hub.probedPort (h : Hub) (r : Nat) : CascPort :=
  { h.cPort 0 with
    unanswered := if h.probesOf r == 1 then (h.cPort 0).unanswered + 1 else (h.cPort 0).unanswered
    stepAt := if h.probesOf r == 1 then (h.cPort 0).stepAt else h.xoCycles
    use := { (h.cPort 0).use with asym := (h.cPortCfg 0).asym } }

theorem Hub.probeSend_lane_eq (h : Hub) {r : Nat} (hr : r < 16) :
    h.probeSend r = { ({ h with tiu := { h.tiu with line9At := h.xoCycles } } : Hub).setLane r (h.probedLane r) with
                      tx := h.tx ++ List.replicate (h.probesOf r) (.symbol r 0x1C 0) } := by
  have same : ∀ t : TiuSt, (({ h with tiu := t } : Hub).setLane r (h.probedLane r)).probesOf r = h.probesOf r := fun t => by
    simp [Hub.probesOf, hr, Hub.probedLane]
  simp only [Hub.probeSend, if_pos hr]
  rw [Hub.sends_eq, List.length_range]
  exact congrArg (fun n => { ({ h with tiu := { h.tiu with line9At := h.xoCycles } } : Hub).setLane r (h.probedLane r) with
    tx := h.tx ++ List.replicate n (Tx.symbol r 0x1C 0) }) (same _)

theorem Hub.probeSend_port_eq (h : Hub) {r : Nat} (hr : ¬ r < 16) :
    h.probeSend r = { ({ h with tiu := { h.tiu with line9At := h.xoCycles } } : Hub).setCPort 0 (h.probedPort r) with
                      tx := h.tx ++ List.replicate (h.probesOf r) (.csymbol 0 0 0x1C 0) } := by
  have same : ∀ t : TiuSt, (({ h with tiu := t } : Hub).setCPort 0 (h.probedPort r)).probesOf r = h.probesOf r := fun t => by
    simp [Hub.probesOf, hr, Hub.probedPort]
  simp only [Hub.probeSend, if_neg hr]
  rw [Hub.sends_eq, List.length_range]
  exact congrArg (fun n => { ({ h with tiu := { h.tiu with line9At := h.xoCycles } } : Hub).setCPort 0 (h.probedPort r) with
    tx := h.tx ++ List.replicate n (Tx.csymbol 0 0 0x1C 0) }) (same _)

/-! ### Line 9 changes hands (R291) -/

/-- From `h` to `g` line 9 changed hands: probes left, and what they move on lanes and ports changed. -/
structure Hub.Probes (h g : Hub) : Prop where
  only : h.onlyIn [.tiu, .sl, .casc, .tx] g
  tx : h.tx <+: g.tx
  lane : ∀ n, (g.lane n).steady = (h.lane n).steady
  port : ∀ p, (g.cPort p).steady = (h.cPort p).steady

theorem Hub.Probes.refl (h : Hub) : h.Probes h := ⟨h.onlyIn_refl _, List.prefix_refl _, fun _ => rfl, fun _ => rfl⟩

theorem Hub.Probes.trans {h g t : Hub} (hg : h.Probes g) (gt : g.Probes t) : h.Probes t :=
  ⟨Hub.onlyIn_trans hg.only gt.only, hg.tx.trans gt.tx, fun n => (gt.lane n).trans (hg.lane n), fun p => (gt.port p).trans (hg.port p)⟩

theorem Hub.Probes.raises {h g : Hub} (hg : h.Probes g) : h.Raises [.tiu, .sl, .casc] g :=
  ⟨Hub.onlyIn_mono hg.only (by decide), ⟨h.host.pba, hg.only .host (by decide)⟩, hg.tx⟩

theorem Hub.Probes.st {h g : Hub} (hg : h.Probes g) (n : Nat) : (g.lane n).st = (h.lane n).st := (congrArg Lane.st (hg.lane n) :)
theorem Hub.Probes.step {h g : Hub} (hg : h.Probes g) (n : Nat) : (g.lane n).step = (h.lane n).step := (congrArg Lane.step (hg.lane n) :)

theorem Hub.probes_tiu (h : Hub) (t : TiuSt) : h.Probes { h with tiu := t } :=
  ⟨by simp [Hub.onlyIn_iff], List.prefix_refl _, fun _ => rfl, fun _ => rfl⟩

theorem Hub.probeSend_probes (h : Hub) (r : Nat) : h.Probes (h.probeSend r) := by
  by_cases hr : r < 16
  · rw [h.probeSend_lane_eq hr]
    refine ⟨by simp [Hub.onlyIn_iff, Hub.setLane], List.prefix_append _ _, fun n => ?_, fun _ => rfl⟩
    change Lane.steady (Hub.lane (Hub.setLane _ r _) n) = _
    rw [Hub.setLane_lane]
    split
    · next e => rw [e]; rfl
    · rfl
  · rw [h.probeSend_port_eq hr]
    refine ⟨by simp [Hub.onlyIn_iff, Hub.setCPort], List.prefix_append _ _, fun _ => rfl, fun p => ?_⟩
    change CascPort.steady (Hub.cPort (Hub.setCPort _ 0 _) p) = _
    rw [Hub.setCPort_cPort]
    split
    · next e => rw [e]; rfl
    · rfl

theorem Hub.probeSend_other (h : Hub) {r n : Nat} (hn : n ≠ r) : (h.probeSend r).lane n = h.lane n := by
  by_cases hr : r < 16
  · rw [h.probeSend_lane_eq hr]
    exact (Hub.setLane_lane _ r n _).trans (if_neg hn)
  · rw [h.probeSend_port_eq hr]
    rfl

@[simp] theorem Hub.probeSend_line9 (h : Hub) (r : Nat) : (h.probeSend r).tiu.line9 = h.tiu.line9 := by
  by_cases hr : r < 16
  · rw [h.probeSend_lane_eq hr]
    rfl
  · rw [h.probeSend_port_eq hr]
    rfl

theorem Hub.line9Go_probes (h : Hub) (rs : List Nat) : h.Probes (h.line9Go rs) := by
  induction rs with
  | nil => exact h.probes_tiu _
  | cons r rs ih =>
    rw [Hub.line9Go]
    split
    · exact ih
    · exact (h.probes_tiu _).trans (Hub.probeSend_probes _ r)

/-- A lane that does not wait for the line is not probed. -/
theorem Hub.line9Go_lane (h : Hub) {rs : List Nat} {n : Nat} (hn : n ∉ rs) : (h.line9Go rs).lane n = h.lane n := by
  induction rs with
  | nil => rfl
  | cons r rs ih =>
    obtain ⟨hr, hrs⟩ := not_or.mp (List.mem_cons.not.mp hn)
    rw [Hub.line9Go]
    split
    · exact ih hrs
    · exact Hub.probeSend_other _ hr

/-- The line goes to the first of those who wait that still measures, and the rest keep waiting. -/
theorem Hub.line9Go_mem (h : Hub) {rs : List Nat} {n : Nat} (hn : n ∈ rs) (hp : h.probesOf n ≠ 0) : n ∈ (h.line9Go rs).tiu.line9 := by
  induction rs with
  | nil => cases hn
  | cons r rs ih =>
    rw [Hub.line9Go]
    split
    · next idle =>
      refine ih ((List.mem_cons.mp hn).resolve_left fun e => hp (e ▸ idle))
    · simpa using hn

theorem Hub.line9Next_probes (h : Hub) : h.Probes h.line9Next := h.line9Go_probes _

theorem Hub.line9Free_probes (h : Hub) (r : Nat) : h.Probes (h.line9Free r) := by
  unfold Hub.line9Free
  split
  · exact h.line9Next_probes
  · exact h.probes_tiu _

/-- A requester that does not hold the line only leaves the queue for it. -/
theorem Hub.line9Free_lane (h : Hub) {r : Nat} (hr : h.tiu.line9.head? ≠ some r) (n : Nat) : (h.line9Free r).lane n = h.lane n := by
  rw [Hub.line9Free, if_neg hr]
  rfl

theorem Hub.line9Ask_probes (h : Hub) (r : Nat) : h.Probes (h.line9Ask r) := by
  unfold Hub.line9Ask
  extract_lets g
  have stale : h.Probes g := by
    unfold g
    split
    · exact h.line9Next_probes
    · exact .refl h
  clear_value g
  split_ifs
  · exact stale.trans (g.line9Go_probes _)
  · exact stale
  · exact stale.trans (g.probes_tiu _)

/-- What a lane or port that measures has to send does not change when line 9 changes hands. -/
theorem Hub.Probes.probesOf {h g : Hub} (hg : h.Probes g) (r : Nat) : g.probesOf r = h.probesOf r := by
  have st : (g.cPort 0).st = (h.cPort 0).st := (congrArg CascPort.st (hg.port 0) :)
  have step : (g.cPort 0).step = (h.cPort 0).step := (congrArg CascPort.step (hg.port 0) :)
  simp only [Hub.probesOf, hg.st, hg.step, st, step]

/-- One that has something to measure has the line or waits for it. -/
theorem Hub.line9Ask_mem (h : Hub) {r : Nat} (hr : h.probesOf r ≠ 0) : r ∈ (h.line9Ask r).tiu.line9 := by
  unfold Hub.line9Ask
  extract_lets g
  have stale : h.Probes g := by
    unfold g
    split
    · exact h.line9Next_probes
    · exact .refl h
  clear_value g
  have busy : g.probesOf r ≠ 0 := stale.probesOf r ▸ hr
  split_ifs with empty waits
  · exact g.line9Go_mem (List.mem_singleton_self r) busy
  · simpa using waits
  · simp

/-- While echoes may still come a request leaves every other lane as it is. -/
theorem Hub.line9Ask_lane (h : Hub) {r n : Nat} (hs : h.line9Stale = false) (hn : n ≠ r) : (h.line9Ask r).lane n = h.lane n := by
  unfold Hub.line9Ask
  rw [hs, if_neg Bool.false_ne_true]
  dsimp only
  split_ifs
  · exact h.line9Go_lane (by simpa using hn)
  · rfl
  · rfl

/-- On a free line a lane's probes leave at once. -/
theorem Hub.line9Ask_free (h : Hub) {r : Nat} (hf : h.tiu.line9 = []) (hr : h.probesOf r ≠ 0) :
    h.line9Ask r = ({ h with tiu := { h.tiu with line9 := [r] } } : Hub).probeSend r := by
  have fresh : h.line9Stale = false := by simp [Hub.line9Stale, hf]
  simp [Hub.line9Ask, fresh, hf, Hub.line9Go, hr]

/-! ### Bring-up begins (R381, R409) -/

/-- A lane at the start of bring-up. -/
def Lane.begun (x : Lane) (now : Nat) (k : LaneCfg) : Lane :=
  { x with
    st := .training, step := 1, stepAt := now, inverted := false, use := k, cseq := 0, rxCseq := 0, delays := [], unanswered := 0,
    slip := false, used := 0, limit := 256, level := 0, jump := false }

/-- From `h` to `g` bring-up began on lane `n`, which was `x`, and line 9 changed hands. -/
structure Hub.Begins (n : Nat) (x : Lane) (h g : Hub) : Prop where
  only : h.onlyIn [.tiu, .sl, .casc, .tx] g
  tx : h.tx <+: g.tx
  own : g.lane n = x.begun h.xoCycles (h.laneCfg n)
  steady : ∀ k, k ≠ n → (g.lane k).steady = (h.lane k).steady
  free : h.tiu.line9.head? ≠ some n → ∀ k, k ≠ n → g.lane k = h.lane k

/-- What a probe moves, the start of bring-up sets anew. -/
theorem Lane.begun_congr {x y : Lane} (h : x.steady = y.steady) (now : Nat) (k : LaneCfg) : x.begun now k = y.begun now k :=
  (congrArg (fun z : Lane => z.begun now k) h :)

theorem Hub.laneStart_eq (h : Hub) (n : Nat) : h.laneStart n = (h.line9Free n).setLane n ((h.lane n).begun h.xoCycles (h.laneCfg n)) := by
  have probes := h.line9Free_probes n
  have tb : (h.line9Free n).tb = h.tb := probes.only .tb (by decide)
  have cfg : (h.line9Free n).cfg = h.cfg := probes.only .cfg (by decide)
  have now : (h.line9Free n).xoCycles = h.xoCycles := congrArg (fun t : TbSt => t.xo / 2 ^ 40) tb
  have use : (h.line9Free n).laneCfg n = h.laneCfg n := congrArg (fun c : Cfg => c.lanes.get n) cfg
  rw [← Lane.begun_congr (probes.lane n), ← now, ← use]
  rfl

theorem Hub.laneStart_begins (h : Hub) (n : Nat) : h.Begins n (h.lane n) (h.laneStart n) := by
  have probes := h.line9Free_probes n
  rw [h.laneStart_eq n]
  refine ⟨Hub.onlyIn_trans probes.only (Hub.onlyIn_mono (Hub.setLane_onlyIn _ _ _) (by decide)), probes.tx, by simp, fun k hk => ?_,
    fun hf k hk => ?_⟩
  · rw [Hub.setLane_lane, if_neg hk, probes.lane k]
  · rw [Hub.setLane_lane, if_neg hk, h.line9Free_lane hf k]

/-- Bring-up begins on a lane that is written first. -/
theorem Hub.setLane_laneStart_begins (h : Hub) (n : Nat) (x : Lane) : h.Begins n x ((h.setLane n x).laneStart n) := by
  have starts := (h.setLane n x).laneStart_begins n
  refine ⟨Hub.onlyIn_trans (Hub.onlyIn_mono (h.setLane_onlyIn n x) (by decide)) starts.only, starts.tx, by simpa using starts.own,
    fun k hk => ?_, fun hf k hk => ?_⟩
  · simpa [hk] using starts.steady k hk
  · simpa [hk] using starts.free hf k hk

theorem Hub.laneRetrain_begins (h : Hub) (n : Nat) :
    h.Begins n { h.lane n with attempts := 0, counts := bump (h.lane n).counts 9 1 } (h.laneRetrain n) := h.setLane_laneStart_begins n _

theorem Hub.Begins.raises {n : Nat} {x : Lane} {h g : Hub} (hg : h.Begins n x g) : h.Raises [.tiu, .sl, .casc] g :=
  ⟨Hub.onlyIn_mono hg.only (by decide), ⟨h.host.pba, hg.only .host (by decide)⟩, hg.tx⟩

theorem Hub.Begins.st {n : Nat} {x : Lane} {h g : Hub} (hg : h.Begins n x g) {k : Nat} (hk : k ≠ n) : (g.lane k).st = (h.lane k).st :=
  (congrArg Lane.st (hg.steady k hk) :)
theorem Hub.Begins.step {n : Nat} {x : Lane} {h g : Hub} (hg : h.Begins n x g) {k : Nat} (hk : k ≠ n) :
    (g.lane k).step = (h.lane k).step := (congrArg Lane.step (hg.steady k hk) :)

end Sys2Proof.Machine


/-! PROOFS. Sensor lane commands (O32). -/
namespace Sys2Proof.Machine

theorem Hub.lane_congr {h g : Hub} (hs : g.sl = h.sl) (n : Nat) : g.lane n = h.lane n := congrArg (fun t : SlSt => t.lanes.get n) hs

/-- A change of settings leaves everything else as it is. -/
theorem Hub.cfg_raises (h : Hub) (k : Cfg) : h.Raises [.cfg] { h with cfg := k } :=
  Hub.raises_of_onlyIn (by simp [Hub.onlyIn_iff]) (by decide) (by decide)

theorem Hub.setLane_raises (h : Hub) (n : Nat) (x : Lane) : h.Raises [.sl] (h.setLane n x) :=
  Hub.raises_of_onlyIn (h.setLane_onlyIn n x) (by decide) (by decide)

theorem Hub.laneSend_raises (h : Hub) (n type sub : Nat) (payload : List Byte) : h.Raises [.sl] (h.laneSend n type sub payload) :=
  ⟨Hub.onlyIn_mono (h.laneSend_onlyIn n type sub payload) (by decide), ⟨_, rfl⟩, List.prefix_append _ _⟩

theorem Hub.sendLanded_raises (h : Hub) (n : Nat) (all : Bool) : h.Raises [.sl] (h.sendLanded n all) :=
  (h.setLane_raises n _).trans (Hub.laneSend_raises _ _ _ _ _)

theorem Hub.slFeed_onlyIn (h : Hub) (ch : Nat) (x : Inp) : h.onlyIn [.flt] (h.slFeed ch x) := by
  unfold Hub.slFeed
  dsimp only
  split
  · simp [Hub.onlyIn_iff, Hub.setChain]
  · exact h.onlyIn_refl _

/-! ### Lane settings (R409) -/

/-- The settings that SL_LANE_SET names. -/
def pwLane (p : List Word) : LaneCfg :=
  { enable := bit (pw p 0) 31, swing := fld (pw p 0) 30 28, quarN := fld (pw p 0) 23 20, nakMax := fld (pw p 0) 19 12,
    serial := mask64 (pw p 1) (pw p 2), asym := signed 32 (pw p 3).toNat, probeInt := fld (pw p 4) 31 16, jump := fld (pw p 4) 15 0,
    quarWin := fld (pw p 5) 31 16, violWin := fld (pw p 5) 15 0 }

/-- A lane takes up its setting: a DISABLED lane that is enabled begins, and one that is disabled stops, unless it is quarantined. -/
def Hub.laneTurn (h : Hub) (n : Nat) (on : Bool) : Hub :=
  if on then (if (h.lane n).st = .disabled then (h.setLane n { h.lane n with attempts := 0 }).laneStart n else h)
  else if (h.lane n).st = .quarantined then h else (h.setLane n { h.lane n with st := .disabled }).line9Free n

theorem Hub.laneTurn_raises (h : Hub) (n : Nat) (on : Bool) : h.Raises [.tiu, .sl, .casc] (h.laneTurn n on) := by
  unfold Hub.laneTurn
  split_ifs
  · exact (h.setLane_laneStart_begins n _).raises
  · exact .refl h _
  · exact .refl h _
  · exact ((h.setLane_raises n _).mono (by decide)).trans (Hub.line9Free_probes _ n).raises

theorem Hub.laneTurn_off (h : Hub) (n : Nat) :
    ((h.laneTurn n false).lane n).st = if (h.lane n).st = .quarantined then .quarantined else .disabled := by
  rw [Hub.laneTurn, if_neg Bool.false_ne_true]
  split
  · assumption
  · rw [(Hub.line9Free_probes _ n).st n]
    simp

theorem Hub.laneTurn_on (h : Hub) {n : Nat} (hd : (h.lane n).st = .disabled) : ((h.laneTurn n true).lane n).st = .training := by
  rw [Hub.laneTurn, if_pos rfl, if_pos hd, (h.setLane_laneStart_begins n _).own]
  rfl

/-! ### What a reset forgets (R412) -/

/-- With the bit of SL_RESET that asks for it, the lane's marks and its pod go, and its channels hear of it. -/
def Hub.laneForget (h : Hub) (n : Nat) : Hub :=
  let up := (h.lane n).st == .up
  let h := if up then h.sendLanded n true else h
  let h := h.setLane n { h.lane n with expect := none, landed := none, taken := 0, open_ := [], lastSerial := 0, lastC := none, releaseAll := !up }
  (List.range 32).foldl (fun h s => h.slFeed (128 + 32 * n + s) { epoch := 0, i := 0, n := 0, v := none, q := 513 }) h

theorem Hub.slFeed_raises (h : Hub) (ch : Nat) (x : Inp) : h.Raises [.flt] (h.slFeed ch x) :=
  Hub.raises_of_onlyIn (h.slFeed_onlyIn ch x) (by decide) (by decide)

theorem Hub.feeds_onlyIn (h : Hub) (n : Nat) (x : Inp) (l : List Nat) :
    h.onlyIn [.flt] (l.foldl (fun h s => h.slFeed (128 + 32 * n + s) x) h) := Hub.onlyIn_foldl (fun g _ => g.slFeed_onlyIn _ _) l h

theorem Hub.sendLanded_lane (h : Hub) (n k : Nat) (all : Bool) : (h.sendLanded n all).lane k =
    if k = n then { h.lane n with landedAt := h.xoCycles, cseq := ((h.lane n).cseq + 1) % 2 ^ 32 } else h.lane k := by
  rw [Hub.sendLanded, Hub.laneSend_lane]
  split <;> simp [*]

theorem Hub.laneForget_raises (h : Hub) (n : Nat) : h.Raises [.sl, .flt] (h.laneForget n) := by
  unfold Hub.laneForget
  extract_lets up g _ k
  have sent : h.Raises [.sl, .flt] g := by
    unfold g
    split
    · exact (h.sendLanded_raises n true).mono (by decide)
    · exact .refl h _
  have written : g.Raises [.sl, .flt] k := (g.setLane_raises n _).mono (by decide)
  exact (sent.trans written).trans ((Hub.raises_of_onlyIn (k.feeds_onlyIn n _ _) (by decide) (by decide)).mono (by decide))

theorem Hub.laneForget_st (h : Hub) (n : Nat) : ((h.laneForget n).lane n).st = (h.lane n).st := by
  unfold Hub.laneForget
  extract_lets up g _ k
  have sent : (g.lane n).st = (h.lane n).st := by
    unfold g
    split
    · rw [Hub.sendLanded_lane, if_pos rfl]
    · rfl
  rw [Hub.lane_congr (k.feeds_onlyIn n _ _ .sl (by decide))]
  simpa [k] using sent

/-- A lane that is neither DISABLED nor QUARANTINED starts over, and keeps the handle of the reset that waits for it. -/
def Hub.laneResetBy (h : Hub) (n hd : Nat) : Hub :=
  let g := h.setLane n { h.lane n with reset := (h.lane n).reset ++ [(hd, h.xoCycles)] }
  if (h.lane n).st = .disabled ∨ (h.lane n).st = .quarantined then g else g.laneRetrain n

theorem Hub.laneResetBy_raises (h : Hub) (n hd : Nat) : h.Raises [.tiu, .sl, .casc] (h.laneResetBy n hd) := by
  unfold Hub.laneResetBy
  dsimp only
  split
  · exact (h.setLane_raises n _).mono (by decide)
  · exact ((h.setLane_raises n _).mono (by decide)).trans (Hub.laneRetrain_begins _ n).raises

theorem Hub.laneResetBy_lane (h : Hub) (n hd : Nat) :
    (hd, h.xoCycles) ∈ ((h.laneResetBy n hd).lane n).reset ∧ ((h.lane n).st = .up → ((h.laneResetBy n hd).lane n).st = .training) := by
  unfold Hub.laneResetBy
  dsimp only
  split
  · next idle => exact ⟨by simp, fun up => by simp [up] at idle⟩
  · rw [(Hub.laneRetrain_begins _ n).own]
    exact ⟨by simp [Lane.begun], fun _ => rfl⟩

/-! ### Release from quarantine (R413) -/

/-- One lane is released: an enabled lane begins, and another is DISABLED. -/
def Hub.laneRelease (h : Hub) (n : Nat) : Hub :=
  if (h.laneCfg n).enable then (h.setLane n { h.lane n with attempts := 0 }).laneStart n else h.setLane n { h.lane n with st := .disabled }

/-- A lane is where its release puts it. -/
def Hub.laneReleased (h g : Hub) (n : Nat) : Prop :=
  if (h.laneCfg n).enable then (g.lane n).st = .training ∧ (g.lane n).step = 1 else (g.lane n).st = .disabled

theorem Hub.laneRelease_raises (h : Hub) (n : Nat) : h.Raises [.tiu, .sl, .casc] (h.laneRelease n) := by
  unfold Hub.laneRelease
  split
  · exact (h.setLane_laneStart_begins n _).raises
  · exact (h.setLane_raises n _).mono (by decide)

theorem Hub.laneRelease_own (h : Hub) (n : Nat) : h.laneReleased (h.laneRelease n) n := by
  unfold Hub.laneReleased Hub.laneRelease
  split
  · rw [(h.setLane_laneStart_begins n _).own]
    exact ⟨rfl, rfl⟩
  · simp

theorem Hub.laneRelease_other (h : Hub) {n k : Nat} (hk : k ≠ n) :
    ((h.laneRelease n).lane k).st = (h.lane k).st ∧ ((h.laneRelease n).lane k).step = (h.lane k).step := by
  unfold Hub.laneRelease
  split
  · exact ⟨(h.setLane_laneStart_begins n _).st hk, (h.setLane_laneStart_begins n _).step hk⟩
  · simp [hk]

theorem Hub.laneReleases_raises (h : Hub) (l : List Nat) : h.Raises [.tiu, .sl, .casc] (l.foldl Hub.laneRelease h) := by
  induction l generalizing h with
  | nil => exact .refl h _
  | cons a l ih => exact (h.laneRelease_raises a).trans (ih _)

theorem Hub.laneReleases_other (h : Hub) {l : List Nat} {k : Nat} (hk : k ∉ l) :
    ((l.foldl Hub.laneRelease h).lane k).st = (h.lane k).st ∧ ((l.foldl Hub.laneRelease h).lane k).step = (h.lane k).step := by
  induction l generalizing h with
  | nil => exact ⟨rfl, rfl⟩
  | cons a l ih =>
    obtain ⟨ne, notin⟩ := not_or.mp (List.mem_cons.not.mp hk)
    obtain ⟨st, step⟩ := ih (h.laneRelease a) notin
    obtain ⟨st', step'⟩ := h.laneRelease_other ne
    exact ⟨st.trans st', step.trans step'⟩

theorem Hub.laneReleases_own (h : Hub) {l : List Nat} {k : Nat} (hk : k ∈ l) : h.laneReleased (l.foldl Hub.laneRelease h) k := by
  induction l generalizing h with
  | nil => cases hk
  | cons a l ih =>
    have cfg : (h.laneRelease a).laneCfg k = h.laneCfg k :=
      congrArg (fun c : Cfg => c.lanes.get k) ((h.laneRelease_raises a).only .cfg (by decide))
    by_cases later : k ∈ l
    · have released := ih (h.laneRelease a) later
      rwa [Hub.laneReleased, cfg] at released
    · obtain rfl := (List.mem_cons.mp hk).resolve_right later
      obtain ⟨st, step⟩ := (h.laneRelease k).laneReleases_other later
      have own := h.laneRelease_own k
      unfold Hub.laneReleased at own ⊢
      rwa [List.foldl_cons, st, step]

section
variable {s : State} {mb : Fin 8} {tag : Word} {pl : List Word}

theorem slLaneSet_answers (ht : s.takes slLaneSet mb tag pl = true) :
    Answers (.slLaneSet mb tag pl) s mb tag DONE [.cfg, .sl, .casc, .tiu] fun _ t =>
      t.cfg = { s.hub.cfg with lanes := s.hub.cfg.lanes.put (fld (pw pl 0) 3 0) (pwLane pl) } ∧
      (bit (pw pl 0) 31 = false → (t.lane (fld (pw pl 0) 3 0)).st =
        if (s.hub.lane (fld (pw pl 0) 3 0)).st = .quarantined then .quarantined else .disabled) ∧
      (bit (pw pl 0) 31 = true → (s.hub.lane (fld (pw pl 0) 3 0)).st = .disabled → (t.lane (fld (pw pl 0) 3 0)).st = .training) := by
  have taken := s.hub.executing_onlyIn slLaneSet mb tag pl
  have lane : ∀ n, (s.hub.executing slLaneSet mb tag pl).lane n = s.hub.lane n := Hub.lane_congr (taken .sl (by decide))
  have cfg : (s.hub.executing slLaneSet mb tag pl).cfg = s.hub.cfg := taken .cfg (by decide)
  generalize hg : s.hub.executing slLaneSet mb tag pl = g at lane cfg
  have turns := Hub.laneTurn_raises { g with cfg := { g.cfg with lanes := g.cfg.lanes.put (fld (pw pl 0) 3 0) (pwLane pl) } }
    (fld (pw pl 0) 3 0) (bit (pw pl 0) 31)
  refine answers_of_raises (c := slLaneSet) rfl ht rfl rfl rfl rfl (by decide) ?_ fun t h => ?_
  · rw [hg]
    exact ((g.cfg_raises _).mono (by decide)).trans (turns.mono (by decide))
  · rw [hg] at h
    have sl : ∀ n, t.lane n = (Hub.laneTurn _ (fld (pw pl 0) 3 0) (bit (pw pl 0) 31)).lane n := Hub.lane_congr (h .sl (by decide))
    refine ⟨(h .cfg (by decide)).trans ((turns.only .cfg (by decide)).trans (by rw [cfg])), fun off => ?_, fun on dis => ?_⟩
    · rw [sl, off, Hub.laneTurn_off, ← lane]
      rfl
    · rw [sl, on]
      exact Hub.laneTurn_on _ ((lane _).symm ▸ dis)

/-! ### Slot settings (R410) -/

theorem slSlotSet_accepts (ht : s.takes slSlotSet mb tag pl = true) :
    Accepts (.slSlotSet mb tag pl) s mb tag [.sl] fun hd t => (t.lane (fld (pw pl 0) 11 8)).slotReqs =
      (s.hub.lane (fld (pw pl 0) 11 8)).slotReqs ++
        [{ slot := fld (pw pl 0) 4 0, handle := hd, rate := (pw pl 1).toNat, enable := bit (pw pl 0) 31, since := s.hub.xoCycles }] := by
  refine accepts_of_raises (c := slSlotSet) rfl ht rfl fun g hd hg => ⟨_, rfl, ?_, fun t h => ?_⟩
  · exact (g.setLane_raises _ _).trans (Hub.laneSend_raises _ _ _ _ _)
  · have now : g.xoCycles = s.hub.xoCycles := congrArg (fun t : TbSt => t.xo / 2 ^ 40) (hg .tb (by decide))
    rw [Hub.lane_congr (h .sl (by decide)), ← Hub.lane_congr (hg .sl (by decide)), ← now]
    simp [CmdIn.of]

/-! ### Keys (R411) -/

theorem slKeySet_answers (ht : s.takes slKeySet mb tag pl = true) :
    Answers (.slKeySet mb tag pl) s mb tag DONE [.sto] fun _ t => (t.sto.laneKeys.get (fld (pw pl 0) 8 8)).key = pl.drop 1 ∧
      (bit (pw pl 0) 9 = true → (t.sto.laneKeys.get (fld (pw pl 0) 8 8)).active = true ∧
        (t.sto.laneKeys.get (1 - fld (pw pl 0) 8 8)).active = false) ∧ t.sto = { s.hub.sto with laneKeys := t.sto.laneKeys } := by
  have slot : fld (pw pl 0) 8 8 ≤ 1 := Nat.lt_succ_iff.mp (Nat.mod_lt _ (by decide))
  have other : fld (pw pl 0) 8 8 ≠ 1 - fld (pw pl 0) 8 8 := by omega
  refine answers_of_run (c := slKeySet) rfl ht rfl rfl rfl rfl (by decide) (by decide) ?_ fun t h => ?_
  · simp [Hub.onlyIn_iff, slKeySet]
  · have sto := h .sto (by decide)
    simp only [slKeySet, CmdIn.of, Hub.executing_sto] at sto
    rw [sto]
    refine ⟨?_, fun act => ?_, rfl⟩
    · split
      · simp [Tab.get_upd, other]
      · simp
    · rw [if_pos act]
      simp [Tab.get_upd, other, act]

/-! ### Lane resets (R412) -/

theorem slReset_accepts (ht : s.takes slReset mb tag pl = true) :
    Accepts (.slReset mb tag pl) s mb tag [.sl, .casc, .flt, .tiu] fun hd t =>
      (hd, s.hub.xoCycles) ∈ (t.lane (fld (pw pl 0) 3 0)).reset ∧
      ((s.hub.lane (fld (pw pl 0) 3 0)).st = .up → (t.lane (fld (pw pl 0) 3 0)).st = .training) := by
  refine accepts_of_raises (c := slReset) rfl ht rfl fun g hd hg => ?_
  let k := if bit (pw pl 0) 8 then g.laneForget (fld (pw pl 0) 3 0) else g
  have forgets : g.Raises [.sl, .flt] k ∧ (k.lane (fld (pw pl 0) 3 0)).st = (g.lane (fld (pw pl 0) 3 0)).st := by
    unfold k
    split
    · exact ⟨g.laneForget_raises _, g.laneForget_st _⟩
    · exact ⟨.refl g _, rfl⟩
  obtain ⟨raises, st⟩ := forgets
  have run : slReset.run g (.of mb tag pl hd) = { hub := k.laneResetBy (fld (pw pl 0) 3 0) hd } := rfl
  clear_value k
  refine ⟨_, run, (raises.mono (by decide)).trans ((k.laneResetBy_raises _ hd).mono (by decide)), fun t h => ?_⟩
  have tb : k.tb = s.hub.tb := (raises.only .tb (by decide)).trans (hg .tb (by decide))
  have now : k.xoCycles = s.hub.xoCycles := congrArg (fun t : TbSt => t.xo / 2 ^ 40) tb
  rw [Hub.lane_congr (h .sl (by decide)), ← now, ← Hub.lane_congr (hg .sl (by decide)), ← st]
  exact k.laneResetBy_lane _ hd

theorem slQuarRelease_answers (ht : s.takes slQuarRelease mb tag pl = true) :
    Answers (.slQuarRelease mb tag pl) s mb tag DONE [.sl, .casc, .tiu] fun _ t => ∀ n : Nat, n < 16 → bit (pw pl 0) n = true →
      if (s.hub.laneCfg n).enable then (t.lane n).st = .training ∧ (t.lane n).step = 1 else (t.lane n).st = .disabled := by
  have taken := s.hub.executing_onlyIn slQuarRelease mb tag pl
  have cfg : ∀ n, (s.hub.executing slQuarRelease mb tag pl).laneCfg n = s.hub.laneCfg n := fun n =>
    congrArg (fun c : Cfg => c.lanes.get n) (taken .cfg (by decide))
  refine answers_of_raises (c := slQuarRelease) rfl ht rfl rfl rfl rfl (by decide)
    ((Hub.laneReleases_raises _ (bitsOf (pw pl 0).toNat 16)).mono (by decide)) fun t h n hn on => ?_
  have released := (s.hub.executing slQuarRelease mb tag pl).laneReleases_own ((mem_bitsOf_toNat (pw pl 0) hn).mpr on)
  rw [Hub.laneReleased, cfg] at released
  rw [Hub.lane_congr (h .sl (by decide))]
  exact released

/-! ### Status (R414) -/

theorem slStatus_answers (ht : s.takes slStatus mb tag pl = true) :
    Answers (.slStatus mb tag pl) s mb tag DONE [.sl] fun ws t => ws.length = 19 ∧
      (ws.drop 1).take 2 = [lo32 (s.hub.lane (fld (pw pl 0) 3 0)).serial, hi32 (s.hub.lane (fld (pw pl 0) 3 0)).serial] ∧
      ws.drop 8 = (List.range 11).map (fun k => wd ((s.hub.lane (fld (pw pl 0) 3 0)).counts.get k)) ∧
      (bit (pw pl 0) 8 = true → (t.lane (fld (pw pl 0) 3 0)).counts = []) := by
  refine answers_of_run (c := slStatus) rfl ht rfl rfl rfl rfl (by decide) (by decide) ?_ fun t h => ⟨rfl, rfl, rfl, fun clear => ?_⟩
  · unfold slStatus
    dsimp only
    split
    · exact Hub.setLane_onlyIn _ _ _
    · exact Hub.onlyIn_refl _ _
  · have sl := h .sl (by decide)
    rw [Hub.lane_congr sl]
    change (Hub.lane (if bit (pw pl 0) 8 = true then _ else _) _).counts = []
    rw [if_pos clear]
    simp [CmdIn.of]

end

/-- Settles O32, command by command. -/
theorem sensorLaneCommands : Obligations.SensorLaneCommands := by
  unfold Obligations.SensorLaneCommands
  exact ⟨fun _ _ _ _ => slLaneSet_answers, fun _ _ _ _ => slSlotSet_accepts, fun _ _ _ _ => slKeySet_answers,
    fun _ _ _ _ => slReset_accepts, fun _ _ _ _ => slQuarRelease_answers, fun _ _ _ _ => slStatus_answers⟩

end Sys2Proof.Machine


/-! PROOFS. Cascade commands (O33). -/
namespace Sys2Proof.Machine

/-! ### Frames leave cascade ports (R420, R421) -/

theorem Hub.setCPort_raises (h : Hub) (p : Nat) (k : CascPort) : h.Raises [.casc] (h.setCPort p k) :=
  Hub.raises_of_onlyIn (h.setCPort_onlyIn p k) (by decide) (by decide)

theorem Hub.send_raises (h : Hub) (x : Tx) : h.Raises [] (h.send x) := ⟨by simp [Hub.onlyIn_iff], ⟨_, rfl⟩, List.prefix_append _ _⟩

theorem Hub.cascEmit_raises (h : Hub) (p type : Nat) (body : List Byte) : h.Raises [.casc] (h.cascEmit p type body) :=
  (h.setCPort_raises p _).trans ((Hub.send_raises _ _).mono (by decide))

theorem Hub.cascDrain_raises (h : Hub) (p n : Nat) : h.Raises [.casc] (h.cascDrain p n) := by
  induction n generalizing h with
  | zero => exact .refl h _
  | succ n ih =>
    unfold Hub.cascDrain
    dsimp only
    split
    · split
      · exact ((h.setCPort_raises p _).trans (Hub.cascEmit_raises _ _ _ _)).trans (ih _)
      · exact .refl h _
    · exact .refl h _

theorem Hub.cascSend_raises (h : Hub) (p type : Nat) (body : List Byte) : h.Raises [.casc] (h.cascSend p type body) := by
  unfold Hub.cascSend
  dsimp only
  split_ifs
  · exact (h.send_raises _).mono (by decide)
  · exact (h.setCPort_raises p _).trans (Hub.cascDrain_raises _ _ _)
  · exact h.cascEmit_raises _ _ _

theorem Hub.cascCredit_raises (h : Hub) (p : Nat) : h.Raises [.casc] (h.cascCredit p) :=
  (h.setCPort_raises p _).trans (Hub.cascSend_raises _ p 7 _)

/-! ### What the loss of a hop keeps (R434) -/

/-- Of a port: its state, its step of bring-up, the link resets that wait for it and its partner. -/
def CascPort.hop (k : CascPort) : LinkState × Nat × List (Nat × Nat) × Nat := (k.st, k.step, k.reset, k.partnerSerial)

/-- From `h` to `g` what is known beyond the ports changed, with what follows from it, and no port's bring-up. -/
structure Hub.KeepsHops (h g : Hub) : Prop where
  raises : h.Raises [.casc, .tb, .evt, .jrn, .sto, .tiu, .sl] g
  hop : ∀ p, (g.cPort p).hop = (h.cPort p).hop

theorem Hub.KeepsHops.refl (h : Hub) : h.KeepsHops h := ⟨.refl h _, fun _ => rfl⟩

theorem Hub.KeepsHops.trans {h g t : Hub} (hg : h.KeepsHops g) (gt : g.KeepsHops t) : h.KeepsHops t :=
  ⟨hg.raises.trans gt.raises, fun p => (gt.hop p).trans (hg.hop p)⟩

/-- What leaves the cascade alone keeps its hops. -/
theorem Hub.keepsHops_of_raises {h g : Hub} (hr : h.Raises [.tb, .evt, .jrn, .sto, .tiu, .sl] g) : h.KeepsHops g :=
  ⟨hr.mono (by decide), fun p => congrArg (fun c : CascSt => (c.ports.get p).hop) (hr.only .casc (by decide))⟩

theorem Hub.setCPort_keepsHops (h : Hub) (p : Nat) (k : CascPort) (hk : k.hop = (h.cPort p).hop) : h.KeepsHops (h.setCPort p k) := by
  refine ⟨(h.setCPort_raises p k).mono (by decide), fun j => ?_⟩
  rw [Hub.setCPort_cPort]
  split
  · next e => rw [hk, e]
  · rfl

theorem Hub.Probes.keepsHops {h g : Hub} (hg : h.Probes g) : h.KeepsHops g :=
  ⟨hg.raises.mono (by decide), fun p => (congrArg CascPort.hop (hg.port p) :)⟩

theorem Hub.cascSend_keepsHops (h : Hub) (p type : Nat) (body : List Byte) : h.KeepsHops (h.cascSend p type body) :=
  ⟨(h.cascSend_raises p type body).mono (by decide), fun j => (congrArg CascPort.hop ((h.cascSend_sendsFrames p type body).receiver j) :)⟩

theorem Hub.cascCredit_keepsHops (h : Hub) (p : Nat) : h.KeepsHops (h.cascCredit p) :=
  (h.setCPort_keepsHops p { h.cPort p with rxLimit := h.cascRoom p, creditAt := h.xoCycles } rfl).trans (Hub.cascSend_keepsHops _ p 7 _)

theorem Hub.cascRecredit_keepsHops (h : Hub) (p : Nat) : h.KeepsHops (h.cascRecredit p) := by
  unfold Hub.cascRecredit
  split
  · exact h.cascCredit_keepsHops p
  · exact .refl h

theorem Hub.sendRoster_keepsHops (h : Hub) : h.KeepsHops h.sendRoster := by
  unfold Hub.sendRoster
  split
  · exact .refl h
  · exact h.cascSend_keepsHops _ _ _

/-- CASCADE gains or loses qualification (R224, R225). -/
theorem Hub.setQual_cascade_raises (h : Hub) (q : Bool) : h.Raises [.tb, .tiu, .evt, .jrn, .sto] (h.setQual .cascade q) := by
  unfold Hub.setQual
  extract_lets _ g
  have marked : h.Raises [.tb, .tiu, .evt, .jrn, .sto] g := Hub.raises_of_time (by simp [Hub.onlyIn_iff, g])
  have tracked : ∀ k : Hub, k.Raises [.tb, .tiu, .evt, .jrn, .sto] k.trackCand := fun k =>
    Hub.raises_of_time (by simp [Hub.onlyIn_iff, Hub.trackCand])
  clear_value g
  split
  · exact (marked.trans g.sourceLost_raises).trans (tracked _)
  · exact marked.trans (tracked _)

theorem Hub.cascLost_keepsHops (h : Hub) (p : Nat) : h.KeepsHops (h.cascLost p) := by
  unfold Hub.cascLost
  extract_lets g k t u _ v
  have freed : h.KeepsHops g := by
    unfold g
    split
    · exact (h.line9Free_probes 16).keepsHops
    · exact .refl h
  have emptied : h.KeepsHops t := freed.trans (g.setCPort_keepsHops p _ rfl)
  have credited : h.KeepsHops u := by
    unfold u
    split
    · exact emptied.trans (t.cascRecredit_keepsHops 1)
    · exact emptied
  have unqualified : h.KeepsHops v := by
    unfold v
    split
    · have reset : u.KeepsHops { u with casc := { u.casc with hops := 255, mSource := 4, epochReq := none } } :=
        ⟨(Hub.raises_of_onlyIn (cs := [.casc]) (by simp [Hub.onlyIn_iff]) (by decide) (by decide)).mono (by decide), fun _ => rfl⟩
      exact (credited.trans reset).trans (Hub.keepsHops_of_raises ((Hub.setQual_cascade_raises _ false).mono (by decide)))
    · exact credited
  split
  · exact unqualified
  · exact unqualified.trans v.sendRoster_keepsHops

theorem Hub.cascBreak_keepsHops (h : Hub) (p : Nat) : h.KeepsHops (h.cascBreak p) := by
  unfold Hub.cascBreak
  split
  · have marked : h.KeepsHops (h.setCPort p { h.cPort p with downRaised := true }) := h.setCPort_keepsHops p _ rfl
    have raised := Hub.keepsHops_of_raises (((h.setCPort p { h.cPort p with downRaised := true }).raise_records 115 []).raises.mono (by decide))
    exact (marked.trans raised).trans (Hub.cascLost_keepsHops _ p)
  · exact h.cascLost_keepsHops p

/-! ### Bring-up begins on a hop (R418) -/

/-- From `h` to `g` bring-up began on port `p`, which was `k`; the link resets that wait for it and its partner stay, and every other
port's bring-up. -/
structure Hub.HopBegins (p : Nat) (k : CascPort) (h g : Hub) : Prop where
  raises : h.Raises [.casc, .tb, .evt, .jrn, .sto, .tiu, .sl] g
  own : (g.cPort p).hop = (.training, 1, k.reset, k.partnerSerial)
  other : ∀ j, j ≠ p → (g.cPort j).hop = (h.cPort j).hop

theorem Hub.cascStart_begins (h : Hub) (p : Nat) : h.HopBegins p (h.cPort p) (h.cascStart p) := by
  have broken := h.cascBreak_keepsHops p
  have kept := broken.hop p
  simp only [CascPort.hop, Prod.mk.injEq] at kept
  obtain ⟨-, -, reset, partner⟩ := kept
  unfold Hub.cascStart
  extract_lets g k
  refine ⟨broken.raises.trans ((g.setCPort_raises p _).mono (by decide)), ?_, fun j hj => ?_⟩
  · rw [Hub.setCPort_cPort, if_pos rfl, ← reset, ← partner]
    rfl
  · rw [Hub.setCPort_cPort, if_neg hj, broken.hop j]

/-- Bring-up begins on a port that is written first. -/
theorem Hub.setCPort_cascStart_begins (h : Hub) (p : Nat) (k : CascPort) : h.HopBegins p k ((h.setCPort p k).cascStart p) := by
  have starts := (h.setCPort p k).cascStart_begins p
  refine ⟨((h.setCPort_raises p k).mono (by decide)).trans starts.raises, by simpa using starts.own, fun j hj => ?_⟩
  simpa [hj] using starts.other j hj

theorem Hub.cascRetrain_begins (h : Hub) (p : Nat) :
    h.HopBegins p { h.cPort p with attempts := 0, counts := bump (h.cPort p).counts 8 1 } (h.cascRetrain p) :=
  h.setCPort_cascStart_begins p _

/-! ### Settings of the cascade (R429, R435) -/

theorem Hub.ackDown_raises (h : Hub) (o : Nat) (before : Option Nat) : h.Raises [.casc] (h.ackDown o before) := by
  unfold Hub.ackDown
  split
  · split
    · exact h.cascSend_raises _ _ _
    · exact .refl h _
  · exact .refl h _

theorem Hub.Raises.foldl {α : Type} {cs : List Chapter} {f : Hub → α → Hub} (hf : ∀ (g : Hub) a, g.Raises cs (f g a)) (l : List α)
    (h : Hub) : h.Raises cs (l.foldl f h) := by
  induction l generalizing h with
  | nil => exact .refl h _
  | cons a l ih => exact (hf h a).trans (ih _)

theorem Hub.relayPurge_raises (h : Hub) : h.Raises [.jrn, .casc] h.relayPurge := by
  unfold Hub.relayPurge
  extract_lets keep
  split
  · exact .refl h _
  · have kept : h.Raises [.jrn, .casc] { h with jrn := { h.jrn with relay := keep } } :=
      (Hub.raises_of_onlyIn (cs := [.jrn]) (by simp [Hub.onlyIn_iff]) (by decide) (by decide)).mono (by decide)
    exact kept.trans (.foldl (fun g p => (g.cascCredit_raises p).mono (by decide)) _ _)

/-! ### Settings of a port (R436) -/

/-- The settings that CASC_PORT_SET names. -/
def pwCPort (p : List Word) : CascPortCfg :=
  { enable := bit (pw p 0) 31, swing := fld (pw p 0) 30 28, quarN := fld (pw p 0) 23 20, nakMax := fld (pw p 0) 19 12,
    asym := signed 32 (pw p 1).toNat, asymUnc := fld (pw p 2) 31 16, probeInt := fld (pw p 2) 15 0, quarWin := fld (pw p 3) 31 16,
    violWin := fld (pw p 3) 15 0, jump := fld (pw p 4) 15 0 }

/-- A port takes up its setting: a DISABLED port that is enabled begins, and one that is disabled stops, unless it is quarantined. -/
def Hub.cPortTurn (h : Hub) (p : Nat) (on : Bool) : Hub :=
  if on then (if (h.cPort p).st = .disabled then (h.setCPort p { h.cPort p with attempts := 0 }).cascStart p else h)
  else if (h.cPort p).st = .quarantined then h else (h.cascLost p).setCPort p { (h.cascLost p).cPort p with st := .disabled }

theorem Hub.cPortTurn_raises (h : Hub) (p : Nat) (on : Bool) : h.Raises [.casc, .tb, .evt, .jrn, .sto, .tiu, .sl] (h.cPortTurn p on) := by
  unfold Hub.cPortTurn
  split_ifs
  · exact (h.setCPort_cascStart_begins p _).raises
  · exact .refl h _
  · exact .refl h _
  · refine (h.cascLost_keepsHops p).raises.trans (.mono (Hub.setCPort_raises _ p _) ?_)
    decide

theorem Hub.cPortTurn_off (h : Hub) (p : Nat) :
    ((h.cPortTurn p false).cPort p).st = if (h.cPort p).st = .quarantined then .quarantined else .disabled := by
  rw [Hub.cPortTurn, if_neg Bool.false_ne_true]
  split
  · assumption
  · simp

/-! ### Link resets (R437) -/

/-- A port that is neither DISABLED nor QUARANTINED starts over; the handle waits for it, and its partner is forgotten. -/
def Hub.hopResetBy (h : Hub) (p hd : Nat) : Hub :=
  let g := h.setCPort p { h.cPort p with reset := (h.cPort p).reset ++ [(hd, h.xoCycles)], partnerSerial := 0 }
  if (h.cPort p).st = .disabled ∨ (h.cPort p).st = .quarantined then g else g.cascRetrain p

theorem Hub.hopResetBy_raises (h : Hub) (p hd : Nat) : h.Raises [.casc, .tb, .evt, .jrn, .sto, .tiu, .sl] (h.hopResetBy p hd) := by
  unfold Hub.hopResetBy
  dsimp only
  split
  · exact (h.setCPort_raises p _).mono (by decide)
  · exact ((h.setCPort_raises p _).mono (by decide)).trans (Hub.cascRetrain_begins _ p).raises

theorem Hub.hopResetBy_cPort (h : Hub) (p hd : Nat) :
    (hd, h.xoCycles) ∈ ((h.hopResetBy p hd).cPort p).reset ∧ ((h.hopResetBy p hd).cPort p).partnerSerial = 0 := by
  unfold Hub.hopResetBy
  dsimp only
  split
  · simp
  · have own := (Hub.cascRetrain_begins (h.setCPort p
      { h.cPort p with reset := (h.cPort p).reset ++ [(hd, h.xoCycles)], partnerSerial := 0 }) p).own
    simp only [CascPort.hop, Prod.mk.injEq, Hub.setCPort_cPort, if_pos] at own
    obtain ⟨-, -, reset, partner⟩ := own
    exact ⟨by rw [reset]; simp, partner⟩

/-! ### Release from quarantine (R438) -/

/-- One port is released: an enabled port begins, and another is DISABLED. -/
def Hub.hopRelease (h : Hub) (p : Nat) : Hub :=
  if (h.cPortCfg p).enable then (h.setCPort p { h.cPort p with attempts := 0 }).cascStart p else h.setCPort p { h.cPort p with st := .disabled }

/-- A port is where its release puts it. -/
def Hub.hopReleased (h g : Hub) (p : Nat) : Prop :=
  if (h.cPortCfg p).enable then (g.cPort p).st = .training ∧ (g.cPort p).step = 1 else (g.cPort p).st = .disabled

theorem Hub.hopRelease_raises (h : Hub) (p : Nat) : h.Raises [.casc, .tb, .evt, .jrn, .sto, .tiu, .sl] (h.hopRelease p) := by
  unfold Hub.hopRelease
  split
  · exact (h.setCPort_cascStart_begins p _).raises
  · exact (h.setCPort_raises p _).mono (by decide)

theorem Hub.hopRelease_own (h : Hub) (p : Nat) : h.hopReleased (h.hopRelease p) p := by
  unfold Hub.hopReleased Hub.hopRelease
  split
  · have own := (h.setCPort_cascStart_begins p { h.cPort p with attempts := 0 }).own
    simp only [CascPort.hop, Prod.mk.injEq] at own
    exact ⟨own.1, own.2.1⟩
  · simp

theorem Hub.hopRelease_other (h : Hub) {p k : Nat} (hk : k ≠ p) : ((h.hopRelease p).cPort k).hop = (h.cPort k).hop := by
  unfold Hub.hopRelease
  split
  · exact (h.setCPort_cascStart_begins p _).other k hk
  · simp [hk]

theorem Hub.hopReleases_other (h : Hub) {l : List Nat} {k : Nat} (hk : k ∉ l) :
    ((l.foldl Hub.hopRelease h).cPort k).hop = (h.cPort k).hop := by
  induction l generalizing h with
  | nil => rfl
  | cons a l ih =>
    obtain ⟨ne, notin⟩ := not_or.mp (List.mem_cons.not.mp hk)
    exact (ih (h.hopRelease a) notin).trans (h.hopRelease_other ne)

theorem Hub.hopReleased_congr {h g t : Hub} {p : Nat} (hh : (t.cPort p).hop = (g.cPort p).hop) (hg : h.hopReleased g p) :
    h.hopReleased t p := by
  simp only [CascPort.hop, Prod.mk.injEq] at hh
  unfold Hub.hopReleased at hg ⊢
  rwa [hh.1, hh.2.1]

theorem Hub.hopReleases_own (h : Hub) {l : List Nat} {k : Nat} (hk : k ∈ l) : h.hopReleased (l.foldl Hub.hopRelease h) k := by
  induction l generalizing h with
  | nil => cases hk
  | cons a l ih =>
    have cfg : (h.hopRelease a).cPortCfg k = h.cPortCfg k :=
      congrArg (fun c : Cfg => c.casc.ports.get k) ((h.hopRelease_raises a).only .cfg (by decide))
    by_cases later : k ∈ l
    · have released := ih (h.hopRelease a) later
      rwa [Hub.hopReleased, cfg] at released
    · obtain rfl := (List.mem_cons.mp hk).resolve_right later
      exact Hub.hopReleased_congr ((h.hopRelease k).hopReleases_other later) (h.hopRelease_own k)

/-! ### The commands -/

theorem Hub.cPort_congr {h g : Hub} (hc : g.casc = h.casc) (p : Nat) : g.cPort p = h.cPort p := congrArg (fun t : CascSt => t.ports.get p) hc

section
variable {s : State} {mb : Fin 8} {tag : Word} {pl : List Word}

theorem cascSet_answers (ht : s.takes cascSet mb tag pl = true) :
    Answers (.cascSet mb tag pl) s mb tag DONE [.cfg, .casc, .jrn] fun _ t => t.cfg =
      { s.hub.cfg with casc := { s.hub.cfg.casc with relayReq := fld (pw pl 0) 26 24, relayCons := fld (pw pl 0) 18 16,
                                                     ctLat := fld (pw pl 0) 15 0 } } := by
  have cfg : (s.hub.executing cascSet mb tag pl).cfg = s.hub.cfg := s.hub.executing_onlyIn cascSet mb tag pl .cfg (by decide)
  generalize hg : s.hub.executing cascSet mb tag pl = g at cfg
  let n : Hub := { g with cfg := { g.cfg with casc := { g.cfg.casc with
    relayReq := fld (pw pl 0) 26 24, relayCons := fld (pw pl 0) 18 16, ctLat := fld (pw pl 0) 15 0 } } }
  let k := (if g.isMaster then g.rosterAll.foldl (fun u e => u.ackDown e.1 (g.relayLow e.1)) n else n).relayPurge
  have acked : n.Raises [.casc, .jrn] k := by
    refine .trans ?_ ((Hub.relayPurge_raises _).mono (by decide))
    split
    · exact .foldl (fun u e => (u.ackDown_raises _ _).mono (by decide)) _ _
    · exact .refl n _
  have run : cascSet.run g (.of mb tag pl 0) = { hub := k } := rfl
  clear_value k
  refine answers_of_raises (c := cascSet) rfl ht rfl (hg ▸ run) rfl rfl (by decide) ?_ fun t h => ?_
  · rw [hg]
    exact ((g.cfg_raises _).mono (by decide)).trans (acked.mono (by decide))
  · rw [h .cfg (by decide), acked.only .cfg (by decide), ← cfg]

theorem cascPortSet_answers (ht : s.takes cascPortSet mb tag pl = true) :
    Answers (.cascPortSet mb tag pl) s mb tag DONE [.cfg, .casc, .jrn, .tb, .evt, .sto, .tiu, .sl] fun _ t =>
      t.cfg = { s.hub.cfg with casc := { s.hub.cfg.casc with ports := s.hub.cfg.casc.ports.put (fld (pw pl 0) 0 0) (pwCPort pl) } } ∧
      (bit (pw pl 0) 31 = false → (t.cPort (fld (pw pl 0) 0 0)).st =
        if (s.hub.cPort (fld (pw pl 0) 0 0)).st = .quarantined then .quarantined else .disabled) := by
  have taken := s.hub.executing_onlyIn cascPortSet mb tag pl
  have cfg : (s.hub.executing cascPortSet mb tag pl).cfg = s.hub.cfg := taken .cfg (by decide)
  have port : ∀ p, (s.hub.executing cascPortSet mb tag pl).cPort p = s.hub.cPort p := Hub.cPort_congr (taken .casc (by decide))
  generalize hg : s.hub.executing cascPortSet mb tag pl = g at cfg port
  let n : Hub := { g with cfg := { g.cfg with casc := { g.cfg.casc with ports := g.cfg.casc.ports.put (fld (pw pl 0) 0 0) (pwCPort pl) } } }
  let k : Hub := { n with jrn := { n.jrn with ringPages := n.ringTotal } }
  have written : g.Raises [.cfg, .jrn] k := Hub.raises_of_onlyIn (by simp [Hub.onlyIn_iff, k, n]) (by decide) (by decide)
  have turns := k.cPortTurn_raises (fld (pw pl 0) 0 0) (bit (pw pl 0) 31)
  refine answers_of_raises (c := cascPortSet) rfl ht rfl rfl rfl rfl (by decide) ?_ fun t h => ?_
  · rw [hg]
    exact (written.mono (by decide)).trans (turns.mono (by decide))
  · rw [hg] at h
    have casc : ∀ p, t.cPort p = (k.cPortTurn (fld (pw pl 0) 0 0) (bit (pw pl 0) 31)).cPort p := Hub.cPort_congr (h .casc (by decide))
    refine ⟨(h .cfg (by decide)).trans ((turns.only .cfg (by decide)).trans (by rw [← cfg])), fun off => ?_⟩
    rw [casc, off, Hub.cPortTurn_off, ← port]
    rfl

theorem cascLinkReset_accepts (ht : s.takes cascLinkReset mb tag pl = true) :
    Accepts (.cascLinkReset mb tag pl) s mb tag [.casc, .tb, .evt, .jrn, .sto, .tiu, .sl] fun hd t =>
      (hd, s.hub.xoCycles) ∈ (t.cPort (fld (pw pl 0) 0 0)).reset ∧ (t.cPort (fld (pw pl 0) 0 0)).partnerSerial = 0 := by
  refine accepts_of_raises (c := cascLinkReset) rfl ht rfl fun g hd hg => ⟨_, rfl, g.hopResetBy_raises (fld (pw pl 0) 0 0) hd, fun t h => ?_⟩
  have now : g.xoCycles = s.hub.xoCycles := congrArg (fun t : TbSt => t.xo / 2 ^ 40) (hg .tb (by decide))
  rw [Hub.cPort_congr (h .casc (by decide)), ← now]
  exact g.hopResetBy_cPort _ hd

theorem cascQuarRelease_answers {cs : List Chapter} (hcs : [.casc, .tb, .evt, .jrn, .sto, .tiu, .sl] ⊆ cs)
    (ht : s.takes cascQuarRelease mb tag pl = true) :
    Answers (.cascQuarRelease mb tag pl) s mb tag DONE cs fun _ t => ∀ n : Nat, n < 2 →
      bit (pw pl 0) n = true → if (s.hub.cPortCfg n).enable then (t.cPort n).st = .training ∧
      (t.cPort n).step = 1 else (t.cPort n).st = .disabled := by
  have taken := s.hub.executing_onlyIn cascQuarRelease mb tag pl
  have cfg : ∀ n, (s.hub.executing cascQuarRelease mb tag pl).cPortCfg n = s.hub.cPortCfg n := fun n =>
    congrArg (fun c : Cfg => c.casc.ports.get n) (taken .cfg (by decide))
  refine answers_of_raises (c := cascQuarRelease) rfl ht rfl rfl rfl rfl (by decide)
    ((Hub.Raises.foldl Hub.hopRelease_raises (bitsOf (pw pl 0).toNat 2) _).mono hcs) fun t h n hn on => ?_
  have released := (s.hub.executing cascQuarRelease mb tag pl).hopReleases_own ((mem_bitsOf_toNat (pw pl 0) hn).mpr on)
  rw [Hub.hopReleased, cfg] at released
  rw [Hub.cPort_congr (h .casc (by decide))]
  exact released

theorem cascStatus_answers (ht : s.takes cascStatus mb tag pl = true) :
    Answers (.cascStatus mb tag pl) s mb tag DONE [.casc] fun ws t => ws.length = 19 ∧
      (ws.drop 2).take 2 = [lo32 (s.hub.cPort (fld (pw pl 0) 0 0)).partnerSerial, hi32 (s.hub.cPort (fld (pw pl 0) 0 0)).partnerSerial] ∧
      (ws.drop 7).take 10 = (List.range 10).map (fun k => wd ((s.hub.cPort (fld (pw pl 0) 0 0)).counts.get k)) ∧
      (bit (pw pl 0) 8 = true → (t.cPort (fld (pw pl 0) 0 0)).counts = []) := by
  refine answers_of_run (c := cascStatus) rfl ht rfl rfl rfl rfl (by decide) (by decide) ?_ fun t h => ⟨rfl, rfl, rfl, fun clear => ?_⟩
  · unfold cascStatus
    dsimp only
    split
    · simp [Hub.onlyIn_iff, Hub.setCPort]
    · exact Hub.onlyIn_refl _ _
  · rw [Hub.cPort_congr (h .casc (by decide))]
    change (Hub.cPort (if bit (pw pl 0) 8 = true then _ else _) _).counts = []
    rw [if_pos clear]
    simp [CmdIn.of, Hub.cPort, Hub.setCPort]

end

/-- Settles O33, command by command. -/
theorem cascadeCommands : Obligations.CascadeCommands := by
  unfold Obligations.CascadeCommands
  exact ⟨fun _ _ _ _ => cascSet_answers, fun _ _ _ _ => cascPortSet_answers, fun _ _ _ _ => cascLinkReset_accepts,
    fun _ _ _ _ => cascQuarRelease_answers (List.Subset.refl _), fun _ _ _ _ => cascStatus_answers⟩

end Sys2Proof.Machine


/-! PROOFS. Release of quarantined lanes and ports (O15). -/
namespace Sys2Proof.Machine

/-- A word below a power of two has no bit from there on. -/
theorem rsv_of_lt {w : Word} {n : Nat} (hw : w.toNat < 2 ^ n) : rsv w (2 ^ n - 1) = true := by
  have clear : w &&& ~~~(wd (2 ^ n - 1)) = 0 := by
    refine BitVec.eq_of_getLsbD_eq fun i hi => ?_
    by_cases low : i < n
    · have one : (wd (2 ^ n - 1)).getLsbD i = true := by simp [wd, BitVec.getLsbD_ofNat, hi, low, Nat.testBit_two_pow_sub_one]
      simp [BitVec.getLsbD_and, BitVec.getLsbD_not, one]
    · have high : w.toNat < 2 ^ i := Nat.lt_of_lt_of_le hw (Nat.pow_le_pow_right (by decide) (Nat.le_of_not_lt low))
      simp [BitVec.getLsbD, Nat.testBit_lt_two_pow high]
  simp [rsv, clear]

section
variable {s : State} {mb : Fin 8} {tag w : Word} {c : CmdSpec}

/-- On a hub that is not in recovery and whose clocks run, the checks of a command of one word come down to its own. -/
theorem Hub.checkCmd_word {g : Hub} (ho : c.opcode < 2 ^ 16) (hp : g.permitted mb c.opcode = true) (hl : c.len [w] = true)
    (hb : c.bad g [w] = none) (hs : g.clk.stopped = false) (hn : c.long g [w] = false) :
    g.checkCmd (some c) mb (cmdHeader c.opcode [w].length) tag 0 0 [w] = c.refuse g (.of mb tag [w] 0) := by
  rw [List.length_singleton]
  obtain ⟨-, len⟩ := fld_cmdHeader (len := 1) ho (by decide)
  have crc : bit (cmdHeader c.opcode 1) 16 = false := by
    rw [bit, ← BitVec.testBit_toNat, cmdHeader, wd, BitVec.toNat_ofNat, Nat.testBit_eq_decide_div_mod_eq]
    simp only [decide_eq_false_iff_not]
    omega
  have plain : fld (cmdHeader c.opcode 1) 23 17 = 0 := by
    rw [fld, cmdHeader, wd, BitVec.toNat_ofNat]
    omega
  unfold Hub.checkCmd
  simp only [len, crc, plain, hp, hl, hb, hs, hn]
  have refusal : c.refuse g { mb := mb, tag := tag, handle := 0, pl := [w] } = c.refuse g (.of mb tag [w] 0) := rfl
  rw [refusal]
  cases c.refuse g (.of mb tag [w] 0) <;> simp

/-- Such a command of one word is refused with what its own check says, in its mailbox. -/
theorem State.answers_refusal {g : Hub} {st : Nat} (reaches : s.reaches mb [w] = true) (hg : s.hub.executing c mb tag [w] = g)
    (hc : g.checkCmd (some c) mb (cmdHeader c.opcode [w].length) tag 0 0 [w] = some (st, [])) :
    ∃ t, s.mailRow c mb tag [w] = .next t ∧ t.hub.response mb st 0 tag [] ∧ t.hub.sl = s.hub.sl ∧ t.hub.casc = s.hub.casc := by
  have refused := State.mailRow_refuses ⟨reaches, hg.symm ▸ hc⟩
  rw [hg] at refused
  have frame : s.hub.onlyIn [.host] g := hg ▸ s.hub.executing_onlyIn c mb tag [w]
  have response := g.respond_response mb st 0 tag [] (bit (cmdHeader c.opcode [w].length) 16)
  have responded : g.onlyIn [.host, .tx] (g.respond mb st 0 tag [] (bit (cmdHeader c.opcode [w].length) 16)) := by simp [Hub.onlyIn_iff]
  generalize g.respond mb st 0 tag [] (bit (cmdHeader c.opcode [w].length) 16) = f at refused response responded
  have sl : f.sl = s.hub.sl := (responded .sl (by decide)).trans (frame .sl (by decide))
  have casc : f.casc = s.hub.casc := (responded .casc (by decide)).trans (frame .casc (by decide))
  exact ⟨_, refused, response, (f.openUsed_onlyIn .sl (by decide)).trans sl, (f.openUsed_onlyIn .casc (by decide)).trans casc⟩

theorem State.takes_of_checkCmd (hr : s.reaches mb [w] = true)
    (hc : (s.hub.executing c mb tag [w]).checkCmd (some c) mb (cmdHeader c.opcode [w].length) tag 0 0 [w] = none) :
    s.takes c mb tag [w] = true := by
  rw [State.takes, hr, hc]
  rfl

/-- Outside recovery, mailboxes 0 to 6 take the two releases. -/
theorem Hub.permitted_release {g : Hub} (hr : g.sys.recovery = false) (h7 : mb.val ≠ 7) :
    g.permitted mb slQuarRelease.opcode = true ∧ g.permitted mb cascQuarRelease.opcode = true := by
  unfold Hub.permitted
  rw [hr, if_neg Bool.false_ne_true, if_neg h7, if_neg Bool.false_ne_true, if_neg h7]
  decide

/-- The one check of SL_QUAR_RELEASE that depends on the lanes. -/
theorem slQuarRelease_checks (hr : s.hub.sys.recovery = false) (h7 : mb.val ≠ 7) (hs : s.hub.clk.stopped = false) (hw : w.toNat < 2 ^ 16) :
    (s.hub.executing slQuarRelease mb tag [w]).checkCmd (some slQuarRelease) mb (cmdHeader slQuarRelease.opcode [w].length) tag 0 0 [w] =
      refuseIf ((bitsOf w.toNat 16).any fun n => (s.hub.lane n).st != .quarantined) BAD_STATE := by
  have taken := s.hub.executing_onlyIn slQuarRelease mb tag [w]
  have sys := taken .sys (by decide)
  have clk := taken .clk (by decide)
  have lane := Hub.lane_congr (taken .sl (by decide))
  generalize s.hub.executing slQuarRelease mb tag [w] = g at sys clk lane
  have spelled : slQuarRelease.bad g [w] = none := by
    change badIf (!rsv w (2 ^ 16 - 1)) = none
    rw [rsv_of_lt hw]
    rfl
  rw [Hub.checkCmd_word (by decide) (Hub.permitted_release (sys ▸ hr) h7).1 rfl spelled (clk ▸ hs) rfl]
  change refuseIf ((bitsOf w.toNat 16).any fun n => (g.lane n).st != .quarantined) BAD_STATE = _
  simp only [lane]

/-- The one check of CASC_QUAR_RELEASE that depends on the ports. -/
theorem cascQuarRelease_checks (hr : s.hub.sys.recovery = false) (h7 : mb.val ≠ 7) (hs : s.hub.clk.stopped = false) (hw : w.toNat < 2 ^ 2) :
    (s.hub.executing cascQuarRelease mb tag [w]).checkCmd (some cascQuarRelease) mb (cmdHeader cascQuarRelease.opcode [w].length) tag 0 0
      [w] = refuseIf ((bitsOf w.toNat 2).any fun n => (s.hub.cPort n).st != .quarantined) BAD_STATE := by
  have taken := s.hub.executing_onlyIn cascQuarRelease mb tag [w]
  have sys := taken .sys (by decide)
  have clk := taken .clk (by decide)
  have port := Hub.cPort_congr (taken .casc (by decide))
  generalize s.hub.executing cascQuarRelease mb tag [w] = g at sys clk port
  have spelled : cascQuarRelease.bad g [w] = none := by
    change badIf (!rsv w (2 ^ 2 - 1)) = none
    rw [rsv_of_lt hw]
    rfl
  rw [Hub.checkCmd_word (by decide) (Hub.permitted_release (sys ▸ hr) h7).2 rfl spelled (clk ▸ hs) rfl]
  change refuseIf ((bitsOf w.toNat 2).any fun n => (g.cPort n).st != .quarantined) BAD_STATE = _
  simp only [port]

end

/-- No named lane or port fails the test. -/
theorem refuseIf_none {w : Word} {k : Nat} {bad : Nat → Bool} (h : ∀ n, n < k → bit w n = true → bad n = false) (st : Nat) :
    refuseIf ((bitsOf w.toNat k).any bad) st = none := by
  have none : (bitsOf w.toNat k).any bad = false := by
    refine List.any_eq_false.mpr fun n hn => ?_
    have lt : n < k := List.mem_range.mp (List.mem_filter.mp hn).1
    simp [h n lt ((mem_bitsOf_toNat w lt).mp hn)]
  rw [none]
  rfl

/-- A named lane or port fails the test. -/
theorem refuseIf_some {w : Word} {k : Nat} {bad : Nat → Bool} (h : ∃ n, n < k ∧ bit w n = true ∧ bad n = true) (st : Nat) :
    refuseIf ((bitsOf w.toNat k).any bad) st = some (st, []) := by
  obtain ⟨n, lt, on, fails⟩ := h
  have some : (bitsOf w.toNat k).any bad = true := List.any_eq_true.mpr ⟨n, (mem_bitsOf_toNat w lt).mpr on, fails⟩
  rw [some]
  rfl

/-- Settles O15. -/
theorem quarantineRelease : Obligations.QuarantineRelease := by
  unfold Obligations.QuarantineRelease
  refine ⟨rfl, rfl, fun s mb tag w reaches hr h7 hs hw => ⟨fun all => ?_, fun ⟨n, lt, on, st⟩ => ?_⟩,
    fun s mb tag w reaches hr h7 hs hw => ⟨fun all => ?_, fun ⟨n, lt, on, st⟩ => ?_⟩⟩
  · have checks := slQuarRelease_checks (tag := tag) hr h7 hs hw
    rw [refuseIf_none fun n lt on => by simp [all n lt on]] at checks
    exact slQuarRelease_answers (State.takes_of_checkCmd reaches checks)
  · have checks := slQuarRelease_checks (tag := tag) hr h7 hs hw
    rw [refuseIf_some ⟨n, lt, on, by simpa using st⟩] at checks
    obtain ⟨t, next, response, sl, -⟩ := State.answers_refusal reaches rfl checks
    exact ⟨t, next, response, sl⟩
  · have checks := cascQuarRelease_checks (tag := tag) hr h7 hs hw
    rw [refuseIf_none fun n lt on => by simp [all n lt on]] at checks
    exact cascQuarRelease_answers (by decide) (State.takes_of_checkCmd reaches checks)
  · have checks := cascQuarRelease_checks (tag := tag) hr h7 hs hw
    rw [refuseIf_some ⟨n, lt, on, by simpa using st⟩] at checks
    obtain ⟨t, next, response, -, casc⟩ := State.answers_refusal reaches rfl checks
    exact ⟨t, next, response, casc⟩

end Sys2Proof.Machine


/-! PROOFS. Bring-up of the sensor lanes (O58). -/
namespace Sys2Proof.Machine

section
variable {s : State} {n : Fin 16}

/-! ### Loss of lock and retries (R381, R382) -/

theorem slLossOfLock_retrains (hp : s.hub.powered = true) (hs : (s.hub.lane n).st = .up ∨ (s.hub.lane n).st = .training) :
    Does (.slLossOfLock n) s [.tiu, .sl, .casc, .tx] fun t => (t.lane n).st = .training ∧ (t.lane n).step = 1 ∧
      (t.lane n).attempts = 0 ∧ (t.lane n).expect = (s.hub.lane n).expect ∧ (t.lane n).landed = (s.hub.lane n).landed ∧
      (∀ k : Nat, k ≠ n.val → (t.lane k).st = (s.hub.lane k).st) ∧
      (s.hub.tiu.line9.head? ≠ some n.val → ∀ k : Nat, k ≠ n.val → t.lane k = s.hub.lane k) := by
  have begins := s.hub.laneRetrain_begins n
  have row : slLossOfLock n s.hub = s.hub.laneRetrain n := if_pos hs
  refine does_row rfl hp (row ▸ begins.only) ?_
  rw [row, begins.own]
  exact ⟨rfl, rfl, rfl, rfl, rfl, fun k hk => begins.st hk, begins.free⟩

theorem slRetryTimer_retries (hp : s.hub.powered = true) (hd : (s.hub.lane n).st = .down) (late : (s.hub.lane n).stepAt + 491520 ≤ s.hub.xoCycles) :
    Does (.slRetryTimer n) s [.tiu, .sl, .casc, .tx] fun t => (t.lane n).st = .training ∧ (t.lane n).step = 1 ∧ (t.lane n).attempts = 2 ∧
      (∀ k : Nat, k ≠ n.val → (t.lane k).st = (s.hub.lane k).st) ∧
      (s.hub.tiu.line9.head? ≠ some n.val → ∀ k : Nat, k ≠ n.val → t.lane k = s.hub.lane k) := by
  have begins := s.hub.setLane_laneStart_begins n { s.hub.lane n with attempts := 2 }
  have row : slRetryTimer n s.hub = (s.hub.setLane n { s.hub.lane n with attempts := 2 }).laneStart n := if_pos ⟨hd, late⟩
  refine does_row rfl hp (row ▸ begins.only) ?_
  rw [row, begins.own]
  exact ⟨rfl, rfl, rfl, fun k hk => begins.st hk, begins.free⟩

/-! ### The limit of a step (R382) -/

/-- A step exceeds its limit, and the delay measurement is not what fails. -/
structure Hub.StepLate (h : Hub) (x : LaneStep) : Prop where
  step : 7 ≤ (h.lane x.lane).step
  st : (h.lane x.lane).st = .training
  late : (h.lane x.lane).stepAt + stepLimit (h.lane x.lane).step x.phy ≤ h.xoCycles
  measured : (h.lane x.lane).step ≠ 8 ∨ (14 ≤ (h.lane x.lane).delays.length ∧
    (x.lane.val ∉ h.tiu.line9 ∨ h.tiu.line9.head? = some x.lane.val))

/-- The hub whose lane has failed another attempt. -/
def Hub.attempted (h : Hub) (n : Nat) : Hub := h.setLane n { h.lane n with attempts := (h.lane n).attempts + 1 }
/-- The hub whose lane has gone DOWN after its last attempt. -/
def Hub.laneDown (h : Hub) (n : Nat) : Hub :=
  let g := h.line9Free n
  g.setLane n { g.lane n with st := .down, stepAt := g.xoCycles, downRaised := true }

theorem slStepTimeout_late {h : Hub} {x : LaneStep} (hl : h.StepLate x) : slStepTimeout x.lane x.phy h =
    if 3 ≤ (h.lane x.lane).attempts + 1 then
      (if (h.lane x.lane).downRaised then (h.attempted x.lane).laneDown x.lane else ((h.attempted x.lane).laneDown x.lane).raise 111 [])
    else (h.attempted x.lane).laneStart x.lane := by
  obtain ⟨step, st, late, measured⟩ := hl
  have own : phyStep (h.lane x.lane).step x.phy 7 = (h.lane x.lane).step := if_neg (by omega)
  have turn : ((h.lane x.lane).step == 8 && h.tiu.line9.contains x.lane.val && h.tiu.line9.head? != some x.lane.val) = false := by
    obtain other | ⟨-, notin | head⟩ := measured
    · simp [other]
    · simp [notin]
    · simp [head]
  have fails : ¬ ((h.lane x.lane).step = 8 ∧ (h.lane x.lane).delays.length + 3 ≤ 16) := by omega
  unfold slStepTimeout
  simp only [own, turn]
  rw [if_neg (by simp [st]; omega), if_neg fails]
  rfl

theorem slStepTimeout_retrains {x : LaneStep} (hp : s.hub.powered = true) (hl : s.hub.StepLate x) (few : (s.hub.lane x.lane).attempts < 2) :
    Does (.slStepTimeout x) s [.tiu, .sl, .casc, .tx] fun t => (t.lane x.lane).st = .training ∧ (t.lane x.lane).step = 1 ∧
      (t.lane x.lane).attempts = (s.hub.lane x.lane).attempts + 1 ∧ (∀ k : Nat, k ≠ x.lane.val → (t.lane k).st = (s.hub.lane k).st) ∧
      (s.hub.tiu.line9.head? ≠ some x.lane.val → ∀ k : Nat, k ≠ x.lane.val → t.lane k = s.hub.lane k) := by
  have begins := s.hub.setLane_laneStart_begins x.lane { s.hub.lane x.lane with attempts := (s.hub.lane x.lane).attempts + 1 }
  have row : slStepTimeout x.lane x.phy s.hub = (s.hub.attempted x.lane).laneStart x.lane := by
    rw [slStepTimeout_late hl, if_neg (by omega)]
  refine does_row rfl hp (row ▸ begins.only) ?_
  rw [row, Hub.attempted, begins.own]
  exact ⟨rfl, rfl, rfl, fun k hk => begins.st hk, begins.free⟩

theorem Hub.laneDown_onlyIn (h : Hub) (n : Nat) : h.onlyIn [.tiu, .sl, .casc, .tx] (h.laneDown n) :=
  Hub.onlyIn_trans (h.line9Free_probes n).only (Hub.onlyIn_mono (Hub.setLane_onlyIn _ n _) (by decide))

theorem Hub.laneDown_lane (h : Hub) (n k : Nat) : (h.laneDown n).lane k =
    if k = n then { (h.line9Free n).lane n with st := .down, stepAt := (h.line9Free n).xoCycles, downRaised := true }
    else (h.line9Free n).lane k := Hub.setLane_lane _ n k _

theorem slStepTimeout_gives_up {x : LaneStep} (hp : s.hub.powered = true) (hl : s.hub.StepLate x) (last : 2 ≤ (s.hub.lane x.lane).attempts) :
    Does (.slStepTimeout x) s [.host, .evt, .tiu, .sl, .casc, .tx] fun t => (t.lane x.lane).st = .down ∧
      (t.lane x.lane).downRaised = true ∧ ((s.hub.lane x.lane).downRaised = true → t.evt = s.hub.evt) ∧
      (∀ k : Nat, k ≠ x.lane.val → (t.lane k).st = (s.hub.lane k).st) ∧
      (s.hub.tiu.line9.head? ≠ some x.lane.val → ∀ k : Nat, k ≠ x.lane.val → t.lane k = s.hub.lane k) := by
  let g := (s.hub.attempted x.lane).laneDown x.lane
  have only : s.hub.onlyIn [.tiu, .sl, .casc, .tx] g :=
    Hub.onlyIn_trans (Hub.onlyIn_mono (s.hub.setLane_onlyIn x.lane _) (by decide)) (Hub.laneDown_onlyIn _ x.lane)
  have row : slStepTimeout x.lane x.phy s.hub = if (s.hub.lane x.lane).downRaised then g else g.raise 111 [] := by
    rw [slStepTimeout_late hl, if_pos (by omega)]
  have raised : g.onlyIn [.host, .evt, .tx] (slStepTimeout x.lane x.phy s.hub) ∧
      ((s.hub.lane x.lane).downRaised = true → slStepTimeout x.lane x.phy s.hub = g) := by
    rw [row]
    split
    · exact ⟨g.onlyIn_refl _, fun _ => rfl⟩
    · next fresh => exact ⟨g.raise_onlyIn 111 [], fun again => absurd again fresh⟩
  obtain ⟨logged, quiet⟩ := raised
  have probes := (s.hub.attempted x.lane).line9Free_probes x.lane
  have lane : ∀ k, (slStepTimeout x.lane x.phy s.hub).lane k = g.lane k := Hub.lane_congr (logged .sl (by decide))
  refine does_row rfl hp (Hub.onlyIn_trans (Hub.onlyIn_mono only (by decide)) (Hub.onlyIn_mono logged (by decide)))
    ⟨?_, ?_, fun again => ?_, fun k hk => ?_, fun free k hk => ?_⟩
  · simp only [lane, g, Hub.laneDown_lane, if_true]
  · simp only [lane, g, Hub.laneDown_lane, if_true]
  · rw [quiet again]
    exact only .evt (by decide)
  · simp only [lane, g, Hub.laneDown_lane, if_neg hk, probes.st]
    simp [Hub.attempted, hk]
  · have kept := (s.hub.attempted x.lane).line9Free_lane (r := x.lane.val) free k
    simp only [lane, g, Hub.laneDown_lane, if_neg hk, kept]
    simp [Hub.attempted, hk]

theorem slStepTimeout_early {h : Hub} {x : LaneStep}
    (he : (h.lane x.lane).st ≠ .training ∨ h.xoCycles < (h.lane x.lane).stepAt + phyLimit 0 ∧ 7 ≤ (h.lane x.lane).step) :
    slStepTimeout x.lane x.phy h = h := by
  refine if_pos ?_
  obtain st | ⟨early, step⟩ := he
  · exact Or.inl st
  · have own : phyStep (h.lane x.lane).step x.phy 7 = (h.lane x.lane).step := if_neg (by omega)
    have least : phyLimit 0 ≤ stepLimit (h.lane x.lane).step x.phy := by
      rw [stepLimit, if_neg (by omega), phyLimit, if_pos rfl]
      split_ifs <;> omega
    refine Or.inr (Or.inr ?_)
    change h.xoCycles < (h.lane x.lane).stepAt + stepLimit (phyStep (h.lane x.lane).step x.phy 7) x.phy
    rw [own]
    omega

/-! ### Comma alignment and HELLO (R381, R394) -/

theorem slCommaAlignment_aligns {inverted : Bool} (hp : s.hub.powered = true) (hs : (s.hub.lane n).st = .training) (hl : (s.hub.lane n).step < 7) :
    Does (.slCommaAlignment n inverted) s [.sl, .tx, .free] fun t => (t.lane n).st = .training ∧ (t.lane n).step = 7 ∧
      (t.lane n).inverted = inverted ∧ (∀ k : Nat, k ≠ n.val → t.lane k = s.hub.lane k) ∧
      ∃ b, t.tx = s.hub.tx ++ [.lane n 8 1 (s.hub.lane n).cseq b] := by
  have row : ∃ g payload, slCommaAlignment n inverted s.hub = g.laneSend n 8 1 payload ∧ g =
      s.hub.draw.2.setLane n { s.hub.lane n with step := 7, stepAt := s.hub.xoCycles, inverted := inverted, nonceH := s.hub.draw.1 } :=
    ⟨_, _, if_pos ⟨hs, hl⟩, rfl⟩
  obtain ⟨g, payload, row, aligned⟩ := row
  have lane : ∀ k, g.lane k = if k = n.val then
      { s.hub.lane n with step := 7, stepAt := s.hub.xoCycles, inverted := inverted, nonceH := s.hub.draw.1 } else s.hub.lane k := by
    intro k
    rw [aligned, Hub.setLane_lane]
    rfl
  have only : s.hub.onlyIn [.sl, .free] g := by simp [Hub.onlyIn_iff, aligned, Hub.setLane, Hub.draw]
  refine does_row rfl hp ?_ ?_
  · rw [row]
    exact Hub.onlyIn_trans (Hub.onlyIn_mono only (by decide)) (Hub.onlyIn_mono (g.laneSend_onlyIn _ _ _ _) (by decide))
  · rw [row]
    refine ⟨by simp [lane, hs], by simp [lane], by simp [lane], fun k hk => by simp [lane, hk], ?_⟩
    obtain ⟨b, sent⟩ := g.laneSend_tx n 8 1 payload
    rw [sent, only .tx (by decide), lane, if_pos rfl]
    exact ⟨b, rfl⟩

/-! ### STATUS frames (R392) -/

/-- The hub that has taken the CSEQ of a STATUS frame. -/
def Hub.statusSeen (h : Hub) (n : Nat) (f : List Byte) : Hub :=
  h.setLane n { h.lane n with rxCseq := (frameSeq f + 1) % 2 ^ 32
                              cseqGaps := sat32 ((h.lane n).cseqGaps + if frameSeq f = (h.lane n).rxCseq then 0 else 1) }

theorem Hub.laneStatus_good {h : Hub} {n sub len : Nat} {intact : Bool} {f b : List Byte} (hh : h.clk.held = false)
    (hf : frameFault 2 sub (if sub = 1 then 0 else (h.lane n).level) 0 intact f = none) (hb : framePay f = b) (hl : b.length = len) :
    h.laneStatus n sub len intact f = (h.statusSeen n f, some b) := by
  subst hb
  simp only [Hub.laneStatus, hh, hf, hl, Bool.false_eq_true, if_false, if_true]
  rfl

/-! ### HELLO (R388, R394, R398, R402 to R404) -/

/-- A STATUS HELLO with payload `b` that is well formed, proves the key of slot 0, and names a level that both ends serve. -/
structure Hub.HelloGood (h : Hub) (n : Nat) (intact : Bool) (f b : List Byte) : Prop where
  running : h.clk.held = false
  st : (h.lane n).st = .training
  step : (h.lane n).step = 7
  fault : frameFault 2 1 0 0 intact f = none
  pay : framePay f = b
  len : b.length = 56
  zero : at_ b 11 1 = 0 ∧ at_ b 22 2 = 0
  key : (h.sto.laneKeys.get 0).key ≠ []
  mac : mac16 (bytesOf (h.sto.laneKeys.get 0).key) (laneM 1 n h.sys.straps.hubId (at_ b 0 8)
      (padTo 16 ((h.lane n).nonceH.take 16)) ((b.drop 24).take 16) h.lvMin h.lvMax (at_ b 8 1) (at_ b 9 1)) = (b.drop 40).take 16
  serial : (h.lane n).use.serial = 0 ∧ (h.lane n).lastSerial = 0
  level : h.lvMin ≤ min h.lvMax (at_ b 9 1) ∧ at_ b 8 1 ≤ min h.lvMax (at_ b 9 1)
  retain : 600 ≤ at_ b 12 4

/-- The lane after such a HELLO. -/
def Lane.helloed (x : Lane) (b : List Byte) (lv now : Nat) : Lane :=
  { x with
    serial := at_ b 0 8, lastSerial := at_ b 0 8, level := lv, podMin := at_ b 8 1, podMax := at_ b 9 1, nslots := at_ b 10 1,
    retain := min 120000 (at_ b 12 4), turnDecl := at_ b 16 4, holdPpm := at_ b 20 2, nonceP := (b.drop 24).take 16, step := 8,
    stepAt := now, delays := [], turn := 0 }

theorem slHelloReceive_good {h : Hub} {n : Nat} {intact : Bool} {f b : List Byte} (hg : h.HelloGood n intact f b) :
    ∃ payload, slHelloReceive n intact f h =
      (((h.statusSeen n f).setLane n (((h.statusSeen n f).lane n).helloed b (min h.lvMax (at_ b 9 1)) h.xoCycles)).laneSend n 8 2
        payload).line9Ask n := by
  obtain ⟨running, st, step, fault, pay, len, ⟨zero, zero'⟩, key, mac, ⟨serial, last⟩, ⟨low, pod⟩, retain⟩ := hg
  have seen := Hub.laneStatus_good (n := n) (sub := 1) running fault pay len
  have lane : (h.statusSeen n f).lane n = { h.lane n with
      rxCseq := (frameSeq f + 1) % 2 ^ 32
      cseqGaps := sat32 ((h.lane n).cseqGaps + if frameSeq f = (h.lane n).rxCseq then 0 else 1) } := by simp [Hub.statusSeen]
  have proves : ([0, 1].any fun k => ((h.statusSeen n f).sto.laneKeys.get k).key != [] &&
      mac16 (bytesOf ((h.statusSeen n f).sto.laneKeys.get k).key) (laneM 1 n (h.statusSeen n f).sys.straps.hubId (at_ b 0 8)
        (padTo 16 (((h.statusSeen n f).lane n).nonceH.take 16)) ((b.drop 24).take 16) (h.statusSeen n f).lvMin (h.statusSeen n f).lvMax
        (at_ b 8 1) (at_ b 9 1)) == (b.drop 40).take 16) = true := by
    refine List.any_eq_true.mpr ⟨0, by simp, ?_⟩
    rw [lane]
    exact Bool.and_eq_true_iff.mpr ⟨by simpa [Hub.statusSeen, Hub.setLane] using key, beq_iff_eq.mpr mac⟩
  have serial' : ((h.statusSeen n f).lane n).use.serial = 0 ∧ ((h.statusSeen n f).lane n).lastSerial = 0 := by
    rw [lane]
    exact ⟨serial, last⟩
  have least : ¬ (min (h.statusSeen n f).lvMax (at_ b 9 1) < (h.statusSeen n f).lvMin ∨
      min (h.statusSeen n f).lvMax (at_ b 9 1) < at_ b 8 1 ∨ at_ b 12 4 < 600) :=
    not_or.mpr ⟨not_lt.mpr low, not_or.mpr ⟨not_lt.mpr pod, not_lt.mpr retain⟩⟩
  unfold slHelloReceive
  rw [if_neg (by simp [st, step]), seen]
  dsimp only
  rw [if_neg (by simp [zero, zero']), proves, if_neg (by simp [serial']), if_neg least]
  exact ⟨_, rfl⟩

theorem Hub.statusSeen_lane (h : Hub) (n k : Nat) (f : List Byte) : (h.statusSeen n f).lane k = if k = n then
    { h.lane n with rxCseq := (frameSeq f + 1) % 2 ^ 32
                    cseqGaps := sat32 ((h.lane n).cseqGaps + if frameSeq f = (h.lane n).rxCseq then 0 else 1) } else h.lane k :=
  Hub.setLane_lane h n k _

theorem Hub.probesOf_training {h : Hub} {n : Nat} (hn : n < 16) (hs : (h.lane n).st = .training) (h8 : (h.lane n).step = 8) :
    h.probesOf n = 16 := by simp [Hub.probesOf, hn, hs, h8]

theorem Hub.probesOf_up {h : Hub} {n : Nat} (hn : n < 16) (hs : (h.lane n).st = .up) : h.probesOf n = 1 := by simp [Hub.probesOf, hn, hs]

theorem slHelloReceive_leads {intact : Bool} {f b : List Byte} (hp : s.hub.powered = true) (hg : s.hub.HelloGood n intact f b) :
    Does (.slHelloReceive n intact f) s [.tiu, .sl, .casc, .tx] fun t => (t.lane n).st = .training ∧ (t.lane n).step = 8 ∧
      (t.lane n).serial = at_ b 0 8 ∧ (t.lane n).level = min s.hub.lvMax (at_ b 9 1) ∧ (t.lane n).retain = min 120000 (at_ b 12 4) ∧
      (t.lane n).turnDecl = at_ b 16 4 ∧ (t.lane n).holdPpm = at_ b 20 2 ∧ n.val ∈ t.tiu.line9 ∧
      (s.hub.line9Stale = false → ∀ k : Nat, k ≠ n.val → t.lane k = s.hub.lane k) := by
  obtain ⟨payload, row⟩ := slHelloReceive_good hg
  have st := hg.st
  let x := ((s.hub.statusSeen n f).lane n).helloed b (min s.hub.lvMax (at_ b 9 1)) s.hub.xoCycles
  generalize hk : ((s.hub.statusSeen n f).setLane n x).laneSend n 8 2 payload = k at row
  have only : s.hub.onlyIn [.sl, .tx] k := by
    subst hk
    exact Hub.onlyIn_trans (Hub.onlyIn_mono (s.hub.setLane_onlyIn n _) (by decide))
      (Hub.onlyIn_trans (Hub.onlyIn_mono (Hub.setLane_onlyIn _ n x) (by decide)) (Hub.laneSend_onlyIn _ _ _ _ _))
  have own : k.lane n = { x with cseq := (x.cseq + 1) % 2 ^ 32 } := by simp [← hk]
  have other : ∀ j, j ≠ n.val → k.lane j = s.hub.lane j := fun j hj => by simp [← hk, hj, Hub.statusSeen_lane]
  have training : x.st = .training := by simp [x, Lane.helloed, Hub.statusSeen_lane, st]
  have probes := k.line9Ask_probes n
  have kept := probes.lane n
  rw [own] at kept
  have busy : k.probesOf n ≠ 0 := by
    rw [Hub.probesOf_training n.isLt (by rw [own]; exact training) (by rw [own]; rfl)]
    decide
  have stale : k.line9Stale = s.hub.line9Stale := by
    have tb : k.tb = s.hub.tb := only .tb (by decide)
    have tiu : k.tiu = s.hub.tiu := only .tiu (by decide)
    unfold Hub.line9Stale Hub.xoCycles
    rw [tb, tiu]
  refine does_row rfl hp ?_ ?_
  · rw [row]
    exact Hub.onlyIn_trans (Hub.onlyIn_mono only (by decide)) probes.only
  · rw [row]
    refine ⟨(congrArg Lane.st kept :).trans training, (congrArg Lane.step kept :), (congrArg Lane.serial kept :), (congrArg Lane.level kept :),
      (congrArg Lane.retain kept :), (congrArg Lane.turnDecl kept :), (congrArg Lane.holdPpm kept :), k.line9Ask_mem busy, fun fresh j hj => ?_⟩
    exact (k.line9Ask_lane (stale.trans fresh) hj).trans (other j hj)

end

end Sys2Proof.Machine


/-! PROOFS. Frames and timers of the sensor lanes (O58). -/
namespace Sys2Proof.Machine

/-! ### What landing leaves of a lane (R396, R397) -/

/-- Of a lane: its state, the DSEQ and count that it expects next, and the credit used. -/
def Lane.taking (x : Lane) : LinkState × Option Nat × Option Nat × Nat := (x.st, x.expect, x.lastC, x.used)

/-- From `h` to `g` samples were fed and records landed; what the lanes expect next stays. -/
structure Hub.KeepsTaking (h g : Hub) : Prop where
  only : h.onlyIn [.host, .evt, .jrn, .sto, .flt, .sl, .tx] g
  lane : ∀ n, (g.lane n).taking = (h.lane n).taking

theorem Hub.KeepsTaking.refl (h : Hub) : h.KeepsTaking h := ⟨h.onlyIn_refl _, fun _ => rfl⟩

theorem Hub.KeepsTaking.trans {h g t : Hub} (hg : h.KeepsTaking g) (gt : g.KeepsTaking t) : h.KeepsTaking t :=
  ⟨Hub.onlyIn_trans hg.only gt.only, fun n => (gt.lane n).trans (hg.lane n)⟩

theorem Hub.KeepsTaking.foldl {α : Type} {f : Hub → α → Hub} (hf : ∀ (g : Hub) a, g.KeepsTaking (f g a)) (l : List α) (h : Hub) :
    h.KeepsTaking (l.foldl f h) := by
  induction l generalizing h with
  | nil => exact .refl h
  | cons a l ih => exact (hf h a).trans (ih _)

/-- What leaves the lanes alone keeps them. -/
theorem Hub.keepsTaking_of_onlyIn {h g : Hub} {cs : List Chapter} (hg : h.onlyIn cs g) (hs : cs ⊆ [.host, .evt, .jrn, .sto, .flt, .tx]) :
    h.KeepsTaking g := by
  have sl : g.sl = h.sl := hg .sl fun hc => absurd (hs hc) (by decide)
  exact ⟨Hub.onlyIn_mono hg (List.Subset.trans hs (by decide)), fun n => by rw [Hub.lane_congr sl]⟩

theorem Hub.setLane_keepsTaking (h : Hub) (n : Nat) (x : Lane) (hx : x.taking = (h.lane n).taking) : h.KeepsTaking (h.setLane n x) := by
  refine ⟨Hub.onlyIn_mono (h.setLane_onlyIn n x) (by decide), fun k => ?_⟩
  rw [Hub.setLane_lane]
  split
  · next e => rw [hx, e]
  · rfl

theorem Hub.laneSend_keepsTaking (h : Hub) (n type sub : Nat) (payload : List Byte) : h.KeepsTaking (h.laneSend n type sub payload) := by
  refine ⟨Hub.onlyIn_mono (h.laneSend_onlyIn n type sub payload) (by decide), fun k => ?_⟩
  rw [Hub.laneSend_lane]
  split
  · next e => rw [e]; rfl
  · rfl

theorem Hub.sendLanded_keepsTaking (h : Hub) (n : Nat) (all : Bool) : h.KeepsTaking (h.sendLanded n all) :=
  (h.setLane_keepsTaking n { h.lane n with landedAt := h.xoCycles } rfl).trans (Hub.laneSend_keepsTaking _ _ _ _ _)

theorem Hub.markAdvance_taking (h : Hub) (x : Lane) (fs : List OpenFrame) : (h.markAdvance x fs).taking = x.taking := by
  induction fs generalizing x with
  | nil => rfl
  | cons f fs ih =>
    unfold Hub.markAdvance
    split
    · exact ih _
    · rfl

/-- The landed marks move alone (R397). -/
theorem Hub.slMarks_keepsTaking (h : Hub) : h.KeepsTaking h.slMarks := by
  refine .foldl (fun g n => ?_) _ _
  have marked := g.setLane_keepsTaking n _ (g.markAdvance_taking (g.lane n) (g.lane n).open_)
  have passed : ∀ fs, g.KeepsTaking ((g.setLane n (g.markAdvance (g.lane n) (g.lane n).open_)).fatesPass fs) := fun fs =>
    marked.trans (Hub.keepsTaking_of_onlyIn (Hub.fatesPass_onlyIn _ fs) (by decide))
  dsimp only
  split_ifs
  · exact .refl g
  · exact (passed _).trans (Hub.sendLanded_keepsTaking _ n false)
  · exact passed _

theorem Hub.landHealth_keepsTaking (h : Hub) (subtype epoch : Nat) (t : T64) (body : List Byte) :
    h.KeepsTaking (h.landHealth subtype epoch t body) :=
  Hub.keepsTaking_of_onlyIn (h.land_records ..).raises.only (by decide)

theorem Hub.completes_onlyIn {α : Type} (h : Hub) (hd : α → Nat) (status : Nat) (l : List α) :
    h.onlyIn [.host, .tx] (l.foldl (fun h r => h.complete (hd r) status []) h) := Hub.onlyIn_foldl (fun g _ => g.complete_onlyIn _ _ _) l h

/-! ### Samples (R32, R396, R400, R401) -/

theorem Hub.laneResetDone_keepsTaking (h : Hub) (n : Nat) : h.KeepsTaking (h.laneResetDone n) :=
  (h.setLane_keepsTaking n { h.lane n with reset := [] } rfl).trans
    (Hub.keepsTaking_of_onlyIn (Hub.completes_onlyIn _ (fun r : Nat × Nat => r.1) DONE _) (by decide))

theorem Hub.slSlot_onlyIn (h : Hub) (n c : Nat) (hold : Bool) (e : SlotEnt) : h.onlyIn [.flt] (h.slSlot n c hold e).1 := by
  unfold Hub.slSlot
  extract_lets x ch r m i0 ep
  generalize List.range e.vals.length = l
  suffices fed : ∀ acc : Hub × Option (Nat × Nat × T64), h.onlyIn [.flt] acc.1 → h.onlyIn [.flt] (l.foldl _ acc).1 from fed _ (h.onlyIn_refl _)
  intro acc ha
  induction l generalizing acc with
  | nil => exact ha
  | cons j l ih =>
    refine ih _ ?_
    dsimp only
    split_ifs
    · exact Hub.onlyIn_trans ha (Hub.slFeed_onlyIn _ _ _)
    · exact Hub.onlyIn_trans ha (Hub.slFeed_onlyIn _ _ _)
    · exact Hub.onlyIn_trans ha (Hub.slFeed_onlyIn _ _ _)

theorem Hub.holdEnd_keepsTaking (h : Hub) (n : Nat) : h.KeepsTaking (h.holdEnd n) := by
  unfold Hub.holdEnd
  dsimp only
  split
  · exact .refl h
  · exact (h.setLane_keepsTaking n { h.lane n with hold := none } rfl).trans (Hub.landHealth_keepsTaking _ _ _ _ _)

theorem Hub.holdFrame_keepsTaking (h : Hub) (n : Nat) (m : StrobeMap) : h.KeepsTaking (h.holdFrame n m) := by
  unfold Hub.holdFrame
  extract_lets g
  have ended : h.KeepsTaking g := by
    unfold g
    split
    · exact h.holdEnd_keepsTaking n
    · exact .refl h
  exact ended.trans (g.setLane_keepsTaking n _ rfl)

/-- The samples of a frame are fed slot by slot. -/
theorem Hub.slSlots_onlyIn (h : Hub) (n c : Nat) (hold : Bool) (es : List SlotEnt) (l : List (Nat × Nat × T64)) :
    h.onlyIn [.flt] (es.foldl (fun (acc : Hub × List (Nat × Nat × T64)) e =>
      let r := acc.1.slSlot n c hold e
      (r.1, acc.2 ++ r.2.toList)) (h, l)).1 := by
  induction es generalizing h l with
  | nil => exact h.onlyIn_refl _
  | cons e es ih => exact Hub.onlyIn_trans (h.slSlot_onlyIn n c hold e) (ih _ _)

theorem Hub.sampleAccept_takes (h : Hub) (n seq c : Nat) (hold : Bool) (es : List SlotEnt) :
    h.onlyIn [.host, .evt, .jrn, .sto, .flt, .sl, .tx] (h.sampleAccept n seq c hold es) ∧
      ((h.sampleAccept n seq c hold es).lane n).taking = ((h.lane n).st, some ((seq + 1) % 2 ^ 32), some c, (h.lane n).used) := by
  unfold Hub.sampleAccept
  extract_lets g x disc k r t u y
  have done : h.KeepsTaking g := h.laneResetDone_keepsTaking n
  have kept := done.lane n
  simp only [Lane.taking, Prod.mk.injEq] at kept
  obtain ⟨st, -, -, used⟩ := kept
  have expects : (k.lane n).taking = ((h.lane n).st, some ((seq + 1) % 2 ^ 32), some c, (h.lane n).used) := by
    rw [Hub.setLane_lane, if_pos rfl, ← st, ← used]
    rfl
  have only : h.onlyIn [.host, .evt, .jrn, .sto, .flt, .sl, .tx] k := Hub.onlyIn_trans done.only (Hub.onlyIn_mono (g.setLane_onlyIn n _) (by decide))
  have fed : k.KeepsTaking t := Hub.keepsTaking_of_onlyIn (k.slSlots_onlyIn n c hold es []) (by decide)
  have held : t.KeepsTaking u := by
    unfold u
    split
    · split_ifs
      · exact t.holdFrame_keepsTaking n _
      · exact .refl t
      · exact t.holdEnd_keepsTaking n
    · exact .refl t
  have opened : u.KeepsTaking (u.setLane n { y with open_ := y.open_ ++ [{ seq := seq, left := r.2, n := 1 }] }) := u.setLane_keepsTaking n _ rfl
  have whole := ((fed.trans held).trans opened).trans (Hub.slMarks_keepsTaking _)
  exact ⟨Hub.onlyIn_trans only whole.only, (whole.lane n).trans expects⟩

section
variable {s : State} {n : Fin 16}

/-- A SAMPLE frame with payload `b` and slot entries `es` arrives on a lane that is up, within its credit, and its link checks pass. -/
structure Hub.Samples (h : Hub) (n : Nat) (intact : Bool) (f b : List Byte) (es : List SlotEnt) : Prop where
  up : (h.lane n).st = .up
  running : h.clk.held = false
  credit : (h.lane n).used + ceilDiv (f.length + 2) 64 ≤ (h.lane n).limit
  fault : frameFault 1 0 (h.lane n).level 3 intact f = none
  pay : framePay f = b
  slots : slotEnts (if 2 ≤ (h.lane n).level then 12 else 4) (at_ b 5 1) 0 (b.drop 8) = some es
  form : 8 ≤ b.length ∧ at_ b 4 1 ≤ 63 ∧ at_ b 6 2 = 0
  some_ : es ≠ []
  few : es.length ≤ 32

/-- A lane that a frame of `len` bytes has used and given back credit for. -/
def Lane.credited (x : Lane) (len : Nat) : Lane := { x with used := x.used + ceilDiv (len + 2) 64, limit := x.limit + ceilDiv (len + 2) 64 }
/-- The hub that has returned a frame's credit. -/
def Hub.sampleCredit (h : Hub) (n len : Nat) : Hub :=
  (h.setLane n ((h.lane n).credited len)).laneSend n 9 0 (b4 (((h.lane n).credited len).limit % 2 ^ 32))

theorem Hub.sampleCredit_lane (h : Hub) (n len k : Nat) : (h.sampleCredit n len).lane k =
    if k = n then { (h.lane n).credited len with cseq := ((h.lane n).cseq + 1) % 2 ^ 32 } else h.lane k := by
  rw [Hub.sampleCredit, Hub.laneSend_lane]
  split <;> simp [*, Lane.credited]

theorem Hub.sampleCredit_onlyIn (h : Hub) (n len : Nat) : h.onlyIn [.sl, .tx] (h.sampleCredit n len) :=
  Hub.onlyIn_trans (Hub.onlyIn_mono (h.setLane_onlyIn n _) (by decide)) (Hub.laneSend_onlyIn _ _ _ _ _)

/-- What the checks of a frame's content look at, returning its credit leaves alone. -/
theorem Hub.sampleCredit_fault (h : Hub) (n len c idx : Nat) (replay : Bool) (es : List SlotEnt) :
    (h.sampleCredit n len).sampleFault n c idx replay es = h.sampleFault n c idx replay es := by
  have lane : ((h.sampleCredit n len).lane n).lastC = (h.lane n).lastC := by rw [Hub.sampleCredit_lane, if_pos rfl, Lane.credited]
  have map : (h.sampleCredit n len).strobeMap c = h.strobeMap c := (rfl)
  have count : (h.sampleCredit n len).sl.count = h.sl.count := (rfl)
  have known : (h.sampleCredit n len).countKnown c = h.countKnown c := by rw [Hub.countKnown, count, Hub.countKnown]
  have cfg : (h.sampleCredit n len).cfg = h.cfg := h.sampleCredit_onlyIn n len .cfg (by decide)
  unfold Hub.sampleFault
  dsimp only
  rw [lane, map, known, cfg]

theorem slSampleFrame_samples {h : Hub} {n : Nat} {intact : Bool} {f b : List Byte} {es : List SlotEnt} {e : Nat} (hs : h.Samples n intact f b es)
    (he : (h.lane n).expect = some e)
    (hc : h.sampleFault n (at_ b 0 4) (at_ b 4 1) (decide (diff32 (frameSeq f) e < 0)) es = none) : slSampleFrame n intact f h =
      if diff32 (frameSeq f) e < 0 then (h.sampleCredit n f.length).setLane n { (h.sampleCredit n f.length).lane n with
        counts := bump ((h.sampleCredit n f.length).lane n).counts 7 1 }
      else if 0 < diff32 (frameSeq f) e then (h.sampleCredit n f.length).laneViolation n 3 true
      else (h.sampleCredit n f.length).sampleAccept n (frameSeq f) (at_ b 0 4) (at_ f 9 1 / 2 % 2 == 1) es := by
  obtain ⟨up, running, credit, fault, pay, slots, ⟨len, idx, zero⟩, some_, few⟩ := hs
  have within : ¬ (h.lane n).limit < (h.lane n).used + ceilDiv (f.length + 2) 64 := not_lt.mpr credit
  have formed : ¬ (b.length < 8 ∨ 63 < at_ b 4 1 ∨ at_ b 6 2 ≠ 0 ∨ es.isEmpty = true ∨ 32 < es.length) := by
    have full : es.isEmpty = false := by simpa using some_
    rw [full]
    simp only [Bool.false_eq_true, false_or]
    omega
  rw [← Hub.sampleCredit_fault h n f.length] at hc
  simp only [Hub.sampleCredit, Lane.credited, up, he] at hc ⊢
  simp only [slSampleFrame, up, running, fault, pay, slots, he, hc, ne_eq, not_true_eq_false, if_false, Bool.false_eq_true, formed, within,
    decide_false, Option.getD_some]

theorem slSampleFrame_accepts {intact : Bool} {f b : List Byte} {es : List SlotEnt} (hp : s.hub.powered = true)
    (hs : s.hub.Samples n intact f b es) (he : (s.hub.lane n).expect = some (frameSeq f))
    (hc : s.hub.sampleFault n (at_ b 0 4) (at_ b 4 1) false es = none) :
    Does (.slSampleFrame n intact f) s [.host, .evt, .jrn, .sto, .flt, .sl, .tx] fun t =>
      (t.lane n).expect = some ((frameSeq f + 1) % 2 ^ 32) ∧ (t.lane n).lastC = some (at_ b 0 4) ∧
      (t.lane n).used = (s.hub.lane n).used + ceilDiv (f.length + 2) 64 ∧ (t.lane n).st = .up := by
  have order : diff32 (frameSeq f) (frameSeq f) = 0 := diff32_self (frameSeq_lt f)
  have row := slSampleFrame_samples hs he (by rw [order]; exact hc)
  rw [order, if_neg (by decide), if_neg (by decide)] at row
  obtain ⟨only, takes⟩ := (s.hub.sampleCredit n f.length).sampleAccept_takes n (frameSeq f) (at_ b 0 4) (at_ f 9 1 / 2 % 2 == 1) es
  rw [← row, Hub.sampleCredit_lane, if_pos rfl] at takes
  simp only [Lane.taking, Prod.mk.injEq] at takes
  obtain ⟨st, expect, lastC, used⟩ := takes
  exact does_row rfl hp (row ▸ Hub.onlyIn_trans (Hub.onlyIn_mono (s.hub.sampleCredit_onlyIn n _) (by decide)) only)
    ⟨expect, lastC, used, st.trans hs.up⟩

theorem slSampleFrame_replays {intact : Bool} {f b : List Byte} {es : List SlotEnt} {e : Nat} (hp : s.hub.powered = true)
    (hs : s.hub.Samples n intact f b es) (he : (s.hub.lane n).expect = some e) (old : diff32 (frameSeq f) e < 0)
    (hc : s.hub.sampleFault n (at_ b 0 4) (at_ b 4 1) true es = none) :
    Does (.slSampleFrame n intact f) s [.sl, .tx] fun t => (t.lane n).expect = some e ∧
      (t.lane n).counts = bump (s.hub.lane n).counts 7 1 ∧ ∀ k : Nat, k ≠ n.val → t.lane k = s.hub.lane k := by
  have row := slSampleFrame_samples hs he (by rw [decide_eq_true old]; exact hc)
  rw [if_pos old] at row
  refine does_row rfl hp ?_ ?_
  · rw [row]
    exact Hub.onlyIn_trans (s.hub.sampleCredit_onlyIn n _) (Hub.onlyIn_mono (Hub.setLane_onlyIn _ n _) (by decide))
  · rw [row]
    refine ⟨?_, ?_, fun k hk => ?_⟩
    · rw [Hub.setLane_lane, if_pos rfl, Hub.sampleCredit_lane, if_pos rfl]
      exact he
    · rw [Hub.setLane_lane, if_pos rfl, Hub.sampleCredit_lane, if_pos rfl]
      rfl
    · rw [Hub.setLane_lane, if_neg hk, Hub.sampleCredit_lane, if_neg hk]

theorem slSampleFrame_held {intact : Bool} {f : List Byte} (hp : s.hub.powered = true) (up : (s.hub.lane n).st = .up)
    (held : s.hub.clk.held = true) :
    Does (.slSampleFrame n intact f) s [.sl] fun t => t.lane n = (s.hub.lane n).credited f.length ∧
      ∀ k : Nat, k ≠ n.val → t.lane k = s.hub.lane k := by
  have row : slSampleFrame n intact f s.hub = s.hub.setLane n ((s.hub.lane n).credited f.length) := by
    simp only [slSampleFrame, up, held, ne_eq, not_true_eq_false, if_false, if_true, Lane.credited]
  refine does_row rfl hp (row ▸ s.hub.setLane_onlyIn n _) ?_
  rw [row]
  exact ⟨by simp, fun k hk => by simp [hk]⟩

/-! ### Slot settings (R391, R410) -/

/-- The hub that has taken a SLOT_ACK which grants the request `q` as it is already in force. -/
def Hub.slotGranted (h : Hub) (n slot : Nat) (q : SlotReq) (d : Int) : Hub :=
  let h := h.setLane n { h.lane n with slotReqs := (h.lane n).slotReqs.erase q }
  let h := { h with cfg := { h.cfg with slots := h.cfg.slots.put (32 * n + slot) { enable := q.enable, rate := q.rate } } }
  h.setChain (128 + 32 * n + slot) { h.chain (128 + 32 * n + slot) with d := d }

theorem slSlotAckReceive_grants {h : Hub} {n : Nat} {intact : Bool} {f b : List Byte} {q : SlotReq} (up : (h.lane n).st = .up)
    (running : h.clk.held = false) (fault : frameFault 2 2 (h.lane n).level 0 intact f = none) (pay : framePay f = b) (len : b.length = 12)
    (ok : at_ b 1 1 = 0) (zero : at_ b 2 2 = 0) (asked : (h.lane n).slotReqs.find? (·.slot == at_ b 0 1) = some q)
    (same : h.cfg.slots.get (32 * n + at_ b 0 1) = { enable := q.enable, rate := q.rate }) :
    slSlotAckReceive n intact f h = (((h.statusSeen n f).slotGranted n (at_ b 0 1) q (signed 32 (at_ b 8 4))).complete q.handle DONE
      [wd (at_ b 8 4), wd (at_ b 1 1)]) := by
  have seen := Hub.laneStatus_good (n := n) (sub := 2) running fault pay len
  have asked' : ((h.statusSeen n f).lane n).slotReqs.find? (·.slot == at_ b 0 1) = some q := by
    rw [Hub.statusSeen_lane, if_pos rfl]
    exact asked
  have kept : ∀ x : Lane, ((h.statusSeen n f).setLane n x).cfg.slots.get (32 * n + at_ b 0 1) = { enable := q.enable, rate := q.rate } :=
    fun _ => same
  unfold slSlotAckReceive
  rw [if_neg (not_not.mpr up), seen]
  dsimp only
  rw [if_neg (not_not.mpr zero), asked']
  dsimp only
  rw [ok, if_pos (kept _)]
  rfl

theorem slSlotAckReceive_does {intact : Bool} {f b : List Byte} {q : SlotReq} (hp : s.hub.powered = true) (up : (s.hub.lane n).st = .up)
    (running : s.hub.clk.held = false) (fault : frameFault 2 2 (s.hub.lane n).level 0 intact f = none) (pay : framePay f = b)
    (len : b.length = 12) (ok : at_ b 1 1 = 0) (zero : at_ b 2 2 = 0) (asked : (s.hub.lane n).slotReqs.find? (·.slot == at_ b 0 1) = some q)
    (same : s.hub.cfg.slots.get (32 * n.val + at_ b 0 1) = { enable := q.enable, rate := q.rate }) :
    Does (.slSlotAckReceive n intact f) s [.cfg, .host, .flt, .sl, .tx] fun t => t.cfg =
      { s.hub.cfg with slots := s.hub.cfg.slots.put (32 * n.val + at_ b 0 1) { enable := q.enable, rate := q.rate } } ∧
      (t.lane n).slotReqs = (s.hub.lane n).slotReqs.erase q ∧ (t.chain (128 + 32 * n.val + at_ b 0 1)).d = signed 32 (at_ b 8 4) ∧
      ∀ k : Nat, k ≠ n.val → t.lane k = s.hub.lane k := by
  have row := slSlotAckReceive_grants up running fault pay len ok zero asked same
  generalize hg : (s.hub.statusSeen n f).slotGranted n (at_ b 0 1) q (signed 32 (at_ b 8 4)) = g at row
  have done := g.complete_onlyIn q.handle DONE [wd (at_ b 8 4), wd (at_ b 1 1)]
  have lane : ∀ k, (slSlotAckReceive n intact f s.hub).lane k = g.lane k := fun k => by
    rw [row]
    exact Hub.lane_congr (done .sl (by decide)) k
  have own : g.lane n = { (s.hub.statusSeen n f).lane n with slotReqs := ((s.hub.statusSeen n f).lane n).slotReqs.erase q } := by
    subst hg
    exact (Hub.setLane_lane _ _ _ _).trans (if_pos rfl)
  have other : ∀ k, k ≠ n.val → g.lane k = s.hub.lane k := fun k hk => by
    subst hg
    exact ((Hub.setLane_lane _ _ _ _).trans (if_neg hk)).trans ((s.hub.statusSeen_lane n k f).trans (if_neg hk))
  have only : s.hub.onlyIn [.cfg, .flt, .sl] g := by
    subst hg
    simp [Hub.onlyIn_iff, Hub.slotGranted, Hub.statusSeen, Hub.setLane, Hub.setChain]
  refine does_row rfl hp ?_ ⟨?_, ?_, ?_, fun k hk => (lane k).trans (other k hk)⟩
  · rw [row]
    exact Hub.onlyIn_trans (Hub.onlyIn_mono only (by decide)) (Hub.onlyIn_mono done (by decide))
  · rw [row, done .cfg (by decide), ← hg]
    rfl
  · rw [lane, own, Hub.statusSeen_lane, if_pos rfl]
  · have flt : (slSlotAckReceive n intact f s.hub).flt = g.flt := by
      rw [row]
      exact done .flt (by decide)
    rw [Hub.chain, flt, ← hg]
    simp [Hub.slotGranted, Hub.setChain]

theorem Hub.setLane_self (h : Hub) (n : Nat) : ∀ k, (h.setLane n (h.lane n)).lane k = h.lane k := fun k => by
  rw [Hub.setLane_lane]
  split
  · next e => rw [e]
  · rfl

theorem slSlotSetTimeout_times_out {slot : Fin 32} {q : SlotReq} (hp : s.hub.powered = true) (one : (s.hub.lane n).slotReqs = [q])
    (own : q.slot = slot.val) (late : q.since + 491520 ≤ s.hub.xoCycles) :
    Does (.slSlotSetTimeout n slot) s [.host, .sl, .tx] fun t => (t.lane n).slotReqs = [] ∧
      t = ({ s.hub with sl := t.sl } : Hub).complete q.handle TIMED_OUT [] ∧ ∀ k : Nat, k ≠ n.val → t.lane k = s.hub.lane k := by
  have row : slSlotSetTimeout n slot s.hub = (s.hub.setLane n { s.hub.lane n with slotReqs := [] }).complete q.handle TIMED_OUT [] := by
    simp [slSlotSetTimeout, one, own, late]
  refine does_row rfl hp ?_ ⟨?_, ?_, fun k hk => ?_⟩
  · rw [row]
    exact Hub.onlyIn_trans (Hub.onlyIn_mono (s.hub.setLane_onlyIn n _) (by decide)) (Hub.onlyIn_mono (Hub.complete_onlyIn _ _ _ _) (by decide))
  · rw [row, Hub.lane_congr (Hub.complete_sl ..)]
    simp
  · rw [row, Hub.complete_sl]
    rfl
  · rw [row, Hub.lane_congr (Hub.complete_sl ..)]
    simp [hk]

theorem slSlotSetTimeout_waits {slot : Fin 32} (hp : s.hub.powered = true)
    (early : ∀ q ∈ (s.hub.lane n).slotReqs, q.slot = slot.val → s.hub.xoCycles < q.since + 491520) :
    Does (.slSlotSetTimeout n slot) s [.sl] fun t => ∀ k, t.lane k = s.hub.lane k := by
  have none : (s.hub.lane n).slotReqs.filter (fun q => q.slot == slot.val && decide (q.since + 491520 ≤ s.hub.xoCycles)) = [] := by
    refine List.filter_eq_nil_iff.mpr fun q hq => ?_
    have := early q hq
    simp only [Bool.and_eq_true, beq_iff_eq, decide_eq_true_eq, not_and]
    omega
  have row : slSlotSetTimeout n slot s.hub = s.hub.setLane n (s.hub.lane n) := by simp [slSlotSetTimeout, none]
  refine does_row rfl hp (row ▸ s.hub.setLane_onlyIn n _) ?_
  rw [row]
  exact s.hub.setLane_self n

end

end Sys2Proof.Machine


/-! PROOFS. STATUS frames, delay measurement and timers of the sensor lanes (O58). -/
namespace Sys2Proof.Machine

section
variable {s : State} {n : Fin 16}

/-! ### RELEASED (R396, R399) -/

theorem Hub.slLost_onlyIn (h : Hub) (ch r c0 c1 : Nat) : h.onlyIn [.flt] (h.slLost ch r c0 c1) := by
  refine Hub.onlyIn_foldl (fun g e => ?_) _ _
  dsimp only
  split
  · exact g.slFeed_onlyIn _ _
  · exact g.onlyIn_refl _

/-- The inputs of every slot of a lane from one count to another will not come. -/
def Hub.slotsLost (h : Hub) (n c0 c1 : Nat) : Hub :=
  (List.range 32).foldl (fun h s =>
    let k := h.cfg.slots.get (32 * n + s)
    if k.enable then h.slLost (128 + 32 * n + s) k.rate c0 c1 else h) h

theorem Hub.slotsLost_onlyIn (h : Hub) (n c0 c1 : Nat) : h.onlyIn [.flt] (h.slotsLost n c0 c1) := by
  refine Hub.onlyIn_foldl (fun g e => ?_) _ _
  dsimp only
  split
  · exact g.slLost_onlyIn _ _ _ _
  · exact g.onlyIn_refl _

theorem Hub.slotsLost_expect (h : Hub) (n c0 c1 : Nat) (f : List Byte) :
    (((h.statusSeen n f).slotsLost n c0 c1).lane n).expect = (h.lane n).expect := by
  rw [Hub.lane_congr ((h.statusSeen n f).slotsLost_onlyIn n c0 c1 .sl (by decide)), Hub.statusSeen_lane, if_pos rfl]

theorem slReleasedReceive_moves {intact : Bool} {f b : List Byte} {e : Nat} (hp : s.hub.powered = true) (up : (s.hub.lane n).st = .up)
    (running : s.hub.clk.held = false) (fault : frameFault 2 3 (s.hub.lane n).level 0 intact f = none) (pay : framePay f = b)
    (len : b.length = 16) (he : (s.hub.lane n).expect = some e) (on : 0 ≤ diff32 (at_ b 4 4) e) :
    Does (.slReleasedReceive n intact f) s [.flt, .sl, .tx] fun t => (t.lane n).expect = some ((at_ b 4 4 + 1) % 2 ^ 32) := by
  have seen := Hub.laneStatus_good (n := n.val) (sub := 3) running fault pay len
  have lost := (s.hub.statusSeen n f).slotsLost_onlyIn n (at_ b 8 4) (at_ b 12 4)
  have expect := (s.hub.slotsLost_expect n (at_ b 8 4) (at_ b 12 4) f).trans he
  generalize hg : (s.hub.statusSeen n f).slotsLost n (at_ b 8 4) (at_ b 12 4) = g at lost expect
  have ahead : (g.lane n).expect.all (fun e => decide (0 ≤ diff32 (at_ b 4 4) e)) = true := by
    rw [expect, Option.all_some, decide_eq_true_eq]
    exact on
  have row : ∃ o, slReleasedReceive n intact f s.hub =
      (g.setLane n { g.lane n with expect := some ((at_ b 4 4 + 1) % 2 ^ 32), open_ := o }).slMarks := by
    rw [Hub.slotsLost] at hg
    unfold slReleasedReceive
    rw [if_neg (not_not.mpr up), seen]
    dsimp only at hg ⊢
    rw [hg, if_pos ahead]
    exact ⟨_, rfl⟩
  obtain ⟨o, row⟩ := row
  have marks := Hub.slMarks_onlyIn (g.setLane n { g.lane n with expect := some ((at_ b 4 4 + 1) % 2 ^ 32), open_ := o })
  have kept := (Hub.slMarks_keepsTaking (g.setLane n { g.lane n with expect := some ((at_ b 4 4 + 1) % 2 ^ 32), open_ := o })).lane n
  simp only [Lane.taking, Prod.mk.injEq, Hub.setLane_lane, if_pos] at kept
  have only : s.hub.onlyIn [.flt, .sl, .tx] g :=
    Hub.onlyIn_trans (Hub.onlyIn_mono (s.hub.setLane_onlyIn n _) (by decide)) (Hub.onlyIn_mono lost (by decide))
  refine does_row rfl hp ?_ ?_
  · rw [row]
    exact Hub.onlyIn_trans (Hub.onlyIn_trans only (Hub.onlyIn_mono (g.setLane_onlyIn n _) (by decide))) marks
  · rw [row]
    exact kept.2.1

/-! ### SLIP and POD_HEALTH (R387, R394) -/

theorem slSlipReceive_slips {intact : Bool} {f : List Byte} (hp : s.hub.powered = true) (up : (s.hub.lane n).st = .up)
    (running : s.hub.clk.held = false) (fault : frameFault 2 4 (s.hub.lane n).level 0 intact f = none) (len : (framePay f).length = 8) :
    Does (.slSlipReceive n intact f) s [.sl] fun t => (t.lane n).slip = true ∧ (t.lane n).rxCseq = (frameSeq f + 1) % 2 ^ 32 ∧
      (t.lane n).expect = (s.hub.lane n).expect ∧ ∀ k : Nat, k ≠ n.val → t.lane k = s.hub.lane k := by
  have seen := Hub.laneStatus_good (n := n.val) (sub := 4) running fault rfl len
  have row : slSlipReceive n intact f s.hub =
      (s.hub.statusSeen n f).setLane n { (s.hub.statusSeen n f).lane n with slip := true } := by
    unfold slSlipReceive
    rw [if_pos (Or.inl up), seen]
    rfl
  refine does_row rfl hp ?_ ?_
  · rw [row]
    exact Hub.onlyIn_trans (s.hub.setLane_onlyIn n _) (Hub.setLane_onlyIn _ n _)
  · rw [row]
    exact ⟨by simp, by simp [Hub.statusSeen_lane], by simp [Hub.statusSeen_lane], fun k hk => by simp [Hub.statusSeen_lane, hk]⟩

theorem slPodHealthReceive_lands {intact : Bool} {f : List Byte} (hp : s.hub.powered = true) (up : (s.hub.lane n).st = .up)
    (running : s.hub.clk.held = false) (level : 3 ≤ (s.hub.lane n).level) (fault : frameFault 2 5 (s.hub.lane n).level 0 intact f = none)
    (len : (framePay f).length = 16) (zero : at_ (framePay f) 8 8 = 0) :
    Does (.slPodHealthReceive n intact f) s [.host, .evt, .jrn, .sto, .sl, .tx] fun t => (t.lane n).rxCseq = (frameSeq f + 1) % 2 ^ 32 ∧
      t = ({ s.hub with sl := t.sl } : Hub).landHealth 0x51 s.hub.tb.epoch s.hub.sampleT (b1 n ++ b1 0 ++ framePay f) ∧
      ∀ k : Nat, k ≠ n.val → t.lane k = s.hub.lane k := by
  have seen := Hub.laneStatus_good (n := n.val) (sub := 5) running fault rfl len
  have row : slPodHealthReceive n intact f s.hub =
      (s.hub.statusSeen n f).landHealth 0x51 s.hub.tb.epoch s.hub.sampleT (b1 n ++ b1 0 ++ framePay f) := by
    unfold slPodHealthReceive
    rw [if_neg (by simp [up, running]), if_neg (by omega), seen]
    dsimp only
    rw [if_neg (not_not.mpr zero)]
  have landed : (s.hub.statusSeen n f).onlyIn [.host, .evt, .jrn, .sto, .tx] (slPodHealthReceive n intact f s.hub) := by
    rw [row]
    exact Hub.onlyIn_mono (Hub.land_records _ _ _ _ _ _ _).raises.only (by decide)
  have sl := landed .sl (by decide)
  refine does_row rfl hp (Hub.onlyIn_trans (Hub.onlyIn_mono (s.hub.setLane_onlyIn n _) (by decide)) (Hub.onlyIn_mono landed (by decide)))
    ⟨?_, ?_, fun k hk => ?_⟩
  · rw [Hub.lane_congr sl, Hub.statusSeen_lane, if_pos rfl]
  · rw [sl, row]
    rfl
  · rw [Hub.lane_congr sl, Hub.statusSeen_lane, if_neg hk]

/-! ### Delay (R280, R291, R388, R389) -/

/-- With room in the stamp FIFO both stamps of a round trip are kept. -/
theorem Hub.line9Trip_fits {h : Hub} (r : Nat) {e : RoundTrip} (room : h.tiu.fifo + 2 ≤ 512 + e.drained) :
    ∃ t : TiuSt, h.line9Trip r e = ({ h with tiu := t }, some (h.tripPs r e)) ∧ t.line9 = h.tiu.line9 := by
  have first : ¬ 512 ≤ h.tiu.fifo - e.drained := by omega
  have second : ¬ 512 ≤ h.tiu.fifo - e.drained + 1 := by omega
  refine ⟨(h.line9Trip r e).1.tiu, ?_, ?_⟩ <;> simp [Hub.line9Trip, Hub.fifoDrain, Hub.fifoTake, first, second]

/-- The mean delay of a lane with that of a round trip of `rtt` ps and TURN of 10 `turn` ps. -/
def Lane.delayMean (x : Lane) (rtt : Int) (turn : Nat) : Int := meanI (((rtt - ((10 * turn : Nat) : Int) + x.use.asym) * 500 :: x.delays).take 16)

/-- An echo of the lane's own probe comes on a line that serves it, with a TURN that is the one known. -/
structure Hub.EchoesOn (h : Hub) (n : Nat) (trip : RoundTrip) (turn : Nat) (r : List Nat) : Prop where
  served : h.tiu.calAll = false
  whole : 9 ∉ h.tiu.lost
  running : h.clk.held = false
  room : h.tiu.fifo + 2 ≤ 512 + trip.drained
  line : h.tiu.line9 = n :: r
  once : n ∉ r
  level : 2 ≤ (h.lane n).level
  short : turn ≤ 60000
  turn : (h.lane n).turn = turn

/-- A lane with one more delay. -/
def Lane.timed (x : Lane) (rtt : Int) (turn : Nat) : Lane :=
  { x with delays := ((rtt - ((10 * turn : Nat) : Int) + x.use.asym) * 500 :: x.delays).take 16, turn := turn, unanswered := 0 }

/-- The line passes on when no one else waits. -/
theorem Hub.line9Next_last {h : Hub} {n : Nat} (hl : h.tiu.line9 = [n]) : h.line9Next.tiu.line9 = [] ∧ ∀ k, h.line9Next.lane k = h.lane k := by
  rw [Hub.line9Next, hl]
  exact ⟨rfl, fun _ => rfl⟩

theorem slDelayEcho_up {h : Hub} {n : Nat} {trip : RoundTrip} {turn : Nat} {r : List Nat} (he : h.EchoesOn n trip turn r)
    (up : (h.lane n).st = .up)
    (near : ((h.lane n).delayMean (h.tripPs n trip) turn - (h.lane n).delta).natAbs ≤ (h.lane n).use.jump * 1000) :
    ∃ t : TiuSt, t.line9 = n :: r ∧ slDelayEcho n trip turn h =
      (({ h with tiu := t } : Hub).setLane n { (h.lane n).timed (h.tripPs n trip) turn with
        delta := (h.lane n).delayMean (h.tripPs n trip) turn }).line9Next := by
  obtain ⟨served, whole, running, room, line, once, level, short, known⟩ := he
  obtain ⟨t, fits, kept⟩ := Hub.line9Trip_fits n room
  have lane : ∀ t : TiuSt, ({ h with tiu := t } : Hub).lane n = h.lane n := fun _ => rfl
  have ps : 10 * turn / 10 = turn := by omega
  have legal : ¬ (600000 < 10 * turn ∨ turn ≠ 0 ∧ 2000 < (((10 * turn : Nat) : Int) - (10 * turn : Nat)).natAbs) := by
    rw [Int.sub_self]
    simp
    omega
  refine ⟨t, kept.trans line, ?_⟩
  have counts : h.tiu.lost.contains 9 = false := by simpa using whole
  unfold slDelayEcho
  simp only [served, counts, running, line, fits, lane, up, known, level, ps, Bool.or_self, Bool.false_eq_true, if_false, if_true, true_or,
    List.head?_cons, bne_self_eq_false]
  rw [Lane.delayMean] at near
  rw [if_neg legal, if_neg (by decide), if_pos near]
  simp only [Lane.timed, Lane.delayMean, up]

/-- What passes the line on leaves of the lane that gave it up, and of every lane when no one else waits. -/
theorem Hub.setLane_line9Next_does {h : Hub} {n : Nat} {r : List Nat} {x : Lane} {t : TiuSt} (ht : t.line9 = n :: r) (once : n ∉ r) :
    h.onlyIn [.tiu, .sl, .casc, .tx] (({ h with tiu := t } : Hub).setLane n x).line9Next ∧
      (({ h with tiu := t } : Hub).setLane n x).line9Next.lane n = x ∧
      (r = [] → (({ h with tiu := t } : Hub).setLane n x).line9Next.tiu.line9 = [] ∧
        ∀ k, k ≠ n → (({ h with tiu := t } : Hub).setLane n x).line9Next.lane k = h.lane k) := by
  have written : h.onlyIn [.tiu, .sl, .casc, .tx] (({ h with tiu := t } : Hub).setLane n x) := by simp [Hub.onlyIn_iff, Hub.setLane]
  refine ⟨Hub.onlyIn_trans written (Hub.line9Next_probes _).only, ?_, fun last => ?_⟩
  · rw [Hub.line9Next, Hub.line9Go_lane]
    · simp
    · simpa [ht] using once
  · obtain ⟨free, lanes⟩ := Hub.line9Next_last (h := ({ h with tiu := t } : Hub).setLane n x) (n := n) (by simp [ht, last])
    refine ⟨free, fun k hk => ?_⟩
    rw [lanes, Hub.setLane_lane, if_neg hk]
    rfl

theorem slDelayEcho_follows {trip : RoundTrip} {turn : Nat} {r : List Nat} (hp : s.hub.powered = true) (he : s.hub.EchoesOn n trip turn r)
    (up : (s.hub.lane n).st = .up)
    (near : ((s.hub.lane n).delayMean (s.hub.tripPs n trip) turn - (s.hub.lane n).delta).natAbs ≤ (s.hub.lane n).use.jump * 1000) :
    Does (.slDelayEcho n trip turn) s [.tiu, .sl, .casc, .tx] fun t =>
      (t.lane n).delta = (s.hub.lane n).delayMean (s.hub.tripPs n trip) turn ∧ (t.lane n).unanswered = 0 ∧
      (t.lane n).placed = (s.hub.lane n).placed ∧
      (r = [] → t.tiu.line9 = [] ∧ ∀ k : Nat, k ≠ n.val → t.lane k = s.hub.lane k) := by
  obtain ⟨t, line, row⟩ := slDelayEcho_up he up near
  obtain ⟨only, own, last⟩ := Hub.setLane_line9Next_does (h := s.hub) (x := { (s.hub.lane n).timed (s.hub.tripPs n trip) turn with
    delta := (s.hub.lane n).delayMean (s.hub.tripPs n trip) turn }) line he.once
  refine does_row rfl hp (row ▸ only) ?_
  rw [row, own]
  exact ⟨rfl, rfl, rfl, last⟩

/-- The sixteenth delay of step 8 leads to step 9, with the strobe placed at the mean. -/
theorem slDelayEcho_training {h : Hub} {n : Nat} {trip : RoundTrip} {turn : Nat} {r : List Nat} (he : h.EchoesOn n trip turn r)
    (st : (h.lane n).st = .training) (step : (h.lane n).step = 8) (many : (h.lane n).delays.length = 15) :
    ∃ t : TiuSt, t.line9 = n :: r ∧ ∃ now, slDelayEcho n trip turn h =
      ((({ h with tiu := t } : Hub).setLane n { (h.lane n).timed (h.tripPs n trip) turn with
        delta := (h.lane n).delayMean (h.tripPs n trip) turn, placed := (h.lane n).delayMean (h.tripPs n trip) turn, step := 9
        stepAt := now }).line9Next).sendTiming n := by
  obtain ⟨served, whole, running, room, line, once, level, short, known⟩ := he
  obtain ⟨t, fits, kept⟩ := Hub.line9Trip_fits n room
  have lane : ∀ t : TiuSt, ({ h with tiu := t } : Hub).lane n = h.lane n := fun _ => rfl
  have ps : 10 * turn / 10 = turn := by omega
  have legal : ¬ (600000 < 10 * turn ∨ turn ≠ 0 ∧ 2000 < (((10 * turn : Nat) : Int) - (10 * turn : Nat)).natAbs) := by
    rw [Int.sub_self]
    simp
    omega
  have full : ¬ (((h.tripPs n trip - ((10 * turn : Nat) : Int) + (h.lane n).use.asym) * 500 :: (h.lane n).delays).take 16).length < 16 := by
    rw [List.length_take, List.length_cons, many]
    decide
  have counts : h.tiu.lost.contains 9 = false := by simpa using whole
  refine ⟨t, kept.trans line, h.xoCycles, ?_⟩
  unfold slDelayEcho
  simp only [served, counts, running, line, fits, lane, st, step, known, level, ps, Bool.or_self, Bool.false_eq_true, if_false, if_true,
    List.head?_cons, bne_self_eq_false, and_self, or_true]
  rw [if_neg legal, if_neg full]
  simp only [Lane.timed, Lane.delayMean, st]
  rfl

theorem Hub.sendTiming_eq (h : Hub) (n : Nat) : ∃ payload, h.sendTiming n = h.laneSend n 8 3 payload := ⟨_, rfl⟩

theorem slDelayEcho_places {trip : RoundTrip} {turn : Nat} {r : List Nat} (hp : s.hub.powered = true) (he : s.hub.EchoesOn n trip turn r)
    (st : (s.hub.lane n).st = .training) (step : (s.hub.lane n).step = 8) (many : (s.hub.lane n).delays.length = 15) :
    Does (.slDelayEcho n trip turn) s [.tiu, .sl, .casc, .tx] fun t => (t.lane n).st = .training ∧ (t.lane n).step = 9 ∧
      (t.lane n).delta = (s.hub.lane n).delayMean (s.hub.tripPs n trip) turn ∧ (t.lane n).placed = (t.lane n).delta ∧
      (r = [] → t.tiu.line9 = [] ∧ ∀ k : Nat, k ≠ n.val → t.lane k = s.hub.lane k) := by
  obtain ⟨t, line, now, row⟩ := slDelayEcho_training he st step many
  obtain ⟨only, own, last⟩ := Hub.setLane_line9Next_does (h := s.hub) (x := { (s.hub.lane n).timed (s.hub.tripPs n trip) turn with
    delta := (s.hub.lane n).delayMean (s.hub.tripPs n trip) turn, placed := (s.hub.lane n).delayMean (s.hub.tripPs n trip) turn, step := 9
    stepAt := now }) line he.once
  generalize (({ s.hub with tiu := t } : Hub).setLane n _).line9Next = g at row only own last
  obtain ⟨payload, timing⟩ := g.sendTiming_eq n
  rw [timing] at row
  refine does_row rfl hp ?_ ?_
  · rw [row]
    exact Hub.onlyIn_trans only (Hub.onlyIn_mono (g.laneSend_onlyIn _ _ _ _) (by decide))
  · rw [row]
    simp only [Hub.laneSend_lane, if_true, own, Hub.laneSend_tiu]
    refine ⟨st, trivial, trivial, trivial, fun free => ?_⟩
    obtain ⟨idle, other⟩ := last free
    exact ⟨idle, fun k hk => by rw [if_neg hk, other k hk]⟩

/-- While line 9 cannot serve, echoes count as answers. -/
theorem slDelayEcho_unserved {trip : RoundTrip} {turn : Nat} (hp : s.hub.powered = true) (off : s.hub.tiu.calAll = true ∨ 9 ∈ s.hub.tiu.lost) :
    Does (.slDelayEcho n trip turn) s [.sl] fun t => t.lane n = { s.hub.lane n with unanswered := 0 } ∧
      ∀ k : Nat, k ≠ n.val → t.lane k = s.hub.lane k := by
  have unserved : (s.hub.tiu.calAll || s.hub.tiu.lost.contains 9) = true := by simpa using off
  have row : slDelayEcho n trip turn s.hub = s.hub.setLane n { s.hub.lane n with unanswered := 0 } := if_pos unserved
  refine does_row rfl hp (row ▸ s.hub.setLane_onlyIn n _) ?_
  rw [row]
  exact ⟨by simp, fun k hk => by simp [hk]⟩

theorem slDelayEcho_ignored {h : Hub} {n : Nat} {trip : RoundTrip} {turn : Nat} (served : h.tiu.calAll = false) (whole : 9 ∉ h.tiu.lost)
    (other : h.clk.held = true ∨ h.tiu.line9.head? ≠ some n) : slDelayEcho n trip turn h = h := by
  have ignored : (h.clk.held || h.tiu.line9.head? != some n) = true := by simpa using other
  unfold slDelayEcho
  rw [if_neg (by simp [served, whole]), if_pos ignored]

/-! ### Probes, LANDED and what waits for an answer (R389, R397, R412) -/

theorem slProbeTimer_probes (hp : s.hub.powered = true) (up : (s.hub.lane n).st = .up) (running : s.hub.clk.held = false)
    (due : s.hub.passed (s.hub.lane n).probeAt ((s.hub.lane n).use.probeInt * 49152) = true) (few : (s.hub.lane n).unanswered < 3) :
    Does (.slProbeTimer n) s [.tiu, .sl, .casc, .tx] fun t => (t.lane n).probeAt = some s.hub.xoCycles ∧ n.val ∈ t.tiu.line9 ∧
      (s.hub.tiu.line9 = [] → (t.lane n).unanswered = (s.hub.lane n).unanswered + 1 ∧ t.tx = s.hub.tx ++ [.symbol n 0x1C 0] ∧
        ∀ k : Nat, k ≠ n.val → t.lane k = s.hub.lane k) := by
  have held : ¬ s.hub.clk.held = true := by simp [running]
  have row : slProbeTimer n s.hub = (s.hub.setLane n { s.hub.lane n with probeAt := some s.hub.xoCycles }).line9Ask n := by
    unfold slProbeTimer
    rw [if_pos ⟨up, held, due⟩, if_neg (by omega)]
  generalize hg : s.hub.setLane n { s.hub.lane n with probeAt := some s.hub.xoCycles } = g at row
  have own : g.lane n = { s.hub.lane n with probeAt := some s.hub.xoCycles } := by simp [← hg]
  have other : ∀ k, k ≠ n.val → g.lane k = s.hub.lane k := fun k hk => by simp [← hg, hk]
  have only : s.hub.onlyIn [.sl] g := hg ▸ s.hub.setLane_onlyIn n _
  have one : g.probesOf n = 1 := Hub.probesOf_up n.isLt (by rw [own]; exact up)
  have busy : g.probesOf n ≠ 0 := by omega
  have probes := g.line9Ask_probes n
  have kept := probes.lane n
  refine does_row rfl hp ?_ ?_
  · rw [row]
    exact Hub.onlyIn_trans (Hub.onlyIn_mono only (by decide)) probes.only
  · rw [row]
    refine ⟨?_, g.line9Ask_mem busy, fun free => ?_⟩
    · exact (congrArg Lane.probeAt kept :).trans (congrArg Lane.probeAt own)
    · have idle : g.tiu.line9 = [] := by rw [only .tiu (by decide)]; exact free
      have same : ({ g with tiu := { g.tiu with line9 := [n.val] } } : Hub).probesOf n = 1 := one
      rw [g.line9Ask_free idle busy]
      refine ⟨?_, ?_, fun k hk => (Hub.probeSend_other _ hk).trans (other k hk)⟩
      · rw [Hub.probeSend_lane_eq _ n.isLt]
        change ((Hub.setLane _ _ _).lane n).unanswered = _
        rw [Hub.setLane_lane, if_pos rfl, Hub.probedLane, same]
        exact congrArg (·.unanswered + 1) own
      · rw [Hub.probeSend_lane_eq _ n.isLt, same]
        exact congrArg (· ++ _) (only .tx (by decide))

theorem slLandedTimer_sends (hp : s.hub.powered = true) (marked : s.hub.slMarks = s.hub) (up : (s.hub.lane n).st = .up)
    (running : s.hub.clk.held = false) (due : (s.hub.lane n).landedAt + 491520 ≤ s.hub.xoCycles) :
    Does (.slLandedTimer n) s [.flt, .sl, .tx] fun t => t.lane n =
      { s.hub.lane n with cseq := ((s.hub.lane n).cseq + 1) % 2 ^ 32, landedAt := s.hub.xoCycles } ∧
      (∀ k : Nat, k ≠ n.val → t.lane k = s.hub.lane k) ∧ ∃ b, t.tx = s.hub.tx ++ [.lane n 10 0 (s.hub.lane n).cseq b] := by
  have held : ¬ s.hub.clk.held = true := by simp [running]
  have row : slLandedTimer n s.hub = s.hub.sendLanded n false := by
    unfold slLandedTimer
    rw [if_pos ⟨up, held, due⟩, marked]
    exact if_pos due
  refine does_row rfl hp (row ▸ Hub.onlyIn_mono (s.hub.sendLanded_onlyIn n false) (by decide)) ?_
  rw [row]
  refine ⟨by rw [Hub.sendLanded_lane, if_pos rfl], fun k hk => by rw [Hub.sendLanded_lane, if_neg hk], ?_⟩
  obtain ⟨b, sent⟩ := (s.hub.setLane n { s.hub.lane n with landedAt := s.hub.xoCycles }).laneSend_tx n 10 0
    (b4 (s.hub.lane n).taken ++ b4 ((s.hub.lane n).landed.getD (s.hub.lane n).taken) ++ b4 (flag false 0))
  refine ⟨b, sent.trans ?_⟩
  rw [Hub.setLane_lane, if_pos rfl, Hub.setLane_tx]

theorem slLandedTimer_waits {h : Hub} {n : Nat}
    (early : (h.lane n).st ≠ .up ∨ h.clk.held = true ∨ h.xoCycles < (h.lane n).landedAt + 491520) : slLandedTimer n h = h := by
  refine if_neg fun ⟨up, running, due⟩ => ?_
  obtain st | held | soon := early
  · exact st up
  · exact running held
  · omega

theorem slResetTimeout_times_out {hd since : Nat} (hp : s.hub.powered = true) (one : (s.hub.lane n).reset = [(hd, since)])
    (late : since + 4915200 ≤ s.hub.xoCycles) :
    Does (.slResetTimeout n) s [.host, .sl, .tx] fun t => (t.lane n).reset = [] ∧
      t = ({ s.hub with sl := t.sl } : Hub).complete hd TIMED_OUT [] ∧ ∀ k : Nat, k ≠ n.val → t.lane k = s.hub.lane k := by
  have row : slResetTimeout n s.hub = (s.hub.setLane n { s.hub.lane n with reset := [] }).complete hd TIMED_OUT [] := by
    simp [slResetTimeout, one, late]
  refine does_row rfl hp ?_ ⟨?_, ?_, fun k hk => ?_⟩
  · rw [row]
    exact Hub.onlyIn_trans (Hub.onlyIn_mono (s.hub.setLane_onlyIn n _) (by decide)) (Hub.onlyIn_mono (Hub.complete_onlyIn _ _ _ _) (by decide))
  · rw [row, Hub.lane_congr (Hub.complete_sl ..)]
    simp
  · rw [row, Hub.complete_sl]
    rfl
  · rw [row, Hub.lane_congr (Hub.complete_sl ..)]
    simp [hk]

theorem slResetTimeout_waits (hp : s.hub.powered = true) (early : ∀ r ∈ (s.hub.lane n).reset, s.hub.xoCycles < r.2 + 4915200) :
    Does (.slResetTimeout n) s [.sl] fun t => ∀ k, t.lane k = s.hub.lane k := by
  have none : (s.hub.lane n).reset.filter (fun r => decide (r.2 + 4915200 ≤ s.hub.xoCycles)) = [] := by
    refine List.filter_eq_nil_iff.mpr fun r hr => ?_
    have := early r hr
    simp only [decide_eq_true_eq]
    omega
  have row : slResetTimeout n s.hub = s.hub.setLane n (s.hub.lane n) := by simp [slResetTimeout, none]
  refine does_row rfl hp (row ▸ s.hub.setLane_onlyIn n _) ?_
  rw [row]
  exact s.hub.setLane_self n

end

/-- Settles O58, row by row. -/
theorem sensorLaneRows : Obligations.SensorLaneRows := by
  unfold Obligations.SensorLaneRows
  refine ⟨?_, ?_, ?_, ?_, ?_, ?_, ?_, ?_, ?_, ?_, ?_, ?_, ?_, ?_, ?_, ?_, ?_, ?_, ?_, ?_, ?_, ?_, ?_, ?_, ?_, ?_, ?_, ?_, ?_, ?_, ?_, ?_, ?_,
    ?_, ?_⟩
  · exact fun _ _ => slLossOfLock_retrains
  · exact fun s n hp up training => does_nothing rfl hp (if_neg (not_or.mpr ⟨up, training⟩))
  · exact fun s x hp step st late measured few => slStepTimeout_retrains hp ⟨step, st, late, measured⟩ few
  · exact fun s x hp step st late measured last => slStepTimeout_gives_up hp ⟨step, st, late, measured⟩ last
  · exact fun s x hp early => does_nothing rfl hp (slStepTimeout_early early)
  · exact fun _ _ => slRetryTimer_retries
  · exact fun s n hp st => does_nothing rfl hp (if_neg fun ⟨down, _⟩ => st down)
  · exact fun _ _ _ => slCommaAlignment_aligns
  · exact fun s n _ hp st => does_nothing rfl hp (if_neg fun ⟨training, _⟩ => st training)
  · exact fun s n intact f b hp running st step fault pay len z z' key mac serial last low pod retain =>
      slHelloReceive_leads hp ⟨running, st, step, fault, pay, len, ⟨z, z'⟩, key, mac, ⟨serial, last⟩, ⟨low, pod⟩, retain⟩
  · exact fun s n _ _ hp st => does_nothing rfl hp (if_pos (Or.inl st))
  · exact fun s n intact f b es hp up running credit fault pay slots len idx zero full few he hc =>
      slSampleFrame_accepts hp ⟨up, running, credit, fault, pay, slots, ⟨len, idx, zero⟩, full, few⟩ he hc
  · exact fun s n intact f b es e hp up running credit fault pay slots len idx zero full few he old hc =>
      slSampleFrame_replays hp ⟨up, running, credit, fault, pay, slots, ⟨len, idx, zero⟩, full, few⟩ he old hc
  · exact fun s n _ _ hp st => does_nothing rfl hp (if_pos st)
  · exact fun _ _ _ _ => slSampleFrame_held
  · exact fun s n intact f b q hp up running fault pay len ok zero asked same =>
      slSlotAckReceive_does hp up running fault pay len ok zero asked same
  · exact fun s n _ _ hp st => does_nothing rfl hp (if_pos st)
  · exact fun _ _ _ _ => slSlotSetTimeout_times_out
  · exact fun _ _ _ => slSlotSetTimeout_waits
  · exact fun _ _ _ _ _ _ => slReleasedReceive_moves
  · exact fun s n _ _ hp st => does_nothing rfl hp (if_pos st)
  · exact fun _ _ _ _ => slSlipReceive_slips
  · exact fun s n _ _ hp up training => does_nothing rfl hp (if_neg (not_or.mpr ⟨up, training⟩))
  · exact fun _ _ _ _ => slPodHealthReceive_lands
  · exact fun s n _ _ hp st => does_nothing rfl hp (if_pos (Or.inl st))
  · exact fun s n trip turn r hp served whole running room line once up level short known near =>
      slDelayEcho_follows hp ⟨served, whole, running, room, line, once, level, short, known⟩ up near
  · exact fun s n trip turn r hp served whole running room line once st step level short known many =>
      slDelayEcho_places hp ⟨served, whole, running, room, line, once, level, short, known⟩ st step many
  · exact fun _ _ _ _ => slDelayEcho_unserved
  · exact fun s n _ _ hp served whole other => does_nothing rfl hp (slDelayEcho_ignored served whole other)
  · exact fun _ _ => slProbeTimer_probes
  · exact fun s n hp off => does_nothing rfl hp (if_neg fun ⟨up, running, _⟩ => off.elim (· up) running)
  · exact fun _ _ => slLandedTimer_sends
  · exact fun s n hp early => does_nothing rfl hp (slLandedTimer_waits early)
  · exact fun s n hp => does_nothing rfl hp rfl
  · exact ⟨fun _ _ _ _ => slResetTimeout_times_out, fun _ _ => slResetTimeout_waits⟩

end Sys2Proof.Machine
